-- ==== Sys2Proof/Word.lean ====
section
/-! DEFINITION. The bit-vector words of the engine: bytes, 16-, 32- and 64-bit words, and the ranges of its
counted parts (bays, beams, groups, Girth slots). Everything the manual counts from zero uses `Fin`. -/

namespace Sys2Proof

/-- A byte of a frame, a sector or a structure. -/
abbrev Byte := BitVec 8
/-- A 16-bit field. -/
abbrev Half := BitVec 16
/-- A 32-bit register, sequence number or STITCH32. -/
abbrev Word := BitVec 32
/-- STITCH64 and 64-bit names. -/
abbrev Long := BitVec 64
/-- Bays B0 to B15 (R15). -/
abbrev BayId := Fin 16
/-- Bay groups 0 to 3 (R15). -/
abbrev GroupId := Fin 4
/-- Beams b0 to b7 of one bay. -/
abbrev BeamId := Fin 8
/-- Global beams g = 8 × bay + b (R12). -/
abbrev GBeam := Fin 128
/-- Girth loop slots 0 to 255 (R227). -/
abbrev SlotId := Fin 256

end Sys2Proof
end

