-- ==== Sys2Proof/Syntax.lean ====
section
/-! DEFINITION. The commands and events of the HX-1608 engine, one constructor of `Instr` per row of
spec/opcode_table.json, and the operand types they carry. An event's operands are what the engine observes in
that event (a received frame, a measured value, a drawn random number); everything else is read from the state. -/

namespace Sys2Proof

/-- The two ring ports (R318). -/
inductive Port | east | west
  deriving DecidableEq, Repr, Inhabited

/-- The two gateways, nodes 253 and 254 (R327). -/
inductive Gateway | a | b
  deriving DecidableEq, Repr, Inhabited

/-- A queue pair: QP 0 has one instance per gateway, QPs 1 to 4095 carry data commands (R352). -/
inductive QpId
  | admin (g : Gateway)
  | data (n : Nat)
  deriving DecidableEq, Repr, Inhabited

/-- The priorities that PFC governs (R326, R336). -/
inductive Prio | p3 | p6
  deriving DecidableEq, Repr, Inhabited

/-- A block on a lane of a Welt link: its sync header and its 64 scrambled bits, bit 0 first on the lane (R210). -/
structure LaneWord where
  head : BitVec 2
  word : Long
  deriving DecidableEq, Repr, Inhabited

/-- The reserved content of a received Yaver header: FLAGS [7:2], QP [15:12], TAG [31:11] and bytes 20 to 29 (R327). It
counts only in HCRC, and is otherwise ignored (R11). -/
structure FrameRsv where
  flags : Nat := 0
  qp : Nat := 0
  tag : Nat := 0
  bytes : List Byte := List.replicate 10 0
  deriving DecidableEq, Repr, Inhabited

/-- A Yaver frame as received: the port it arrived on, its PCP, the header of R327 and the body, with the outcome
of the Ethernet FCS check. `len` is the header's LEN; `body` is the bytes that follow the header. -/
structure Frame where
  port : Port
  pcp : Nat
  ver : Nat
  ftype : Nat
  dst : Nat
  src : Nat
  dir : Bool
  retx : Bool
  wrap : Bool
  hops : Nat
  qp : Nat
  len : Nat
  seq : Word
  tag : Nat
  hcrc : Nat
  body : List Byte
  fcsOk : Bool
  rsv : FrameRsv := {}
  deriving DecidableEq, Repr, Inhabited

/-- The rails of groups 2 and 3 (R460), whose loss PD0 handles under R462. -/
inductive Rail | vddCore | vddSram | vddSerdes | vddPhot | vddaRf | vddq | vioMot | vhtr
  deriving DecidableEq, Repr, Inhabited

/-- An image slot of the boot flash as read in BOOT: its 512-byte header and its body (R404). -/
structure ImageFile where
  header : List Byte
  body : List Byte
  deriving DecidableEq, Repr, Inhabited

/-- How an SPDM request arrives (R413, R415): over MCTP type 0x05, in an MCTP secured record of a session, or in
an SPDM_TUNNEL payload, outside or inside a session. -/
inductive SpdmVia
  | mctp
  | mctpSession (sid : Word)
  | tunnel (g : Gateway) (tag : Nat)
  | tunnelSession (g : Gateway) (tag : Nat) (sid : Word)
  deriving DecidableEq, Repr, Inhabited

/-- What the motion unit and the pin samplers of one bay latch at a stitch boundary (R276, R306, R307, R309,
R496). Speeds in rpm, the residual in 1/100 % of SPIN_IMAX, coil currents in mA, the load angle in °e. `fRate` is the
S0 channel rate of the pre-format PLL in kbit/s, absent while that PLL is unlocked (R281). -/
structure MotionSample where
  bay : BayId
  rpm : Nat
  residual : Nat
  fRate : Option Nat
  pllFlagged : Bool
  coilMeanA : Nat
  coilMeanB : Nat
  loadAngle : Nat
  /-- the observer's angle in 0.1 °e, and the phase currents in mA met in time order while the spindle brakes by shorts (R276, R289) -/
  theta : Nat := 0
  shorts : List Nat := []
  /-- levels of the home switch and of the outer limit switch, sampled at the boundary, 1 active (R309) -/
  home : Bool := false
  outer : Bool := false
  /-- what the comparators of coils A and B meet in the stitch, in time order: nanoseconds from the boundary, current in mA (R305) -/
  traceA : List (Nat × Int) := []
  traceB : List (Nat × Int) := []
  deriving DecidableEq, Repr, Inhabited

/-- A parity error met by a Girth lane in one window (R246). -/
inductive GirthParity
  | coefFirst (s : SlotId)
  | coefBoth (s : SlotId)
  | stateWord (s : SlotId)
  deriving DecidableEq, Repr, Inhabited

/-- A sync or resync candidate: its position in cb from the flywheel's prediction of the sector origin, and the
number of channel bits in which the decisions differ from the mark (R111). -/
structure MarkHit where
  pos : Int
  diffs : Nat
  deriving DecidableEq, Repr, Inhabited

/-- What one beam's interpolator and timing loop give over one slot (R103 to R107, R129, R132): a sample for each channel bit from the
slot's start as the flywheel predicts it, each an ADC code less 128; the positions of clipped samples, and of retained samples
whose parity fails; the loop's phase error at each block of 64 cb, in 1/65,536 cb; whether the loop lost lock; the phase error
at the sync mark. -/
structure BeamRaw where
  beam : BeamId
  samples : List Int
  clipped : List Nat
  parity : List Nat
  errs : List Int
  lostLock : Bool
  syncErr : Int
  deriving DecidableEq, Repr, Inhabited

/-- Lead-in, data band and lead-out (R30). -/
inductive Zone | leadIn | dataBand | leadOut
  deriving DecidableEq, Repr, Inhabited

/-- One slot passing under the head of a bay: where it lies, the grid's timing error in parts per 10,000, the address words read
with it (beam, word, and the position in the slot at which the word's unit begins), whether S0's pre-format shows the ridge
pattern, the ridge PLL's edge error at each 8 cb in 1/1,000 cb, and what each beam gives. -/
structure SlotObs where
  zone : Zone
  layer : Fin 6
  slot : Nat
  rateErr : Int
  words : List (BeamId × BitVec 60 × Int)
  ridge : Bool
  edges : List Int
  beams : List BeamRaw
  deriving DecidableEq, Repr, Inhabited

/-- The LDPC array's report on one codeword (R73, R144): the LLR of each of its 9,288 bits after the last iteration, positive for a 0,
and the iterations made. -/
structure CwReport where
  llr : List Int
  iters : Nat
  deriving DecidableEq, Repr, Inhabited

/-- A sector's codeword reports, none for a codeword that the array was not sent. -/
structure DecodeReport where
  cws : List (Option CwReport)
  deriving DecidableEq, Repr, Inhabited

/-- Where a sector is read: a slot of a spiral of a layer in a zone (R38, R48). -/
structure SlotAddr where
  zone : Zone
  layer : Fin 6
  spiral : Fin 8
  slot : Nat
  deriving DecidableEq, Repr, Inhabited

/-- The criteria of R287. -/
inductive RotorCause | residual | jump | overspeed
  deriving DecidableEq, Repr, Inhabited

/-- The homing failures of R310. -/
inductive HomeFault | wrongLimit | notFound | noRelease | stall
  deriving DecidableEq, Repr, Inhabited

/-- The two switch inputs of a sled (R311). -/
inductive SledSwitch | home | outer
  deriving DecidableEq, Repr, Inhabited

/-- The requesters of a DRAM read or write (R438, R444). -/
inductive Client
  | latePass (bay : BayId) (slot first : Nat)
  | retryStore (bay : BayId) (entry : Nat)
  | reassembly (bay : BayId) (layer : Fin 6) (block sector : Nat)
  | feeder (bay : BayId) (block sector : Nat)
  | writeBuffer (handle : Nat)
  | rebuildBuffer (course : Long) (row member : Nat)
  | queueSqe (q : QpId) (tag : Nat)
  | retransmission (q : QpId) (seq : Word) (rebuilt : Bool)
  | coreImage (core : Fin 2) (secondCopyOk : Bool)
  | coreData (core : Fin 2)
  | burnisher
  /-- a write-back of a cache -/
  | cacheWrite
  /-- the controller itself, for the read of a read-modify-write (R442) -/
  | merge
  /-- words of the on-chip SRAMs of R437, by word index: a bay's write-feed FIFO with the beams whose bits stand in the word and the
  channel bit of the slot with which it begins, the ingest
  buffer, the codec's and the egress buffers -/
  | feedFifo (bay : BayId) (word : Nat) (beams : List BeamId) (cb : Nat)
  | ingest (word : Nat)
  | codec (word : Nat)
  | egressSram (word : Nat)
  deriving DecidableEq, Repr, Inhabited

/-- The caches of the management complex (R449). -/
inductive Cache
  | l1i (core : Fin 2)
  | l1d (core : Fin 2)
  | l2
  deriving DecidableEq, Repr, Inhabited

/-- Who reads and writes memory: a core, or a hardware agent as a client of its own (R438, R451). -/
inductive Agent | core (c : Fin 2) | hardware (c : Client)
  deriving DecidableEq, Repr, Inhabited
inductive AccessKind | load | fetch | store
  deriving DecidableEq, Repr, Inhabited
/-- An access to bytes within one line; `data` holds a store's bytes. -/
structure MemAccess where
  agent : Agent
  kind : AccessKind
  pa : Nat
  data : List Byte
  deriving DecidableEq, Repr, Inhabited
/-- What the memory system meets in a stitch: the accesses made, in their order, and how many commands each channel issues. -/
structure MemStitch where
  accesses : List MemAccess := []
  issue0 : Nat := 0
  issue1 : Nat := 0
  deriving DecidableEq, Repr, Inhabited

/-- The cache errors of R455; an L2 data error names the bits of the (72,64) word that are inverted (R449). -/
inductive CacheFault
  | l1iParity | l1dParity | l2Data (word : Fin 8) (flips : List Nat) | l2TagParity
  deriving DecidableEq, Repr, Inhabited

/-- The instructions of the test access port (R506). -/
inductive TapInstr | bypass | idcode | sample | other (code : Nat)
  deriving DecidableEq, Repr, Inhabited

/-- The registers that a plain write can name (R9): those whose fields are RO or RW and that have no command of
their own. -/
inductive Reg
  | trimWord (g : GBeam)
  | stitchLo | stitchHi | spanPos
  | slotStat (s : SlotId)
  | girthStat | girthLoad
  | busStat (g : GroupId)
  | sledPos (b : BayId)
  | ringStat
  | ringDrop (p : Port)
  | rgnBase (i : Fin 16)
  | cmCmd (core : Fin 2)
  | cmAddr (core : Fin 2)
  | dramStat (c : Fin 2)
  | burnishStat
  | tsVal (i : Fin 16)
  | eaveStat | pwrStat | resetCause
  deriving DecidableEq, Repr, Inhabited

/-- The commands and events of the engine, in the order of spec/opcode_table.json. -/
inductive Instr
  -- device: supply, reset, rails, boot, restarts and automatic mode changes
  | pd0SupplyApplied (smbAddr : Fin 8) (dramCfg : Fin 4)
  | pd0SupplyLost
  | resetNAsserted (smbAddr : Fin 8) (dramCfg : Fin 4)
  | resetNReleased (smbAddr : Fin 8) (dramCfg : Fin 4) (testEn : Bool)
  | railFault (r : Rail)
  | railRestored (r : Rail)
  | refclkSysLost
  | refclkSysRestored
  | refclkRingLost
  | dramTrainingComplete (ch : Fin 2) (ok : Bool)
  | imageStart (dir0 dir1 : List Byte) (imgA imgB : ImageFile) (elsEast elsWest selfTest : Bool)
  | watchdogExpiry (core : Fin 2)
  | mgmtRestartComplete
  | selfResetEntry
  | constrainedExit
  | quiesceDrained
  | retirePowerDown
  -- MCTP vendor-defined commands
  | getStatus (inst : Byte)
  | getTemps (inst : Byte)
  | reset (inst : Byte)
  | wake (inst : Byte)
  | shutdown (inst : Byte)
  | safeStop (inst : Byte)
  | claos (inst : Byte) (sqe payload : List Byte)
  | mctpVendorUnsupported (inst code : Byte)
  -- MCTP control commands
  | setEndpointId (eid : Byte)
  | getEndpointId
  | getEndpointUuid
  | getMctpVersionSupport
  | getMessageTypeSupport
  | getVendorDefinedMessageSupport
  | mctpControlUnsupported (code : Byte)
  -- SPDM requests
  | getVersion (v : SpdmVia)
  | getCapabilities (v : SpdmVia)
  | negotiateAlgorithms (v : SpdmVia)
  | getDigests (v : SpdmVia)
  | getCertificate (v : SpdmVia) (slot : Nat) (offset length : Nat)
  | challenge (v : SpdmVia) (slot : Nat) (nonce : List Byte)
  | getMeasurements (v : SpdmVia) (index : Nat) (signed : Bool) (nonce : List Byte)
  | keyExchange (v : SpdmVia) (reqSession : Half) (exchange : List Byte)
  | finish (v : SpdmVia) (sid : Word) (verifyData : List Byte)
  | spdmHeartbeat (v : SpdmVia) (sid : Word)
  | keyUpdate (v : SpdmVia) (sid : Word) (op : Nat)
  | endSession (v : SpdmVia) (sid : Word)
  | spdmUnsupportedRequest (v : SpdmVia) (code : Byte)
  -- Claos admin commands: core 0 executes the command at the head of its one queue (R387)
  | identify
  | getLog
  | getLogClear
  | setPattern
  | getPattern
  | calLoad
  | calRead
  | keyLoad
  | keyErase
  | keyEraseAll
  | modeRequest
  | qpCreate
  | qpDelete
  | eventArm
  | eventArmMaskOnly
  | eventDelivery
  | fwStage
  | fwActivateLive
  | commitSvn
  | spdmTunnel
  | weltRetrain
  | safeRestart
  | chopperClear
  | bayOut
  | bayIn
  | rehome
  | adminUndefinedOpcode
  | adminPayloadTimeout (g : Gateway) (tag : Nat)
  -- data commands: the command of this tag, as SQE_TAKE took it (R365)
  | read (q : QpId) (tag : Nat)
  | verify (q : QpId) (tag : Nat)
  | append (q : QpId) (tag : Nat)
  | flush (q : QpId) (tag : Nat)
  | seal (q : QpId) (tag : Nat)
  | mount (q : QpId) (tag : Nat)
  | mountUnavailable (q : QpId) (tag : Nat)
  | mountOpenCourse (q : QpId) (tag : Nat)
  | release (q : QpId) (tag : Nat)
  | releaseCourse (q : QpId) (tag : Nat)
  | dataUndefinedOpcode (q : QpId) (tag : Nat)
  | sqeTake
  | deadlineExpiry (q : QpId) (tag : Nat)
  | readSectorDelivery (q : QpId) (tag : Nat)
  -- Yaver frames and the end-to-end transport
  | cmd (f : Frame)
  | data (f : Frame) (draws : List Word)
  | cpl (f : Frame)
  | ack (f : Frame)
  | nak (f : Frame)
  | ackTimerExpiry (q : QpId)
  | rtoExpiry (q : QpId)
  | sequencedFrameLaunch (q : QpId)
  | queueOrphanExpiry (q : QpId)
  | qpFreed (q : QpId)
  | heartbeat (f : Frame)
  | topology (f : Frame)
  | idProbe (f : Frame)
  | idClaim (f : Frame)
  | transitFrame (f : Frame)
  | nonYaverFrame (p : Port)
  | pfcXoff (p : Port) (pr : Prio) (timer : Half)
  | pfcXon (p : Port) (pr : Prio)
  | pfcTimerExpiry (p : Port) (pr : Prio)
  | pfcXoffRepeat (p : Port) (pr : Prio)
  | pfcWatchdogExpiry (p : Port) (pr : Prio)
  | pfcStormDrop (p : Port) (pr : Prio)
  | pfcStormEnd (p : Port) (pr : Prio)
  | pcsLock (p : Port)
  | pcsLoss (p : Port)
  | heartbeatMissLimit (p : Port)
  | cutQuiet (p : Port)
  | ringTap (inst node : Byte) (seq0 nonce : Word)
  | tapTrainTimeout
  | idClaimWindowExpiry
  | ringUntap (inst : Byte)
  | ringStatus (inst : Byte)
  | laserSourceUnusable (p : Port)
  | portDomainFault (p : Port)
  | vhtrLost
  -- the timebase, the Girth window and the Welt links
  | stitchBoundary (ms : List MotionSample) (mem : MemStitch)
  | spanBoundary (power codedInput : Nat) (mr4a mr4b : Fin 5) (driftA driftB : Int) (fecEast fecWest : Nat)
  | stitchLoRead
  | girthWindow (errs : List GirthParity)
  | downlinkLaunch
  | uplinkStitchFrame (b : BayId) (blocks : List LaneWord)
  | uplinkFrameMissing (b : BayId)
  | ulBlockLock (b : BayId)
  | echo (b : BayId) (blocks : List LaneWord) (roundTripUi : Nat)
  | identity (b : BayId) (blocks : List LaneWord)
  | weltTrainingTimeout (b : BayId)
  -- the read channel and the recovery ladder
  | sectorSlotRead (b : BayId) (o : SlotObs)
  | noSync (b : BayId)
  | ridgeCoastExpiry (b : BayId)
  | ridgeRelock (b : BayId)
  | seamOffsetSearch (b : BayId)
  | retryStoreCopy (b : BayId) (a : SlotAddr)
  | ldpcDecodeDone (b : BayId) (a : SlotAddr) (r : DecodeReport)
  | recoveryStepLimit (b : BayId) (layer : Fin 6) (block sector : Nat)
  | thatchDecode (b : BayId) (layer : Fin 6) (block : Nat)
  | rereadPassDone (b : BayId) (layer : Fin 6) (block : Nat)
  | courseReconstruction (b : BayId) (layer : Fin 6) (block : Nat)
  | discWaitExpiry (req : Nat)
  | rowSolve (course : Long) (row : Nat)
  -- the write path
  | sessionOpen (b : BayId) (draws : List Word)
  | blankScanDone (b : BayId)
  | opcDone (b : BayId) (blankUnits : List Nat) (peaks : List (Option (Int × Int)))
  | writeSlotEnd (b : BayId) (err : Int) (fifoPct : Nat)
  | fifoUnderrun (b : BayId) (missingFrom fifoBits : Nat)
  | drainComplete (b : BayId)
  | runResume (b : BayId) (fifoPct offset : Nat)
  | resumeMaxExpiry (b : BayId)
  | verifySegmentEnd (b : BayId)
  | verifyPassDone (b : BayId)
  | replacementRunDone (b : BayId)
  | sessionIdleExpiry (handle : Nat)
  | sessionClose (handle : Nat)
  | dmaUpdateReadback (b : BayId) (blank aValid bValid : Bool)
  -- the optical servo and the bay states
  | focusSweepEnd (b : BayId)
  | focusCapture (b : BayId) (ppf sref : Nat)
  | focusSettled (b : BayId)
  | layerJumpCapture (b : BayId) (ppf sref : Nat)
  | layerJumpTimeout (b : BayId)
  | focusLoss (b : BayId)
  | offTrack (b : BayId)
  | trackingCapture (b : BayId)
  | trackingAcqTimeout (b : BayId)
  | registrationCheck (b : BayId) (words : List (BeamId × BitVec 60)) (ridgeBeam : Option BeamId)
  | trackJumpDone (b : BayId)
  | turnBack (b : BayId)
  | seek (b : BayId) (layer : Fin 6) (grid : Int)
  | holdRelease (b : BayId)
  | holdTimeout (b : BayId)
  | safeRestartStart (b : BayId)
  | discPresentChange (b : BayId) (active : Bool)
  | ldBusyChange (b : BayId) (active : Bool)
  -- the spindle and the motor bus
  | spindleStart (b : BayId) (first second : List Nat)
  | handover (b : BayId)
  | startFailure (b : BayId)
  | startRetry (b : BayId)
  | rotorLoss (b : BayId) (c : RotorCause)
  | catchLock (b : BayId) (rpm : Nat)
  | catchFail (b : BayId) (rpm : Nat)
  | standstill (b : BayId)
  | spinStuck (b : BayId)
  | atSpeed (b : BayId)
  | demandStart (b : BayId)
  | demandStop (b : BayId)
  | spinSafeHoldExpiry (b : BayId)
  | pd18PowerUp (b : BayId) (rpm : Nat)
  | busChopperOn (g : GroupId) (mv : Nat)
  | busRegenInhibit (g : GroupId) (mv : Nat)
  | busOvervolt (g : GroupId) (mv : Nat)
  | busUndervolt (g : GroupId) (mv : Nat)
  | busLowLimit (g : GroupId) (mv : Nat)
  | busRecovered (g : GroupId) (mv : Nat) (rpms : List Nat)
  | brakeChopperFault (g : GroupId)
  -- the sled
  | positionMove (b : BayId) (um : Nat)
  | newTarget (b : BayId) (um : Nat)
  | moveComplete (b : BayId)
  | sledStall (b : BayId)
  | sledSoftLimit (b : BayId)
  | homing (b : BayId)
  | homeEdge (b : BayId)
  | homeRelease (b : BayId)
  | homeFailure (b : BayId) (why : HomeFault)
  | limitSwitchTrip (b : BayId) (w : SledSwitch)
  -- memory and caches
  | dramRequestTimeout (ch : Fin 2) (req : Nat)
  | dramRetrainDone (ch : Fin 2) (ok : Bool)
  | dramCorrectedError (c : Client) (pa : Nat) (flips : List Nat)
  | dramUncorrectable (c : Client) (pa : Nat) (flips : List Nat)
  | dramUnmapped (c : Client) (pa : Nat)
  | burnisherRead (flips : List Nat)
  | refresh (ch : Fin 2)
  | zqCalibration (ch : Fin 2)
  | clean (core : Fin 2) (w : Word)
  | invalidate (core : Fin 2) (w : Word)
  | cleanInvalidate (core : Fin 2) (w : Word)
  | invalidateAll (core : Fin 2) (w : Word)
  | cacheDisableWalkDone (c : Cache)
  | cacheError (c : Cache) (f : CacheFault) (set way : Nat)
  | rgnCtrlWrite (r : Fin 16) (w : Word)
  -- the Eave governor and the energy bucket
  | eaveSample (raw : List (Fin 16 × Int))
  | eaveReleaseDwell
  | step1SixtySecondExpiry
  | groupPark
  | groupParkRepeat
  | groupUnpark
  | capParkTimer
  -- register accesses; `coincident` is what the hardware sets in the same cycle (R10)
  | channelStatusRead (g : GBeam) (coincident : Nat)
  | channelStatusWrite (g : GBeam) (w : Word) (coincident : Bool)
  | girthStatRead (overruns parity : Nat)
  | girthLoadRead (coincident : Nat)
  | girthOvrBayWrite (w : Word) (coincident : Half)
  | slotStatWrite (sl : SlotId) (w : Word) (switched unfinished : Bool)
  | spinStatRead (b : BayId) (coincident : Nat)
  | spinStatWrite (b : BayId) (w : Word) (coincident : Bool)
  | busStatRead (g : GroupId) (coincident : Nat)
  | sledStatWrite (b : BayId) (w : Word) (coincident : Bool)
  | ringPortStatRead (p : Port) (coincident : Nat)
  | ringPortStatWrite (p : Port) (w : Word) (storm nbChange : Bool)
  | ringDropRead (p : Port) (fcsBad dropped : Nat)
  | dramStatRead (ch : Fin 2) (ce timeouts retrains : Nat)
  | burnishStatRead (coincident : Nat)
  | cacheStatRead (c : Cache) (par fatal : Nat)
  | cacheStatWrite (c : Cache) (w : Word) (coincident : Bool)
  | registerWrite (r : Reg) (w : Word)
  -- late rows of the table
  | sledHoldDelayExpiry (b : BayId)
  | agePromotion (ch : Fin 2) (req : Nat)
  | tapInstruction (t : TapInstr)
  | unknownFrameType (f : Frame)
  deriving DecidableEq, Repr

end Sys2Proof
end

