-- ==== Sys2Proof/Decode.lean ====
section
/-! DEFINITION. The command that a word spells by the opcode table's bits. No row of the table gives bits: a command
of this block arrives as an event with operands, not as an encoded word, so no word spells one. -/

namespace Sys2Proof

/-- The command of a table word: none, since no row of the table has bits. (Log DEDUCED 8) -/
def decodeTableWord (nbits w : Nat) : Option Instr :=
  match nbits, w with
  | _, _ => none

end Sys2Proof
end

