-- ==== Sys2Proof/Machine/Bytes.lean ====
section
/-! DEFINITION. Byte order and bit fields: big-endian and little-endian fields (R8), signed fields, and the reading of
a field out of a list of bytes. -/

namespace Sys2Proof.Machine

open Sys2Proof

/-- A number as a byte. -/
def byteOf (n : Nat) : Byte := BitVec.ofNat 8 n

/-- `v` as `n` bytes, least significant first; higher bits are dropped. -/
def leBytes : Nat → Nat → List Byte
  | 0, _ => []
  | n + 1, v => byteOf v :: leBytes n (v / 256)

/-- `v` as `n` bytes, most significant first. -/
def beBytes (n v : Nat) : List Byte := (leBytes n v).reverse

/-- The number that bytes stand for, least significant first. -/
def leNat : List Byte → Nat
  | [] => 0
  | b :: r => b.toNat + 256 * leNat r

/-- The number that bytes stand for, most significant first. -/
def beNat (l : List Byte) : Nat := leNat l.reverse

/-- A structure whose consecutive fields have these widths, with the bytes of each field turned round: between its
big-endian and its little-endian form, either way (R8). Bytes beyond the widths stand as they are. -/
def turnFields : List Nat → List Byte → List Byte
  | [], l => l
  | n :: r, l => (l.take n).reverse ++ turnFields r (l.drop n)

/-- The big-endian field of `size` bytes at `off`. -/
def beAt (l : List Byte) (off size : Nat) : Nat := beNat ((l.drop off).take size)

/-- The little-endian field of `size` bytes at `off`. -/
def leAt (l : List Byte) (off size : Nat) : Nat := leNat ((l.drop off).take size)

/-- The byte at `off`, 0 beyond the end. -/
def byteAt (l : List Byte) (off : Nat) : Byte := l.getD off 0

/-- `v` modulo 2ⁿ read as a signed number. -/
def signedOf (n v : Nat) : Int := if v % 2 ^ n < 2 ^ (n - 1) then (v % 2 ^ n : Nat) else (v % 2 ^ n : Nat) - (2 ^ n : Nat)

/-- A signed number modulo 2ⁿ. -/
def unsignedOf (n : Nat) (v : Int) : Nat := (v % (2 ^ n : Nat)).toNat

/-- Bits `hi` down to `lo` of a number. -/
def bitsOf (v hi lo : Nat) : Nat := v / 2 ^ lo % 2 ^ (hi + 1 - lo)

/-- A truth value as a bit. -/
def bitNat (b : Bool) : Nat := if b then 1 else 0

/-- A signed quotient to nearest, ties away from zero (R232). -/
def roundDiv (a : Int) (d : Nat) : Int :=
  if 0 ≤ a then (2 * a + d) / (2 * d) else -((2 * (-a) + d) / (2 * d))

/-- `n` zero bytes. -/
def zeros (n : Nat) : List Byte := List.replicate n 0

/-- ASCII text padded with zeros to `n` bytes. -/
def asciiPad (n : Nat) (t : String) : List Byte :=
  let b := t.toList.map (fun c => byteOf c.toNat)
  (b ++ zeros n).take n

/-- A list cut into pieces of `n`, at most `fuel` of them. -/
def chunks {α : Type} (n : Nat) : Nat → List α → List (List α)
  | 0, _ => []
  | k + 1, l => if l.isEmpty then [] else l.take n :: chunks n k (l.drop n)

/-- Two stitch values truncated to 16 or 32 bits: the signed distance from `a` to `b` (R205). -/
def stitchAfter (n a b : Nat) : Int := signedOf n (b + 2 ^ n - a % 2 ^ n)

end Sys2Proof.Machine
end

