-- ==== Sys2Proof/Machine/Codes.lean ====
section
/-! DEFINITION. Check codes: CRC-32C (R79) and CRC-16 of address words and frame headers. -/

namespace Sys2Proof.Machine

open Sys2Proof

/-- One bit of the reflected CRC-32C shift register (R79): polynomial 0x1EDC_6F41, reflected 0x82F6_3B78. -/
def crc32cBit (c : BitVec 32) : BitVec 32 := if c.getLsbD 0 then (c >>> 1) ^^^ 0x82F63B78#32 else c >>> 1

/-- One byte of CRC-32C. -/
def crc32cByte (c : BitVec 32) (b : Byte) : BitVec 32 :=
  let x := c ^^^ b.zeroExtend 32
  crc32cBit (crc32cBit (crc32cBit (crc32cBit (crc32cBit (crc32cBit (crc32cBit (crc32cBit x)))))))

/-- CRC-32C over bytes (R79). -/
def crc32c (l : List Byte) : Nat := ((l.foldl crc32cByte 0xFFFFFFFF#32) ^^^ 0xFFFFFFFF#32).toNat

/-- One bit of a CRC-16, most significant first, polynomial 0x1021. -/
def crc16Bit (c : BitVec 16) (bit : Bool) : BitVec 16 :=
  let s := c <<< 1
  if (c.getMsbD 0) != bit then s ^^^ 0x1021#16 else s

end Sys2Proof.Machine
end

