-- ==== Sys2Proof/Machine/AddressWord.lean ====
section
/-! DEFINITION. Address words (R34, R35): fields and check. -/

namespace Sys2Proof.Machine

open Sys2Proof

/-- CRC-16 over the top `n` bits of a word, most significant first, preset 0xFFFF (R35). -/
def crc16Word (w : BitVec 60) (n : Nat) : BitVec 16 :=
  (List.range n).foldl (fun c i => crc16Bit c (w.getMsbD i)) 0xFFFF#16

/-- CRC-16 over bytes (R35, R327). -/
def crc16Bytes (l : List Byte) : Nat :=
  (l.foldl (fun c b => (List.range 8).foldl (fun c i => crc16Bit c (b.getMsbD i)) c) 0xFFFF#16).toNat

/-- An address word's fields (R34). -/
def awLayer (w : BitVec 60) : Nat := bitsOf w.toNat 59 57
def awSpiral (w : BitVec 60) : Nat := bitsOf w.toNat 56 54
def awZone (w : BitVec 60) : Nat := bitsOf w.toNat 53 52
def awAun (w : BitVec 60) : Nat := bitsOf w.toNat 51 30
/-- Its CRC holds; a reader uses no field of a word whose CRC fails (R35). -/
def awGood (w : BitVec 60) : Bool := (crc16Word w 44).toNat == bitsOf w.toNat 15 0

/-- The grid position, counted from the data-band origin, at which the unit that a word names begins (R29, R30).
(Log DESIGN CHOICE 172) -/
def awGrid (w : BitVec 60) : Int :=
  let c : Int := (awAun w : Int) * 65536
  match awZone w with
  | 0 => c - 1927806976
  | 1 => c
  | _ => c + 80631758848

end Sys2Proof.Machine
end

