-- ==== Sys2Proof/Config.lean ====
section
/-! DEFINITION. What one unit or one integration fixes, and the free values the manual leaves open. Every constant
here is opaque: no proof can see its value, so a theorem holds whatever it is. -/

namespace Sys2Proof.Config

open Sys2Proof

/-- The free value number `n`: whatever a field holds whose value the manual leaves open. (Log DESIGN CHOICE 5) -/
opaque free (n : Nat) : Nat

/-- The unit serial number in OTP (R4, R388). -/
opaque serial : Long
/-- The silicon revision (R388, R506). -/
opaque siliconRev : BitVec 4
/-- Torviedra's IANA enterprise number (R421). -/
opaque iana : Word
/-- Torviedra's JEP106 code, eleven bits (R506). -/
opaque jep106 : BitVec 11
/-- The endpoint UUID derived from the serial (R420). -/
opaque uuid : List Byte
/-- The certificate chain of slot 0 (R413). -/
opaque certChain : List Byte
/-- SHA-384 of the boot ROM (R414). -/
opaque romDigest : List Byte
/-- SHA-384 of the OTP configuration (R414). -/
opaque otpDigest : List Byte
/-- The public key of Torviedra firmware, x and y, whose digest is fused in OTP (R404). -/
opaque firmwareKey : Nat × Nat
/-- An ECDSA P-384 signature by the device's private key, which never leaves the engine (R413). -/
opaque deviceSignature (message : List Byte) : List Byte
/-- The engine's half of a key exchange, and the verification data of its answer (R413, DSP0274). (Log DESIGN CHOICE 34) -/
opaque keyExchangeAnswer (sid : Word) (exchange : List Byte) : List Byte
/-- The export master secret that a key exchange gives, by session ID and requester's exchange data (R416).
(Log DESIGN CHOICE 34) -/
opaque exportSecret (sid : Word) (exchange : List Byte) : List Byte
/-- Whether the verification data of a FINISH matches the session's transcript (DSP0274). (Log DESIGN CHOICE 34) -/
opaque finishVerifies (sid : Word) (verifyData : List Byte) : Bool
/-- The secured record that carries an engine's message within a session, by the number of the record (R415, DSP0277).
(Log DESIGN CHOICE 34) -/
opaque securedRecord (sid : Word) (n : Nat) (message : List Byte) : List Byte
/-- The engine's half of the session ID of its `n`-th session since RESET. (Log DESIGN CHOICE 4) -/
opaque sessionId (n : Nat) : Half
/-- The tokens of the Ping frames (R213). (Log DESIGN CHOICE 4) -/
opaque pingToken (bay n : Nat) : Half
/-- The nonce of an engine's signed SPDM answer, by the number of answers given. (Log DESIGN CHOICE 4) -/
opaque responderNonce (n : Nat) : List Byte

/-- The amplitude of one unit of the PR(1,2,2,1) target, in ADC codes (R118). (Log DESIGN CHOICE 146) -/
opaque prUnit : Int
/-- What one unit of a 6-bit LLR is worth in the detector's costs (R127). (Log DESIGN CHOICE 146) -/
opaque llrUnit : Nat
/-- The engine's default coefficients of equaliser set 2, in Q2.14, by disc type (true for ridged), layer and beam: 15 on its own
samples, then 7 on each neighbour (R119). (Log DESIGN CHOICE 147) -/
opaque eqDefault (ridged : Bool) (layer beam : Nat) : List Int
/-- The interpolator's value at a fraction, in 1/64 cb, after the fourth of eight samples (R103, R122).
(Log DESIGN CHOICE 151) -/
opaque interpolate (phase : Nat) (samples : List Int) : Int
/-- A timing loop's phase and frequency, in 1/65,536 cb and 2⁻³² of the channel rate, after one phase error, by its bandwidth 2⁻ⁿ of
the channel rate (R104 to R107, R137). (Log DESIGN CHOICE 151) -/
opaque loopStep (n : Nat) (phase freq err : Int) : Int × Int
/-- The code n of the bandwidth 2⁻ⁿ of the wide-band loop that acquires on a preamble (R104). (Log DESIGN CHOICE 151) -/
opaque acquireCode : Nat
/-- The threshold of the seam offset's correlation peak (R123). (Log DESIGN CHOICE 152) -/
opaque seamThreshold : Int
/-- The stitches of the kick of a track jump of `n` tracks (R267). (Log DEDUCED 106) -/
opaque trackKick (n : Nat) : Nat
/-- The code of a bay-log entry that the manual calls for without giving one a code: 0 a small shift, 1 an unconfirmed sync, 2 a missed
sync, 3 a timing out of range, 4 an early false sync (R103, R114). (Log DESIGN CHOICE 153) -/
opaque logCode (kind : Nat) : Half

end Sys2Proof.Config
end

