-- ==== Sys2Proof/Machine/Table.lean ====
section
/-! DEFINITION. Finite tables with a default: the engine's indexed state (bays, beams, slots, queue pairs, pattern
values, log pages) is a list of (index, value) pairs in one canonical form, strictly rising and with no entry
equal to the default, so that equal contents are equal data and reset is the empty list. -/

namespace Sys2Proof

/-- A table from indices to values of `β`; an index not listed holds the table's default. -/
abbrev Tbl (β : Type) := List (Nat × β)

/-- The value a table holds at `k`, where `d` is its default. -/
def Tbl.get {β : Type} (d : β) : Tbl β → Nat → β
  | [], _ => d
  | (i, v) :: r, k => if i = k then v else Tbl.get d r k

/-- A table without its entry at `k`. -/
def Tbl.erase {β : Type} : Tbl β → Nat → Tbl β
  | [], _ => []
  | (i, v) :: r, k => if i = k then Tbl.erase r k else (i, v) :: Tbl.erase r k

/-- A table with (k, v) put before the first greater index. -/
def Tbl.insert {β : Type} : Tbl β → Nat → β → Tbl β
  | [], k, v => [(k, v)]
  | (i, w) :: r, k, v => if k < i then (k, v) :: (i, w) :: r else (i, w) :: Tbl.insert r k v

/-- A table with `v` written at `k`; writing the default removes the entry. (Log DESIGN CHOICE 134) -/
def Tbl.set {β : Type} [DecidableEq β] (d : β) (t : Tbl β) (k : Nat) (v : β) : Tbl β :=
  if v = d then Tbl.erase t k else Tbl.insert (Tbl.erase t k) k v

/-- A table with `f` applied to the value at `k`. -/
def Tbl.upd {β : Type} [DecidableEq β] (d : β) (t : Tbl β) (k : Nat) (f : β → β) : Tbl β :=
  Tbl.set d t k (f (Tbl.get d t k))

/-- Every index of a list exceeds `k`. -/
def Tbl.above {β : Type} (k : Nat) : Tbl β → Bool
  | [] => true
  | (i, _) :: _ => decide (k < i)

/-- The canonical form: indices strictly rising, and no entry equal to the default. (Log DESIGN CHOICE 134) -/
def Tbl.wf {β : Type} [DecidableEq β] (d : β) : Tbl β → Bool
  | [] => true
  | (i, v) :: r => decide (v ≠ d) && Tbl.above i r && Tbl.wf d r

end Sys2Proof
end

