-- ==== Sys2Proof/Machine/State.lean ====
section
/-! DEFINITION. The engine's state as plain data, chapter by chapter, the outcomes' reason types and the state
after reset. Every register, buffer, counter, mode and pin the manual gives the engine stands here; INVENTORY.md
lists each with its rule and its reset value. Times are STITCH64 counts (R203). -/

namespace Sys2Proof.Machine

open Sys2Proof

/-! ## Modes, domains and PD0 -/

/-- The twelve device modes (R399). -/
inductive Mode
  | dark | reset | boot | enrol | transit | standby | active | constrained | quiesce | service | safeStop | retire
  deriving DecidableEq, Repr, Inhabited

/-- PD0's own state (R203, R206, R461 to R463, R479 to R482, R491, R500): it outlives RESET.
(Log DESIGN CHOICE 10, 11, 44) -/
structure Aon where
  /-- the PD0 supply is present (R400) -/
  supply : Bool := true
  /-- the RESET_N pin is asserted (R491) -/
  resetN : Bool := true
  /-- TEST_EN is high (R491) -/
  testEn : Bool := false
  /-- rails of groups 2 and 3 out of tolerance (R462) -/
  badRails : List Rail := []
  /-- REFCLK_SYS is present and stable (R500) -/
  refSys : Bool := true
  /-- REFCLK_RING is present and within 200 ppm (R500) -/
  refRing : Bool := true
  /-- STITCH64 (R203) -/
  stitch : Long := 0
  /-- STITCH_HI, latched by a read of STITCH_LO (R206) -/
  stitchHi : Word := 0
  /-- straps as last sampled (R491) -/
  smbAddr : Fin 8 := 0
  dramCfg : Fin 4 := 0
  /-- RESET_CAUSE (R479) -/
  cause : Nat := 0
  prevCause : Nat := 0
  tripSensor : Nat := 0
  /-- stitches at which self-resets of the sliding hour were made (R482) -/
  selfResets : List Nat := []
  /-- stitches at which management restarts of the sliding 10 minutes were made (R482) -/
  restarts : List Nat := []
  /-- domains PD0 to PD19 powered, bit n for PDn (R463, R464) -/
  power : BitVec 20 := 1
  /-- anti-rollback fuse bits blown (R412) -/
  fuseSvn : Nat := 0
  /-- MCTP endpoint ID, 0 until assigned (R420) -/
  eid : Byte := 0
  /-- last kick of each core's watchdog (R481) -/
  kick0 : Nat := 0
  kick1 : Nat := 0
  deriving DecidableEq, Repr, Inhabited

/-- Where an admin command came from (R382). -/
inductive AdminVia
  | ring (g : Gateway)
  | carrier (inst : Byte)
  deriving DecidableEq, Repr, Inhabited

/-- An admin command in core 0's queue (R383 to R387). -/
structure AdminCmd where
  via : AdminVia
  opcode : Nat
  flags : Nat
  tag : Nat
  len : Nat
  rlen : Nat
  args : List Byte
  payload : List Byte
  /-- payload units received, by INDEX (R384) -/
  units : List Nat
  at_ : Nat
  deriving DecidableEq, Repr, Inhabited

/-- An image the staging region holds (R410). -/
structure Staged where
  svn : Nat
  /-- firmware release of its header, 16 ASCII bytes -/
  release : List Byte
  revision : Half
  digest : List Byte
  deriving DecidableEq, Repr, Inhabited

/-- The management complex and boot (R404 to R412, R481). (Log DESIGN CHOICE 14, 130) -/
structure Mgmt where
  /-- firmware runs on the cores -/
  running : Bool := false
  /-- a restart is under way (R22, R481) -/
  restarting : Bool := false
  /-- the restart was made by this FW_ACTIVATE LIVE, which completes afterwards (R411) -/
  live : Option AdminCmd := none
  /-- BOOT_NO_IMAGE (R406) -/
  noImage : Bool := false
  /-- training attempts of each DRAM channel in this BOOT (R426) -/
  trained0 : Bool := false
  trained1 : Bool := false
  tries0 : Nat := 0
  tries1 : Nat := 0
  /-- running slot: 0 A, 1 B, 2 DRAM (R388, R411) -/
  slot : Nat := 0
  svn : Nat := 0
  /-- firmware release and Claos interface revision of the running image (R2, R404) -/
  release : List Byte := [0x43, 0x4C, 0x2D, 0x33, 0x2E, 0x32, 0, 0, 0, 0, 0, 0, 0, 0, 0, 0]
  revision : Half := 0x0302
  imageDigest : List Byte := []
  staged : Option Staged := none
  /-- the loopback self-test of R322 passed -/
  selfTest : Bool := false
  /-- a self-reset waits in SAFE-STOP since this stitch (R402) -/
  selfReset : Option Nat := none
  /-- no cause of CONSTRAINED has held since this stitch (R399) -/
  clearSince : Option Nat := none
  /-- QUIESCE has sent its DRAINED event (R401) -/
  drained : Bool := false
  /-- a management restart is owed MODE_CHANGED reports (R475) -/
  owedModes : List (Mode × Mode × Nat) := []
  /-- SHA-384 of the last calibration record loaded, empty while none is (R414) -/
  calDigest : List Byte := []
  deriving DecidableEq, Repr, Inhabited

/-! ## Thermal governor and energy bucket -/

/-- One junction sensor (R469 to R472, R479). Temperatures in 1/16 °C. -/
structure Sensor where
  valid : Bool := false
  broken : Bool := false
  /-- raw reading of the last sample -/
  raw : Int := 0
  /-- reading in use (R472: 98.0 °C until the first reading) -/
  tj : Int := 1568
  /-- consecutive spans with the same raw code (R471) -/
  same : Nat := 0
  /-- consecutive samples of disagreement with the neighbour (R471) -/
  differs : Nat := 0
  /-- consecutive samples at 115.0 °C or more (R475) -/
  trips : Nat := 0
  deriving DecidableEq, Repr, Inhabited

/-- The Eave governor, parking and the energy bucket (R466 to R479). -/
structure Eave where
  sensors : Tbl Sensor := []
  /-- step in force, 0 to 4 (R473) -/
  step : Nat := 0
  fast : Bool := true
  /-- Tmax and the sensor giving it -/
  tmax : Int := 1568
  hottest : Nat := 0
  /-- consecutive samples at 110.0 °C or more (R473) -/
  criticals : Nat := 0
  /-- when step 1 engaged, and whether Tmax stayed at or above 98.0 °C since (R473) -/
  step1At : Nat := 0
  step1Hot : Bool := false
  /-- start of the present interval at or below the release level of the step in force -/
  coolSince : Option Nat := none
  /-- groups parked, in parking order (R474), with the reason: true for the bucket cap -/
  parked : List (GroupId × Bool) := []
  /-- when the last parking decision was made -/
  parkAt : Nat := 0
  /-- since when Tmax has been at or below EAVE_UNPARK_TJ, or the last unparking -/
  unparkSince : Option Nat := none
  /-- Tmax at the last EAVE event (R476) -/
  eventTj : Int := 1568
  /-- a DRAM channel reports above 95 °C (R430, R473) -/
  dramHot : Bool := false
  /-- P of the last span, in 10 mW (R466) -/
  power : Nat := 0
  /-- the bucket E, in 10 µJ (R467): 480 J is 48,000,000 -/
  bucket : Nat := 0
  capOn : Bool := false
  /-- the cap's own skip k (R467) -/
  capSkip : Nat := 0
  /-- consecutive spans at k_max with P above 36 W (R468) -/
  capSpans : Nat := 0
  /-- coded input to the LDPC array over the last span, in Mbit/s (R468) -/
  codedInput : Nat := 0
  /-- since when the cap has been released, for its unparking interval (R468) -/
  capFreeAt : Option Nat := none
  deriving DecidableEq, Repr, Inhabited

/-! ## The pattern -/

/-- When a pattern value comes into force (R395). -/
inductive PatPoint | stitch | girth | boot | span
  deriving DecidableEq, Repr, Inhabited

/-- One pending pattern value, keyed by 65,536 × ID + INDEX. -/
structure PatPending where
  key : Nat
  value : Int
  point : PatPoint
  deriving DecidableEq, Repr, Inhabited

/-- The pattern (R394 to R398): values in force that differ from the defaults, and values pending. -/
structure Pattern where
  inForce : List (Nat × Int) := []
  pending : List PatPending := []
  deriving DecidableEq, Repr, Inhabited

/-! ## Logs and events -/

/-- An entry of pages 0x01, 0x02, 0x03 and 0x06 (R392). -/
structure LogEntry where
  at_ : Nat
  code : Nat
  bay : Nat
  repeats : Nat
  detail : Nat
  deriving DecidableEq, Repr, Inhabited

/-- An entry of the recovery log (R154). -/
structure RecEntry where
  at_ : Nat
  discId : Nat
  bay : Nat
  outcome : Nat
  addr : Nat
  lsn : Nat
  depth : Nat
  passedOver : Nat
  sync : Nat
  erasures : Nat
  erasedBits : Nat
  deriving DecidableEq, Repr, Inhabited

/-- An entry of the DRAM and SRAM error log (R445). -/
structure ErrEntry where
  first : Nat
  last : Nat
  addr : Nat
  count : Nat
  cls : Nat
  kind : Nat
  where_ : Nat
  deriving DecidableEq, Repr, Inhabited

/-- An entry of the thermal log (R478). -/
structure ThermEntry where
  at_ : Nat
  kind : Nat
  step : Nat
  sensor : Nat
  group : Nat
  tj : Int
  power : Nat
  deriving DecidableEq, Repr, Inhabited

/-- An entry of the clamp report (R396). -/
structure ClampEntry where
  id : Nat
  index : Nat
  written : Int
  applied : Int
  reason : Nat
  triple : Nat
  deriving DecidableEq, Repr, Inhabited

/-- A log page: its entries in order of age, its overflow count, and whether LOG_FULL has been sent (R392). -/
structure LogPage (α : Type) where
  entries : List α := []
  overflow : Nat := 0
  fullSent : Bool := false
  deriving DecidableEq, Repr, Inhabited

/-- The pages of GET_LOG (R391); page 0x08 is a snapshot and holds nothing. -/
structure Logs where
  device : LogPage LogEntry := {}
  bay : Tbl (LogPage LogEntry) := []
  mount : LogPage LogEntry := {}
  recovery : LogPage RecEntry := {}
  errors : Tbl (LogPage ErrEntry) := []
  ring : LogPage LogEntry := {}
  clamp : List ClampEntry := []
  thermal : LogPage ThermEntry := {}
  deriving DecidableEq, Repr, Inhabited

/-- An event waiting for an arm (R389, R390). -/
structure Event where
  code : Nat
  at_ : Nat
  payload : List Byte
  deriving DecidableEq, Repr, Inhabited

/-- An outstanding EVENT_ARM (R389). -/
structure Arm where
  gw : Gateway
  tag : Nat
  rlen : Nat
  deriving DecidableEq, Repr, Inhabited

/-- The event queue (R389). -/
structure Events where
  enable : Word := 0x86
  queue : List Event := []
  lost : Nat := 0
  arms : List Arm := []
  deriving DecidableEq, Repr, Inhabited

/-! ## Queue pairs, tags and admin commands -/

/-- A data SQE, decoded from its 64 bytes (R356). -/
structure DataSqe where
  opcode : Nat
  flags : Nat
  tag : Nat
  deadline : Nat
  name : Nat
  addr : Nat
  count : Nat
  handle : Nat
  key : Nat
  bay : Nat
  tenant : Nat
  action : Nat
  args : List Byte
  deriving DecidableEq, Repr, Inhabited

/-- An SQE stored in a submission ring: its 64 bytes as they stand in engine DRAM, little-endian (R355), the stitch at which its frame was accepted, and the
class default of QUEUE_DEADLINE at that moment, in ms (R381). -/
structure RingEntry where
  bytes : List Byte
  at_ : Nat
  limit : Nat
  deriving DecidableEq, Repr, Inhabited

/-- A frame the engine originates (R325 to R329). -/
structure TxFrame where
  ftype : Nat
  pcp : Nat
  dst : Nat
  qp : Nat
  seq : Word
  tag : Nat
  retx : Bool
  body : List Byte
  /-- turned back at its launch, which makes its HOPS 1 (R332) -/
  wrap : Bool
  deriving DecidableEq, Repr, Inhabited

/-- The states of a queue pair (R353). -/
inductive QpState | free | opened | unreachable | deleting
  deriving DecidableEq, Repr, Inhabited

/-- One queue pair, or one instance of QP 0 (R352, R353, R338, R339, R362, R363). -/
structure Qp where
  state : QpState := .free
  peer : Nat := 0
  cls : Nat := 0
  depth : Nat := 0
  /-- SQEs stored and not yet taken, oldest first -/
  sq : List RingEntry := []
  /-- submission entries occupied: stored and not yet acknowledged back to the host (R363) -/
  occupied : Nat := 0
  /-- next sequence number expected from the host, and the value for which a NAK was sent (R338) -/
  rxNext : Word := 0
  nakFor : Option Word := none
  /-- accepted frames not yet acknowledged, and when the first of them came -/
  rxUnacked : Nat := 0
  rxFirstAt : Nat := 0
  /-- next sequence number to give, frames waiting for launch, and launched frames not yet acknowledged (R339) -/
  txNext : Word := 0
  txWait : List TxFrame := []
  unacked : List TxFrame := []
  /-- consecutive timeouts, and when the present wait began -/
  timeouts : Nat := 0
  waitFrom : Nat := 0
  /-- the host's DATA_CREDIT (R362) -/
  dataCredit : Nat := 0
  /-- the DATA_CREDIT last granted, and the APPEND sectors accepted since that ACK -/
  granted : Nat := 0
  dataIn : Nat := 0
  /-- when the QP became unreachable (R353) -/
  lostAt : Nat := 0
  deriving DecidableEq, Repr, Inhabited

/-- Outcome of one sector of a READ or VERIFY (R368). -/
inductive SecOutcome
  | pending
  | accepted (depth : Nat)
  | keyInvalid
  | tenantMismatch
  | lost
  deriving DecidableEq, Repr, Inhabited

/-- A sector a command names: where it is read and what has become of it. -/
structure CmdSector where
  /-- bay of its disc; none for a disc that is not mounted -/
  bay : Option BayId
  layer : Nat
  block : Nat
  k : Nat
  /-- course row and member, for course addressing -/
  row : Nat
  member : Nat
  outcome : SecOutcome
  fill : Bool
  /-- plaintext user bytes, once delivered or ready for delivery -/
  data : List Byte
  deriving DecidableEq, Repr, Inhabited

/-- A command in the tag store (R360, R365 to R368). -/
structure Cmd where
  q : QpId
  sqe : DataSqe
  cls : Nat
  at_ : Nat
  deadline : Nat
  order : Nat
  /-- false: taken, not yet executed; true: its checks have passed and it runs -/
  started : Bool
  sectors : List CmdSector
  /-- next INDEX to send (R361) -/
  next : Nat
  delivered : Nat
  /-- highest ladder step carried out for any of its sectors (R153) -/
  deepest : Nat
  /-- APPEND: first CSN, once assigned, and the sectors taken by INDEX (R372) -/
  csn : Option Nat
  taken : List Nat
  /-- the admin queue pair's command waits for its completion to be posted -/
  ended : Bool
  deriving DecidableEq, Repr, Inhabited

/-! ## Keys and SPDM -/

/-- An SPDM session (R415). -/
structure Session where
  sid : Word
  /-- export master secret (R416) -/
  secret : List Byte
  established : Bool
  viaTunnel : Bool
  deriving DecidableEq, Repr, Inhabited

/-- The SPDM responder and the key slots (R413 to R417). -/
structure Security where
  sessions : List Session := []
  versionSet : Bool := false
  algorithmsSet : Bool := false
  /-- key slots loaded: 32-byte keys by slot number, empty list for an empty slot -/
  keys : Tbl (List Byte) := []
  /-- sessions opened since reset, for the responder's half of a session ID -/
  opened : Nat := 0
  deriving DecidableEq, Repr, Inhabited

/-! ## The ring -/

/-- One PFC priority of a port (R336, R337). -/
structure PrioState where
  /-- paused by the neighbour, with the end of the received timer in stitches -/
  paused : Bool := false
  pausedSince : Nat := 0
  pauseEnds : Nat := 0
  storm : Bool := false
  /-- unpaused since, for the end of a storm -/
  freeSince : Nat := 0
  /-- transit frames waiting to leave by this port; each names the port in whose ingress buffer it stands -/
  transit : List Frame := []
  /-- XOFF in force towards the neighbour that feeds this ingress buffer, and when it was last sent -/
  xoff : Bool := false
  xoffAt : Nat := 0
  /-- the last drop of a storm -/
  dropAt : Nat := 0
  /-- own frames waiting in this port's egress queue -/
  own : List TxFrame := []
  /-- bytes of own frames owed under RING_LOCAL_SHARE (R331) -/
  deficit : Nat := 0
  deriving DecidableEq, Repr, Inhabited

/-- A ring port (R318, R319, R341, R343, R349). -/
structure PortState where
  elsOk : Bool := false
  pcs : Bool := false
  /-- since when PCS and FEC have been locked (R322) -/
  lockAt : Nat := 0
  misses : Nat := 0
  heard : Bool := false
  neighbour : Nat := 0
  wrapped : Bool := false
  miswired : Bool := false
  stormFlag : Bool := false
  nbChange : Bool := false
  fecUncorr : Nat := 0
  fcsBad : Nat := 0
  dropped : Nat := 0
  p3 : PrioState := {}
  p6 : PrioState := {}
  /-- priority 7, which is never paused -/
  p7 : PrioState := {}
  /-- the cut of the map lies beyond this port, and whether QUIET has been sent (R335) -/
  cut : Bool := false
  quiet : Bool := false
  hbSeq : Byte := 0
  /-- node of the last HEARTBEAT received on this port (R340) -/
  lastHeard : Nat := 0
  deriving DecidableEq, Repr, Inhabited

/-- The ring map (R334). -/
structure RingMap where
  epoch : Word
  cut : Bool
  cutW : Nat
  cutE : Nat
  order : List Nat
  deriving DecidableEq, Repr, Inhabited

/-- A ring event still to be sent (R342). -/
structure RingEvent where
  code : Nat
  port : Nat
  old : Nat
  new : Nat
  epoch : Word
  at_ : Nat
  sends : Nat
  deriving DecidableEq, Repr, Inhabited

/-- Where a splice stands (R344, R345, R348). -/
inductive Splice
  | none
  | training (inst : Byte) (since : Nat)
  | probing (inst : Byte) (since : Nat)
  | waitingCal (inst node : Byte) (seq0 nonce : Word)
  deriving DecidableEq, Repr, Inhabited

/-- The ring switch and the flashing path (R320, R321, R330 to R350). -/
structure Ring where
  /-- the sixteen switches are commanded to cross -/
  tapped : Bool := false
  switchedAt : Nat := 0
  node : Nat := 0
  map : Option RingMap := none
  bseq : Word := 0
  nonce : Word := 0
  /-- sequenced frames that stand in the ingest buffer while a channel retrains, with the random values that a DATA frame came with, and the
  buffer's panic (R429, R438) -/
  ingest : List (Frame × List Word) := []
  ingestPanic : Bool := false
  /-- a word of the ingest buffer was uncorrectable: the frame that comes next there is unstorable (R444) -/
  ingestLost : Bool := false
  /-- last broadcast SEQ processed, by SRC; 0 for none, otherwise SEQ + 1 (R333) -/
  lastB : Tbl Nat := []
  /-- port on which the last unwrapped frame from a node came: 1 East, 2 West (R335) -/
  learned : Tbl Nat := []
  east : PortState := {}
  west : PortState := {}
  events : List RingEvent := []
  splice : Splice := .none
  vhtr : Bool := true
  deriving DecidableEq, Repr, Inhabited

/-! ## The Girth engine -/

/-- A Girth loop slot's states, in Q4.27 and Q4.43 integers (R232, R233, R248). -/
structure GSlot where
  /-- hardware enable loaded (R242) -/
  armed : Bool := false
  /-- biquad states z1, z2 of filter 0, then of filter 1 -/
  z : Int × Int × Int × Int := (0, 0, 0, 0)
  /-- the integrator, Q4.43 -/
  integ : Int := 0
  yprev : Int := 0
  gprev : Nat := 0
  /-- the set is known: an evaluation has been made since the last entry condition -/
  live : Bool := false
  /-- the last evaluation was made in a forced set (R239) -/
  forced : Bool := false
  /-- the last output computed -/
  out : Int := 0
  /-- the value in force at the destination at this boundary, and at the one before -/
  applied : Int := 0
  appliedPrev : Int := 0
  /-- |e| of the previous window in 1/65,536 (R237 variable 4) -/
  absErr : Nat := 0
  /-- new coefficients for the set in use arrived (R241) -/
  retune : Bool := false
  limit : Bool := false
  frozen : Bool := false
  switched : Bool := false
  unfinished : Bool := false
  parityFail : Bool := false
  /-- the evaluation of the present window finished, and its output awaits the boundary -/
  done : Bool := false
  /-- the slot was left unfinished in the present window (R244) -/
  late : Bool := false
  /-- the integrator is held by a sequencer: INT_FREEZE of R259 and the freeze of R260 -/
  hold : Bool := false
  /-- gain set forced by a sequencer (R239): 8 for none -/
  force : Nat := 8
  deriving DecidableEq, Repr, Inhabited

/-- The Girth engine (R227 to R250). -/
structure Girth where
  slots : Tbl GSlot := []
  overruns : Nat := 0
  parity : Nat := 0
  ovrBay : Half := 0
  maxCyc : Nat := 0
  /-- the bank holds the pattern values (R242) -/
  loaded : Bool := false
  /-- a window's lanes have run and its downlink frames are not yet launched -/
  windowOpen : Bool := false
  deriving DecidableEq, Repr, Inhabited

/-! ## The Welt link -/

/-- Where a link's training stands (R213). -/
inductive WeltPhase | off | idle | pinging | params | frames | up | dead
  deriving DecidableEq, Repr, Inhabited

/-- An uplink stitch frame, decoded (R216). -/
structure Uplink where
  stat : Byte := 0
  sampleStitch : Half := 0
  appliedStitch : Half := 0
  headTemp : Int := 0
  fe : List Int := []
  te : List Int := []
  sum : List Int := []
  lmon : List Int := []
  tilt : Int := 0
  coils : List Int := []
  regs : Nat := 0
  lastLoad : Nat := 0
  streamSeg : Half := 0
  supply : Nat := 0
  fault : Word := 0
  deriving DecidableEq, Repr, Inhabited

/-- A companion's Identity frame (R215). -/
structure Companion where
  rev : Nat
  vendor : Nat
  part : Nat
  silicon : Nat
  beams : Nat
  tw : Nat
  peakLimit : Nat
  caps : Nat
  serial : Nat
  deriving DecidableEq, Repr, Inhabited

/-- The head bands of R182, and the state above them. -/
inductive HeadBand | ht0 | ht1 | ht2 | ht3 | over70 | over72
  deriving DecidableEq, Repr, Inhabited

/-- A bay's Welt link (R210 to R226). (Log DESIGN CHOICE 15) -/
structure Welt where
  phase : WeltPhase := .off
  /-- the last 58 bits sent on DL0 and on DL1, and received on UL: the scramblers and the descrambler (R210) -/
  scr0 : BitVec 58 := 0
  scr1 : BitVec 58 := 0
  ulHist : BitVec 58 := 0
  /-- block positions of DL0 and of DL1 used, counted from boundary 0 (R210) -/
  sent0 : Nat := 0
  sent1 : Nat := 0
  startedAt : Nat := 0
  attempts : Nat := 0
  /-- Ping frames sent in this attempt, and when the last of them went -/
  pings : Nat := 0
  pingAt : Nat := 0
  /-- the Echoes: token, and round trip less turnaround in UI of 160 ps -/
  echoes : List (Half × Nat) := []
  /-- L, in UI -/
  latency : Nat := 0
  good : Nat := 0
  missing : Nat := 0
  spanMissing : Nat := 0
  companion : Option Companion := none
  uplink : Uplink := {}
  /-- HEAD_TEMP in use and the band (R182, R216) -/
  headTemp : Int := 0
  band : HeadBand := .over72
  /-- runs wait for 68 °C after a temperature stop (R182) -/
  hotStop : Bool := false
  laserEn : Bool := false
  hold : Bool := true
  readPwr : Nat := 0
  /-- write-strategy registers: which hold a record, which is active, and a load due (R221) -/
  regsLoaded : List Nat := []
  active : Option Nat := none
  loadReg : Option Nat := none
  /-- a register whose load is confirmed, and that the next first slot of a block switches to (R183, R221) -/
  nextReg : Option Nat := none
  loadRec : List Byte := []
  /-- channel bits of the eight beams not yet sent in a segment, the number of the segment that they open, the beams' gate states, and the
  switch of the record register that lies in them, with its offset (R218, R220) -/
  stream : List (List (Option Bool)) := []
  segment : Half := 0
  gates : List Bool := []
  switchAt : Option (Nat × Nat) := none
  /-- the laser power setpoints of the bay have been written since BOOT (R255) -/
  laserInit : Bool := false
  /-- WELT_EN as last seen at a span boundary -/
  enabled : Bool := true
  deriving DecidableEq, Repr, Inhabited

/-! ## Discs -/

/-- The two disc types (R36). -/
inductive DiscType | plain | ridged
  deriving DecidableEq, Repr, Inhabited

/-- A layer's write-strategy hints (R55). -/
structure Hint where
  startPower : Nat
  biasRatio : Nat
  coolRatio : Nat
  readPower : Nat
  asymmetry : Int
  step : Nat
  lead : Int
  trail : Int
  deriving DecidableEq, Repr, Inhabited

/-- A Disc Information Block (R54). -/
structure Dib where
  issue : Nat
  dtype : DiscType
  layers : Nat
  recorded : Bool
  discId : Nat
  maker : Nat
  lot : Nat
  course : Nat
  member : Nat
  d : Nat
  p : Nat
  bindSeq : Nat
  hints : List Hint
  deriving DecidableEq, Repr, Inhabited

/-- A defect entry (R60). -/
structure Defect where
  home : Nat
  repl : Nat
  deriving DecidableEq, Repr, Inhabited

/-- A DMA update (R59). -/
structure DmaUpdate where
  number : Nat
  issue : Nat
  flags : Nat
  discId : Nat
  seq : Nat
  cumulative : Nat
  append : List Nat
  nextOpc : List Nat
  lastOpc : List Nat
  spareUsed : List Nat
  entries : List Defect
  deriving DecidableEq, Repr, Inhabited

/-- How a disc is bound (R56, R57). -/
inductive Binding
  | unbound
  | unknown
  | member (course member d p bindSeq : Nat)
  deriving DecidableEq, Repr, Inhabited

/-- What the engine holds of a mounted disc (R57 to R68, R82, R192). (Log DEDUCED 131) -/
structure Disc where
  dtype : DiscType
  layers : Nat
  discId : Nat
  issue : Nat
  binding : Binding
  readOnly : Bool
  sealed : Bool
  full : Bool
  hints : List Hint
  append : List Nat
  nextOpc : List Nat
  lastOpc : List Nat
  spareUsed : List Nat
  nextUpdate : Nat
  cumulative : Nat
  /-- standing defect entries, by home physical slot address -/
  defects : List Defect
  /-- write sequences that a new draw must avoid (R82) -/
  usedSeqs : List Nat
  /-- the map was rebuilt by a rescan and is owed a RESCAN update (R64) -/
  rescan : Bool
  /-- the recorded reference of a layer: sum and number of the envelopes of its accepted sectors (R131) -/
  refEnv : Tbl (Nat × Nat)
  /-- the same of the DIB copy read at the mount -/
  dibEnv : Nat × Nat
  /-- manufacturer code and media lot of its DIB (R54) -/
  maker : Nat
  lot : Nat
  /-- its recorded-DIB copies have been recorded and none has been read back yet (R56, R171) -/
  dibDue : Bool
  deriving DecidableEq, Repr, Inhabited

/-- A beam's equaliser coefficients in Q2.14: 15 on its own samples, 7 on each neighbour, the earliest sample's first (R118). -/
structure Taps where
  own : List Int := []
  inner : List Int := []
  outer : List Int := []
  deriving DecidableEq, Repr, Inhabited

/-- A sector's samples as kept for another decode (R132, R133): one per channel bit from the slot's start, those erased, and for S7,
whose samples are its read-time partial sums, S0's samples of the next turn. -/
structure Kept where
  samples : List Int := []
  outer : List Int := []
  erased : List Bool := []
  partials : Bool := false
  deriving DecidableEq, Repr, Inhabited

/-- A beam's retention SRAM (R132): the slot it holds, the stitch at which that slot ended, its samples, and the detector's
channel-bit LLRs over them, from which the search of R117 decodes. -/
structure Retained where
  addr : SlotAddr
  ended : Nat
  kept : Kept
  llr : List Int
  deriving DecidableEq, Repr, Inhabited

/-- A retry store entry, or the two of an S7 sector (R133): the slot address, the samples, and whether the engine itself releases it at
acceptance. -/
structure RetryEntry where
  addr : Nat
  kept : Kept
  auto : Bool
  deriving DecidableEq, Repr, Inhabited

/-- The outcomes of a slot (R135). -/
inductive SlotOutcome | pending | erased | blank | unreadable
  deriving DecidableEq, Repr, Inhabited

/-- What the tile reports of one beam's slot (R135): its place, outcome and sync case; the offset from the flywheel of the origin decoded
from; its resync candidates; the erased coded bits of each codeword; the equaliser set; the sum and number of the codeword
area's envelopes; whether samples are retained. -/
structure SlotReport where
  addr : SlotAddr
  outcome : SlotOutcome
  sync : Nat
  offset : Int
  resyncs : List MarkHit
  erased : List Nat
  eq : Nat
  env : Nat × Nat
  retained : Bool
  deriving DecidableEq, Repr, Inhabited

/-- A slot of S7 in the seam buffer (R121): its report, the LSN expected of it, the grid position of its first sample, its partial sums,
S0's samples of the next turn as far as the late pass has come, the output so far, what is erased of it, of S6 and of S0's next turn,
and LLR_SCALE, ERASE_MAX and RESYNC_TOL as the sector took them (R138). -/
structure SeamSlot where
  report : SlotReport
  lsn : Option Nat
  grid : Int
  part : List Int
  outer : List Int
  out : List Int
  mask : List Bool
  innerMask : List Bool
  outerMask : List Bool
  took : List Nat
  deriving DecidableEq, Repr, Inhabited

/-- S0's samples of a slot, with what is erased, from a grid position on. -/
structure LiveSlot where
  grid : Int
  samples : List Int
  mask : List Bool
  deriving DecidableEq, Repr, Inhabited

/-- Codewords of one sector in the LDPC array's input buffer (R127, R144): the tile's report, the LSN expected, the 9,288 LLRs of each
codeword that was sent, the offset of R117 that is tried, counted from 1 (0 for no search), the bytes of codewords decoded
before, and LLR_SCALE, ERASE_MAX and RESYNC_TOL as the sector took them (R138). -/
structure LdpcJob where
  bay : BayId
  addr : SlotAddr
  report : SlotReport
  lsn : Option Nat
  llr : List (Option (List Int))
  search : Nat := 0
  held : List (Option (List Byte)) := []
  took : List Nat := []
  deriving DecidableEq, Repr, Inhabited

/-- Where the steps of R68 stand. -/
inductive MountStep
  | spinUp | discType | mastered | recorded | dma | rescan | done
  deriving DecidableEq, Repr, Inhabited

/-- A MOUNT in progress (R68, R375). -/
structure MountProc where
  q : QpId
  tag : Nat
  req : Nat
  /-- its request was neither outstanding nor withdrawn while the MOUNT waited (R376) -/
  reqUnknown : Bool := false
  step : MountStep := .spinUp
  dtype : Option DiscType := none
  mastered : Option Dib := none
  recorded : Option Dib := none
  recordedSeen : Bool := false
  nextCopy : Nat := 0
  /-- updates read, valid ones in order, the number of those skipped, and the update being scanned -/
  updates : List DmaUpdate := []
  skipped : List Nat := []
  number : Nat := 0
  partsA : List (Nat × List Byte) := []
  partsB : List (Nat × List Byte) := []
  /-- parts found blank in copy A and copy B, and parts not valid -/
  blankA : List Nat := []
  blankB : List Nat := []
  badA : List Nat := []
  badB : List Nat := []
  /-- rescan: next spare position of the present layer -/
  rescanLayer : Nat := 0
  rescanPos : Nat := 0
  found : List Defect := []
  /-- envelopes of the DIB copy read: sum and number (R131) -/
  dibEnv : Nat × Nat := (0, 0)
  /-- the seeds still to try on the present spare position, and its codewords, still scrambled (R98) -/
  seeds : List Nat := []
  scrambled : List (Option (List Int)) := []
  trial : Option SlotReport := none
  deriving DecidableEq, Repr, Inhabited

/-! ## The read channel, the ladder and the rebuild -/

/-- The flywheel's states (R109). -/
inductive Fly | unlocked | provisional | locked
  deriving DecidableEq, Repr, Inhabited

/-- What a run reads or records for (R141, R148, R172, R187, R188, R68). -/
inductive RunKind | read | reread | verifyPass | blankScan | system | dibCheck | replacement
  deriving DecidableEq, Repr, Inhabited

/-- A read run (R124, R125, R141): the zone, the layer and the slots from its lead revolution to its tail, with the first slot needed;
the slot that passed last, the block of a re-read pass, and that nothing waits for it any more. -/
structure Run where
  kind : RunKind
  zone : Zone
  layer : Nat
  first : Nat
  need : Nat := 0
  last : Nat
  block : Nat := 0
  at_ : Nat := 0
  aborted : Bool := false
  deriving DecidableEq, Repr, Inhabited

/-- The read channel of one bay (R100 to R136). -/
structure Channel where
  fly : Fly := .unlocked
  /-- the grid position at which the flywheel predicts the next sector origin (R110) -/
  pos : Int := 0
  coast : Nat := 0
  searchSlots : Nat := 0
  /-- the ridge PLL (R106, R107): lock, coasting and for how many cb, coasted too long, phase and frequency -/
  ridgeLock : Bool := false
  ridgeCoasting : Bool := false
  ridgeCoast : Nat := 0
  ridgeOver : Bool := false
  ridgePhase : Int := 0
  ridgeFreq : Int := 0
  /-- the seam (R121 to R125): the fault of the run, Δ and its peak in 1/64 cb, SEAM_SEARCH as the run took it, that the search has been
  made, channel bits and correlation since the last tracking step, the seam buffer, and S0's samples by grid position -/
  seamFault : Bool := false
  seamDelta : Int := 0
  seamPeak : Int := 0
  seamSearch : Nat := 4096
  seamFound : Bool := false
  seamCount : Nat := 0
  seamCorr : Int := 0
  seam : List SeamSlot := []
  live : List LiveSlot := []
  run : Option Run := none
  layer : Nat := 0
  /-- the retry store (R133) -/
  retry : List RetryEntry := []
  retryFullRun : Bool := false
  /-- RETRY_SLOTS as the run took it (R138) -/
  retrySlots : Nat := 32
  /-- the tile's report of the last slot, by beam (R135) -/
  reports : List SlotReport := []
  /-- the mastered-DIB copy that a DIB check reads next (R271) -/
  dibCopy : Nat := 0
  deriving DecidableEq, Repr, Inhabited

/-- One beam's channel (R100 to R107, R119, R129, R132, R136). -/
structure Beam where
  loaded : Bool := false
  retryFull : Bool := false
  trLock : Bool := false
  defect : Bool := false
  eq : Nat := 0
  lost : Nat := 0
  gain : Nat := 24
  /-- gain code last used by layer since MOUNT, plus 1 (R100) -/
  gainOf : Tbl Nat := []
  /-- timing: phase in 1/65,536 cb, frequency in 2⁻³² of the channel rate, the code n of the loop's bandwidth 2⁻ⁿ, channel bits
  frozen, a new acquisition owed, and the phase offset from the ridge (R104 to R107) -/
  phase : Int := 0
  freq : Int := 0
  bw : Nat := 9
  frozen : Nat := 0
  reacquire : Bool := true
  offset : Int := 0
  /-- equaliser set 0, and set 1 by layer (R119) -/
  set0 : Option Taps := none
  set1 : Tbl (Option Taps) := []
  /-- envelopes of the last 64 unflagged blocks (R129) -/
  envs : List Nat := []
  retained : Option Retained := none
  deriving DecidableEq, Repr, Inhabited

/-- What has become of a sector of a target block (R140 to R150). -/
inductive SecState
  | unread
  | decoding
  | failed
  | accepted
  | lost
  deriving DecidableEq, Repr, Inhabited

/-- A sector of a target block. -/
structure SecRec where
  state : SecState := .unread
  /-- ladder step reached, 0 for the first decode -/
  step : Nat := 0
  depth : Nat := 0
  /-- steps passed over for lack of their need, bit s − 1 for step s (R154) -/
  passedOver : Nat := 0
  /-- highest step carried out (R153) -/
  carried : Nat := 0
  /-- passes or decodes of the present step made, and when the step began (R142) -/
  count : Nat := 0
  since : Nat := 0
  sync : Nat := 0xFF
  erasedBits : Nat := 0
  /-- the tile's report of its last read (R135) -/
  report : Option SlotReport := none
  /-- offsets that the search of R117 has tried -/
  searched : Nat := 0
  /-- candidates of step 3 gone through (R146) -/
  cand : Nat := 0
  /-- decoded bytes of each codeword held fixed, and the array's last LLRs of each (R145) -/
  cws : List (Option (List Byte)) := []
  soft : List (List Int) := []
  /-- read in the present re-read pass (R148) -/
  passRead : Bool := false
  /-- 4,128 bytes in recording order once accepted (R69) -/
  bytes : List Byte := []
  deriving DecidableEq, Repr, Inhabited

/-- Where a block stands (R143). -/
inductive BlockPhase
  | reading | sectors | thatch | reread (step pass : Nat) | course | done
  deriving DecidableEq, Repr, Inhabited

/-- A target block and its ladder (R141 to R151). -/
structure Block where
  bay : BayId
  layer : Nat
  block : Nat
  phase : BlockPhase
  secs : Tbl SecRec
  erasures : Nat
  /-- when the present phase began, and the re-read pass in progress -/
  since : Nat
  passAt : Option Nat
  /-- TURBO_PASSES, ALT_MAX, REREAD_PASSES, FOC_RETRY, TRK_RETRY and PWR_RETRY, taken when the ladder began (R169) -/
  took : List Nat
  /-- steps 5 and 6 were ruled out by a deadline, by parking, HOLD, SAFE or SAFE-STOP (R168) -/
  ruledOut : Bool := false
  /-- the present pass goes on only once its bay is in TRACK again (R157) -/
  resuming : Bool := false
  deriving DecidableEq, Repr, Inhabited

/-- A DISC_NEEDED request (R165 to R167). -/
structure DiscReq where
  id : Nat
  course : Nat
  member : Nat
  at_ : Nat
  reason : Nat
  firstRow : Nat
  lastRow : Nat
  answered : Bool
  wrong : Bool
  dtype : DiscType
  cls : Nat
  /-- DISC_WAIT when it was first raised, in s -/
  wait : Nat
  /-- its disc has supplied a sector (R167) -/
  used : Bool := false
  deriving DecidableEq, Repr, Inhabited

/-- A rebuild session (R163, R164). -/
structure Rebuild where
  course : Nat
  d : Nat
  p : Nat
  dtype : DiscType
  rows : List Nat
  /-- members lost for the session, and for single rows -/
  lost : List Nat
  /-- row, member and sector number -/
  lostRows : List (Nat × Nat × Nat)
  /-- sectors held: row, member, k and the 4,128 bytes (R164) -/
  held : List (Nat × Nat × Nat × List Byte)
  /-- rows of the present batch (R164) -/
  batch : List Nat := []
  /-- by row: suppliers with which it has been solved without success, and when its suppliers had been read, plus 1 (R142, R161) -/
  tried : Tbl Nat := []
  readAt : Tbl Nat := []
  /-- sectors whose entry to step 7 is logged: row, member and k (R154) -/
  entered : List (Nat × Nat × Nat) := []
  deriving DecidableEq, Repr, Inhabited

/-- Recovery as a whole (R140 to R168). -/
structure Recovery where
  blocks : List Block := []
  sessions : List Rebuild := []
  requests : List DiscReq := []
  nextReq : Nat := 1
  /-- when the request of an ID was last closed, plus 1 (R376) -/
  closed : Tbl Nat := []
  /-- the LDPC array's input buffer (R144) -/
  ldpc : List LdpcJob := []
  /-- sectors recovered in steps 1 to 4, by bay (R154) -/
  counted : Tbl Nat := []
  deriving DecidableEq, Repr, Inhabited

/-! ## The write path -/

/-- Where a write session stands (R171, R174, R187, R190). -/
inductive SessPhase
  | waitTemp | binding | blankScan | opc | ready | recording | draining (n : Nat) | verifying | replacing | updating
  deriving DecidableEq, Repr, Inhabited

/-- Where a replacement stands (R188). -/
inductive SpareState | waiting | recorded | passed | failed
  deriving DecidableEq, Repr, Inhabited

/-- A replacement of the present spare-zone run: home address, spare position, replacements that failed before, and where it stands. -/
structure SpareRec where
  home : Nat
  pos : Nat
  tries : Nat
  state : SpareState := .waiting
  deriving DecidableEq, Repr, Inhabited

/-- A write session on one disc (R170 to R192). -/
structure WriteSess where
  handle : Nat
  seq : Nat
  phase : SessPhase
  layer : Nat
  /-- the first block of the session, and the next user-zone index to record -/
  start : Nat
  j : Nat := 0
  /-- the block boundary from which recording last went on: slots of blocks below it are fed at read power (R173, R175) -/
  low : Nat := 0
  /-- beams whose bits in the slot in progress were lost in the FIFO, with the channel bit from which they are at read power (R444) -/
  cuts : List (Nat × Nat) := []
  /-- consecutive indices of the blank scan that hold no slot other than blank (R172) -/
  scanBlank : Nat := 0
  /-- the first block of the present verify segment, and segments verified since the session opened -/
  segment : Nat := 0
  segmentsDone : Nat := 0
  recorded : Bool := false
  /-- spiral-slots found not blank or made defective, by physical address (R172, R175, R185) -/
  bad : List Nat := []
  /-- sectors judged by the verify pass, and those that failed it -/
  judged : List Nat := []
  toReplace : List Nat := []
  /-- replacements of the present spare-zone run (R188) -/
  spares : List SpareRec := []
  /-- the session's defect entries, each with the block to which it is tied (R191) -/
  entries : List (Nat × Defect) := []
  panic : Bool := false
  /-- slot phase error *e* of the slot that ended last, in cb (R180, R281) -/
  slotErr : Int := 0
  /-- the run stops at the end of the present slot (R175) -/
  slotStop : Bool := false
  /-- a stopped run that must resume by this stitch (R176, R182) -/
  resumeBy : Option Nat := none
  /-- OPC peak power of the session's layer and the head band it was measured in; the unit after the one used -/
  opcPower : Nat := 0
  opcBand : Nat := 0
  nextOpc : Nat := 0
  /-- the write-strategy record in use (R183) -/
  record : List Byte := []
  openedAt : Nat
  /-- the recorded-DIB copy being read back (R171) -/
  copy : Nat := 0
  /-- COMMIT_SEGMENTS of the session; VERIFY_ITER, VERIFY_ERASE and SPARE_TRIES of the segment (R201) -/
  segs : Nat := 16
  took : List Nat := []
  /-- entries still to be recorded at the close, how many of them restate a rescan, the attempts at the present update, and
  that a SEALED update is due (R191, R192, R196, R198) -/
  todo : List (Nat × Defect) := []
  restate : Nat := 0
  /-- the next updates carry RESCAN until all is restated (R64) -/
  restating : Bool := false
  updateTries : Nat := 0
  sealDue : Bool := false
  /-- the update with the session's content is valid on the disc -/
  contentDone : Bool := false
  deriving DecidableEq, Repr, Inhabited

/-- A sector in the course write buffer: its CSN and its encoded 4,128 bytes (R193). -/
structure BufSector where
  csn : Nat
  bytes : List Byte
  deriving DecidableEq, Repr, Inhabited

/-- A command waiting for a course's close (R190, R193, R196, R378). -/
structure CloseWait where
  q : QpId
  tag : Nat
  upTo : Nat
  sealing : Bool
  releaseCourse : Bool
  releaseBay : Option BayId
  deriving DecidableEq, Repr, Inhabited

/-- An open course (R190 to R199, R372 to R377). -/
structure Course where
  handle : Nat
  id : Nat
  d : Nat
  p : Nat
  dtype : DiscType
  layers : Nat
  bays : List BayId
  nextCsn : Nat
  buf : List BufSector
  /-- write sequences drawn for data discs with no session open, by member (R194) -/
  nextSeq : Tbl Nat
  /-- rows committed on every member, and rows verified with their replacements on every member, whose sectors have left the buffer
  (R193) -/
  committed : Nat
  freed : Nat := 0
  stopped : Bool
  full : Bool
  sealed : Bool
  waits : List CloseWait
  lastData : Nat
  /-- still opening, for this command -/
  opening : Option (QpId × Nat)
  /-- missing sectors given up by their APPEND, and padding: recorded as fill (R373, R374) -/
  missing : List Nat
  /-- the row at which the sessions close (R190) -/
  closing : Option Nat
  /-- the rows of R195, and the sectors rebuilt for members that lack them: row, member, k and bytes -/
  alignTo : Nat := 0
  aligned : List (Nat × Nat × Nat × List Byte) := []
  deriving DecidableEq, Repr, Inhabited

/-! ## Servo, spindle, sled -/

/-- A layer jump in progress (R259). -/
structure Jump where
  src : Nat
  dest : Nat
  final : Nat
  at_ : Nat
  captured : Bool
  /-- 0 kick, 1 and 2 coast before and after the sum has fallen, 3 brake, 4 after the brake -/
  phase : Nat := 0
  /-- the focus command in force before the kick, the kick's stitches, the brake's stitches left, the last |FE| -/
  base : Int := 0
  kick : Nat := 0
  left : Nat := 0
  lastFe : Nat := 0
  deriving DecidableEq, Repr, Inhabited

/-- A track jump in progress (R267): `n` tracks, outward positive. -/
structure TrackJump where
  n : Int
  at_ : Nat
  /-- 0 kick, 1 coast, 2 brake, 3 after re-entry -/
  phase : Nat := 0
  /-- the tracking command in force before the kick, the kick's stitches, the brake's stitches left, the crossings counted -/
  base : Int := 0
  kick : Nat := 0
  left : Nat := 0
  count : Nat := 0
  deriving DecidableEq, Repr, Inhabited

/-- A seek in progress (R266). -/
structure Seek where
  layer : Nat
  grid : Int
  deriving DecidableEq, Repr, Inhabited

/-- Focus, tracking, seeks and registration of one bay (R251 to R273). -/
structure Servo where
  /-- layer in use; PPF and SREF by layer; PPT -/
  layer : Nat := 0
  ppf : Tbl Nat := []
  sref : Tbl Nat := []
  ppt : Nat := 0
  sweeping : Bool := false
  /-- when the present focus sweep began (R257) -/
  sweepAt : Nat := 0
  sweeps : Nat := 0
  /-- the acquisition's pattern values, taken at its start (R273): field ID and value -/
  acq : List (Nat × Int) := []
  focusClosed : Bool := false
  focusSettling : Bool := false
  /-- consecutive settled stitches -/
  settled : Nat := 0
  wantLayer : Nat := 0
  jump : Option Jump := none
  tracking : Bool := false
  trackAcq : Option Nat := none
  trackSettling : Bool := false
  registered : Bool := false
  regFails : Nat := 0
  regSeries : Nat := 0
  trackJump : Option TrackJump := none
  /-- least and greatest TE of the measurement of PPT, and TE of the last two stitches: each the sum of b3 and b4 (R253, R261) -/
  teSpan : Option (Int × Int) := none
  tePrev : Int := 0
  teNow : Int := 0
  seek : Option Seek := none
  /-- grid position at which the bay was parked, for turn-back (R265) -/
  parkGrid : Int := 0
  /-- consecutive stitches below FOC_LOST_PCT, and beyond the off-track threshold (R260, R262) -/
  lowSum : Nat := 0
  offCount : Nat := 0
  /-- recovery offsets in nm (R148) -/
  focusOff : Int := 0
  trackOff : Int := 0
  /-- raised read power of recovery step 6, 0.01 mW, 0 for none, and the power that it stands in for (R149) -/
  powerUp : Nat := 0
  powerBase : Nat := 0
  tiltAcq : Option Nat := none
  dibRead : Bool := false
  deriving DecidableEq, Repr, Inhabited

/-- SPIN_STAT.STATE (R292). -/
inductive SpinState
  | standstill | detect | ramp | closed | coast | catching | short | busOff | safeStop
  deriving DecidableEq, Repr, Inhabited

/-- A bay's spindle (R274 to R294). (Log DESIGN CHOICE 17) -/
structure Spindle where
  state : SpinState := .standstill
  /-- standstill confirmed since PD18 last powered up (R286) -/
  confirmed : Bool := false
  rpm : Nat := 0
  residual : Nat := 0
  /-- slewed reference in 1/200,000 rpm (R280) -/
  ref : Nat := 0
  word : Int := 0
  fine : Bool := false
  fineCount : Nat := 0
  flagged : Nat := 0
  atSpeed : Bool := false
  lost : Bool := false
  regenInh : Bool := false
  starts : Nat := 0
  startsRow : Nat := 0
  good : Nat := 0
  badRes : Nat := 0
  overs : Nat := 0
  /-- the speed changed by more than 5 % at the last boundary (R287) -/
  jumped : Bool := false
  rampAt : Nat := 0
  eventAt : Nat := 0
  stillAt : Nat := 0
  /-- pattern values taken at the start: POLE_PAIRS, R, L, KE, IMAX, IPD_T, START_I, HANDOVER_RES, RAMP_T (R294) -/
  poles : Nat := 4
  phaseR : Nat := 900
  phaseL : Nat := 350
  ke : Nat := 800
  imax : Nat := 2000
  ipdT : Nat := 40
  startI : Nat := 50
  handRes : Nat := 6
  rampT : Nat := 400
  /-- sector of the detected rotor position (R277) -/
  sector : Nat := 0
  /-- no demand since this stitch (R284) -/
  idleSince : Option Nat := none
  /-- torque demand in force, Q4.27 -/
  demand : Int := 0
  /-- the electrical angle that sets commutation, in 0.1 °e, the current command in mA, the share of each phase in 1/1,000, none
  with the gates off, and the three low sides on in short braking (R275, R276, R289, R290) -/
  theta : Nat := 0
  amps : Int := 0
  phases : List Int := []
  lowOn : Bool := false
  deriving DecidableEq, Repr, Inhabited

/-- SLED_STAT.STATE (R314). -/
inductive SledState
  | notHomed | homing | rest | move | follow | ramping | emergency | busOff
  deriving DecidableEq, Repr, Inhabited

/-- The phases of homing (R309). -/
inductive HomePhase | none | search | slowing | backOff
  deriving DecidableEq, Repr, Inhabited

/-- What the bridge of a sled coil does (R305). -/
inductive ChopMode | off | drive | slow | fast
  deriving DecidableEq, Repr, Inhabited

/-- A coil's bridge: what it does, since when, and when it last began to drive, in ns (R305). -/
structure Chopper where
  mode : ChopMode := .off
  since : Nat := 0
  driveAt : Nat := 0
  deriving DecidableEq, Repr, Inhabited

/-- A bay's sled (R295 to R317). Speeds are in 1/12,800,000 full steps/s, the unit in which one update of 1/64
stitch adds the acceleration in full steps/s² (R298). (Log DESIGN CHOICE 11, 16) -/
structure Sled where
  state : SledState := .notHomed
  pos : Nat := 0
  /-- fraction of a microstep, in units of 1/640,000,000,000 microstep per speed unit and update -/
  frac : Nat := 0
  homed : Bool := false
  stall : Bool := false
  homeSw : Bool := false
  limitSw : Bool := false
  /-- the last sample of each switch input, P at the first sample of the home input's level, the consecutive inactive samples of the
  back-off and P at the first of them (R309) -/
  homeRaw : Bool := false
  limitRaw : Bool := false
  homeFirst : Nat := 0
  inactive : Nat := 0
  candP : Nat := 0
  res : Nat := 0
  outward : Bool := false
  softLim : Bool := false
  /-- |v| of the ramp, and the velocity command of following -/
  speed : Nat := 0
  target : Option Nat := none
  next : Option Nat := none
  /-- the target lay within the stopping distance when it was set (R299) -/
  overshoot : Bool := false
  /-- one-stitch wait before a reversal (R299) -/
  wait : Bool := false
  homePhase : HomePhase := .none
  latchP : Nat := 0
  velocity : Int := 0
  stallCount : Nat := 0
  satCount : Nat := 0
  offAp : Int := 0
  offAn : Int := 0
  offBp : Int := 0
  offBn : Int := 0
  /-- the choppers of coils A and B (R305) -/
  chopA : Chopper := {}
  chopB : Chopper := {}
  /-- coil current amplitude in force, in mA, its ramp's ends and start (R304), and when the sled came to rest -/
  current : Nat := 200
  curFrom : Nat := 200
  curTo : Nat := 200
  curAt : Nat := 0
  restAt : Nat := 0
  /-- where the back-off and the search of homing began (R309, R310) -/
  backFrom : Nat := 0
  searchFrom : Nat := 0
  /-- pattern values taken at the start of the move, following or homing (R316): field ID and value -/
  taken : List (Nat × Int) := []
  deriving DecidableEq, Repr, Inhabited

/-- The bay states (R269). -/
inductive BayState
  | empty | loaded | spinUp | focus | track | read | verify | write | hold | safe | spinDown
  deriving DecidableEq, Repr, Inhabited

/-- One bay. (Log DESIGN CHOICE 11, 17) -/
structure Bay where
  state : BayState := .spinDown
  /-- raw levels of DISC_N and LD_BUSY_N, 1 active (R496) -/
  discPin : Bool := false
  busyPin : Bool := false
  ldPermit : Bool := false
  outOfService : Bool := false
  disc : Option Disc := none
  mount : Option MountProc := none
  /-- RELEASE commands that wait for standstill (R378) -/
  releasing : List (QpId × Nat) := []
  /-- cause of the last entry to SAFE, a log code (R392), and when SAFE was entered -/
  safeCause : Nat := 0
  safeAt : Nat := 0
  holdAt : Nat := 0
  /-- when SPINDOWN was entered -/
  downAt : Nat := 0
  /-- stitches of entries to HOLD in the last 10 s, and of SAFE restarts in the last hour (R271) -/
  holds : List Nat := []
  safeStarts : List Nat := []
  /-- DIB check owed before a run (R271, R284), and BAY_CONTROL has lifted the restart limit -/
  dibCheck : Bool := false
  /-- consecutive overrun windows, and HOLD due for a third at the next boundary (R245) -/
  overrunRow : Nat := 0
  overrunDue : Bool := false
  welt : Welt := {}
  servo : Servo := {}
  chan : Channel := {}
  spin : Spindle := {}
  sled : Sled := {}
  write : Option WriteSess := none
  /-- why a rotor loss left the run: the bay catches (R288) -/
  catching : Bool := false
  deriving DecidableEq, Repr, Inhabited

/-- A motor bus group (R290 to R292). -/
structure Bus where
  mv : Nat := 0
  chopOn : Bool := false
  chopFault : Bool := false
  chopAtMv : Nat := 0
  chopAt : Nat := 0
  /-- bridges off by the rule at 16.5 V, and by the undervoltage rule -/
  offOver : Bool := false
  offUnder : Bool := false
  regenInh : Bool := false
  bridgesOff : Bool := false
  limited : Bool := false
  events : Nat := 0
  deriving DecidableEq, Repr, Inhabited

/-! ## Memory -/

/-- DRAM_STAT.STATE (R457). -/
inductive DramState | untrained | training | up | quick | full | failed
  deriving DecidableEq, Repr, Inhabited

/-- A DRAM request in a controller queue (R438 to R442). -/
structure DramReq where
  id : Nat
  line : Nat
  write : Bool
  cls : Nat
  /-- when it was accepted or last reissued, and when it entered its present class (R440) -/
  at_ : Nat
  classAt : Nat
  timeouts : Nat
  client : Client
  /-- the bytes of a write, from an offset in the line, and whether the line is written poisoned; a read that fills a cache (R436, R442) -/
  off : Nat := 0
  data : List Byte := []
  poison : Bool := false
  fill : Bool := false
  deriving DecidableEq, Repr

/-- One DRAM channel (R423 to R430, R457). -/
structure DramChan where
  state : DramState := .untrained
  quickTries : Nat := 0
  hot : Bool := true
  tband : Nat := 0
  measured : Bool := false
  ce : Nat := 0
  timeouts : Nat := 0
  retrains : Nat := 0
  rowTimeouts : Nat := 0
  /-- requests accepted, oldest first, reads and writes, and requests held at their ports (R439) -/
  queue : List DramReq := []
  held : List DramReq := []
  /-- the row open in each bank, how often in a row a hit has passed an older request, and a batch of writes (R439) -/
  rows : Tbl (Option Nat) := []
  passes : Nat := 0
  batch : Bool := false
  postponed : Nat := 0
  refreshes : Nat := 0
  zqDue : Bool := false
  zqCount : Nat := 0
  wrTiming : Int := 0
  /-- the band and timing set taken at the next refresh (R430) -/
  nextHot : Bool := true
  deriving DecidableEq, Repr

/-- A region descriptor (R432). -/
structure Region where
  base : Nat := 0
  en : Bool := false
  lock : Bool := false
  cache : Bool := false
  code : Bool := false
  size : Nat := 0
  deriving DecidableEq, Repr, Inhabited

/-- A cache line: its line address, dirty bit, poison bit and 64 bytes (R449). -/
structure CacheLine where
  line : Nat
  dirty : Bool
  poison : Bool
  data : List Byte
  deriving DecidableEq, Repr, Inhabited

/-- A maintenance operation by PA that waits for a fill of its line, or for a walk (R454, R458). -/
structure MaintReq where
  core : Fin 2
  clean : Bool
  inval : Bool
  target : Nat
  line : Nat
  deriving DecidableEq, Repr, Inhabited

/-- A line on its way from DRAM: the L1 that it fills, whether a hardware agent asked for it, its requester, and the store that waits for it. -/
structure Fill where
  line : Nat
  l1 : Option Cache
  hw : Bool
  client : Client
  store : Option (Nat × List Byte)
  deriving DecidableEq, Repr

/-- One cache (R449, R450, R452, R457). (Log DESIGN CHOICE 18, 120) -/
structure CacheState where
  en : Bool := false
  invDone : Bool := false
  walking : Bool := false
  err : Bool := false
  par : Nat := 0
  fatal : Nat := 0
  lfsr : Half := 0xACE1
  /-- lines by set × ways + way; the default is an invalid way -/
  lines : Tbl (Option CacheLine) := []
  /-- the conflict queue, of eight entries (R454) -/
  conflict : List MaintReq := []
  deriving DecidableEq, Repr, Inhabited

/-- The memory system (R423 to R459). DRAM content is a list of (address, byte) pairs; an unlisted byte reads 0,
as BOOT has written every region with zero data (R427). -/
structure Memory where
  cells : List Host.Cell := []
  /-- poisoned lines, by line address (R436) -/
  poisoned : List Nat := []
  ch0 : DramChan := {}
  ch1 : DramChan := {}
  regions : Tbl Region := []
  l1i0 : CacheState := {}
  l1i1 : CacheState := {}
  l1d0 : CacheState := {}
  l1d1 : CacheState := {}
  l2 : CacheState := {}
  /-- fills in flight, accesses that wait, and maintenance operations whose core stalls (R454) -/
  fills : List Fill := []
  waiting : List MemAccess := []
  stalled : List MaintReq := []
  cmAddr0 : Word := 0
  cmAddr1 : Word := 0
  /-- the Burnisher: next line address, in a pass, passes completed (R447) -/
  burnLine : Nat := 0
  burnRunning : Bool := false
  burnPasses : Nat := 0
  deriving DecidableEq, Repr

/-! ## What the engine sends -/

/-- What leaves the engine at its pins, in order: the model's own record, so that a statement can name it.
(Log DESIGN CHOICE 6; DEDUCED 131) -/
inductive Output
  | frame (p : Port) (f : TxFrame)
  | forward (p : Port) (f : Frame)
  | pfc (p : Port) (pr : Prio) (timer : Nat)
  | mctp (bytes : List Byte)
  | mctpControl (code : Byte) (body : List Byte)
  | spdm (v : SpdmVia) (code : Byte) (body : List Byte)
  | switches (cross : Bool)
  /-- blocks on downlink lane DL0 or DL1 of a bay, in their order (R210) -/
  | lane (b : BayId) (lane : Fin 2) (blocks : List LaneWord)
  /-- a sector recorded in a slot, channel bit by channel bit, none where the beam is at read power: of the data band, by physical slot
  address, or a system sector -/
  | recordSector (b : BayId) (addr : Nat) (cells : List (Option Bool))
  | recordSystem (b : BayId) (addr : SlotAddr) (cells : List (Option Bool))
  /-- slot `i` of an OPC unit, on every data spiral, with its write-strategy record (R177) -/
  | recordOpc (b : BayId) (layer unit i : Nat) (record : List Byte) (bits : List Bool)
  | postamble (b : BayId) (cb : Nat)
  /-- the test access port executes an instruction; `word` is the IDCODE that it shifts out -/
  | tap (executed : TapInstr) (word : Nat)
  deriving DecidableEq, Repr

/-! ## The state -/

/-- The engine. -/
structure State where
  mode : Mode
  aon : Aon
  mgmt : Mgmt
  eave : Eave
  pat : Pattern
  logs : Logs
  events : Events
  adminQ : List AdminCmd
  qps : Tbl Qp
  /-- QP of each class served last, by class, and weighted turns left (R365) -/
  lastQp : Tbl Nat
  turns : Tbl Nat
  tags : List Cmd
  orders : Nat
  sec : Security
  ring : Ring
  girth : Girth
  bays : Tbl Bay
  beams : Tbl Beam
  buses : Tbl Bus
  recov : Recovery
  courses : List Course
  nextHandle : Nat
  mem : Memory
  /-- free values used so far: the argument of the next one (the model's own field) -/
  freeCtr : Nat
  /-- the value that the last register read returned (the model's own field) -/
  readData : Word
  /-- what the engine has sent, oldest first (the model's own field) -/
  sent : List Output
  /-- commands waiting, first in first out (the model's own field) -/
  pending : List Instr
  deriving DecidableEq, Repr

/-- The reasons a step can end in a fault: none. No command of this block stops it. -/
inductive Fault
  deriving DecidableEq, Repr

/-- The reasons a command can be refused. -/
inductive Refusal
  /-- Raised by `exec` for a command that has no meaning yet; safe: nothing is claimed of it. -/
  | notModelled (mnemonic : String)
  deriving DecidableEq, Repr

/-- The engine right after PD0 power-up, which takes it from DARK to RESET (R400) with RESET_N held asserted: each
field at the value the manual gives it after entry to RESET. (Log DESIGN CHOICE 10, 11, 12, 13, 14, 44) -/
def State.reset : State where
  mode := .reset
  aon := {}
  mgmt := {}
  eave := {}
  pat := {}
  logs := {}
  events := {}
  adminQ := []
  qps := []
  lastQp := []
  turns := []
  tags := []
  orders := 0
  sec := {}
  ring := {}
  girth := {}
  bays := []
  beams := []
  buses := []
  recov := {}
  courses := []
  nextHandle := 1
  mem := {}
  freeCtr := 0
  readData := 0
  sent := []
  pending := []

end Sys2Proof.Machine
end

