-- ==== Sys2Proof/Machine/Lanes.lean ====
section
/-! DEFINITION. The lanes of a Welt link: 64b/66b blocks with their sync headers and the scrambler, the control blocks, frames
with their CRC as blocks, the receiver of the uplink lane, and the segments of the write stream (R210 to R214, R218, R220). -/

namespace Sys2Proof.Machine

open Sys2Proof

/-! ## Blocks and the scrambler (R210, R211) -/

/-- A block before coding: a control block, sync header 0b10, or a data block, sync header 0b01, with its eight bytes. -/
structure LaneBlock where
  control : Bool
  bytes : List Byte
  deriving DecidableEq, Repr, Inhabited

/-- Eight bytes in the order of Clause 49: byte 0 first and the least significant bit of each first; bit 0 is sent first. -/
def blockWord (l : List Byte) : Long := BitVec.ofNat 64 (leNat (l.take 8))
/-- The bytes of a block's 64 bits. -/
def wordBytes (w : Long) : List Byte := leBytes 8 w.toNat

/-- A block's 64 bits through the scrambler x⁵⁸ + x³⁹ + 1, whose last 58 bits sent are `h`, the latest on top: the first 39 bits follow from
`h` alone, the others from those too. With it, the 58 bits that follow. -/
def laneScramble (h : BitVec 58) (w : Long) : Long × BitVec 58 :=
  let g : BitVec 122 := h.zeroExtend 122
  let step (x : BitVec 122) : Long := w ^^^ (x >>> 19).truncate 64 ^^^ x.truncate 64
  let low : Long := step g &&& 0x7FFFFFFFFF#64
  let x := g ||| (low.zeroExtend 122 <<< 58)
  let out := low ||| (step x &&& ~~~0x7FFFFFFFFF#64)
  (out, (out >>> 6).truncate 58)
/-- The descrambler of the same polynomial, on 64 received bits. -/
def laneBits (h : BitVec 58) (y : Long) : Long × BitVec 58 :=
  let x : BitVec 122 := h.zeroExtend 122 ||| (y.zeroExtend 122 <<< 58)
  (y ^^^ (x >>> 19).truncate 64 ^^^ x.truncate 64, (y >>> 6).truncate 58)

/-- A block on the lane. -/
def LaneBlock.coded (h : BitVec 58) (x : LaneBlock) : LaneWord × BitVec 58 :=
  let r := laneScramble h (blockWord x.bytes)
  (⟨if x.control then 2 else 1, r.1⟩, r.2)
/-- Blocks on the lane, in their order. -/
def codeBlocks : BitVec 58 → List LaneBlock → List LaneWord × BitVec 58
  | h, [] => ([], h)
  | h, x :: r =>
    let a := x.coded h
    let b := codeBlocks a.2 r
    (a.1 :: b.1, b.2)

/-- The control blocks (R211, R222). -/
def idleBlock : LaneBlock := ⟨true, 0x1E :: zeros 7⟩
def frameStart (ftype len : Nat) : LaneBlock := ⟨true, ([0x2D] : List Byte) ++ beBytes 1 ftype ++ beBytes 1 len ++ zeros 5⟩
def segmentStart (lane seg : Nat) (write : Bool) : LaneBlock :=
  ⟨true, ([0x55] : List Byte) ++ beBytes 1 lane ++ beBytes 2 seg ++ beBytes 1 (bitNat write) ++ zeros 3⟩
def urgentBlock (code : Nat) (stitch : Half) : LaneBlock := ⟨true, ([0xE1] : List Byte) ++ beBytes 1 code ++ beBytes 2 stitch.toNat ++ zeros 4⟩
/-- Bytes as data blocks, the last one filled with zeros. (Log DESIGN CHOICE 163) -/
def dataBlocks (l : List Byte) : List LaneBlock :=
  (chunks 8 (l.length / 8 + 1) l).map (fun c => ⟨false, c ++ zeros (8 - c.length)⟩)
/-- A frame: its start block and its data blocks (R211). -/
def frameBlocks (l : List Byte) : List LaneBlock :=
  let d := dataBlocks l
  frameStart (byteAt l 0).toNat d.length :: d

/-! ## Frames (R212 to R214) -/

/-- The CRC of a link frame holds: CRC-32C over every byte before it, big-endian (R212). -/
def weltCrc (l : List Byte) : Bool := decide (4 ≤ l.length) && beNat (l.drop (l.length - 4)) == crc32c (l.take (l.length - 4))
/-- A link frame with its CRC. -/
def weltSeal (l : List Byte) : List Byte := l ++ beBytes 4 (crc32c l)
/-- A Ping with its token, and the Link parameters of a bay (R213, R214). -/
def pingFrame (token : Half) : List Byte := weltSeal ([0x03, 0] ++ beBytes 2 token.toNat)
def paramsFrame (bay applyDelay : Nat) : List Byte := weltSeal ([0x02, 0] ++ beBytes 2 applyDelay ++ beBytes 1 bay ++ zeros 7)
/-- The length of an uplink frame by its FTYPE (R212). -/
def uplinkLen (ftype : Nat) : Nat := if ftype = 0x81 then 128 else if ftype = 0x82 then 32 else if ftype = 0x83 then 12 else 0

/-- What the receiver of a lane holds: the descrambler's bits, and the frame that comes in, with its data blocks still due. -/
structure LaneRx where
  hist : BitVec 58
  frame : Option (Nat × Nat × List Byte)
  done : Option (List Byte)
  deriving DecidableEq, Repr

/-- A received block: an invalid sync header and any other block type are dropped, so that a frame which loses a block stays short
(R211). -/
def LaneRx.take (r : LaneRx) (x : LaneWord) : LaneRx :=
  let d := laneBits r.hist x.word
  let l := wordBytes d.1
  let r1 := { r with hist := d.2 }
  if x.head = 2 then
    (if byteAt l 0 = 0x2D then { r1 with frame := some ((byteAt l 1).toNat, (byteAt l 2).toNat, []) } else r1)
  else if x.head = 1 then
    match r1.frame with
    | some (t, n, got) =>
      let all := got ++ l
      if n ≤ 1 then { r1 with frame := none, done := some (all.take (uplinkLen t)) } else { r1 with frame := some (t, n - 1, all) }
    | none => r1
  else r1
/-- The frame that received blocks carry, and the descrambler's bits after them. -/
def receiveBlocks (h : BitVec 58) (l : List LaneWord) : Option (List Byte) × BitVec 58 :=
  let r := l.foldl LaneRx.take ⟨h, none, none⟩
  (r.done, r.hist)

/-! ## The write stream (R218, R220) -/

/-- Gate entries of a beam's 3,200 channel bits, none at read power, from the state at the segment's start, and the state at its end. -/
def gateChanges (open0 : Bool) (cells : List (Option Bool)) : List (Bool × Nat) × Bool :=
  cells.zipIdx.foldl (fun (a : List (Bool × Nat) × Bool) e =>
    if e.1.isSome = a.2 then a else (a.1 ++ [(e.1.isSome, e.2)], e.1.isSome)) ([], open0)
/-- Four 16-bit GATE entries; unused ones are zero. -/
def gateBytes (es : List (Bool × Nat)) : List Byte :=
  let used := (es.take 4).map (fun e => 0x8000 + 0x4000 * bitNat e.1 + e.2 % 4096)
  (used ++ List.replicate (4 - used.length) 0).flatMap (beBytes 2)
/-- The 40-byte header of a lane's segment: the gates of its four beams and the switch of the record register (R220). -/
def segmentHeader (gates : List (List (Bool × Nat))) (sw : Option (Nat × Nat)) : List Byte :=
  let s := match sw with
    | some (r, o) => beBytes 1 (0x80 + r % 4) ++ [0] ++ beBytes 2 o
    | none => zeros 4
  weltSeal (gates.flatMap gateBytes ++ s)
/-- Eight channel bits as a byte, the earliest in bit 7; a bit at read power is sent as 0. (Log DESIGN CHOICE 163) -/
def cellByte (l : List (Option Bool)) : Byte := byteOf ((List.range 8).foldl (fun a i => 2 * a + bitNat ((l.getD i none).getD false)) 0)
/-- The 200 stream blocks of a lane: block `i` holds 64 channel bits of the lane's beam `i` mod 4. -/
def streamBlocks (beams : List (List (Option Bool))) : List LaneBlock :=
  (List.range 200).map (fun i =>
    let l := ((beams.getD (i % 4) []).drop (64 * (i / 4))).take 64
    ⟨false, (chunks 8 8 l).map cellByte⟩)
/-- A lane's segment: its start block, its header and its stream blocks (R218). -/
def segmentBlocks (lane seg : Nat) (write : Bool) (beams : List (List (Option Bool))) (open0 : List Bool) (sw : Option (Nat × Nat)) : List LaneBlock :=
  let gates := (List.range 4).map (fun i => (gateChanges (open0.getD i false) (beams.getD i [])).1)
  segmentStart lane seg write :: (dataBlocks (segmentHeader gates sw) ++ streamBlocks beams)

end Sys2Proof.Machine
end

