-- ==== Sys2Proof/Machine/Geometry.lean ====
section
/-! DEFINITION. Where things lie on a disc: zones, slots, physical slot addresses, block placement, logical sector
numbers, spare positions and course sector numbers (R29, R30, R47 to R50, R67, R84, R87 to R89, R95, R187, R188). -/

namespace Sys2Proof.Machine

open Sys2Proof

/-- Data sectors of a block, S (R87). -/
def DiscType.dataSectors : DiscType → Nat
  | .plain => 28
  | .ridged => 24

/-- Sectors of a block with its four parity sectors (R84). -/
def DiscType.blockSectors (t : DiscType) : Nat := t.dataSectors + 4

/-- Blocks of a layer, B (R67, R87). -/
def DiscType.blocks : DiscType → Nat
  | .plain => 414173
  | .ridged => 418092

/-- Slots of a spiral of the data band, N (R47). -/
def DiscType.slots : DiscType → Nat
  | .plain => 1710560
  | .ridged => 1726980

/-- The first user-zone slot (R47). -/
def DiscType.userStart : DiscType → Nat
  | .plain => 19520
  | .ridged => 19936

/-- Slots of the user zone, U (R47). -/
def DiscType.userSlots : DiscType → Nat
  | .plain => 1656828
  | .ridged => 1672504

/-- The first spare slot (R47, R188). -/
def DiscType.spareStart : DiscType → Nat
  | .plain => 1676348
  | .ridged => 1692440

/-- Spare slots of a spiral, E (R47). -/
def DiscType.spareSlots : DiscType → Nat
  | .plain => 34212
  | .ridged => 34540

/-- Data spirals, D, and the first of them (R188). -/
def DiscType.spirals : DiscType → Nat
  | .plain => 8
  | .ridged => 7
def DiscType.firstSpiral : DiscType → Nat
  | .plain => 0
  | .ridged => 1

/-- OPC units of a layer (R50). -/
def DiscType.opcUnits : DiscType → Nat
  | .plain => 610
  | .ridged => 623

/-- Slot length in channel bits (R37). -/
def DiscType.slotLen : DiscType → Nat
  | .plain => 47136
  | .ridged => 46688

/-- Preamble length in channel bits (R37). -/
def DiscType.preamble : DiscType → Nat
  | .plain => 512
  | .ridged => 64

/-- The first user-zone index of block `n` (R172, R174): 4n on a plain disc, 4n + 4 on a ridged disc. -/
def DiscType.firstIndex (t : DiscType) (n : Nat) : Nat :=
  match t with
  | .plain => 4 * n
  | .ridged => 4 * n + 4

/-- Blocks of a verify segment (R187). -/
def DiscType.segmentBlocks : DiscType → Nat
  | .plain => 586
  | .ridged => 683

/-- The recording spirals of a slot, in ascending order. -/
def DiscType.spiralList : DiscType → List Nat
  | .plain => [0, 1, 2, 3, 4, 5, 6, 7]
  | .ridged => [1, 2, 3, 4, 5, 6, 7]

/-- Spiral, residue and user-zone index of sector `k` of block `n` (R88, R89). -/
def placement (t : DiscType) (n k : Nat) : Nat × Nat × Nat :=
  let b := k % t.spirals + t.firstSpiral
  let q := k / t.spirals
  (b, q, 4 * (n + 9 * q + b) + q)

/-- The sector that user-zone index `j` of spiral `b` carries, as block and `k`, or none for an edge slot (R89). -/
def sectorAt (t : DiscType) (b j : Nat) : Option (Nat × Nat) :=
  let q := j % 4
  let d := 9 * q + b
  if b < t.firstSpiral then none
  else if j / 4 < d then none
  else
    let n := j / 4 - d
    let k := q * t.spirals + (b - t.firstSpiral)
    if n < t.blocks ∧ k < t.blockSectors then some (n, k) else none

/-- A physical slot address: LAYER, SPIRAL, SLOT (R48). -/
def psa (layer spiral slot : Nat) : Nat := layer * 2 ^ 29 + spiral * 2 ^ 26 + slot

/-- The parts of a physical slot address. -/
def psaLayer (a : Nat) : Nat := a / 2 ^ 29
def psaSpiral (a : Nat) : Nat := a / 2 ^ 26 % 8
def psaSlot (a : Nat) : Nat := a % 2 ^ 26

/-- A physical slot address is valid on a disc (R48). -/
def psaValid (t : DiscType) (layers a : Nat) : Bool :=
  decide (psaLayer a < layers ∧ psaSlot a < t.slots ∧ t.firstSpiral ≤ psaSpiral a ∧ a < 2 ^ 32)

/-- The home address of sector `k` of block `n` of a layer. -/
def homeAddr (t : DiscType) (layer n k : Nat) : Nat :=
  let p := placement t n k
  psa layer p.1 (p.2.2 + t.userStart)

/-- The home address of spiral-slot (b, j). -/
def userAddr (t : DiscType) (layer b j : Nat) : Nat := psa layer b (j + t.userStart)

/-- The physical slot address of spare position `e` of a layer (R188). -/
def spareAddr (t : DiscType) (layer e : Nat) : Nat :=
  psa layer (e % t.spirals + t.firstSpiral) (t.spareStart + e / t.spirals)

/-- Spare positions of a layer. -/
def sparePositions (t : DiscType) : Nat := t.spareSlots * t.spirals

/-- The LSN of sector `k` of block `n` of a layer (R87). -/
def lsnOf (t : DiscType) (layer n k : Nat) : Nat :=
  if k < t.dataSectors then layer * 0x1000000 + t.dataSectors * n + k
  else 0x40000000 + layer * 0x1000000 + 4 * n + (k - t.dataSectors)

/-- Layer, block and `k` of a valid data LSN (R87). -/
def lsnData (t : DiscType) (layers lsn : Nat) : Option (Nat × Nat × Nat) :=
  let l := lsn / 0x1000000
  let n := lsn % 0x1000000 / t.dataSectors
  if l < layers ∧ n < t.blocks then some (l, n, lsn % 0x1000000 % t.dataSectors) else none

/-- Course row, data disc and `k` of a CSN (R95). -/
def csnRow (t : DiscType) (d csn : Nat) : Nat := csn / (t.dataSectors * d)
def csnDisc (t : DiscType) (d csn : Nat) : Nat := csn / t.dataSectors % d
def csnK (t : DiscType) (csn : Nat) : Nat := csn % t.dataSectors

/-- CSNs of a course (R372, R379): S × d × B × layers. -/
def courseCsns (t : DiscType) (d layers : Nat) : Nat := t.dataSectors * d * t.blocks * layers

/-- Layer and block of a course row (R95). -/
def rowLayer (t : DiscType) (m : Nat) : Nat := m / t.blocks
def rowBlock (t : DiscType) (m : Nat) : Nat := m % t.blocks

/-- The radius of S0 at data-band grid position `c`, in nm, rounded down: the square root of r₀² + c × 1.92 µm ×
50 nm ÷ π (R29), with π to sixteen digits. -/
def gridRadiusNm (c : Int) : Nat :=
  Nat.sqrt (Int.toNat (30000000 * 30000000 + c * 96000 * 1000000000000000 / 3141592653589793))

/-- The same radius in µm. -/
def gridRadius (c : Int) : Nat := gridRadiusNm c / 1000

/-- The slot a beam reads at a grid position of the data band. -/
def DiscType.slotAt (t : DiscType) (c : Int) : Nat := (c / t.slotLen).toNat

/-- The blocks with any sector recorded, when the next index to record is `j` (R174, R175): block n has its first
sector at its first index. -/
def blocksBegun (t : DiscType) (j : Nat) : Nat :=
  match t with
  | .plain => (j + 3) / 4
  | .ridged => (j - 4 + 3) / 4

end Sys2Proof.Machine
end

