-- ==== Sys2Proof/Machine/Pattern.lean ====
section
/-! DEFINITION. The pattern's fields: identifiers, index columns, ranges, defaults and take-effect points (R137, R138,
R169, R201, R226, R250, R273, R294, R316, R351, R381, R408, R459, R485), with the loop defaults of R227, R237, R254,
R255, R282 and R302, and the values in force and pending. -/

namespace Sys2Proof.Machine

open Sys2Proof

/-- What a field's Range column admits. -/
inductive PatRange
  /-- every integer from `lo` to `hi` -/
  | span (lo hi : Int)
  /-- multiples of `step` from `lo` to `hi` -/
  | steps (lo hi step : Int)
  /-- the source codes of R230 -/
  | inSrc
  /-- the region variables of R237 for a slot -/
  | regionVar
  deriving DecidableEq, Repr

/-- A pattern field: its index column's first index and count, its range and its take-effect point. -/
structure PatField where
  first : Nat
  count : Nat
  range : PatRange
  point : PatPoint
  deriving DecidableEq, Repr

/-- The limits of a Q4.27 pattern value (R232). -/
def q27Min : Int := -(2 ^ 30)
def q27Max : Int := 2 ^ 30 - 1

/-- A fraction as a Q4.27 integer, to nearest with ties away from zero (R232). -/
def q27 (num : Int) (den : Nat) : Int :=
  if 0 ≤ num then (2 * num * 2 ^ 27 + den) / (2 * den) else -((2 * (-num) * 2 ^ 27 + den) / (2 * den))

/-- The loop types of R227. -/
inductive Loop | focus | tracking | tilt | pitch | sled | spindle | laser | spare
  deriving DecidableEq, Repr

/-- The loop type of a slot (R227). -/
def loopOf (s : Nat) : Loop :=
  if s < 16 then .focus else if s < 32 then .tracking else if s < 48 then .tilt else if s < 64 then .pitch
  else if s < 80 then .sled else if s < 96 then .spindle else if s < 224 then .laser else .spare

/-- A field with `count` indices from 0. -/
def fld (count : Nat) (lo hi : Int) (p : PatPoint := .span) : Option PatField := some ⟨0, count, .span lo hi, p⟩

/-- The pattern fields by ID; none for an ID that this issue does not define (R394, R395). -/
def patField (id : Nat) : Option PatField :=
  match id with
  -- ring (R351)
  | 0x0100 => fld 1 100 10000
  | 0x0101 => fld 1 2 32
  | 0x0102 => fld 1 8 1024
  | 0x0103 => fld 1 1 64
  | 0x0104 => fld 1 1 100
  | 0x0105 => fld 2 5 50
  | 0x0106 => fld 1 1 100
  | 0x0107 => some ⟨0, 1, .steps 64 4096 64, .boot⟩
  -- queues (R381)
  | 0x0200 => fld 4 10 86400000
  | 0x0201 => fld 4 0 512
  | 0x0202 => some ⟨1, 3, .span 1 64, .span⟩
  | 0x0203 => fld 1 2 4096
  | 0x0204 => fld 1 1 3600
  -- memory (R459)
  | 0x0300 => fld 1 1 168
  | 0x0301 => fld 1 0 1
  | 0x0302 => fld 1 0 2 .boot
  -- read channel (R138)
  | 0x0400 => fld 16 0 1
  | 0x0401 => fld 128 0 48
  | 0x0402 => fld 128 0 7
  | 0x0403 => fld 16 0 7
  | 0x0404 => fld 16 0 7
  | 0x0405 => fld 16 1024 65536
  | 0x0406 => fld 16 4 32
  | 0x0407 => fld 16 0 6
  | 0x0408 => fld 16 0 3
  | 0x0409 => fld 16 1 16
  | 0x040A => fld 16 0 3
  | 0x040B => fld 16 0 7
  | 0x040C => fld 16 6 24
  | 0x040D => fld 16 1 64
  | 0x040E => fld 16 0 4096
  | 0x040F => fld 16 5 50
  | 0x0410 => fld 16 0 1
  | 0x0411 => fld 16 256 16384
  | 0x0412 => fld 16 1 64
  | 0x0413 => fld 16 0 32
  -- recovery (R169)
  | 0x0420 => fld 16 1 12
  | 0x0421 => fld 16 0 2
  | 0x0422 => fld 16 0 72
  | 0x0423 => fld 16 0 4
  | 0x0424 => fld 16 0 24
  | 0x0425 => fld 16 0 12
  | 0x0426 => fld 16 0 2
  | 0x0427 => fld 1 10 3600
  | 0x0428 => fld 1 1 8
  | 0x0429 => some ⟨0, 1, .steps 64 8192 64, .boot⟩
  -- write path (R201)
  | 0x0500 => fld 24 2048 8191
  | 0x0501 => fld 168 (-16) 15
  | 0x0502 => fld 168 (-16) 15
  | 0x0503 => fld 168 0 48
  | 0x0510 => fld 1 1 64
  | 0x0511 => fld 1 1 12
  | 0x0512 => fld 1 0 1024
  | 0x0513 => fld 1 1 4
  | 0x0514 => fld 1 50 100
  | 0x0515 => fld 1 1 600
  | 0x0516 => fld 1 100 60000
  | 0x0517 => some ⟨0, 1, .steps 256 16384 256, .boot⟩
  -- Girth (R250)
  | 0x0600 => fld 256 0 1 .girth
  | 0x0601 => some ⟨0, 1024, .inSrc, .girth⟩
  | 0x0602 => fld 1024 q27Min q27Max .girth
  | 0x0603 => fld 256 q27Min q27Max .girth
  | 0x0604 => fld 20480 q27Min q27Max .girth
  | 0x0605 => fld 2048 q27Min q27Max .girth
  | 0x0606 => fld 2048 q27Min q27Max .girth
  | 0x0607 => fld 2048 q27Min q27Max .girth
  | 0x0608 => fld 2048 q27Min q27Max .girth
  | 0x0609 => fld 2048 q27Min q27Max .girth
  | 0x060A => fld 256 0 1 .girth
  | 0x060B => some ⟨0, 256, .regionVar, .girth⟩
  | 0x060C => fld 1792 (-(2 ^ 31)) (2 ^ 31 - 1) .girth
  | 0x060D => fld 256 0 65535 .girth
  | 0x060E => fld 256 0 7 .girth
  | 0x060F => fld 256 0 8 .girth
  | 0x0610 => fld 256 1 8 .girth
  | 0x0611 => some ⟨224, 32, .span 0 4, .girth⟩
  | 0x0612 => some ⟨224, 32, .span 0 15, .girth⟩
  | 0x0616 => fld 256 0 1 .girth
  -- optical servo (R273)
  | 0x0640 => fld 16 200 1000
  | 0x0641 => fld 16 10 100
  | 0x0642 => fld 16 1 8
  | 0x0643 => fld 16 2 50
  | 0x0644 => fld 16 20 80
  | 0x0645 => fld 16 5 120
  | 0x0646 => fld 16 40 120
  | 0x0647 => fld 16 20 60
  | 0x0648 => fld 16 1 64
  | 0x0649 => fld 16 200 20000
  | 0x064A => fld 16 1 16
  | 0x064B => fld 16 0 8
  | 0x064C => fld 16 0 1
  | 0x064D => fld 16 1 8
  | 0x064E => fld 16 10 200
  -- Welt link (R226)
  | 0x0680 => fld 16 0 1
  | 0x0681 => fld 16 4 200
  | 0x0682 => fld 16 1 16
  -- spindle (R294)
  | 0x0700 => fld 16 1 8
  | 0x0701 => fld 16 100 10000
  | 0x0702 => fld 16 10 5000
  | 0x0703 => fld 16 100 875
  | 0x0704 => fld 16 100 4000
  | 0x0705 => fld 16 2 30
  | 0x0706 => fld 16 100 4000
  | 0x0707 => fld 16 5 200
  | 0x0708 => fld 16 10 100
  | 0x0709 => fld 16 100 2000
  | 0x070A => fld 16 1 25
  | 0x070B => fld 16 2 50
  | 0x070C => fld 64 16000 192000
  | 0x070D => fld 16 500 20000
  | 0x070E => fld 16 1 4096
  | 0x070F => fld 16 5 3600
  | 0x0710 => fld 16 0 60
  | 0x0711 => fld 16 1 8
  -- sled (R316)
  | 0x0800 => fld 16 10 400
  | 0x0801 => fld 16 1000 100000
  | 0x0802 => fld 16 100 4000
  | 0x0803 => fld 16 1000 100000
  | 0x0804 => fld 16 200 4000
  | 0x0805 => fld 16 1000 100000
  | 0x0806 => fld 16 1000 100000
  | 0x0807 => fld 16 10 400
  | 0x0808 => fld 16 100 2000
  | 0x0809 => fld 16 5 100
  | 0x080A => fld 16 27000 30000
  | 0x080B => fld 16 28000 30000
  | 0x080C => fld 16 58500 59500
  | 0x080D => fld 16 28000 30000
  | 0x080E => fld 16 50 2000
  | 0x080F => fld 16 0 2000
  | 0x0810 => fld 16 0 1000
  | 0x0811 => fld 16 10 400
  | 0x0812 => fld 16 30 88
  | 0x0813 => fld 16 10 500
  -- power and heat (R485)
  | 0x0900 => fld 1 1 10
  | 0x0901 => fld 4 0 3
  | 0x0902 => some ⟨0, 1, .steps 1520 1648 8, .span⟩
  -- caches (R459)
  | 0x0A00 => fld 2 0 1
  | 0x0A01 => fld 2 0 1
  | 0x0A02 => fld 1 0 1
  | 0x0A03 => fld 1 0 8
  -- trims (R138, R408)
  | 0x0B00 => fld 128 0 255 .stitch
  | 0x0B01 => fld 128 0 63 .stitch
  | 0x0B02 => fld 128 0 15 .stitch
  | 0x0B03 => fld 16 (-160) 160
  | 0x0B04 => fld 80 (-2048) 2047 .stitch
  | 0x0B05 => fld 32 (-2048) 2047 .stitch
  | 0x0B06 => fld 8 (-2048) 2047 .stitch
  | _ => none

/-- An ID and INDEX name a field of this issue (R395 step 1). -/
def patDefined (id idx : Nat) : Bool :=
  match patField id with
  | none => false
  | some f => decide (f.first ≤ idx ∧ idx < f.first + f.count)

/-! ## Loop defaults -/

/-- The biquad coefficient `c` of filter `q` in set `g` of a loop (R255, R282, R302). -/
def bqDefault (l : Loop) (g q c : Nat) : Int :=
  let pass : Int := if c = 0 then q27 1 1 else 0
  let lead : Int := if c = 0 then q27 1 1 else if c = 1 then q27 (-9391) 10000 else if c = 3 then q27 (-6859) 10000 else 0
  let low : Int := if c = 0 then q27 628 1000000 else if c = 3 then q27 (-999372) 1000000 else 0
  match l with
  | .focus => if q = 0 then lead else pass
  | .tracking => if g ≤ 4 then (if q = 0 then lead else pass) else 0
  | .tilt => if g ≤ 4 then pass else 0
  | .pitch => if g ≤ 3 then pass else 0
  | .sled => if g ≤ 1 then (if q = 0 then low else pass) else 0
  | .spindle => if g ≤ 3 then pass else 0
  | .laser => if g ≤ 1 then pass else 0
  | .spare => 0

/-- The proportional gain of set `g` (R255, R282, R302). -/
def kpDefault (l : Loop) (g : Nat) : Int :=
  match l with
  | .focus => if g ≤ 5 then q27 (-2) 1 else if g = 6 then q27 (-1) 1 else q27 (-3) 1
  | .tracking => if g ≤ 3 then q27 (-15) 10 else if g = 4 then q27 (-8) 10 else 0
  | .tilt => if g ≤ 3 then q27 (-5) 100 else if g = 4 then q27 (-2) 100 else 0
  | .pitch => if g ≤ 3 then q27 (-2) 100 else 0
  | .sled => if g = 0 then q27 10 100 else if g = 1 then q27 5 100 else 0
  | .spindle => if g = 0 then q27 80 100 else if g = 1 then q27 1 1 else if g = 2 then q27 120 100
      else if g = 3 then q27 150 100 else 0
  | .laser => if g = 0 then q27 (-10) 100 else if g = 1 then q27 (-20) 100 else 0
  | .spare => 0

/-- The integral gain of set `g`. -/
def kiDefault (l : Loop) (g : Nat) : Int :=
  match l with
  | .focus => if g ≤ 5 then q27 (-10) 1000 else if g = 6 then 0 else q27 (-20) 1000
  | .tracking => if g ≤ 3 then q27 (-8) 1000 else 0
  | .tilt => if g ≤ 3 then q27 (-5) 10000 else if g = 4 then q27 (-2) 10000 else 0
  | .pitch => if g ≤ 3 then q27 (-2) 10000 else 0
  | .sled => if g ≤ 1 then q27 20 100000 else 0
  | .spindle => if g = 0 then q27 40 10000 else if g = 1 then q27 30 10000 else if g ≤ 3 then q27 20 10000 else 0
  | .laser => if g = 0 then q27 (-20) 1000 else if g = 1 then q27 (-40) 1000 else 0
  | .spare => 0

/-- The lower output limit of set `g`, and the upper one. -/
def outLoDefault (l : Loop) (g : Nat) : Int :=
  match l with
  | .focus => if g ≤ 6 then q27 (-90) 100 else q27 (-1) 1
  | .tracking => if g ≤ 4 then q27 (-80) 100 else 0
  | .tilt => if g ≤ 4 then q27 (-90) 100 else 0
  | .pitch => if g ≤ 3 then q27 (-90) 100 else 0
  | .sled => if g ≤ 1 then q27 (-25) 100 else 0
  | .spindle => if g ≤ 3 then q27 (-1) 1 else 0
  | .laser => if g ≤ 1 then q27 75 100 else 0
  | .spare => 0
def outHiDefault (l : Loop) (g : Nat) : Int :=
  match l with
  | .laser => if g ≤ 1 then q27 125 100 else 0
  | l => -(outLoDefault l g)

/-- Input source `i` of a slot (R227). -/
def inSrcDefault (l : Loop) (bay i : Nat) : Int :=
  match l, i with
  | .focus, 0 => 0x03 | .focus, 1 => 0x04
  | .tracking, 0 => 0x13 | .tracking, 1 => 0x14
  | .tilt, 0 => 0x40
  | .pitch, 0 => 0x10 | .pitch, 1 => 0x17
  | .sled, 0 => 0x51
  | .spindle, 0 => 0x46
  | .laser, 0 => 0x30 + (bay : Int)
  | _, _ => 0xFF

/-- Input weight `i` of a slot (R227). -/
def inWeightDefault (l : Loop) (i : Nat) : Int :=
  match l, i with
  | .focus, 0 => q27 1 2 | .focus, 1 => q27 1 2
  | .tracking, 0 => q27 1 2 | .tracking, 1 => q27 1 2
  | .tilt, 0 => q27 1 1
  | .pitch, 0 => q27 1 2 | .pitch, 1 => q27 (-1) 2
  | .sled, 0 => q27 1 1
  | .spindle, 0 => q27 1 1
  | .laser, 0 => q27 1 1
  | _, _ => 0

/-- Threshold `j` (1 to 7) of a loop (R254, R282). -/
def thrDefault (l : Loop) (j : Nat) : Int :=
  match l, j with
  | .tracking, 1 | .tilt, 1 | .pitch, 1 => 37000
  | .tracking, 2 | .tilt, 2 | .pitch, 2 => 44000
  | .tracking, 3 | .tilt, 3 | .pitch, 3 => 51000
  | .spindle, 1 => 2000 | .spindle, 2 => 5000 | .spindle, 3 => 8000
  | .laser, 1 => 1
  | _, _ => 0

/-- Hysteresis (R254, R282, R302). -/
def hystDefault : Loop → Int
  | .tracking | .tilt | .pitch => 50 | .spindle => 100 | _ => 0
/-- Selection modes; a spare slot's is 0 (R237, R250). (Log DESIGN CHOICE 178) -/
def modeDefault : Loop → Int
  | .tracking | .tilt | .pitch | .spindle | .laser => 1 | _ => 0
/-- Region variable and number of sets (R237). -/
def varDefault : Loop → Int
  | .spindle => 2 | .laser => 5 | _ => 1
def nsetsDefault : Loop → Int
  | .focus => 8 | .tracking | .tilt | .pitch => 4 | .sled => 8 | .spindle => 4 | .laser => 2 | .spare => 1

/-- Point `i` of the default speed curve, 60 × 32.0 m/s ÷ (2πrᵢ) in 1/16 rpm, to nearest (R279). -/
def curveDefault (i : Nat) : Int :=
  let num := 2 * 967680000 * 10 ^ 15
  let den := 3141592653589793 * (1890 + 28 * i)
  ((num + den) / (2 * den) : Nat)

/-- The default of a field (R138, R169, R201, R226, R250, R273, R294, R316, R351, R381, R408, R459, R485). -/
def patDefault (id idx : Nat) : Int :=
  match id with
  | 0x0100 => 500 | 0x0101 => 8 | 0x0102 => 256 | 0x0103 => 8 | 0x0104 => 10 | 0x0105 => 10 | 0x0106 => 10
  | 0x0107 => 512
  | 0x0200 => if idx = 0 then 5000 else if idx = 1 then 30000 else if idx = 2 then 600000 else 7200000
  | 0x0201 => if idx = 0 then 128 else if idx = 1 then 256 else if idx = 2 then 128 else 64
  | 0x0202 => if idx = 1 then 8 else if idx = 2 then 4 else 1
  | 0x0203 => 512 | 0x0204 => 60
  | 0x0300 => 24 | 0x0301 => 1 | 0x0302 => 0
  | 0x0400 => 1 | 0x0401 => 24 | 0x0402 => 4 | 0x0403 => 3 | 0x0404 => 2 | 0x0405 => 8192 | 0x0406 => 16
  | 0x0407 => 4 | 0x0408 => 2 | 0x0409 => 8 | 0x040A => 0 | 0x040B => 3 | 0x040C => 12 | 0x040D => 8
  | 0x040E => 1024 | 0x040F => 12 | 0x0410 => 1 | 0x0411 => 4096 | 0x0412 => 16 | 0x0413 => 32
  | 0x0420 => 6 | 0x0421 => 2 | 0x0422 => 16 | 0x0423 => 4 | 0x0424 => 6 | 0x0425 => 4 | 0x0426 => 2
  | 0x0427 => 300 | 0x0428 => 2 | 0x0429 => 1024
  | 0x0500 => if idx % 4 = 0 then 4260 else if idx % 4 = 1 then 4096 else if idx % 4 = 2 then 3973 else 3850
  | 0x0503 => 16
  | 0x0510 => 16 | 0x0511 => 4 | 0x0512 => 256 | 0x0513 => 3 | 0x0514 => 90 | 0x0515 => 30 | 0x0516 => 5000
  | 0x0517 => 4096
  | 0x0600 => if idx < 224 then 1 else 0
  | 0x0601 => inSrcDefault (loopOf (idx / 4)) ((idx / 4 - 96) % 8) (idx % 4)
  | 0x0602 => inWeightDefault (loopOf (idx / 4)) (idx % 4)
  | 0x0604 => bqDefault (loopOf (idx / 80)) (idx % 80 / 10) (idx % 10 / 5) (idx % 5)
  | 0x0605 => kpDefault (loopOf (idx / 8)) (idx % 8)
  | 0x0606 => kiDefault (loopOf (idx / 8)) (idx % 8)
  | 0x0608 => outHiDefault (loopOf (idx / 8)) (idx % 8)
  | 0x0609 => outLoDefault (loopOf (idx / 8)) (idx % 8)
  | 0x060A => modeDefault (loopOf idx)
  | 0x060B => varDefault (loopOf idx)
  | 0x060C => thrDefault (loopOf (idx / 7)) (idx % 7 + 1)
  | 0x060D => hystDefault (loopOf idx)
  | 0x060F => 8
  | 0x0610 => nsetsDefault (loopOf idx)
  | 0x0640 => 560 | 0x0641 => 40 | 0x0642 => 3 | 0x0643 => 10 | 0x0644 => 50 | 0x0645 => 20 | 0x0646 => 80
  | 0x0647 => 30 | 0x0648 => 32 | 0x0649 => 200 | 0x064A => 4 | 0x064B => 3 | 0x064C => 1 | 0x064D => 4
  | 0x064E => 90
  | 0x0680 => 1 | 0x0681 => 32 | 0x0682 => 4
  | 0x0700 => 4 | 0x0701 => 900 | 0x0702 => 350 | 0x0703 => 800 | 0x0704 => 2000 | 0x0705 => 15 | 0x0706 => 1500
  | 0x0707 => 40 | 0x0708 => 50 | 0x0709 => 400 | 0x070A => 6 | 0x070B => 12
  | 0x070C => curveDefault idx
  | 0x070D => 6000 | 0x070E => 1 | 0x070F => 120 | 0x0710 => 10 | 0x0711 => 3
  | 0x0800 => 100 | 0x0801 => 40000 | 0x0802 => 800 | 0x0803 => 20000 | 0x0804 => 4000 | 0x0805 => 20000
  | 0x0806 => 40000 | 0x0807 => 100 | 0x0808 => 1000 | 0x0809 => 25 | 0x080A => 28200 | 0x080B => 28500
  | 0x080C => 59000 | 0x080D => 28500 | 0x080E => 600 | 0x080F => 200 | 0x0810 => 100 | 0x0811 => 60
  | 0x0812 => 75 | 0x0813 => 200
  | 0x0900 => 2 | 0x0902 => 1600
  | 0x0A00 => 1 | 0x0A01 => 1 | 0x0A02 => 1 | 0x0A03 => 4
  | 0x0B00 => 128 | 0x0B01 => 32 | 0x0B02 => 8
  | _ => 0

/-! ## Values in force and pending -/

/-- The key of a field and index. -/
def patKey (id idx : Nat) : Nat := id * 65536 + idx

/-- The value in force of a field (R395). -/
def Pattern.val (p : Pattern) (id idx : Nat) : Int :=
  match p.inForce.find? (fun e => e.1 == patKey id idx) with
  | some e => e.2
  | none => patDefault id idx

/-- The pending value of a field, or the value in force when none is pending (R395, R398). -/
def Pattern.latest (p : Pattern) (id idx : Nat) : Int :=
  match p.pending.find? (fun e => e.key == patKey id idx) with
  | some e => e.value
  | none => p.val id idx

/-- `v` made pending; a later value for the same field supersedes an earlier one (R395). -/
def Pattern.pend (p : Pattern) (id idx : Nat) (v : Int) : Pattern :=
  let pt := match patField id with | some f => f.point | none => .span
  { p with pending := p.pending.filter (fun e => e.key != patKey id idx) ++ [⟨patKey id idx, v, pt⟩] }

/-- `v` put in force at once. -/
def Pattern.force (p : Pattern) (key : Nat) (v : Int) : Pattern :=
  { p with inForce := p.inForce.filter (fun e => e.1 != key) ++ [(key, v)] }

/-- Every value pending for a point put in force (R395). -/
def Pattern.settle (p : Pattern) (pts : List PatPoint) : Pattern :=
  let due := p.pending.filter (fun e => pts.contains e.point)
  let rest := p.pending.filter (fun e => !pts.contains e.point)
  due.foldl (fun q e => q.force e.key e.value) { p with pending := rest }

/-- Entry to RESET: every value returns to its default, but for those pending for "next boot" (R395, R403). -/
def Pattern.atReset (p : Pattern) : Pattern :=
  { inForce := [], pending := p.pending.filter (fun e => e.point == .boot) }

/-! ## Range and allowed codes (R395 step 2) -/

/-- The source codes that R230 defines. (Log DEDUCED 138) -/
def srcCode (v : Int) : Bool :=
  decide ((0 ≤ v ∧ v ≤ 7) ∨ (0x10 ≤ v ∧ v ≤ 0x17) ∨ (0x20 ≤ v ∧ v ≤ 0x27) ∨ (0x30 ≤ v ∧ v ≤ 0x37)
    ∨ (0x40 ≤ v ∧ v ≤ 0x47) ∨ (0x50 ≤ v ∧ v ≤ 0x55) ∨ (0x60 ≤ v ∧ v ≤ 0x67) ∨ v = 0xFF)

/-- A value held within two limits. -/
def clampInt (lo hi v : Int) : Int := if v < lo then lo else if hi < v then hi else v

/-- The value after the range step: the nearer limit outside the range, and the nearest allowed value within it, the
lower on a tie. IN_SRC follows R230 and REGION_VAR follows R237. (Log DEDUCED 138) -/
def rangeStep (id idx : Nat) (v : Int) : Int :=
  match patField id with
  | none => 0
  | some f =>
    match f.range with
    | .span lo hi => clampInt lo hi v
    | .steps lo hi st =>
      let w := clampInt lo hi v
      let down := lo + (w - lo) / st * st
      if 2 * (w - down) ≤ st then down else down + st
    | .inSrc => if srcCode v then v else 0xFF
    | .regionVar =>
      let w := clampInt 1 5 v
      if w = 5 ∧ loopOf idx ≠ .laser then 1 else w

/-! ## Cross-field rules (R395 step 3) -/

/-- The first point of the speed curve above the one before it, with the value that sets it down (R279). -/
def curveFix (p : Pattern) : Option (Nat × Nat × Int) :=
  ((List.range 63).find? (fun i => decide (p.latest 0x070C i < p.latest 0x070C (i + 1)))).map
    (fun i => (0x070C, i + 1, p.latest 0x070C i))

/-- The first class, in the order 3, 2, 1, 0, that gives up tag reservations while they sum to more than 1,024 (R381). -/
def reserveFix (p : Pattern) : Option (Nat × Nat × Int) :=
  let sum := p.latest 0x0201 0 + p.latest 0x0201 1 + p.latest 0x0201 2 + p.latest 0x0201 3
  if sum ≤ 1024 then none
  else ([3, 2, 1, 0].find? (fun c => decide (0 < p.latest 0x0201 c))).map
    (fun c => (0x0201, c, max 0 (p.latest 0x0201 c - (sum - 1024))))

/-- The first spare slot that names an AUX output a lower enabled spare slot of the same bay names (R243). -/
def auxFix (p : Pattern) : Option (Nat × Nat × Int) :=
  let on (s : Nat) : Bool := decide (p.latest 0x0600 s = 1 ∧ p.latest 0x0611 s ≠ 0)
  let spare := (List.range 32).map (· + 224)
  (spare.find? (fun s => on s && spare.any (fun t => decide (t < s) && on t
    && decide (p.latest 0x0611 t = p.latest 0x0611 s ∧ p.latest 0x0612 t = p.latest 0x0612 s)))).map
    (fun s => (0x0611, s, 0))

/-- The first rule of R317 that a bay's sled fields break, in the order of its table. -/
def sledFix (p : Pattern) (b : Nat) : Option (Nat × Nat × Int) :=
  let g (id : Nat) : Int := p.latest id b
  if g 0x0804 < g 0x0802 then some (0x0802, b, g 0x0804)
  else if g 0x0802 < g 0x0800 then some (0x0800, b, g 0x0802)
  else if g 0x0802 < g 0x0807 then some (0x0807, b, g 0x0802)
  else if g 0x080E < g 0x080F then some (0x080F, b, g 0x080E)
  else if g 0x080B < g 0x080A then some (0x080A, b, g 0x080B)
  else if g 0x080D < g 0x080B then some (0x080D, b, g 0x080B)
  else if g 0x080C < g 0x080D then some (0x080D, b, g 0x080C)
  else none

/-- The next change that a cross-field rule of the chapter owning field `id` makes, if any rule is broken. -/
def crossFix (p : Pattern) (id idx : Nat) : Option (Nat × Nat × Int) :=
  if id = 0x0201 then reserveFix p
  else if id = 0x0600 ∨ id = 0x0611 ∨ id = 0x0612 then auxFix p
  else if id = 0x0608 ∨ id = 0x0609 then
    (if p.latest 0x0608 idx < p.latest 0x0609 idx then some (0x0608, idx, p.latest 0x0609 idx) else none)
  else if id = 0x070A ∨ id = 0x070B then
    (if p.latest 0x070B idx ≤ p.latest 0x070A idx then some (0x070B, idx, p.latest 0x070A idx + 1) else none)
  else if id = 0x070C then curveFix p
  else if 0x0800 ≤ id ∧ id ≤ 0x0813 then sledFix p idx
  else none

/-- The cross-field rules applied until none is broken, at most `fuel` times; each change is listed with the value
the field held before it. (Log DEDUCED 139) -/
def crossRun (id idx : Nat) : Nat → Pattern → List (Nat × Nat × Int × Int) → Pattern × List (Nat × Nat × Int × Int)
  | 0, p, acc => (p, acc)
  | k + 1, p, acc =>
    match crossFix p id idx with
    | none => (p, acc)
    | some (i, x, v) => crossRun id idx k (p.pend i x v) (acc ++ [(i, x, p.latest i x, v)])

/-- L1D_EN and L2_EN: the statement R452 makes for each field of the pair. -/
def cachePair (p : Pattern) (id : Nat) (v : Int) : Int :=
  if id = 0x0A01 ∧ v = 1 ∧ p.latest 0x0A02 0 = 0 then 0
  else if id = 0x0A02 ∧ v = 0 ∧ (p.latest 0x0A01 0 = 1 ∨ p.latest 0x0A01 1 = 1) then 1
  else v

/-- Triple `n` of a message processed by R395 and R396: the pattern with its value pending, and the clamp report
entries it gives. `allow` is step 4: the value that the present state permits. (Log DEDUCED 139) -/
def applyTriple (allow : Nat → Nat → Int → Int) (p : Pattern) (n id idx : Nat) (v : Int) : Pattern × List ClampEntry :=
  if patDefined id idx = false then (p, [⟨id, idx, v, 0, 1, n⟩])
  else
    let v2 := rangeStep id idx v
    let v3 := cachePair p id v2
    let r := crossRun id idx 128 (p.pend id idx v3) []
    let v4 := r.1.latest id idx
    let v5 := allow id idx v4
    let p5 := if v5 = v4 then r.1 else r.1.pend id idx v5
    let reason := if v5 ≠ v4 then 4 else if v4 ≠ v2 then 3 else 2
    let own : List ClampEntry := if v5 = v then [] else [⟨id, idx, v, v5, reason, n⟩]
    let others := r.2.filter (fun c => decide (¬(c.1 = id ∧ c.2.1 = idx)))
    (p5, own ++ others.map (fun c => ⟨c.1, c.2.1, c.2.2.1, c.2.2.2, 3, n⟩))

/-- Triples processed in payload order. -/
def applyTriples (allow : Nat → Nat → Int → Int) :
    Pattern → Nat → List (Nat × Nat × Int) → List ClampEntry → Pattern × List ClampEntry
  | p, _, [], acc => (p, acc)
  | p, n, (id, idx, v) :: r, acc =>
    let q := applyTriple allow p n id idx v
    applyTriples allow q.1 (n + 1) r (acc ++ q.2)

end Sys2Proof.Machine
end

