-- ==== Sys2Proof/Machine/Crypto.lean ====
section
/-! DEFINITION. The cryptographic functions that the manual names by their standards: AES-256 and GCM (FIPS 197, SP
800-38D), SHA-384 (FIPS 180-4), HMAC and HKDF-Expand with it, and ECDSA P-384 verification (FIPS 186). The constants
are the standards'. -/

namespace Sys2Proof.Machine

open Sys2Proof

/-! ## AES-256 -/

/-- x times a byte in the field of AES, x⁸ + x⁴ + x³ + x + 1. -/
def aesX (a : Byte) : Byte := if a.getLsbD 7 then (a <<< 1) ^^^ 0x1B#8 else a <<< 1
/-- A product in that field; `n` bits of `b` are used. -/
def aesMul : Nat → Byte → Byte → Byte
  | 0, _, _ => 0
  | n + 1, a, b => (if b.getLsbD 0 then a else 0) ^^^ aesMul n (aesX a) (b >>> 1)
/-- The inverse, a to the 254th power; 0 for 0. -/
def aesInv (a : Byte) : Byte := (List.range 7).foldl (fun (r : Byte × Byte) _ =>
  let sq := aesMul 8 r.2 r.2
  (aesMul 8 r.1 sq, sq)) (1#8, a) |>.1
/-- The S-box. -/
def aesSub (a : Byte) : Byte :=
  let b := aesInv a
  b ^^^ b.rotateLeft 1 ^^^ b.rotateLeft 2 ^^^ b.rotateLeft 3 ^^^ b.rotateLeft 4 ^^^ 0x63#8

/-- Bytewise XOR of two lists. -/
def xorBytes (a b : List Byte) : List Byte := List.zipWith (· ^^^ ·) a b

/-- The expanded key's words: each from the last word and the word eight back; `i` is the new word's index. -/
def aesWord (i : Nat) (prev back : List Byte) : List Byte :=
  let rcon := (List.range (i / 8 - 1)).foldl (fun r _ => aesX r) 1#8
  let t := if i % 8 = 0 then xorBytes ((prev.rotateLeft 1).map aesSub) [rcon, 0, 0, 0]
    else if i % 8 = 4 then prev.map aesSub else prev
  xorBytes t back
/-- The 60 words of the key schedule, newest first while they are made. -/
def aesExpand : Nat → Nat → List (List Byte) → List (List Byte)
  | 0, _, ws => ws
  | n + 1, i, ws => aesExpand n (i + 1) (aesWord i (ws.getD 0 []) (ws.getD 7 []) :: ws)
/-- The fifteen round keys of 16 bytes. -/
def aesKeys (key : List Byte) : List (List Byte) :=
  chunks 16 15 (aesExpand 52 8 (chunks 4 8 key).reverse).reverse.flatten

/-- ShiftRows on the 16 bytes, column by column. -/
def aesShift (s : List Byte) : List Byte := (List.range 16).map (fun i => s.getD ((i + 4 * (i % 4)) % 16) 0)
/-- MixColumns. -/
def aesMix (s : List Byte) : List Byte :=
  (List.range 16).map fun i =>
    let c := i / 4 * 4
    let g (k : Nat) : Byte := s.getD (c + (i + k) % 4) 0
    aesX (g 0) ^^^ aesX (g 1) ^^^ g 1 ^^^ g 2 ^^^ g 3
/-- One block under expanded keys. -/
def aesBlock (keys : List (List Byte)) (m : List Byte) : List Byte :=
  let s0 := xorBytes m (keys.headD [])
  let s1 := ((keys.drop 1).take 13).foldl (fun s k => xorBytes (aesMix (aesShift (s.map aesSub))) k) s0
  xorBytes (aesShift (s1.map aesSub)) (keys.getD 14 [])
/-- AES-256 of one block. (Log PRESUMED 29) -/
def aes256 (key m : List Byte) : List Byte := aesBlock (aesKeys key) m

/-! ## GCM -/

/-- A product in the field of GHASH, bit 0 first: the reduction constant is 0xE1 in the leading byte. -/
def ghashMul : Nat → BitVec 128 → BitVec 128 → BitVec 128 → BitVec 128
  | 0, _, _, z => z
  | n + 1, x, v, z =>
    let z1 := if x.getMsbD 0 then z ^^^ v else z
    let v1 := if v.getLsbD 0 then (v >>> 1) ^^^ (0xE1#128 <<< 120) else v >>> 1
    ghashMul n (x <<< 1) v1 z1
/-- 16 bytes as a word of GHASH, short blocks padded with zeros. -/
def ghashWord (b : List Byte) : BitVec 128 := BitVec.ofNat 128 (beNat ((b ++ zeros 16).take 16))
/-- GHASH over the blocks of additional data and ciphertext and their lengths. -/
def ghash (h : BitVec 128) (aad c : List Byte) : BitVec 128 :=
  let blocks := chunks 16 (aad.length + 1) aad ++ chunks 16 (c.length + 1) c
    ++ [beBytes 8 (8 * aad.length) ++ beBytes 8 (8 * c.length)]
  blocks.foldl (fun y b => ghashMul 128 (y ^^^ ghashWord b) h 0) 0
/-- The counter blocks' keystream over data, from counter `n`. -/
def gcmStream (keys : List (List Byte)) (iv : List Byte) : Nat → List (List Byte) → List Byte
  | _, [] => []
  | n, b :: r => xorBytes b (aesBlock keys (iv ++ beBytes 4 n)) ++ gcmStream keys iv (n + 1) r
def gcmCrypt (keys : List (List Byte)) (iv data : List Byte) : List Byte := gcmStream keys iv 2 (chunks 16 (data.length + 1) data)
/-- The tag of a ciphertext under a 96-bit IV. -/
def gcmTag (keys : List (List Byte)) (iv aad c : List Byte) : List Byte :=
  xorBytes (beBytes 16 (ghash (ghashWord (aesBlock keys (zeros 16))) aad c).toNat) (aesBlock keys (iv ++ beBytes 4 1))
/-- Encryption: ciphertext and tag. (Log PRESUMED 29) -/
def gcmSeal (key iv aad plain : List Byte) : List Byte × List Byte :=
  let keys := aesKeys key
  let c := gcmCrypt keys iv plain
  (c, gcmTag keys iv aad c)
/-- Decryption: none where the tag fails. (Log PRESUMED 29) -/
def gcmOpen (key iv aad c tag : List Byte) : Option (List Byte) :=
  let keys := aesKeys key
  if gcmTag keys iv aad c = tag then some (gcmCrypt keys iv c) else none

/-! ## SHA-384 -/

/-- The first 80 primes, from which the standard takes its constants. -/
def shaPrimes : List Nat :=
  (List.range 410).filter (fun n => decide (2 ≤ n) && (List.range 21).all (fun d => decide (d < 2 ∨ n ≤ d) || decide (n % d ≠ 0)))
/-- The largest number whose `e`-th power is at most `n`, below 2 to the power of the bits left to try. -/
def rootBits (e n : Nat) : Nat → Nat → Nat
  | 0, r => r
  | k + 1, r => rootBits e n k (if (r + 2 ^ k) ^ e ≤ n then r + 2 ^ k else r)
/-- The first 64 bits of the fraction of a prime's `e`-th root. -/
def rootFraction (e p : Nat) : Long := BitVec.ofNat 64 (rootBits e (p * 2 ^ (64 * e)) 70 0)
/-- The 80 round constants: fractions of the cube roots. -/
def shaK : List Long := shaPrimes.map (rootFraction 3)
/-- The initial hash value: fractions of the square roots of the ninth to sixteenth primes. -/
def shaInit : List Long := ((shaPrimes.drop 8).take 8).map (rootFraction 2)

/-- The message schedule grown to 80 words, newest first. -/
def shaSchedule : Nat → List Long → List Long
  | 0, ws => ws
  | n + 1, ws =>
    let w (k : Nat) : Long := ws.getD (k - 1) 0
    let s0 := (w 15).rotateRight 1 ^^^ (w 15).rotateRight 8 ^^^ (w 15 >>> 7)
    let s1 := (w 2).rotateRight 19 ^^^ (w 2).rotateRight 61 ^^^ (w 2 >>> 6)
    shaSchedule n ((w 16 + s0 + w 7 + s1) :: ws)
/-- One round on the eight working words. -/
def shaRound (v : List Long) (kw : Long × Long) : List Long :=
  match v with
  | [a, b, c, d, e, f, g, h] =>
    let t1 := h + (e.rotateRight 14 ^^^ e.rotateRight 18 ^^^ e.rotateRight 41) + ((e &&& f) ^^^ (~~~e &&& g)) + kw.1 + kw.2
    let t2 := (a.rotateRight 28 ^^^ a.rotateRight 34 ^^^ a.rotateRight 39) + ((a &&& b) ^^^ (a &&& c) ^^^ (b &&& c))
    [t1 + t2, a, b, c, d + t1, e, f, g]
  | _ => v
/-- One 128-byte block. -/
def shaBlock (h : List Long) (b : List Byte) : List Long :=
  let w := ((chunks 8 16 b).map (fun x => BitVec.ofNat 64 (beNat x))).reverse
  List.zipWith (· + ·) h ((List.zip shaK (shaSchedule 64 w).reverse).foldl shaRound h)
/-- The padded message. -/
def shaPad (m : List Byte) : List Byte :=
  let z := (128 + 111 - m.length % 128) % 128
  m ++ [0x80] ++ zeros z ++ beBytes 16 (8 * m.length)
/-- SHA-384: 48 bytes. (Log PRESUMED 29) -/
def sha384 (m : List Byte) : List Byte :=
  let p := shaPad m
  (((chunks 128 (p.length / 128) p).foldl shaBlock shaInit).map (fun w => beBytes 8 w.toNat)).flatten.take 48

/-- HMAC with SHA-384; keys of at most 128 bytes. (Log PRESUMED 29) -/
def hmac384 (key m : List Byte) : List Byte :=
  let k := key ++ zeros (128 - key.length)
  sha384 (k.map (· ^^^ 0x5C#8) ++ sha384 (k.map (· ^^^ 0x36#8) ++ m))
/-- HKDF-Expand with SHA-384 to at most 48 bytes. (Log PRESUMED 29) -/
def hkdfExpand (prk info : List Byte) (n : Nat) : List Byte := (hmac384 prk (info ++ [1])).take n

/-! ## ECDSA P-384 -/

/-- The field prime, the group order and the generator of secp384r1. -/
def p384 : Nat := 2 ^ 384 - 2 ^ 128 - 2 ^ 96 + 2 ^ 32 - 1
def n384 : Nat := 0xffffffffffffffffffffffffffffffffffffffffffffffffc7634d81f4372ddf581a0db248b0a77aecec196accc52973
def g384 : Nat × Nat :=
  (0xaa87ca22be8b05378eb1c71ef320ad746e1d3b628ba79b9859f741e082542a385502f25dbf55296c3a545e3872760ab7,
   0x3617de4a96262c6f5d9e98bf9292dc29f8f41dbd289a147ce9da3113b5f0b8c00a60b1ce1d7e819d7a431d7c90ea0e5f)
def b384 : Nat := 0xb3312fa7e23ee7e4988e056be3f82d19181d9c6efe8141120314088f5013875ac656398d8a2ed19d2a85c8edd3ec2aef

/-- A power modulo `m`, over `n` bits of the exponent. -/
def powMod (m : Nat) : Nat → Nat → Nat → Nat
  | 0, _, _ => 1 % m
  | n + 1, b, e => (if e % 2 = 1 then b else 1) * powMod m n (b * b % m) (e / 2) % m
/-- The inverse modulo a prime of at most 384 bits. -/
def invMod (m a : Nat) : Nat := powMod m 384 (a % m) (m - 2)

/-- The sum of two points; `none` is the point at infinity. -/
def ecAdd (p q : Option (Nat × Nat)) : Option (Nat × Nat) :=
  match p, q with
  | none, r => r
  | r, none => r
  | some (x1, y1), some (x2, y2) =>
    if x1 = x2 ∧ (y1 + y2) % p384 = 0 then none
    else
      let l := if x1 = x2 then (3 * x1 * x1 + p384 - 3) * invMod p384 (2 * y1) % p384
        else (y2 + p384 - y1) * invMod p384 (x2 + p384 - x1) % p384
      let x3 := (l * l + 2 * p384 - x1 - x2) % p384
      some (x3, (l * (x1 + p384 - x3) + p384 - y1) % p384)
/-- A multiple of a point, over `n` bits. -/
def ecMul : Nat → Nat → Option (Nat × Nat) → Option (Nat × Nat)
  | 0, _, _ => none
  | n + 1, k, p => ecAdd (if k % 2 = 1 then p else none) (ecMul n (k / 2) (ecAdd p p))
/-- The signature `r`, `s` verifies over a message under a public key. (Log PRESUMED 29) -/
def ecdsaVerify (key : Nat × Nat) (m : List Byte) (r s : Nat) : Bool :=
  let onCurve := key.1 < p384 ∧ key.2 < p384 ∧ (key.2 * key.2) % p384 = (key.1 ^ 3 + (p384 - 3) * key.1 + b384) % p384
  if onCurve ∧ 0 < r ∧ r < n384 ∧ 0 < s ∧ s < n384 then
    let w := invMod n384 s
    match ecAdd (ecMul 384 (beNat (sha384 m) * w % n384) (some g384)) (ecMul 384 (r * w % n384) (some key)) with
    | some (x, _) => x % n384 == r
    | none => false
  else false

end Sys2Proof.Machine
end

