-- ==== Sys2Proof/Machine/Sector.lean ====
section
/-! DEFINITION. The sector and its codes: metadata, CRC and encryption, the LDPC inner code, the scrambler and RL45, the
Thatch code and the course code, and the acceptance rule (R37 to R46, R69 to R98). -/

namespace Sys2Proof.Machine

open Sys2Proof

/-! ## Bytes of a sector (R69, R74, R75) -/

/-- The 4,128 bytes of a sector in recording order, from its user bytes and its metadata (R69). -/
def sectorBytes (user info : List Byte) : List Byte :=
  (List.range 4).flatMap (fun c => (user.drop (1024 * c)).take 1024 ++ (info.drop (8 * c)).take 8)
/-- The 4,096 user bytes, and the 32 metadata bytes. -/
def userOf (b : List Byte) : List Byte := (List.range 4).flatMap (fun c => (b.drop (1032 * c)).take 1024)
def metaOf (b : List Byte) : List Byte := (List.range 4).flatMap (fun c => (b.drop (1032 * c + 1024)).take 8)

/-- A sector's flags (R75). -/
structure Flags where
  layer : Nat
  fill : Bool
  cpar : Bool
  remap : Bool
  tpar : Bool
  enc : Bool
  deriving DecidableEq, Repr

def Flags.byte (f : Flags) : Byte :=
  byteOf (f.layer % 8 * 32 + bitNat f.fill * 16 + bitNat f.cpar * 8 + bitNat f.remap * 4 + bitNat f.tpar * 2 + bitNat f.enc)
def flagsOf (b : Byte) : Flags :=
  { layer := b.toNat / 32, fill := b.getLsbD 4, cpar := b.getLsbD 3, remap := b.getLsbD 2, tpar := b.getLsbD 1
    enc := b.getLsbD 0 }

/-- A sector's metadata (R74). -/
structure Meta where
  lsn : Nat
  tenant : Nat
  key : Nat
  flags : Flags
  seq : Nat
  crc : Nat
  tag : List Byte
  deriving DecidableEq, Repr

def Meta.bytes (m : Meta) : List Byte :=
  beBytes 4 m.lsn ++ beBytes 2 m.tenant ++ beBytes 1 m.key ++ [m.flags.byte] ++ beBytes 4 m.seq ++ beBytes 4 m.crc
    ++ (m.tag ++ zeros 16).take 16
def parseMeta (l : List Byte) : Meta :=
  { lsn := beAt l 0 4, tenant := beAt l 4 2, key := (byteAt l 6).toNat, flags := flagsOf (byteAt l 7), seq := beAt l 8 4
    crc := beAt l 12 4, tag := (l.drop 16).take 16 }

/-- Metadata bytes 0 to 11 with REMAP cleared: what the CRC and the GCM tag cover (R79, R80). -/
def Meta.covered12 (m : Meta) : List Byte := ({ m with flags := { m.flags with remap := false } }.bytes).take 12

/-- The CRC field of a sector with these stored user bytes (R79). -/
def sectorCrc (user : List Byte) (m : Meta) : Nat := crc32c (user ++ m.covered12)

/-- R76, which every data sector of a user zone obeys. -/
def dataRule (user : List Byte) (m : Meta) : Bool :=
  (m.flags.enc == decide (m.key ≠ 0)) && (m.flags.fill == decide (m.tenant = 0))
    && (!m.flags.fill || (decide (m.key = 0) && user.all (· == 0)))
    && (m.flags.enc || m.tag.all (· == 0))

/-! ## Encryption (R80, R81) -/

/-- The session key of a write sequence, a disc and a key (R81). -/
def sessionKey (key : List Byte) (seq discId : Nat) : List Byte :=
  let b (n : Byte) : List Byte := [0x4A, 0x4B, n, 0x00] ++ beBytes 4 seq ++ beBytes 6 discId ++ [0, 0]
  aes256 key (b 1) ++ aes256 key (b 2)
/-- The IV of a sector (R80). -/
def sectorIv (discId lsn : Nat) : List Byte := beBytes 6 discId ++ beBytes 4 lsn ++ [0, 0]

/-- A data sector encoded (R91 step 1): its 4,128 bytes. `key` is the slot's number and content, none for plaintext. -/
def encodeSector (discId lsn tenant seq layer : Nat) (cpar fill : Bool) (key : Option (Nat × List Byte)) (user : List Byte) :
    List Byte :=
  let f : Flags := { layer := layer, fill := fill, cpar := cpar, remap := false, tpar := false, enc := key.isSome }
  let m : Meta := { lsn := lsn, tenant := tenant, key := match key with | some k => k.1 | none => 0, flags := f, seq := seq
                    crc := 0, tag := [] }
  let r := match key with
    | some k => gcmSeal (sessionKey k.2 seq discId) (sectorIv discId lsn) m.covered12 user
    | none => (user, [])
  sectorBytes r.1 { m with crc := sectorCrc r.1 m, tag := r.2 }.bytes

/-- A sector's user bytes in plain, under the key its slot holds (R92): none where the slot is empty or the tag fails. -/
def openSector (discId : Nat) (keyOf : Nat → List Byte) (b : List Byte) : Option (List Byte) :=
  let m := parseMeta (metaOf b)
  if m.flags.enc = false then some (userOf b)
  else if (keyOf m.key).isEmpty then none
  else gcmOpen (sessionKey (keyOf m.key) m.seq discId) (sectorIv discId m.lsn) m.covered12 (userOf b) m.tag

/-! ## Acceptance (R92, R52) -/

/-- What the reader expects of a sector at a place. -/
structure Expected where
  lsn : Nat
  layer : Nat
  remap : Bool
  tpar : Bool
  /-- whether CPAR is known, and its value -/
  cpar : Option Bool
  deriving DecidableEq, Repr

/-- A data sector: TPAR and CPAR both clear (R76). -/
def Flags.data (f : Flags) : Bool := !f.tpar && !f.cpar

/-- The acceptance rule for a user-zone sector whose codewords all converged (R92). (Log DEDUCED 82) -/
def accepts (e : Expected) (b : List Byte) : Bool :=
  let m := parseMeta (metaOf b)
  let f := m.flags
  decide (m.lsn = e.lsn) && decide (f.layer = e.layer) && (f.tpar == e.tpar) && (f.remap == e.remap)
    && (match e.cpar with | some c => f.cpar == c | none => true)
    && (!f.data || (decide (m.crc = sectorCrc (userOf b) m) && dataRule (userOf b) m))

/-- The acceptance rule for a system sector (R52, R92). -/
def acceptsSystem (lsn : Nat) (b : List Byte) : Bool :=
  let m := parseMeta (metaOf b)
  decide (m.lsn = lsn) && decide (m.flags.byte = 0) && decide (m.tenant = 0) && decide (m.key = 0) && m.tag.all (· == 0)
    && decide (m.crc = sectorCrc (userOf b) m)

/-- A system sector recorded by a session (R52). -/
def systemSector (lsn seq : Nat) (user : List Byte) : List Byte :=
  encodeSector 0 lsn 0 seq 0 false false none user

/-! ## The LDPC inner code and the channel bits (R43 to R46, R70 to R72) -/

/-- The shift of an information circulant (R71). -/
def ldpcShift (i j : Nat) : Nat := ((i + 1) * (j + 1) ^ 2 + 7 * i) % 344
/-- The bits of bytes, most significant first. (Log DEDUCED 124) -/
def bitsOfBytes (l : List Byte) : List Bool := l.flatMap (fun b => (List.range 8).map (fun i => b.getMsbD i))
/-- λ of block row `i`, from the information bits (R72). -/
def ldpcLambda (u : List Bool) (i : Nat) : List Bool :=
  (List.range 24).foldl (fun acc j =>
    let col := (u.drop (344 * j)).take 344
    let s := ldpcShift i j
    List.zipWith Bool.xor acc (col.drop s ++ col.take s)) (List.replicate 344 false)
/-- A codeword: 8,256 information bits, then p0, p1 and p2 (R72). (Log DEDUCED 124) -/
def ldpcEncode (u : List Bool) : List Bool :=
  let l0 := ldpcLambda u 0
  let l1 := ldpcLambda u 1
  let l2 := ldpcLambda u 2
  let p0 := List.zipWith Bool.xor l0 (List.zipWith Bool.xor l1 l2)
  let p0s := p0.drop 1 ++ p0.take 1
  u ++ p0 ++ List.zipWith Bool.xor l0 p0s ++ List.zipWith Bool.xor l2 p0s
/-- The scrambler: `n` output bits from a register (R45). (Log DEDUCED 124) -/
def scrambler : Nat → BitVec 16 → List Bool
  | 0, _ => []
  | n + 1, r =>
    let fb := Bool.xor (Bool.xor (r.getLsbD 15) (r.getLsbD 13)) (Bool.xor (r.getLsbD 12) (r.getLsbD 10))
    r.getLsbD 15 :: scrambler n ((r <<< 1) ||| (if fb then 1#16 else 0#16))
/-- The seed of an LSN (R45). -/
def scramblerSeed (lsn : Nat) : BitVec 16 :=
  let s := BitVec.ofNat 16 lsn ^^^ 0x5A5A#16
  if s = 0 then 1#16 else s
/-- RL45 (R43). -/
def rl45 (n : Nat) : BitVec 5 :=
  ([0b00011, 0b00101, 0b00110, 0b01001, 0b01100, 0b10010, 0b10100, 0b11000,
    0b00111, 0b01011, 0b01101, 0b10011, 0b10110, 0b11001, 0b11010, 0b11100] : List (BitVec 5)).getD n 0
/-- Scrambled bits as channel bits, nibble by nibble (R44). (Log DEDUCED 124) -/
def rl45Bits : List Bool → List Bool
  | a :: b :: c :: d :: r =>
    let w := rl45 (8 * bitNat a + 4 * bitNat b + 2 * bitNat c + bitNat d)
    (List.range 5).map (fun i => w.getMsbD i) ++ rl45Bits r
  | _ => []
/-- The channel bits of a recorded slot from its sync mark to the end of CW3 (R37, R39, R46). -/
def slotBits (sector : List Byte) : List Bool :=
  let coded := (List.range 4).flatMap (fun c => ldpcEncode (bitsOfBytes ((sector.drop (1032 * c)).take 1032)))
  let scr := List.zipWith Bool.xor coded (scrambler 37152 (scramblerSeed (parseMeta (metaOf sector)).lsn))
  let cw (c : Nat) : List Bool := rl45Bits ((scr.drop (9288 * c)).take 9288)
  bitsOfBytes [0xFF, 0x00, 0xCA, 0x71, 0x6C, 0x9A] ++ cw 0 ++ bitsOfBytes [0xFF, 0x00, 0xB4] ++ cw 1
    ++ bitsOfBytes [0xFF, 0x00, 0xB4] ++ cw 2 ++ bitsOfBytes [0xFF, 0x00, 0xB4] ++ cw 3

/-- "0011" repeated from its first channel bit (R40). -/
def pattern0011 (n : Nat) : List Bool := (List.range n).map (fun i => decide (2 ≤ i % 4))
/-- All channel bits of a recorded slot (R37, R40): preamble, marks and codewords, and a postamble of `post` channel bits. -/
def slotCells (t : DiscType) (sector : List Byte) (post : Nat) : List Bool :=
  pattern0011 t.preamble ++ slotBits sector ++ pattern0011 post
/-- The linking rules (R42): beside recorded slots the first or the last 32 cb are left out; none is read power. -/
def linked (before after : Bool) (cells : List Bool) : List (Option Bool) :=
  cells.zipIdx.map (fun e => if (before && decide (e.2 < 32)) || (after && decide (cells.length ≤ e.2 + 32)) then none else some e.1)
/-- A slot whose feed ran empty at a channel bit (R185): from there to its nominal end "0011", its last 32 cb at read power.
(Log DEDUCED 93) -/
def underrunCells (t : DiscType) (before : Bool) (sector : List Byte) (missing : Nat) : List (Option Bool) :=
  linked before true ((slotCells t sector 64).take missing ++ pattern0011 (t.slotLen - missing))

/-! ## GF(2⁸) of the outer codes (R84) -/

/-- α times an element. -/
def gfX (a : Byte) : Byte := if a.getLsbD 7 then (a <<< 1) ^^^ 0x1D#8 else a <<< 1
/-- A product; `n` bits of `b` are used. -/
def gfMulN : Nat → Byte → Byte → Byte
  | 0, _, _ => 0
  | n + 1, a, b => (if b.getLsbD 0 then a else 0) ^^^ gfMulN n (gfX a) (b >>> 1)
def gfMul (a b : Byte) : Byte := gfMulN 8 a b
/-- A power, and the inverse a²⁵⁴. -/
def gfPow (a : Byte) : Nat → Byte
  | 0 => 1
  | n + 1 => gfMul a (gfPow a n)
def gfInv (a : Byte) : Byte := gfPow a 254

/-- One equation: coefficients of the unknowns, and the known side for every covered position. -/
structure GfRow where
  coef : List Byte
  rhs : List Byte
  deriving DecidableEq, Repr

def GfRow.scale (c : Byte) (r : GfRow) : GfRow := { coef := r.coef.map (gfMul c), rhs := r.rhs.map (gfMul c) }
def GfRow.add (a b : GfRow) : GfRow := { coef := xorBytes a.coef b.coef, rhs := xorBytes a.rhs b.rhs }
/-- Gauss and Jordan on square systems: column `k`, `n` columns left. -/
def gfSolve : Nat → Nat → List GfRow → Option (List GfRow)
  | 0, _, rows => some rows
  | n + 1, k, rows =>
    match (rows.drop k).find? (fun r => r.coef.getD k 0 != 0) with
    | none => none
    | some p =>
      let rest := (rows.drop k).erase p
      let pivot := p.scale (gfInv (p.coef.getD k 0))
      let clear (r : GfRow) : GfRow := r.add (pivot.scale (r.coef.getD k 0))
      gfSolve n (k + 1) ((rows.take k).map clear ++ [pivot] ++ rest.map clear)

/-! ## Covered bytes (R77, R78) -/

/-- The 4,123 covered bytes. -/
def coveredOf (b : List Byte) : List Byte :=
  let m := metaOf b
  userOf b ++ (m.drop 4).take 3 ++ (m.drop 8).take 24
/-- A sector rebuilt from its covered bytes, its LSN and its flags. -/
def fromCovered (c : List Byte) (lsn : Nat) (f : Flags) : List Byte :=
  sectorBytes (c.take 4096) (beBytes 4 lsn ++ (c.drop 4096).take 3 ++ [f.byte] ++ (c.drop 4099).take 24)
/-- The flags of a rebuilt sector (R78): ENC and FILL from R76. -/
def rebuiltFlags (c : List Byte) (layer : Nat) (cpar tpar : Bool) : Flags :=
  let data := !cpar && !tpar
  { layer := layer, cpar := cpar, tpar := tpar, remap := false, fill := data && decide (beAt c 4096 2 = 0)
    enc := data && decide (byteAt c 4098 ≠ 0) }

/-! ## The Thatch code (R84 to R86) -/

/-- One step of the division by g(x) for every position: `reg` holds the four remainder columns, highest first. -/
def thatchStep (reg : List (List Byte)) (data : List Byte) : List (List Byte) :=
  match reg with
  | [a, b, c, d] =>
    let fb := xorBytes data a
    [xorBytes b (fb.map (gfMul 0x0F)), xorBytes c (fb.map (gfMul 0x36)), xorBytes d (fb.map (gfMul 0x78)), fb.map (gfMul 0x40)]
  | _ => reg
/-- The covered bytes of the four parity sectors of a block's data sectors (R85). -/
def thatchParity (data : List (List Byte)) : List (List Byte) := data.foldl thatchStep (List.replicate 4 (zeros 4123))

/-- The erased sectors of a block rebuilt from those accepted: covered bytes by sector number, `n` sectors in the block
(R86). With more than four erased there is none. -/
def thatchRebuild (n : Nat) (known : List (Nat × List Byte)) (erased : List Nat) : Option (List (Nat × List Byte)) :=
  let e := erased.length
  if 4 < e then none
  else
    let row (j : Nat) : GfRow :=
      let w (k : Nat) : Byte := gfPow (gfPow 2 j) (n - 1 - k)
      { coef := erased.map w
        rhs := known.foldl (fun acc kv => xorBytes acc (kv.2.map (gfMul (w kv.1)))) (zeros 4123) }
    (gfSolve e 0 ((List.range e).map row)).map (fun rows => erased.zip (rows.map (·.rhs)))

/-! ## The course code (R94, R97) -/

/-- C(h, i) (R94). -/
def cauchy (h i : Nat) : Byte := gfInv (byteOf h ^^^ byteOf (4 + i))
/-- The covered bytes of parity disc `h` from those of the data discs, in order. -/
def courseParity (h : Nat) (data : List (List Byte)) : List Byte :=
  (data.zipIdx).foldl (fun acc di => xorBytes acc (di.1.map (gfMul (cauchy h di.2)))) (zeros 4123)
/-- A member's row of the course code over the data discs. -/
def courseCoef (d member : Nat) : List Byte :=
  if member < d then (List.range d).map (fun i => if i = member then 1#8 else 0#8)
  else (List.range d).map (cauchy (member - d))
/-- The covered bytes of every data disc's sector from those of any `d` members (R97). -/
def courseSolve (d : Nat) (known : List (Nat × List Byte)) : Option (List (List Byte)) :=
  let rows := (known.take d).map (fun kv => ({ coef := courseCoef d kv.1, rhs := kv.2 } : GfRow))
  if rows.length < d then none else (gfSolve d 0 rows).map (fun rs => rs.map (·.rhs))
/-- A member's sector from the data discs' sectors. (Log DEDUCED 83, 135) -/
def courseMember (d member : Nat) (data : List (List Byte)) : List Byte :=
  if member < d then data.getD member (zeros 4123) else courseParity (member - d) data

end Sys2Proof.Machine
end

