-- ==== Sys2Proof/Machine/Signal.lean ====
section
/-! DEFINITION. The signal path of the read channel on a slot's interpolated samples: the 2D equaliser and its adaptation, the
PR(1,2,2,1) detector, the soft RL45 demapper, descrambling and the 6-bit LLRs, marks in hard decisions, the defect
detector, envelopes and the gain loop, the LDPC checks and the seed search (R73, R98, R100, R111, R112, R118 to R120, R127 to
R131). A sample is an ADC code less 128; positions are channel bits from the slot's start as the flywheel predicts it. -/

namespace Sys2Proof.Machine

open Sys2Proof

/-! ## Lists by position -/

/-- The value at a position, 0 outside. -/
def atPos (xs : List Int) (p : Int) : Int := if p < 0 then 0 else xs.getD p.toNat 0
/-- `n` elements from a position on, `fill` outside. -/
def sliceFill {α : Type} (fill : α) (xs : List α) (p : Int) (n : Nat) : List α :=
  let head := if p < 0 then min n p.natAbs else 0
  let body := (xs.drop p.toNat).take (n - head)
  List.replicate head fill ++ body ++ List.replicate (n - head - body.length) fill
/-- `n` values from a position on, 0 outside. -/
def sliceAt (xs : List Int) (p : Int) (n : Nat) : List Int := sliceFill 0 xs p n
/-- `n` flags from a position on; outside they are set. -/
def maskAt (m : List Bool) (p : Int) (n : Nat) : List Bool := sliceFill true m p n
/-- Flags set in either list, the longer one continued alone. -/
def orSeq : List Bool → List Bool → List Bool
  | [], b => b
  | a, [] => a
  | x :: a, y :: b => (x || y) :: orSeq a b
/-- The windows of `n` values that begin at each position. -/
def windows (n : Nat) : List Int → List (List Int)
  | [] => []
  | x :: r => (x :: r).take n :: windows n r
def dot (a b : List Int) : Int := (List.zipWith (· * ·) a b).foldl (· + ·) 0

/-! ## The 2D equaliser (R118 to R120) -/

/-- A filter's sums at every sample, zeros beyond the ends. -/
def fir (taps xs : List Int) : List Int :=
  ((windows taps.length (List.replicate (taps.length / 2) 0 ++ xs)).take xs.length).map (dot taps)
/-- Two sequences added, the shorter one continued by zeros. -/
def addSeq : List Int → List Int → List Int
  | [], b => b
  | a, [] => a
  | x :: a, y :: b => (x + y) :: addSeq a b
/-- The equaliser's output in 1/16,384 code: the sum of its three filters (R118). -/
def equalise (t : Taps) (own inner outer : List Int) : List Int :=
  addSeq (fir t.own own) (addSeq ((fir t.inner inner).take own.length) ((fir t.outer outer).take own.length))
/-- A set with all neighbour taps at zero: one-sided (R113, R119). -/
def Taps.oneSided (t : Taps) : Taps := { t with inner := t.inner.map (fun _ => 0), outer := t.outer.map (fun _ => 0) }

/-- A channel bit's level in the PR target. -/
def level (b : Nat) : Int := if b = 0 then -1 else 1
/-- The PR(1,2,2,1) output for a bit after three earlier ones, most recent first, in 1/16,384 code (R118).
(Log DESIGN CHOICE 146) -/
def prTarget (b b1 b2 b3 : Nat) : Int := 16384 * Config.prUnit * (level b + 2 * level b1 + 2 * level b2 + level b3)
/-- The PR targets of a sequence of bits. -/
def prTargets : Nat → Nat → Nat → List Nat → List Int
  | _, _, _, [] => []
  | b1, b2, b3, b :: r => prTarget b b1 b2 b3 :: prTargets b b1 b2 r

/-- One LMS step on the PR error at a sample, of step 2^−(8 + EQ_MU): samples and error count as fractions of the ADC's half
scale (R119). (Log DESIGN CHOICE 147) -/
def lmsTaps (mu : Nat) (e : Int) (taps xs : List Int) : List Int :=
  List.zipWith (fun w x => clampInt (-32768) 32767 (w + roundDiv (roundDiv e 16384 * x) (2 ^ (8 + mu)))) taps xs
/-- Adaptation over the samples that `adapt` admits (R119). -/
def lms (mu : Nat) : Taps → List (List Int × List Int × List Int × Int × Bool) → Taps
  | t, [] => t
  | t, (o, i, u, target, adapt) :: r =>
    if adapt = false then lms mu t r
    else
      let e := target - (dot t.own o + dot t.inner i + dot t.outer u)
      lms mu { own := lmsTaps mu e t.own o, inner := lmsTaps mu e t.inner i, outer := lmsTaps mu e t.outer u } r

/-! ## The detector (R127, R128) -/

/-- The cost of a bit from a state (its last three bits, the most recent highest) at a sample, with what is known of it beforehand.
(Log DESIGN CHOICE 146) -/
def branchCost (y prior : Int) (st b : Nat) : Int :=
  let d := y - prTarget b (st / 4) (st / 2 % 2) (st % 2)
  d * d + (if b = 0 then 0 else prior * Config.llrUnit)
def minOf : List Int → Int
  | [] => 0
  | x :: r => r.foldl min x
/-- Path costs after a sample, by state. -/
def forwardCosts (a : List Int) (y prior : Int) : List Int :=
  (List.range 8).map (fun t => minOf ([0, 1].map (fun x =>
    let st := 2 * (t % 4) + x
    a.getD st 0 + branchCost y prior st (t / 4))))
/-- Path costs from a sample to the end, by state. -/
def backwardCosts (y prior : Int) (z : List Int) : List Int :=
  (List.range 8).map (fun st => minOf ([0, 1].map (fun b => branchCost y prior st b + z.getD (4 * b + st / 2) 0)))
/-- The cheapest path through a bit value at a sample. -/
def throughBit (a : List Int) (y prior : Int) (z : List Int) (b : Nat) : Int :=
  minOf ((List.range 8).map (fun st => a.getD st 0 + branchCost y prior st b + z.getD (4 * b + st / 2) 0))
/-- The 8-state max-log detector: channel-bit LLRs, positive for a 0, and the costs to the end (R127). -/
def detectFrom : List Int → List (Int × Int) → List Int × List Int
  | _, [] => ([], List.replicate 8 0)
  | a, (y, prior) :: r =>
    let n := detectFrom (forwardCosts a y prior) r
    ((throughBit a y prior n.2 1 - throughBit a y prior n.2 0) :: n.1, backwardCosts y prior n.2)
def softBits (ys priors : List Int) : List Int :=
  (detectFrom (List.replicate 8 0) (ys.zipIdx.map (fun e => (e.1, priors.getD e.2 0)))).1
/-- Hard decisions. -/
def decide01 (llrs : List Int) : List Nat := llrs.map (fun l => if l < 0 then 1 else 0)

/-! ## RL45, descrambling and the 6-bit LLRs (R43 to R46, R127, R130) -/

/-- The score of a channel word against five LLRs. -/
def wordScore (ls : List Int) (n : Nat) : Int :=
  ((List.range 5).map (fun i => if (rl45 n).getMsbD i then -(ls.getD i 0) else 0)).foldl (· + ·) 0
def maxOf : List Int → Int
  | [] => 0
  | x :: r => r.foldl max x
/-- LLRs of a nibble's four coded bits, first bit highest, by max-log over the 16 words (R127); each is 0 where the word holds
an erased bit (R130). -/
def demapWord (ls : List Int) (erased : Bool) : List Int :=
  [3, 2, 1, 0].map (fun j => if erased then 0
    else maxOf (((List.range 16).filter (fun n => !n.testBit j)).map (wordScore ls))
      - maxOf (((List.range 16).filter (fun n => n.testBit j)).map (wordScore ls)))
/-- The channel-bit LLRs that a nibble's LLRs give beforehand, by max-log over the 16 words (R128). (Log DEDUCED 148) -/
def mapWord (cs : List Int) : List Int :=
  let score (n : Nat) : Int := ((List.range 4).map (fun i => if n.testBit (3 - i) then -(cs.getD i 0) else 0)).foldl (· + ·) 0
  (List.range 5).map (fun i => maxOf (((List.range 16).filter (fun n => !(rl45 n).getMsbD i)).map score)
    - maxOf (((List.range 16).filter (fun n => (rl45 n).getMsbD i)).map score))

/-- Channel bits of a codeword, and the words in them (R44). -/
def cwBits : Nat := 11610
def cwWords : Nat := 2322
/-- The keystream of codeword `c` of a sector from a seed (R45, R46). -/
def keystream (seed : BitVec 16) (c : Nat) : List Bool := (scrambler (9288 * (c + 1)) seed).drop (9288 * c)
/-- LLRs of the opposite sign where the keystream bit is 1. -/
def descramble (ks : List Bool) (ls : List Int) : List Int := List.zipWith (fun (k : Bool) l => if k then -l else l) ks ls
/-- A coded-bit LLR as the LDPC array takes it: −31 to +31, scaled by LLR_SCALE in 1/16 (R127). (Log DESIGN CHOICE 146) -/
def llr6 (scale : Nat) (l : Int) : Int := clampInt (-31) 31 (roundDiv (l * scale) (16 * max 1 Config.llrUnit))

/-- A codeword's coded-bit LLRs, still scrambled, from its channel-bit LLRs and erasures. -/
def codedLlrs (scale : Nat) (ls : List Int) (mask : List Bool) : List Int :=
  ((chunks 5 cwWords ls).zip (chunks 5 cwWords mask)).flatMap (fun e => (demapWord e.1 (e.2.any id)).map (llr6 scale))
/-- Coded bits of a codeword whose words hold an erased channel bit (R130). -/
def erasedBits (mask : List Bool) : Nat :=
  4 * ((chunks 5 cwWords mask).filter (fun w => w.any id)).length

/-! ## Marks (R111, R112, R117) -/

def syncMark : List Nat := (bitsOfBytes [0xFF, 0x00, 0xCA, 0x71, 0x6C, 0x9A]).map bitNat
def resyncMark : List Nat := (bitsOfBytes [0xFF, 0x00, 0xB4]).map bitNat
/-- Channel bits in which decisions differ from a mark; an erased one counts (R111). -/
def markDiffs : List Nat → List Nat → List Bool → Nat
  | [], _, _ => 0
  | m :: ms, bits, mask =>
    (if bits.head? ≠ some m ∨ mask.headD true = true then 1 else 0) + markDiffs ms bits.tail mask.tail
/-- Every position at which a mark is detected, counted from `from_` (R111). -/
def markHits (mark : List Nat) (tol : Nat) (from_ : Int) : Nat → List Nat → List Bool → List MarkHit
  | _, [], _ => []
  | n, b :: bs, mask =>
    let d := markDiffs mark (b :: bs) mask
    let r := markHits mark tol from_ (n + 1) bs (mask.drop 1)
    if d ≤ tol then { pos := (n : Int) - from_, diffs := d } :: r else r

/-- The best of the marks in a window: fewest differences, then nearest the prediction, then the earlier (R111).
(Log DEDUCED 77) -/
def bestMark (tol : Nat) (near : Int) (inside : Int → Bool) (ms : List MarkHit) : Option MarkHit :=
  (ms.filter (fun m => decide (m.diffs ≤ tol) && inside m.pos)).foldl (fun a m =>
    match a with
    | none => some m
    | some x =>
      if m.diffs < x.diffs ∨ (m.diffs = x.diffs ∧ ((m.pos - near).natAbs < (x.pos - near).natAbs
          ∨ ((m.pos - near).natAbs = (x.pos - near).natAbs ∧ m.pos < x.pos))) then some m else a) none

/-- Expected positions of the resync marks from an origin (R112). -/
def resyncAt (i : Nat) : Int := if i = 1 then 11658 else if i = 2 then 23292 else 34926
/-- A resync within `w` of its place from an origin, as its error. -/
def resyncNear (tol : Nat) (hits : List MarkHit) (i : Nat) (origin : Int) (w : Nat) : Option Int :=
  (bestMark tol (origin + resyncAt i) (fun p => decide ((p - origin - resyncAt i).natAbs ≤ w)) hits).map
    (fun m => m.pos - origin - resyncAt i)
/-- Where codeword `c` begins, from an origin: 48 cb after it, 11,634 cb apart, re-timed by the last resync found before it (R37,
R112). -/
def cwStart (tol : Nat) (hits : List MarkHit) (origin : Int) (c : Nat) : Int :=
  origin + 48 + 11634 * c + (([3, 2, 1].findSome? (fun i => if i ≤ c then resyncNear tol hits i origin 4 else none)).getD 0)

/-! ## A sector's codewords (R127, R128, R130) -/

/-- The erased coded bits of a sector's codewords; positions count from the prediction, at sample `pre`. -/
def sectorErased (tol pre : Nat) (hits : List MarkHit) (origin : Int) (mask : List Bool) : List Nat :=
  (List.range 4).map (fun c => erasedBits (maskAt mask (pre + cwStart tol hits origin c) cwBits))
/-- The LLRs of a sector's codewords, descrambled with a seed where it is known. -/
def sectorLlrs (tol scale pre : Nat) (hits : List MarkHit) (origin : Int) (seed : Option (BitVec 16)) (ls : List Int)
    (mask : List Bool) : List (List Int) :=
  (List.range 4).map (fun c =>
    let p := pre + cwStart tol hits origin c
    let x := codedLlrs scale (sliceAt ls p cwBits) (maskAt mask p cwBits)
    match seed with
    | some k => descramble (keystream k c) x
    | none => x)
/-- Channel-bit LLRs known beforehand, over a slot of `n` samples, from those of the coded bits (R128, R145). -/
def sectorPriors (tol pre n : Nat) (hits : List MarkHit) (origin : Int) (seed : BitVec 16) (soft : List (List Int)) : List Int :=
  ((List.range 4).foldl (fun (acc : List Int) c =>
    let p := pre + cwStart tol hits origin c
    let x := (chunks 4 cwWords (descramble (keystream seed c) (soft.getD c []))).flatMap mapWord
    let lead := acc ++ List.replicate (p.toNat - acc.length) 0
    lead.take p.toNat ++ x) []).take n
/-- The equalised samples of a kept sector: with no neighbour's samples, or for S7 its partial sums with S0's next turn (R121, R132,
R146). (Log DEDUCED 154) -/
def keptOutput (t : Taps) (k : Kept) : List Int :=
  if k.partials then addSeq (k.samples.map (· * 16384)) ((fir t.outer k.outer).take k.samples.length) else equalise t k.samples [] []

/-! ## Defects, envelopes, blank slots and gain (R100, R129, R131) -/

/-- The peak-to-peak envelope of a block. -/
def envelope (xs : List Int) : Nat := match xs with | [] => 0 | x :: r => (r.foldl max x - r.foldl min x).toNat
/-- An envelope falls more than `drop` half decibels below the mean of the last unflagged blocks (R129). -/
def dropped (drop : Nat) (ref : List Nat) (e : Nat) : Bool :=
  !ref.isEmpty && decide ((ref.length * e) ^ 40 * 10 ^ drop < (ref.foldl (· + ·) 0) ^ 40)
/-- One block of 64 cb: its samples, clipped samples, and whether it is flagged. -/
structure DefectScan where
  ref : List Nat
  flags : List Bool
  envs : List Nat
  deriving DecidableEq, Repr
/-- The defect detector over blocks, oldest first; the reference holds while blocks are flagged (R129). -/
def scanBlocks (drop clip : Nat) : List Nat → List (List Int × Nat) → DefectScan
  | ref, [] => ⟨ref, [], []⟩
  | ref, (xs, clips) :: r =>
    let e := envelope xs
    let bad := dropped drop ref e || decide (clip ≤ clips)
    let n := scanBlocks drop clip (if bad then ref else (ref ++ [e]).drop (ref.length + 1 - 64)) r
    { n with flags := bad :: n.flags, envs := e :: n.envs }
/-- The blocks of 64 cb aligned to a position, with the clipped samples of each. -/
def blocksOf (align : Nat) (samples : List Int) (clipped : List Nat) : List (List Int × Nat) :=
  let a := align % 64
  (chunks 64 (samples.length / 64 + 1) (samples.drop a)).zipIdx.map (fun e =>
    (e.1, (clipped.filter (fun p => decide (a + 64 * e.2 ≤ p ∧ p < a + 64 * e.2 + 64))).length))
/-- Erased channel bits: flagged blocks with 16 cb either side, and samples whose parity fails (R129). -/
def eraseMask (align n : Nat) (flags : List Bool) (parity : List Nat) : List Bool :=
  let starts := (flags.zipIdx.filter (fun e => e.1)).map (fun e => align % 64 + 64 * e.2)
  (List.range n).map (fun i => parity.contains i || starts.any (fun a => decide (a ≤ i + 16 ∧ i < a + 80)))
/-- The blocks of the codeword area, from a sector origin (R37, R131). -/
def areaBlocks {α : Type} (align : Nat) (origin : Nat) (xs : List α) : List α :=
  ((xs.zipIdx.filter (fun e => decide (origin + 48 ≤ align % 64 + 64 * e.2 ∧ align % 64 + 64 * e.2 + 64 ≤ origin + 46560))).map (·.1))
/-- The percentage of envelopes below a percentage of a reference, given as sum and count (R131). -/
def lowPercent (envs : List Nat) (thr : Nat) (ref : Nat × Nat) : Nat :=
  100 * (envs.filter (fun e => decide (e * 100 * ref.2 < thr * ref.1))).length / max 1 envs.length

/-- One step of the gain loop on 4,096 samples: towards an RMS of 40 codes (R100). (Log DESIGN CHOICE 149) -/
def gainStep (xs : List Int) : Int :=
  let p := (xs.map (fun x => x * x)).foldl (· + ·) 0
  let want : Int := 1600 * xs.length
  if p < want then 1 else if want < p then -1 else 0
/-- The gain code after the codeword area of a slot, a step at most for each 4,096 cb without a flagged sample (R100). -/
def gainAfter (g : Nat) (xs : List Int) (mask : List Bool) : Nat :=
  ((chunks 4096 12 xs).zipIdx.foldl (fun (a : Int) e =>
    if e.1.length < 4096 ∨ ((mask.drop (4096 * e.2)).take 4096).any id then a else clampInt 0 48 (a + gainStep e.1)) (g : Int)).toNat

/-! ## LDPC checks and the seed search (R70 to R73, R98) -/

def xorBits (a b : List Bool) : List Bool := List.zipWith Bool.xor a b
/-- The 1,032 check sums of a word of 9,288 bits (R72). -/
def syndrome (y : List Bool) : List Bool :=
  let p0 := (y.drop 8256).take 344
  let p1 := (y.drop 8600).take 344
  let p2 := (y.drop 8944).take 344
  let p0s := p0.drop 1 ++ p0.take 1
  xorBits (ldpcLambda y 0) (xorBits p0s p1) ++ xorBits (ldpcLambda y 1) (xorBits p0 (xorBits p1 p2))
    ++ xorBits (ldpcLambda y 2) (xorBits p0s p2)
/-- Hard decisions satisfy all 1,032 checks (R73). -/
def converged (y : List Bool) : Bool := decide (y.length = 9288) && !(syndrome y).any id
/-- The 1,032 information bytes of a codeword (R69). -/
def infoBytes (y : List Bool) : List Byte :=
  (List.range 1032).map (fun i => byteOf ((List.range 8).foldl (fun a j => 2 * a + bitNat (y.getD (8 * i + j) false)) 0))

/-- The four seeds whose keystream leaves the lightest syndrome of CW0's scrambled decisions, lightest first (R98).
(Log DESIGN CHOICE 150) -/
def seedRank (y : List Bool) : List Nat :=
  if y.length ≠ 9288 then []
  else
    let h := syndrome y
    let weight_ (seed : Nat) : Nat := ((xorBits h (syndrome (scrambler 9288 (BitVec.ofNat 16 seed)))).filter id).length
    ((((List.range 65535).map (fun i => (weight_ (i + 1), i + 1))).mergeSort (fun a b => decide (a.1 ≤ b.1))).take 4).map (·.2)

end Sys2Proof.Machine
end

