-- ==== Sys2Proof/Machine/Ops.lean ====
section
/-! DEFINITION. The operations that the commands share: reading and writing the parts of the state, free values, logs
and events, posting completions, changes of mode, the stops of a run, HOLD and SAFE, and the entries to SAFE-STOP,
RESET and DARK. -/

namespace Sys2Proof.Machine

open Sys2Proof

/-! ## Parts of the state -/

/-- STITCH64 as a number (R203). -/
def State.now (s : State) : Nat := s.aon.stitch.toNat
/-- STITCH32[15:0]. -/
def State.stitch16 (s : State) : Half := BitVec.ofNat 16 s.now
/-- One millisecond and one second, in stitches. -/
def msec (n : Nat) : Nat := 200 * n
def secs (n : Nat) : Nat := 200000 * n

def State.bay (s : State) (b : Nat) : Bay := Tbl.get {} s.bays b
def State.setBay (s : State) (b : Nat) (v : Bay) : State := { s with bays := Tbl.set {} s.bays b v }
def State.modBay (s : State) (b : Nat) (f : Bay → Bay) : State := s.setBay b (f (s.bay b))
def State.beam (s : State) (g : Nat) : Beam := Tbl.get {} s.beams g
def State.modBeam (s : State) (g : Nat) (f : Beam → Beam) : State := { s with beams := Tbl.upd {} s.beams g f }
def State.bus (s : State) (g : Nat) : Bus := Tbl.get {} s.buses g
def State.modBus (s : State) (g : Nat) (f : Bus → Bus) : State := { s with buses := Tbl.upd {} s.buses g f }
def State.slot (s : State) (i : Nat) : GSlot := Tbl.get {} s.girth.slots i
def State.modSlot (s : State) (i : Nat) (f : GSlot → GSlot) : State :=
  { s with girth := { s.girth with slots := Tbl.upd {} s.girth.slots i f } }

/-- A queue pair's index in the table: the two instances of QP 0 are 0 and 4,096 (R352). -/
def qpIndex : QpId → Nat
  | .admin .a => 0
  | .admin .b => 4096
  | .data n => n
def State.qp (s : State) (q : QpId) : Qp := Tbl.get {} s.qps (qpIndex q)
def State.modQp (s : State) (q : QpId) (f : Qp → Qp) : State := { s with qps := Tbl.upd {} s.qps (qpIndex q) f }

/-- A gateway's node ID (R327). -/
def gwNode : Gateway → Nat
  | .a => 253
  | .b => 254
/-- QP number on the ring. -/
def qpNumber : QpId → Nat
  | .admin _ => 0
  | .data n => n
/-- The priority of a queue pair's frames (R326). -/
def qpPcp : QpId → Nat
  | .admin _ => 6
  | .data _ => 3
/-- The node a queue pair's frames go to (R352). -/
def State.peerOf (s : State) (q : QpId) : Nat :=
  match q with
  | .admin g => gwNode g
  | .data _ => (s.qp q).peer

/-- The value in force of a pattern field, as a signed number and as a natural number. -/
def State.pval (s : State) (id idx : Nat) : Int := s.pat.val id idx
def State.pnat (s : State) (id idx : Nat) : Nat := (s.pat.val id idx).toNat

/-- The engine is tapped (R321). -/
def State.tapped (s : State) : Bool := s.ring.tapped

/-- Modes in which firmware runs, the set F (R382). -/
def Mode.firmware : Mode → Bool
  | .dark | .reset | .boot => false
  | _ => true
/-- Modes TRANSIT to RETIRE. -/
def Mode.onRing : Mode → Bool
  | .dark | .reset | .boot | .enrol => false
  | _ => true
/-- The mode's code (R399). -/
def Mode.code : Mode → Nat
  | .dark => 0 | .reset => 1 | .boot => 2 | .enrol => 3 | .transit => 4 | .standby => 5 | .active => 6
  | .constrained => 7 | .quiesce => 8 | .service => 9 | .safeStop => 10 | .retire => 11
/-- Modes in which data commands are taken and executed (R359, R399). -/
def Mode.data : Mode → Bool
  | .active | .constrained => true
  | _ => false
/-- Firmware is running: a firmware mode, and no restart of the management complex under way (R22).
(Log DESIGN CHOICE 130) -/
def State.fwRuns (s : State) : Bool := s.mode.firmware && !s.mgmt.restarting

/-- A domain PDn is powered (R464). -/
def State.powered (s : State) (n : Nat) : Bool := s.aon.power.toNat.testBit n

/-- Something sent at a pin. (Log DESIGN CHOICE 6) -/
def State.send (s : State) (o : Output) : State := { s with sent := s.sent ++ [o] }

/-- The next free value, and the state that has used it. (Log DESIGN CHOICE 5) -/
def State.fresh (s : State) : Nat × State := (Config.free s.freeCtr, { s with freeCtr := s.freeCtr + 1 })

/-- The disc of a bay. -/
def State.disc (s : State) (b : Nat) : Option Disc := (s.bay b).disc
def State.modDisc (s : State) (b : Nat) (f : Disc → Disc) : State :=
  s.modBay b fun y => { y with disc := y.disc.map f }
def State.modWrite (s : State) (b : Nat) (f : WriteSess → WriteSess) : State :=
  s.modBay b fun y => { y with write := y.write.map f }
def State.modChan (s : State) (b : Nat) (f : Channel → Channel) : State := s.modBay b fun y => { y with chan := f y.chan }
def State.modServo (s : State) (b : Nat) (f : Servo → Servo) : State := s.modBay b fun y => { y with servo := f y.servo }
def State.modSpin (s : State) (b : Nat) (f : Spindle → Spindle) : State := s.modBay b fun y => { y with spin := f y.spin }
def State.modSled (s : State) (b : Nat) (f : Sled → Sled) : State := s.modBay b fun y => { y with sled := f y.sled }
def State.modWelt (s : State) (b : Nat) (f : Welt → Welt) : State := s.modBay b fun y => { y with welt := f y.welt }

/-- The group of a bay (R15). -/
def groupOf (b : Nat) : Nat := b / 4
/-- The bays of the engine. -/
def allBays : List Nat := List.range 16

/-! ## Events (R389, R390) -/

/-- Codes of the events (R390). -/
def evDiscNeeded : Nat := 1
def evDiscDone : Nat := 2
def evModeChanged : Nat := 3
def evBaySafe : Nat := 4
def evEave : Nat := 5
def evLogFull : Nat := 6
def evEventsLost : Nat := 7

/-- Whether an event's bit is set in ENABLE; DISC_NEEDED, DISC_DONE and EVENTS_LOST always are (R389). -/
def Events.enabled (e : Events) (code : Nat) : Bool :=
  code == 1 || code == 2 || code == 7 || e.enable.toNat.testBit code

/-- Queued events that count against the share of the other events. -/
def Events.others (e : Events) : Nat := (e.queue.filter (fun v => !(v.code == 1 || v.code == 2))).length

/-- An event queued, dropped and counted, or discarded (R389). -/
def Events.post (e : Events) (at_ code : Nat) (payload : List Byte) : Events :=
  if e.enabled code = false then e
  else if code = 1 ∨ code = 2 then { e with queue := e.queue ++ [⟨code, at_, payload⟩] }
  else if e.others < 128 then { e with queue := e.queue ++ [⟨code, at_, payload⟩] }
  else { e with lost := e.lost + 1 }

/-- An event that occurs while the engine is tapped is queued; in other modes it is not sent (R390). -/
def State.event (s : State) (code : Nat) (payload : List Byte) : State :=
  if s.tapped then { s with events := s.events.post s.now code payload } else s

/-! ## Logs (R391, R392) -/

/-- The pages of 16-byte entries. -/
inductive Page
  | device
  | bay (b : Nat)
  | mount
  | ring
  deriving DecidableEq, Repr

/-- An entry of the same code and bay made earlier in the same span counts a repeat, saturating at 255 (R392).
(Log DEDUCED 72) -/
def bumpRepeat (span code bay : Nat) : List LogEntry → Option (List LogEntry)
  | [] => none
  | e :: r =>
    if e.at_ / 200 = span ∧ e.code = code ∧ e.bay = bay then some ({ e with repeats := min 255 (e.repeats + 1) } :: r)
    else (bumpRepeat span code bay r).map (e :: ·)

/-- An entry added to a page of `cap` entries; the second part says that LOG_FULL is due (R392). (Log DEDUCED 72) -/
def LogPage.add {α : Type} (p : LogPage α) (cap : Nat) (e : α) : LogPage α × Bool :=
  if p.entries.length < cap then
    let full := decide (p.entries.length + 1 = cap)
    ({ p with entries := p.entries ++ [e], fullSent := p.fullSent || full }, full && !p.fullSent)
  else ({ p with overflow := p.overflow + 1 }, false)

/-- An entry noted in a page of codes: a repeat, a new entry or an overflow (R392). -/
def LogPage.note (p : LogPage LogEntry) (now code bay detail : Nat) : LogPage LogEntry × Bool :=
  match bumpRepeat (now / 200) code bay p.entries with
  | some es => ({ p with entries := es }, false)
  | none => p.add 1024 ⟨now, code, bay, 0, detail % 2 ^ 32⟩

/-- LOG_FULL for a page and index (R390, R392). -/
def State.logFull (s : State) (due : Bool) (page idx : Nat) : State :=
  if due then s.event evLogFull (beBytes 1 page ++ [0] ++ beBytes 2 idx) else s

/-- An entry of pages 0x01, 0x02, 0x03 and 0x06. (Log DEDUCED 72) -/
def State.log (s : State) (pg : Page) (code bay detail : Nat) : State :=
  match pg with
  | .device =>
    let r := s.logs.device.note s.now code bay detail
    { s with logs := { s.logs with device := r.1 } }.logFull r.2 1 0
  | .mount =>
    let r := s.logs.mount.note s.now code bay detail
    { s with logs := { s.logs with mount := r.1 } }.logFull r.2 3 0
  | .ring =>
    let r := s.logs.ring.note s.now code bay detail
    { s with logs := { s.logs with ring := r.1 } }.logFull r.2 6 0
  | .bay b =>
    let r := (Tbl.get {} s.logs.bay b).note s.now code bay detail
    { s with logs := { s.logs with bay := Tbl.set {} s.logs.bay b r.1 } }.logFull r.2 2 b

/-- An entry whose detail no rule names holds a free value there. (Log DESIGN CHOICE 5) -/
def State.logFree (s : State) (pg : Page) (code bay : Nat) : State :=
  let f := s.fresh
  f.2.log pg code bay f.1

/-- A bay-log entry with its detail, and one whose detail no rule names. (Log DESIGN CHOICE 96) -/
def State.bayLog (s : State) (b code detail : Nat) : State := s.log (.bay b) code b detail
def State.bayLogFree (s : State) (b code : Nat) : State := s.logFree (.bay b) code b

/-- An entry of the thermal log (R478), which firmware makes. (Log DEDUCED 45) -/
def State.thermLog (s : State) (kind sensor group : Nat) : State :=
  if s.mode.firmware then
    let r := s.logs.thermal.add 1024 ⟨s.now, kind, s.eave.step, sensor, group, s.eave.tmax, s.eave.power⟩
    { s with logs := { s.logs with thermal := r.1 } }.logFull r.2 9 0
  else s

/-! ## Completions (R358, R360, R361, R363) -/

/-- The statuses of R359 and R386. -/
def stSuccess : Nat := 0x00
def stRecovered : Nat := 0x01
def stDataLost : Nat := 0x02
def stNotMounted : Nat := 0x10
def stOutOfRange : Nat := 0x11
def stSealed : Nat := 0x12
def stSealedFull : Nat := 0x13
def stAborted : Nat := 0x14
def stDeadline : Nat := 0x15
def stNoResource : Nat := 0x16
def stClamped : Nat := 0x17
def stKeyInvalid : Nat := 0x18
def stTenant : Nat := 0x19
def stBindFailed : Nat := 0x1A
def stMountFailed : Nat := 0x1B
def stDupTag : Nat := 0x1C
def stBayBusy : Nat := 0x1D
def stWrongMode : Nat := 0x1E
def stTruncated : Nat := 0x20
def stBusy : Nat := 0x21
def stAuthFailed : Nat := 0x22
def stRollback : Nat := 0x23
def stSerialMismatch : Nat := 0x24
def stBadTransition : Nat := 0x25

/-- A CQE as its 16 bytes in a completion ring in engine DRAM, little-endian, and the widths of its fields (R355, R358). -/
def cqeEntry (tag rdepth status cflags aux16 aux64 : Nat) : List Byte :=
  leBytes 2 (tag % 2048 + 2048 * (rdepth % 8)) ++ leBytes 1 status ++ leBytes 1 cflags ++ leBytes 2 aux16 ++ [0, 0]
    ++ leBytes 8 aux64
def cqeWidths : List Nat := [2, 1, 1, 2, 2, 8]
/-- A CQE as its 16 bytes on the ring, big-endian: each field of its entry is converted when it is sent (R355). -/
def cqeBytes (tag rdepth status cflags aux16 aux64 : Nat) : List Byte :=
  turnFields cqeWidths (cqeEntry tag rdepth status cflags aux16 aux64)

/-- A frame put behind those that wait on a queue pair; its sequence number comes at its launch (R339). -/
def State.queueFrame (s : State) (q : QpId) (ftype tag : Nat) (body : List Byte) : State :=
  s.modQp q fun p => { p with txWait := p.txWait ++ [⟨ftype, qpPcp q, s.peerOf q, qpNumber q, 0, tag, false, body, false⟩] }

/-- A CPL frame with one CQE (R339, R361). -/
def State.postCqe (s : State) (q : QpId) (tag rdepth status cflags aux16 aux64 : Nat) : State :=
  s.queueFrame q 3 tag (beBytes 2 1 ++ zeros 6 ++ cqeBytes tag rdepth status cflags aux16 aux64)

/-- A command of this queue pair and tag, in the tag store. -/
def State.cmd? (s : State) (q : QpId) (tag : Nat) : Option Cmd :=
  s.tags.find? (fun c => c.q == q && c.sqe.tag == tag)
def State.modCmd (s : State) (q : QpId) (tag : Nat) (f : Cmd → Cmd) : State :=
  { s with tags := s.tags.map (fun c => if c.q == q && c.sqe.tag == tag then f c else c) }
/-- The tag store without a command: its slot is released when its CQE is written (R360). -/
def State.dropCmd (s : State) (q : QpId) (tag : Nat) : State :=
  { s with tags := s.tags.filter (fun c => !(c.q == q && c.sqe.tag == tag)) }

/-- A command in the tag store ends: its CQE is posted and its tag released. In DELETING the CQE is discarded (R353).
(Log DEDUCED 61) -/
def State.finish (s : State) (q : QpId) (tag rdepth status cflags aux16 aux64 : Nat) : State :=
  let s1 := if (s.qp q).state = .deleting then s else s.postCqe q tag rdepth status cflags aux16 aux64
  s1.dropCmd q tag

/-- A command ends whose AUX64 the manual gives no content for this status: a free value stands there.
(Log DESIGN CHOICE 5) -/
def State.finishFree (s : State) (q : QpId) (tag status cflags aux16 : Nat) : State :=
  let f := s.fresh
  f.2.finish q tag 0 status cflags aux16 f.1

/-- First lost sector, none. -/
def noneLost : Nat := 0xFFFFFFFF

/-! ## Modes (R390, R392, R399, R400) -/

/-- The causes of MODE_CHANGED (R400). -/
def mcRequest : Nat := 1
def mcAuto : Nat := 2
def mcEave : Nat := 3
def mcRestarts : Nat := 4
def mcMctp : Nat := 5
def mcSplice : Nat := 6

/-- MODE_CHANGED, from firmware (R390). -/
def State.modeEvent (s : State) (old new_ : Mode) (cause : Nat) (drained : Bool) : State :=
  s.event evModeChanged (beBytes 1 old.code ++ beBytes 1 new_.code ++ beBytes 1 cause ++ beBytes 1 (bitNat drained))

/-- The mode changes; firmware reports it, or owes the report while it restarts (R401, R475). (Log DEDUCED 72) -/
def State.enterMode (s : State) (m : Mode) (cause : Nat) : State :=
  let s1 : State := { s with mode := m }
  if s.mgmt.restarting then
    { s1 with mgmt := { s1.mgmt with owedModes := s1.mgmt.owedModes ++ [(s.mode, m, cause)] } }
  else (s1.modeEvent s.mode m cause false).logFree .device 0x0E01 0xFF

/-! ## Lasers and urgent commands (R222) -/

def ucWstop : Nat := 1
def ucLoff : Nat := 2

/-- Blocks sent on a downlink lane of a bay, through its scrambler, in the block positions that follow (R210).
(Log DESIGN CHOICE 163) -/
def State.sendLane (s : State) (b : BayId) (lane : Fin 2) (bs : List LaneBlock) : State :=
  let w := (s.bay b.val).welt
  let r := codeBlocks (if lane = 0 then w.scr0 else w.scr1) bs
  (s.modWelt b.val fun w =>
    if lane = 0 then { w with scr0 := r.2, sent0 := w.sent0 + bs.length } else { w with scr1 := r.2, sent1 := w.sent1 + bs.length }).send
    (.lane b lane r.1)
/-- A frame sent on DL0 (R211, R212). -/
def State.sendFrame (s : State) (b : BayId) (l : List Byte) : State := s.sendLane b 0 (frameBlocks l)
/-- Idle on both downlink lanes up to a block position (R211, R213). -/
def State.idleLanes (s : State) (b : BayId) (pos : Nat) : State :=
  let w := (s.bay b.val).welt
  (s.sendLane b 0 (List.replicate (pos - w.sent0) idleBlock)).sendLane b 1 (List.replicate (pos - w.sent1) idleBlock)

/-- An urgent command block, sent on both downlink lanes at once; the segments not yet sent are discarded, with every gate at 0 (R222). -/
def State.urgent (s : State) (b code : Nat) : State :=
  if (s.bay b).welt.phase = .off ∨ (s.bay b).welt.phase = .dead then s else
  match (Nat.decLt b 16) with
  | .isTrue h =>
    let x := [urgentBlock code s.stitch16]
    ((s.sendLane ⟨b, h⟩ 0 x).sendLane ⟨b, h⟩ 1 x).modWelt b fun w => { w with stream := [], gates := [], switchAt := none }
  | .isFalse _ => s

/-- Every laser of a bay off: LOFF, and stitch frames with HOLD = 1 and LASER_EN = 0 from now on (R224). -/
def State.lasersOff (s : State) (b : Nat) : State :=
  (s.urgent b ucLoff).modWelt b fun w => { w with laserEn := false, hold := true }

/-! ## The stops of a run (R125, R175) -/

/-- The home addresses of the spiral-slots that the feed records at index `j` of a layer, with no block at or above
`limit` when a drain runs (R173, R174). -/
def recordingAt (t : DiscType) (layer start limit j : Nat) (bad : List Nat) : List Nat :=
  t.spiralList.filterMap fun b =>
    match sectorAt t b j with
    | none => none
    | some (n, _) =>
      let a := userAddr t layer b j
      if start ≤ n ∧ n < limit ∧ !bad.contains a then some a else none

/-- The limit of a write session's present feed: the drain's boundary, or the end of the layer. -/
def WriteSess.limit (w : WriteSess) (t : DiscType) : Nat :=
  match w.phase with
  | .draining n => n
  | _ => t.blocks

/-- A session's feed is running. -/
def WriteSess.feeding (w : WriteSess) : Bool :=
  match w.phase with
  | .recording => w.resumeBy.isNone
  | .draining _ => w.resumeBy.isNone
  | _ => false

/-- The write sequence of the session open on a disc (R194): none while its open still waits for the head to cool. -/
def openSeq (w : Option WriteSess) : Option Nat := w.bind (fun w => if w.phase = .waitTemp then none else some w.seq)

/-- Addresses that a list lacks, added to it in order. -/
def addNew (l new_ : List Nat) : List Nat := l ++ new_.filter (fun a => !l.contains a)

/-- The stitch by which a run stopped now must have resumed (R176, R201). -/
def State.resumeLimit (s : State) : Nat := s.now + msec (s.pnat 0x0516 0)

/-- Replacements of the spare-zone slot that is recorded next (R188): those of the lowest slot still waiting. -/
def WriteSess.presentSpares (w : WriteSess) (t : DiscType) : List SpareRec :=
  let l := w.spares.filter (fun x => decide (x.state = .waiting))
  l.filter (fun x => l.all (fun y => decide (x.pos / t.spirals ≤ y.pos / t.spirals)))
/-- They come to a state. -/
def WriteSess.setSpares (w : WriteSess) (t : DiscType) (v : SpareState) : WriteSess :=
  let l := w.presentSpares t
  { w with spares := w.spares.map (fun x => if l.contains x then { x with state := v } else x) }

/-- An immediate stop: the present slot's recording spiral-slots are defective, and recording resumes at the next
slot; a verify pass or a spare-zone run that ends is to go on in time (R175, R187). -/
def State.immediateStop (s : State) (b : Nat) : State :=
  match (s.bay b).disc, (s.bay b).write with
  | some d, some w =>
    if w.feeding then
      let hit := recordingAt d.dtype w.layer w.low (w.limit d.dtype) w.j w.bad
      s.modWrite b fun w => { w with bad := addNew w.bad hit, j := w.j + 1, resumeBy := some s.resumeLimit
                                     recorded := w.recorded || !hit.isEmpty }
    else if w.phase = .verifying ∨ w.phase = .replacing then
      s.modWrite b fun w0 =>
        let w := if w0.phase = .replacing ∧ (s.bay b).state = .write then w0.setSpares d.dtype .failed else w0
        { w with resumeBy := match w.resumeBy with | none => some s.resumeLimit | some t => some t }
    else s
  | _, _ => s

/-- A boundary stop begins: the drain to block boundary N, the number of blocks with any sector recorded (R174, R175). -/
def State.boundaryStop (s : State) (b : Nat) : State :=
  match (s.bay b).disc, (s.bay b).write with
  | some d, some w =>
    if w.phase = .recording ∧ w.resumeBy.isNone then
      s.modWrite b fun w => { w with phase := .draining (blocksBegun d.dtype w.j) }
    else s
  | _, _ => s

/-- A slot-end stop: the present slot is finished, and the run then stops (R175). -/
def State.slotEndStop (s : State) (b : Nat) : State :=
  s.modWrite b fun w => { w with slotStop := w.slotStop || w.feeding || (decide (w.phase = .replacing) && decide ((s.bay b).state = .write)) }

/-- The offsets and the raised power of a re-read pass are removed (R148, R149). -/
def State.dropOffsets (s : State) (b : Nat) : State :=
  let v := (s.bay b).servo
  let s1 := if v.focusOff = 0 ∧ v.trackOff = 0 then s
    else { s with pat := (s.pat.pend 0x0603 b 0).pend 0x0603 (16 + b) 0 }
  let s2 := if v.powerUp = 0 then s1 else s1.modWelt b fun w => { w with readPwr := v.powerBase }
  s2.modServo b fun v => { v with focusOff := 0, trackOff := 0, powerUp := 0 }

/-! ## The LDPC array's input and the seam at a run's end (R121, R125, R127, R130, R144) -/

/-- The disc type that a bay reads: that of its disc, or as a mount has found it. -/
def chanType (s : State) (b : Nat) : DiscType :=
  match (s.bay b).mount, (s.bay b).disc with
  | some m, _ => m.dtype.getD .plain
  | none, some d => d.dtype
  | none, none => .plain

/-- The LDPC array gives up what it holds of a sector. -/
def State.dropJob (s : State) (b : Nat) (a : SlotAddr) : State :=
  { s with recov := { s.recov with ldpc := s.recov.ldpc.filter (fun x => !(x.bay.val == b && x.addr == a)) } }
/-- A sector's codewords sent to the LDPC array, in place of what it held of the sector before. -/
def State.pushJob (s : State) (j : LdpcJob) : State :=
  let s1 := s.dropJob j.bay.val j.addr
  { s1 with recov := { s1.recov with ldpc := s1.recov.ldpc ++ [j] } }
def State.job? (s : State) (b : Nat) (a : SlotAddr) : Option LdpcJob := s.recov.ldpc.find? (fun x => x.bay.val == b && x.addr == a)
/-- A job sends something. -/
def LdpcJob.sends (j : LdpcJob) : Bool := j.llr.any (·.isSome)
/-- The codewords that are sent: none with more than ERASE_MAX erased coded bits (R130). -/
def sentCws (eraseMax : Nat) (erased : List Nat) (llrs : List (List Int)) : List (Option (List Int)) :=
  llrs.zipIdx.map (fun e => if eraseMax < erased.getD e.2 0 then none else some e.1)
/-- Codewords of the input buffer (R144). -/
def State.backlog (s : State) : Nat := (s.recov.ldpc.map (fun j => (j.llr.filter (·.isSome)).length)).foldl (· + ·) 0

/-- The offset about the flywheel's prediction that the search of R117 tries as its `i`-th, from 1. -/
def searchOffset (i : Nat) : Int := ([0, -1, 1, -2, 2, -3, 3, -4, 4] : List Int).getD (i - 1) 0
/-- The codewords of a search: CW0 first, then CW1 to CW3 (R117, R146). -/
def cw0First {α : Type} (held : Bool) (l : List (Option α)) : List (Option α) :=
  l.zipIdx.map (fun e => if decide (e.2 = 0) = held then none else e.1)
/-- The parameters that a sector's decode takes: LLR_SCALE, ERASE_MAX and RESYNC_TOL (R138). -/
def decodeTake (s : State) (b : Nat) : List Nat := [0x0412, 0x040E, 0x0408].map (fun id => s.pnat id b)
/-- A sector's job from the detector's LLRs over its slot: at its origin, or at an offset of R117 with what is decoded already. -/
def sectorJob (t : DiscType) (took : List Nat) (b : Nat) (r : SlotReport) (lsn : Option Nat) (search : Nat)
    (held : List (Option (List Byte))) (ls : List Int) (mask : List Bool) : LdpcJob :=
  let o := if search = 0 then r.offset else searchOffset search
  let tol := took.getD 2 2
  let all := sentCws (took.getD 1 1024) (sectorErased tol t.preamble r.resyncs o mask)
    (sectorLlrs tol (took.getD 0 16) t.preamble r.resyncs o (lsn.map scramblerSeed) ls mask)
  { bay := Fin.ofNat 16 b, addr := r.addr, report := r, lsn := lsn, search := search, held := held, took := took
    llr := if search = 0 then all else cw0First (!held.isEmpty) all }
/-- The detector's LLRs over a slot, 0 where a channel bit is erased (R127, R130). -/
def slotLlrs (ys priors : List Int) (mask : List Bool) : List Int :=
  List.zipWith (fun (m : Bool) l => if m then 0 else l) mask (softBits ys priors)

/-- A sector of S7 sent to the array from the output of its late pass, or from its partial sums alone; an early false sync begins the
search of R117. -/
def State.sendSeam (s : State) (b : Nat) (x : SeamSlot) (ys : List Int) : State :=
  s.pushJob (sectorJob (chanType s b) x.took b x.report x.lsn (bitNat (decide (x.report.sync = 2))) [] (slotLlrs ys [] x.mask) x.mask)

/-- What has become of sectors whose slots have passed but that no decode has reached: they count as not read (R125, R141). -/
def Block.unread (x : Block) (as : List SlotAddr) : Block :=
  { x with secs := x.secs.map (fun (e : Nat × SecRec) =>
      match e.2.report with
      | some r => if e.2.state = .decoding ∧ as.contains r.addr then
          (e.1, { e.2 with state := if (match x.phase with | .reread _ _ => true | _ => false) then .failed else .unread, passRead := false })
        else e
      | none => e) }
/-- The S7 sectors left in the seam buffer are discarded (R125). -/
def State.dropSeam (s : State) (b : Nat) : State :=
  match (s.bay b).chan.seam with
  | [] => s
  | xs =>
    let as := xs.map (·.report.addr)
    let s1 := { s with recov := { s.recov with blocks := s.recov.blocks.map (fun (x : Block) => if x.bay.val = b then x.unread as else x) } }
    s1.modChan b fun c => { c with seam := [] }

/-- A run of the bay ends (R125): the head reads no further slot of it, and S7 sectors not yet decoded are discarded. -/
def State.endRun (s : State) (b : Nat) : State :=
  ((s.dropSeam b).dropOffsets b).modChan b fun c => { c with run := none, searchSlots := 0, live := [] }
/-- A run ends at once at HOLD, SAFE or rotor loss (R125): the S7 sectors left in the seam buffer are decoded one-sided, with set 3.
(Log DEDUCED 155) -/
def State.cutRun (s : State) (b : Nat) : State :=
  let s1 := (s.bay b).chan.seam.foldl (fun a x =>
    if x.report.outcome = .pending then a.sendSeam b x (x.part.map (· * 16384)) else a) s
  (s1.modChan b fun c => { c with seam := [] }).endRun b

/-! ## Course stops (R199) -/

/-- Rows to CSNs: the first CSN not durable of a course. -/
def Course.firstLost (c : Course) : Nat := c.dtype.dataSectors * c.d * c.committed

def State.modCourse (s : State) (handle : Nat) (f : Course → Course) : State :=
  { s with courses := s.courses.map (fun c => if c.handle = handle then f c else c) }
def State.course? (s : State) (handle : Nat) : Option Course := s.courses.find? (fun c => c.handle == handle)
/-- The course whose member disc a bay holds, of those that are open. (Log DEDUCED 136) -/
def State.courseOfBay (s : State) (b : Nat) : Option Course :=
  s.courses.find? (fun c => !c.stopped && c.bays.any (fun x => x.val == b))

/-- CSNs of an APPEND's range that were never taken become fill sectors of its course (R373). (Log DEDUCED 87) -/
def State.giveUpAppend (s : State) (c : Cmd) : State :=
  match c.csn with
  | none => s
  | some first =>
    let gone := ((List.range c.sqe.count).filter (fun x => !c.taken.contains x)).map (first + ·)
    s.modCourse c.sqe.handle fun k => { k with missing := k.missing ++ gone }

/-- A command that waited for a close ends with a status, reporting the first CSN not durable (R199). (Log DEDUCED 95) -/
def State.endWait (s : State) (w : CloseWait) (status firstLost : Nat) : State :=
  match s.cmd? w.q w.tag with
  | none => s
  | some _ => s.finish w.q w.tag 0 status 0 0 firstLost

/-- Whether a rule of R199 leaves the course full or stopped. -/
inductive CourseEnd | full | stopped
  deriving DecidableEq, Repr

/-- APPENDs of a course that are in flight end with ABORTED when it stops (R359). -/
def State.abortAppends (s : State) (handle : Nat) : State :=
  let hit := s.tags.filter (fun c => c.sqe.opcode == 2 && c.sqe.handle == handle && c.started)
  hit.foldl (fun s c =>
    match c.csn with
    | some first => s.finish c.q c.sqe.tag 0 stAborted 0 c.taken.length first
    | none => s.finishFree c.q c.sqe.tag stAborted 0 0) s

/-- A course stops taking rows (R199): FLUSH, SEAL and RELEASE that wait for rows now lost end, and an opening
command ends with ABORTED (R377). The write buffer's uncommitted rows are given up and open sessions end without an
update. (Log DEDUCED 95, 136) -/
def State.stopCourse (s : State) (handle : Nat) (e : CourseEnd) : State :=
  match s.course? handle with
  | none => s
  | some c =>
    let st := if e = .full then stSealedFull else stAborted
    let s1 := c.waits.foldl (fun s w => s.endWait w st c.firstLost) s
    let s2 := match c.opening with
      | none => s1
      | some (q, t) =>
        let f := s1.fresh
        if (s1.cmd? q t).isSome then f.2.finishFree q t stAborted 0 (f.1 % 2 ^ 16) else s1
    let s3 := if e = .full then s2 else s2.abortAppends handle
    let s4 := c.bays.foldl (fun s b => s.modBay b.val fun y =>
      { y with write := none, state := if y.state = .write then .track else y.state }) s3
    if c.opening.isSome then { s4 with courses := s4.courses.filter (fun k => k.handle != handle) }
    else s4.modCourse handle fun c =>
      { c with stopped := decide (e = .stopped), full := c.full || decide (e = .full), waits := [], opening := none,
               closing := none, buf := [] }

/-! ## HOLD and SAFE (R224, R242, R264, R269, R271, R392) -/

/-- The Girth slots of a bay's optical loops: focus, tracking, tilt and pitch. -/
def opticalSlots (b : Nat) : List Nat := [b, 16 + b, 32 + b, 48 + b]
/-- The sled follow slot and the spindle slot of a bay. -/
def sledSlot (b : Nat) : Nat := 64 + b
def spinSlot (b : Nat) : Nat := 80 + b
/-- The laser power slots of a bay. -/
def laserSlots (b : Nat) : List Nat := (List.range 8).map (fun n => 96 + 8 * b + n)

/-- A set forced on a slot, 8 for none (R239). -/
def State.forceSet (s : State) (slot g : Nat) : State := s.modSlot slot fun x => { x with force := g }

/-- Outputs computed in the present window for a bay's optical and laser slots apply nothing (R249); in SAFE the
optical outputs become 0 (R242). -/
def State.dropOutputs (s : State) (b : Nat) (zero : Bool) : State :=
  let s1 := (laserSlots b).foldl (fun a i => a.modSlot i fun x => { x with done := false, live := false }) s
  (opticalSlots b).foldl (fun a i => a.modSlot i fun x =>
    { x with done := false, live := false, applied := if zero then 0 else x.applied }) s1

/-- A sequence of the servo is abandoned: sweeps, jumps, seeks and acquisitions. -/
def Servo.abandon (v : Servo) : Servo :=
  { v with sweeping := false, focusClosed := false, focusSettling := false, settled := 0, jump := none,
           tracking := false, trackAcq := none, trackSettling := false, registered := false, trackJump := none, teSpan := none,
           seek := none, lowSum := 0, offCount := 0, tiltAcq := none }

/-- A sled that moves or follows ramps to rest in SAFE (R312). -/
def Sled.toRest (d : Sled) : Sled :=
  match d.state with
  | .move => { d with state := .ramping, target := none, next := none }
  | .follow => { d with state := .ramping, target := none, next := none }
  | _ => d

/-- The DISC_NEEDED event of a request, with a reason (R165). -/
def discNeeded (s : State) (r : DiscReq) (reason : Nat) : State :=
  let left := (r.at_ + secs r.wait - s.now + 199999) / 200000
  s.event evDiscNeeded (beBytes 2 r.id ++ beBytes 1 reason ++ beBytes 1 r.member ++ beBytes 8 r.course
    ++ beBytes 1 (match r.dtype with | .plain => 1 | .ridged => 2) ++ beBytes 1 r.cls ++ [0, 0] ++ beBytes 4 r.firstRow
    ++ beBytes 4 r.lastRow ++ beBytes 4 left)

/-- A MOUNT in progress ends with MOUNT_FAILED and its reason (R375); a request that it answers stays open and is raised
again with reason 0x04 (R166, R376). -/
def State.failMount (s : State) (b reason : Nat) : State :=
  match (s.bay b).mount with
  | none => s
  | some m =>
    let s0 := s.modBay b fun y => { y with mount := none, disc := none }
    let s1 := match s.recov.requests.find? (fun r => r.id == m.req && !r.answered) with
      | some r => discNeeded s0 r 4
      | none => s0
    if (s1.cmd? m.q m.tag).isSome then s1.finishFree m.q m.tag stMountFailed 0 reason else s1

/-- What a bay does on its way into SAFE: the run ends, a write run makes an immediate stop, lasers go off, and a MOUNT in progress
ends with reason 8 (R175, R269, R375). -/
def State.safeEntry (s : State) (b code : Nat) : State :=
  let s1 := ((s.immediateStop b).cutRun b).lasersOff b
  let s2 := (s1.failMount b 8).modBay b fun y =>
    { y with state := .safe, safeCause := code, safeAt := s1.now, ldPermit := false,
             catching := false, servo := y.servo.abandon, sled := y.sled.toRest }
  (s2.forceSet (sledSlot b) 8).dropOutputs b true
/-- Entry of a bay to SAFE: the bay log and BAY_SAFE carry the cause's code (R390, R392); with a detail where its rule names one. -/
def State.enterSafe (s : State) (b code : Nat) : State :=
  if (s.bay b).state = .safe then s
  else ((s.safeEntry b code).bayLogFree b code).event evBaySafe (beBytes 1 b ++ [0] ++ beBytes 2 code)
def State.enterSafeAt (s : State) (b code detail : Nat) : State :=
  if (s.bay b).state = .safe then s.bayLog b code detail
  else ((s.safeEntry b code).bayLog b code detail).event evBaySafe (beBytes 1 b ++ [0] ++ beBytes 2 code)

/-- Entry of a bay to HOLD; an entry beyond HOLD_MAX within 10 s enters SAFE (R224, R264, R271). (Log DEDUCED 108) -/
def State.enterHold (s : State) (b : Nat) : State :=
  match (s.bay b).state with
  | .focus | .track | .read | .verify | .write =>
    let s1 := ((s.immediateStop b).cutRun b).lasersOff b
    let recent := (s1.bay b).holds.filter (fun t => s1.now < t + secs 10) ++ [s1.now]
    let s2 := s1.modBay b fun y =>
      { y with state := .hold, holdAt := s1.now, holds := recent, servo := y.servo.abandon }
    let s3 := (s2.forceSet (sledSlot b) 7).dropOutputs b false
    if s3.pnat 0x064A b < recent.length then s3.enterSafe b 0x060A else s3
  | _ => s

/-- The sled's pattern values in force, taken at the start of a move, a following or a homing (R316). -/
def sledTake (s : State) (b : Nat) : List (Nat × Int) :=
  ([0x0800, 0x0801, 0x0802, 0x0803, 0x0804, 0x0805, 0x0806, 0x0807, 0x0808, 0x0809, 0x080A, 0x080B, 0x080C, 0x080D,
    0x0813] : List Nat).map (fun id => (id, s.pval id b))
/-- A value that the sled has taken. -/
def Sled.val (d : Sled) (id : Nat) : Nat :=
  match d.taken.find? (fun e => e.1 == id) with
  | some e => e.2.toNat
  | none => 0

/-- A radius in µm as a position in microsteps of 23.4375 nm, to nearest (R295). -/
def radiusPos (um : Nat) : Nat := (um * 10000000 + 117187) / 234375

/-- The coil current starts its ramp towards `ma` (R304). -/
def Sled.ramp (d : Sled) (now ma : Nat) : Sled :=
  if d.curTo = ma then d else { d with curFrom := d.current, curTo := ma, curAt := now }

/-- Full steps/s as a speed of the ramp: 1/12,800,000 full step/s. -/
def fsSpeed (n : Nat) : Nat := n * 12800000

/-- One microstep as accumulated speed: 64 × 200,000 updates a second, 256 microsteps a full step (R298). -/
def microUnit : Nat := 640000000000

/-- The ramp fields of a bay (R316). -/
structure Ramp where
  vstart : Nat
  a1 : Nat
  v1 : Nat
  a2 : Nat
  vmax : Nat
  d2 : Nat
  d1 : Nat
  vstop : Nat
  deriving DecidableEq, Repr

/-- The ramp fields that the sled has taken (R315, R316); at a bus voltage of 10.8 V or below the speed is limited to
SLED_V1 (R313). -/
def rampOf (s : State) (b : Nat) (d : Sled) : Ramp :=
  let v1 := fsSpeed (d.val 0x0802)
  { vstart := fsSpeed (d.val 0x0800), a1 := d.val 0x0801, v1 := v1, a2 := d.val 0x0803,
    vmax := if (s.bus (groupOf b)).limited then v1 else fsSpeed (d.val 0x0804), d2 := d.val 0x0805,
    d1 := d.val 0x0806, vstop := fsSpeed (d.val 0x0807) }

/-- The remaining distance is no longer than the distance needed to stop from `v` on stages 5 and 6 (R298), `rem` in
accumulated speed units. (Log DEDUCED 115) -/
def mustStop (r : Ramp) (v rem : Nat) : Bool :=
  if r.v1 < v then
    decide (rem * (2 * r.d1 * r.d2) ≤ (v * v - r.v1 * r.v1) * r.d1 + (r.v1 * r.v1 - r.vstop * r.vstop) * r.d2)
  else decide (rem * (2 * r.d1) ≤ v * v - r.vstop * r.vstop)

/-- A new target for a move (R299): ahead and farther than the stopping distance it is planned from the present speed;
otherwise the sled first stops and waits one stitch. (Log DEDUCED 115) -/
def Sled.retarget (s : State) (b t : Nat) (d : Sled) : Sled :=
  let ahead := if d.outward then (t : Int) - d.pos else (d.pos : Int) - t
  let stop := decide (d.speed ≠ 0) && (decide (ahead ≤ 0) || mustStop (rampOf s b d) d.speed (ahead.toNat * microUnit - d.frac))
  { d with target := some t, next := none, overshoot := d.overshoot || stop }

/-- The sled in a position move. -/
def Sled.moving (d : Sled) : Sled := { d with state := .move }
/-- A position move of the sled to a radius in µm, within the soft limits (R298, R311); a sled at speed has the move
planned from that speed. -/
def Sled.moveTo (s : State) (b um : Nat) (d : Sled) : Sled :=
  let d1 := if d.speed = 0 then { d with taken := sledTake s b, overshoot := false, wait := false } else d
  let lim := max (d1.val 0x080B) (min um (d1.val 0x080C))
  ((d1.retarget s b (radiusPos lim)).ramp s.now (s.pnat 0x080E b)).moving

/-- A bay goes to SPINDOWN (R269, R285, R312): lasers off, the sled moves to its park radius, and a spindle that is not
driven in closed loop brakes at once. -/
def State.enterSpindown (s : State) (b : Nat) : State :=
  let s1 := (s.endRun b).modWelt b fun w => { w with laserEn := false }
  s1.modBay b fun y =>
    { y with state := .spinDown, downAt := s1.now, ldPermit := false, servo := y.servo.abandon, catching := false
             sled := if y.sled.homed then y.sled.moveTo s1 b (s1.pnat 0x080D b) else y.sled
             spin := match y.spin.state with
               | .detect | .ramp | .coast | .catching => { y.spin with state := .short, eventAt := s1.now, atSpeed := false }
               | _ => { y.spin with atSpeed := false } }

/-! ## SAFE-STOP, RESET and DARK (R403, R465, R475) -/

/-- Domains switched. -/
def powerMask (l : List Nat) : Nat := l.foldl (fun a n => a ||| (1 <<< n)) 0
def State.powerOn (s : State) (l : List Nat) : State :=
  { s with aon := { s.aon with power := s.aon.power ||| BitVec.ofNat 20 (powerMask l) } }
def State.powerOff (s : State) (l : List Nat) : State :=
  { s with aon := { s.aon with power := s.aon.power &&& ~~~ (BitVec.ofNat 20 (powerMask l)) } }
/-- PD`a` to PD`b`. -/
def pds (a b : Nat) : List Nat := (List.range (b + 1 - a)).map (· + a)

/-- The bank loads every Girth pattern value in force, in one commit, at PD17's power-up (R242). Laser gains stand at
×1.0 until their loops run. -/
def girthLoad (s : State) : State :=
  let s1 := { s with girth := { ({} : Girth) with loaded := true } }
  (List.range 128).foldl (fun a g => a.modSlot (96 + g) fun x => { x with applied := 2 ^ 27, appliedPrev := 2 ^ 27 }) s1

/-- Block positions of a lane up to `bits` after a stitch boundary: a stitch has 31,250 bits of 473.48 blocks (R210). -/
def blocksAt (stitch bits : Nat) : Nat := (stitch * 31250 + bits) / 66
/-- Training of a Welt link starts at event 1 (R213): Idle sent, lasers off. -/
def startTraining (s : State) (b : Nat) : State :=
  s.modWelt b fun w =>
    { w with phase := .idle, startedAt := s.now, pings := 0, echoes := [], good := 0, missing := 0, laserEn := false,
             hold := true, companion := none, sent0 := blocksAt s.now 0, sent1 := blocksAt s.now 0, stream := [], gates := []
             switchAt := none, regsLoaded := [], active := none, loadReg := none,
             nextReg := none, loadRec := [] }

/-- PD17 to PD19 power up (R242, R286, R465): the Girth bank is loaded and the enabled links train. (Log DEDUCED 42) -/
def State.motionUp (s : State) : State :=
  if s.powered 17 && s.powered 18 && s.powered 19 then s
  else
    allBays.foldl (fun a b =>
      if a.pval 0x0680 b = 1 then startTraining (a.modWelt b fun w => { w with attempts := 0, enabled := true }) b
      else a.modWelt b fun w => { w with enabled := false }) (girthLoad (s.powerOn (pds 17 19)))

/-- PD17 to PD19 power down (R286, R464): the links stop, coils and bridges are off, and what the motion units knew of
spindles and sleds is lost; a bay stands in SPINDOWN until a standstill is confirmed again.
(Log DESIGN CHOICE 16, 17; DEDUCED 41) -/
def State.motionDown (s : State) : State :=
  let s1 := { s.powerOff (pds 17 19) with girth := {}, buses := [] }
  allBays.foldl (fun a b => a.modBay b fun y =>
    { y with state := .spinDown, downAt := a.now, ldPermit := false, spin := {}, servo := y.servo.abandon, welt := {}
             sled := { homeSw := y.sled.homeSw, limitSw := y.sled.limitSw } }) s1

/-- The bays' entry to SAFE at the device's entry to SAFE-STOP; the spindles stop under R285 (R465). A bay whose spindle
has no confirmed standstill since PD18 powered up stays in SPINDOWN (R286). (Log DEDUCED 42) -/
def State.safeAll (s : State) : State :=
  allBays.foldl (fun s b =>
    if (s.bay b).spin.confirmed = false ∧ (s.bay b).state = .spinDown then s
    else (s.enterSafe b 0x0E01).modSpin b fun p =>
      match p.state with
      | .standstill | .short | .busOff => p
      | _ => { p with state := .safeStop, atSpeed := false }) s

/-- Every open course stops (R199). -/
def State.stopCourses (s : State) : State :=
  (s.courses.filter (fun c => !c.stopped)).foldl (fun s c => s.stopCourse c.handle .stopped) s

/-- Entry to SAFE-STOP, with its cause (R400, R464, R465): immediate stops, every bay SAFE, PD7 to PD16 off, PD17 to PD19
on. (Log DEDUCED 42) -/
def State.enterSafeStop (s : State) (cause : Nat) : State :=
  ((s.stopCourses.safeAll.powerOff (pds 7 16)).motionUp.enterMode .safeStop cause)

/-- The pins and strap samples that entry to RESET leaves: what stands outside the engine. -/
def Bay.pins (y : Bay) : Bay := { discPin := y.discPin, busyPin := y.busyPin }

/-- Everything that entry to RESET discards (R403), with PD1 to PD19 off. What stands: STITCH64, fuses, the
self-reset counter, the bucket, RESET_CAUSE, pattern values for the next boot, and what PD0 watches outside.
(Log DESIGN CHOICE 12; DEDUCED 19, 142) -/
def State.discard (s : State) (m : Mode) : State :=
  { State.reset with
    mode := m
    aon := { s.aon with power := 1, restarts := [], eid := 0, kick0 := 0, kick1 := 0 }
    eave := { bucket := s.eave.bucket }
    pat := s.pat.atReset
    bays := allBays.foldl (fun t b => Tbl.set {} t b (s.bay b).pins) []
    ring := { State.reset.ring with vhtr := s.ring.vhtr }
    freeCtr := s.freeCtr
    sent := s.sent
    pending := s.pending }

/-- RESET_CAUSE takes a new cause (R479). -/
def Aon.withCause (a : Aon) (c : Nat) : Aon := { a with prevCause := a.cause, cause := c }

/-- A self-reset counted in PD0's sliding hour (R482). -/
def Aon.recentResets (a : Aon) (now : Nat) : List Nat := a.selfResets.filter (fun t => now < t + secs 3600)

/-- Entry to RESET, with its RESET_CAUSE code (R403, R479). (Log DEDUCED 19) -/
def State.enterReset (s : State) (cause : Nat) : State :=
  let s1 := if s.tapped then s.send (.switches false) else s
  let s2 := s1.discard .reset
  { s2 with aon := s2.aon.withCause cause }

/-- Entry to DARK with PD0 supplied: PD1 to PD19 off, sensors still sampled (R400, R475, R479). (Log DEDUCED 19) -/
def State.enterDark (s : State) (cause : Nat) : State :=
  let s1 := if s.tapped then s.send (.switches false) else s
  let s2 := s1.discard .dark
  { s2 with aon := s2.aon.withCause cause, eave := { s.eave with parked := [], capOn := false, capSkip := 0 } }

/-- A self-reset begins: in the modes from which SAFE-STOP can be entered it waits there for the spindles, otherwise
it is made at once; the third within the hour enters DARK (R402, R482). (Log DEDUCED 37) -/
def State.selfResetNow (s : State) : State :=
  let recent := s.aon.recentResets s.now ++ [s.now]
  let s1 := { s with aon := { s.aon with selfResets := recent } }
  if 3 ≤ recent.length then s1.enterDark 7 else s1.enterReset 3
def State.beginSelfReset (s : State) : State :=
  if s.mode = .dark ∨ s.mode = .reset then s
  else if s.mode = .safeStop then
    { s with mgmt := { s.mgmt with selfReset := match s.mgmt.selfReset with | none => some s.now | some t => some t } }
  else if s.mode.onRing then
    let s1 := s.enterSafeStop mcRestarts
    { s1 with mgmt := { s1.mgmt with selfReset := some s1.now } }
  else s.selfResetNow

/-- The mode follows the causes of CONSTRAINED: entered at once, left 1 s after the last of them (R399). -/
def State.constrainedCause (s : State) : Bool :=
  decide (1 ≤ s.eave.step ∧ s.eave.step ≤ 3) || s.eave.capOn || (List.range 4).any (fun g => (s.bus g).bridgesOff)
def State.constrain (s : State) : State :=
  if s.constrainedCause then
    let s1 := { s with mgmt := { s.mgmt with clearSince := none } }
    if s1.mode = .active then s1.enterMode .constrained mcAuto else s1
  else if s.mode = .constrained then
    { s with mgmt := { s.mgmt with clearSince := match s.mgmt.clearSince with | none => some s.now | some t => some t } }
  else s

end Sys2Proof.Machine
end

