-- ==== Sys2Proof/Machine/Flags.lean ====
section
/-! DEFINITION. Fixed-point arithmetic of the Girth engine (R232), the status registers' words and their reads and
writes with R9 and R10. -/

namespace Sys2Proof.Machine

open Sys2Proof

/-! ## Q4.27 and Q4.43 (R232) -/

/-- Saturation to Q4.27, and to Q4.43. -/
def sat27 (v : Int) : Int := clampInt (-(2 ^ 30)) (2 ^ 30 - 1) v
def sat43 (v : Int) : Int := clampInt (-(2 ^ 46)) (2 ^ 46 - 1) v

/-- A product rounded to Q4.27, ties away from zero, saturated. (Log DEDUCED 98) -/
def mul27 (a b : Int) : Int := sat27 (roundDiv (a * b) (2 ^ 27))
/-- A product of Q4.27 values rounded to Q4.43 (the integrator's increment). (Log DEDUCED 98) -/
def mul43 (a b : Int) : Int := sat43 (roundDiv (a * b) (2 ^ 11))
/-- A saturating sum, in each format. -/
def add27 (a b : Int) : Int := sat27 (a + b)
def add43 (a b : Int) : Int := sat43 (a + b)
/-- A Q4.27 value in Q4.43, and a Q4.43 value rounded to Q4.27. -/
def wide (a : Int) : Int := a * 2 ^ 16
def narrow (a : Int) : Int := sat27 (roundDiv a (2 ^ 16))

/-- 1.0 in Q4.27. -/
def one27 : Int := 2 ^ 27

/-! ## Reads and writes that clear (R9, R10) -/

/-- W1C with a coinciding event: the set wins (R10). -/
def w1c (bit written event : Bool) : Bool := (bit && !written) || event

/-- RC with coinciding events: the read clears what stood before them, and they stay (R10). -/
def rcCount (cap coincident : Nat) : Nat := min cap coincident

/-! ## The status registers' words -/

/-- SPIN_STAT.STATE and SLED_STAT.STATE (R292, R314). -/
def SpinState.code : SpinState → Nat
  | .standstill => 0 | .detect => 1 | .ramp => 2 | .closed => 3 | .coast => 4 | .catching => 5 | .short => 6
  | .busOff => 7 | .safeStop => 8
def SledState.code : SledState → Nat
  | .notHomed => 0 | .homing => 1 | .rest => 2 | .move => 3 | .follow => 4 | .ramping => 5 | .emergency => 6
  | .busOff => 7

/-- SLOT_STAT (R248). -/
def GSlot.stat (x : GSlot) : Nat :=
  bitNat x.limit * 2 ^ 31 + bitNat x.frozen * 2 ^ 30 + x.gprev % 8 * 2 ^ 27 + bitNat x.switched * 2 ^ 26
    + bitNat x.unfinished * 2 ^ 25 + bitNat x.parityFail * 2 ^ 24 + bitsOf (unsignedOf 31 x.out) 30 15

/-- GIRTH_STAT, GIRTH_OVR_BAY and GIRTH_LOAD (R248). -/
def Girth.stat (g : Girth) : Nat := min 0xFFFF g.overruns * 2 ^ 16 + min 0xFF g.parity * 2 ^ 8
def Girth.ovr (g : Girth) : Nat := g.ovrBay.toNat
def Girth.load (g : Girth) : Nat := g.maxCyc % 2048

/-- SPIN_STAT (R292). -/
def Spindle.stat (p : Spindle) : Nat :=
  p.state.code * 2 ^ 28 + bitNat p.fine * 2 ^ 27 + bitNat p.atSpeed * 2 ^ 26 + bitNat p.lost * 2 ^ 25
    + bitNat p.regenInh * 2 ^ 24 + min 15 p.starts * 2 ^ 20 + p.rpm % 2 ^ 16

/-- BUS_STAT (R292). -/
def Bus.stat (b : Bus) : Nat :=
  bitNat b.chopFault * 2 ^ 31 + bitNat b.chopOn * 2 ^ 30 + bitNat b.regenInh * 2 ^ 29 + bitNat b.bridgesOff * 2 ^ 28
    + bitNat b.limited * 2 ^ 27 + min 255 b.events * 2 ^ 16 + b.mv % 2 ^ 16

/-- SLED_STAT and SLED_POS (R314). -/
def Sled.stat (d : Sled) : Nat :=
  d.state.code * 2 ^ 28 + bitNat d.homed * 2 ^ 27 + bitNat d.stall * 2 ^ 26 + bitNat d.homeSw * 2 ^ 25
    + bitNat d.limitSw * 2 ^ 24 + d.res % 8 * 2 ^ 21 + bitNat d.outward * 2 ^ 20 + bitNat d.softLim * 2 ^ 19
    + (d.speed / 12800000) % 2 ^ 16
def Sled.posReg (d : Sled) : Nat := d.pos % 2 ^ 32

/-- TS_VAL (R479). -/
def Sensor.word (x : Sensor) : Nat := bitNat x.valid * 2 ^ 31 + bitNat x.broken * 2 ^ 30 + unsignedOf 16 x.tj

/-- The LDPC skip of the governor's steps, in eighths (R473). -/
def eaveSkip (step : Nat) : Nat := if step = 0 then 0 else if step = 1 then 1 else 2
/-- The skip in force: the larger of the governor's and the cap's (R467). -/
def Eave.skip (e : Eave) : Nat := max (eaveSkip e.step) (if e.capOn then e.capSkip else 0)
/-- Bits of the parked groups. -/
def Eave.parkedBits (e : Eave) : Nat :=
  (List.range 4).foldl (fun a g => a + bitNat (e.parked.any (fun p => p.1.val == g)) * 2 ^ g) 0

/-- EAVE_STAT and PWR_STAT (R479): E is held in 10 µJ and reported in 1/128 J. -/
def Eave.stat (e : Eave) : Nat :=
  e.step % 8 * 2 ^ 29 + bitNat e.fast * 2 ^ 28 + e.parkedBits * 2 ^ 24 + bitNat e.capOn * 2 ^ 23
    + e.skip % 8 * 2 ^ 20 + e.hottest % 16 * 2 ^ 16 + unsignedOf 16 e.tmax
def Eave.pwrStat (e : Eave) : Nat := e.power % 2 ^ 16 * 2 ^ 16 + e.bucket * 128 / 100000 % 2 ^ 16

/-- RESET_CAUSE (R479). -/
def State.resetCause (s : State) : Nat :=
  s.aon.prevCause % 256 * 2 ^ 24 + s.aon.tripSensor % 256 * 2 ^ 16
    + (s.aon.recentResets s.now).length % 256 * 2 ^ 8 + s.aon.cause % 256

end Sys2Proof.Machine
end

