-- ==== Sys2Proof/Machine/Girth.lean ====
section
/-! DEFINITION. The Girth loop engine: inputs, the control law, gain sets, slot entry and idling, lanes and their
cycles, parity errors, overruns and the commit of its pattern fields (R227 to R250). -/

namespace Sys2Proof.Machine

open Sys2Proof

/-- The owning bay of a slot (R227, R243). -/
def slotBay (s : State) (i : Nat) : Nat :=
  match loopOf i with
  | .laser => (i - 96) / 8
  | .spare => s.pnat 0x0612 i
  | _ => i % 16

/-- A bay's radius in µm, Girth region variable 1 (R296): from the position while HOMED, otherwise 29,050.
(Log DEDUCED 100) -/
def bayRadius (d : Sled) : Nat := if d.homed then (d.pos * 234375 + 5000000) / 10000000 else 29050

/-- The distance to the target of the move in progress, in 1/64 full step, saturated (R297). -/
def sledErrWord (d : Sled) : Int :=
  match d.state, d.target with
  | .move, some t => if d.homed then clampInt (-32767) 32767 (roundDiv ((t : Int) - d.pos) 4) else 0
  | _, _ => 0

/-- Beam `n` of a bay is recording: its write gate is open (R220, R237). -/
def gateOpen (y : Bay) (n : Nat) : Bool :=
  match y.disc, y.write with
  | some d, some w =>
    decide (y.state = .write) &&
      (if w.phase = .replacing then (w.presentSpares d.dtype).any (fun x => psaSpiral (spareAddr d.dtype w.layer x.pos) == n)
       else w.feeding && (recordingAt d.dtype w.layer w.low (w.limit d.dtype) w.j w.bad).any (fun a => psaSpiral a == n))
  | _, _ => false

/-- A source of R230 in Q4.27, latched at boundary k. (Log DESIGN CHOICE 174) -/
def girthSource (s : State) (bay : Nat) (code : Int) : Int :=
  let y := s.bay bay
  let u := y.welt.uplink
  let c := code.toNat
  let n := c % 16
  if c < 8 then u.fe.getD n 0 * 2 ^ 12
  else if 0x10 ≤ c ∧ c < 0x18 then u.te.getD n 0 * 2 ^ 12
  else if 0x20 ≤ c ∧ c < 0x28 then u.sum.getD n 0 * 2 ^ 12
  else if 0x30 ≤ c ∧ c < 0x38 then u.lmon.getD n 0 * 2 ^ 11
  else if c = 0x40 then u.tilt * 2 ^ 12
  else if 0x41 ≤ c ∧ c ≤ 0x44 then u.coils.getD (c - 0x41) 0 * 2 ^ 12
  else if c = 0x45 then u.headTemp * 2 ^ 12
  else if c = 0x46 then y.spin.word * 2 ^ 12
  else if c = 0x47 then sledErrWord y.sled * 2 ^ 12
  else if 0x50 ≤ c ∧ c < 0x56 then (s.slot (16 * (c - 0x50) + bay)).out
  else if 0x60 ≤ c ∧ c < 0x68 then (s.slot (96 + 8 * bay + (c - 0x60))).out
  else 0

/-- The slot's error: the weighted sum of its terms minus its setpoint (R230). (Log DEDUCED 98) -/
def girthError (s : State) (i : Nat) : Int :=
  let bay := slotBay s i
  let x := (List.range 4).foldl
    (fun a t => add27 a (mul27 (s.pval 0x0602 (4 * i + t)) (girthSource s bay (s.pval 0x0601 (4 * i + t))))) 0
  add27 x (-(s.pval 0x0603 i))

/-- Threshold `j` of a slot, each clamped up to the one before it (R238). -/
def girthThr (s : State) (i : Nat) : Nat → Int
  | 0 => -(2 ^ 31)
  | j + 1 => max (girthThr s i j) (s.pval 0x060C (7 * i + j))

/-- The region variable of a slot (R237). -/
def regionVar (s : State) (i : Nat) : Int :=
  let y := s.bay (slotBay s i)
  match s.pnat 0x060B i with
  | 1 => bayRadius y.sled
  | 2 => y.spin.rpm
  | 3 => y.welt.uplink.headTemp
  | 4 => (s.slot i).absErr
  | _ => bitNat (gateOpen y ((i - 96) % 8))

/-- The set of a threshold-mode slot with `n` sets, from the present set `g`, or with no hysteresis while the set is
not known (R238). `t` is the thresholds' function and `h` the hysteresis. (Log DESIGN CHOICE 175) -/
def regionSet (t : Nat → Int) (n : Nat) (h v : Int) (known : Bool) (g : Nat) : Nat :=
  let js := (List.range n).filter (fun j => decide (1 ≤ j))
  if known = false then (js.filter (fun j => decide (t j ≤ v))).length
  else if g + 1 < n ∧ t (g + 1) ≤ v then (js.filter (fun j => decide (t j ≤ v))).foldl max 0
  else if 1 ≤ g ∧ v < t g - h then
    match (List.range (n - 1)).find? (fun j => decide (v < t (j + 1) - h)) with
    | some j => j
    | none => 0
  else g

/-- The gain set of a slot and whether it is forced (R237 to R239). -/
def girthSet (s : State) (i : Nat) (x : GSlot) : Nat × Bool :=
  let forced := if x.force < 8 then x.force else s.pnat 0x060F i
  if forced < 8 then (forced, true)
  else if s.pval 0x060A i = 0 then (s.pnat 0x060E i, false)
  else (regionSet (girthThr s i) (s.pnat 0x0610 i) (s.pval 0x060D i) (regionVar s i) (x.live && !x.forced) x.gprev, false)

/-- One biquad in transposed direct form II: its coefficients, states and input; the output and the new states (R233).
(Log DEDUCED 98) -/
def biquad (b0 b1 b2 a1 a2 z1 z2 y : Int) : Int × Int × Int :=
  let v := add27 (mul27 b0 y) z1
  (v, add27 (add27 (mul27 b1 y) (-(mul27 a1 v))) z2, add27 (mul27 b2 y) (-(mul27 a2 v)))

/-- What one evaluation leaves in a slot (R233, R240 to R242): `entry` zeroes the filters and preloads, `preload`
preloads alone, for a switch or a retune. `clipped` says that a preload moved the output to a limit. -/
structure Evaluated where
  slot : GSlot
  clipped : Bool
  deriving DecidableEq, Repr

/-- One evaluation of a slot (R233). (Log DEDUCED 98; DESIGN CHOICE 173) -/
def evalSlot (s : State) (i : Nat) (x0 : GSlot) (entry : Bool) : Evaluated :=
  let sel := girthSet s i { x0 with live := x0.live && !entry }
  let g := sel.1
  let x := if entry then { x0 with z := (0, 0, 0, 0) } else x0
  let e := girthError s i
  let c (q k : Nat) : Int := s.pval 0x0604 (80 * i + 10 * g + 5 * q + k)
  let r0 := biquad (c 0 0) (c 0 1) (c 0 2) (c 0 3) (c 0 4) x.z.1 x.z.2.1 e
  let r1 := biquad (c 1 0) (c 1 1) (c 1 2) (c 1 3) (c 1 4) x.z.2.2.1 x.z.2.2.2 r0.1
  let y := r1.1
  let p := mul27 (s.pval 0x0605 (8 * i + g)) y
  let yp := if entry then y else x.yprev
  let d := mul27 (s.pval 0x0607 (8 * i + g)) (add27 y (-yp))
  let lo := s.pval 0x0609 (8 * i + g)
  let hi := s.pval 0x0608 (8 * i + g)
  let preload := entry || decide (g ≠ x.gprev) || x.retune
  let prev := if entry then x.applied else x.out
  let frz := decide (s.pval 0x0616 i = 1) || x.hold
  let inc := add43 x.integ (mul43 (s.pval 0x0606 (8 * i + g)) y)
  let pd := add43 (wide p) (wide d)
  let sum := add43 pd inc
  let take := !frz && decide (wide lo ≤ sum ∧ sum ≤ wide hi)
  let i' := if preload then clampInt (wide lo) (wide hi) (add43 (wide prev) (-pd)) else if take then inc else x.integ
  let raw := narrow (add43 pd i')
  let out := clampInt lo hi raw
  { slot := { x with z := (r0.2.1, r0.2.2, r1.2.1, r1.2.2), integ := i', yprev := y, gprev := g, live := true,
                     forced := sel.2, out := out, absErr := e.natAbs / 2048, retune := false,
                     limit := decide (raw < lo ∨ hi < raw), frozen := !preload && !take,
                     switched := x.switched || preload, done := true, late := false }
    clipped := !entry && preload && decide (prev < lo ∨ hi < prev) }

/-- The slot's servo or motor loop runs in its bay's present state (R242, R257 to R269, R278, R303). -/
def loopRuns (s : State) (i : Nat) : Bool :=
  let y := s.bay (slotBay s i)
  let v := y.servo
  let up := decide (y.welt.phase = .up)
  let lit := up && decide (y.state = .focus ∨ y.state = .track ∨ y.state = .read ∨ y.state = .verify ∨ y.state = .write)
  match loopOf i with
  | .focus => lit && v.focusClosed && (match v.jump with | none => true | some j => j.captured)
  | .tracking => lit && v.tracking && v.jump.isNone && (match v.trackJump with | none => true | some j => decide (j.phase = 3))
  | .tilt | .pitch => lit && v.tracking
  | .laser => lit && y.welt.laserEn
  | .spare => up && decide (y.state ≠ .hold ∧ y.state ≠ .safe)
  | .spindle => decide (y.spin.state = .closed ∨ y.spin.state = .safeStop)
  | .sled => (lit && v.tracking && decide (y.sled.state = .follow)) || decide (y.state = .hold ∧ y.sled.state = .follow)

/-- A slot without an evaluation in this window: the output at its destination (R242). -/
def idleSlot (s : State) (i : Nat) (x : GSlot) : GSlot :=
  let y := s.bay (slotBay s i)
  let off := decide (s.pval 0x0600 i ≠ 1)
  let dead := decide (y.state = .safe ∨ y.welt.phase ≠ .up)
  let v : Int := match loopOf i with
    | .laser => if off then one27 else x.applied
    | .sled | .spindle => if off then 0 else x.applied
    | _ => if off ∨ (dead ∧ ¬y.servo.sweeping) then 0 else x.applied
  { x with live := false, done := false, late := false, applied := if x.parityFail then x.applied else v, retune := false }

/-- The parity errors of one window at a slot: retries and whether the slot fails, or restarts as an entry (R246). -/
def parityOf (errs : List GirthParity) (i : Nat) : Nat × Bool × Bool :=
  (errs.foldl (fun a e => match e with | .coefFirst x => if x.val = i then a + 1 else a
                                       | .coefBoth _ => a
                                       | .stateWord x => if x.val = i then a + 1 else a) 0,
   errs.any (fun e => match e with | .coefBoth x => x.val == i | _ => false),
   errs.any (fun e => match e with | .stateWord x => x.val == i | _ => false))

/-- What a lane has done so far in one window. -/
structure LaneRun where
  cycles : Nat := 0
  stuck : Bool := false
  retries : Nat := 0
  /-- slots as they stand after the window -/
  slots : List (Nat × GSlot) := []
  clipped : List Nat := []
  failed : List Nat := []
  deriving DecidableEq, Repr

/-- The cycles of an evaluation (R228). (Log DEDUCED 97) -/
def evalCost (extra : Bool) (retries : Nat) : Nat := 24 + (if extra then 4 else 0) + 32 * retries

/-- One slot of a lane (R228, R233, R244, R246). Every evaluation reads the state before the window (R229); a lane
that has met its deadline uses no further cycle. (Log DEDUCED 97; DESIGN CHOICE 176) -/
def laneSlot (s : State) (errs : List GirthParity) (r : LaneRun) (i : Nat) : LaneRun :=
  let x := s.slot i
  let runs := decide (s.pval 0x0600 i = 1) && !x.parityFail && loopRuns s i
  if runs = false then
    { r with cycles := min 1800 (r.cycles + 2), slots := r.slots ++ [(i, idleSlot s i x)] }
  else
    let pe := parityOf errs i
    if pe.2.1 ∧ r.stuck = false then
      { r with cycles := min 1800 (r.cycles + evalCost false pe.1), failed := r.failed ++ [i]
               slots := r.slots ++ [(i, { x with parityFail := true, live := false, done := false, late := false })] }
    else
      let entry := !x.live || pe.2.2
      let ev := evalSlot s i x entry
      let cost := evalCost (entry || decide (ev.slot.gprev ≠ x.gprev) || x.retune) pe.1
      if r.stuck ∨ 1800 < r.cycles + cost then
        { r with stuck := true, cycles := 1800, retries := if r.stuck then r.retries else r.retries + pe.1
                 slots := r.slots ++ [(i, { x with done := false, late := true, unfinished := true })] }
      else
        { r with cycles := r.cycles + cost, retries := r.retries + pe.1, slots := r.slots ++ [(i, ev.slot)]
                 clipped := if ev.clipped then r.clipped ++ [i] else r.clipped }

/-- One lane's window: the 64 slots with s mod 4 = ℓ in ascending order (R228). (Log DEDUCED 97) -/
def lane (s : State) (errs : List GirthParity) (l : Nat) : LaneRun :=
  (List.range 64).foldl (fun r n => laneSlot s errs r (4 * n + l)) {}

/-- A Girth window (R228 to R246): lanes run from the state latched at the boundary. Nothing runs until the bank is
loaded at PD17's power-up (R242), or while a window is open. (Log DESIGN CHOICE 99, 129) -/
def execGirthWindow (errs : List GirthParity) (s : State) : Host.Outcome State Fault Refusal :=
  if s.powered 17 = false ∨ s.girth.loaded = false ∨ s.girth.windowOpen then .next s
  else
    let rs := (List.range 4).map (lane s errs)
    let s1 := rs.foldl (fun a r => r.slots.foldl (fun a e => a.modSlot e.1 fun _ => e.2) a) s
    let used := (rs.map (·.cycles)).foldl max 0
    let s2 := { s1 with girth := { s1.girth with
      windowOpen := true
      parity := min 0xFF (s1.girth.parity + (rs.map (·.retries)).foldl (· + ·) 0)
      maxCyc := max s1.girth.maxCyc used } }
    let s3 := (rs.flatMap (·.clipped)).foldl (fun a i => a.bayLog (slotBay a i) 0x0603 i) s2
    .next ((rs.flatMap (·.failed)).foldl (fun a i => (a.bayLogFree (slotBay a i) 0x0605).enterHold (slotBay a i)) s3)

/-- The bays that own a slot left unfinished in this window, and those with a slot evaluated in it. -/
def lateBays (s : State) : List Nat :=
  allBays.filter fun b => (List.range 256).any fun i => (s.slot i).late && slotBay s i == b
def busyBays (s : State) : List Nat :=
  allBays.filter fun b => (List.range 256).any fun i => ((s.slot i).done || (s.slot i).late) && slotBay s i == b

/-- The commit of the Girth fields (R241, R246, R247): the values pending come into force together; a slot whose set
in use takes new coefficients retunes, and any new coefficient clears its parity failure. (Log DESIGN CHOICE 99, 177) -/
def girthCommit (s : State) : State :=
  let due := s.pat.pending.filter (fun e => e.point == .girth)
  let s1 := { s with pat := s.pat.settle [.girth] }
  due.foldl (fun a e =>
    let id := e.key / 65536
    let x := e.key % 65536
    let hit : Option (Nat × Nat) :=
      if id = 0x0604 then some (x / 80, x % 80 / 10)
      else if 0x0605 ≤ id ∧ id ≤ 0x0609 then some (x / 8, x % 8) else none
    match hit with
    | none => a
    | some (i, g) => a.modSlot i fun y => { y with parityFail := false, retune := y.retune || (y.live && y.gprev == g) }) s1

/-- The outputs of the window take effect at the boundary (R236); an unfinished slot keeps the one applied (R244). -/
def girthApply (s : State) : State :=
  let gs := s.girth
  { s with girth := { gs with
    windowOpen := false
    slots := gs.slots.foldl (fun t e =>
      Tbl.set {} t e.1 { e.2 with appliedPrev := e.2.applied, applied := if e.2.done then e.2.out else e.2.applied,
                                  done := false, late := false }) gs.slots } }

/-- A slot's output as a downlink actuator command or AUX output, and as LGAIN (R235). -/
def actuatorWord (v : Int) : Int := clampInt (-32767) 32767 (roundDiv (v * 32767) (2 ^ 27))
def lgainWord (v : Int) : Nat := (clampInt 0 65535 (roundDiv (v * 16384) (2 ^ 27))).toNat

end Sys2Proof.Machine
end

