-- ==== Sys2Proof/Machine/Motion.lean ====
section
/-! DEFINITION. The motion units between commands: the sled's ramp, microstepping, following and soft limits, coil
currents and chopper offsets, the speed curve and the spindle speed words (R279 to R283, R295 to R307). -/

namespace Sys2Proof.Machine

open Sys2Proof

/-! ## The sled (R295 to R307) -/

/-- The speed below which a resolution is left downwards, and that at which it is entered upwards (R301). -/
def resUp : Nat → Nat
  | 0 => 0 | 1 => 200 | 2 => 800 | 3 => 1600 | _ => 3200
def resDown : Nat → Nat
  | 0 => 0 | 1 => 180 | 2 => 720 | 3 => 1440 | _ => 2880

/-- The resolution that a speed asks for, from the present one (R301). (Log DEDUCED 114) -/
def wantRes (res v : Nat) : Nat :=
  let up := ([1, 2, 3, 4].filter (fun i => decide (fsSpeed (resUp i) ≤ v))).length
  if res < up then up
  else (([4, 3, 2, 1].find? (fun i => decide (i ≤ res ∧ fsSpeed (resDown i) ≤ v))).getD 0)

/-- Microsteps of one step of a resolution. -/
def resStep : Nat → Nat
  | 0 => 1 | 1 => 4 | 2 => 16 | 3 => 64 | _ => 256

/-- A position exists in a resolution: multiples of its step, and the 45 °e points for full step (R301).
(Log DEDUCED 114) -/
def resHas (res p : Nat) : Bool := if res = 4 then p % 256 == 128 else p % resStep res == 0

/-- A change of resolution at the first position common to both (R301). (Log DEDUCED 114) -/
def stepRes (d : Sled) : Nat :=
  let w := wantRes d.res d.speed
  if w ≠ d.res ∧ resHas w d.pos ∧ resHas d.res d.pos then w else d.res

/-- The sled advances by the steps that its accumulated speed gives. (Log DEDUCED 115) -/
def advance (d : Sled) : Sled :=
  let f := d.frac + d.speed
  let unit := microUnit * resStep d.res
  if unit ≤ f then
    let p := (if d.outward then d.pos + resStep d.res else d.pos + 2 ^ 32 - resStep d.res) % 2 ^ 32
    let d1 := { d with pos := p, frac := f - unit }
    { d1 with res := stepRes d1 }
  else { d with frac := f, res := stepRes d }

/-- One update of a position move, every 1/64 stitch (R298, R299). (Log DEDUCED 115) -/
def moveUpdate (r : Ramp) (d : Sled) : Sled :=
  match d.target with
  | none => d
  | some t =>
    if d.speed = 0 then
      if d.wait then d
      else if t = d.pos then { d with frac := 0 }
      else { d with speed := r.vstart, outward := decide (d.pos < t), frac := 0, overshoot := false }
    else
      let ahead := if d.outward then t - d.pos else d.pos - t
      let rem := ahead * microUnit - d.frac
      if ahead = 0 ∧ !d.overshoot then { d with speed := 0, frac := 0 }
      else if ahead = 0 ∨ d.overshoot ∨ mustStop r d.speed rem then
        let dec := if r.v1 < d.speed then r.d2 else r.d1
        let v := max (d.speed - dec) r.vstop
        if (ahead = 0 ∨ d.overshoot) ∧ v = r.vstop then { d with speed := 0, frac := 0, wait := true, overshoot := false }
        else advance { d with speed := v }
      else if d.speed < r.vmax then
        advance { d with speed := min (d.speed + if d.speed < r.v1 then r.a1 else r.a2) r.vmax }
      else if r.vmax < d.speed then advance { d with speed := max (d.speed - r.d2) r.vmax }
      else advance d

/-- One update of a ramp to rest: stages 5 and 6 (R312). -/
def restUpdate (r : Ramp) (d : Sled) : Sled :=
  if d.speed = 0 then d
  else
    let v := d.speed - (if r.v1 < d.speed then r.d2 else r.d1)
    if v ≤ r.vstop then { d with speed := 0, frac := 0 } else advance { d with speed := v }

/-- The speed of following that still stops at a soft limit on SLED_D1 (R311). -/
def softSpeed (r : Ramp) (dist : Nat) : Nat := Nat.sqrt (2 * r.d1 * (dist * microUnit))

/-- One update of following: the speed slews towards the velocity command at SLED_A1, within ± SLED_VMAX, and towards
a soft limit it is held to what stops there (R303, R311). -/
def followUpdate (r : Ramp) (lo hi : Nat) (d : Sled) : Sled :=
  let v : Int := if d.outward then d.speed else -(d.speed : Int)
  let want := clampInt (-(r.vmax : Int)) r.vmax d.velocity
  let up : Int := softSpeed r (hi - d.pos)
  let down : Int := softSpeed r (d.pos - lo)
  let w := clampInt (-down) up want
  let v1 := if v < w then min (v + r.a1) w else max (v - r.a1) w
  let v2 := clampInt (-down) up v1
  let d1 := { d with speed := v2.natAbs, outward := if v2 = 0 then d.outward else decide (0 < v2),
                     softLim := decide ((hi ≤ d.pos ∧ 0 < want) ∨ (d.pos ≤ lo ∧ want < 0)) }
  if v2 = 0 then d1 else advance d1

/-- One update of a homing search or of its slowing down and back-off (R309). -/
def homeUpdate (r : Ramp) (vhome vback : Nat) (d : Sled) : Sled :=
  match d.homePhase with
  | .search =>
    let v := if d.speed = 0 then min r.vstart vhome else min (d.speed + if d.speed < r.v1 then r.a1 else r.a2) vhome
    advance { d with speed := v, outward := false }
  | .slowing =>
    let v := d.speed - r.d1
    if v ≤ r.vstop then { d with speed := 0, frac := 0, homePhase := .backOff, res := 0, backFrom := d.pos }
    else advance { d with speed := v }
  | .backOff => advance { d with speed := vback, outward := true, res := 0 }
  | .none => d

/-- `n` updates. -/
def iter {α : Type} (f : α → α) : Nat → α → α
  | 0, a => a
  | n + 1, a => iter f n (f a)

/-- One stitch of a sled: 64 updates in its present state (R298, R299, R303, R309, R312). -/
def sledStitch (s : State) (b : Nat) (d : Sled) : Sled :=
  let r := rampOf s b d
  match d.state with
  | .move =>
    if d.wait then
      (if d.next.isSome then { d with wait := false, target := d.next, next := none } else { d with wait := false })
    else iter (moveUpdate r) 64 d
  | .ramping => let e := iter (restUpdate r) 64 d
                if e.speed = 0 then { e with state := if e.homed then .rest else .notHomed, restAt := s.now } else e
  | .follow => iter (followUpdate r (radiusPos (d.val 0x080B)) (radiusPos (d.val 0x080C))) 64 d
  | .homing => iter (homeUpdate r (fsSpeed (d.val 0x0808)) (fsSpeed (d.val 0x0809))) 64 d
  | _ => d

/-- The coil current after a stitch: 256 steps of the difference, one per 20.83 µs, 0.24 a stitch (R304). -/
def Sled.currentAt (d : Sled) (now : Nat) : Nat :=
  let n := min 256 ((now - d.curAt) * 24 / 100)
  ((d.curFrom : Int) + ((d.curTo : Int) - d.curFrom) * n / 256).toNat

/-- Sine of `n` 1/1,024 turns, scaled by 2¹⁵, by the Taylor series to the eleventh power in 2³⁰ arithmetic over the
first quarter turn (R304). -/
def sinQuarter (n : Nat) : Int :=
  let x : Int := (n : Int) * 6588397
  let m (a b : Int) : Int := a * b / 2 ^ 30
  let x2 := m x x
  let t3 := m x2 x / 6
  let t5 := m x2 t3 / 20
  let t7 := m x2 t5 / 42
  let t9 := m x2 t7 / 72
  let t11 := m x2 t9 / 110
  roundDiv (x - t3 + t5 - t7 + t9 - t11) (2 ^ 15)
def sinTurn (n : Nat) : Int :=
  let k := n % 1024
  if k ≤ 256 then sinQuarter k else if k ≤ 512 then sinQuarter (512 - k)
  else if k ≤ 768 then -sinQuarter (k - 512) else -sinQuarter (1024 - k)
def cosTurn (n : Nat) : Int := sinTurn (n + 256)

/-- The current commands of coils A and B in mA × 2¹⁵: I × cosine and I × sine of the electrical angle, a full step
being 90 °e (R300, R304). -/
def coilCommands (d : Sled) : Int × Int := ((d.current : Int) * cosTurn d.pos, (d.current : Int) * sinTurn d.pos)

/-- The adaptive chopper offset of one coil after a stitch, in 1/8 mA: −1/8 of the difference of the mean measured
and commanded magnitudes, within ± SLED_CHOP_HYST (R306). -/
def adaptOffset (off : Int) (meanMa : Nat) (cmd : Int) (hyst : Nat) : Int :=
  clampInt (-(8 * hyst : Int)) (8 * hyst) (off - ((meanMa : Int) - roundDiv cmd.natAbs (2 ^ 15)))

/-- The offsets after a stitch in which the coils' mean currents were measured: adapted only where the command keeps
its sign and has at least 10 % of SLED_IRUN (R306). -/
def adaptOffsets (s : State) (b : Nat) (before d : Sled) (ma mb : Nat) : Sled :=
  let hyst := s.pnat 0x0811 b
  let irun := s.pnat 0x080E b
  let c0 := coilCommands before
  let c1 := coilCommands d
  let ok (p q : Int) : Bool := decide (0 < p * q) && decide ((irun : Int) * 2 ^ 15 ≤ 10 * q.natAbs)
  let d1 := if ok c0.1 c1.1 then
      (if 0 < c1.1 then { d with offAp := adaptOffset d.offAp ma c1.1 hyst }
       else { d with offAn := adaptOffset d.offAn ma c1.1 hyst }) else d
  if ok c0.2 c1.2 then
    (if 0 < c1.2 then { d1 with offBp := adaptOffset d1.offBp mb c1.2 hyst }
     else { d1 with offBn := adaptOffset d1.offBn mb c1.2 hyst }) else d1

/-- The on- and off-thresholds of a coil, in mA × 2¹⁵, from its command, SLED_CHOP_HYST and its offset in 1/8 mA (R305). -/
def chopThresholds (cmd : Int) (hyst : Nat) (off : Int) : Int × Int :=
  ((cmd.natAbs : Int) - hyst * 2 ^ 14 + off * 2 ^ 12, (cmd.natAbs : Int) + hyst * 2 ^ 14 + off * 2 ^ 12)
/-- A current that the comparators meet at a time in ns (R305): driven in the command's sense up to the off-threshold, then decaying down
to the on-threshold, fast while the command lies below the current by more than SLED_CHOP_HYST and until the current is in the band.
An interval lasts 0.5 µs at least, and 10 µs pass between the starts of two drives. `slowOnly` inhibits the fast decay (R313).
(Log DESIGN CHOICE 164) -/
def chopStep (cmd : Int) (hyst : Nat) (off : Int) (slowOnly : Bool) (c : Chopper) (e : Nat × Int) : Chopper :=
  let x := (if 0 ≤ cmd then e.2 else -e.2) * 2 ^ 15
  let th := chopThresholds cmd hyst off
  let held := decide (c.since + 500 ≤ e.1)
  let fast := decide ((cmd.natAbs : Int) + hyst * 2 ^ 15 < x) && !slowOnly
  match c.mode with
  | .off => { mode := .drive, since := e.1, driveAt := e.1 }
  | .drive => if th.2 ≤ x && held then { c with mode := if fast then .fast else .slow, since := e.1 } else c
  | .slow =>
    if decide (x ≤ th.1) && held && decide (c.driveAt + 10000 ≤ e.1) then { mode := .drive, since := e.1, driveAt := e.1 }
    else if fast && held then { c with mode := .fast, since := e.1 }
    else c
  | .fast => if (decide (x ≤ th.2) || slowOnly) && held then { c with mode := .slow, since := e.1 } else c
/-- The choppers over a stitch; without drive the bridges are off (R305, R313). -/
def chopStitch (s : State) (b : Nat) (driven : Bool) (d : Sled) (ta tb : List (Nat × Int)) : Sled :=
  if driven = false then { d with chopA := {}, chopB := {} }
  else
    let hyst := s.pnat 0x0811 b
    let c := coilCommands d
    let slow := (s.bus (groupOf b)).regenInh
    let run (cmd offP offN : Int) (x : Chopper) (l : List (Nat × Int)) : Chopper :=
      l.foldl (fun (a : Chopper) (e : Nat × Int) => chopStep cmd hyst (if 0 ≤ cmd then offP else offN) slow a (5000 * s.now + e.1, e.2)) x
    { d with chopA := run c.1 d.offAp d.offAn d.chopA ta, chopB := run c.2 d.offBp d.offBn d.chopB tb }

/-! ## The spindle (R279 to R283) -/

/-- The curve's value at a radius in µm, in 1/16 rpm (R279): position held to 1/256, end segments extrapolated
within the sled's travel, at most 12,000 rpm. -/
def curveAt (s : State) (um : Nat) : Nat :=
  let r : Int := clampInt 28000 59500 um
  let x : Int := (r - 30000) * 63 * 256 / 28000
  let i := (clampInt 0 62 (x / 256)).toNat
  let f := x - (i : Int) * 256
  let p0 := s.pval 0x070C i
  let p1 := s.pval 0x070C (i + 1)
  (clampInt 0 192000 (p0 + f * (p1 - p0) / 256)).toNat

/-- The curve's value for a bay, at its present radius. (Log DEDUCED 100) -/
def bayCurve (s : State) (b : Nat) : Nat := curveAt s (bayRadius (s.bay b).sled)

/-- One stitch of the slewed reference, in 1/16 rpm × 12,500: SPIN_SLEW rpm per second is SPIN_SLEW × 16 ÷ 200,000
sixteenths of an rpm a stitch (R280). -/
def slewRef (slew : Nat) (ref goal : Nat) : Nat :=
  let g := goal * 12500
  if ref < g then min (ref + slew) g else max (ref - slew) g

/-- The COARSE word, and the FINE word of an S0 channel rate in kbit/s (R281), saturated. -/
def coarseErr (ref : Nat) (rpm : Nat) : Int :=
  if ref = 0 then 0 else roundDiv (32768 * 50 * ((ref : Int) - (rpm : Int) * 16 * 12500)) ref
def fineErr (f : Nat) : Int := roundDiv (32768 * 50 * (640000 - (f : Int))) 640000
def coarseWord (ref : Nat) (rpm : Nat) : Int := clampInt (-32767) 32767 (coarseErr ref rpm)
def fineWord (f : Nat) : Int := clampInt (-32767) 32767 (fineErr f)

/-- The two modes agree within 0.5 %, a quarter of the full scale of 2 %, before they saturate (R281). -/
def modesAgree (ref rpm f : Nat) : Bool := decide ((coarseErr ref rpm - fineErr f).natAbs ≤ 8192)

/-! ## Commutation and short braking (R275, R277, R289) -/

/-- The two conducting phases of a sector, by sign: the pairs of R277 in the order of the rotor's turn.
(Log DESIGN CHOICE 169) -/
def sectorPair (k : Nat) : List Int :=
  match k % 6 with
  | 0 => [1, -1, 0]
  | 1 => [1, 0, -1]
  | 2 => [0, 1, -1]
  | 3 => [-1, 1, 0]
  | 4 => [-1, 0, 1]
  | _ => [0, -1, 1]
/-- The share of each phase at an angle in 0.1 °e, in 1/1,000 (R275): at each commutation one phase falls and the next rises
linearly over `soft` °e, centred on it. (Log DESIGN CHOICE 169) -/
def phaseDrive (soft theta : Nat) : List Int :=
  let k := theta % 3600 / 600
  let r := theta % 600
  let w := 5 * soft
  let blend (a b : List Int) (n : Nat) : List Int :=
    List.zipWith (fun x y => (1000 * x * (2 * w - n) + 1000 * y * n) / (2 * w : Nat)) a b
  if w = 0 then (sectorPair k).map (1000 * ·)
  else if r < w then blend (sectorPair (k + 5)) (sectorPair k) (r + w)
  else if 600 ≤ r + w then blend (sectorPair k) (sectorPair (k + 1)) (r + w - 600)
  else (sectorPair k).map (1000 * ·)
/-- The open-loop angle of a ramp `n` stitches after its start (R277): from the detected sector, the rate rises linearly to 600 rpm
over SPIN_RAMP_T and is then held. -/
def openAngle (sector poles t n : Nat) : Nat :=
  600 * sector + (if n ≤ t then 9 * poles * n * n / (100 * max 1 t) else 9 * poles * t / 100 + 18 * poles * (n - t) / 100)
/-- The low sides in short braking (R289): on until the phase current reaches the limit, off until it falls to half of that; below
1,500 rpm they stay on. -/
def shortGate (rpm lim : Nat) (on : Bool) (ma : Nat) : Bool :=
  if rpm < 1500 then true else if on then decide (ma < lim) else decide (2 * ma ≤ lim)

end Sys2Proof.Machine
end

