-- ==== Sys2Proof/Machine/Welt.lean ====
section
/-! DEFINITION. The Welt links: training, uplink and downlink stitch frames, missing frames, head temperature and the
end of a Girth window (R182, R210 to R226, R244, R245). -/

namespace Sys2Proof.Machine

open Sys2Proof

/-- The frame that blocks received on a bay's UL carry, none where they carry no whole one, and the state whose descrambler has them
behind it (R210, R211). -/
def receiveUl (s : State) (b : Nat) (l : List LaneWord) : List Byte × State :=
  let r := receiveBlocks (s.bay b).welt.ulHist l
  ((r.1).getD [], s.modWelt b fun w => { w with ulHist := r.2 })

/-- A training attempt fails (R213): the next begins, or the link is dead and the bay in SAFE. -/
def failTraining (s : State) (b : Nat) : State :=
  let n := (s.bay b).welt.attempts + 1
  let s1 := s.modWelt b fun w => { w with attempts := n }
  if s1.pnat 0x0682 b ≤ n then
    let s2 := s1.modWelt b fun w => { w with phase := .dead, laserEn := false }
    if (s2.bay b).state = .safe then s2.bayLogFree b 0x0601 else s2.enterSafe b 0x0601
  else startTraining s1 b

/-- UL block lock (R213 event 3): the Ping frames follow, one per stitch. -/
def execUlBlockLock (b : BayId) (s : State) : Host.Outcome State Fault Refusal :=
  if (s.bay b).welt.phase = .idle then .next (s.modWelt b fun w => { w with phase := .pinging, pings := 0 }) else .next s

/-- Four times L, in UI: twice the median of round trip less turnaround over the Echoes (R213). (Log DEDUCED 101) -/
def linkQuarters (es : List (Half × Nat)) : Nat :=
  let v := (es.map (·.2)).mergeSort (fun a b => decide (a ≤ b))
  let n := v.length
  if n % 2 = 1 then 2 * v.getD (n / 2) 0 else v.getD (n / 2 - 1) 0 + v.getD (n / 2) 0
/-- L to the nearest UI, of which APPLY_DELAY is a whole number (R214). (Log DEDUCED 101) -/
def linkLatency (es : List (Half × Nat)) : Nat := (linkQuarters es + 2) / 4

/-- The Echoes are judged (R213): fewer than four, or L above 100 ns, which is 625 UI, fails the attempt; otherwise Link parameters
follow every stitch. (Log DEDUCED 101) -/
def judgeEchoes (s : State) (b : Nat) : State :=
  let es := (s.bay b).welt.echoes
  if es.length < 4 ∨ 4 * 625 < linkQuarters es then failTraining s b
  else s.modWelt b fun w => { w with phase := .params, latency := linkLatency es }

/-- An Echo frame: its token answers a Ping, and its turnaround is taken off the round trip (R213, R214). -/
def execEcho (b : BayId) (blocks : List LaneWord) (roundTripUi : Nat) (s0 : State) : Host.Outcome State Fault Refusal :=
  let rx := receiveUl s0 b blocks
  let bytes := rx.1
  let s := rx.2
  let w := (s.bay b).welt
  let tok := BitVec.ofNat 16 (beAt bytes 2 2)
  let known := (List.range w.pings).any (fun n => Config.pingToken b.val n == tok) && !w.echoes.any (fun e => e.1 == tok)
  if w.phase = .pinging ∧ bytes.length = 12 ∧ byteAt bytes 0 = 0x83 ∧ weltCrc bytes ∧ known then
    let s1 := s.modWelt b fun w => { w with echoes := w.echoes ++ [(tok, roundTripUi - beAt bytes 4 2)] }
    .next (if (s1.bay b).welt.echoes.length = 8 then judgeEchoes s1 b else s1)
  else .next s

/-- A companion as its Identity frame describes it (R215). -/
def parseIdentity (l : List Byte) : Companion :=
  { rev := beAt l 1 1, vendor := beAt l 2 2, part := beAt l 4 2, silicon := beAt l 6 1, beams := beAt l 7 1,
    tw := beAt l 8 2, peakLimit := beAt l 10 2, caps := beAt l 12 1, serial := beAt l 16 8 }

/-- The engine accepts a companion (R215). -/
def Companion.accepted (c : Companion) : Bool :=
  decide (c.rev / 16 = 1 ∧ c.beams = 8 ∧ c.tw ≤ 1000 ∧ c.caps % 8 = 7)

/-- A disc whose hints ask for more OPC start power than the companion may give is read-only in the bay (R215).
(Log DEDUCED 126) -/
def Disc.limited (d : Disc) (peak : Nat) : Disc :=
  if d.hints.any (fun h => decide (peak < h.startPower)) then { d with readOnly := true } else d

/-- An Identity frame (R213 event 6, R215). (Log DEDUCED 126) -/
def execIdentity (b : BayId) (blocks : List LaneWord) (s0 : State) : Host.Outcome State Fault Refusal :=
  let rx := receiveUl s0 b blocks
  let bytes := rx.1
  let s := rx.2
  if (s.bay b).welt.phase = .params ∧ bytes.length = 32 ∧ byteAt bytes 0 = 0x82 ∧ weltCrc bytes then
    let c := parseIdentity bytes
    if c.accepted then
      .next ((s.modWelt b fun w => { w with companion := some c, phase := .frames, good := 0 }).modDisc b
        (fun d => d.limited c.peakLimit))
    else .next (failTraining (s.bayLogFree b 0x0602) b)
  else .next s

/-- 1,000 stitches after event 1 without a link UP, the attempt fails (R213). -/
def execWeltTrainingTimeout (b : BayId) (s : State) : Host.Outcome State Fault Refusal :=
  let w := (s.bay b).welt
  match w.phase with
  | .idle | .pinging | .params | .frames => if w.startedAt + 1000 ≤ s.now then .next (failTraining s b) else .next s
  | _ => .next s

/-! ## Head temperature (R182) -/

/-- The level of a band: 0 to 3, with 4 and 5 for the two limits. -/
def HeadBand.level : HeadBand → Nat
  | .ht0 => 0 | .ht1 => 1 | .ht2 => 2 | .ht3 => 3 | .over70 => 4 | .over72 => 5
def headBandOf : Nat → HeadBand
  | 0 => .ht0 | 1 => .ht1 | 2 => .ht2 | 3 => .ht3 | 4 => .over70 | _ => .over72

/-- The band of a head temperature in 1/16 °C, from the band before: entered upwards at its lower bound, left
downwards 2 °C below it (R182). -/
def nextBand (old : HeadBand) (t : Int) : HeadBand :=
  if 72 * 16 ≤ t then .over72
  else if 70 * 16 ≤ t then .over70
  else
    let bound (j : Nat) : Int := if j = 1 then 400 else if j = 2 then 640 else 880
    let l := min 3 old.level
    let up := ([1, 2, 3].filter (fun j => decide (bound j ≤ t))).length
    if l < up then headBandOf up
    else if 1 ≤ l ∧ t ≤ bound l - 32 then
      match [0, 1, 2].find? (fun j => decide (t ≤ bound (j + 1) - 32)) with
      | some j => headBandOf j
      | none => .ht0
    else headBandOf l

/-- A head temperature reading, or an invalid or missing one, which counts as 72 °C or above: at 70 °C a running
feed makes a boundary stop, at 72 °C a slot-end stop, and a session's stopped runs resume at 68 °C or below (R182).
(Log DESIGN CHOICE 15) -/
def headTemperature (s : State) (b : Nat) (t : Option Int) : State :=
  let w := (s.bay b).welt
  let band := match t with | some v => nextBand w.band v | none => .over72
  let cool := match t with | some v => decide (v ≤ 68 * 16) | none => false
  let hot := decide (4 ≤ band.level)
  let stops := match (s.bay b).write with | some w => w.recorded || w.feeding | none => false
  let s1 := s.modWelt b fun w =>
    { w with band := band, hotStop := (hot && stops) || (w.hotStop && !cool), headTemp := match t with | some v => v | none => w.headTemp }
  if band = .over72 then s1.slotEndStop b else if hot then s1.boundaryStop b else s1

/-! ## Uplink stitch frames (R216, R224) -/

/-- Signed 16-bit fields from an offset, `step` bytes apart. -/
def signedFields (l : List Byte) (off step n : Nat) : List Int :=
  (List.range n).map (fun i => signedOf 16 (beAt l (off + step * i) 2))

/-- An uplink stitch frame decoded (R216); `old` is the frame before, whose head temperature holds when TEMP_VALID is
clear. -/
def parseUplink (old : Uplink) (l : List Byte) : Uplink :=
  { stat := byteAt l 1
    sampleStitch := BitVec.ofNat 16 (beAt l 2 2)
    appliedStitch := BitVec.ofNat 16 (beAt l 4 2)
    headTemp := if (byteAt l 1).toNat.testBit 4 then signedOf 16 (beAt l 6 2) else old.headTemp
    fe := signedFields l 8 8 8
    te := signedFields l 10 8 8
    sum := signedFields l 12 8 8
    lmon := (List.range 8).map (fun i => (beAt l (14 + 8 * i) 2 : Int))
    tilt := signedOf 16 (beAt l 72 2)
    coils := signedFields l 74 2 4
    regs := beAt l 82 1
    lastLoad := beAt l 83 1
    streamSeg := BitVec.ofNat 16 (beAt l 84 2)
    supply := beAt l 86 2
    fault := BitVec.ofNat 32 (beAt l 88 4) }

/-- An uplink frame is good at this boundary (R216, R224). (Log DEDUCED 102) -/
def uplinkGood (s : State) (l : List Byte) : Bool :=
  decide (l.length = 128) && byteAt l 0 == 0x81 && weltCrc l && beAt l 2 2 == s.stitch16.toNat

/-- A missing uplink frame (R224, R225): the second in a row gives HOLD with the actuator commands of the boundary
before, the eighth retrains the link with the bay in SAFE. (Log DEDUCED 102) -/
def missUplink (s : State) (b : Nat) : State :=
  let n := (s.bay b).welt.missing + 1
  let s1 := s.modWelt b fun w => { w with missing := n, spanMissing := w.spanMissing + 1, good := 0 }
  if (s1.bay b).welt.phase ≠ .up then s1
  else if n = 2 then
    let s2 := headTemperature (s1.enterHold b) b none
    if (s2.bay b).state = .hold then
      (opticalSlots b).foldl (fun a i => a.modSlot i fun x => { x with applied := x.appliedPrev }) s2
    else s2
  else if n = 8 then startTraining (s1.enterSafe b 0x060B) b
  else s1

/-- An uplink frame absent at the uplink-complete point (R224). -/
def execUplinkFrameMissing (b : BayId) (s : State) : Host.Outcome State Fault Refusal :=
  match (s.bay b).welt.phase with
  | .frames | .up => .next (missUplink s b)
  | _ => .next s

/-- The record registers after a good frame: a load that REGS shows is confirmed, and may be switched to (R221).
(Log DEDUCED 92) -/
def takeRegs (w : Welt) (u : Uplink) : Welt :=
  let held := (List.range 4).filter (fun r => u.regs.testBit (4 + r))
  match w.loadReg with
  | some r => if held.contains r ∧ u.lastLoad % 4 = r then { w with regsLoaded := held, nextReg := some r, loadReg := none }
              else { w with regsLoaded := held }
  | none => { w with regsLoaded := held }

/-- A good uplink stitch frame (R213 event 7, R216, R218, R221): samples, temperature and status. A frame that is not
good at this boundary counts as missing. (Log DEDUCED 102) -/
def execUplinkStitchFrame (b : BayId) (blocks : List LaneWord) (s0 : State) : Host.Outcome State Fault Refusal :=
  let rx := receiveUl s0 b blocks
  let bytes := rx.1
  let s := rx.2
  match (s.bay b).welt.phase with
  | .frames | .up =>
    if uplinkGood s bytes = false then .next (missUplink s b)
    else
      let u := parseUplink (s.bay b).welt.uplink bytes
      let s1 := s.modWelt b fun w =>
        let w1 := takeRegs { w with uplink := u, missing := 0, good := w.good + 1 } u
        if w1.phase = .frames ∧ 16 ≤ w1.good then { w1 with phase := .up, attempts := 0 } else w1
      let s2 := headTemperature s1 b (if u.stat.toNat.testBit 4 then some u.headTemp else none)
      let s3 := if u.stat.toNat.testBit 3 ∧ (s2.bay b).state = .write then
          ((s2.immediateStop b).urgent b ucWstop).modBay b fun y => { y with state := .track } else s2
      .next (if u.stat.toNat.testBit 5 ∧ (s3.bay b).state = .write then s3.slotEndStop b else s3)
  | _ => .next s

/-! ## The downlink (R217, R244, R245) -/

/-- The output a slot sends for the next boundary: this window's, or the one applied. -/
def nextOutput (s : State) (i : Nat) : Int :=
  let x := s.slot i
  if x.done then x.out else x.applied

/-- AUX output `n` of a bay: the enabled spare slot that drives it, or 0 (R217, R243). -/
def auxOutput (s : State) (b n : Nat) : Int :=
  match ((List.range 32).map (· + 224)).find? (fun i =>
      decide (s.pval 0x0600 i = 1 ∧ s.pnat 0x0611 i = n + 1 ∧ s.pnat 0x0612 i = b)) with
  | some i => actuatorWord (nextOutput s i)
  | none => 0

/-- A signed 16-bit word, big-endian. -/
def word16 (v : Int) : List Byte := beBytes 2 (unsignedOf 16 v)

/-- The downlink stitch frame of a bay for the next boundary (R217). -/
def downlinkFrame (s : State) (b : Nat) : List Byte :=
  let w := (s.bay b).welt
  let ctrl := bitNat w.laserEn + 2 * bitNat w.hold + 4 * bitNat (w.loadReg.isSome)
  weltSeal (([0x01] : List Byte) ++ beBytes 1 ctrl ++ beBytes 2 ((s.now + 1) % 65536) ++ beBytes 2 w.readPwr ++ zeros 2
    ++ (laserSlots b).flatMap (fun i => beBytes 2 (lgainWord (nextOutput s i)))
    ++ (opticalSlots b).flatMap (fun i => word16 (actuatorWord (nextOutput s i)))
    ++ beBytes 1 (match w.loadReg with | some r => r | none => 0) ++ zeros 3
    ++ (w.loadRec ++ zeros 32).take 32
    ++ (List.range 4).flatMap (fun n => word16 (auxOutput s b n)) ++ zeros 16)

/-- The downlink launch at 4.20 µs (R208, R244, R245): unfinished slots make an overrun, a third in a row is to put the
bay in HOLD at the next boundary, and the frames go out with the outputs there are. Without an open window nothing is launched.
(Log DESIGN CHOICE 99) -/
def execDownlinkLaunch (s : State) : Host.Outcome State Fault Refusal :=
  if s.girth.windowOpen = false ∨ s.powered 19 = false then .next s
  else
    let late := lateBays s
    let busy := busyBays s
    let s1 := { s with girth := { s.girth with
      overruns := if late.isEmpty then s.girth.overruns else min 0xFFFF (s.girth.overruns + 1)
      ovrBay := s.girth.ovrBay ||| BitVec.ofNat 16 (powerMask late) } }
    let s2 := busy.foldl (fun a b => a.modBay b fun y =>
      { y with overrunRow := if late.contains b then y.overrunRow + 1 else 0
               overrunDue := y.overrunDue || (late.contains b && decide (y.overrunRow = 2)) }) s1
    .next (allBays.foldl (fun a b =>
      match (a.bay b).welt.phase, Nat.decLt b 16 with
      | .frames, .isTrue h => (a.idleLanes ⟨b, h⟩ (blocksAt a.now 26250)).sendFrame ⟨b, h⟩ (downlinkFrame a b)
      | .up, .isTrue h => (a.idleLanes ⟨b, h⟩ (blocksAt a.now 26250)).sendFrame ⟨b, h⟩ (downlinkFrame a b)
      | _, _ => a) s2)

end Sys2Proof.Machine
end

