-- ==== Sys2Proof/Machine/Servo.lean ====
section
/-! DEFINITION. The optical servo of a bay: focus, layer jumps, tracking, registration, seeks, turn-back, and the
events of a stitch that they count (R251 to R273). -/

namespace Sys2Proof.Machine

open Sys2Proof

/-- A pattern value of the acquisition in progress: the value it took at its start (R273). -/
def acqVal (s : State) (b id : Nat) : Int :=
  match (s.bay b).servo.acq.find? (fun e => e.1 == id) with
  | some e => e.2
  | none => s.pval id b

/-- The values that an acquisition takes at its start (R273). -/
def acqTake (s : State) (b : Nat) : List (Nat × Int) :=
  [0x0640, 0x0641, 0x0642, 0x0643, 0x0645, 0x064C, 0x064E].map (fun id => (id, s.pval id b))

/-- A Girth pattern value written by the engine itself, which enters through the commit (R247, R253, R256). -/
def State.girthWrite (s : State) (id idx : Nat) (v : Int) : State := { s with pat := s.pat.pend id idx v }

/-- The hints of the disc in a bay, mounted or mounting. -/
def bayHints (y : Bay) : List Hint :=
  match y.disc with
  | some d => d.hints
  | none => match y.mount with
    | some m => (match m.mastered with | some d => d.hints | none => [])
    | none => []

/-- READ_PWR of a layer (R149, R257): the acquisition power until a DIB copy is accepted, then the DIB's read power,
raised by recovery step 6. -/
def readPower (s : State) (b layer : Nat) : Nat :=
  let y := s.bay b
  let base := match (bayHints y)[layer]? with
    | some h => h.readPower
    | none => (acqVal s b 0x064E).toNat
  if y.servo.powerUp = 0 then base else y.servo.powerUp

/-- The mean of b3 and b4 of a sample list, doubled. -/
def mean34 (l : List Int) : Int := l.getD 3 0 + l.getD 4 0

/-- Focus setpoint of an offset in nm for a layer's PPF, and tracking setpoint for PPT (R253), in Q4.27. -/
def focusSetpoint (nm : Int) (ppf span : Nat) : Int := roundDiv (nm * ppf * 2 ^ 12) (max 1 span)
def trackSetpoint (nm : Int) (ppt : Nat) : Int := roundDiv (nm * 3141592653589793 * ppt * 2 ^ 12) (240 * 10 ^ 15)

/-- The bay's offsets written to the setpoints (R148, R253). -/
def writeOffsets (s : State) (b : Nat) : State :=
  let v := (s.bay b).servo
  (s.girthWrite 0x0603 b (focusSetpoint v.focusOff (Tbl.get 0 v.ppf v.layer) (acqVal s b 0x0640).toNat)).girthWrite
    0x0603 (16 + b) (trackSetpoint v.trackOff v.ppt)

/-- A default gain × 16,384 ÷ peak-to-peak, the factor clamped to 0.5 to 2.0 (R256); the second part says that the
clamp acted. -/
def normGain (d : Int) (pp : Nat) : Int × Bool :=
  if 32768 < pp then (roundDiv d 2, true)
  else if pp < 8192 then (2 * d, true)
  else (roundDiv (d * 16384) pp, false)

/-- Gain normalisation of one set of a loop (R256). -/
def normSet (s : State) (b slot set_ : Nat) (l : Loop) (pp : Nat) : State :=
  let kp := normGain (kpDefault l set_) pp
  let ki := normGain (kiDefault l set_) pp
  let s1 := (s.girthWrite 0x0605 (8 * slot + set_) kp.1).girthWrite 0x0606 (8 * slot + set_) ki.1
  if kp.2 then s1.bayLogFree b 0x0606 else s1
def normFocus (s : State) (b layer : Nat) : State :=
  if acqVal s b 0x064C = 1 then normSet s b b layer .focus (Tbl.get 0 (s.bay b).servo.ppf layer) else s
def normTracking (s : State) (b : Nat) : State :=
  if acqVal s b 0x064C = 1 then [0, 1, 2, 3].foldl (fun a g => normSet a b (16 + b) g .tracking (a.bay b).servo.ppt) s
  else s

/-- Lasers of a bay to read power (R255, R257): LASER_EN = 1 and HOLD = 0; the laser setpoints are written before the
first time after BOOT. -/
def lasersOn (s : State) (b layer : Nat) : State :=
  let s1 := if (s.bay b).welt.laserInit then s
    else (laserSlots b).foldl (fun a i => a.girthWrite 0x0603 i (q27 1 2)) s
  s1.modWelt b fun w => { w with laserInit := true, laserEn := true, hold := false, readPwr := readPower s b layer }

/-- The integrators of tilt, pitch match and sled follow held or freed (R259). -/
def holdOthers (s : State) (b : Nat) (h : Bool) : State :=
  [32 + b, 48 + b, 64 + b].foldl (fun a i => a.modSlot i fun x => { x with hold := h }) s
/-- The integrators of focus and tracking held or freed (R260). -/
def holdFocus (s : State) (b : Nat) (h : Bool) : State :=
  [b, 16 + b].foldl (fun a i => a.modSlot i fun x => { x with hold := h }) s

/-- The bay enters FOCUS and sweeps from deep to shallow (R257); it is to end on layer `want`. -/
def enterFocus (s : State) (b want : Nat) : State :=
  let s1 := s.modBay b fun y =>
    { y with state := .focus
             servo := { y.servo.abandon with sweeping := true, sweepAt := s.now, sweeps := 0, wantLayer := want
                                             acq := acqTake s b, regFails := 0 } }
  let s2 := lasersOn (holdFocus (holdOthers s1 b false) b false) b 0
  s2.forceSet b 8

/-- Tracking acquisition begins (R261): the tracking slot is idle with the command in force, and the measurement of PPT starts. -/
def startTracking (s : State) (b : Nat) : State :=
  (holdOthers (s.modServo b fun v => { v with tracking := false, trackAcq := some s.now, trackSettling := false, registered := false,
                                              trackJump := none, teSpan := none, acq := acqTake s b, settled := 0 }) b false).forceSet (16 + b) 8

/-- A layer jump of one layer towards `final` starts (R259). The flywheel unlocks (R109). -/
def startJump (s : State) (b final : Nat) : State :=
  let v := (s.bay b).servo
  let dest := if v.layer < final then v.layer + 1 else v.layer - 1
  let s1 := s.modServo b fun v =>
    { v with jump := some { src := v.layer, dest := dest, final := final, at_ := s.now, captured := false,
                            base := (s.slot b).applied },
             tracking := false, trackAcq := none, settled := 0,
             registered := false, trackJump := none, lowSum := 0, offCount := 0 }
  (holdOthers s1 b true).modChan b fun c => { c with fly := .unlocked, coast := 0 }

/-- Registration fails once more (R268): another acquisition, focus again after REG_TRIES in a row, and after a second
series SAFE, or the end of the MOUNT. (Log DEDUCED 107) -/
def regFailure (s : State) (b : Nat) : State :=
  let v := (s.bay b).servo
  if v.regFails + 1 < s.pnat 0x064D b then
    startTracking (s.modServo b fun v => { v with regFails := v.regFails + 1 }) b
  else if v.regSeries = 0 then
    let s1 := s.endRun b
    (enterFocus s1 b v.layer).modServo b fun v => { v with regSeries := 1, regFails := 0 }
  else if (s.bay b).mount.isSome then ((s.bayLogFree b 0x0608).failMount b 4).enterSpindown b
  else s.enterSafe b 0x0608

/-! ## The stitch's counts -/

/-- The focus sweep's command at this stitch: +0.90 to −0.90 of full scale over FOC_SWEEP (R257). -/
def sweepCommand (s : State) (b : Nat) (v : Servo) : Int :=
  let n := msec (acqVal s b 0x0641).toNat
  q27 90 100 - q27 180 100 * min n (s.now - v.sweepAt) / max 1 n

/-- |mean TE of b3 and b4| exceeds `nm` nanometres (R253, R262). -/
def beyondTrack (te2 : Int) (ppt nm : Nat) : Bool :=
  decide (nm * 3141592653589793 * ppt * 2 < te2.natAbs * 240 * 10 ^ 15)

/-- The tracking slot has been entered again after a track jump (R267). -/
def Servo.reentered (v : Servo) : Bool := match v.trackJump with | some j => decide (j.phase = 3) | none => false
/-- The extremes of TE over the first 100 stitches of a tracking acquisition (R261). -/
def measureSpan (now : Nat) (acq : Option Nat) (te : Int) (span : Option (Int × Int)) : Option (Int × Int) :=
  match acq, span with
  | some t, none => if now ≤ t + 100 then some (te, te) else none
  | some t, some x => if now ≤ t + 100 then some (min te x.1, max te x.2) else some x
  | none, x => x
/-- PPT, the peak-to-peak TE of the mean of b3 and b4 (R253, R261). -/
def spanPpt (span : Option (Int × Int)) : Nat := match span with | some x => ((x.2 - x.1) / 2).toNat | none => 0
/-- TE passes zero between two stitches, rising or falling. -/
def teRises (prev te : Int) : Bool := decide (prev < 0 ∧ 0 ≤ te)
def teFalls (prev te : Int) : Bool := decide (0 < prev ∧ te ≤ 0)
/-- What a stitch's samples do to a bay's servo counts: settling, focus loss and off-track (R257, R259 to R262).
(Log DEDUCED 105) -/
def servoCounts (s : State) (b : Nat) (y : Bay) : Servo :=
  let v := y.servo
  let u := y.welt.uplink
  let layer := match v.jump with | some j => j.dest | none => v.layer
  let fe := (mean34 u.fe).natAbs
  let te := (mean34 u.te).natAbs
  let settled :=
    if v.focusSettling then (if fe * 10 < Tbl.get 0 v.ppf layer then v.settled + 1 else 0)
    else if v.trackSettling then (if te * 10 < v.ppt then v.settled + 1 else 0)
    else if v.reentered then
      (if (mean34 u.te - trackSetpoint v.trackOff v.ppt / 2 ^ 11).natAbs * 10 < v.ppt then v.settled + 1 else 0)
    else v.settled
  let closed := v.focusClosed && v.jump.isNone && !v.focusSettling
  let low := closed && decide (mean34 u.sum * 50 < s.pnat 0x0644 b * Tbl.get 0 v.sref v.layer)
  let lim := if y.state = .write then s.pnat 0x0647 b else s.pnat 0x0646 b
  let off := v.tracking && !v.trackSettling && v.trackJump.isNone && v.jump.isNone && beyondTrack (mean34 u.te) v.ppt lim
  { v with settled := settled, lowSum := if low then v.lowSum + 1 else 0
           teSpan := measureSpan s.now v.trackAcq (mean34 u.te) v.teSpan, tePrev := v.teNow, teNow := mean34 u.te
           offCount := if low then v.offCount else if off then v.offCount + 1 else 0 }

/-- A quarter of full scale, in the direction of a layer jump: shallower layers lie towards −1 (R257, R259).
(Log DEDUCED 104) -/
def jumpKick (j : Jump) : Int := if j.src < j.dest then -(q27 1 4) else q27 1 4

/-- One stitch of a layer jump that has not captured (R259): kick until |FE| passes its peak, coast until the sum has
fallen and rises above 25 % of SREF, then a brake as long as the kick. (Log DEDUCED 104) -/
def jumpStitch (fe : Nat) (sum2 : Int) (sref : Nat) (j : Jump) : Jump :=
  let high := decide (2 * sum2 > sref)
  match j.phase with
  | 0 => if fe < j.lastFe then { j with phase := 1, lastFe := fe } else { j with kick := j.kick + 1, lastFe := fe }
  | 1 => if high then j else { j with phase := 2 }
  | 2 => if high then { j with phase := 3, left := j.kick } else j
  | 3 => if j.left ≤ 1 then { j with phase := 4, left := 0 } else { j with left := j.left - 1 }
  | _ => j
/-- The focus command of a jump (R259). (Log DEDUCED 104) -/
def jumpCommand (j : Jump) : Int :=
  match j.phase with
  | 0 => sat27 (j.base + jumpKick j)
  | 3 => sat27 (j.base - jumpKick j)
  | _ => j.base
def runJump (s : State) (b : Nat) : State :=
  let y := s.bay b
  match y.servo.jump with
  | some j =>
    if j.captured then s
    else
      let k := jumpStitch (mean34 y.welt.uplink.fe).natAbs (mean34 y.welt.uplink.sum) (Tbl.get 0 y.servo.sref j.src) j
      (s.modServo b fun v => { v with jump := some k }).modSlot b fun x => { x with applied := jumpCommand k }
  | none => s

/-- One stitch of a track jump (R267): the kick; the coast until `n` − ½ tracks have passed, the crossing of the other slope
after `n` − 1 of the stabilising one, TE rising outward; the brake, as long as the kick; then re-entry.
(Log DEDUCED 106) -/
def trackStitch (prev te : Int) (j : TrackJump) : TrackJump :=
  let out := decide (0 < j.n)
  let count := if (if out then teRises prev te else teFalls prev te) then j.count + 1 else j.count
  let half := decide (j.n.natAbs ≤ j.count + 1) && (if out then teFalls prev te else teRises prev te)
  match j.phase with
  | 0 =>
    if half then { j with phase := 2, left := j.kick, count := count }
    else if Config.trackKick j.n.natAbs ≤ j.kick then { j with phase := 1, count := count }
    else { j with kick := j.kick + 1, count := count }
  | 1 => if half then { j with phase := 2, left := j.kick, count := count } else { j with count := count }
  | 2 => if j.left ≤ 1 then { j with phase := 3, left := 0 } else { j with left := j.left - 1 }
  | _ => j
/-- The tracking command of a jump (R267): a kick of a quarter of full scale in its direction, and the brake against it. -/
def trackCommand (j : TrackJump) : Int :=
  let k := if j.n < 0 then -(q27 1 4) else q27 1 4
  match j.phase with
  | 0 => sat27 (j.base + k)
  | 2 => sat27 (j.base - k)
  | _ => j.base
def runTrackJump (s : State) (b : Nat) : State :=
  let v := (s.bay b).servo
  match v.trackJump with
  | some j =>
    if j.phase = 3 then s
    else
      let k := trackStitch v.tePrev v.teNow j
      let s1 := (s.modServo b fun v => { v with trackJump := some k, settled := if k.phase = 3 then 0 else v.settled }).modSlot (16 + b)
        fun x => { x with applied := trackCommand k }
      if k.phase = 3 then s1.forceSet (16 + b) 4 else s1
  | none => s

/-- One stitch of a bay's servo: the sweep's command, the counts, the freeze of R260, the end of tracking and tilt
acquisition (R256, R257, R260, R261), and the ramp of the actuators to 0 in SPINDOWN (R269). (Log DEDUCED 105) -/
def servoStitch (s : State) (b : Nat) : State :=
  let y := s.bay b
  let v := servoCounts s b y
  let s1 := s.modServo b fun _ => v
  let s2 := runTrackJump (runJump (if v.sweeping then s1.modSlot b fun x => { x with applied := sweepCommand s1 b v } else s1) b) b
  let s3 := if v.lowSum = 1 ∧ y.servo.lowSum = 0 then holdFocus s2 b true
            else if v.lowSum = 0 ∧ 0 < y.servo.lowSum then holdFocus s2 b false else s2
  let s4 := if v.trackSettling ∧ 64 ≤ v.settled then
      normTracking ((s3.forceSet (16 + b) 8).modServo b fun v => { v with trackSettling := false, settled := 0 }) b
    else s3
  let s5 := match v.tiltAcq with
    | some t => if t + 200 ≤ s.now then (s4.forceSet (32 + b) 8).modServo b fun v => { v with tiltAcq := none } else s4
    | none => s4
  if y.state = .spinDown then
    let n := s.now - y.downAt
    (opticalSlots b).foldl (fun a i => a.modSlot i fun x =>
      { x with applied := if 64 ≤ n then 0 else x.applied * (64 - (n : Int)) / (65 - (n : Int)) }) s5
  else s5

/-! ## Focus commands -/

/-- A sweep ends without an S-curve that qualifies (R258): FOC_ACQ_TRIES sweeps without one end the MOUNT, or put a
bay with a mounted disc in SAFE. -/
def execFocusSweepEnd (b : BayId) (s : State) : Host.Outcome State Fault Refusal :=
  let v := (s.bay b).servo
  if (s.bay b).state = .focus ∧ v.sweeping ∧ v.sweepAt + msec (acqVal s b 0x0641).toNat ≤ s.now then
    if v.sweeps + 1 < (acqVal s b 0x0642).toNat then
      .next (s.modServo b fun v => { v with sweeps := v.sweeps + 1, sweepAt := s.now })
    else if (s.bay b).mount.isSome then .next (((s.bayLogFree b 0x0607).failMount b 3).enterSpindown b)
    else .next (s.enterSafe b 0x0607)
  else .next s

/-- The S-curve of L0 qualifies: the mean sum exceeds FOC_SUM_MIN of full scale (R257 steps 3 and 4). The focus slot
enters with set 6 forced; PPF and SREF are recorded. (Log DESIGN CHOICE 2) -/
def execFocusCapture (b : BayId) (ppf sref : Nat) (s : State) : Host.Outcome State Fault Refusal :=
  let v := (s.bay b).servo
  if (s.bay b).state = .focus ∧ v.sweeping ∧ (acqVal s b 0x0643).toNat * 32767 < sref * 100 then
    .next ((s.modServo b fun v =>
      { v with sweeping := false, focusClosed := true, focusSettling := true, settled := 0, layer := 0
               ppf := Tbl.set 0 v.ppf 0 ppf, sref := Tbl.set 0 v.sref 0 sref }).forceSet b 6)
  else .next s

/-- Focus has settled for 64 stitches (R257 step 5, R259): the layer's set takes effect, gains are normalised, and the
next jump or the tracking acquisition follows. An intermediate layer is held for 16 stitches only. -/
def execFocusSettled (b : BayId) (s : State) : Host.Outcome State Fault Refusal :=
  let v := (s.bay b).servo
  match v.jump with
  | none =>
    if v.focusSettling ∧ 64 ≤ v.settled then
      let s1 := (s.girthWrite 0x060E b 0).forceSet b 8
      let s2 := normFocus (s1.modServo b fun v => { v with focusSettling := false, settled := 0, layer := 0 }) b 0
      let s3 := writeOffsets s2 b
      .next (if v.wantLayer = 0 then startTracking s3 b else startJump s3 b v.wantLayer)
    else .next s
  | some j =>
    if j.captured = false then .next s
    else if j.dest ≠ j.final then
      if j.at_ + 16 ≤ s.now then
        .next (startJump (s.modServo b fun v => { v with layer := j.dest, jump := none, focusSettling := false }) b j.final)
      else .next s
    else if 64 ≤ v.settled then
      let s1 := (s.girthWrite 0x060E b j.dest).forceSet b 8
      let s2 := s1.modServo b fun v => { v with jump := none, layer := j.dest, focusSettling := false, settled := 0 }
      let s3 := (normFocus s2 b j.dest).modWelt b fun w => { w with readPwr := readPower s2 b j.dest }
      .next (startTracking (writeOffsets (holdOthers s3 b false) b) b)
    else .next s

/-- The first zero crossing after the brake, within 160 stitches of the jump's start (R259): the focus slot enters
with set 7 forced. -/
def execLayerJumpCapture (b : BayId) (ppf sref : Nat) (s : State) : Host.Outcome State Fault Refusal :=
  match (s.bay b).servo.jump with
  | some j =>
    if j.captured = false ∧ j.phase = 4 ∧ s.now ≤ j.at_ + 160 then
      .next ((s.modServo b fun v =>
        { v with jump := some { j with captured := true, at_ := s.now }, focusSettling := true, settled := 0
                 ppf := Tbl.set 0 v.ppf j.dest ppf, sref := Tbl.set 0 v.sref j.dest sref }).forceSet b 7)
    else .next s
  | none => .next s

/-- No capture within 160 stitches: the engine acquires focus again and jumps from L0 (R259). -/
def execLayerJumpTimeout (b : BayId) (s : State) : Host.Outcome State Fault Refusal :=
  match (s.bay b).servo.jump with
  | some j =>
    if j.captured = false ∧ j.at_ + 160 ≤ s.now then
      .next (enterFocus ((holdOthers s b false).endRun b) b j.final)
    else .next s
  | none => .next s

/-- Focus loss: the mean sum below FOC_LOST_PCT of SREF for 8 stitches (R260, R263). -/
def execFocusLoss (b : BayId) (s : State) : Host.Outcome State Fault Refusal :=
  let y := s.bay b
  if y.servo.lowSum < 8 then .next s
  else
    let s1 := holdFocus s b false
    match y.state with
    | .write => .next (s1.enterHold b)
    | .read | .verify | .track => .next (enterFocus (s1.endRun b) b y.servo.layer)
    | _ => .next s

/-- Off-track: one stitch in WRITE, two in any other state with tracking closed (R262, R263). Focus loss in the same
window governs (R272). -/
def execOffTrack (b : BayId) (s : State) : Host.Outcome State Fault Refusal :=
  let y := s.bay b
  if 8 ≤ y.servo.lowSum then .next s
  else if y.state = .write ∧ 1 ≤ y.servo.offCount then .next (s.enterHold b)
  else if 2 ≤ y.servo.offCount ∧ (y.state = .read ∨ y.state = .verify ∨ y.state = .track) then
    let s1 := (s.endRun b).modBay b fun y => { y with state := .track }
    .next (startTracking (s1.modServo b fun v => { v with offCount := 0 }) b)
  else .next s

/-! ## Tracking, registration, jumps and seeks -/

/-- TE has passed zero at a speed below `nm` nanometres a stitch, by the slope of R253 (R261). -/
def slowCrossing (v : Servo) (nm : Nat) : Bool :=
  (teRises v.tePrev v.teNow || teFalls v.tePrev v.teNow)
    && decide ((v.teNow - v.tePrev).natAbs * 240 * 10 ^ 15 < nm * 3141592653589793 * spanPpt v.teSpan * 2)
/-- A zero crossing of the stabilising slope after 100 stitches of measurement, slower than TRK_CAPTURE (R261): tracking enters
with set 4 forced, tilt with set 4 for 200 stitches, pitch match and sled follow directly (R264). -/
def execTrackingCapture (b : BayId) (s : State) : Host.Outcome State Fault Refusal :=
  match (s.bay b).servo.trackAcq with
  | some t =>
    if t + 100 ≤ s.now ∧ slowCrossing (s.bay b).servo (acqVal s b 0x0645).toNat then
      let s1 := s.modServo b fun v =>
        { v with tracking := true, trackAcq := none, ppt := spanPpt v.teSpan, trackSettling := true, settled := 0
                 tiltAcq := some s.now, offCount := 0 }
      let s2 := ((s1.forceSet (16 + b) 4).forceSet (32 + b) 4).forceSet (sledSlot b) 8
      .next (writeOffsets (s2.modSled b fun d =>
        if d.state = .rest ∨ d.state = .ramping then
          ({ d with state := .follow, velocity := 0, taken := sledTake s2 b }).ramp s2.now (s2.pnat 0x080E b) else d) b)
    else .next s
  | none => .next s

/-- No crossing qualified within 4,000 stitches (R261): a registration failure. -/
def execTrackingAcqTimeout (b : BayId) (s : State) : Host.Outcome State Fault Refusal :=
  match (s.bay b).servo.trackAcq with
  | some t => if t + 4000 ≤ s.now then .next (regFailure s b) else .next s
  | none => .next s

/-- A track jump of `n` tracks, outward positive (R267): the tracking slot goes idle with the kick applied, and the integrator
of sled follow freezes (R264). -/
def startTrackJump (s : State) (b : Nat) (n : Int) : State :=
  let j : TrackJump := { n := n, at_ := s.now, base := (s.slot (16 + b)).applied, kick := 1 }
  (((s.modServo b fun v => { v with trackJump := some j, registered := false }).modChan b
    fun c => { c with fly := .unlocked, coast := 0 }).modSlot (16 + b)
    fun x => { x with applied := trackCommand j }).modSlot (sledSlot b) fun x => { x with hold := true }

/-- The tracks by which spirals that are wrong by σ are corrected, outward positive (R268). (Log DEDUCED 107) -/
def plainFix (sigma : Nat) : Int := if sigma ≤ 4 then -(sigma : Int) else 8 - (sigma : Int)
def ridgeFix (r : Nat) : Int := if r ≤ 4 then (r : Int) else -(8 - (r : Int))

/-- The disc of a bay is of the ridged type, as far as the bay knows (R36). -/
def bayRidged (y : Bay) : Bool :=
  match y.disc with
  | some d => decide (d.dtype = .ridged)
  | none => match y.mount with
    | some m => decide (m.dtype = some .ridged)
    | none => false

/-- What registration finds (R268): nothing readable yet, a wrong layer, spirals wrong by a jump, or correct. -/
inductive RegFind
  | nothing
  | layer (v : Nat)
  | jump (n : Int)
  | correct
  deriving DecidableEq, Repr
def regFind (y : Bay) (words : List (BeamId × BitVec 60)) (ridgeBeam : Option BeamId) : RegFind :=
  let good := words.filter (fun w => awGood w.2)
  match good.head? with
  | none => .nothing
  | some w =>
    if awLayer w.2 ≠ y.servo.layer then .layer (awLayer w.2)
    else if bayRidged y || ridgeBeam.isSome then
      match ridgeBeam with
      | none => .nothing
      | some r => if r.val = 0 then .correct else .jump (ridgeFix r.val)
    else match good.find? (fun w => decide (awSpiral w.2 ≠ w.1.val)) with
      | some w => .jump (plainFix ((awSpiral w.2 + 8 - w.1.val) % 8))
      | none => .correct

/-- Turns from a grid position to another, by the radii of R29: 1.92 µm a turn, outward positive. (Log DEDUCED 106) -/
def turnsBetween (c target : Int) : Int := ((gridRadiusNm target : Int) - gridRadiusNm c) / 1920

/-- A sled move to a radius in µm, within the soft limits (R298, R299, R311). The follow slot takes set 7 (R303). -/
def sledMove (s : State) (b um : Nat) : State :=
  (s.modSled b fun d => d.moveTo s b um).forceSet (sledSlot b) 7

/-- A seek goes on from a correct registration at grid position `c` (R266): a long seek beyond JUMP_MAX turns, a turn
jump for the rest, or its end. (Log DEDUCED 106) -/
def seekOn (s : State) (b : Nat) (c : Int) : State :=
  match (s.bay b).servo.seek with
  | none => s
  | some k =>
    let t := turnsBetween c k.grid - 1
    if s.pnat 0x0648 b < t.natAbs then
      let goal := (gridRadiusNm k.grid - 2 * 1920) / 1000
      let s1 := (s.modServo b fun v => { v with tracking := false, trackAcq := none, registered := false }).modSlot (16 + b)
        fun x => { x with applied := 0 }
      sledMove s1 b goal
    else if t ≠ 0 then startTrackJump s b (8 * t)
    else s.modServo b fun v => { v with seek := none }

/-- A registration check (R268). Correct registration takes FOCUS to TRACK and a seek on; a wrong layer leads to layer
jumps, wrong spirals to a track jump; REG_TRIES attempts in a row lead back to focus. (Log DEDUCED 107) -/
def execRegistrationCheck (b : BayId) (words : List (BeamId × BitVec 60)) (ridgeBeam : Option BeamId) (s : State) :
    Host.Outcome State Fault Refusal :=
  let y := s.bay b
  if y.servo.tracking = false ∨ y.servo.trackSettling ∨ y.servo.trackJump.isSome ∨ y.servo.jump.isSome then .next s
  else match regFind y words ridgeBeam with
    | .nothing => .next s
    | .layer v =>
      if y.servo.regFails + 1 < s.pnat 0x064D b then
        let s1 := (s.endRun b).modServo b fun w => { w with regFails := w.regFails + 1, layer := v }
        .next (startJump s1 b y.servo.layer)
      else .next (regFailure s b)
    | .jump n =>
      if y.servo.regFails + 1 < s.pnat 0x064D b then
        .next (startTrackJump (s.modServo b fun w => { w with regFails := w.regFails + 1 }) b n)
      else .next (regFailure s b)
    | .correct =>
      let c := match (words.filter (fun w => awGood w.2)).head? with | some w => awGrid w.2 | none => y.servo.parkGrid
      let s1 := s.modBay b fun y =>
        { y with state := if y.state = .focus then .track else y.state
                 servo := { y.servo with registered := true, regFails := 0, regSeries := 0, parkGrid := c } }
      .next (seekOn s1 b c)

/-- A track jump ends (R267): settled for 32 stitches after re-entry, with the force removed, or as a registration failure once its
72 + 2n stitches have passed. Registration is checked next. -/
def execTrackJumpDone (b : BayId) (s : State) : Host.Outcome State Fault Refusal :=
  let v := (s.bay b).servo
  match v.trackJump with
  | some j =>
    let s1 := (s.modServo b fun v => { v with trackJump := none }).modSlot (sledSlot b) fun x => { x with hold := false }
    if j.at_ + 72 + 2 * j.n.natAbs < s.now then .next (regFailure s1 b)
    else if v.reentered ∧ 32 ≤ v.settled then .next (s1.forceSet (16 + b) 8)
    else .next s
  | none => .next s

/-- Turn-back (R265): a bay in TRACK with no run jumps 8 tracks inward once per revolution. -/
def execTurnBack (b : BayId) (s : State) : Host.Outcome State Fault Refusal :=
  let y := s.bay b
  if y.state = .track ∧ y.chan.run.isNone ∧ y.servo.tracking ∧ y.servo.seek.isNone ∧ y.servo.trackJump.isNone
      ∧ y.servo.jump.isNone then .next (startTrackJump s b (-8))
  else .next s

/-- Firmware starts a seek (R266) of a bay in TRACK between runs: layer jumps first, then what registration finds. -/
def execSeek (b : BayId) (layer : Fin 6) (grid : Int) (s : State) : Host.Outcome State Fault Refusal :=
  let y := s.bay b
  if s.fwRuns ∧ y.state = .track ∧ y.chan.run.isNone ∧ y.servo.tracking ∧ y.servo.seek.isNone then
    let s1 := s.modServo b fun v => { v with seek := some ⟨layer.val, grid⟩ }
    let s2 := s1.modChan b fun c => { c with fly := .unlocked, coast := 0 }
    .next (if layer.val = y.servo.layer then seekOn s2 b y.servo.parkGrid else startJump s2 b layer.val)
  else .next s

end Sys2Proof.Machine
end

