-- ==== Sys2Proof/Machine/Spindle.lean ====
section
/-! DEFINITION. The spindles and the motor bus: demand, starts, handover, rotor loss, catch, braking, standstill and the
bus rules (R274 to R294), with the discs' presence and the loader handshake (R269, R285, R496). -/

namespace Sys2Proof.Machine

open Sys2Proof

/-! ## Bays at standstill -/

/-- The disc-present line as the engine treats it (R496): inactive while LD_BUSY_N is active. -/
def Bay.present (y : Bay) : Bool := y.discPin && !y.busyPin

/-- The spindle stands still, confirmed since PD18 last powered up (R285, R286). -/
def Bay.still (y : Bay) : Bool := decide (y.spin.state = .standstill) && y.spin.confirmed

/-- LD_PERMIT (R496). (Log DEDUCED 145) -/
def Bay.permit (y : Bay) : Bay :=
  { y with ldPermit := y.still && y.disc.isNone && y.mount.isNone && decide (y.state = .empty ∨ y.state = .loaded) }

/-- The cause of a bay's SAFE has cleared (R271): what the cause's rule watches no longer holds. -/
def safeCleared (s : State) (b : Nat) : Bool :=
  let y := s.bay b
  match y.safeCause with
  | 0x0601 | 0x060B => decide (y.welt.phase = .up)
  | 0x060C => decide (s.pval 0x0680 b = 1 ∧ y.welt.phase = .up)
  | 0x060D => !y.outOfService
  | 0x0706 | 0x0707 => !(s.bus (groupOf b)).bridgesOff
  | 0x0704 => y.still
  | 0x0E01 => decide (s.mode ≠ .safeStop)
  | _ => true

/-- A bay comes to LOADED, or to EMPTY when its disc-present line is inactive; an empty bay holds no disc (R269). -/
def toLoaded (s : State) (b : Nat) : State :=
  s.modBay b fun y =>
    ({ y with state := if y.present then .loaded else .empty, disc := if y.present then y.disc else none,
              chan := {} }).permit

/-- RELEASE commands that waited for standstill complete (R378), and the disc is mounted no longer. -/
def endReleases (s : State) (b : Nat) : State :=
  let rs := (s.bay b).releasing
  if rs.isEmpty then s
  else rs.foldl (fun a r => if (a.cmd? r.1 r.2).isSome then a.finish r.1 r.2 0 stSuccess 0 0 0 else a)
    (s.modBay b fun y => { y with releasing := [], disc := none })

/-- What standstill brings a bay (R269, R285, R375, R378): SPINDOWN ends in LOADED or EMPTY, and so does SAFE without a
mounted disc once its cause has cleared; with the disc-present line inactive any bay becomes EMPTY.
(Log DEDUCED 84, 145) -/
def settleBay (s : State) (b : Nat) : State :=
  let y := s.bay b
  if y.still = false then s
  else match y.state with
    | .spinDown => toLoaded (endReleases s b) b
    | .safe =>
      let s1 := endReleases s b
      if y.outOfService then s1
      else if (s1.bay b).disc.isNone ∧ safeCleared s1 b then toLoaded s1 b
      else if (s1.bay b).disc.isSome ∧ y.present = false then toLoaded s1 b
      else s1
    | .empty => if y.present then toLoaded s b else s
    | .loaded => if y.present then s.modBay b (·.permit) else toLoaded s b
    | _ => s

/-- A qualified change of DISC_N (R269, R285, R496): acted on at standstill only; above it a line that goes inactive is
logged, fails a mount with reason 7 and stops the spindle. -/
def presenceLost (s : State) (b : Nat) : State :=
  let y := s.bay b
  if y.spin.confirmed = false then s
  else if y.still then settleBay s b
  else
    let s0 := (s.bayLogFree b 0x0705).failMount b 7
    let s1 := match s0.courseOfBay b with
      | some c => if (s0.bay b).write.isSome then s0.stopCourse c.handle .stopped else s0
      | none => s0
    if y.state = .spinDown then s1
    else if y.state = .safe then s1.modSpin b fun p => if p.state = .closed then { p with state := .safeStop } else p
    else s1.enterSpindown b

/-- DISC_N of a bay changes (R285, R496). -/
def execDiscPresentChange (b : BayId) (active : Bool) (s : State) : Host.Outcome State Fault Refusal :=
  let was := (s.bay b).present
  let s1 := s.modBay b fun y => { y with discPin := active }
  let is := (s1.bay b).present
  .next (if s.powered 18 = false ∨ was = is then s1 else if is then settleBay s1 b else presenceLost s1 b)

/-- LD_BUSY_N of a bay changes (R496): active, it makes DISC_N read inactive and fails a mount in progress. -/
def execLdBusyChange (b : BayId) (active : Bool) (s : State) : Host.Outcome State Fault Refusal :=
  let was := (s.bay b).present
  let s1 := s.modBay b fun y => { y with busyPin := active }
  let is := (s1.bay b).present
  if s.powered 18 = false then .next s1
  else
    let s2 := if active ∧ (s1.bay b).mount.isSome then (s1.failMount b 7).enterSpindown b else s1
    .next (if was = is then s2 else if is then settleBay s2 b else presenceLost s2 b)

/-! ## Demand (R284) -/

/-- Sectors of waiting commands that target a bay's disc: read and verify, write, and rebuild-peer sectors.
(Log DEDUCED 110) -/
def waitingSectors (s : State) (b : Nat) : Nat :=
  let cmds := (s.tags.map (fun c => (c.sectors.filter (fun x =>
    (match x.bay with | some v => v.val == b | none => false) && x.outcome == .pending)).length)).foldl (· + ·) 0
  let writes := match s.courseOfBay b with
    | some c =>
      let i := c.bays.findIdx (fun v => v.val == b)
      (c.buf.filter (fun e => csnDisc c.dtype c.d e.csn == if i < c.d then i else 0)).length
    | none => 0
  let peers := match (s.bay b).disc with
    | some d => (match d.binding with
      | .member c _ _ _ _ => ((s.recov.sessions.filter (fun r => r.course == c)).map
          (fun r => r.rows.length * r.dtype.dataSectors)).foldl (· + ·) 0
      | _ => 0)
    | none => 0
  cmds + writes + peers

/-- A command of the urgent or interactive class waits for a bay's disc. -/
def urgentWaits (s : State) (b : Nat) : Bool :=
  s.tags.any fun c => decide (c.cls ≤ 1) &&
    (c.sectors.any (fun x => (match x.bay with | some v => v.val == b | none => false) && x.outcome == .pending)
     || (match s.course? c.sqe.handle with
         | some k => decide (c.sqe.opcode = 2 ∨ c.sqe.opcode = 4 ∨ c.sqe.opcode = 5) && k.bays.any (fun v => v.val == b)
         | none => false))

/-- A bay's disc is one that a rebuild session reads. -/
def rebuildNeeds (s : State) (b : Nat) : Bool :=
  match (s.bay b).disc with
  | some d => (match d.binding with
    | .member c _ _ _ _ => s.recov.sessions.any (fun r => r.course == c)
    | _ => false)
  | none => false

/-- A bay has demand. (Log DEDUCED 110) -/
def hasDemand (s : State) (b : Nat) : Bool :=
  decide (0 < waitingSectors s b) || urgentWaits s b || (s.bay b).write.isSome || rebuildNeeds s b

/-- A demand start: LOADED with a mounted disc goes to SPINUP, and a DIB copy is read before any run (R271, R284).
(Log DEDUCED 110) -/
def execDemandStart (b : BayId) (s : State) : Host.Outcome State Fault Refusal :=
  let y := s.bay b
  if s.fwRuns ∧ s.mode.data ∧ y.state = .loaded ∧ y.disc.isSome ∧ y.outOfService = false ∧ y.releasing = []
      ∧ (s.pnat 0x070E b ≤ waitingSectors s b ∨ urgentWaits s b) then
    .next (s.modBay b fun y =>
      { y with state := .spinUp, dibCheck := true, ldPermit := false, chan := { y.chan with fly := .unlocked, coast := 0 } })
  else .next s

/-- A demand stop: no waiting sector for SPIN_OFF_IDLE takes the bay through SPINDOWN to LOADED (R284).
(Log DEDUCED 110) -/
def execDemandStop (b : BayId) (s : State) : Host.Outcome State Fault Refusal :=
  let y := s.bay b
  match y.spin.idleSince with
  | some t =>
    if s.fwRuns ∧ y.state = .track ∧ y.disc.isSome ∧ y.mount.isNone ∧ hasDemand s b = false ∧ t + secs (s.pnat 0x070F b) ≤ s.now then
      .next (s.enterSpindown b)
    else .next s
  | none => .next s

/-! ## Starts (R277, R278) -/

/-- The six peaks place the rotor: they differ by 3 % or more. The answer is the pair with the highest peak. -/
def detect (peaks : List Nat) : Option Nat :=
  let hi := peaks.foldl max 0
  let lo := peaks.foldl min hi
  if peaks.length = 6 ∧ 3 * hi ≤ 100 * (hi - lo) ∧ 0 < hi then some (peaks.idxOf hi) else none

/-- A failed start (R278): short braking to standstill, then another start, or SAFE, or the end of the MOUNT. -/
def failStart (s : State) (b : Nat) : State :=
  let s1 := s.modSpin b fun p =>
    { p with state := .short, eventAt := s.now, starts := min 15 (p.starts + 1), startsRow := p.startsRow + 1, good := 0 }
  if s1.pnat 0x0711 b ≤ (s1.bay b).spin.startsRow then
    let s2 := s1.modSpin b fun p => { p with startsRow := 0 }
    if (s2.bay b).mount.isSome then ((s2.bayLogFree b 0x0701).failMount b 2).enterSpindown b else s2.enterSafe b 0x0701
  else s1

/-- The pattern values that a start takes (R294). -/
def Spindle.take (s : State) (b : Nat) (p : Spindle) : Spindle :=
  { p with poles := s.pnat 0x0700 b, phaseR := s.pnat 0x0701 b, phaseL := s.pnat 0x0702 b, ke := s.pnat 0x0703 b
           ipdT := s.pnat 0x0707 b, imax := s.pnat 0x0704 b, startI := s.pnat 0x0708 b, handRes := s.pnat 0x070A b, rampT := s.pnat 0x0709 b }

/-- A start (R277): position detection, twice at most, then the open-loop ramp. A spindle that still turns is stopped
under the fallback of R289 first (R293). -/
def execSpindleStart (b : BayId) (first second : List Nat) (s : State) : Host.Outcome State Fault Refusal :=
  let y := s.bay b
  if s.powered 18 = false ∨ y.state ≠ .spinUp ∨ (s.bus (groupOf b)).bridgesOff then .next s
  else match y.spin.state with
    | .standstill =>
      if y.spin.confirmed = false ∨ 0 < y.spin.startsRow then .next s
      else
        let s1 := s.modSpin b (Spindle.take s b)
        match detect first, detect second with
        | some k, _ => .next (s1.modSpin b fun p => { p with state := .ramp, rampAt := s.now, sector := k, good := 0 })
        | none, some k => .next (s1.modSpin b fun p => { p with state := .ramp, rampAt := s.now, sector := k, good := 0 })
        | none, none => .next (failStart s1 b)
    | .detect =>
      match detect first, detect second with
      | some k, _ => .next (s.modSpin b fun p => { p with state := .ramp, rampAt := s.now, sector := k, good := 0 })
      | none, some k => .next (s.modSpin b fun p => { p with state := .ramp, rampAt := s.now, sector := k, good := 0 })
      | none, none => .next (failStart s b)
    | .coast | .safeStop => .next (s.modSpin b fun p => { p with state := .short, eventAt := s.now, atSpeed := false })
    | _ => .next s

/-- The spindle slot enters under R242 with a demand preloaded. -/
def enterSpinSlot (s : State) (b : Nat) (demand : Int) : State :=
  s.modSlot (spinSlot b) fun x => { x with live := false, done := false, applied := demand, appliedPrev := demand, out := demand }

/-- Closed-loop drive: the slewed reference starts from the observer's speed. -/
def closeLoop (s : State) (b : Nat) (rpm : Nat) (demand : Int) : State :=
  enterSpinSlot (s.modBay b fun y =>
    { y with catching := false
             spin := { y.spin with state := if s.mode = .safeStop then .safeStop else .closed, startsRow := 0, good := 0, badRes := 0, overs := 0, jumped := false
                                   ref := rpm * 200000, fine := false, fineCount := 0, flagged := 0 } }) b demand

/-- Handover (R277): the residual has stayed below SPIN_HANDOVER_RES for 64 stitches at 600 rpm. -/
def execHandover (b : BayId) (s : State) : Host.Outcome State Fault Refusal :=
  let p := (s.bay b).spin
  if p.state = .ramp ∧ p.rampAt + msec p.rampT ≤ s.now ∧ 64 ≤ p.good then
    .next (closeLoop s b p.rpm (q27 p.startI 100))
  else .next s

/-- No handover within 1 s of reaching 600 rpm: the start fails (R278). -/
def execStartFailure (b : BayId) (s : State) : Host.Outcome State Fault Refusal :=
  let p := (s.bay b).spin
  if p.state = .ramp ∧ p.rampAt + msec p.rampT + secs 1 ≤ s.now then .next (failStart s b) else .next s

/-- The next start of a row, 200 ms after standstill (R278): position detection begins. -/
def execStartRetry (b : BayId) (s : State) : Host.Outcome State Fault Refusal :=
  let y := s.bay b
  if y.state = .spinUp ∧ y.still ∧ 0 < y.spin.startsRow ∧ y.spin.stillAt + msec 200 ≤ s.now then
    .next (s.modSpin b fun p => { Spindle.take s b p with state := .detect })
  else .next s

/-! ## Rotor loss and catch (R287 to R289) -/

/-- The spindle brakes by shorts from now on. -/
def shortBrake (s : State) (b : Nat) : State :=
  s.modSpin b fun p => { p with state := .short, eventAt := s.now, atSpeed := false, fine := false, good := 0 }

/-- The criterion of a rotor loss holds at this boundary (R287). -/
def lossHolds (p : Spindle) : RotorCause → Bool
  | .residual => decide (8 ≤ p.badRes)
  | .jump => p.jumped
  | .overspeed => decide (2 ≤ p.overs)

/-- Rotor loss (R287, R288): the gates go off and the observer seeks lock; a write run stops at once, the bay leaves
its run for TRACK, or returns to SPINUP. Overspeed brakes at once with the bay in SAFE. No laser is switched off for
rotor loss alone. (Log DESIGN CHOICE 5; DEDUCED 112) -/
def execRotorLoss (b : BayId) (c : RotorCause) (s : State) : Host.Outcome State Fault Refusal :=
  let y := s.bay b
  if (y.spin.state ≠ .closed ∧ y.spin.state ≠ .safeStop) ∨ lossHolds y.spin c = false then .next s
  else match c with
    | .overspeed =>
      let s1 := shortBrake (s.modSpin b fun p => { p with lost := true }) b
      .next (if y.state = .safe then s1.bayLogFree b 0x0702 else s1.enterSafe b 0x0702)
    | _ =>
      let s1 := if y.state = .write then (s.immediateStop b).urgent b ucWstop else s
      let s2 := (s1.cutRun b).modBay b fun y =>
        { y with state := match y.state with
                   | .read | .verify | .write => .track
                   | .spinUp | .focus => .spinUp
                   | x => x
                 servo := if y.state = .focus then y.servo.abandon else y.servo
                 catching := true
                 chan := { y.chan with fly := .unlocked, coast := 0 }
                 spin := { y.spin with state := .catching, lost := true, eventAt := s.now, good := 0, atSpeed := false
                                       fine := false, fineCount := 0, amps := 0, phases := [], lowOn := false } }
      let f := s2.fresh
      .next (f.2.bayLog b (f.1 % 65536) y.spin.rpm)

/-- The observer locks within 200 ms at 600 rpm or more (R289): drive resumes with a demand of 0. (Log DEDUCED 111) -/
def execCatchLock (b : BayId) (rpm : Nat) (s : State) : Host.Outcome State Fault Refusal :=
  let p := (s.bay b).spin
  if p.state = .catching ∧ s.now ≤ p.eventAt + msec 200 ∧ 64 ≤ p.good ∧ 600 ≤ rpm then
    .next (closeLoop (s.modSpin b fun p => { p with rpm := rpm }) b rpm 0)
  else .next s

/-- The catch fails (R289): the bay enters SAFE with LOFF, and the spindle brakes to standstill. (Log DEDUCED 111) -/
def execCatchFail (b : BayId) (rpm : Nat) (s : State) : Host.Outcome State Fault Refusal :=
  let y := s.bay b
  if y.spin.state = .catching ∧ (y.spin.eventAt + msec 200 < s.now ∨ rpm < 600) then
    let s1 := (shortBrake s b).modBay b fun y => { y with catching := false, spin := { y.spin with rpm := rpm } }
    .next (if y.state = .safe then s1.bayLogFree b 0x0703 else s1.enterSafe b 0x0703)
  else .next s

/-- 250 ms without phase current, with the low sides on (R285): standstill is confirmed. -/
def execStandstill (b : BayId) (s : State) : Host.Outcome State Fault Refusal :=
  let p := (s.bay b).spin
  if p.state = .short ∧ p.eventAt + msec 250 ≤ s.now then
    .next (settleBay (s.modSpin b fun p =>
      { p with state := .standstill, confirmed := true, stillAt := s.now, rpm := 0, ref := 0, word := 0, atSpeed := false }) b)
  else .next s

/-- Standstill not reached within 10 s (R289): the bridges go off, and the bay is in SAFE. -/
def execSpinStuck (b : BayId) (s : State) : Host.Outcome State Fault Refusal :=
  let y := s.bay b
  if y.spin.state = .short ∧ y.spin.eventAt + secs 10 ≤ s.now then
    let s1 := s.modSpin b fun p => { p with state := .coast }
    .next (if y.state = .safe then (s1.bayLogFree b 0x0704).modBay b fun y => { y with safeCause := 0x0704 }
           else s1.enterSafe b 0x0704)
  else .next s

/-- 16 stitches in FINE mode within 0.1 % (R283). -/
def execAtSpeed (b : BayId) (s : State) : Host.Outcome State Fault Refusal :=
  let p := (s.bay b).spin
  if p.state = .closed ∧ p.fine ∧ 16 ≤ p.fineCount then .next (s.modSpin b fun p => { p with atSpeed := true }) else .next s

/-- SPIN_SAFE_HOLD after entry to SAFE the spindle is stopped (R286). -/
def execSpinSafeHoldExpiry (b : BayId) (s : State) : Host.Outcome State Fault Refusal :=
  let y := s.bay b
  if y.state = .safe ∧ y.spin.state = .closed ∧ y.safeAt + secs (s.pnat 0x0710 b) ≤ s.now then
    .next (s.modSpin b fun p => { p with state := .safeStop, atSpeed := false })
  else .next s

/-- PD18 has powered up (R286): a spindle in an unknown state is braked to a confirmed standstill, the bay in SPINDOWN.
(Log DEDUCED 41) -/
def execPd18PowerUp (b : BayId) (rpm : Nat) (s : State) : Host.Outcome State Fault Refusal :=
  let y := s.bay b
  if s.powered 18 ∧ y.spin.confirmed = false ∧ y.state = .spinDown ∧ y.spin.state ≠ .short then
    .next (s.modBay b fun y =>
      { y with ldPermit := false, downAt := s.now, spin := { y.spin with state := .short, eventAt := s.now, rpm := rpm }
               sled := { y.sled with offAp := 0, offAn := 0, offBp := 0, offBn := 0 } })
  else .next s

/-! ## The motor bus (R290, R291) -/

/-- The four bays of a group. -/
def groupBays (g : Nat) : List Nat := [4 * g, 4 * g + 1, 4 * g + 2, 4 * g + 3]

/-- REGEN_INH of a group's spindles follows the rule at 15.0 V and the chopper fault (R290 to R292). -/
def updateRegen (s : State) (g : Nat) : State :=
  let v := (s.bus g).regenInh || (s.bus g).chopFault
  (groupBays g).foldl (fun a b => a.modSpin b fun p => { p with regenInh := v }) s

/-- The bus voltage as the monitor has it. (Log DEDUCED 116) -/
def busSeen (s : State) (g mv : Nat) : State := s.modBus g fun u => { u with mv := mv }

/-- The chopper's thresholds (R290): on at 13.8 V, off at 13.2 V. A faulty chopper is held off. (Log DEDUCED 116) -/
def execBusChopperOn (g : GroupId) (mv : Nat) (s : State) : Host.Outcome State Fault Refusal :=
  if s.powered 18 = false then .next s
  else .next ((busSeen s g mv).modBus g fun u =>
    if 13800 ≤ mv ∧ u.chopFault = false ∧ u.chopOn = false then { u with chopOn := true, chopAtMv := mv, chopAt := s.now }
    else if mv ≤ 13200 then { u with chopOn := false }
    else u)

/-- The thresholds at 15.0 V and 14.4 V (R290). -/
def execBusRegenInhibit (g : GroupId) (mv : Nat) (s : State) : Host.Outcome State Fault Refusal :=
  if s.powered 18 = false then .next s
  else .next (updateRegen ((busSeen s g mv).modBus g fun u =>
    if 15000 ≤ mv ∧ u.regenInh = false then { u with regenInh := true, events := min 255 (u.events + 1) }
    else if mv ≤ 14400 then { u with regenInh := false }
    else u) g)

/-- All bridges of a group off, spindle and sled, with every bay of the group in SAFE (R290, R296, R313). -/
def bridgesOff (s : State) (g code : Nat) : State :=
  (groupBays g).foldl (fun a b =>
    let a1 := if (a.bay b).state = .safe then (a.bayLogFree b code).modBay b fun y => { y with safeCause := code }
      else a.enterSafe b code
    a1.modBay b fun y =>
      { y with spin := { y.spin with state := .busOff, atSpeed := false, fine := false, amps := 0, phases := [], lowOn := false }
               sled := { y.sled with state := .busOff, homed := false, speed := 0, target := none, next := none
                                     homePhase := .none, curFrom := 0, curTo := 0, current := 0 } }) s

/-- The threshold at 16.5 V (R290). -/
def execBusOvervolt (g : GroupId) (mv : Nat) (s : State) : Host.Outcome State Fault Refusal :=
  if s.powered 18 = false ∨ mv < 16500 ∨ (s.bus g).offOver then .next s
  else
    let s1 := (busSeen s g mv).modBus g fun u =>
      { u with offOver := true, bridgesOff := true, events := min 255 (u.events + 1) }
    .next ((bridgesOff s1 g 0x0706).constrain)

/-- The threshold at 9.5 V for 1 ms (R290). -/
def execBusUndervolt (g : GroupId) (mv : Nat) (s : State) : Host.Outcome State Fault Refusal :=
  if s.powered 18 = false ∨ 9500 < mv ∨ (s.bus g).offUnder then .next s
  else
    let s1 := (busSeen s g mv).modBus g fun u => { u with offUnder := true, bridgesOff := true }
    .next ((bridgesOff s1 g 0x0707).constrain)

/-- The thresholds at 10.8 V and 11.2 V (R290). -/
def execBusLowLimit (g : GroupId) (mv : Nat) (s : State) : Host.Outcome State Fault Refusal :=
  if s.powered 18 = false then .next s
  else .next ((busSeen s g mv).modBus g fun u =>
    if mv ≤ 10800 then { u with limited := true } else if 11200 ≤ mv then { u with limited := false } else u)

/-- The release time of a bridges-off rule has passed (R290): spindles at 600 rpm or more are caught, the others
stopped; the sled's coils come back at SLED_IHOLD, not homed (R313). (Log DEDUCED 111) -/
def execBusRecovered (g : GroupId) (mv : Nat) (rpms : List Nat) (s : State) : Host.Outcome State Fault Refusal :=
  let u := s.bus g
  if s.powered 18 = false ∨ u.bridgesOff = false then .next s
  else
    let high := u.offOver && !decide (mv ≤ 13200)
    let low := u.offUnder && !decide (11200 ≤ mv)
    let s1 := (busSeen s g mv).modBus g fun u => { u with offOver := high, offUnder := low, bridgesOff := high || low }
    if high || low then .next s1
    else
      let s2 := (groupBays g).foldl (fun a b => a.modBay b fun y =>
        let rpm := rpms.getD (b % 4) 0
        let hold := a.pnat 0x080F b
        { y with spin := if y.spin.state = .busOff then
                     { y.spin with state := if 600 ≤ rpm then .catching else .short, eventAt := s.now, rpm := rpm, good := 0 }
                   else y.spin
                 sled := if y.sled.state = .busOff then
                     { y.sled with state := .notHomed, current := hold, curFrom := hold, curTo := hold, restAt := s.now }
                   else y.sled }) s1
      .next s2.constrain

/-- A chopper on for more than 2 ms without a fall of 0.1 V (R291). (Log DEDUCED 116) -/
def execBrakeChopperFault (g : GroupId) (s : State) : Host.Outcome State Fault Refusal :=
  let u := s.bus g
  if u.chopOn ∧ u.chopFault = false ∧ u.chopAt + msec 2 < s.now ∧ u.chopAtMv < u.mv + 100 then
    .next (((updateRegen (s.modBus g fun u => { u with chopFault := true, chopOn := false }) g)).log .device 0x0708 0xFF g)
  else .next s

end Sys2Proof.Machine
end

