-- ==== Sys2Proof/Machine/Sled.lean ====
section
/-! DEFINITION. The sleds' commands and events: moves, stalls, homing, limits and the coil current (R295 to R317). -/

namespace Sys2Proof.Machine

open Sys2Proof

/-- An emergency stop (R300): step generation ends at once and HOMED is cleared. (Log DEDUCED 113) -/
def Sled.emergency (d : Sled) (now : Nat) : Sled :=
  { d with state := .emergency, speed := 0, frac := 0, target := none, next := none, wait := false, overshoot := false
           homed := false, homePhase := .none, velocity := 0, restAt := now }

/-- The sled's bridges may be driven (R290, R313). -/
def sledDriven (s : State) (b : Nat) : Bool := s.powered 18 && !(s.bus (groupOf b)).bridgesOff

/-- The sled comes to rest. -/
def Sled.atRest (d : Sled) (now : Nat) : Sled :=
  { d with state := if d.homed then .rest else .notHomed, speed := 0, frac := 0, target := none, wait := false
           overshoot := false, restAt := now }

/-- A position move starts (R298), of a homed sled in SPINUP, TRACK or SPINDOWN, the states whose sequences move it. -/
def execPositionMove (b : BayId) (um : Nat) (s : State) : Host.Outcome State Fault Refusal :=
  let y := s.bay b
  if sledDriven s b ∧ y.sled.homed ∧ (y.sled.state = .rest ∨ y.sled.state = .follow)
      ∧ (y.state = .spinUp ∨ y.state = .track ∨ y.state = .spinDown) then .next (sledMove s b um)
  else .next s

/-- A new target (R299, R311, R315): planned from the present speed, taken after a stop, or held until homing ends. -/
def execNewTarget (b : BayId) (um : Nat) (s : State) : Host.Outcome State Fault Refusal :=
  let d := (s.bay b).sled
  match d.state with
  | .move => .next (s.modSled b fun d => d.retarget s b (radiusPos (max (d.val 0x080B) (min um (d.val 0x080C)))))
  | .homing => .next (s.modSled b fun d => { d with next := some (radiusPos (max (s.pnat 0x080B b) (min um (s.pnat 0x080C b)))) })
  | _ => .next s

/-- The step that reaches the target has been taken (R298): the move ends. A long seek goes on with tracking (R266). -/
def execMoveComplete (b : BayId) (s : State) : Host.Outcome State Fault Refusal :=
  let y := s.bay b
  if y.sled.state = .move ∧ y.sled.speed = 0 ∧ y.sled.wait = false ∧ y.sled.target = some y.sled.pos then
    let s1 := s.modSled b fun d => d.atRest s.now
    .next (if y.state = .track ∧ y.servo.seek.isSome then startTracking s1 b else s1)
  else .next s

/-- The sled has stalled (R307): by its load angle over 8 stitches, or by a saturated tracking output over more than
4,000 stitches while it is slow and away from a soft limit. A stall in a homing search fails the homing instead. -/
def stalled (s : State) (b : Nat) : Bool :=
  let y := s.bay b
  decide (8 ≤ y.sled.stallCount) || (decide (4000 < y.sled.satCount) && y.servo.tracking && !y.sled.softLim)

/-- A stall (R307): emergency stop, HOMED cleared, and the bay in SAFE. -/
def execSledStall (b : BayId) (s : State) : Host.Outcome State Fault Refusal :=
  if stalled s b ∧ (s.bay b).sled.homePhase = .none then
    let s1 := s.modSled b fun d => { d.emergency s.now with stall := true, stallCount := 0, satCount := 0 }
    .next (if (s1.bay b).state = .safe then s1.bayLogFree b 0x0801 else s1.enterSafe b 0x0801)
  else .next s

/-- The tracking condition of a stall at a soft limit (R307): the bay in SAFE, the sled still HOMED. -/
def execSledSoftLimit (b : BayId) (s : State) : Host.Outcome State Fault Refusal :=
  let y := s.bay b
  if 4000 < y.sled.satCount ∧ y.servo.tracking ∧ y.sled.softLim then
    let s1 := s.modSled b fun d => { d with stall := true, satCount := 0 }
    .next (s1.enterSafe b 0x0802)
  else .next s

/-- Homing starts (R309): the search inward, or the back-off when the home input is active. -/
def startHoming (s : State) (b : Nat) : State :=
  s.modSled b fun d =>
    ({ d with state := .homing, homePhase := if d.homeSw then .backOff else .search, speed := 0
              frac := 0, target := none, next := none, searchFrom := d.pos, backFrom := d.pos, outward := d.homeSw, res := 0
              stallCount := 0, inactive := 0, taken := sledTake s b }).ramp s.now (s.pnat 0x080E b)

/-- Homing (R309, R312): in SPINUP on MOUNT, or whenever the sled is not HOMED. -/
def execHoming (b : BayId) (s : State) : Host.Outcome State Fault Refusal :=
  let y := s.bay b
  if sledDriven s b ∧ y.state = .spinUp ∧ (y.mount.isSome ∨ y.sled.homed = false)
      ∧ (y.sled.state = .notHomed ∨ y.sled.state = .rest ∨ y.sled.state = .emergency) then
    .next (startHoming s b)
  else .next s

/-- A qualified active edge of the home input in the search (R309): P at its first sample is latched and the sled slows. -/
def execHomeEdge (b : BayId) (s : State) : Host.Outcome State Fault Refusal :=
  let d := (s.bay b).sled
  if d.state = .homing ∧ d.homePhase = .search ∧ d.homeSw then
    .next (s.modSled b fun d => { d with latchP := d.homeFirst, homePhase := .slowing })
  else .next s

/-- The 16th consecutive inactive sample (R309): the sled stops, the candidate's position becomes SLED_HOME_R, and the
next move follows at once: the one held, or that to the acquisition radius in SPINUP. -/
def execHomeRelease (b : BayId) (s : State) : Host.Outcome State Fault Refusal :=
  let y := s.bay b
  if y.sled.state = .homing ∧ y.sled.homePhase = .backOff ∧ 16 ≤ y.sled.inactive then
    let s1 := s.modSled b fun d =>
      { ({ d with homed := true }).atRest s.now with
        homePhase := .none, pos := radiusPos (d.val 0x080A) + (d.pos + 2 ^ 32 - d.candP) % 2 ^ 32, res := 0, next := none }
    match y.sled.next with
    | some t => .next (s1.modSled b fun d =>
        (({ d with taken := sledTake s1 b }).retarget s1 b t).moving.ramp s1.now (s1.pnat 0x080E b))
    | none => .next (if y.state = .spinUp then sledMove s1 b 29050 else s1)
  else .next s

/-- Distance of two positions, in microsteps. -/
def posGap (a b : Nat) : Nat := min ((a + 2 ^ 32 - b) % 2 ^ 32) ((b + 2 ^ 32 - a) % 2 ^ 32)

/-- The log code of a homing failure (R310, R392). -/
def homeCode : HomeFault → Nat
  | .wrongLimit => 0x0803 | .notFound => 0x0804 | .noRelease => 0x0805 | .stall => 0x0806

/-- The condition of a homing failure holds (R310). -/
def homeFails (d : Sled) : HomeFault → Bool
  | .wrongLimit => d.limitSw
  | .notFound => decide (d.homePhase = .search ∧ 5600 * 256 ≤ posGap d.searchFrom d.pos)
  | .noRelease => decide (d.homePhase = .backOff ∧ d.val 0x0813 * 256 ≤ posGap d.pos d.backFrom)
  | .stall => decide (d.homePhase = .search ∧ 8 ≤ d.stallCount)

/-- Homing fails (R310): an emergency stop, but for a missing release, and the bay in SAFE. (Log DEDUCED 113) -/
def execHomeFailure (b : BayId) (why : HomeFault) (s : State) : Host.Outcome State Fault Refusal :=
  let d := (s.bay b).sled
  if d.state = .homing ∧ homeFails d why then
    let s1 := s.modSled b fun d =>
      match why with
      | .noRelease => { d.atRest s.now with homePhase := .none, next := none }
      | .wrongLimit => d.emergency s.now
      | .stall => { d.emergency s.now with stall := true, stallCount := 0 }
      | .notFound => d.emergency s.now
    .next (if (s1.bay b).state = .safe then s1.bayLogFree b (homeCode why) else s1.enterSafe b (homeCode why))
  else .next s

/-- A qualified active switch input outside homing (R311): motion towards the switch ends with an emergency stop, the bay enters
SAFE, and the entry carries P. Motion away from it goes on. A stall of the same stitch has stopped the sled already (R315). -/
def execLimitSwitchTrip (b : BayId) (w : SledSwitch) (s : State) : Host.Outcome State Fault Refusal :=
  let d := (s.bay b).sled
  let active : Bool := match w with | .home => d.homeSw | .outer => d.limitSw
  let towards : Bool := match w with | .home => !d.outward | .outer => d.outward
  let going : Bool := decide (d.speed ≠ 0 ∨ (d.state = .emergency ∧ d.restAt = s.now))
  if (s.powered 18 && decide (d.state ≠ .homing) && active && towards && going) = true then
    .next ((s.modSled b fun d => d.emergency s.now).enterSafeAt b 0x0807 d.pos)
  else .next s

/-- SLED_HOLD_DELAY after the sled came to rest its coil current starts down to SLED_IHOLD (R304). -/
def execSledHoldDelayExpiry (b : BayId) (s : State) : Host.Outcome State Fault Refusal :=
  let d := (s.bay b).sled
  if s.powered 18 ∧ (d.state = .rest ∨ d.state = .notHomed ∨ d.state = .emergency)
      ∧ d.restAt + msec (s.pnat 0x0810 b) ≤ s.now then
    .next (s.modSled b fun d => d.ramp s.now (s.pnat 0x080F b))
  else .next s

end Sys2Proof.Machine
end

