-- ==== Sys2Proof/Machine/BayStates.lean ====
section
/-! DEFINITION. Firmware's ways out of HOLD and SAFE (R271). -/

namespace Sys2Proof.Machine

open Sys2Proof

/-- HOLD_LATCH of the last uplink frame (R216). -/
def Uplink.holdLatch (u : Uplink) : Bool := u.stat.toNat.testBit 1

/-- A slot of a bay is disabled by parity (R246). -/
def parityDisabled (s : State) (b : Nat) : Bool :=
  (List.range 256).any fun i => (s.slot i).parityFail && slotBay s i == b

/-- A bay in HOLD whose conditions all hold leaves for FOCUS, to jump to the layer last in use (R271). (Log DEDUCED 108) -/
def execHoldRelease (b : BayId) (s : State) : Host.Outcome State Fault Refusal :=
  let y := s.bay b
  if s.fwRuns ∧ y.state = .hold ∧ y.holdAt + s.pnat 0x0649 b ≤ s.now ∧ y.welt.phase = .up ∧ 16 ≤ y.welt.good
      ∧ parityDisabled s b = false ∧ y.welt.uplink.holdLatch then
    .next (enterFocus s b y.servo.layer)
  else .next s

/-- A HOLD not released within 1 s of entry enters SAFE (R271). (Log DEDUCED 108) -/
def execHoldTimeout (b : BayId) (s : State) : Host.Outcome State Fault Refusal :=
  let y := s.bay b
  if s.fwRuns ∧ y.state = .hold ∧ y.holdAt + secs 1 ≤ s.now then .next (s.enterSafe b 0x0609) else .next s

/-- Restarts of a bay in the last hour. -/
def recentStarts (s : State) (b : Nat) : List Nat := (s.bay b).safeStarts.filter (fun t => s.now < t + secs 3600)

/-- A SAFE restart (R271): the bay goes to SPINUP; a DIB copy is read before any run. -/
def safeRestart (s : State) (b : Nat) : State :=
  let s1 := s.modBay b fun y =>
    { y with state := .spinUp, safeStarts := recentStarts s b ++ [s.now], dibCheck := true
             spin := { y.spin with startsRow := 0 }, chan := { y.chan with fly := .unlocked, coast := 0 } }
  if (s1.bay b).welt.phase = .dead then startTraining (s1.modWelt b fun w => { w with attempts := 0 }) b else s1

/-- A bay in SAFE may restart: its cause has cleared, the link is UP, it holds a mounted disc, and the spindle is held or
at standstill (R271, R286, R375). -/
def mayRestart (s : State) (b : Nat) : Bool :=
  let y := s.bay b
  decide (y.state = .safe) && !y.outOfService && safeCleared s b && decide (y.welt.phase = .up) && y.disc.isSome
    && (y.still || decide (y.spin.state = .closed)) && s.mode.onRing && decide (s.mode ≠ .safeStop ∧ s.mode ≠ .retire)

/-- A restart within SAFE_RETRY per hour; a bay with no mounted disc goes to LOADED or EMPTY at standstill instead
(R271, R375). -/
def execSafeRestartStart (b : BayId) (s : State) : Host.Outcome State Fault Refusal :=
  if s.fwRuns ∧ mayRestart s b ∧ (recentStarts s b).length < s.pnat 0x064B b then .next (safeRestart s b)
  else if s.fwRuns ∧ (s.bay b).state = .safe then .next (settleBay s b)
  else .next s

end Sys2Proof.Machine
end

