-- ==== Sys2Proof/Machine/DiscFormat.lean ====
section
/-! DEFINITION. System sectors: the Disc Information Block and the disc management area, their positions and bytes, and
what they make of a disc (R3, R52 to R66). -/

namespace Sys2Proof.Machine

open Sys2Proof

/-! ## Positions (R52, R53, R58) -/

/-- LSNs of the system sectors. -/
def lsnUpdate (u p : Nat) : Nat := 0xFFFFF000 + 4 * u + p
def lsnMastered (c : Nat) : Nat := 0xFFFFFF00 + c
def lsnRecorded (c : Nat) : Nat := 0xFFFFFF20 + c
/-- Lead-in slot and spiral of DIB copy `c` (R53), and lead-out slot of a DMA part (R58). -/
def dibSlot (recorded : Bool) (c : Nat) : Nat := (if recorded then 8192 else 2048) + 256 * (c % 4)
def dibSpiral (c : Nat) : Nat := 1 + c / 4
def dmaSlot (copyB : Bool) (u : Nat) : Nat := (if copyB then 1088 else 64) + u

/-! ## The DIB (R54, R55, R57) -/

/-- The write-strategy hints of one layer (R55). -/
def parseHint (l : List Byte) : Hint :=
  { startPower := beAt l 0 2, biasRatio := (byteAt l 2).toNat, coolRatio := (byteAt l 3).toNat, readPower := beAt l 4 2
    asymmetry := signedOf 8 (byteAt l 6).toNat, step := (byteAt l 7).toNat, lead := signedOf 8 (byteAt l 8).toNat
    trail := signedOf 8 (byteAt l 9).toNat }
def Hint.bytes (h : Hint) : List Byte :=
  beBytes 2 h.startPower ++ beBytes 1 h.biasRatio ++ beBytes 1 h.coolRatio ++ beBytes 2 h.readPower
    ++ beBytes 1 (unsignedOf 8 h.asymmetry) ++ beBytes 1 h.step ++ beBytes 1 (unsignedOf 8 h.lead)
    ++ beBytes 1 (unsignedOf 8 h.trail) ++ zeros 6

/-- The DIB in 4,096 user bytes. -/
def parseDib (l : List Byte) : Dib :=
  { issue := (byteAt l 4).toNat, dtype := if (byteAt l 5).toNat = 2 then .ridged else .plain, layers := (byteAt l 6).toNat
    recorded := decide (byteAt l 7 ≠ 0), discId := beAt l 8 6, maker := beAt l 14 2, lot := beAt l 16 4, course := beAt l 40 8
    member := (byteAt l 48).toNat, d := (byteAt l 49).toNat, p := (byteAt l 50).toNat, bindSeq := beAt l 52 4
    hints := (List.range 6).map (fun i => parseHint ((l.drop (256 + 16 * i)).take 16)) }

/-- The bytes of a DIB (R54). -/
def Dib.bytes (x : Dib) : List Byte :=
  let h := beBytes 4 0x4A444942 ++ beBytes 1 x.issue ++ beBytes 1 (match x.dtype with | .plain => 1 | .ridged => 2)
    ++ beBytes 1 x.layers ++ beBytes 1 (bitNat x.recorded) ++ beBytes 6 x.discId ++ beBytes 2 x.maker ++ beBytes 4 x.lot
    ++ beBytes 4 x.dtype.slots ++ beBytes 4 x.dtype.userStart ++ beBytes 4 x.dtype.userSlots ++ beBytes 4 x.dtype.spareSlots
    ++ zeros 4 ++ beBytes 8 x.course ++ beBytes 1 x.member ++ beBytes 1 x.d ++ beBytes 1 x.p ++ [0] ++ beBytes 4 x.bindSeq
    ++ zeros 200
  h ++ ((List.range 6).flatMap (fun i => (x.hints.getD i default).bytes)) ++ zeros 3744

/-- The largest disc ID, which no disc has (R54). -/
def noDiscId : Nat := 0xFFFFFFFFFFFF

/-- The rules of R57 for the content of a DIB copy of a kind, on a disc whose pre-format shows a type (R36). -/
def dibValid (l : List Byte) (recorded : Bool) (t : DiscType) : Bool :=
  let x := parseDib l
  decide (beAt l 0 4 = 0x4A444942) && decide ((byteAt l 7).toNat = bitNat recorded) && decide (1 ≤ x.issue ∧ x.issue ≤ 2)
    && decide ((byteAt l 5).toNat = (match t with | .plain => 1 | .ridged => 2)) && decide (1 ≤ x.layers ∧ x.layers ≤ 6)
    && decide (x.discId ≠ 0 ∧ x.discId ≠ noDiscId)
    && decide (beAt l 20 4 = t.slots ∧ beAt l 24 4 = t.userStart ∧ beAt l 28 4 = t.userSlots ∧ beAt l 32 4 = t.spareSlots)
    && (if recorded then decide (x.course ≠ 0 ∧ 2 ≤ x.d ∧ x.d ≤ 14 ∧ 1 ≤ x.p ∧ x.p ≤ 4 ∧ x.d + x.p ≤ 16 ∧ x.member < x.d + x.p)
        else decide (x.course = 0 ∧ x.member = 255 ∧ x.d = 0 ∧ x.p = 0 ∧ x.bindSeq = 0))

/-! ## The DMA (R59 to R66) -/

/-- Update numbers of a format issue (R58, R66). -/
def updateSlots (issue : Nat) : Nat := if issue = 1 then 256 else 512

/-- An update in its 16,384 bytes. -/
def parseUpdate (l : List Byte) : DmaUpdate :=
  let n := min 2032 (beAt l 14 2)
  { number := beAt l 4 2, issue := (byteAt l 6).toNat, flags := (byteAt l 7).toNat % 8, discId := beAt l 8 6
    seq := beAt l 16 4, cumulative := beAt l 20 4, append := (List.range 6).map (fun i => beAt l (24 + 4 * i) 4)
    nextOpc := (List.range 6).map (fun i => beAt l (48 + 2 * i) 2), lastOpc := (List.range 6).map (fun i => beAt l (60 + 2 * i) 2)
    spareUsed := (List.range 6).map (fun i => beAt l (72 + 4 * i) 4)
    entries := (List.range n).map (fun i => ⟨beAt l (128 + 8 * i) 4, beAt l (132 + 8 * i) 4⟩) }

/-- The bytes of an update (R59). -/
def DmaUpdate.bytes (u : DmaUpdate) : List Byte :=
  let six (n : Nat) (l : List Nat) : List Byte := (List.range 6).flatMap (fun i => beBytes n (l.getD i 0))
  let h := beBytes 4 0x4A444D41 ++ beBytes 2 u.number ++ beBytes 1 u.issue ++ beBytes 1 u.flags ++ beBytes 6 u.discId
    ++ beBytes 2 u.entries.length ++ beBytes 4 u.seq ++ beBytes 4 u.cumulative ++ six 4 u.append ++ six 2 u.nextOpc
    ++ six 2 u.lastOpc ++ six 4 u.spareUsed ++ zeros 32
  let b := h ++ u.entries.flatMap (fun e => beBytes 4 e.home ++ beBytes 4 e.repl)
  b ++ zeros (16384 - b.length)

/-- The closing flags, and RESCAN. -/
def DmaUpdate.isSealed (u : DmaUpdate) : Bool := u.flags.testBit 0
def DmaUpdate.isFull (u : DmaUpdate) : Bool := u.flags.testBit 1
def DmaUpdate.isRescan (u : DmaUpdate) : Bool := u.flags.testBit 2

/-- Four accepted parts make a valid copy of update `n` (R63). -/
def updateValid (l : List Byte) (n issue discId : Nat) : Bool :=
  decide (beAt l 0 4 = 0x4A444D41 ∧ beAt l 4 2 = n ∧ (byteAt l 6).toNat = issue ∧ beAt l 8 6 = discId)

/-- No replacement (R60). -/
def noSlot : Nat := 0xFFFFFFFF

/-- A defect map with an entry made to stand for its address (R61). -/
def standEntry (m : List Defect) (e : Defect) : List Defect := m.filter (fun x => x.home != e.home) ++ [e]

/-- An entry whose addresses are valid on the disc (R48, R60). -/
def entryValid (t : DiscType) (layers : Nat) (e : Defect) : Bool :=
  psaValid t layers e.home && (e.repl == noSlot || psaValid t layers e.repl)

/-- The map of valid updates in order (R61). -/
def defectMap (t : DiscType) (layers : Nat) (us : List DmaUpdate) : List Defect :=
  (us.flatMap (·.entries)).foldl (fun m e => if entryValid t layers e then standEntry m e else m) []

/-- Where a sector whose home slot is `a` is read (R61, R93). -/
def standingSlot (m : List Defect) (a : Nat) : Nat :=
  match m.find? (fun e => e.home == a) with
  | some e => e.repl
  | none => a

/-- A rescan is called for (R64): an update was skipped before the last valid one, and no later valid update carries
RESCAN. (Log DEDUCED 85) -/
def needsRescan (us : List DmaUpdate) (skipped : List Nat) : Bool :=
  let last := (us.getLast?.map (·.number)).getD 0
  skipped.any fun n => decide (n < last) && !us.any (fun u => decide (n < u.number) && u.isRescan)

/-- The disc that a mount's findings make (R3, R57, R63 to R66). `used` says that every update number is recorded or
spent. -/
def mountedDisc (x : Dib) (binding : Binding) (us : List DmaUpdate) (defects : List Defect) (rescan used : Bool)
    (next : Nat) (env : Nat × Nat) : Disc :=
  let six (f : DmaUpdate → List Nat) : List Nat := match us.getLast? with | some u => f u | none => List.replicate 6 0
  let full := us.any (·.isFull) || (used && decide (x.issue = 2) && !us.any (·.isSealed))
  { dtype := x.dtype, layers := x.layers, discId := x.discId, issue := x.issue, binding := binding
    readOnly := decide (x.issue = 1) || decide (binding = .unknown), sealed := us.any (·.isSealed) && !full
    full := full, hints := x.hints, append := six (·.append), nextOpc := six (·.nextOpc), lastOpc := six (·.lastOpc)
    spareUsed := six (·.spareUsed), nextUpdate := next
    cumulative := match us.getLast? with | some u => u.cumulative | none => 0
    defects := defects, usedSeqs := us.map (·.seq) ++ (match binding with | .member _ _ _ _ q => [q] | _ => [])
    rescan := rescan, refEnv := [], dibEnv := env, maker := x.maker, lot := x.lot, dibDue := false }

end Sys2Proof.Machine
end

