-- ==== Sys2Proof/Machine/Operands.lean ====
section
/-! DEFINITION. The operand forms of commands: data SQEs with their fields and ranges (R356, R357), admin SQEs (R383), the
lost-member table, MEMBER_BAYS, pattern triples (R394), and the argument fields of the admin commands. -/

namespace Sys2Proof.Machine

open Sys2Proof

/-! ## Data SQEs (R356, R357) -/

/-- The widths of the fields of ARGS, by opcode and by the action of a data SQE (R357, R390, R398, R354, R389); an action,
a slot and a mode are single bytes, and single bytes stand where ARGS is reserved. -/
def argWidths (opcode action : Nat) : List Nat :=
  match opcode with
  | 0x01 | 0x03 => [1, 1, 6, 1, 1, 6, 1, 1, 6, 1, 1, 6]
  | 0x06 => if action = 1 then [1, 1, 6, 8] else [2, 1]
  | 0x41 => [1, 1, 2, 4, 2]
  | 0x43 => [2, 2, 2]
  | 0x49 => [2, 1, 1]
  | 0x4A => [2]
  | 0x4B => [4]
  | _ => []
/-- The widths of the fields of an SQE in their order (R356, R383): opcodes from 0x40 on are admin commands. -/
def sqeWidths (opcode action : Nat) : List Nat :=
  (if opcode < 0x40 then [1, 1, 2, 4, 8, 4, 2, 2, 1, 1, 2, 1, 3] else [1, 1, 2, 4, 4, 4]) ++ argWidths opcode action
/-- An SQE as it stands in a submission ring in engine DRAM, little-endian, from its bytes on the ring, and its bytes on the
ring from those (R8, R355): OPCODE and ACTION are single bytes, so that either form tells the widths. -/
def turnSqe (l : List Byte) : List Byte := turnFields (sqeWidths (byteAt l 0).toNat (byteAt l 28).toNat) l
/-- The bytes of a stored SQE as they were received. -/
def RingEntry.received (e : RingEntry) : List Byte := turnSqe e.bytes

/-- A data SQE read from its 64 bytes, big-endian as on the ring; reserved bits are ignored (R11). -/
def parseSqe (l : List Byte) : DataSqe :=
  { opcode := (byteAt l 0).toNat, flags := (byteAt l 1).toNat, tag := beAt l 2 2 % 2048, deadline := beAt l 4 4
    name := beAt l 8 8, addr := beAt l 16 4, count := beAt l 20 2, handle := beAt l 22 2, key := (byteAt l 24).toNat
    bay := (byteAt l 25).toNat, tenant := beAt l 26 2, action := (byteAt l 28).toNat, args := (l.drop 32).take 32 }

/-- The opcodes of data commands. -/
def opRead : Nat := 1
def opAppend : Nat := 2
def opVerify : Nat := 3
def opFlush : Nat := 4
def opSeal : Nat := 5
def opMount : Nat := 6
def opRelease : Nat := 7

/-- FLAGS of READ and VERIFY: CSN addressing, and MEMBER_LOST, which counts with CSN only. -/
def DataSqe.csn (q : DataSqe) : Bool := q.flags.testBit 0
def DataSqe.memberLost (q : DataSqe) : Bool := q.csn && q.flags.testBit 1
/-- FORCE of RELEASE. -/
def DataSqe.forced (q : DataSqe) : Bool := q.flags.testBit 0
/-- REQUEST_ID and DISPOSITION of MOUNT. -/
def DataSqe.request (q : DataSqe) : Nat := beAt q.args 0 2
def DataSqe.disposition (q : DataSqe) : Nat := (byteAt q.args 2).toNat
/-- *d*, *p* and MEMBER_BAYS of MOUNT, open course: nibble `j` of the 64-bit field is the bay of member `j`. -/
def DataSqe.openD (q : DataSqe) : Nat := (byteAt q.args 0).toNat
def DataSqe.openP (q : DataSqe) : Nat := (byteAt q.args 1).toNat
def DataSqe.memberBay (q : DataSqe) (j : Nat) : Nat := beAt q.args 8 8 / 16 ^ j % 16
def DataSqe.memberBays (q : DataSqe) : List Nat := (List.range (q.openD + q.openP)).map q.memberBay

/-- The used entries of the lost-member table: member index and disc ID. -/
def DataSqe.lostTable (q : DataSqe) : List (Nat × Nat) :=
  ((List.range 4).map (fun i => ((byteAt q.args (8 * i)).toNat, beAt q.args (8 * i + 2) 6))).filter (fun e => e.2 != 0)

/-- DEADLINE in its range; 0 selects the class default (R356). -/
def DataSqe.deadlineOk (q : DataSqe) : Bool := decide (q.deadline ≤ 86400000)

/-- Which meaning an opcode, its ACTION and its DISPOSITION select. -/
inductive SqeKind
  | read | verify | append | flush | sealing | load | unavailable | opening | releaseBay | releaseCourse | none
  deriving DecidableEq, Repr

def DataSqe.kind (q : DataSqe) : SqeKind :=
  match q.opcode with
  | 1 => .read
  | 2 => .append
  | 3 => .verify
  | 4 => .flush
  | 5 => .sealing
  | 6 => if q.action = 1 then .opening else if q.action = 0 ∧ q.disposition = 2 then .unavailable else .load
  | 7 => if q.action = 1 then .releaseCourse else .releaseBay
  | _ => .none

/-- The fields of a command lie in the ranges that need no state to judge (R12, R357). (Log DEDUCED 63) -/
def DataSqe.inRange (q : DataSqe) : Bool :=
  q.deadlineOk && (match q.kind with
    | .read => decide (1 ≤ q.count ∧ q.count ≤ 256) && (q.csn || decide (q.name < 2 ^ 48))
    | .verify => decide (1 ≤ q.count) && (q.csn || decide (q.name < 2 ^ 48))
    | .append => decide (1 ≤ q.count ∧ q.count ≤ 256 ∧ 1 ≤ q.tenant ∧ 1 ≤ q.handle)
    | .flush | .sealing | .releaseCourse => decide (1 ≤ q.handle)
    | .load => decide (q.action = 0 ∧ q.bay < 16 ∧ q.disposition ≤ 2)
        && (if q.disposition = 0 then decide (q.request = 0) else decide (q.request ≠ 0))
    | .unavailable => decide (q.request ≠ 0)
    | .opening => decide (q.name ≠ 0)
    | .releaseBay => decide (q.action = 0 ∧ q.bay < 16)
    | .none => false)

/-! ## Admin SQEs (R383) -/

/-- An admin SQE read from its 64 bytes. -/
def parseAdmin (via : AdminVia) (l : List Byte) (at_ : Nat) : AdminCmd :=
  { via := via, opcode := (byteAt l 0).toNat, flags := (byteAt l 1).toNat, tag := beAt l 2 2 % 2048, len := beAt l 4 4
    rlen := beAt l 8 4, args := (l.drop 16).take 48, payload := [], units := [], at_ := at_ }

/-- The largest payload an admin opcode takes; those without a payload take none (R384, R386, R394, R408, R410, R416). -/
def adminMaxLen (opcode : Nat) : Nat :=
  match opcode with
  | 0x42 => 32768
  | 0x44 => 1200
  | 0x46 => 68
  | 0x4C => 16777216
  | 0x4E => 16777216
  | _ => 0

/-- A payload longer than the channel or the opcode allows (R384). -/
def AdminCmd.tooLong (c : AdminCmd) : Bool :=
  decide (adminMaxLen c.opcode < c.len) || (match c.via with | .carrier _ => decide (4096 < c.len) | .ring _ => false)

/-- Payload units that a command awaits, and whether they have come (R384). -/
def AdminCmd.unitCount (c : AdminCmd) : Nat := (c.len + 4095) / 4096
def AdminCmd.complete (c : AdminCmd) : Bool := decide (c.unitCount ≤ c.units.length)

/-- Unsigned fields of ARGS. -/
def AdminCmd.arg (c : AdminCmd) (off size : Nat) : Nat := beAt c.args off size
/-- FLAGS bit 0: CLEAR, MASK_ONLY or ALL. -/
def AdminCmd.flag0 (c : AdminCmd) : Bool := c.flags.testBit 0

/-- Triples of a SET_PATTERN payload, complete ones only: ID, INDEX and signed VALUE (R394, R397). -/
def triplesOf (l : List Byte) : List (Nat × Nat × Int) :=
  (List.range (l.length / 8)).map (fun i => (beAt l (8 * i) 2, beAt l (8 * i + 2) 2, signedOf 32 (beAt l (8 * i + 4) 4)))

end Sys2Proof.Machine
end

