-- ==== Sys2Proof/Machine/LineCodes.lean ====
section
/-! DEFINITION. The line codes of the DRAM: Purlin, a DEC-TED (79,64) code, Batten, a SEC-DED (39,32) code, and what a
reader makes of the bits that a stored line has had flipped (R433 to R436). -/

namespace Sys2Proof.Machine

open Sys2Proof

/-- x^a modulo G(x) = 0xC599 (R434). -/
def purlinPow : Nat → Nat
  | 0 => 1
  | a + 1 => let v := 2 * purlinPow a; if v < 0x8000 then v else v ^^^ 0xC599

/-- Ones of a number, over its low `n` bits. -/
def weight (n v : Nat) : Nat := ((List.range n).filter (fun i => v.testBit i)).length

/-- The exclusive or of a list. -/
def xorAll (l : List Nat) : Nat := l.foldl (· ^^^ ·) 0

/-- What a codeword's reader decides: clean, the positions it corrects, or uncorrectable. -/
inductive Verdict
  | clean
  | fixed (at_ : List Nat)
  | bad
  deriving DecidableEq, Repr

/-- The Purlin reader, from the syndrome (R434). (Log DESIGN CHOICE 117) -/
def purlinVerdict (syn : Nat) : Verdict :=
  let n := List.range 79
  if syn = 0 then .clean
  else if weight 15 syn % 2 = 1 then
    match n.find? (fun a => purlinPow a == syn) with
    | some a => .fixed [a]
    | none => .bad
  else match n.findSome? (fun a => ((n.drop (a + 1)).find? (fun b => (purlinPow a ^^^ purlinPow b) == syn)).map (fun b => [a, b])) with
    | some l => .fixed l
    | none => .bad

/-- The Purlin check bits of a 64-bit word (R434). -/
def purlinCheck (d : Nat) : Nat := xorAll (((List.range 64).filter (fun i => d.testBit i)).map (fun i => purlinPow (15 + i)))

/-- Column `i` of the Batten code's data bits: the 7-bit values of weight 3 in ascending order (R435). -/
def battenColumns : List Nat := ((List.range 128).filter (fun v => weight 7 v == 3)).take 32
/-- The column of a position: data bits 0 to 31, check bits 32 to 38. -/
def battenColumn (i : Nat) : Nat := if i < 32 then battenColumns.getD i 0 else 2 ^ (i - 32)

/-- The Batten reader, from the syndrome (R435). (Log DESIGN CHOICE 117) -/
def battenVerdict (syn : Nat) : Verdict :=
  if syn = 0 then .clean
  else match (List.range 39).find? (fun i => battenColumn i == syn) with
    | some i => .fixed [i]
    | none => .bad

/-- The Batten check bits of a 32-bit half-word (R435). -/
def battenCheck (d : Nat) : Nat := xorAll (((List.range 32).filter (fun i => d.testBit i)).map battenColumn)

/-- The columns of the L2's data code (R449): the 8-bit values of weight 3 for bits 0 to 55, eight more, and the check bits. -/
def l2Columns : List Nat :=
  ((List.range 256).filter (fun v => weight 8 v == 3)).take 56 ++ [0x1F, 0x2F, 0x37, 0x3B, 0x3D, 0x3E, 0x4F, 0x57]
    ++ (List.range 8).map (2 ^ ·)
/-- What the L2's reader decides of a word whose bits `flips` are inverted (R449): data bits 0 to 63, check bits 64 to 71. -/
def l2Verdict (flips : List Nat) : Verdict :=
  let syn := xorAll (((flips.filter (fun p => decide (p < 72))).eraseDups).map (fun i => l2Columns.getD i 0))
  if syn = 0 then .clean
  else match (List.range 72).find? (fun i => l2Columns.getD i 0 == syn) with
    | some i => .fixed [i]
    | none => .bad

/-- A stored bit of a line, beat × 40 + line, as Purlin sees it: word and exponent; none for a poison bit (R433). -/
def purlinPlace (p : Nat) : Option (Nat × Nat) :=
  let k := p % 40
  let w := p / 40 / 2
  if p / 40 % 2 = 0 then some (w, if k < 32 then 15 + k else k - 32)
  else if k < 32 then some (w, 47 + k) else if k < 39 then some (w, k - 24) else none

/-- The same bit as Batten sees it: beat and position; none for a poison bit (R433). -/
def battenPlace (p : Nat) : Option (Nat × Nat) := if p % 40 < 39 then some (p / 40, p % 40) else none

/-- Positions that stand in one list but not in both. -/
def symDiff (a b : List Nat) : List Nat := a.filter (fun x => !b.contains x) ++ b.filter (fun x => !a.contains x)

/-- What a reader finds in a line. `bad` lists the codewords that are uncorrectable; `residual` the data bits, counted
over the line, that the delivered data has wrong. -/
structure LineCheck where
  one : List Nat
  two : List Nat
  bad : List Nat
  poison : Nat
  residual : List Nat
  deriving DecidableEq, Repr

/-- A line read with the stored bits `flips` inverted (R433 to R436): `batten` tells the code. (Log DESIGN CHOICE 117) -/
def checkLine (batten : Bool) (flips : List Nat) : LineCheck :=
  let f := (flips.filter (fun p => decide (p < 640))).eraseDups
  let place := if batten then battenPlace else purlinPlace
  let words := List.range (if batten then 16 else 8)
  let err (w : Nat) : List Nat := f.filterMap (fun p => match place p with
    | some (v, x) => if v = w then some x else none
    | none => none)
  let verdict (w : Nat) : Verdict :=
    if batten then battenVerdict (xorAll ((err w).map battenColumn)) else purlinVerdict (xorAll ((err w).map purlinPow))
  let data (w : Nat) (x : Nat) : Option Nat :=
    if batten then (if x < 32 then some (32 * w + x) else none) else (if 15 ≤ x then some (64 * w + x - 15) else none)
  { one := words.filter (fun w => match verdict w with | .fixed [_] => true | _ => false)
    two := words.filter (fun w => match verdict w with | .fixed [_, _] => true | _ => false)
    bad := words.filter (fun w => verdict w == .bad)
    poison := (f.filter (fun p => (if batten then p % 40 == 39 else p % 80 == 79))).length
    residual := words.flatMap (fun w => match verdict w with
      | .bad => []
      | .clean => (err w).filterMap (data w)
      | .fixed l => (symDiff (err w) l).filterMap (data w)) }

end Sys2Proof.Machine
end

