-- ==== Sys2Proof/Machine/Dram.lean ====
section
/-! DEFINITION. The DRAM: lines and regions, the channels' request queues with their classes, order and lent classes, and the error log
(R423 to R442, R445). -/

namespace Sys2Proof.Machine

open Sys2Proof

/-! ## Lines and regions -/

/-- The canonical form of DRAM content: addresses strictly rising, no zero byte listed (R427).
(Log DESIGN CHOICE 18, 134) -/
def Memory.wf (m : Memory) : Bool := Tbl.wf 0#8 m.cells

/-- One byte of DRAM; a byte that nothing has written reads 0 (R427). (Log DESIGN CHOICE 18; DEDUCED 118) -/
def Memory.readByte (m : Memory) (a : Nat) : Byte := Tbl.get 0#8 m.cells a
def Memory.writeByte (m : Memory) (a : Nat) (v : Byte) : Memory := { m with cells := Tbl.set 0#8 m.cells a v }

/-- `n` bytes from an address. -/
def Memory.readBytes (m : Memory) (a n : Nat) : List Byte := (List.range n).map (fun i => m.readByte (a + i))
/-- Bytes written from an address. -/
def Memory.writeBytes (m : Memory) : Nat → List Byte → Memory
  | _, [] => m
  | a, v :: r => (m.writeByte a v).writeBytes (a + 1) r

/-- A line written whole: 64 bytes, poisoned or not (R436). -/
def Memory.writeLine (m : Memory) (line : Nat) (data : List Byte) (poison : Bool) : Memory :=
  let m1 := m.writeBytes (64 * line) (data.take 64)
  { m1 with poisoned := if poison then (if m1.poisoned.contains line then m1.poisoned else m1.poisoned ++ [line])
                        else m1.poisoned.filter (· != line) }

/-- 2 MiB. -/
def mib2 : Nat := 2097152

/-- A descriptor covers an address (R432). -/
def Region.covers (r : Region) (pa : Nat) : Bool := r.en && decide (r.base * mib2 ≤ pa ∧ pa < (r.base + r.size) * mib2)

/-- Descriptors by number. -/
def Memory.region (m : Memory) (i : Nat) : Region := Tbl.get {} m.regions i

/-- The region of an address: the lowest-numbered enabled descriptor that covers it (R432). -/
def Memory.regionOf (m : Memory) (pa : Nat) : Option Region :=
  ((List.range 16).map m.region).find? (fun r => r.covers pa)

/-- The channel of an address, and the subchannel and rank bits of R445's WHERE (R425). -/
def chanOf (pa : Nat) : Nat := (pa / 128 % 2) ^^^ (pa / 2 ^ 20 % 2)
def whereOf (cfg pa : Nat) : Nat := pa / 64 % 2 + 2 * (if 2 ≤ cfg then pa / 2 ^ 19 % 2 else 0)

/-- A channel. -/
def State.chan (s : State) (c : Nat) : DramChan := if c = 0 then s.mem.ch0 else s.mem.ch1
def State.modChanD (s : State) (c : Nat) (f : DramChan → DramChan) : State :=
  if c = 0 then { s with mem := { s.mem with ch0 := f s.mem.ch0 } } else { s with mem := { s.mem with ch1 := f s.mem.ch1 } }
def State.modMem (s : State) (f : Memory → Memory) : State := { s with mem := f s.mem }

/-- The channel retrains (R429). -/
def DramChan.retraining (c : DramChan) : Bool := decide (c.state = .quick ∨ c.state = .full)

/-! ## Error log (R445) -/

/-- The kinds of an error's entry. -/
def kOne : Nat := 1
def kTwo : Nat := 2
def kBad : Nat := 4
def kPoison : Nat := 8
def kBurnish : Nat := 16
def kTimeout : Nat := 32

/-- An entry updated by an error of the same line, or SRAM word, and class (R445). -/
def bumpErr (now key cls kind : Nat) (sram : Bool) : List ErrEntry → Option (List ErrEntry)
  | [] => none
  | e :: r =>
    let k := if sram then e.addr else e.addr / 64
    if k = key ∧ e.cls = cls then
      some ({ e with count := min 0xFFFFFFFF (e.count + 1), last := now, kind := e.kind ||| kind } :: r)
    else (bumpErr now key cls kind sram r).map (e :: ·)

/-- An error noted on page 0x05, index 0 and 1 by channel, 2 for on-chip SRAM (R445). -/
def State.errNote (s : State) (idx addr cls kind wher : Nat) : State :=
  let p := Tbl.get {} s.logs.errors idx
  let key := if idx = 2 then addr else addr / 64
  match bumpErr s.now key cls kind (idx == 2) p.entries with
  | some es => { s with logs := { s.logs with errors := Tbl.set {} s.logs.errors idx { p with entries := es } } }
  | none =>
    let r := p.add 16 ⟨s.now, s.now, addr, 1, cls, kind, wher⟩
    { s with logs := { s.logs with errors := Tbl.set {} s.logs.errors idx r.1 } }.logFull r.2 5 idx

/-- A DRAM error at an address, by the region's code. -/
def State.dramErr (s : State) (pa : Nat) (batten : Bool) (kind : Nat) : State :=
  s.errNote (chanOf pa) pa (if batten then 2 else 1) kind (whereOf s.aon.dramCfg.val pa)

/-- PA[36:6], as the device log's detail. -/
def paDetail (pa : Nat) : Nat := pa / 64 % 2 ^ 31

/-! ## Requests (R438 to R442) -/

/-- The class in which a client issues its requests (R438). -/
def clientClass (s : State) : Client → Nat
  | .feeder b _ _ => (match (s.bay b).write with | some w => if w.panic && w.feeding then 0 else 1 | none => 1)
  | .latePass _ _ _ | .retryStore _ _ => 1
  | .reassembly _ _ _ _ | .writeBuffer _ | .rebuildBuffer _ _ _ | .retransmission _ _ _ => 3
  | .burnisher => 4
  | _ => 2

/-- A write that leaves some byte of its line as it is (R442). -/
def DramReq.merges (r : DramReq) : Bool := r.write && !(r.off == 0 && decide (64 ≤ r.data.length))
/-- Two requests whose order is kept: of the same line, and not both reads (R441). -/
def DramReq.ordered (x y : DramReq) : Bool := x.line == y.line && (x.write || y.write)

/-- A request raised to the classes that later requests behind it lend (R441); a lent class is kept. -/
def lendTo (now : Nat) (x : DramReq) (later : List DramReq) : DramReq :=
  let c := ((later.filter (fun y => x.ordered y)).map (·.cls)).foldl min x.cls
  if c < x.cls then { x with cls := c, classAt := now } else x
/-- Every request of a queue, oldest first, with what is lent to it; a lent class is lent on. -/
def lendAll (now : Nat) : List DramReq → List DramReq
  | [] => []
  | x :: r => let l := lendAll now r; lendTo now x l :: l

/-- A request finds an entry that it may use: 64 of each kind, eight of them for C0 and C1 (R439). -/
def DramChan.room (d : DramChan) (r : DramReq) : Bool :=
  decide ((d.queue.filter (fun x => x.write == r.write)).length < if r.cls ≤ 1 then 64 else 56)
/-- Requests held at their ports are accepted, in their order, as far as there are entries; age counts from then (R439).
(Log DEDUCED 121) -/
def DramChan.accept (now : Nat) (d : DramChan) : DramChan :=
  d.held.foldl (fun (a : DramChan) (r : DramReq) =>
    if a.room r && !a.held.any (fun x => x.client == r.client) then
      { a with queue := lendAll now (a.queue ++ [{ r with at_ := now, classAt := now }]) }
    else { a with held := a.held ++ [r] }) { d with held := [] }
/-- A request of a line, behind those of its client that are held already. -/
def State.request (s : State) (r : DramReq) : State :=
  s.modChanD (chanOf (64 * r.line)) fun d =>
    let id := ((d.queue ++ d.held).map (·.id)).foldl max 0 + 1
    { d with held := d.held ++ [{ r with id := id }] }.accept s.now
/-- A read of a line, and a write of bytes of a line from an offset. -/
def State.dramRead (s : State) (line cls : Nat) (c : Client) (fill : Bool) : State :=
  s.request { id := 0, line := line, write := false, cls := cls, at_ := s.now, classAt := s.now, timeouts := 0, client := c, fill := fill }
def State.dramWrite (s : State) (line off : Nat) (data : List Byte) (poison : Bool) (cls : Nat) (c : Client) : State :=
  s.request { id := 0, line := line, write := true, cls := cls, at_ := s.now, classAt := s.now, timeouts := 0, client := c
              off := off, data := data, poison := poison }
/-- A line's write-backs by the caches that no controller has accepted yet: the eviction buffer (R454). -/
def evicting (s : State) (line : Nat) : Bool :=
  (s.chan (chanOf (64 * line))).held.any (fun r => r.write && r.line == line && r.client == .cacheWrite)

/-- The bank of a line, its bank group, rank and subchannel with it, and its row (R425). -/
def bankOf (cfg line : Nat) : Nat × Nat :=
  let pa := 64 * line
  let group := (pa / 2 ^ 8 % 8) ^^^ (pa / 2 ^ 21 % 8)
  let bank := (pa / 2 ^ 17 % 4) ^^^ (pa / 2 ^ 24 % 4)
  let two := decide (2 ≤ cfg)
  (group + 8 * bank + 32 * (pa / 64 % 2) + 64 * (if two then pa / 2 ^ 19 % 2 else 0), pa / (if two then 2 ^ 20 else 2 ^ 19))
/-- A request hits a row that is open. -/
def DramChan.rowHit (cfg : Nat) (d : DramChan) (r : DramReq) : Bool :=
  Tbl.get none d.rows (bankOf cfg r.line).1 == some (bankOf cfg r.line).2

/-- The requests that no earlier one of their line holds back (R441). -/
def unblocked : List DramReq → List DramReq → List DramReq
  | _, [] => []
  | before, x :: r => (if before.any (fun y => y.ordered x) then [] else [x]) ++ unblocked (before ++ [x]) r
/-- The request that a channel issues next (R439): in a batch the writes, and outside of one the reads, with C0 and C1 always in their
class order; of those the highest class, reads before writes, and the oldest, which a hit of an open row passes four times in a row.
(Log DESIGN CHOICE 165) -/
def DramChan.pick (cfg : Nat) (d : DramChan) : Option DramReq :=
  let batch := d.batch || !d.queue.any (fun r => !r.write)
  let may := (unblocked [] d.queue).filter (fun r => decide (r.cls ≤ 1) || (r.write == batch))
  let best := (may.map (·.cls)).foldl min 9
  let top := may.filter (fun r => decide (r.cls = best))
  let kind := if top.any (fun r => !r.write) then top.filter (fun r => !r.write) else top
  match kind.head?, kind.find? (fun r => d.rowHit cfg r) with
  | some x, some y => some (if d.passes < 4 then y else x)
  | x, _ => x
/-- A channel with a picked request taken out: its row opened, the passes counted, and the batch of writes begun at 48 and ended at 16. -/
def DramChan.issued (cfg : Nat) (now : Nat) (d : DramChan) (r : DramReq) : DramChan :=
  let older := match (unblocked [] d.queue).find? (fun x => decide (x.cls = r.cls) && (x.write == r.write)) with
    | some x => decide (x.id ≠ r.id)
    | none => false
  let q := d.queue.filter (fun x => x.id != r.id)
  let writes := (q.filter (fun (x : DramReq) => x.write)).length
  let at_ := bankOf cfg r.line
  { d with queue := q, rowTimeouts := 0, rows := Tbl.set none d.rows at_.1 (some at_.2), passes := if older then d.passes + 1 else 0
           batch := if 48 ≤ (d.queue.filter (fun (x : DramReq) => x.write)).length then true else d.batch && decide (16 < writes) }.accept now

end Sys2Proof.Machine
end

