-- ==== Sys2Proof/Machine/Memory.lean ====
section
/-! DEFINITION. The caches and their maintenance, what a restart of the management complex does to them, memory errors, the Burnisher,
timeouts, retraining and refresh (R428 to R430, R440, R443 to R457, R481). -/

namespace Sys2Proof.Machine

open Sys2Proof

/-! ## The caches: structure and write-back (R449 to R456) -/

def State.cache (s : State) : Cache → CacheState
  | .l1i c => if c.val = 0 then s.mem.l1i0 else s.mem.l1i1
  | .l1d c => if c.val = 0 then s.mem.l1d0 else s.mem.l1d1
  | .l2 => s.mem.l2
def State.modCache (s : State) (k : Cache) (f : CacheState → CacheState) : State :=
  match k with
  | .l1i c => if c.val = 0 then s.modMem fun m => { m with l1i0 := f m.l1i0 } else s.modMem fun m => { m with l1i1 := f m.l1i1 }
  | .l1d c => if c.val = 0 then s.modMem fun m => { m with l1d0 := f m.l1d0 } else s.modMem fun m => { m with l1d1 := f m.l1d1 }
  | .l2 => s.modMem fun m => { m with l2 := f m.l2 }
/-- Sets and ways (R449). -/
def cacheSets : Cache → Nat
  | .l2 => 4096
  | _ => 128
def cacheWays : Cache → Nat
  | .l2 => 16
  | _ => 4
/-- The index of a way in the cache's table. -/
def cacheAt (k : Cache) (set way : Nat) : Nat := set * cacheWays k + way

/-- The valid ways of a cache that hold a line: index and content. -/
def CacheState.held (c : CacheState) (line : Nat) : List (Nat × CacheLine) :=
  c.lines.filterMap (fun e => match e.2 with | some l => if l.line = line then some (e.1, l) else none | none => none)
/-- All valid lines. -/
def CacheState.all (c : CacheState) : List (Nat × CacheLine) :=
  c.lines.filterMap (fun e => match e.2 with | some l => some (e.1, l) | none => none)
def CacheState.put (c : CacheState) (i : Nat) (l : Option CacheLine) : CacheState := { c with lines := Tbl.set none c.lines i l }

/-- A dirty line goes to DRAM (R449, R454, R455): its write-back stands in the eviction buffer until a controller accepts it. -/
def State.toDram (s : State) (l : CacheLine) : State := s.dramWrite l.line 0 l.data l.poison 2 .cacheWrite

/-- A dirty line of an L1D goes to the L2, or past it where the L2 does not hold the line. -/
def State.toL2 (s : State) (l : CacheLine) : State :=
  match (s.mem.l2.held l.line).head? with
  | some (i, x) => s.modCache .l2 fun c => c.put i (some { x with dirty := true, data := l.data, poison := x.poison || l.poison })
  | none => s.toDram l

/-- The way at an index cleaned: dirty data written onward (R453). -/
def cleanWay (s : State) (k : Cache) (i : Nat) : State :=
  match Tbl.get none (s.cache k).lines i with
  | none => s
  | some l =>
    if l.dirty = false then s
    else
      let s1 := s.modCache k fun c => c.put i (some { l with dirty := false })
      match k with
      | .l1i _ => s1
      | .l1d _ => s1.toL2 l
      | .l2 => s1.toDram l
/-- The way at an index made invalid, its dirty data discarded. -/
def dropWay (s : State) (k : Cache) (i : Nat) : State := s.modCache k fun c => c.put i none

/-- The two L1Ds and the two L1Is. -/
def l1ds : List Cache := [.l1d 0, .l1d 1]
def l1is : List Cache := [.l1i 0, .l1i 1]

/-- What a maintenance operation does to a way: clean first, then invalidate. -/
structure MaintOp where
  clean : Bool
  inval : Bool
  deriving DecidableEq, Repr

/-- An operation on the ways of enabled cache `k` that hold a line; a disabled cache is not affected (R453). -/
def maintLine (o : MaintOp) (k : Cache) (line : Nat) (s : State) : State :=
  if (s.cache k).en = false then s
  else
    let ways := ((s.cache k).held line).map (·.1)
    let s1 := if o.clean then ways.foldl (fun a i => cleanWay a k i) s else s
    if o.inval then ways.foldl (fun a i => dropWay a k i) s1 else s1

/-- An operation by PA on the L2, recalling the L1D copies (R453). -/
def maintL2 (o : MaintOp) (line : Nat) (s : State) : State :=
  if s.mem.l2.en = false then s
  else maintLine o .l2 line (l1ds.foldl (fun a k => maintLine { clean := o.clean, inval := true } k line a) s)

/-- ERR set in a cache's status (R453). -/
def setErr (s : State) (k : Cache) : State := s.modCache k fun c => { c with err := true }

/-- The caches that a refused operation names: the target's, or every cache for TARGET 0. -/
def namedCaches (core : Fin 2) (target : Nat) : List Cache :=
  match target with
  | 1 => [.l1i core]
  | 2 => [.l1d core]
  | 3 => [.l2]
  | _ => l1is ++ l1ds ++ [Cache.l2]

/-- An operation by PA, on the caches that its target names (R453). -/
def maintPa (o : MaintOp) (target line : Nat) (s : State) : State :=
  match target with
  | 0 => maintL2 o line ((l1is ++ l1ds).foldl (fun a k => maintLine o k line a) s)
  | 1 => l1is.foldl (fun a k => maintLine o k line a) s
  | 2 => l1ds.foldl (fun a k => maintLine o k line a) s
  | _ => maintL2 o line s
/-- The cache whose conflict queue an operation by PA waits in: one that fills the line, at any level, or that a disable walks
(R454, R458). -/
def conflictCache (s : State) (line : Nat) : Option Cache :=
  match s.mem.fills.find? (fun f => f.line == line) with
  | some f => some (if s.mem.l2.en then Cache.l2 else f.l1.getD Cache.l2)
  | none => (l1is ++ l1ds ++ [Cache.l2]).find? (fun k => (s.cache k).walking)
/-- An operation by PA of a core: it applies at once, or waits in a conflict queue; with the queue full the core stalls (R454). -/
def maintAsk (r : MaintReq) (s : State) : State :=
  match conflictCache s r.line with
  | none => maintPa { clean := r.clean, inval := r.inval } r.target r.line s
  | some k =>
    if (s.cache k).conflict.length < 8 then s.modCache k fun c => { c with conflict := c.conflict ++ [r] }
    else s.modMem fun m => { m with stalled := m.stalled ++ [r] }
/-- The operations that waited in a cache's conflict queue, and those of stalled cores, are made or wait again (R454, R458). -/
def releaseMaint (s : State) : State :=
  let ks := l1is ++ l1ds ++ [Cache.l2]
  let rs := ks.flatMap (fun k => (s.cache k).conflict) ++ s.mem.stalled
  let s1 := ks.foldl (fun (a : State) (k : Cache) => a.modCache k fun c => { c with conflict := [] }) (s.modMem fun m => { m with stalled := [] })
  rs.foldl (fun a r => maintAsk r a) s1

/-- A write to CM_CMD for CLEAN, INVALIDATE or both (R453): by the PA in CM_ADDR, or by set and way. -/
def maint (o : MaintOp) (core : Fin 2) (w : Word) (s : State) : State :=
  let way := bitsOf w.toNat 31 28
  let set := bitsOf w.toNat 27 16
  let target := bitsOf w.toNat 5 4
  if w.toNat.testBit 6 then
    match namedCaches core target with
    | [k] =>
      if cacheSets k ≤ set ∨ cacheWays k ≤ way then setErr s k
      else if (s.cache k).en = false then s
      else
        let i := cacheAt k set way
        let line := match Tbl.get none (s.cache k).lines i with | some l => some l.line | none => none
        let s1 := if o.clean then cleanWay s k i else s
        if o.inval = false then s1
        else
          let s2 := dropWay s1 k i
          match k, line with
          | .l2, some n => l1ds.foldl (fun a c => maintLine { clean := false, inval := true } c n a) s2
          | _, _ => s2
    | ks => ks.foldl setErr s
  else
    let line := (if core.val = 0 then s.mem.cmAddr0 else s.mem.cmAddr1).toNat % 2 ^ 31
    maintAsk { core := core, clean := o.clean, inval := o.inval, target := target, line := line } s

/-- A write to CM_CMD needs PD1 (R463). (Log DESIGN CHOICE 7) -/
def cmWrite (s : State) (t : State) : State := if s.powered 1 then t else s

/-- CLEAN (R453). -/
def execClean (core : Fin 2) (w : Word) (s : State) : Host.Outcome State Fault Refusal :=
  .next (cmWrite s (maint { clean := true, inval := false } core w s))
/-- INVALIDATE (R453): dirty data is discarded. -/
def execInvalidate (core : Fin 2) (w : Word) (s : State) : Host.Outcome State Fault Refusal :=
  .next (cmWrite s (maint { clean := false, inval := true } core w s))
/-- CLEAN+INVALIDATE (R453). -/
def execCleanInvalidate (core : Fin 2) (w : Word) (s : State) : Host.Outcome State Fault Refusal :=
  .next (cmWrite s (maint { clean := true, inval := true } core w s))

/-- Every line of a cache invalid, its LFSR reseeded, INV_DONE set (R450, R452). (Log DESIGN CHOICE 120) -/
def invalidateCache (s : State) (k : Cache) : State :=
  s.modCache k fun c => { c with lines := [], invDone := true, lfsr := 0xACE1 }

/-- INVALIDATE_ALL (R453): refused unless the named cache is disabled, and for TARGET 0. -/
def execInvalidateAll (core : Fin 2) (w : Word) (s : State) : Host.Outcome State Fault Refusal :=
  match namedCaches core (bitsOf w.toNat 5 4) with
  | [k] => .next (cmWrite s (if (s.cache k).en then setErr s k else invalidateCache s k))
  | ks => .next (cmWrite s (ks.foldl setErr s))

/-- Every line of a cache cleaned and invalidated. -/
def walkCache (s : State) (k : Cache) : State :=
  let s1 := (s.cache k).all.foldl (fun a e => cleanWay a k e.1) s
  s1.modCache k fun c => { c with lines := [] }

/-- The end of a disable walk (R452); what waited behind it follows (R458). -/
def execCacheDisableWalkDone (c : Cache) (s : State) : Host.Outcome State Fault Refusal :=
  if (s.cache c).walking then
    .next (releaseMaint ((walkCache s c).modCache c fun x => { x with walking := false, invDone := true }))
  else .next s

/-- The cache pattern fields taken at a span boundary (R452, R459): a disable starts the walk. -/
def cacheEnable (s : State) : State :=
  let one (s : State) (k : Cache) (v : Bool) : State :=
    s.modCache k fun c =>
      if v then (if c.invDone && !c.walking then { c with en := true } else c)
      else if c.en then { c with en := false, walking := true } else c
  let s1 := one (one s (.l1i 0) (s.pval 0x0A00 0 == 1)) (.l1i 1) (s.pval 0x0A00 1 == 1)
  let s2 := one (one s1 (.l1d 0) (s.pval 0x0A01 0 == 1)) (.l1d 1) (s.pval 0x0A01 1 == 1)
  one s2 .l2 (s.pval 0x0A02 0 == 1)

/-! ## Restart of the management complex (R22, R456, R481, R482) -/

/-- What a management restart does to the caches (R456): `l2err` says that an L2 error caused it, `skip` is the L1D way
whose error caused it. What the cores waited for is gone with them. -/
def restartCaches (s : State) (l2err : Bool) (skip : Option (Cache × Nat)) : State :=
  let s' := s.modMem fun m => { m with stalled := [], waiting := m.waiting.filter (fun a => match a.agent with | .hardware _ => true | .core _ => false) }
  let s0 := match skip with | some (k, i) => dropWay s' k i | none => s'
  let s1 := l1ds.foldl walkCache s0
  let s2 := l1is.foldl (fun a k => a.modCache k fun c => { c with lines := [] }) s1
  if l2err then walkCache s2 .l2 else s2

/-- A restart of the management complex: write runs pause at a block boundary (R22), the SPDM sessions end (R415); counted restarts lead at the third
within 10 minutes to SAFE-STOP and a self-reset (R482). Where no firmware runs there is nothing to restart.
(Log DEDUCED 122, 142) -/
def mgmtRestart (s : State) (counted l2err : Bool) (skip : Option (Cache × Nat)) : State :=
  if s.mode.firmware = false then s else
  let s1 := restartCaches s l2err skip
  let s2 := allBays.foldl (fun a b => if (a.bay b).state = .write then a.boundaryStop b else a) s1
  let recent := s.aon.restarts.filter (fun t => s.now < t + secs 600) ++ (if counted then [s.now] else [])
  let s3 := { s2 with mgmt := { s2.mgmt with restarting := true, running := false }
                      sec := { s2.sec with sessions := [] }
                      aon := { s2.aon with restarts := recent, kick0 := s.now, kick1 := s.now } }
  if counted ∧ 3 ≤ recent.length then s3.beginSelfReset else s3

/-! ## Cache errors (R455) -/

/-- The SRAM block code of a cache's data (R445), and of the L2's tags. -/
def cacheBlock (k : Cache) (tag : Bool) : Nat :=
  match k with
  | .l1i c => 0x30 + 2 * c.val
  | .l1d c => 0x31 + 2 * c.val
  | .l2 => if tag then 0x21 else 0x20

/-- A fatal cache error: counted, and CACHE_FATAL logged. (Log DEDUCED 122) -/
def cacheFatal (s : State) (k : Cache) (tag : Bool) : State :=
  (s.modCache k fun c => { c with fatal := min 255 (c.fatal + 1) }).log .device 0x0306 0xFF (cacheBlock k tag)

/-- A cache error noted: PAR counts it, and page 0x05 of SRAM errors takes it; the word's index is a free value.
(Log DESIGN CHOICE 5) -/
def cacheNote (s : State) (k : Cache) (cls kind : Nat) (tag : Bool) : State :=
  let f := (s.modCache k fun c => { c with par := min 255 (c.par + 1) }).fresh
  f.2.errNote 2 (cacheBlock k tag * 2 ^ 56 + f.1 % 2 ^ 32) cls kind 0

/-- The L1 lines that an L2 tag error at a set covers: both cores' lines of L1 set (set mod 128) whose PA[17:13] is
set div 128 (R455). (Log DEDUCED 123) -/
def tagLines (s : State) (k : Cache) (set : Nat) : List (Nat × CacheLine) :=
  (s.cache k).all.filter (fun e => e.1 / 4 == set % 128 && e.2.line / 128 % 32 == set / 128)

/-- The data that a reader delivers where its correction was wrong. -/
def flipBits (data : List Byte) (bits : List Nat) : List Byte :=
  bits.foldl (fun l n => l.set (n / 8) (l.getD (n / 8) 0 ^^^ BitVec.ofNat 8 (2 ^ (n % 8)))) data

/-- A cache error (R455). An error kind that the cache does not have, or a set or way beyond it, changes nothing.
(Log DEDUCED 123) -/
def execCacheError (c : Cache) (f : CacheFault) (set way : Nat) (s : State) : Host.Outcome State Fault Refusal :=
  if s.powered 1 = false ∨ cacheSets c ≤ set ∨ cacheWays c ≤ way then .next s
  else
    let i := cacheAt c set way
    let line := Tbl.get none (s.cache c).lines i
    let dirty := match line with | some l => l.dirty | none => false
    match c, f with
    | .l1i _, .l1iParity => .next (dropWay (cacheNote s c 6 kBad false) c i)
    | .l1d _, .l1dParity =>
      let s1 := cacheNote s c 6 kBad false
      if dirty = false then .next (dropWay s1 c i)
      else
        let s2 := match line with
          | some l => (match (s1.mem.l2.held l.line).head? with
            | some (j, x) => s1.modCache .l2 fun d => d.put j (some { x with poison := true })
            | none => s1)
          | none => s1
        .next (mgmtRestart (cacheFatal s2 c false) true false (some (c, i)))
    | .l2, .l2Data word flips =>
      match l2Verdict flips with
      | .clean => .next s
      | .fixed at_ =>
        let wrong := ((symDiff flips.eraseDups at_).filter (fun i => decide (i < 64))).map (fun i => 64 * word.val + i)
        .next ((cacheNote s c 4 kOne false).modCache c fun x => x.put i (line.map fun l => { l with data := flipBits l.data wrong }))
      | .bad =>
      let s1 := cacheNote s c 4 kBad false
      match line with
      | some l =>
        if l.dirty then
          .next (mgmtRestart (cacheFatal (dropWay (s1.toDram { l with poison := true }) c i) c false) true true none)
        else .next (dropWay s1 c i)
      | none => .next s1
    | .l2, .l2TagParity =>
      let s1 := cacheNote s c 5 kBad true
      let l1dirty := l1ds.any (fun k => (tagLines s k set).any (fun e => e.2.dirty))
      if dirty || l1dirty then .next (mgmtRestart (cacheFatal (dropWay s1 c i) c true) true true none)
      else
        .next ((l1is ++ l1ds).foldl (fun a k => (tagLines a k set).foldl (fun a e => dropWay a k e.1) a) (dropWay s1 c i))
    | _, _ => .next s

/-! ## DRAM errors (R443, R444) -/

/-- A corrected line's write-back joins its channel's requests, in C4; it is dropped where a write to the line has been accepted since the
read, which is one that still waits (R441, R443). (Log DEDUCED 121) -/
def queueWriteBack (s : State) (line : Nat) (data : List Byte) (c : Client) : State :=
  if (s.chan (chanOf (64 * line))).queue.any (fun r => r.write && r.line == line) then s else s.dramWrite line 0 data false 4 c

/-- The corrected errors of a line noted: each failing codeword counts in CE and in page 0x05 (R443, R445). -/
def noteCorrected (s : State) (line : Nat) (batten : Bool) (k : LineCheck) (burnish : Bool) : State :=
  let size := if batten then 4 else 8
  let bump (s : State) (w kind : Nat) : State :=
    (s.modChanD (chanOf (64 * line)) fun d => { d with ce := min 255 (d.ce + 1) }).dramErr (64 * line + size * w) batten
      (kind + if burnish then kBurnish else 0)
  let s1 := k.one.foldl (fun a w => bump a w kOne) s
  let s2 := k.two.foldl (fun a w => bump a w kTwo) s1
  if k.poison = 1 then bump s2 0 kOne else s2

/-- A read of a line whose stored bits `flips` are inverted: corrected, uncorrectable, poisoned, or clean. -/
inductive LineRead | clean | corrected | uncorrectable | poisoned
  deriving DecidableEq, Repr
def readOf (m : Memory) (batten : Bool) (line : Nat) (flips : List Nat) : LineRead :=
  let k := checkLine batten flips
  let bits := if batten then 16 else 8
  let set := if m.poisoned.contains line then bits - k.poison else k.poison
  if 2 ≤ set then .poisoned
  else if !k.bad.isEmpty then .uncorrectable
  else if k.one.isEmpty ∧ k.two.isEmpty ∧ set = 0 then .clean
  else .corrected

/-- Whether an address's region uses the Batten code. -/
def battenAt (m : Memory) (pa : Nat) : Bool := match m.regionOf pa with | some r => r.code | none => false

/-- The word of an on-chip SRAM that a client names: its address in page 0x05 (R437, R445). -/
def sramWord : Client → Option Nat
  | .feedFifo b w _ _ => some (b.val * 2 ^ 56 + w % 2 ^ 32)
  | .ingest w => some (0x10 * 2 ^ 56 + w % 2 ^ 32)
  | .codec w => some (0x11 * 2 ^ 56 + w % 2 ^ 32)
  | .egressSram w => some (0x12 * 2 ^ 56 + w % 2 ^ 32)
  | _ => none
/-- What the reader of an SRAM word decides whose codeword bits `flips` are inverted (R434, R437). -/
def sramVerdict (flips : List Nat) : Verdict :=
  purlinVerdict (xorAll (((flips.filter (fun p => decide (p < 79))).eraseDups).map purlinPow))

/-- A corrected read (R443), or a corrected word of an on-chip SRAM (R437, R445). (Log DESIGN CHOICE 117) -/
def execDramCorrectedError (c : Client) (pa : Nat) (flips : List Nat) (s : State) : Host.Outcome State Fault Refusal :=
  match sramWord c with
  | some a =>
    .next (match sramVerdict flips with | .fixed l => s.errNote 2 a 3 (if l.length = 1 then kOne else kTwo) 0 | _ => s)
  | none =>
  let batten := battenAt s.mem pa
  if (s.mem.regionOf pa).isNone ∨ readOf s.mem batten (pa / 64) flips ≠ .corrected then .next s
  else
    let k := checkLine batten flips
    .next (queueWriteBack (noteCorrected s (pa / 64) batten k (c == .burnisher)) (pa / 64)
      (flipBits (s.mem.readBytes (64 * (pa / 64)) 64) k.residual) c)

/-- A queue pair's peer is unreachable (R339, R353). (Log DEDUCED 57) -/
def peerLost (s : State) (q : QpId) : State :=
  if (s.qp q).state = .opened then
    (s.modQp q fun p => { p with state := .unreachable, lostAt := s.now }).log .ring 0x0102 0xFF (qpNumber q)
  else s

/-- Entry of a data QP to DELETING (R353): SQEs not taken and unacknowledged completions are discarded. Commands in
flight end with ABORTED, their CQEs discarded, and the QP becomes FREE once its tags are released. QP 0 never enters it.
(Log DEDUCED 61) -/
def deleteQp (s : State) (q : QpId) : State :=
  match q with
  | .admin _ => s
  | .data _ =>
    let s1 := s.modQp q fun p =>
      { p with state := .deleting, sq := [], txWait := p.txWait.filter (fun f => f.ftype != 3)
               unacked := p.unacked.filter (fun f => f.ftype != 3) }
    (s1.tags.filter (fun c => c.q == q)).foldl (fun a c =>
      (a.giveUpAppend c).finishFree q c.sqe.tag stAborted 0 c.taken.length) s1

/-- What the requester of an uncorrectable or poisoned read does (R444). (Log DEDUCED 118) -/
def clientLoss (s : State) (c : Client) (pa : Nat) (k : LineCheck) : State :=
  match c with
  | .latePass b i first => s.modChan b fun h =>
      { h with seam := h.seam.zipIdx.map fun e => if e.2 = i then
          { e.1 with part := e.1.part.zipIdx.map fun v => if first ≤ v.2 ∧ v.2 < first + 64 then 0 else v.1
                     mask := e.1.mask.zipIdx.map fun v => v.1 || decide (first ≤ v.2 ∧ v.2 < first + 64) } else e.1 }
  | .retryStore b e => s.modChan b fun h => { h with retry := h.retry.take e ++ h.retry.drop (e + 1) }
  | .reassembly b l n sec =>
    { s with recov := { s.recov with blocks := s.recov.blocks.map (fun x =>
        if x.bay = b ∧ x.layer = l.val ∧ x.block = n then
          { x with secs := Tbl.upd {} x.secs sec (fun r => { r with state := .failed, bytes := [] }) }
        else x) } }
  | .feeder _ _ _ => s
  | .writeBuffer h => s.stopCourse h .stopped
  | .rebuildBuffer course row member =>
    { s with recov := { s.recov with sessions := s.recov.sessions.map (fun r =>
        if r.course = course.toNat then { r with held := r.held.filter (fun e => !(e.1 == row && e.2.1 == member)) } else r) } }
  | .queueSqe q tag =>
    if k.bad.contains 0 ∨ k.bad.contains 1 ∨ 2 ≤ k.poison then
      (deleteQp s q).log .device 0x0301 0xFF (qpNumber q)
    else if (s.cmd? q tag).isSome then s.finishFree q tag stAborted 0 0
    else s.modQp q fun p => { p with sq := p.sq.filter (fun e => leNat ((e.bytes.drop 2).take 2) % 2048 != tag) }
  | .retransmission q _ rebuilt => if rebuilt then s else peerLost s q
  | .coreImage _ ok => if ok then s.log .device 0x0307 0xFF (paDetail pa) else mgmtRestart s true false none
  | .coreData _ => mgmtRestart s true false none
  | .cacheWrite => mgmtRestart s true false none
  | .feedFifo b _ beams cb =>
    (match (s.bay b).disc, (s.bay b).write with
     | some d, some w =>
       let hit := (recordingAt d.dtype w.layer w.low (w.limit d.dtype) w.j w.bad).filter (fun a => beams.any (fun x => x.val == psaSpiral a))
       if (s.bay b).state = .write ∧ w.feeding then
         s.modWrite b fun w => { w with bad := addNew w.bad hit, cuts := w.cuts ++ beams.map (fun x => (x.val, cb)) }
       else s
     | _, _ => s)
  | .ingest _ => { s with ring := { s.ring with ingestLost := true } }
  | .burnisher | .merge | .codec _ | .egressSram _ => s

/-- Bytes written over a line's own from an offset. -/
def mergeLine (old : List Byte) (off : Nat) (data : List Byte) : List Byte := (old.take off ++ data ++ old.drop (off + data.length)).take 64
/-- A queued read-modify-write whose read failed: the merged line is written poisoned, and its requester has a bus error (R442). -/
def poisonMerge (s : State) (line : Nat) : State :=
  match (s.chan (chanOf (64 * line))).queue.find? (fun r => r.line == line && r.merges) with
  | none => s
  | some r =>
    let s1 := s.modChanD (chanOf (64 * line)) fun d => { d with queue := d.queue.filter (fun x => x.id != r.id), rowTimeouts := 0 }
    clientLoss (s1.modMem fun m => m.writeLine line (mergeLine (m.readBytes (64 * line) 64) r.off r.data) true) r.client (64 * line)
      { one := [], two := [], bad := [0], poison := 0, residual := [] }

/-- An uncorrectable or poisoned read (R436, R443 to R447): logged, and the requester acts on the bus error.
(Log DESIGN CHOICE 117) -/
def execDramUncorrectable (c : Client) (pa : Nat) (flips : List Nat) (s : State) : Host.Outcome State Fault Refusal :=
  match sramWord c with
  | some a =>
    .next (if sramVerdict flips = .bad then clientLoss (s.errNote 2 a 3 kBad 0) c pa (checkLine false flips) else s)
  | none =>
  let batten := battenAt s.mem pa
  let r := readOf s.mem batten (pa / 64) flips
  if (s.mem.regionOf pa).isNone ∨ (r ≠ .uncorrectable ∧ r ≠ .poisoned) then .next s
  else
    let k := checkLine batten flips
    let kind := (if r = .poisoned then kPoison else kBad) + (if c == .burnisher then kBurnish else 0)
    let s1 := (s.dramErr (64 * (pa / 64) + (if batten then 4 else 8) * k.bad.headD 0) batten kind).log .device 0x0301 0xFF
      (paDetail pa)
    let s2 := if c == .burnisher ∧ r = .uncorrectable then
        s1.dramWrite (pa / 64) 0 (s.mem.readBytes (64 * (pa / 64)) 64) true 4 .burnisher
      else s1
    .next (if c == .merge then poisonMerge s2 (pa / 64) else clientLoss s2 c pa k)

/-- An access outside every region (R432). -/
def execDramUnmapped (c : Client) (pa : Nat) (s : State) : Host.Outcome State Fault Refusal :=
  match c, s.mem.regionOf pa with
  | _, some _ => .next s
  | _, none => .next (s.log .device 0x0305 0xFF (paDetail pa))

/-! ## The Burnisher (R447, R448) -/

/-- The lowest line at or above `line` that an enabled region covers. -/
def nextLine (m : Memory) (line : Nat) : Option Nat :=
  let cands := ((List.range 16).map m.region).filterMap (fun r =>
    if r.en ∧ line < (r.base + r.size) * 32768 ∧ 0 < r.size then some (max line (r.base * 32768)) else none)
  match cands with
  | [] => none
  | c :: rest => some (rest.foldl min c)

/-- The lines below an address's line that enabled regions cover, and all that they cover. -/
def linesBelow (m : Memory) (line : Nat) : Nat :=
  (((List.range 16).map m.region).map (fun r =>
    if r.en then min (r.size * 32768) (line - r.base * 32768) else 0)).foldl (· + ·) 0
def linesAll (m : Memory) : Nat :=
  (((List.range 16).map m.region).map (fun r => if r.en then r.size * 32768 else 0)).foldl (· + ·) 0

/-- The Burnisher pauses (R448). -/
def burnPaused (s : State) (line : Nat) : Bool :=
  decide (s.pval 0x0301 0 = 0) || decide (2 ≤ s.eave.step) || (s.chan (chanOf (64 * line))).retraining

/-- The Burnisher reads its next line (R447): corrected in place, or rewritten poisoned. -/
def execBurnisherRead (flips : List Nat) (s : State) : Host.Outcome State Fault Refusal :=
  match nextLine s.mem s.mem.burnLine with
  | none => .next s
  | some line =>
    if s.mgmt.trained0 = false ∨ s.mgmt.trained1 = false ∨ burnPaused s line then .next s
    else
      let batten := battenAt s.mem (64 * line)
      let k := checkLine batten flips
      let s1 := match readOf s.mem batten line flips with
        | .clean => s
        | .corrected =>
          queueWriteBack (noteCorrected s line batten k true) line (flipBits (s.mem.readBytes (64 * line) 64) k.residual) .burnisher
        | .uncorrectable =>
          ((s.dramErr (64 * line + (if batten then 4 else 8) * k.bad.headD 0) batten (kBad + kBurnish)).log .device 0x0301
            0xFF (paDetail (64 * line))).dramWrite line 0 (s.mem.readBytes (64 * line) 64) true 4 .burnisher
        | .poisoned => (s.dramErr (64 * line) batten (kPoison + kBurnish)).log .device 0x0301 0xFF (paDetail (64 * line))
      .next (s1.modMem fun m =>
        match nextLine m (line + 1) with
        | some n => { m with burnLine := n, burnRunning := true }
        | none => { m with burnLine := (nextLine m 0).getD 0, burnRunning := false, burnPasses := min 255 (m.burnPasses + 1) })

/-! ## Timeouts, retraining, refresh (R428 to R430, R440) -/

/-- A C0 request waits: one in a queue, a feeder whose FIFO is in panic, or ingest in panic (R438, R457). -/
def panicWaits (s : State) (c : Nat) : Bool :=
  (s.chan c).queue.any (fun r => r.cls == 0) || s.ring.ingestPanic
    || allBays.any (fun b => match (s.bay b).write with | some w => w.panic && w.feeding | none => false)

/-- A retrain starts (R429): the channel's requests are held. -/
def startRetrain (s : State) (c : Nat) : State :=
  (s.modChanD c fun d =>
    { d with state := .quick, quickTries := 1, rowTimeouts := 0, retrains := min 15 (d.retrains + 1)
             refreshes := d.refreshes + d.postponed, postponed := 0 }).log .device 0x0303 0xFF (c + 256)

/-- What ends with a bus error after three timeouts: the request leaves its queue and its requester acts (R429, R444). -/
def timeoutLoss (s : State) (c : Nat) (r : DramReq) : State :=
  let s1 := (s.modChanD c fun d => { d with queue := d.queue.filter (fun x => x.id != r.id) }).dramErr (64 * r.line)
    (battenAt s.mem (64 * r.line)) kTimeout
  let s2 := s1.log .device 0x0302 0xFF (paDetail (64 * r.line))
  clientLoss s2 r.client (64 * r.line) { one := [], two := [], bad := [0], poison := 0, residual := [] }

/-- A request not completed within 50 µs is reissued; the third time it ends with a bus error; three timeouts in a row on
a channel retrain it (R429). -/
def execDramRequestTimeout (ch : Fin 2) (req : Nat) (s : State) : Host.Outcome State Fault Refusal :=
  let d := s.chan ch
  match d.queue.find? (fun r => r.id == req) with
  | some r =>
    if d.state = .up ∧ r.at_ + 10 ≤ s.now then
      let s1 := s.modChanD ch fun d =>
        { d with timeouts := min 15 (d.timeouts + 1), rowTimeouts := d.rowTimeouts + 1
                 queue := d.queue.map (fun x => if x.id = req then { x with timeouts := x.timeouts + 1, at_ := s.now } else x) }
      let s2 := if 3 ≤ r.timeouts + 1 then timeoutLoss s1 ch r else s1
      .next (if 3 ≤ (s2.chan ch).rowTimeouts then startRetrain s2 ch else s2)
    else .next s
  | none => .next s

/-- A refresh falls due (R430): postponed by at most four intervals while a C0 request waits. A latched ZQ calibration is
made with it (R428). -/
def execRefresh (ch : Fin 2) (s : State) : Host.Outcome State Fault Refusal :=
  let d := s.chan ch
  if d.state ≠ .up then .next s
  else if panicWaits s ch ∧ d.postponed < 4 then .next (s.modChanD ch fun d => { d with postponed := d.postponed + 1 })
  else
    .next (s.modChanD ch fun d =>
      { d with refreshes := d.refreshes + d.postponed + 1, postponed := 0, hot := d.nextHot, rows := []
               zqCount := if d.zqDue then d.zqCount + 1 else d.zqCount, zqDue := false })

/-- Every 128 ms a ZQ calibration is due, latched at the next refresh (R428). -/
def execZqCalibration (ch : Fin 2) (s : State) : Host.Outcome State Fault Refusal :=
  if (s.chan ch).state = .up then .next (s.modChanD ch fun d => { d with zqDue := true }) else .next s

/-- A request that has waited its age limit in its class is promoted by one (R440). (Log DEDUCED 121) -/
def execAgePromotion (ch : Fin 2) (req : Nat) (s : State) : Host.Outcome State Fault Refusal :=
  .next (s.modChanD ch fun d => { d with queue := lendAll s.now (d.queue.map (fun x =>
    if x.id = req ∧ 2 ≤ x.cls ∧ x.cls ≤ 4 ∧ x.classAt + (if x.cls = 4 then 4 else 0) ≤ s.now then
      { x with cls := x.cls - 1, classAt := s.now } else x)) })

/-- MR4 and the DQS oscillator, read every span (R428, R430): band, tREFI and timing set for the next refresh, and one
step of write timing when the drift exceeds 1/16 UI, in 1/64 UI. -/
def dramSpan (s : State) (c : Nat) (band : Nat) (drift : Int) : State :=
  s.modChanD c fun d =>
    if d.state = .up then
      { d with tband := band, measured := true, nextHot := decide (2 ≤ band)
               wrTiming := if 4 < drift then d.wrTiming + 1 else if drift < -4 then d.wrTiming - 1 else d.wrTiming }
    else d

end Sys2Proof.Machine
end

