-- ==== Sys2Proof/Machine/Accesses.lean ====
section
/-! DEFINITION. Accesses to memory: what the channels issue and what it does, fills and evictions of the caches, and the loads, fetches and
stores of the cores and the hardware agents (R432, R439 to R444, R449 to R454). -/

namespace Sys2Proof.Machine

open Sys2Proof

/-! ## Allocation (R449 to R451) -/

/-- The replacement LFSR, x¹⁶ + x¹⁵ + x¹³ + x⁴ + 1, advanced once (R450). -/
def lfsrNext (v : Half) : Half :=
  let bit := v.getLsbD 15 ^^ v.getLsbD 14 ^^ v.getLsbD 12 ^^ v.getLsbD 3
  (v <<< 1) ||| (if bit then 1#16 else 0#16)
/-- The set of a line in a cache. -/
def cacheSet (k : Cache) (line : Nat) : Nat := line % cacheSets k
/-- The way of a set that a line takes, of the first `n` ways, and the cache with its LFSR as the choice leaves it: the lowest invalid way,
or by the LFSR, whose low bits are its remainder by the number of ways (R450). (Log DESIGN CHOICE 166) -/
def victim (k : Cache) (n set : Nat) (c : CacheState) : Nat × CacheState :=
  match (List.range n).find? (fun w => (Tbl.get none c.lines (cacheAt k set w)).isNone) with
  | some w => (cacheAt k set w, c)
  | none => let v := lfsrNext c.lfsr; (cacheAt k set (v.toNat % n), { c with lfsr := v })
/-- A way about to be filled is emptied: an L1D's dirty data goes to the L2; the L2 recalls the L1Ds' copies first, and its dirty data goes to
DRAM (R449). -/
def evictWay (s : State) (k : Cache) (i : Nat) : State :=
  match Tbl.get none (s.cache k).lines i with
  | none => s
  | some l =>
    let s1 := match k with
      | .l2 => l1ds.foldl (fun a d => ((a.cache d).held l.line).foldl (fun a e => dropWay (cleanWay a d e.1) d e.1) a) s
      | _ => s
    dropWay (cleanWay s1 k i) k i
/-- A line put into a cache, among its first `n` ways. -/
def install (s : State) (k : Cache) (n line : Nat) (data : List Byte) (poison : Bool) : State :=
  let v := victim k n (cacheSet k line) (s.cache k)
  let s1 := evictWay (s.modCache k fun _ => v.2) k v.1
  s1.modCache k fun c => c.put v.1 (some { line := line, dirty := false, poison := poison, data := data })
/-- The ways in which the L2 takes a line: all of them, or L2_HW_WAYS for a hardware agent (R451). -/
def l2Ways (s : State) (hw : Bool) : Nat := if hw then s.pnat 0x0A03 0 else 16

/-- A cache serves hits: enabled, or while a disable walks it (R454). -/
def CacheState.serves (c : CacheState) : Bool := c.en || c.walking
/-- A held line that a cache serves. -/
def hit (s : State) (k : Cache) (line : Nat) : Option (Nat × CacheLine) :=
  if (s.cache k).serves then ((s.cache k).held line).head? else none
/-- The L1Ds' copies of a line recalled, all but one cache's: dirty data goes to the L2, and a store takes the copies away (R451). -/
def recallL1 (s : State) (line : Nat) (keep : Option Cache) (drop : Bool) : State :=
  (l1ds.filter (fun k => keep != some k)).foldl (fun a k => ((a.cache k).held line).foldl (fun a e =>
    let b := cleanWay a k e.1
    if drop then dropWay b k e.1 else b) a) s
/-- A store's bytes into a held line, which is dirty then. -/
def storeWay (s : State) (k : Cache) (i off : Nat) (data : List Byte) : State :=
  s.modCache k fun c => c.put i ((Tbl.get none c.lines i).map fun l => { l with dirty := true, data := mergeLine l.data off data })
/-- A store into the copy of a line that a cache holds, where it holds one. -/
def storeHeld (s : State) (k : Cache) (line off : Nat) (data : List Byte) : State :=
  match hit s k line with
  | some e => storeWay s k e.1 off data
  | none => s

/-! ## Accesses (R432, R449, R451, R454) -/

/-- Who a core's access reports to: region 0 holds the images, whose second copy is taken as good, and region 1 its data (R444).
(Log DESIGN CHOICE 166) -/
def agentClient (s : State) (a : MemAccess) : Client :=
  match a.agent with
  | .hardware c => c
  | .core n => if (s.mem.region 0).covers a.pa then .coreImage n true else .coreData n
/-- An access past the caches: a read or a write of its bytes (R442, R451). -/
def uncached (s : State) (a : MemAccess) : State :=
  let c := agentClient s a
  if a.kind = .store then s.dramWrite (a.pa / 64) (a.pa % 64) a.data false (clientClass s c) c
  else s.dramRead (a.pa / 64) (clientClass s c) c false
/-- A fill begins: its read is requested. -/
def beginFill (s : State) (a : MemAccess) (l1 : Option Cache) (hw : Bool) : State :=
  let c := agentClient s a
  let f : Fill := { line := a.pa / 64, l1 := l1, hw := hw, client := c, store := if a.kind = .store then some (a.pa % 64, a.data) else none }
  (s.modMem fun m => { m with fills := m.fills ++ [f] }).dramRead (a.pa / 64) (clientClass s c) c true
/-- The L1 of an access: a core's own. -/
def accessL1 (a : MemAccess) : Option Cache :=
  match a.agent, a.kind with
  | .core n, .fetch => some (.l1i n)
  | .core n, _ => some (.l1d n)
  | .hardware _, _ => none
/-- An access that the L2 holds the line of: the L1Ds' copies are recalled, an enabled L1 takes the line, and a store goes into it. A
poisoned line ends it with a bus error (R455). -/
def fromL2 (s : State) (a : MemAccess) (l1 : Option Cache) : State :=
  let line := a.pa / 64
  let s1 := recallL1 s line l1 (decide (a.kind = .store))
  match hit s1 .l2 line with
  | none => s1
  | some (i, x) =>
    if x.poison then clientLoss s1 (agentClient s a) a.pa { one := [], two := [], bad := [0], poison := 0, residual := [] }
    else match l1 with
      | some k =>
        let s2 := install s1 k (cacheWays k) line x.data false
        if a.kind = .store then storeHeld s2 k line (a.pa % 64) a.data else s2
      | none => if a.kind = .store then storeWay s1 .l2 i (a.pa % 64) a.data else s1
/-- An access to a cacheable line that no eviction or fill concerns. (Log DESIGN CHOICE 120) -/
def cached (s : State) (a : MemAccess) : State :=
  let line := a.pa / 64
  let own := accessL1 a
  let l1 := own.filter (fun k => (s.cache k).en)
  match own.bind (fun k => (hit s k line).map (fun e => (k, e))) with
  | some (k, e) =>
    if a.kind = .store then storeWay (recallL1 s line (some k) true) k e.1 (a.pa % 64) a.data else s
  | none =>
    if (hit s .l2 line).isSome then fromL2 s a l1
    else if s.mem.l2.en ∧ (own.isSome ∨ 0 < l2Ways s true) then beginFill s a l1 own.isNone
    else if l1.isSome ∧ a.kind = .fetch then beginFill s a l1 false
    else uncached s a
/-- An access to a line, outside every region, uncached, or through the caches; it waits for a fill of its line, and a store for the line's
eviction, behind earlier ones of its agent (R432, R451, R454). (Log DESIGN CHOICE 120) -/
def access (s : State) (a : MemAccess) : State :=
  match s.mem.regionOf a.pa with
  | none => s.log .device 0x0305 0xFF (paDetail a.pa)
  | some r =>
    let agent := match a.agent with | .core _ => true | .hardware c => decide (clientClass s c = 2)
    if r.cache = false ∨ agent = false then uncached s a
    else if s.mem.waiting.any (fun w => w.agent == a.agent) ∨ s.mem.fills.any (fun f => f.line == a.pa / 64) ∨
        (evicting s (a.pa / 64) ∧ a.kind = .store) then s.modMem fun m => { m with waiting := m.waiting ++ [a] }
    else if evicting s (a.pa / 64) then s
    else cached s a
/-- Accesses that wait are made again, in their order. (Log DESIGN CHOICE 120) -/
def retryWaiting (s : State) : State :=
  s.mem.waiting.foldl access (s.modMem fun m => { m with waiting := [] })

/-! ## What a channel issues (R439, R441, R442, R444) -/

/-- A line has come from DRAM for a fill: the caches take it, and its store goes into it; a cache disabled meanwhile takes nothing
(R449, R451, R454). -/
def retire (s : State) (f : Fill) (data : List Byte) : State :=
  let k1 := f.l1.filter (fun k => (s.cache k).en)
  let s1 := if s.mem.l2.en then install s .l2 (l2Ways s f.hw) f.line data false else s
  let s2 := match k1 with | some k => install s1 k (cacheWays k) f.line data false | none => s1
  match f.store with
  | none => s2
  | some (off, d) => match k1, hit s2 .l2 f.line with
    | some k, _ => storeHeld s2 k f.line off d
    | none, some e => storeWay s2 .l2 e.1 off d
    | none, none => s2.dramWrite f.line off d false 2 f.client
/-- A line read: a poisoned one ends with a bus error to its requester, and a fill takes a good one (R436, R444). -/
def readDone (s : State) (r : DramReq) : State :=
  let fill := if r.fill then s.mem.fills.find? (fun f => f.line == r.line) else none
  let s1 := if r.fill then s.modMem fun m => { m with fills := m.fills.filter (fun f => f.line != r.line) } else s
  if s.mem.poisoned.contains r.line then
    clientLoss ((s1.dramErr (64 * r.line) (battenAt s.mem (64 * r.line)) kPoison).log .device 0x0301 0xFF (paDetail (64 * r.line)))
      r.client (64 * r.line) { one := [], two := [], bad := [], poison := 16, residual := [] }
  else match fill with
    | some f => retire s1 f (s.mem.readBytes (64 * r.line) 64)
    | none => s1
/-- A write made: whole, or merged into the line's bytes; over a poisoned line the merged one stays poisoned, and the write ends with a bus
error (R436, R442). -/
def writeDone (s : State) (r : DramReq) : State :=
  let old := s.mem.readBytes (64 * r.line) 64
  if r.merges ∧ s.mem.poisoned.contains r.line then
    clientLoss (((s.modMem fun m => m.writeLine r.line (mergeLine old r.off r.data) true).dramErr (64 * r.line)
      (battenAt s.mem (64 * r.line)) kPoison).log .device 0x0301 0xFF (paDetail (64 * r.line)))
      r.client (64 * r.line) { one := [], two := [], bad := [], poison := 16, residual := [] }
  else s.modMem fun m => m.writeLine r.line (if r.merges then mergeLine old r.off r.data else r.data) r.poison
/-- A channel issues one command, with its effect (R439). (Log DEDUCED 121) -/
def issueOne (s : State) (c : Nat) : State :=
  let d := s.chan c
  if d.state ≠ .up then s
  else match d.pick s.aon.dramCfg.val with
    | none => s
    | some r =>
      let s1 := s.modChanD c fun d => d.issued s.aon.dramCfg.val s.now r
      if r.write then writeDone s1 r else readDone s1 r
/-- A feeder in panic raises its requests to C0; they keep it (R438, R440). -/
def raisePanic (s : State) : State :=
  let up (d : DramChan) : DramChan :=
    { d with queue := lendAll s.now (d.queue.map fun r => if clientClass s r.client = 0 then { r with cls := 0 } else r)
             held := d.held.map fun r => if clientClass s r.client = 0 then { r with cls := 0 } else r }
  (s.modChanD 0 up).modChanD 1 up
/-- A stitch of the memory system: the commands that its channels issue, the operations and accesses that waited, and the new ones
(R439, R454). (Log DESIGN CHOICE 165) -/
def memStitch (m : MemStitch) (s : State) : State :=
  let s1 := (List.range m.issue0).foldl (fun a _ => issueOne a 0) (raisePanic s)
  let s2 := (List.range m.issue1).foldl (fun a _ => issueOne a 1) s1
  m.accesses.foldl access (retryWaiting (releaseMaint s2))

end Sys2Proof.Machine
end

