-- ==== Sys2Proof/Machine/Power.lean ====
section
/-! DEFINITION. What leads from RESET through BOOT: the condition of R400, the domains and the memory system at BOOT, the
regions of R431, and the samples that PD0 takes of its pins (R400, R406, R426, R427, R431, R461, R491). -/

namespace Sys2Proof.Machine

open Sys2Proof

/-- The straps as PD0 samples them (R491). (Log DEDUCED 23) -/
def State.straps (s : State) (smbAddr : Fin 8) (dramCfg : Fin 4) : State :=
  { s with aon := { s.aon with smbAddr := smbAddr, dramCfg := dramCfg } }

/-- RESET may be left (R400, R462, R491, R500): RESET_N released, TEST_EN low, every rail and REFCLK_SYS in order.
(Log DEDUCED 21) -/
def bootReady (s : State) : Bool :=
  decide (s.mode = .reset) && s.aon.supply && !s.aon.resetN && !s.aon.testEn && s.aon.badRails.isEmpty && s.aon.refSys

/-- A cache as PD1's power-up and the boot ROM leave it: invalidated, and still disabled (R452). -/
def bootCache : CacheState := { invDone := true }

/-- Entry to BOOT (R406 step 2, R426, R452): PD1, PD5 and PD6 on, both channels in training, every cache invalidated and
the cache pattern fields applied. -/
def enterBoot (s : State) : State :=
  let t : DramChan := { state := .training }
  let m : Memory := { ch0 := t, ch1 := t, l1i0 := bootCache, l1i1 := bootCache, l1d0 := bootCache, l1d1 := bootCache, l2 := bootCache }
  cacheEnable { s.powerOn [1, 5, 6] with mode := .boot, mgmt := {}, mem := m }

/-- RESET is left once its condition holds. (Log DEDUCED 21) -/
def tryBoot (s : State) : State := if bootReady s then enterBoot s else s

/-- Region `i` of the table of R431, its size in 2 MiB. -/
def bootRegion (size : Nat) (code cache : Bool) (base : Nat) : Region :=
  { base := base, en := true, lock := true, cache := cache, code := code, size := size }
/-- The sizes, codes and cacheability of the ten regions; Batten is code 1. (Log DEDUCED 119) -/
def bootSizes (s : State) : List (Nat × Bool × Bool) :=
  [(24, false, true), (256, false, true), (128, false, false), (s.pnat 0x0517 0 / 2, false, false),
   (s.pnat 0x0429 0 / 2, false, false), (56, true, false), (512, true, false), (12, true, false), (40, true, true),
   (s.pnat 0x0107 0 / 2, true, false)]
/-- Regions allocated one after the other from a first address. (Log DEDUCED 119) -/
def placeRegions : Nat → Nat → List (Nat × Bool × Bool) → Tbl Region
  | _, _, [] => []
  | i, base, (size, code, cache) :: r =>
    Tbl.set {} (placeRegions (i + 1) (base + size) r) i (bootRegion size code cache base)

/-- BOOT allocates DRAM (R395, R427, R431): values pending for the next boot come into force, the regions are placed and
locked, and every line of them is written with zero data. (Log DEDUCED 119) -/
def allocateRegions (s : State) : State :=
  let s1 := { s with pat := s.pat.settle [.boot] }
  s1.modMem fun m => { m with regions := placeRegions 0 0 (bootSizes s1), cells := [], poisoned := [] }

end Sys2Proof.Machine
end

