-- ==== Sys2Proof/Machine/Stitch.lean ====
section
/-! DEFINITION. What every stitch boundary does: STITCH64, the outputs and commits of Girth, the motion samples, the
sleds, the servo counts, training frames of the links and the bays' transitions that wait for a condition (R203 to
R209, R213, R236, R247, R269, R276, R280 to R284, R303 to R307). -/

namespace Sys2Proof.Machine

open Sys2Proof

/-! ## The spindle at a boundary -/

/-- The value that the slewed reference moves towards, in 1/16 rpm (R280, R285): 0 in a controlled stop. -/
def refGoal (s : State) (b : Nat) : Nat :=
  let y := s.bay b
  if y.state = .spinDown ∨ y.spin.state = .safeStop then 0 else bayCurve s b

/-- The speed word of a closed loop (R281): FINE where the pre-format PLL is locked and the modes agree, held for up to
64 stitches while the PLL's beam is flagged, COARSE otherwise. -/
def speedWord (slotErr : Option Int) (ref : Nat) (m : MotionSample) (p : Spindle) : Spindle :=
  let c := coarseWord ref m.rpm
  let flagged := if m.pllFlagged then p.flagged + 1 else 0
  let coarse := { p with ref := ref, flagged := flagged, fine := false, word := c, fineCount := 0 }
  if m.pllFlagged then
    (if p.fine ∧ flagged ≤ 64 then { p with ref := ref, flagged := flagged, fineCount := p.fineCount + 1 } else coarse)
  else match m.fRate with
    | none => coarse
    | some f =>
      if modesAgree ref m.rpm f then
        let w := match slotErr with | some e => clampInt (-32767) 32767 (fineErr f - 256 * e) | none => fineWord f
        { p with ref := ref, flagged := flagged, fine := true, word := w
                 fineCount := if w.natAbs < 1638 then p.fineCount + 1 else 0 }
      else coarse

/-- A boundary of a driven spindle: the criteria of R287, the slewed reference and the word. -/
def spinClosed (s : State) (b : Nat) (m : MotionSample) (p : Spindle) : Spindle :=
  let lim := 100 * s.pnat 0x070B b
  let y := s.bay b
  let e := if y.state = .write then y.write.map (·.slotErr) else none
  let locked := !bayRidged y || y.chan.ridgeLock
  let p1 := speedWord e (slewRef (s.pnat 0x070D b) p.ref (refGoal s b)) (if locked then m else { m with fRate := none }) p
  { p1 with
    badRes := if lim < m.residual then p.badRes + 1 else 0
    jumped := decide (5 * p.rpm < 100 * ((m.rpm : Int) - p.rpm).natAbs)
    overs := if 12600 < m.rpm then p.overs + 1 else 0
    atSpeed := p.atSpeed && decide (0 < p1.fineCount)
    rpm := m.rpm, residual := m.residual }

/-- A spindle at a boundary, by its state (R276, R277, R285, R289). -/
def spinSample (s : State) (b : Nat) (m : MotionSample) (p : Spindle) : Spindle :=
  let count := decide (m.residual < 100 * p.handRes)
  let brake (q : Spindle) : Spindle :=
    if m.rpm < 300 then { q with state := .short, eventAt := s.now, atSpeed := false, fine := false } else q
  match p.state with
  | .ramp => { p with rpm := m.rpm, residual := m.residual
                      good := if p.rampAt + msec p.rampT ≤ s.now ∧ count then p.good + 1 else 0 }
  | .closed =>
    let q := spinClosed s b m p
    if (s.bay b).state = .spinDown then brake q else q
  | .safeStop => brake (spinClosed s b m p)
  | .catching => { p with rpm := m.rpm, residual := m.residual, good := if count ∧ 600 ≤ m.rpm then p.good + 1 else 0 }
  | .standstill => p
  | _ => { p with rpm := m.rpm, residual := m.residual }

/-- The torque demand a spindle takes (R275, R290): the slot's output, positive demands held to 0.5 on a low bus. -/
def spinDemand (s : State) (b : Nat) : Int :=
  let y := s.bay b
  match y.spin.state with
  | .closed | .safeStop =>
    let v := (s.slot (spinSlot b)).applied
    if (s.bus (groupOf b)).limited then min v (q27 1 2) else v
  | _ => 0

/-- The bridges of a spindle over the next stitch (R275, R277, R289, R290): six-step at the open-loop or the observer's angle with the
current command that the demand gives, or the low sides of short braking, also for a negative demand under inhibited regeneration. -/
def driveStitch (s : State) (b : Nat) (m : MotionSample) (p : Spindle) : Spindle :=
  let soft := s.pnat 0x0705 b
  let gate := m.shorts.foldl (fun on ma => shortGate m.rpm (s.pnat 0x0706 b) on ma) (if m.rpm < 1500 then true else p.lowOn)
  let off := { p with amps := 0, phases := [], lowOn := false }
  match p.state with
  | .ramp =>
    let a := openAngle p.sector p.poles (msec p.rampT) (s.now - p.rampAt)
    { p with theta := a % 3600, amps := p.startI * p.imax / 100, phases := phaseDrive soft a, lowOn := false }
  | .closed | .safeStop =>
    if p.regenInh ∧ p.demand < 0 then { off with theta := m.theta % 3600, lowOn := gate }
    else { p with theta := m.theta % 3600, amps := roundDiv (p.demand * p.imax) (2 ^ 27), phases := phaseDrive soft m.theta, lowOn := false }
  | .short => { off with lowOn := gate }
  | _ => off

/-- The switch inputs at a boundary (R309): a level is qualified by two consecutive samples; in the back-off the inactive samples are
counted from the candidate, which an active one drops. -/
def switchSample (m : MotionSample) (d : Sled) : Sled :=
  let back := decide (d.homePhase = .backOff) && !m.home
  { d with homeSw := if m.home = d.homeRaw then m.home else d.homeSw
           limitSw := if m.outer = d.limitRaw then m.outer else d.limitSw
           homeFirst := if m.home = d.homeRaw then d.homeFirst else d.pos
           homeRaw := m.home, limitRaw := m.outer
           inactive := if back then d.inactive + 1 else 0
           candP := if back && d.inactive == 0 then d.pos else d.candP }

/-- A motion sample of one bay (R276, R282, R306, R307). Without PD18 nothing is sampled. -/
def motionSample (s : State) (m : MotionSample) : State :=
  if s.powered 18 = false then s
  else
    let b := m.bay.val
    let before := (s.bay b).sled
    let s1 := s.modSpin b (spinSample s b m)
    let s2 := s1.modSpin b fun p => driveStitch s1 b m { p with demand := spinDemand s1 b }
    let s3 := s2.modSlot (spinSlot b) fun x => { x with hold := (s2.bay b).spin.regenInh && decide ((s2.bay b).spin.demand < 0) }
    s3.modSled b fun d0 =>
      let d := switchSample m d0
      let slow := decide (d.speed < fsSpeed 200)
      { chopStitch s3 b (!(s3.bus (groupOf b)).bridgesOff) (adaptOffsets s3 b before d m.coilMeanA m.coilMeanB) m.traceA m.traceB with
        stallCount := if !slow && decide (s3.pnat 0x0812 b < m.loadAngle) then d.stallCount + 1 else 0 }

/-! ## The sled at a boundary -/

/-- The sled's stitch: the velocity command taken, 64 updates, the coil current, and the count of R307. -/
def sledBoundary (s : State) (b : Nat) : State :=
  let y := s.bay b
  let x := s.slot (16 + b)
  let lim := decide (x.out = s.pval 0x0608 (8 * (16 + b) + x.gprev % 8) ∨ x.out = s.pval 0x0609 (8 * (16 + b) + x.gprev % 8))
  s.modSled b fun d =>
    let v := roundDiv ((s.slot (sledSlot b)).applied * 51200000000) (2 ^ 27)
    let d1 := sledStitch s b { d with velocity := if d.state = .follow then v else d.velocity }
    let sat := y.servo.tracking && lim && decide (d1.speed < fsSpeed 200) && x.live
    { d1 with current := d1.currentAt s.now, satCount := if sat then d1.satCount + 1 else 0 }

/-! ## The link at a boundary -/

/-- A boundary of a link that is not off (R210, R213, R214): Idle fills what has passed of its lanes, and in training follow a Ping, or the
judgement of the Echoes at the boundary after the eighth Ping where fewer than eight came, or Link parameters.
(Log DESIGN CHOICE 163) -/
def weltStitch (s0 : State) (b : BayId) : State :=
  let w := (s0.bay b).welt
  let s := if w.phase = .off ∨ w.phase = .dead then s0 else s0.idleLanes b (blocksAt s0.now 0)
  match w.phase with
  | .pinging =>
    if w.pings < 8 then
      (s.sendFrame b (pingFrame (Config.pingToken b.val w.pings))).modWelt b fun w => { w with pings := w.pings + 1, pingAt := s.now }
    else judgeEchoes s b
  | .params => s.sendFrame b (paramsFrame b.val (5000 - w.latency))
  | _ => s

/-! ## The bay at a boundary -/

/-- SPINUP ends when the sled is at rest at the acquisition radius and the spindle within 1 % of the curve (R269). -/
def spunUp (s : State) (b : Nat) : Bool :=
  let y := s.bay b
  decide (y.state = .spinUp ∧ y.spin.state = .closed ∧ y.sled.homed ∧ y.sled.state = .rest
    ∧ y.sled.pos = radiusPos (max (s.pnat 0x080B b) (min 29050 (s.pnat 0x080C b)))
    ∧ 100 * ((y.spin.rpm * 16 : Int) - bayCurve s b).natAbs ≤ bayCurve s b)

/-- Since when a bay has had no demand (R284). -/
def idleCount (s : State) (b : Nat) : State :=
  let d := hasDemand s b
  s.modSpin b fun p => { p with idleSince := if d then none else match p.idleSince with | none => some s.now | some t => some t }

/-- The sled slot's REGION_CODE: 1 while the bay is in WRITE (R302). -/
def followCode (s : State) (b : Nat) : State :=
  let v : Int := bitNat (decide ((s.bay b).state = .write))
  if s.pat.latest 0x060E (sledSlot b) = v then s else s.girthWrite 0x060E (sledSlot b) v

/-- What a boundary does for one bay. -/
def bayStitch (s : State) (b : BayId) : State :=
  let s1 := weltStitch (servoStitch (sledBoundary s b) b) b
  let s2 := idleCount (followCode s1 b) b
  let s3 := settleBay s2 b
  if spunUp s3 b then enterFocus s3 b (if (s3.bay b).mount.isSome then 0 else (s3.bay b).servo.layer) else s3

/-- The bays as indices. -/
def bayIds : List BayId := [0, 1, 2, 3, 4, 5, 6, 7, 8, 9, 10, 11, 12, 13, 14, 15]

/-- STITCH64 advances by one (R203). -/
def State.tick (s : State) : State := { s with aon := { s.aon with stitch := s.aon.stitch + 1 } }

/-- A bay with three overrun windows in a row enters HOLD at the boundary after the third (R245). -/
def overrunHold (s : State) (b : Nat) : State :=
  if (s.bay b).overrunDue then
    (((s.modBay b fun y => { y with overrunDue := false, overrunRow := 0 }).bayLogFree b 0x0604).enterHold b)
  else s
/-- The Girth engine's part of a boundary: outputs applied, then the commit, then HOLD for overruns (R236, R245, R247).
(Log DESIGN CHOICE 99) -/
def girthBoundary (s : State) : State :=
  allBays.foldl overrunHold (girthCommit (if s.powered 17 && s.girth.loaded then girthApply s else s))

/-- A stitch boundary (R203, R207): nothing advances without the PD0 supply or REFCLK_SYS (R500). In RESET the fuses have
been sensed and the key regenerated by the boundary (R406 step 1), and BOOT follows where its condition holds (R400).
(Log DESIGN CHOICE 1; DEDUCED 21, 24) -/
def execStitchBoundary (ms : List MotionSample) (mem : MemStitch) (s : State) : Host.Outcome State Fault Refusal :=
  if s.aon.supply = false ∨ s.aon.refSys = false then .next s
  else
    let s1 := memStitch mem (girthBoundary s.tick)
    let s2 := { s1 with pat := s1.pat.settle [.stitch] }
    let s3 := ms.foldl motionSample s2
    .next (tryBoot (if s3.powered 18 then bayIds.foldl bayStitch s3 else s3))

/-- A read of STITCH_LO returns STITCH32 and latches STITCH64[63:32] into STITCH_HI (R206). -/
def execStitchLoRead (s : State) : Host.Outcome State Fault Refusal :=
  .next { s with aon := { s.aon with stitchHi := s.aon.stitch.extractLsb' 32 32 }
                 readData := s.aon.stitch.extractLsb' 0 32 }

end Sys2Proof.Machine
end

