-- ==== Sys2Proof/Machine/Registers.lean ====
section
/-! DEFINITION. The registers: the words that a read returns, and the reads and writes that have an effect (R9, R10,
R101, R136, R248, R292, R314, R349, R432, R453, R457, R479). A read leaves its value in `readData`. -/

namespace Sys2Proof.Machine

open Sys2Proof

/-- The value a read returns. (Log DESIGN CHOICE 7) -/
def State.reads (s : State) (v : Nat) : State := { s with readData := BitVec.ofNat 32 v }

/-! ## Channel status and trim words (R101, R136) -/

/-- FLY's code. -/
def Fly.code : Fly → Nat
  | .unlocked => 0 | .provisional => 1 | .locked => 2

/-- The channel status word of a global beam (R136). -/
def channelWord (s : State) (g : Nat) : Nat :=
  let m := s.beam g
  let c := (s.bay (g / 8)).chan
  bitNat (!m.loaded) * 2 ^ 31 + bitNat c.seamFault * 2 ^ 30 + bitNat c.ridgeLock * 2 ^ 29 + bitNat m.retryFull * 2 ^ 28
    + c.fly.code * 2 ^ 26 + bitNat m.trLock * 2 ^ 25 + bitNat m.defect * 2 ^ 24 + m.eq % 4 * 2 ^ 22
    + min 255 m.lost * 2 ^ 8 + m.gain % 64

/-- A read of a channel status word clears LOST; sectors lost in the same cycle stay counted (R10, R136). -/
def execChannelStatusRead (g : GBeam) (coincident : Nat) (s : State) : Host.Outcome State Fault Refusal :=
  .next ((s.reads (channelWord s g.val)).modBeam g.val fun m => { m with lost := rcCount 255 coincident })

/-- A write of 1 to RETRY_FULL clears it (R136). -/
def execChannelStatusWrite (g : GBeam) (w : Word) (coincident : Bool) (s : State) : Host.Outcome State Fault Refusal :=
  .next (s.modBeam g.val fun m => { m with retryFull := w1c m.retryFull (w.getLsbD 28) coincident })

/-! ## Girth (R248) -/

/-- A read of GIRTH_STAT clears the overrun and parity counts. -/
def execGirthStatRead (overruns parity : Nat) (s : State) : Host.Outcome State Fault Refusal :=
  .next { s.reads s.girth.stat with
    girth := { s.girth with overruns := rcCount 0xFFFF overruns, parity := rcCount 0xFF parity } }

/-- A read of GIRTH_LOAD clears MAX_CYC. -/
def execGirthLoadRead (coincident : Nat) (s : State) : Host.Outcome State Fault Refusal :=
  .next { s.reads s.girth.load with girth := { s.girth with maxCyc := rcCount 2047 coincident } }

/-- A write of 1 clears a bay bit of GIRTH_OVR_BAY; a bit set in the same cycle stays (R10). -/
def execGirthOvrBayWrite (w : Word) (coincident : Half) (s : State) : Host.Outcome State Fault Refusal :=
  .next { s with girth := { s.girth with ovrBay := (s.girth.ovrBay &&& ~~~ (w.extractLsb' 0 16)) ||| coincident } }

/-- A write of 1 clears SWITCHED or UNFINISHED of a slot. -/
def execSlotStatWrite (i : SlotId) (w : Word) (switched unfinished : Bool) (s : State) : Host.Outcome State Fault Refusal :=
  .next (s.modSlot i.val fun x => { x with switched := w1c x.switched (w.getLsbD 26) switched
                                           unfinished := w1c x.unfinished (w.getLsbD 25) unfinished })

/-! ## Motion (R292, R314) -/

/-- A read of SPIN_STAT clears STARTS. -/
def execSpinStatRead (b : BayId) (coincident : Nat) (s : State) : Host.Outcome State Fault Refusal :=
  .next ((s.reads (s.bay b).spin.stat).modSpin b fun p => { p with starts := rcCount 15 coincident })

/-- A write of 1 clears LOST. -/
def execSpinStatWrite (b : BayId) (w : Word) (coincident : Bool) (s : State) : Host.Outcome State Fault Refusal :=
  .next (s.modSpin b fun p => { p with lost := w1c p.lost (w.getLsbD 25) coincident })

/-- A read of BUS_STAT clears EVENTS. -/
def execBusStatRead (g : GroupId) (coincident : Nat) (s : State) : Host.Outcome State Fault Refusal :=
  .next ((s.reads (s.bus g).stat).modBus g fun u => { u with events := rcCount 255 coincident })

/-- A write of 1 clears STALL. -/
def execSledStatWrite (b : BayId) (w : Word) (coincident : Bool) (s : State) : Host.Outcome State Fault Refusal :=
  .next (s.modSled b fun d => { d with stall := w1c d.stall (w.getLsbD 26) coincident })

/-! ## The ring (R349) -/

def State.port (s : State) : Port → PortState
  | .east => s.ring.east
  | .west => s.ring.west
def State.modPort (s : State) (p : Port) (f : PortState → PortState) : State :=
  match p with
  | .east => { s with ring := { s.ring with east := f s.ring.east } }
  | .west => { s with ring := { s.ring with west := f s.ring.west } }

/-- LINK_UP (R341). -/
def PortState.linkUp (p : PortState) : Bool := p.pcs && decide (p.misses < 3)

/-- RING_PORT_STAT and RING_DROP of a port, and RING_STAT. -/
def PortState.stat (p : PortState) : Nat :=
  bitNat p.elsOk * 2 ^ 31 + bitNat p.pcs * 2 ^ 30 + bitNat p.linkUp * 2 ^ 29 + bitNat p.wrapped * 2 ^ 28
    + bitNat p.p3.paused * 2 ^ 27 + bitNat p.p6.paused * 2 ^ 26 + bitNat p.stormFlag * 2 ^ 25 + bitNat p.nbChange * 2 ^ 24
    + p.neighbour % 256 * 2 ^ 16 + min 255 p.fecUncorr * 2 ^ 8 + min 15 p.misses * 2 ^ 4
def PortState.drop (p : PortState) : Nat := min 0xFFFF p.fcsBad * 2 ^ 16 + min 0xFFFF p.dropped
def ringStat (s : State) : Nat :=
  let settled := decide (s.ring.switchedAt + 6 ≤ s.now)
  bitNat s.ring.tapped * 2 ^ 31 + bitNat settled * 2 ^ 30 + bitNat s.ring.map.isSome * 2 ^ 29
    + bitNat (match s.ring.map with | some m => m.cut | none => false) * 2 ^ 28
    + (if s.ring.tapped then s.ring.node % 256 else 0) * 2 ^ 16
    + (match s.ring.map with | some m => m.epoch.toNat % 65536 | none => 0)

/-- A read of RING_PORT_STAT clears FEC_UNCORR. -/
def execRingPortStatRead (p : Port) (coincident : Nat) (s : State) : Host.Outcome State Fault Refusal :=
  .next ((s.reads (s.port p).stat).modPort p fun x => { x with fecUncorr := rcCount 255 coincident })

/-- A write of 1 clears PFC_STORM or NB_CHANGE. -/
def execRingPortStatWrite (p : Port) (w : Word) (storm nbChange : Bool) (s : State) : Host.Outcome State Fault Refusal :=
  .next (s.modPort p fun x => { x with stormFlag := w1c x.stormFlag (w.getLsbD 25) storm
                                       nbChange := w1c x.nbChange (w.getLsbD 24) nbChange })

/-- A read of RING_DROP clears its counts. -/
def execRingDropRead (p : Port) (fcsBad dropped : Nat) (s : State) : Host.Outcome State Fault Refusal :=
  .next ((s.reads (s.port p).drop).modPort p fun x =>
    { x with fcsBad := rcCount 0xFFFF fcsBad, dropped := rcCount 0xFFFF dropped })

/-! ## Memory and caches (R432, R457) -/

/-- DRAM_STAT's state code. -/
def DramState.code : DramState → Nat
  | .untrained => 0 | .training => 1 | .up => 2 | .quick => 3 | .full => 4 | .failed => 5

/-- DRAM_STAT, BURNISH_STAT and CACHE_STAT. -/
def dramStat (s : State) (c : Nat) : Nat :=
  let d := s.chan c
  d.state.code * 2 ^ 28 + bitNat d.hot * 2 ^ 27 + bitNat (panicWaits s c) * 2 ^ 26 + d.tband % 8 * 2 ^ 23
    + min 255 d.ce * 2 ^ 8 + min 15 d.timeouts * 2 ^ 4 + min 15 d.retrains
def burnStat (s : State) : Nat :=
  let m := s.mem
  bitNat m.burnRunning * 2 ^ 31 + bitNat (burnPaused s m.burnLine) * 2 ^ 30 + min 255 m.burnPasses * 2 ^ 16
    + (if linesAll m = 0 then 0 else linesBelow m m.burnLine * 65536 / linesAll m) % 65536
def CacheState.stat (c : CacheState) : Nat :=
  bitNat c.en * 2 ^ 31 + bitNat c.invDone * 2 ^ 30 + bitNat c.err * 2 ^ 29 + min 255 c.par * 2 ^ 8 + min 255 c.fatal

/-- A read of DRAM_STAT clears CE, TIMEOUTS and RETRAINS. -/
def execDramStatRead (ch : Fin 2) (ce timeouts retrains : Nat) (s : State) : Host.Outcome State Fault Refusal :=
  .next ((s.reads (dramStat s ch)).modChanD ch fun d =>
    { d with ce := rcCount 255 ce, timeouts := rcCount 15 timeouts, retrains := rcCount 15 retrains })

/-- A read of BURNISH_STAT clears PASSES. -/
def execBurnishStatRead (coincident : Nat) (s : State) : Host.Outcome State Fault Refusal :=
  .next ((s.reads (burnStat s)).modMem fun m => { m with burnPasses := rcCount 255 coincident })

/-- A read of CACHE_STAT clears PAR and FATAL. -/
def execCacheStatRead (c : Cache) (par fatal : Nat) (s : State) : Host.Outcome State Fault Refusal :=
  .next ((s.reads (s.cache c).stat).modCache c fun x => { x with par := rcCount 255 par, fatal := rcCount 255 fatal })

/-- A write of 1 clears ERR. -/
def execCacheStatWrite (c : Cache) (w : Word) (coincident : Bool) (s : State) : Host.Outcome State Fault Refusal :=
  .next (s.modCache c fun x => { x with err := w1c x.err (w.getLsbD 29) coincident })

/-- A write to RGN_CTRL takes effect unless the descriptor is locked (R432). Reserved bits are ignored. -/
def execRgnCtrlWrite (i : Fin 16) (w : Word) (s : State) : Host.Outcome State Fault Refusal :=
  let r := s.mem.region i
  if r.lock then .next s
  else
    let d : Region :=
      { r with en := w.getLsbD 31, lock := w.getLsbD 30, cache := w.getLsbD 29, code := w.getLsbD 28
               size := bitsOf w.toNat 15 0 }
    .next (s.modMem fun m => { m with regions := Tbl.set {} m.regions i d })

/-! ## Plain reads and writes (R9) -/

/-- The word of a register that a plain write can name, as a read returns it (R101, R206, R248, R292, R314, R349, R432, R453,
R457, R479). The table has no row for a read without an effect: such a read is this function of the state.
(Log DESIGN CHOICE 7) -/
def State.plainWord (s : State) : Reg → Nat
  | .trimWord g => bitNat (s.beam g.val).loaded * 2 ^ 31 + s.pnat 0x0B02 g.val % 16 * 2 ^ 14 + s.pnat 0x0B01 g.val % 64 * 2 ^ 8
      + s.pnat 0x0B00 g.val % 256
  | .stitchLo => s.aon.stitch.toNat % 2 ^ 32
  | .stitchHi => s.aon.stitchHi.toNat
  | .spanPos => s.aon.stitch.toNat % 200
  | .slotStat i => (s.slot i.val).stat
  | .girthStat => s.girth.stat
  | .girthLoad => s.girth.load
  | .busStat g => (s.bus g.val).stat
  | .sledPos b => (s.bay b.val).sled.posReg
  | .ringStat => ringStat s
  | .ringDrop p => (s.port p).drop
  | .rgnBase i => (s.mem.region i.val).base % 65536
  | .cmCmd _ => 0
  | .cmAddr c => (if c.val = 0 then s.mem.cmAddr0 else s.mem.cmAddr1).toNat
  | .dramStat c => dramStat s c.val
  | .burnishStat => burnStat s
  | .tsVal i => (Tbl.get {} s.eave.sensors i.val).word
  | .eaveStat => s.eave.stat
  | .pwrStat => s.eave.pwrStat
  | .resetCause => s.resetCause
/-- RGN_CTRL of a descriptor (R432), and SLED_STAT of a bay (R314). -/
def Region.ctrl (r : Region) : Nat :=
  bitNat r.en * 2 ^ 31 + bitNat r.lock * 2 ^ 30 + bitNat r.cache * 2 ^ 29 + bitNat r.code * 2 ^ 28 + r.size % 65536
def sledStat (s : State) (b : BayId) : Nat := (s.bay b.val).sled.stat


/-- A write to any other register (R9): a read-only field ignores it, and a read-write field takes the value. A write to
CM_CMD is a maintenance command of its own (R453), and no effect of this one. (Log DESIGN CHOICE 7) -/
def execRegisterWrite (r : Reg) (w : Word) (s : State) : Host.Outcome State Fault Refusal :=
  match r with
  | .trimWord g =>
    let p1 := s.pat.pend 0x0B00 g.val (bitsOf w.toNat 7 0)
    let p2 := p1.pend 0x0B01 g.val (bitsOf w.toNat 13 8)
    .next { s with pat := p2.pend 0x0B02 g.val (bitsOf w.toNat 17 14) }
  | .rgnBase i =>
    let d := s.mem.region i
    if d.lock then .next s
    else .next (s.modMem fun m => { m with regions := Tbl.set {} m.regions i { d with base := bitsOf w.toNat 15 0 } })
  | .cmAddr c =>
    let v := w &&& 0x7FFFFFFF#32
    .next (s.modMem fun m => if c.val = 0 then { m with cmAddr0 := v } else { m with cmAddr1 := v })
  | .stitchLo | .stitchHi | .spanPos | .slotStat _ | .girthStat | .girthLoad | .busStat _ | .sledPos _ | .ringStat
  | .ringDrop _ | .cmCmd _ | .dramStat _ | .burnishStat | .tsVal _ | .eaveStat | .pwrStat | .resetCause => .next s

end Sys2Proof.Machine
end

