-- ==== Sys2Proof/Machine/Ring.lean ====
section
/-! DEFINITION. The Yaver ring and the flashing path: frames as bytes, checks on receipt, forwarding, turning back, flow
control, steering, heartbeats, wrapping, ring events and splices (R318 to R350). -/

namespace Sys2Proof

/-- The other port. -/
def Port.other : Port → Port
  | .east => .west
  | .west => .east
/-- A port's index (R349). -/
def Port.index : Port → Nat
  | .east => 0
  | .west => 1
/-- The power domain of a port. -/
def Port.domain : Port → Nat
  | .east => 2
  | .west => 3
/-- A governed priority's PCP. -/
def Prio.pcp : Prio → Nat
  | .p3 => 3
  | .p6 => 6

end Sys2Proof

namespace Sys2Proof.Machine

open Sys2Proof

/-! ## Frames as bytes (R325, R327) -/

/-- Bytes 0 to 4 and 8 to 29 of a Yaver header, over which HCRC runs (R327). -/
def headerCore (ver ftype dst src : Nat) (dir retx : Bool) (qp len : Nat) (seq : Word) (tag : Nat) (r : FrameRsv) :
    List Byte × List Byte :=
  (beBytes 1 ver ++ beBytes 1 ftype ++ beBytes 1 dst ++ beBytes 1 src
     ++ beBytes 1 (bitNat dir + 2 * bitNat retx + 4 * (r.flags % 64)),
   beBytes 2 (qp % 4096 + 4096 * (r.qp % 16)) ++ beBytes 2 len ++ beBytes 4 seq.toNat
     ++ beBytes 4 (tag % 2048 + 2048 * (r.tag % 2 ^ 21)) ++ (r.bytes ++ zeros 10).take 10)

/-- HCRC of a received frame's header, its reserved content included (R11, R327). -/
def hcrcOf (f : Frame) : Nat :=
  let h := headerCore f.ver f.ftype f.dst f.src f.dir f.retx f.qp f.len f.seq f.tag f.rsv
  crc16Bytes (h.1 ++ h.2)

/-- The IEEE 802.3 frame check sequence, as the four bytes that follow the frame. (Log PRESUMED 30) -/
def fcsBit (c : BitVec 32) : BitVec 32 := if c.getLsbD 0 then (c >>> 1) ^^^ 0xEDB88320#32 else c >>> 1
def fcsByte (c : BitVec 32) (b : Byte) : BitVec 32 := iter fcsBit 8 (c ^^^ b.zeroExtend 32)
def fcsOf (l : List Byte) : List Byte := leBytes 4 ((l.foldl fcsByte 0xFFFFFFFF#32) ^^^ 0xFFFFFFFF#32).toNat

/-- The MAC address of a node; DST 255 has the broadcast address (R325). (Log PRESUMED 30) -/
def nodeMac (n : Nat) : List Byte :=
  if n = 255 then List.replicate 6 0xFF#8 else [0x02, 0x59, 0x56, 0x00, 0x00] ++ beBytes 1 n

/-- A frame that node `src` launches from a port, as the bytes on the fibre (R325 to R327). (Log PRESUMED 30) -/
def TxFrame.wire (f : TxFrame) (src : Nat) (p : Port) : List Byte :=
  let h := headerCore 0x10 f.ftype f.dst src (p == .west) f.retx f.qp f.body.length f.seq f.tag {}
  let transit := beBytes 1 (bitNat f.wrap) ++ beBytes 2 (bitNat f.wrap)
  let b := nodeMac f.dst ++ nodeMac src ++ [0x81, 0x00] ++ beBytes 2 (f.pcp * 8192) ++ [0x88, 0xB5]
    ++ h.1 ++ transit ++ h.2 ++ beBytes 2 (crc16Bytes (h.1 ++ h.2)) ++ f.body
  let b1 := b ++ zeros (60 - b.length)
  b1 ++ fcsOf b1

/-- Bytes of a frame with a body of `len` bytes, FCS included. -/
def wireSize (len : Nat) : Nat := max 64 (54 + len)

/-! ## Ports -/

/-- The state of a priority on a port. -/
def PortState.prio (x : PortState) (pcp : Nat) : PrioState := if pcp = 7 then x.p7 else if pcp = 6 then x.p6 else x.p3
def PortState.modPrio (x : PortState) (pcp : Nat) (f : PrioState → PrioState) : PortState :=
  if pcp = 7 then { x with p7 := f x.p7 } else if pcp = 6 then { x with p6 := f x.p6 } else { x with p3 := f x.p3 }
def State.modPrio (s : State) (p : Port) (pcp : Nat) (f : PrioState → PrioState) : State := s.modPort p (·.modPrio pcp f)

/-- A frame dropped and counted in RING_DROP of a port (R349). -/
def State.ringDrop (s : State) (p : Port) : State := s.modPort p fun x => { x with dropped := min 0xFFFF (x.dropped + 1) }
def State.ringBad (s : State) (p : Port) : State := s.modPort p fun x => { x with fcsBad := min 0xFFFF (x.fcsBad + 1) }

/-- A port may start frames: PCS locked and not taken out of use by a crossed cable (R340, R341). (Log DEDUCED 56) -/
def PortState.usable (x : PortState) : Bool := x.pcs && !x.miswired
/-- Frames of a priority may leave by a port at once. -/
def PortState.clear (x : PortState) (pcp : Nat) : Bool :=
  x.usable && !(x.prio pcp).paused && (x.prio pcp).transit.isEmpty && (x.prio pcp).own.isEmpty
/-- A unicast frame of a priority is turned back at a port: wrapped, or closed towards a cut (R332). -/
def PortState.turns (x : PortState) (pcp : Nat) : Bool := x.wrapped || (x.cut && x.quiet && decide (pcp ≠ 7))

/-! ## Flow control at the ingress buffers (R336) -/

/-- Bytes of a priority that stand in a port's ingress buffer, or came through it into the ingest buffer and wait there (R429).
(Log DEDUCED 54; DESIGN CHOICE 167) -/
def occupancy (s : State) (p : Port) (pcp : Nat) : Nat :=
  let of (x : PortState) := (((x.prio pcp).transit.filter (fun f => f.port == p)).map (fun f => wireSize f.len)).foldl (· + ·) 0
  let held := (s.ring.ingest.filter (fun e => e.1.port == p && e.1.pcp == pcp)).map (fun e => wireSize e.1.len)
  of s.ring.east + of s.ring.west + held.foldl (· + ·) 0
/-- Reservation, XOFF and XON thresholds of a priority, in bytes. (Log DEDUCED 54) -/
def reserved (pcp : Nat) : Nat := if pcp = 7 then 262144 else if pcp = 6 then 2359296 else 3670016
def xoffAt (pcp : Nat) : Nat := if pcp = 6 then 524288 else 1572864
def xonAt (pcp : Nat) : Nat := if pcp = 6 then 262144 else 1048576

/-- PFC sent for a port's ingress buffer: XOFF past its threshold, XON once it has fallen (R336). (Log DEDUCED 54) -/
def pfcCheck (s : State) (p : Port) (pr : Prio) : State :=
  let n := occupancy s p pr.pcp
  let x := (s.port p).prio pr.pcp
  if x.xoff = false ∧ xoffAt pr.pcp ≤ n then
    (s.modPrio p pr.pcp fun x => { x with xoff := true, xoffAt := s.now }).send (.pfc p pr 0xFFFF)
  else if x.xoff ∧ n ≤ xonAt pr.pcp then
    (s.modPrio p pr.pcp fun x => { x with xoff := false }).send (.pfc p pr 0)
  else s
def pfcAll (s : State) : State :=
  pfcCheck (pfcCheck (pfcCheck (pfcCheck s .east .p3) .east .p6) .west .p3) .west .p6

/-! ## Leaving by a port (R331, R332) -/

/-- A transit frame leaves by a port, or waits in the ingress buffer it came into; beyond its reservation it is
dropped (R331, R336). (Log DEDUCED 53) -/
def egress (s : State) (p : Port) (f : Frame) : State :=
  if (s.port p).clear f.pcp then s.send (.forward p f)
  else if reserved f.pcp < occupancy s f.port f.pcp + wireSize f.len then s.ringDrop f.port
  else pfcAll (s.modPrio p f.pcp fun x => { x with transit := x.transit ++ [f] })

/-- A frame turned back (R332): out of the other port with WRAP set, but never a second time. -/
def turnBack (s : State) (p : Port) (f : Frame) : State :=
  if f.wrap ∨ (s.port p.other).turns f.pcp then s.ringDrop f.port
  else egress s p.other { f with wrap := true, hops := f.hops + 1 }

/-- A transit frame on its way out of port `p`, with HOPS already counted. -/
def leave (s : State) (p : Port) (f : Frame) : State :=
  if f.dst = 255 then (if (s.port p).wrapped ∨ (s.port p).cut then s else egress s p f)
  else if (s.port p).turns f.pcp then turnBack s p { f with hops := f.hops - 1 }
  else egress s p f

/-- A frame forwarded out of the port opposite the one it came on, with HOPS + 1; at 512 it is dropped (R330). -/
def forward (s : State) (f : Frame) : State :=
  if 512 ≤ f.hops + 1 then s.ringDrop f.port else leave s f.port.other { f with hops := f.hops + 1 }

/-- An own frame leaves by a port, or waits in its egress queue. (Log DEDUCED 53) -/
def ownEgress (s : State) (p : Port) (f : TxFrame) : State :=
  if (s.port p).clear f.pcp then s.send (.frame p f)
  else s.modPrio p f.pcp fun x => { x with own := x.own ++ [f] }

/-- An own frame sent towards a port: turned back where a transit frame would be (R343). -/
def ownLeave (s : State) (p : Port) (f : TxFrame) : State :=
  if f.dst = 255 then (if (s.port p).wrapped ∨ (s.port p).cut then s else ownEgress s p f)
  else if (s.port p).turns f.pcp then
    (if (s.port p.other).turns f.pcp then s.ringDrop p else ownEgress s p.other { f with wrap := true })
  else ownEgress s p f

/-- The order in which one priority's waiting frames leave (R331): transit first, with the own frames' share of the
bytes by deficit round robin. `owed` is in hundredths of a byte. (Log DEDUCED 53) -/
def drainOrder (share : Nat) : Nat → Nat → List Frame → List TxFrame → List (Frame ⊕ TxFrame) × Nat
  | 0, owed, _, _ => ([], owed)
  | _ + 1, owed, [], own => (own.map Sum.inr, owed)
  | _ + 1, owed, transit, [] => (transit.map Sum.inl, owed)
  | n + 1, owed, t :: ts, o :: os =>
    if 100 * wireSize o.body.length ≤ owed then
      let r := drainOrder share n (owed - 100 * wireSize o.body.length) (t :: ts) os
      (.inr o :: r.1, r.2)
    else
      let r := drainOrder share n (owed + 100 * wireSize t.len * share / (100 - share)) ts (o :: os)
      (.inl t :: r.1, r.2)

/-- One priority's waiting frames leave a port that may send them. -/
def drainPrio (s : State) (p : Port) (pcp : Nat) : State :=
  let x := s.port p
  let y := x.prio pcp
  if x.usable && !y.paused && !(y.transit.isEmpty && y.own.isEmpty) then
    let share := if pcp = 7 then 0 else s.pnat 0x0105 p.index
    let r := drainOrder share (y.transit.length + y.own.length) y.deficit y.transit y.own
    let s1 := s.modPrio p pcp fun z => { z with transit := [], own := [], deficit := r.2 }
    r.1.foldl (fun a e => match e with | .inl f => a.send (.forward p f) | .inr f => a.send (.frame p f)) s1
  else s
/-- What waits for a port leaves it, in the order 7, 6, 3. (Log DEDUCED 53) -/
def drain (s : State) (p : Port) : State := pfcAll (drainPrio (drainPrio (drainPrio s p 7) p 6) p 3)

/-! ## Steering (R334, R335) -/

/-- Whether the eastbound stretch of `n` links from position `a` shares a link with the cut (R334). -/
def crosses (m : RingMap) (a n : Nat) : Bool :=
  let c := m.order.length
  if m.cut ∧ m.order.contains m.cutW ∧ m.order.contains m.cutE then
    let w := m.order.idxOf m.cutW
    let len := (m.order.idxOf m.cutE + c - w) % c
    (List.range n).any fun i => decide (((a + i) % c + c - w) % c < len)
  else false

/-- The launch direction of a frame for a node (R335): none when the map allows neither. (Log DEDUCED 57) -/
def direction (s : State) (dst : Nat) : Option Port :=
  match s.ring.map with
  | some m =>
    if !m.order.contains dst || !m.order.contains s.ring.node then none
    else
      let c := m.order.length
      let me := m.order.idxOf s.ring.node
      let there := m.order.idxOf dst
      let east := (there + c - me) % c
      let west := (me + c - there) % c
      let eastOk := !crosses m me east
      let westOk := !crosses m there west
      if eastOk ∧ (east ≤ west ∨ westOk = false) then some .east else if westOk then some .west else none
  | none => if Tbl.get 0 s.ring.learned dst = 2 then some .west else some .east

/-- A unicast frame the engine originates; none where the map allows no direction. -/
def originate (s : State) (f : TxFrame) : Option State := (direction s f.dst).map fun p => ownLeave s p f

/-- A broadcast of the engine's own: out of both ports with one SEQ (R333). -/
def broadcast (s : State) (ftype : Nat) (body : List Byte) : State :=
  let f : TxFrame := ⟨ftype, 7, 255, 0, s.ring.bseq, 0, false, body, false⟩
  let s1 := ownLeave (ownLeave s .east f) .west f
  { s1 with ring := { s1.ring with bseq := s1.ring.bseq + 1 } }

/-! ## Ring events (R342) -/

/-- The codes of R342. -/
def reDark : Nat := 1
def reNew : Nat := 2
def reWrapped : Nat := 3
def reUnwrapped : Nat := 4
def reQuiet : Nat := 5
def reJoined : Nat := 6
def reDup : Nat := 7
def reStorm : Nat := 8
def reMiswired : Nat := 9
def reSelfFault : Nat := 10

/-- EPOCH of the map held, 0 for none. -/
def State.epoch (s : State) : Word := match s.ring.map with | some m => m.epoch | none => 0

/-- A ring event raised; it goes out at the next three span boundaries. -/
def State.ringEvent (s : State) (code : Nat) (p : Port) (old new_ : Nat) : State :=
  { s with ring := { s.ring with events := s.ring.events ++ [⟨code, p.index, old, new_, s.epoch, s.now, 0⟩] } }

/-- One RING_EVENT frame to both gateways. -/
def sendRingEvent (s : State) (e : RingEvent) : State :=
  let body := beBytes 1 e.code ++ beBytes 1 e.port ++ beBytes 1 e.old ++ beBytes 1 e.new ++ beBytes 4 e.epoch.toNat
    ++ beBytes 8 e.at_
  [253, 254].foldl (fun a g => match originate a ⟨0x22, 7, g, 0, 0, 0, false, body, false⟩ with
    | some t => t
    | none => a) s

/-- Ring events at a span boundary: three sends each, held while firmware restarts (R342, R350). -/
def ringEventSpan (s : State) : State :=
  if s.tapped ∧ s.mgmt.restarting = false then
    let s1 := s.ring.events.foldl sendRingEvent s
    let left := (s1.ring.events.map (fun e => { e with sends := e.sends + 1 })).filter (fun e => decide (e.sends < 3))
    { s1 with ring := { s1.ring with events := left } }
  else s

/-! ## The flashing path (R320, R321, R346) -/

/-- What untapping leaves of a port: the laser source, its counters and the flags that a write clears. -/
def PortState.untapped (x : PortState) : PortState :=
  { elsOk := x.elsOk, stormFlag := x.stormFlag, nbChange := x.nbChange, fecUncorr := x.fecUncorr, fcsBad := x.fcsBad
    dropped := x.dropped }

/-- The switches go to bar: the node ID, the map and all frames in the transit buffers go, and the SPDM sessions end
(R321, R346, R415). (Log DEDUCED 141) -/
def untap (s : State) : State :=
  if s.tapped then
    let r : Ring := { switchedAt := s.now, east := s.ring.east.untapped, west := s.ring.west.untapped, vhtr := s.ring.vhtr }
    let s1 : State := { s with ring := r, sec := { s.sec with sessions := [] } }
    s1.send (.switches false)
  else s

/-- The engine untaps by itself (R347): SELF_FAULT first, and RING_SELF_FAULT in the ring log. -/
def selfFault (s : State) (p : Port) : State :=
  if s.tapped then
    (untap (sendRingEvent s ⟨reSelfFault, p.index, 0, 0, s.epoch, s.now, 0⟩)).logFree .ring 0x0104 0xFF
  else s

/-! ## MCTP vendor-defined responses (R421) -/

/-- A vendor-defined response. -/
def mctpAnswer (s : State) (cmd : Nat) (inst : Byte) (cc : Nat) (body : List Byte) : State :=
  s.send (.mctp ([0x7F] ++ beBytes 4 Config.iana.toNat ++ beBytes 1 (cmd ||| 0x80) ++ [inst] ++ beBytes 1 cc ++ body))

/-- The answer to RING_TAP. -/
def tapAnswer (s : State) (inst : Byte) (status : Nat) : State := mctpAnswer s 0x30 inst 0 (beBytes 1 status)

/-- A queue pair's depth; QP 0 has 64 (R352). -/
def State.depth (s : State) (q : QpId) : Nat := match q with | .admin _ => 64 | .data _ => (s.qp q).depth

/-- An accepted tap (R344, R345): the switches go to cross, both PCS relock, QP 0 exists for each gateway, and the 20 ms
of training run. (Log DEDUCED 141) -/
def tapOn (s : State) (inst node : Byte) (seq0 nonce : Word) : State :=
  let fresh (x : PortState) : PortState := { x.untapped with pcs := false }
  let r : Ring := { tapped := true, switchedAt := s.now, node := node.toNat, bseq := seq0, nonce := nonce
                    east := fresh s.ring.east, west := fresh s.ring.west, splice := .training inst s.now, vhtr := s.ring.vhtr }
  let open_ (g : Gateway) (t : State) : State := t.modQp (.admin g) fun _ => { state := .opened }
  open_ .b (open_ .a (({ s with ring := r }).send (.switches true)))

/-- Both ports LINK_UP ends the training of a splice: ID_PROBE, and 2 ms for a claim (R345, R348). -/
def spliceStep (s : State) : State :=
  match s.ring.splice with
  | .training inst _ =>
    if s.ring.east.linkUp && s.ring.west.linkUp then
      let s1 := broadcast s 0x23 (beBytes 4 s.ring.nonce.toNat ++ zeros 4)
      { s1 with ring := { s1.ring with splice := .probing inst s.now } }
    else s
  | _ => s

/-! ## Receiving (R328 to R333) -/

/-- What becomes of a received frame before its type is looked at. -/
inductive Verdict0 | silent | dropped | good
  deriving DecidableEq, Repr

/-- The checks that every frame meets: HCRC, VER, SRC, DST, PCP, and no broadcast of a sequenced type (R326 to R331). -/
def frameVerdict (s : State) (f : Frame) : Verdict0 :=
  if s.tapped = false ∨ s.powered 4 = false then .silent
  else if (s.port f.port).miswired ∧ f.ftype ≠ 0x20 then .silent
  else if f.hcrc ≠ hcrcOf f ∨ f.ver ≠ 0x10 ∨ f.src = 0 ∨ 254 < f.src ∨ f.dst = 0 ∨ 255 < f.dst then .dropped
  else if f.pcp ≠ 3 ∧ f.pcp ≠ 6 ∧ f.pcp ≠ 7 then .dropped
  else if f.dst = 255 ∧ 1 ≤ f.ftype ∧ f.ftype ≤ 4 then .dropped
  else .good

/-- The frame types of R329. -/
def knownType (t : Nat) : Bool := [1, 2, 3, 4, 0x20, 0x21, 0x22, 0x23, 0x24].contains t

/-- The half-range rule of R205: `a` is newer than `b`. -/
def newer32 (a b : Word) : Bool := decide (a ≠ b) && decide ((a - b).toNat < 2 ^ 31)

/-- A broadcast is the first copy of a newer one from its SRC (R333); values held are SEQ + 1. -/
def firstCopy (s : State) (f : Frame) : Bool :=
  match Tbl.get 0 s.ring.lastB f.src with
  | 0 => true
  | n + 1 => newer32 f.seq (BitVec.ofNat 32 n)
def noteBroadcast (s : State) (f : Frame) : State :=
  { s with ring := { s.ring with lastB := Tbl.set 0 s.ring.lastB f.src (f.seq.toNat + 1) } }

/-- The port on which an unwrapped frame from a node came (R335). -/
def learn (s : State) (f : Frame) : State :=
  if f.wrap then s else { s with ring := { s.ring with learned := Tbl.set 0 s.ring.learned f.src (f.port.index + 1) } }

/-- A frame met by the ring (R330): taken, terminated, processed and forwarded, forwarded, turned back or dropped. `take`
is what the frame does where the engine processes it. -/
def receive (s : State) (f : Frame) (take : State → State) : State :=
  match frameVerdict s f with
  | .silent => s
  | .dropped => s.ringDrop f.port
  | .good =>
    let s1 := learn s f
    let probe := decide (f.ftype = 0x23 ∨ f.ftype = 0x24)
    if f.ftype = 0x20 then (if f.fcsOk then take s1 else s1.ringBad f.port)
    else if f.src = s.ring.node then
      if probe = false then s1.ringDrop f.port
      else if f.fcsOk = false then s1.ringBad f.port
      else if f.ftype = 0x23 ∧ beAt f.body 0 4 = s.ring.nonce.toNat then s1
      else if firstCopy s1 f then take (noteBroadcast s1 f) else s1
    else if f.dst = s.ring.node then (if f.fcsOk then take s1 else s1.ringBad f.port)
    else
      let s2 := if f.fcsOk then s1 else s1.ringBad f.port
      if f.dst = 255 ∧ f.fcsOk ∧ knownType f.ftype ∧ firstCopy s2 f then forward (take (noteBroadcast s2 f)) f
      else forward s2 f

/-! ## Commands: transit, unknown and foreign frames -/

/-- A frame not addressed to the engine (R330 to R333). -/
def execTransitFrame (f : Frame) (s : State) : Host.Outcome State Fault Refusal :=
  .next (receive s f id)

/-- A frame of unknown type (R329): dropped where it is addressed to the engine, forwarded otherwise. -/
def execUnknownFrameType (f : Frame) (s : State) : Host.Outcome State Fault Refusal :=
  .next (receive s f fun t => t.ringDrop f.port)

/-- A frame that is neither Yaver nor PFC (R318): dropped and counted, never forwarded. -/
def execNonYaverFrame (p : Port) (s : State) : Host.Outcome State Fault Refusal :=
  if s.tapped ∧ s.powered 4 then .next (s.ringDrop p) else .next s

/-! ## Commands: the map -/

/-- The map that a TOPOLOGY body spells (R334). -/
def parseMap (body : List Byte) : RingMap :=
  { epoch := BitVec.ofNat 32 (beAt body 0 4), cut := (byteAt body 5).getLsbD 0, cutW := (byteAt body 6).toNat
    cutE := (byteAt body 7).toNat, order := ((body.drop 8).take (byteAt body 4).toNat).map (·.toNat) }

/-- The three conditions of R334. -/
def mapAccepted (s : State) (f : Frame) (m : RingMap) : Bool :=
  decide (f.src = 253 ∨ f.src = 254)
    && (match s.ring.map with | none => true | some o => newer32 m.epoch o.epoch)
    && decide (m.order.count s.ring.node = 1)

/-- The ports that the engine closes towards a cut's stretch (R335): East at its western end, West at its eastern. -/
def closes (s : State) (m : RingMap) (p : Port) : Bool :=
  m.cut && m.order.contains m.cutW && m.order.contains m.cutE
    && (match p with | .east => m.cutW == s.ring.node | .west => m.cutE == s.ring.node)

/-- A map takes effect. -/
def takeMap (s : State) (m : RingMap) : State :=
  let s1 : State := { s with ring := { s.ring with map := some m } }
  let port (t : State) (p : Port) : State := t.modPort p fun x => { x with cut := closes t m p, quiet := x.quiet && closes t m p }
  port (port s1 .east) .west

/-- TOPOLOGY (R334). -/
def execTopology (f : Frame) (s : State) : Host.Outcome State Fault Refusal :=
  if f.ftype ≠ 0x21 then .next s
  else .next (receive s f fun t =>
    let m := parseMap f.body
    if mapAccepted t f m then takeMap t m else t.logFree .ring 0x0101 0xFF)

/-- A node at a cut has drained its queues of priorities 3 and 6 for the port (R335). -/
def execCutQuiet (p : Port) (s : State) : Host.Outcome State Fault Refusal :=
  let x := s.port p
  if s.tapped ∧ x.cut ∧ x.quiet = false ∧ x.p3.transit = [] ∧ x.p3.own = [] ∧ x.p6.transit = [] ∧ x.p6.own = [] then
    .next ((s.modPort p fun x => { x with quiet := true }).ringEvent reQuiet p x.neighbour x.neighbour)
  else .next s

/-! ## Commands: PFC (R336, R337) -/

/-- A PFC frame with a timer, in quanta of 512 bit times: 0.64 ns each. (Log PRESUMED 51) -/
def execPfcXoff (p : Port) (pr : Prio) (timer : Half) (s : State) : Host.Outcome State Fault Refusal :=
  if s.powered 4 = false ∨ timer = 0 then .next s
  else .next (s.modPrio p pr.pcp fun x =>
    { x with paused := true, pausedSince := if x.paused then x.pausedSince else s.now
             pauseEnds := s.now + timer.toNat * 64 / 500000 })

/-- A priority is paused no longer: what waits for it goes. -/
def unpause (s : State) (p : Port) (pr : Prio) : State :=
  if ((s.port p).prio pr.pcp).paused then
    drain (s.modPrio p pr.pcp fun x => { x with paused := false, freeSince := s.now }) p
  else s

/-- A PFC frame with timer 0. -/
def execPfcXon (p : Port) (pr : Prio) (s : State) : Host.Outcome State Fault Refusal :=
  if s.powered 4 then .next (unpause s p pr) else .next s

/-- The received timer runs out. -/
def execPfcTimerExpiry (p : Port) (pr : Prio) (s : State) : Host.Outcome State Fault Refusal :=
  if s.powered 4 ∧ ((s.port p).prio pr.pcp).pauseEnds ≤ s.now then .next (unpause s p pr) else .next s

/-- XOFF again, every 20 µs while the condition holds. (Log DEDUCED 52) -/
def execPfcXoffRepeat (p : Port) (pr : Prio) (s : State) : Host.Outcome State Fault Refusal :=
  let x := (s.port p).prio pr.pcp
  if s.powered 4 ∧ x.xoff ∧ x.xoffAt + 4 ≤ s.now then
    .next ((s.modPrio p pr.pcp fun x => { x with xoffAt := s.now }).send (.pfc p pr 0xFFFF))
  else .next s

/-- A priority paused without a break for RING_PFC_WD raises PFC_STORM. -/
def execPfcWatchdogExpiry (p : Port) (pr : Prio) (s : State) : Host.Outcome State Fault Refusal :=
  let x := (s.port p).prio pr.pcp
  if s.powered 4 ∧ x.paused ∧ x.storm = false ∧ x.pausedSince + msec (s.pnat 0x0106 0) ≤ s.now then
    .next (((s.modPrio p pr.pcp fun x => { x with storm := true }).modPort p fun y => { y with stormFlag := true }).ringEvent
      reStorm p (s.port p).neighbour (s.port p).neighbour)
  else .next s

/-- One frame dropped at the head of the paused queue, every 10 µs of a storm. (Log DEDUCED 52) -/
def execPfcStormDrop (p : Port) (pr : Prio) (s : State) : Host.Outcome State Fault Refusal :=
  let x := (s.port p).prio pr.pcp
  match x.transit with
  | [] => .next s
  | f :: rest =>
    if s.powered 4 ∧ x.storm ∧ x.dropAt + 2 ≤ s.now then
      .next (pfcAll ((s.modPrio p pr.pcp fun x => { x with transit := rest, dropAt := s.now }).ringDrop f.port))
    else .next s

/-- A priority unpaused for 1 ms ends the storm. -/
def execPfcStormEnd (p : Port) (pr : Prio) (s : State) : Host.Outcome State Fault Refusal :=
  let x := (s.port p).prio pr.pcp
  if x.storm ∧ x.paused = false ∧ x.freeSince + msec 1 ≤ s.now then .next (s.modPrio p pr.pcp fun x => { x with storm := false })
  else .next s

/-! ## Commands: links, heartbeats and wrapping (R340, R341, R343) -/

/-- PCS and FEC lock: waiting frames flow. A locked PCS shows that REFCLK_RING is present. (Log DEDUCED 25) -/
def execPcsLock (p : Port) (s : State) : Host.Outcome State Fault Refusal :=
  if s.powered p.domain then
    .next (spliceStep (drain ({ s with aon := { s.aon with refRing := true } : State }.modPort p fun x => { x with pcs := true, lockAt := if x.pcs then x.lockAt else s.now }) p))
  else .next s

/-- PCS lost: frames wait in their queues. -/
def execPcsLoss (p : Port) (s : State) : Host.Outcome State Fault Refusal :=
  .next (s.modPort p fun x => { x with pcs := false })

/-- A port wraps (R343): what waits for it is turned back, and broadcasts end there. -/
def wrapPort (s : State) (p : Port) : State :=
  let x := s.port p
  let waiting (y : PrioState) : PrioState := { y with transit := [], own := [] }
  let s1 := s.modPort p fun x => { x with wrapped := true, p3 := waiting x.p3, p6 := waiting x.p6, p7 := waiting x.p7 }
  let transit := x.p7.transit ++ x.p6.transit ++ x.p3.transit
  let own := x.p7.own ++ x.p6.own ++ x.p3.own
  let s2 := transit.foldl (fun a f => leave a p f) s1
  pfcAll (own.foldl (fun a f => if f.wrap then a.ringDrop p else ownLeave a p f) s2)

/-- The third miss: the neighbour is dark (R341, R343). -/
def execHeartbeatMissLimit (p : Port) (s : State) : Host.Outcome State Fault Refusal :=
  let x := s.port p
  if s.tapped ∧ 3 ≤ x.misses ∧ x.wrapped = false then
    .next (((wrapPort s p).ringEvent reWrapped p x.neighbour 0).ringEvent reDark p x.neighbour 0)
  else .next s

/-- A HEARTBEAT body (R340). -/
def heartbeatBody (s : State) (p : Port) : List Byte :=
  let x := s.port p
  let flags := bitNat s.tapped + 2 * bitNat s.ring.east.wrapped + 4 * bitNat s.ring.west.wrapped
    + 8 * bitNat s.ring.map.isSome + 16 * bitNat (decide (s.ring.splice ≠ .none))
  beBytes 1 p.index ++ beBytes 1 s.mode.code ++ beBytes 1 flags ++ beBytes 1 x.lastHeard ++ beBytes 4 s.epoch.toNat
    ++ [x.hbSeq] ++ zeros 7

/-- A HEARTBEAT out of a port, link-local, at a span boundary (R340). -/
def sendHeartbeat (s : State) (p : Port) : State :=
  (ownEgress s p ⟨0x20, 7, 255, 0, 0, 0, false, heartbeatBody s p, false⟩).modPort p fun x => { x with hbSeq := x.hbSeq + 1 }

/-- The miss count of a port at a span boundary (R341). -/
def missSpan (s : State) (p : Port) : State :=
  s.modPort p fun x => if x.heard then { x with heard := false } else { x with misses := min 15 (x.misses + 1) }

/-- A valid HEARTBEAT: the misses end, a wrapped port that is LINK_UP unwraps, and a new neighbour is reported. -/
def goodHeartbeat (s : State) (p : Port) (src : Nat) : State :=
  let old := (s.port p).neighbour
  let fresh := decide (old ≠ src)
  let s1 := s.modPort p fun x =>
    { x with misses := 0, heard := true, lastHeard := src, neighbour := src, miswired := false, nbChange := x.nbChange || fresh }
  let unwrap := (s1.port p).wrapped && (s1.port p).linkUp
  let s2 := if unwrap then drain ((s1.modPort p fun x => { x with wrapped := false }).ringEvent reUnwrapped p old src) p else s1
  spliceStep (if fresh then s2.ringEvent reNew p old src else s2)

/-- HEARTBEAT (R340, R341, R343): one that carries the port's own number shows a crossed cable. (Log DEDUCED 56) -/
def execHeartbeat (f : Frame) (s : State) : Host.Outcome State Fault Refusal :=
  if f.ftype ≠ 0x20 then .next s
  else .next (receive s f fun t =>
    if (byteAt f.body 0).toNat = f.port.other.index then goodHeartbeat t f.port f.src
    else if (t.port f.port).miswired then t
    else ((t.modPort f.port fun x => { x with miswired := true }).logFree .ring 0x0103 0xFF).ringEvent reMiswired f.port
      (t.port f.port).neighbour f.src)

/-! ## Commands: splices (R344, R345, R348) -/

/-- ID_PROBE (R348): the engine's own ID with a foreign nonce is claimed. -/
def execIdProbe (f : Frame) (s : State) : Host.Outcome State Fault Refusal :=
  if f.ftype ≠ 0x23 then .next s
  else .next (receive s f fun t =>
    if f.src = t.ring.node then
      (broadcast t 0x24 (beBytes 4 (beAt f.body 0 4) ++ zeros 4)).ringEvent reDup f.port f.src f.src
    else t)

/-- ID_CLAIM (R348): within 2 ms of its probe the prober untaps and answers DUP_ID. -/
def execIdClaim (f : Frame) (s : State) : Host.Outcome State Fault Refusal :=
  if f.ftype ≠ 0x24 then .next s
  else .next (receive s f fun t =>
    match t.ring.splice with
    | .probing inst since =>
      if beAt f.body 0 4 = t.ring.nonce.toNat ∧ t.now ≤ since + msec 2 then tapAnswer (untap t) inst 5 else t
    | _ => t)

/-- No claim within 2 ms: the engine has joined (R345). -/
def execIdClaimWindowExpiry (s : State) : Host.Outcome State Fault Refusal :=
  match s.ring.splice with
  | .probing inst since =>
    if s.mode = .enrol ∧ since + msec 2 ≤ s.now then
      let s1 : State := { s with ring := { s.ring with splice := .none } }
      .next (tapAnswer ((s1.enterMode .transit mcSplice).ringEvent reJoined .east 0 s.ring.east.neighbour) inst 0)
    else .next s
  | _ => .next s

/-- A port not LINK_UP within 20 ms of the tap (R344). -/
def execTapTrainTimeout (s : State) : Host.Outcome State Fault Refusal :=
  match s.ring.splice with
  | .training inst since =>
    if since + msec 20 ≤ s.now ∧ (s.ring.east.linkUp && s.ring.west.linkUp) = false then .next (tapAnswer (untap s) inst 4)
    else .next s
  | _ => .next s

/-- The checks of RING_TAP in their order, and the tap (R344). (Log DEDUCED 55) -/
def tryTap (s : State) (inst node : Byte) (seq0 nonce : Word) : State :=
  if s.tapped then tapAnswer s inst 6
  else if node.toNat = 0 ∨ 252 < node.toNat then tapAnswer s inst 1
  else if s.mode ≠ .enrol then tapAnswer s inst 2
  else if s.mgmt.selfTest = false ∨ s.ring.east.elsOk = false ∨ s.ring.west.elsOk = false then tapAnswer s inst 3
  else tapOn s inst node seq0 nonce

/-- RING_TAP (R344); while a CAL_LOAD runs through the carrier it waits (R422). (Log DEDUCED 55) -/
def execRingTap (inst node : Byte) (seq0 nonce : Word) (s : State) : Host.Outcome State Fault Refusal :=
  if s.aon.supply = false then .next s
  else if s.tapped = false ∧ s.mode = .enrol ∧ s.adminQ.any (fun c => c.opcode == 0x44) then
    .next { s with ring := { s.ring with splice := .waitingCal inst node seq0 nonce } }
  else .next (tryTap s inst node seq0 nonce)

/-- RING_UNTAP (R344): in RETIRE the switches go to bar, and the mode is ENROL, in which PD7 to PD19 are off (R464).
(Log DEDUCED 43) -/
def execRingUntap (inst : Byte) (s : State) : Host.Outcome State Fault Refusal :=
  if s.aon.supply = false then .next s
  else if s.mode ≠ .retire then .next (mctpAnswer s 0x31 inst 0 [2])
  else
    let s1 := if s.powered 18 then (s.powerOff (pds 7 16)).motionDown else s
    .next (mctpAnswer ((untap s1).enterMode .enrol mcSplice) 0x31 inst 0 [0])

/-- RING_STATUS (R344): RING_STAT and both RING_PORT_STAT words, with PD4 powered. Reading them so clears nothing. -/
def execRingStatus (inst : Byte) (s : State) : Host.Outcome State Fault Refusal :=
  if s.aon.supply = false then .next s
  else if s.powered 4 = false then .next (mctpAnswer s 0x32 inst 2 [])
  else .next (mctpAnswer s 0x32 inst 0 (beBytes 4 (ringStat s) ++ beBytes 4 s.ring.east.stat ++ beBytes 4 s.ring.west.stat))

/-! ## Commands: faults of the tap (R346, R347, R500) -/

/-- A laser source alarm, or no light from it (R319, R347). -/
def execLaserSourceUnusable (p : Port) (s : State) : Host.Outcome State Fault Refusal :=
  .next ((selfFault s p).modPort p fun x => { x with elsOk := false })

/-- PD2 or PD3 reports a fault (R347). -/
def execPortDomainFault (p : Port) (s : State) : Host.Outcome State Fault Refusal :=
  if s.powered p.domain then .next (selfFault s p) else .next s

/-- REFCLK_RING absent, or off by more than 200 ppm (R500). (Log DEDUCED 25) -/
def execRefclkRingLost (s : State) : Host.Outcome State Fault Refusal :=
  .next (selfFault { s with aon := { s.aon with refRing := false } } .east)

/-- VHTR lost: without heater power the switches are in the bar state (R320, R346). -/
def execVhtrLost (s : State) : Host.Outcome State Fault Refusal :=
  let s1 := if s.tapped then (untap s).logFree .ring 0x0104 0xFF else s
  .next { s1 with ring := { s1.ring with vhtr := false } }

end Sys2Proof.Machine
end

