-- ==== Sys2Proof/Machine/Transport.lean ====
section
/-! DEFINITION. The end-to-end transport: sequencing, acknowledgement and credits, retransmission, and what a CMD frame and
a DATA frame bring (R338, R339, R352 to R364, R372, R384). -/

namespace Sys2Proof.Machine

open Sys2Proof

/-! ## Queue pairs and credits -/

/-- The queue pair of a frame addressed to the engine: QP 0 has one instance for each gateway (R352). -/
def frameQp (f : Frame) : Option QpId :=
  if f.qp = 0 then (if f.src = 253 then some (.admin .a) else if f.src = 254 then some (.admin .b) else none)
  else some (.data f.qp)

/-- A frame reaches its queue pair: the pair is not FREE, and the frame is from its peer (R352, R353). -/
def reaches (s : State) (f : Frame) (q : QpId) : Bool :=
  decide ((s.qp q).state ≠ .free) && decide (f.src = s.peerOf q)

/-- A queue pair's priority class; QP 0 counts as urgent. -/
def qpClass (s : State) (q : QpId) : Nat := match q with | .admin _ => 0 | .data _ => (s.qp q).cls

/-- APPEND sectors that the course write buffer can still take (R193, R201); the buffer is one for all courses.
(Log DEDUCED 64) -/
def bufferRoom (s : State) : Nat :=
  s.pnat 0x0517 0 * 1048576 / 4128 - (s.courses.map (fun c => c.buf.length)).foldl (· + ·) 0

/-- CMD_CREDIT and DATA_CREDIT of the engine's next ACK (R362 to R364). (Log DEDUCED 64) -/
def cmdCredit (s : State) (q : QpId) : Nat := s.depth q - (s.qp q).occupied
def dataGrant (s : State) (q : QpId) : Nat :=
  match q with
  | .admin _ => s.pnat 0x0203 0
  | .data _ => min (s.pnat 0x0203 0) (bufferRoom s)

/-- An ACK or a NAK frame of a queue pair, sent at once: ACKs are unsequenced (R329, R338, R350). -/
def sendAck (s : State) (q : QpId) (nak : Bool) : State :=
  let g := dataGrant s q
  let body := beBytes 1 (bitNat nak) ++ zeros 3 ++ beBytes 2 (cmdCredit s q) ++ beBytes 2 g
  let s1 := s.modQp q fun p => { p with rxUnacked := 0, granted := g, dataIn := 0 }
  match originate s1 ⟨4, 6, s.peerOf q, qpNumber q, (s.qp q).rxNext, 0, false, body, false⟩ with
  | some t => t
  | none => s1

/-! ## Sending (R339) -/

/-- A DATA frame's body (R339). -/
def dataBody (index : Nat) (units : List (List Byte)) : List Byte :=
  beBytes 4 index ++ beBytes 1 units.length ++ zeros 3 ++ units.flatten

/-- Bytes held in the retransmission buffer, over all queue pairs. -/
def retxBytes (s : State) : Nat :=
  (s.qps.map (fun e => (e.2.unacked.map (fun f => wireSize f.body.length)).foldl (· + ·) 0)).foldl (· + ·) 0

/-- Everything unacknowledged is sent again, from the oldest frame, with RETX set. -/
def retransmit (s : State) (q : QpId) : State :=
  let fs := (s.qp q).unacked.map (fun f => { f with retx := true })
  let s1 := s.modQp q fun p => { p with unacked := fs, waitFrom := s.now }
  fs.foldl (fun a f => match originate a f with | some t => t | none => a) s1

/-- A frame of the peer makes an unreachable queue pair OPEN again (R353). -/
def reopen (s : State) (q : QpId) : State :=
  if (s.qp q).state = .unreachable then retransmit (s.modQp q fun p => { p with state := .opened, timeouts := 0 }) q else s

/-- A waiting sequenced frame is launched: it gets its sequence number and enters the retransmission buffer. Where the map
allows no direction the peer is unreachable. (Log DEDUCED 57) -/
def execSequencedFrameLaunch (q : QpId) (s : State) : Host.Outcome State Fault Refusal :=
  let p := s.qp q
  match p.txWait with
  | [] => .next s
  | f :: rest =>
    if s.tapped = false ∨ p.state ≠ .opened ∨ s.pnat 0x0102 0 ≤ p.unacked.length
        ∨ s.pnat 0x0107 0 * 1048576 < retxBytes s + wireSize f.body.length then .next s
    else
      let g := { f with seq := p.txNext }
      match originate s g with
      | none => .next (peerLost s q)
      | some t => .next (t.modQp q fun p =>
          { p with txWait := rest, txNext := p.txNext + 1, unacked := p.unacked ++ [g]
                   waitFrom := if p.unacked.isEmpty then s.now else p.waitFrom })

/-- No acknowledgement has advanced for RING_RTO, doubled by consecutive timeouts up to eightfold. (Log DEDUCED 52) -/
def execRtoExpiry (q : QpId) (s : State) : Host.Outcome State Fault Refusal :=
  let p := s.qp q
  let wait := s.pnat 0x0100 0 * min 8 (2 ^ p.timeouts)
  if p.state ≠ .opened ∨ p.unacked = [] ∨ s.now < p.waitFrom + wait / 5 then .next s
  else
    let s1 := s.modQp q fun p => { p with timeouts := p.timeouts + 1 }
    .next (if s.pnat 0x0101 0 ≤ p.timeouts + 1 then peerLost s1 q else retransmit s1 q)

/-- RING_ACK_US after the first frame not yet acknowledged (R338). (Log DESIGN CHOICE 2; DEDUCED 52) -/
def execAckTimerExpiry (q : QpId) (s : State) : Host.Outcome State Fault Refusal :=
  let p := s.qp q
  if s.tapped ∧ 0 < p.rxUnacked ∧ p.rxFirstAt + s.pnat 0x0104 0 / 5 ≤ s.now then .next (sendAck s q false) else .next s

/-- A queue pair unreachable for QUEUE_ORPHAN enters DELETING; QP 0 never does (R353). -/
def execQueueOrphanExpiry (q : QpId) (s : State) : Host.Outcome State Fault Refusal :=
  let p := s.qp q
  if p.state = .unreachable ∧ p.lostAt + secs (s.pnat 0x0204 0) ≤ s.now then .next (deleteQp s q) else .next s

/-- A DELETING queue pair whose tags are all released becomes FREE (R353). (Log DEDUCED 61) -/
def execQpFreed (q : QpId) (s : State) : Host.Outcome State Fault Refusal :=
  if (s.qp q).state = .deleting ∧ s.tags.all (fun c => c.q != q) then .next (s.modQp q fun _ => {}) else .next s

/-! ## Acknowledgements from the host -/

/-- Frames that an acknowledgement of `x` covers: those older than `x`. -/
def covered (x : Word) (f : TxFrame) : Bool := newer32 x f.seq

/-- ACK and NAK (R338, R362, R363): acknowledged frames leave the buffer, completions free their entries, and the credit of
an acknowledgement no older than the last holds. -/
def takeAck (s : State) (f : Frame) (nak : Bool) : State :=
  match frameQp f with
  | none => s.ringDrop f.port
  | some q =>
    if reaches s f q = false then s.ringDrop f.port
    else if (byteAt f.body 0).toNat ≠ bitNat nak then s
    else
      let s1 := reopen s q
      let p := s1.qp q
      let oldest := match p.unacked with | g :: _ => g.seq | [] => p.txNext
      if newer32 oldest f.seq ∨ newer32 f.seq p.txNext then s1
      else
        let done := p.unacked.filter (covered f.seq)
        let s2 := s1.modQp q fun p =>
          { p with unacked := p.unacked.filter (fun g => !covered f.seq g)
                   occupied := p.occupied - (done.filter (fun g => g.ftype == 3)).length
                   timeouts := if done.isEmpty then p.timeouts else 0
                   waitFrom := if done.isEmpty then p.waitFrom else s.now
                   dataCredit := beAt f.body 6 2 }
        if nak then retransmit s2 q else s2

/-- ACK. -/
def execAck (f : Frame) (s : State) : Host.Outcome State Fault Refusal :=
  if f.ftype ≠ 4 then .next s else .next (receive s f fun t => takeAck t f false)
/-- NAK: the sender goes back to the oldest unacknowledged frame. -/
def execNak (f : Frame) (s : State) : Host.Outcome State Fault Refusal :=
  if f.ftype ≠ 4 then .next s else .next (receive s f fun t => takeAck t f true)

/-! ## Receiving a sequenced frame (R338) -/

/-- A frame of the expected number is accepted where `store` can take it; an older one is acknowledged again; a newer one
is answered with one NAK. A frame that an uncorrectable word of the ingest buffer holds cannot be stored (R444). -/
def sequencedNow (s : State) (f : Frame) (store : QpId → State → Option State) : State :=
  match frameQp f with
  | none => s.ringDrop f.port
  | some q =>
    if reaches s f q = false then s.ringDrop f.port
    else
      let s1 := reopen s q
      let x := (s1.qp q).rxNext
      if f.seq = x then
        match if s.ring.ingestLost then none else store q s1 with
        | none => { s1 with ring := { s1.ring with ingestLost := false } }
        | some t =>
          let u := t.modQp q fun p =>
            { p with rxNext := x + 1, rxUnacked := p.rxUnacked + 1
                     rxFirstAt := if p.rxUnacked = 0 then s.now else p.rxFirstAt }
          if s.pnat 0x0103 0 ≤ (u.qp q).rxUnacked then sendAck u q false else u
      else if newer32 x f.seq then sendAck s1 q false
      else if (s1.qp q).nakFor = some x then s1
      else sendAck (s1.modQp q fun p => { p with nakFor := some x }) q true

/-- Bytes that wait in the ingest buffer of 1 MiB. -/
def ingestBytes (s : State) : Nat := (s.ring.ingest.map (fun e => wireSize e.1.len)).foldl (· + ·) 0
/-- The ingest buffer's panic: above 75 %, until it has fallen to 50 % (R438). -/
def ingestLevel (s : State) : State :=
  let n := ingestBytes s
  { s with ring := { s.ring with ingestPanic := decide (4 * n > 3 * 1048576) || (s.ring.ingestPanic && decide (2 * n > 1048576)) } }
/-- A sequenced frame, or while a channel retrains one that waits in the ingest buffer; with the buffer full it is unstorable (R429, R438).
(Log DESIGN CHOICE 167) -/
def sequenced (s : State) (f : Frame) (draws : List Word) (store : QpId → State → Option State) : State :=
  if ((s.chan 0).retraining || (s.chan 1).retraining) = false then sequencedNow s f store
  else if 1048576 < ingestBytes s + wireSize f.len then s
  else pfcAll (ingestLevel { s with ring := { s.ring with ingest := s.ring.ingest ++ [(f, draws)] } })

/-! ## CMD (R339, R363) -/

/-- The entries of a CMD frame. -/
def cmdEntries (f : Frame) (now limit : Nat) : List RingEntry :=
  (chunks 64 (beAt f.body 0 2) (f.body.drop 8)).map (fun b =>
    { bytes := turnSqe (b ++ zeros (64 - b.length)), at_ := now, limit := limit })

/-- A CMD frame is stored whole, or is malformed and stored in no part. A DELETING queue pair discards its SQEs (R353). -/
def storeCmd (f : Frame) (q : QpId) (s : State) : Option State :=
  let n := beAt f.body 0 2
  if n = 0 ∨ 128 < n ∨ f.len ≠ 8 + 64 * n then
    some ((s.ringDrop f.port).log .device 0x0105 0xFF (qpNumber q))
  else if (s.qp q).state = .deleting then some s
  else if cmdCredit s q < n then none
  else some (s.modQp q fun p => { p with sq := p.sq ++ cmdEntries f s.now (s.pnat 0x0200 (qpClass s q)), occupied := p.occupied + n })

/-- CMD. -/
def execCmd (f : Frame) (s : State) : Host.Outcome State Fault Refusal :=
  if f.ftype ≠ 1 then .next s else .next (receive s f fun t => sequenced t f [] (storeCmd f))

/-- CPL (R329): engines never receive one. -/
def execCpl (f : Frame) (s : State) : Host.Outcome State Fault Refusal :=
  if f.ftype ≠ 3 then .next s else .next (receive s f fun t => t.ringDrop f.port)

/-! ## Sectors entering the course write buffer (R193, R194, R372) -/

/-- CSNs of a course; none left once it is full. -/
def Course.total (c : Course) : Nat := courseCsns c.dtype c.d c.layers
def Course.left (c : Course) : Nat := c.total - c.nextCsn

/-- The first of the drawn values that is a write sequence for a disc (R82). (Log DESIGN CHOICE 4) -/
def drawSeq (d : Disc) (more : List Nat) (draws : List Word) : Option Nat :=
  (draws.map (·.toNat)).find? (fun w => w != 0 && !d.usedSeqs.contains w && !more.contains w)

/-- The write sequence that sectors for member `i` of a course take now: that of the session open on its disc, or the one
drawn for its next session, drawn here where there is none yet (R194). (Log DEDUCED 88) -/
def memberSeq (s : State) (c : Course) (i : Nat) (draws : List Word) : Option (Nat × State) :=
  match c.bays[i]? with
  | none => none
  | some b =>
    match openSeq (s.bay b.val).write, (s.bay b.val).disc with
    | some w, _ => some (w, s)
    | none, some d =>
      match Tbl.get 0 c.nextSeq i with
      | 0 => (drawSeq d [] draws).map fun w =>
          (w, (s.modCourse c.handle fun k => { k with nextSeq := Tbl.set 0 k.nextSeq i w }).modDisc b.val fun d =>
            { d with usedSeqs := d.usedSeqs ++ [w] })
      | w => some (w, s)
    | none, none => none

/-- A sector given its CSN, encrypted, given its CRC and held in the write buffer (R193). -/
def bufferSector (s : State) (handle csn tenant key : Nat) (fill : Bool) (draws : List Word) (user : List Byte) : Option State :=
  match s.course? handle with
  | none => none
  | some c =>
    let i := csnDisc c.dtype c.d csn
    let m := csnRow c.dtype c.d csn
    match memberSeq s c i draws, (c.bays[i]?).bind (fun b => (s.bay b.val).disc) with
    | some (w, t), some d =>
      let k := csnK c.dtype csn
      let lsn := lsnOf c.dtype (rowLayer c.dtype m) (rowBlock c.dtype m) k
      let slot := if key = 0 then none else some (key, Tbl.get [] s.sec.keys key)
      let bytes := encodeSector d.discId lsn tenant w (rowLayer c.dtype m) false fill slot ((user ++ zeros 4096).take 4096)
      some (t.modCourse handle fun c => { c with buf := c.buf ++ [⟨csn, bytes⟩] })
    | _, _ => none

/-- The CSN range of an APPEND, assigned at its first sector (R372): none where too few are left. -/
def assignRange (s : State) (c : Cmd) : Option (Nat × State) :=
  match c.csn with
  | some first => some (first, s)
  | none =>
    match s.course? c.sqe.handle with
    | none => none
    | some k =>
      if k.sealed ∨ k.full ∨ k.left < c.sqe.count then none
      else
        let s1 := s.modCourse k.handle fun k => { k with nextCsn := k.nextCsn + c.sqe.count }
        some (k.nextCsn, s1.modCmd c.q c.sqe.tag fun c => { c with csn := some k.nextCsn })

/-- One sector of an APPEND's DATA frame: an INDEX beyond COUNT is discarded and counted, a repeated one discarded
(R361). -/
def takeSector (port : Port) (q : QpId) (tag : Nat) (draws : List Word) (s : State) (x : Nat × List Byte) : Option State :=
  match s.cmd? q tag with
  | none => some (s.ringDrop port)
  | some c =>
    if c.sqe.count ≤ x.1 then some (s.ringDrop port)
    else if c.taken.contains x.1 then some s
    else match assignRange s c with
      | none =>
        let k := s.course? c.sqe.handle
        if (match k with | some k => k.sealed | none => false) then some (s.finishFree q tag stSealed 0 0)
        else some (s.finish q tag 0 stSealedFull 0 0 (match k with | some k => k.left | none => 0))
      | some (first, t) =>
        match bufferSector t c.sqe.handle (first + x.1) c.sqe.tenant c.sqe.key false draws x.2 with
        | none => none
        | some u =>
          let v := (u.modCourse c.sqe.handle fun k => { k with lastData := u.now }).modCmd q tag fun c =>
            { c with taken := c.taken ++ [x.1] }
          if c.taken.length + 1 = c.sqe.count then some (v.finish q tag 0 stSuccess 0 c.sqe.count first) else some v

/-- A list of steps, each of which may fail. -/
def foldStep {α : Type} (f : State → α → Option State) : List α → State → Option State
  | [], s => some s
  | x :: r, s => match f s x with | none => none | some t => foldStep f r t

/-! ## DATA (R339, R361, R384) -/

/-- The sectors of a DATA frame, with their INDEX. -/
def dataSectorsOf (f : Frame) : List (Nat × List Byte) :=
  (chunks 4096 (byteAt f.body 4).toNat (f.body.drop 8)).zipIdx.map (fun e => (beAt f.body 0 4 + e.2, e.1))

/-- A tag waits in the submission ring. -/
def tagWaits (s : State) (q : QpId) (tag : Nat) : Bool := (s.qp q).sq.any (fun e => beAt e.bytes 2 2 % 2048 == tag)

/-- One payload unit of an admin command (R384). -/
def takeUnit (c : AdminCmd) (x : Nat × List Byte) : AdminCmd :=
  if c.unitCount ≤ x.1 ∨ c.units.contains x.1 then c
  else
    let p := c.payload ++ zeros (c.len - c.payload.length)
    let room := c.len - 4096 * x.1
    { c with units := c.units ++ [x.1]
             payload := p.take (4096 * x.1) ++ (x.2 ++ zeros 4096).take (min 4096 room) ++ p.drop (4096 * x.1 + 4096) }

/-- A DATA frame stored: for an APPEND, for an admin payload, or accepted, discarded and counted for a tag not in flight.
Beyond the granted credit, or while its APPEND has not yet been taken, it waits for the host's retransmission (R379).
(Log DEDUCED 64) -/
def storeData (f : Frame) (draws : List Word) (q : QpId) (s : State) : Option State :=
  let xs := dataSectorsOf f
  let tag := f.tag % 2048
  if (s.qp q).granted < (s.qp q).dataIn + xs.length then none
  else
    let s1 := s.modQp q fun p => { p with dataIn := p.dataIn + xs.length }
    match q with
    | .admin g =>
      if s.adminQ.any (fun c => c.via == .ring g && c.tag == tag) then
        some { s1 with adminQ := s1.adminQ.map (fun c =>
          if c.via == .ring g && c.tag == tag then xs.foldl takeUnit c else c) }
      else if tagWaits s q tag then none
      else some (s1.ringDrop f.port)
    | .data _ =>
      match s.cmd? q tag with
      | some c =>
        if c.sqe.opcode ≠ 2 then some (s1.ringDrop f.port)
        else if c.started = false then none
        else if bufferRoom s < xs.length then none
        else foldStep (takeSector f.port q tag draws) xs s1
      | none => if tagWaits s q tag then none else some (s1.ringDrop f.port)

/-- DATA. `draws` are the values of the random bit generator, for a write sequence that R194 draws now. -/
def execData (f : Frame) (draws : List Word) (s : State) : Host.Outcome State Fault Refusal :=
  if f.ftype ≠ 2 then .next s else .next (receive s f fun t => sequenced t f draws (storeData f draws))

/-! ## The end of a retrain (R429) -/

/-- The frames of the ingest buffer are stored once no channel retrains. (Log DESIGN CHOICE 167) -/
def drainIngest (s : State) : State :=
  if ((s.chan 0).retraining || (s.chan 1).retraining) = true ∨ s.ring.ingest.isEmpty then s
  else
    pfcAll (ingestLevel (s.ring.ingest.foldl (fun a e =>
      if e.1.ftype = 1 then sequencedNow a e.1 (storeCmd e.1) else sequencedNow a e.1 (storeData e.1 e.2)) { s with ring := { s.ring with ingest := [] } }))

/-- A quick or full retrain ends (R429): the held requests go on, with their timeout clocks restarted, or the next stage
follows; what waited in the ingest buffer is stored; a failed channel makes a self-reset. -/
def execDramRetrainDone (ch : Fin 2) (ok : Bool) (s : State) : Host.Outcome State Fault Refusal :=
  let d := s.chan ch
  if d.retraining = false then .next s
  else if ok then
    .next (drainIngest (s.modChanD ch fun d =>
      { d with state := .up, quickTries := 0, rowTimeouts := 0, queue := d.queue.map (fun x => { x with at_ := s.now }) }))
  else match d.state with
    | .quick =>
      if d.quickTries < 2 then
        .next ((s.modChanD ch fun d => { d with quickTries := d.quickTries + 1, retrains := min 15 (d.retrains + 1) }).log
          .device 0x0303 0xFF (ch + 256))
      else
        .next ((s.modChanD ch fun d => { d with state := .full, quickTries := 0, retrains := min 15 (d.retrains + 1) }).log
          .device 0x0303 0xFF (ch + 512))
    | _ =>
      .next (((s.modChanD ch fun d => { d with state := .failed }).log .device 0x0304 0xFF ch).beginSelfReset)

end Sys2Proof.Machine
end

