-- ==== Sys2Proof/Machine/AdminOps.lean ====
section
/-! DEFINITION. What the admin commands share: the mode sets, the head of core 0's one queue, responses and completions on
QP 0 and on the carrier, and the pages of GET_LOG as bytes (R382 to R387, R391 to R393). -/

namespace Sys2Proof.Machine

open Sys2Proof

/-! ## Mode sets (R386) -/

/-- F, every mode in which firmware runs; T, TRANSIT to RETIRE while tapped. -/
def inF (s : State) : Bool := s.mode.firmware
def inT (s : State) : Bool := s.mode.onRing && s.tapped
/-- TRANSIT to SERVICE, STANDBY to SERVICE, and TRANSIT to SAFE-STOP. -/
def inService (s : State) : Bool := decide (4 ≤ s.mode.code ∧ s.mode.code ≤ 9)
def inBays (s : State) : Bool := decide (5 ≤ s.mode.code ∧ s.mode.code ≤ 9)
def inLive (s : State) : Bool := decide (4 ≤ s.mode.code ∧ s.mode.code ≤ 10)
/-- ENROL and SERVICE. -/
def inCal (s : State) : Bool := decide (s.mode = .enrol ∨ s.mode = .service)

/-- The admin opcodes that the carrier takes (R386). -/
def onCarrier (opcode : Nat) : Bool :=
  ([0x40, 0x41, 0x42, 0x43, 0x44, 0x45, 0x46, 0x47, 0x48, 0x4D, 0x4F] : List Nat).contains opcode

/-! ## Responses and completions (R384, R386) -/

/-- Response bytes as DATA frames of QP 0, in ascending INDEX, two units to a frame and the last padded with zeros.
(Log DEDUCED 64) -/
def sendResponse (s : State) (g : Gateway) (tag : Nat) (resp : List Byte) : State :=
  ((chunks 8192 (resp.length / 8192 + 1) resp).zipIdx).foldl (fun a e =>
    let units := (chunks 4096 2 e.1).map (fun u => (u ++ zeros 4096).take 4096)
    a.queueFrame (.admin g) 2 tag (dataBody (2 * e.2) units)) s

/-- An admin command completes on the channel it came by: the response within RLEN, and the CQE with RESPLEN. -/
def adminFinish (s : State) (c : AdminCmd) (status cflags aux16 auxHi : Nat) (resp : List Byte) : State :=
  match c.via with
  | .ring g =>
    let r := resp.take c.rlen
    (sendResponse s g c.tag r).postCqe (.admin g) c.tag 0 status cflags aux16 (auxHi * 2 ^ 32 + r.length)
  | .carrier inst =>
    let r := resp.take (min c.rlen 4096)
    mctpAnswer s 0x16 inst 0 (cqeBytes c.tag 0 status cflags aux16 (auxHi * 2 ^ 32 + r.length) ++ r)

/-- A completion with a status alone. -/
def adminEnd (s : State) (c : AdminCmd) (status : Nat) : State := adminFinish s c status 0 0 0 []

/-- A RING_TAP that waited for a CAL_LOAD goes on once no CAL_LOAD is left (R422). (Log DEDUCED 55) -/
def afterCal (s : State) : State :=
  match s.ring.splice with
  | .waitingCal inst node seq0 nonce =>
    if s.adminQ.any (fun c => c.opcode == 0x44) then s
    else tryTap { s with ring := { s.ring with splice := .none } } inst node seq0 nonce
  | _ => s

/-- The payload that came is shorter than LEN: on the carrier it came whole with its message, and no more follows. -/
def AdminCmd.short (c : AdminCmd) : Bool := decide (c.payload.length < c.len)

/-- Core 0 executes the command at the head of its queue, when that is one the event names and its payload is complete
(R387): outside its modes it ends with WRONG_MODE, and with an incomplete payload, unless it is a SET_PATTERN, with
TRUNCATED (R385, R397). (Log DEDUCED 36, 65) -/
def adminRun (mine : AdminCmd → Bool) (modes : State → Bool) (f : AdminCmd → State → State) (s : State) :
    Host.Outcome State Fault Refusal :=
  match s.adminQ with
  | [] => .next s
  | c :: rest =>
    if s.fwRuns = false ∨ mine c = false ∨ c.complete = false then .next s
    else
      let s1 : State := { s with adminQ := rest, aon := { s.aon with kick0 := s.now } }
      .next (afterCal (if modes s = false then adminEnd s1 c stWrongMode
        else if c.short ∧ c.opcode ≠ 0x42 then adminEnd s1 c stTruncated
        else f c s1))

/-- The command's opcode, and its BAY_CONTROL or FW_ACTIVATE action (R411, R419). (Log DEDUCED 65) -/
def isOp (op : Nat) (c : AdminCmd) : Bool := c.opcode == op
def isAction (op action : Nat) (c : AdminCmd) : Bool := c.opcode == op && c.arg 0 1 == action

/-! ## Log pages as bytes (R8, R154, R391, R392, R396, R445, R478) -/

def LogEntry.bytes (e : LogEntry) : List Byte :=
  leBytes 8 e.at_ ++ leBytes 2 e.code ++ leBytes 1 e.bay ++ leBytes 1 e.repeats ++ leBytes 4 e.detail
def RecEntry.bytes (e : RecEntry) : List Byte :=
  leBytes 8 e.at_ ++ leBytes 6 e.discId ++ leBytes 1 e.bay ++ leBytes 1 e.outcome ++ leBytes 4 e.addr ++ leBytes 4 e.lsn
    ++ leBytes 1 e.depth ++ leBytes 1 e.passedOver ++ leBytes 1 e.sync ++ leBytes 1 e.erasures ++ leBytes 2 e.erasedBits
    ++ zeros 2
def ErrEntry.bytes (e : ErrEntry) : List Byte :=
  leBytes 8 e.first ++ leBytes 8 e.last ++ leBytes 8 e.addr ++ leBytes 4 e.count ++ leBytes 1 e.cls ++ leBytes 1 e.kind
    ++ leBytes 1 e.where_ ++ zeros 1
def ThermEntry.bytes (e : ThermEntry) : List Byte :=
  leBytes 8 e.at_ ++ leBytes 1 e.kind ++ leBytes 1 e.step ++ leBytes 1 e.sensor ++ leBytes 1 e.group
    ++ leBytes 2 (unsignedOf 16 e.tj) ++ leBytes 2 e.power
/-- A clamp entry in the byte order of a log page, and in that of a response. -/
def ClampEntry.le (e : ClampEntry) : List Byte :=
  leBytes 2 e.id ++ leBytes 2 e.index ++ leBytes 4 (unsignedOf 32 e.written) ++ leBytes 4 (unsignedOf 32 e.applied)
    ++ leBytes 1 e.reason ++ zeros 1 ++ leBytes 2 e.triple
def ClampEntry.be (e : ClampEntry) : List Byte :=
  beBytes 2 e.id ++ beBytes 2 e.index ++ beBytes 4 (unsignedOf 32 e.written) ++ beBytes 4 (unsignedOf 32 e.applied)
    ++ beBytes 1 e.reason ++ zeros 1 ++ beBytes 2 e.triple

/-- A page as GET_LOG sees it: its entries as bytes, oldest first, the overflow count, the entry size and the capacity. -/
structure PageView where
  entries : List (List Byte)
  overflow : Nat
  size : Nat
  capacity : Nat
  deriving DecidableEq, Repr

/-- A log page viewed. -/
def LogPage.view {α : Type} (p : LogPage α) (f : α → List Byte) (size capacity : Nat) : PageView :=
  { entries := p.entries.map f, overflow := p.overflow, size := size, capacity := capacity }

/-- The page of a number and index (R391); none where it is not defined. Page 0x08 is a snapshot of the channel status
words. (Log DEDUCED 133; DESIGN CHOICE 171) -/
def pageView (s : State) (page idx : Nat) : Option PageView :=
  match page with
  | 1 => some (s.logs.device.view LogEntry.bytes 16 1024)
  | 2 => if idx < 16 then some ((Tbl.get {} s.logs.bay idx).view LogEntry.bytes 16 1024) else none
  | 3 => some (s.logs.mount.view LogEntry.bytes 16 1024)
  | 4 => some (s.logs.recovery.view RecEntry.bytes 32 4096)
  | 5 => if idx < 3 then some ((Tbl.get {} s.logs.errors idx).view ErrEntry.bytes 32 16) else none
  | 6 => some (s.logs.ring.view LogEntry.bytes 16 1024)
  | 7 => some { entries := s.logs.clamp.map ClampEntry.le, overflow := 0, size := 16, capacity := 4096 }
  | 8 => some { entries := (List.range 128).map (fun g => leBytes 4 (channelWord s g)), overflow := 0, size := 4, capacity := 128 }
  | 9 => some (s.logs.thermal.view ThermEntry.bytes 16 1024)
  | _ => none

/-- The entries that a GET_LOG returns: from `first` on, `count` of them or all, as many as RLEN holds after the header. -/
def PageView.returned (v : PageView) (first count room : Nat) : List (List Byte) :=
  let fits := (room - 16) / v.size
  (v.entries.drop first).take (if count = 0 then fits else min count fits)
/-- The page header of R391. -/
def PageView.header (v : PageView) : List Byte :=
  leBytes 4 v.entries.length ++ leBytes 4 v.overflow ++ leBytes 2 v.size ++ leBytes 4 v.capacity ++ zeros 2

/-- What the channel lets a response hold (R384). -/
def AdminCmd.room (c : AdminCmd) : Nat := match c.via with | .ring _ => c.rlen | .carrier _ => min c.rlen 4096

/-- `n` entries from `first` freed, and the snapshot's overflow subtracted (R393). (Log DESIGN CHOICE 5) -/
def LogPage.free {α : Type} (p : LogPage α) (first n : Nat) : LogPage α :=
  { entries := p.entries.take first ++ p.entries.drop (first + n), overflow := 0
    fullSent := p.fullSent && decide (n = 0) }

/-- CLEAR on a page (R393). (Log DEDUCED 72, 133) -/
def clearPage (s : State) (page idx first n : Nat) : State :=
  let l := s.logs
  let l2 : Logs := match page with
    | 1 => { l with device := l.device.free first n }
    | 2 => { l with bay := Tbl.upd {} l.bay idx (fun p => p.free first n) }
    | 3 => { l with mount := l.mount.free first n }
    | 4 => { l with recovery := l.recovery.free first n }
    | 5 => { l with errors := Tbl.upd {} l.errors idx (fun p => p.free first n) }
    | 6 => { l with ring := l.ring.free first n }
    | 7 => { l with clamp := l.clamp.take first ++ l.clamp.drop (first + n) }
    | 9 => { l with thermal := l.thermal.free first n }
    | _ => l
  { s with logs := l2 }

/-- GET_LOG, with or without CLEAR (R391, R393). -/
def getLog (c : AdminCmd) (s : State) : State :=
  let page := c.arg 0 1
  let idx := c.arg 2 2
  match pageView s page idx with
  | none => adminEnd s c stOutOfRange
  | some v =>
    let es := v.returned (c.arg 4 4) (c.arg 8 2) c.room
    let s1 := if c.flag0 then clearPage s page idx (min (c.arg 4 4) v.entries.length) es.length else s
    adminFinish s1 c stSuccess 0 0 0 (v.header ++ es.flatten)

end Sys2Proof.Machine
end

