-- ==== Sys2Proof/Machine/Take.lean ====
section
/-! DEFINITION. Taking submission entries into the tag store: classes, round robin and reservations, and what a command
that ends before it runs reports (R353 to R360, R365, R367, R384). -/

namespace Sys2Proof.Machine

open Sys2Proof

/-! ## Commands that end before they run -/

/-- AUX64 of a command that ends with nothing done: READ and VERIFY report no lost sector and none delivered, RELEASE and an
open report 0; for the others the manual gives no content, and a free value stands there (R358, R368).
(Log DESIGN CHOICE 5; DEDUCED 62) -/
def earlyAux (s : State) (q : DataSqe) : Nat × State :=
  match q.kind with
  | .read | .verify => (noneLost, s)
  | .releaseBay | .opening => (0, s)
  | _ => s.fresh

/-- A command of the tag store ends with nothing done. (Log DEDUCED 62) -/
def endEarly (s : State) (c : Cmd) (status : Nat) : State :=
  let a := earlyAux s c.sqe
  a.2.finish c.q c.sqe.tag 0 status 0 0 a.1

/-- A command ends as it is taken, without a tag-store entry. -/
def refuseSqe (s : State) (q : QpId) (sqe : DataSqe) (status : Nat) : State :=
  let a := earlyAux s sqe
  a.2.postCqe q sqe.tag 0 status 0 0 a.1

/-! ## Slots of the tag store (R360, R365) -/

/-- Admin commands in flight on QP 0: in core 0's queue, and armed. -/
def adminInFlight (s : State) : Nat :=
  (s.adminQ.filter (fun c => match c.via with | .ring _ => true | .carrier _ => false)).length + s.events.arms.length

/-- Tag-store slots that a class uses; QP 0 counts as urgent. -/
def slotsUsed (s : State) (c : Nat) : Nat :=
  (s.tags.filter (fun t => t.cls == c)).length + (if c = 0 then adminInFlight s else 0)
def slotsTotal (s : State) : Nat := s.tags.length + adminInFlight s
/-- QUEUE_TAG_RESERVE of a class, and what the class has not used of it. -/
def reserveOf (s : State) (c : Nat) : Nat := s.pnat 0x0201 c
def unusedReserve (s : State) (c : Nat) : Nat := reserveOf s c - slotsUsed s c
/-- A class may take a slot: one of its own, or a shared one while the other classes' unused reservations stay free.
(Log DEDUCED 59) -/
def slotFor (s : State) (c : Nat) : Bool :=
  let others := (([0, 1, 2, 3].filter (· != c)).map (unusedReserve s)).foldl (· + ·) 0
  decide (slotsTotal s < 2048) && (decide (slotsUsed s c < reserveOf s c) || decide (slotsTotal s + others < 2048))

/-! ## The order of taking (R365) -/

/-- A queue pair's identity from its index in the table. -/
def qpOfIndex (i : Nat) : QpId := if i = 0 then .admin .a else if i = 4096 then .admin .b else .data i

/-- A queue pair whose oldest entry may be taken now: OPEN, not empty, with a slot; in QUIESCE no data SQE is taken.
(Log DEDUCED 59) -/
def takeable (s : State) (q : QpId) : Bool :=
  let p := s.qp q
  decide (p.state = .opened) && !p.sq.isEmpty && slotFor s (qpClass s q)
    && (match q with | .admin _ => true | .data _ => decide (s.mode ≠ .quiesce))

/-- The data queue pairs of a class that may be taken from, by number. -/
def classQps (s : State) (c : Nat) : List Nat :=
  (s.qps.map (·.1)).filter (fun i => decide (i ≠ 0 ∧ i ≠ 4096) && decide (qpClass s (qpOfIndex i) = c) && takeable s (qpOfIndex i))
/-- The next of them in turn after the one served last. -/
def nextInTurn (last : Nat) (l : List Nat) : Option Nat :=
  match l.find? (fun i => decide (last < i)) with
  | some i => some i
  | none => l.head?

/-- QP 0's instance to take from: the one whose oldest entry came first. (Log DEDUCED 58) -/
def adminNext (s : State) : Option QpId :=
  let head (q : QpId) : Nat := match (s.qp q).sq with | e :: _ => e.at_ | [] => 0
  match takeable s (.admin .a), takeable s (.admin .b) with
  | true, true => if head (.admin .b) < head (.admin .a) then some (.admin .b) else some (.admin .a)
  | true, false => some (.admin .a)
  | false, true => some (.admin .b)
  | false, false => none

/-- Turns left of a weighted class, and the turns of a new round (QUEUE_WEIGHT). (Log DEDUCED 58) -/
def turnsLeft (s : State) (c : Nat) : Nat := Tbl.get 0 s.turns c
def newRound (s : State) : Tbl Nat :=
  [1, 2, 3].foldl (fun t c => Tbl.set 0 t c (s.pnat 0x0202 c)) []

/-- The class served next among interactive, bulk and background, with the turns after it. (Log DEDUCED 58) -/
def weightedClass (s : State) : Option (Nat × Tbl Nat) :=
  let ready := [1, 2, 3].filter (fun c => !(classQps s c).isEmpty)
  match ready.find? (fun c => decide (0 < turnsLeft s c)) with
  | some c => some (c, Tbl.set 0 s.turns c (turnsLeft s c - 1))
  | none => match ready.head? with
    | some c => some (c, Tbl.set 0 (newRound s) c (s.pnat 0x0202 c - 1))
    | none => none

/-- The queue pair taken from next, and the state that has noted its turn. (Log DEDUCED 58) -/
def pickQp (s : State) : Option (QpId × State) :=
  match adminNext s with
  | some q => some (q, s)
  | none =>
    let serve (c : Nat) (turns : Tbl Nat) : Option (QpId × State) :=
      (nextInTurn (Tbl.get 0 s.lastQp c) (classQps s c)).map fun i =>
        (qpOfIndex i, { s with lastQp := Tbl.set 0 s.lastQp c i, turns := turns })
    if (classQps s 0).isEmpty = false then serve 0 s.turns
    else match weightedClass s with
      | some (c, t) => serve c t
      | none => none

/-! ## Taking -/

/-- The stitch at which a command's deadline passes (R367). (Log DEDUCED 60) -/
def deadlineOf (e : RingEntry) (sqe : DataSqe) : Nat :=
  e.at_ + msec (if sqe.deadline = 0 then e.limit else sqe.deadline)

/-- A data SQE taken: DUP_TAG, WRONG_MODE and a deadline passed in the ring end it at once. (Log DEDUCED 59, 60) -/
def takeData (s : State) (q : QpId) (e : RingEntry) : State :=
  let sqe := parseSqe e.received
  if (s.cmd? q sqe.tag).isSome then refuseSqe s q sqe stDupTag
  else if s.mode.data = false then refuseSqe s q sqe stWrongMode
  else if deadlineOf e sqe ≤ s.now then refuseSqe s q sqe stDeadline
  else
    { s with orders := s.orders + 1
             tags := s.tags ++ [{ q := q, sqe := sqe, cls := qpClass s q, at_ := e.at_, deadline := deadlineOf e sqe
                                  order := s.orders, started := false, sectors := [], next := 0, delivered := 0
                                  deepest := 0, csn := none, taken := [], ended := false }] }

/-- A tag in flight on an instance of QP 0. -/
def adminTagUsed (s : State) (g : Gateway) (tag : Nat) : Bool :=
  s.adminQ.any (fun c => c.via == .ring g && c.tag == tag) || s.events.arms.any (fun a => a.gw == g && a.tag == tag)
    || (match s.mgmt.live with | some c => c.via == .ring g && c.tag == tag | none => false)

/-- An admin SQE taken into core 0's queue, or ended at once: DUP_TAG, or a payload too long (R384). -/
def takeAdmin (s : State) (g : Gateway) (e : RingEntry) : State :=
  let c := parseAdmin (.ring g) e.received e.at_
  if adminTagUsed s g c.tag then s.postCqe (.admin g) c.tag 0 stDupTag 0 0 0
  else if c.tooLong then s.postCqe (.admin g) c.tag 0 stOutOfRange 0 0 0
  else { s with adminQ := s.adminQ ++ [c] }

/-- SQE_TAKE: the queue engine takes the next SQE (R365). -/
def execSqeTake (s : State) : Host.Outcome State Fault Refusal :=
  match pickQp s with
  | none => .next s
  | some (q, s1) =>
    match (s1.qp q).sq with
    | [] => .next s1
    | e :: rest =>
      let s2 := s1.modQp q fun p => { p with sq := rest }
      match q with
      | .admin g => .next (takeAdmin s2 g e)
      | .data _ => .next (takeData s2 q e)

end Sys2Proof.Machine
end

