-- ==== Sys2Proof/Machine/Recovery.lean ====
section
/-! DEFINITION. Recovery's shared parts: target blocks, the outcome of a sector for the commands that wait for it, the
recovery log, and the rebuild sessions with their requests for discs (R140, R141, R151 to R168, R369). -/

namespace Sys2Proof.Machine

open Sys2Proof

/-! ## Discs and members -/

/-- The disc of a bay that commands may still address: mounted, and named by no RELEASE (R380). -/
def liveDisc (s : State) (b : Nat) : Option Disc :=
  if (s.bay b).releasing.isEmpty = false ∨ s.courses.any (fun c => c.waits.any (fun w => match w.releaseBay with
      | some v => v.val == b | none => false)) then none
  else (s.bay b).disc

/-- The bay of a mounted disc, by disc ID and by course and member. -/
def bayOfDisc (s : State) (id : Nat) : Option BayId :=
  bayIds.find? (fun b => match liveDisc s b.val with | some d => d.discId == id | none => false)
def Disc.isMember (d : Disc) (course i : Nat) : Bool :=
  match d.binding with | .member c m _ _ _ => c == course && m == i | _ => false
def memberBay (s : State) (course i : Nat) : Option BayId :=
  bayIds.find? (fun b => match liveDisc s b.val with | some d => d.isMember course i | none => false)
/-- Course and member of a bay's disc. -/
def membership (s : State) (b : Nat) : Option (Nat × Nat) :=
  match (s.bay b).disc with
  | some d => (match d.binding with | .member c i _ _ _ => some (c, i) | _ => none)
  | none => none
/-- *d*, *p* and the disc type of a course, from a mounted member's recorded DIB (R368). -/
def courseShape (s : State) (course : Nat) : Option (Nat × Nat × DiscType) :=
  bayIds.findSome? (fun b => match liveDisc s b.val with
    | some x => (match x.binding with | .member c _ d p _ => if c = course then some (d, p, x.dtype) else none | _ => none)
    | none => none)

/-- Course rows below the end of a disc's committed content (R62, R195). -/
def Disc.rowsEnd (d : Disc) : Nat :=
  ((List.range d.layers).map (fun l => if 0 < d.append.getD l 0 then l * d.dtype.blocks + d.append.getD l 0 else 0)).foldl max 0
/-- A + 1, where A is the highest committed row among a course's mounted members (R368). -/
def courseRowsEnd (s : State) (course : Nat) : Nat :=
  (bayIds.map (fun b => match liveDisc s b.val with
    | some x => (match x.binding with | .member c _ _ _ _ => if c = course then x.rowsEnd else 0 | _ => 0)
    | none => 0)).foldl max 0

/-! ## Target blocks (R141) -/

def Block.at (x : Block) (b layer n : Nat) : Bool := x.bay.val == b && x.layer == layer && x.block == n
def State.block? (s : State) (b layer n : Nat) : Option Block := s.recov.blocks.find? (fun x => x.at b layer n)
def State.modBlock (s : State) (b layer n : Nat) (f : Block → Block) : State :=
  { s with recov := { s.recov with blocks := s.recov.blocks.map (fun x => if x.at b layer n then f x else x) } }
def Block.isReread (x : Block) : Bool := match x.phase with | .reread _ _ => true | _ => false
def Block.sec (x : Block) (k : Nat) : SecRec := Tbl.get {} x.secs k
def Block.modSec (x : Block) (k : Nat) (f : SecRec → SecRec) : Block := { x with secs := Tbl.upd {} x.secs k f }
/-- The type of the disc in a bay. -/
def bayType (s : State) (b : Nat) : DiscType := match (s.bay b).disc with | some d => d.dtype | none => .plain
/-- Sector numbers of a block on a bay's disc. -/
def blockKs (s : State) (b : Nat) : List Nat := List.range (bayType s b).blockSectors
/-- The sectors of a block whose defect entry names no replacement: no slot holds them, and they are erasures (R93, R147). -/
def lostSlots (s : State) (b : BayId) (layer n : Nat) : Tbl SecRec :=
  match (s.bay b.val).disc with
  | none => []
  | some d => ((blockKs s b.val).filter (fun k => decide (standingSlot d.defects (homeAddr d.dtype layer n k) = noSlot))).map
      (fun k => (k, { state := .failed }))
/-- A block becomes a target: it waits for a run, unless its ladder runs already (R151). -/
def State.ensureBlock (s : State) (b : BayId) (layer n : Nat) : State :=
  if (s.block? b layer n).isSome then s
  else { s with recov := { s.recov with blocks := s.recov.blocks ++ [{ bay := b, layer := layer, block := n, phase := .reading, secs := lostSlots s b layer n, erasures := 0, since := s.now, passAt := none, took := [] }] } }

/-- The pattern values that a ladder takes as it begins (R169). -/
def ladderTake (s : State) (b : Nat) : List Nat :=
  [0x0421, 0x0422, 0x0423, 0x0424, 0x0425, 0x0426].map (fun id => s.pnat id b)
/-- A ladder of a block begins, where none runs (R151, R169). -/
def Block.begin (x : Block) (s : State) : Block := { x with took := if x.took = [] then ladderTake s x.bay.val else x.took }

/-! ## Outcomes for commands (R92, R151, R161, R368) -/

/-- A command's sector is one of a block's. -/
def CmdSector.on (x : CmdSector) (b layer n k : Nat) : Bool :=
  (match x.bay with | some v => v.val == b | none => false) && x.layer == layer && x.block == n && x.k == k
/-- A command waits for a sector of a block. -/
def cmdWants (s : State) (b layer n k : Nat) : Bool :=
  s.tags.any (fun c => c.sectors.any (fun x => x.outcome == .pending && x.on b layer n k))

/-- The sectors that `p` names, still undecided, take the outcome that `f` gives; `carried` is the highest ladder step
carried out for them (R153). -/
def settle (s : State) (carried : Nat) (p : Cmd → CmdSector → Bool) (f : Cmd → CmdSector → CmdSector) : State :=
  let hit (c : Cmd) (x : CmdSector) : Bool := x.outcome == .pending && p c x
  { s with tags := s.tags.map (fun c =>
      if c.sectors.any (hit c) then
        { c with deepest := max c.deepest carried, sectors := c.sectors.map (fun x => if hit c x then f c x else x) }
      else c) }

/-- What an accepted sector is to a command: delivered, of another tenant, or not decipherable (R92, R161, R368). -/
def sectorOut (s : State) (discId : Option Nat) (bytes : List Byte) (depth : Nat) (c : Cmd) (x : CmdSector) : CmdSector :=
  let m := parseMeta (metaOf bytes)
  let plain := match m.flags.enc, discId with
    | true, none => none
    | _, id => openSector (id.getD 0) (fun k => Tbl.get [] s.sec.keys k) bytes
  match plain with
  | none => { x with outcome := .keyInvalid }
  | some user =>
    if c.sqe.tenant ≠ 0 ∧ m.flags.data ∧ m.tenant ≠ c.sqe.tenant ∧ m.tenant ≠ 0 then { x with outcome := .tenantMismatch }
    else { x with outcome := .accepted depth, fill := m.flags.data && m.flags.fill
                  data := if c.sqe.opcode = opRead then user else [] }

/-- A sector of a block is accepted with a depth: every command that waits for it receives it (R151). -/
def deliver (s : State) (b layer n k : Nat) (bytes : List Byte) (depth carried : Nat) : State :=
  let id := (s.bay b).disc.map (·.discId)
  settle s carried (fun _ x => x.on b layer n k) (sectorOut s id bytes depth)

/-! ## The recovery log (R154) -/

/-- An entry of the recovery log. (Log DEDUCED 81) -/
def recLog (s : State) (e : RecEntry) : State :=
  let r := s.logs.recovery.add 4096 e
  { s with logs := { s.logs with recovery := r.1 } }.logFull r.2 4 0

/-- An entry made as a sector enters step 5, 6 or 7: its outcome is not yet known, and a free value stands there.
(Log DESIGN CHOICE 5; DEDUCED 81) -/
def enterLog (s : State) (e : RecEntry) : State :=
  let f := s.fresh
  recLog f.2 { e with outcome := f.1 % 256 }

/-- The entry of a sector on a mounted disc. (Log DEDUCED 81) -/
def blockEntry (s : State) (x : Block) (k outcome depth : Nat) : RecEntry :=
  let r := x.sec k
  let t := bayType s x.bay
  { at_ := s.now, discId := ((s.bay x.bay).disc.map (·.discId)).getD 0, bay := x.bay.val, outcome := outcome
    addr := (match (s.bay x.bay).disc with
      | some d => standingSlot d.defects (homeAddr t x.layer x.block k)
      | none => homeAddr t x.layer x.block k)
    lsn := lsnOf t x.layer x.block k, depth := depth, passedOver := r.passedOver, sync := r.sync, erasures := x.erasures
    erasedBits := r.erasedBits }

/-! ## Step 7: what waits there (R158 to R163, R369) -/

/-- The session of a course. -/
def State.session? (s : State) (course : Nat) : Option Rebuild := s.recov.sessions.find? (fun r => r.course == course)
def State.modSession (s : State) (course : Nat) (f : Rebuild → Rebuild) : State :=
  { s with recov := { s.recov with sessions := s.recov.sessions.map (fun r => if r.course = course then f r else r) } }
/-- A member that its session has lost for every row. -/
def memberGone (s : State) (course i : Nat) : Bool := match s.session? course with | some r => r.lost.contains i | none => false

/-- Course, row and member of a sector that waits at step 7: its ladder has come so far, or its disc is lost for the whole
command (R369). -/
def atStep7 (s : State) (c : Cmd) (x : CmdSector) : Option (Nat × Nat × Nat) :=
  if x.outcome ≠ .pending then none
  else match x.bay with
    | none => if c.sqe.memberLost || memberGone s c.sqe.name x.member then some (c.sqe.name, x.row, x.member) else none
    | some b => match s.block? b x.layer x.block, membership s b with
      | some y, some (course, i) =>
        if y.phase = .course ∧ (y.sec x.k).state = .failed then
          some (course, x.layer * (bayType s b).blocks + x.block, i)
        else none
      | _, _ => none

/-- Sectors of a row that the open of a course has to rebuild for members that lack the row, by member and `k` (R195). -/
def alignTargets (s : State) (course row : Nat) : List (Nat × Nat) :=
  match s.courses.find? (fun c => c.id == course && c.opening.isSome && decide (row < c.alignTo)) with
  | none => []
  | some c => (c.bays.zipIdx).flatMap (fun e =>
      match (s.bay e.1.val).disc with
      | some x =>
        if row < x.rowsEnd then []
        else ((List.range c.dtype.dataSectors).filter (fun k =>
          !c.aligned.any (fun a => a.1 == row && a.2.1 == e.2 && a.2.2.1 == k))).map (fun k => (e.2, k))
      | none => [])
/-- The sectors of a course row that wait at step 7, and those that an open rebuilds: member and `k`, each once. -/
def targets (s : State) (course row : Nat) : List (Nat × Nat) :=
  (alignTargets s course row ++ s.tags.flatMap (fun c => c.sectors.filterMap (fun x => match atStep7 s c x with
    | some (cc, m, i) => if cc = course ∧ m = row then some (i, x.k) else none
    | none => none))).eraseDups
/-- The rows of a course with such sectors. -/
def waitingRows (s : State) (course : Nat) : List Nat :=
  (s.tags.flatMap (fun c => c.sectors.filterMap (fun x => match atStep7 s c x with
    | some (cc, m, _) => if cc = course then some m else none
    | none => none))).eraseDups

/-- Data discs of a course that commands wait for and that are not mounted (R369), in ascending order. -/
def ownNeeds (s : State) (course : Nat) : List Nat :=
  (List.range 16).filter (fun i => !memberGone s course i && s.tags.any (fun c =>
    c.sqe.csn && !c.sqe.memberLost && c.sqe.name == course
      && c.sectors.any (fun x => x.outcome == .pending && x.bay.isNone && x.member == i)))

/-- A session holds sector `k` of a row from a member, or all of some sectors (R164). -/
def Rebuild.holds (r : Rebuild) (m i k : Nat) : Bool := r.held.any (fun e => e.1 == m && e.2.1 == i && e.2.2.1 == k)
def Rebuild.holdsAll (r : Rebuild) (m i : Nat) (ks : List Nat) : Bool := ks.all (r.holds m i)

/-- Sector numbers under recovery in a row. -/
def rowKs (ts : List (Nat × Nat)) : List Nat := (ts.map (·.2)).eraseDups
/-- Members that may supply sectors `ks` of a row: not lost for it, and with none of these sectors under recovery (R97, R160,
R162). -/
def Rebuild.candidates (r : Rebuild) (m : Nat) (ts : List (Nat × Nat)) (ks : List Nat) : List Nat :=
  (List.range (r.d + r.p)).filter (fun i => !r.lost.contains i
    && ks.all (fun k => !r.lostRows.contains (m, i, k) && !ts.contains (i, k)))
/-- A row's sectors are rebuilt together from one set of members; where fewer than *d* members can supply them all, each sector number
has a set of its own (R97, R160). (Log DEDUCED 156) -/
def Rebuild.groups (r : Rebuild) (m : Nat) (ts : List (Nat × Nat)) : List (List Nat) :=
  let ks := rowKs ts
  if r.d ≤ (r.candidates m ts ks).length then [ks] else ks.map (fun k => [k])

/-- What a member's disc gives of sector `k`: accepted bytes, that it cannot supply it, or that its ladder had to leave steps 5 and 6
out, so that it is skipped without being lost (R160, R162, R168). -/
inductive Supply | bytes (b : List Byte) | failed | skipped | notYet
  deriving DecidableEq, Repr
def supplyOf (s : State) (b layer n k : Nat) : Supply :=
  match s.block? b layer n with
  | none => .notYet
  | some x =>
    let r := x.sec k
    match r.state with
    | .accepted => .bytes r.bytes
    | .lost => .failed
    | .failed => if x.phase = .course ∨ x.phase = .done then (if x.ruledOut then .skipped else .failed) else .notYet
    | _ => .notYet
/-- A mounted member that is skipped for some of a row's sectors. -/
def skips (s : State) (r : Rebuild) (m i : Nat) (ks : List Nat) : Bool :=
  match memberBay s r.course i with
  | none => false
  | some b => ks.any (fun k => !r.holds m i k && supplyOf s b.val (rowLayer r.dtype m) (rowBlock r.dtype m) k == .skipped)
/-- The members that supply a group of a row, or are to: the first *d* candidates that are not skipped, or one more than have been
tried without success (R160, R161). -/
def suppliers (s : State) (r : Rebuild) (m : Nat) (ts : List (Nat × Nat)) (ks : List Nat) : List Nat :=
  let want := if Tbl.get 0 r.tried m = 0 then r.d else Tbl.get 0 r.tried m + 1
  ((r.candidates m ts ks).filter (fun i => !skips s r m i ks)).take want

/-- A session needs sector `k` of a block from the disc in a bay. -/
def sessionWants (s : State) (b layer n k : Nat) : Bool :=
  match membership s b with
  | none => false
  | some (course, i) =>
    match s.session? course with
    | none => false
    | some r =>
      let m := layer * r.dtype.blocks + n
      let ts := targets s course m
      r.batch.contains m && !r.holds m i k
        && (r.groups m ts).any (fun ks => ks.contains k && (suppliers s r m ts ks).contains i)
/-- A sector of a target block is requested (R140). -/
def wanted (s : State) (b layer n k : Nat) : Bool := cmdWants s b layer n k || sessionWants s b layer n k

/-! ## Requests for discs (R165 to R167) -/

/-- Request IDs in ascending order from 1, skipping those not yet closed. (Log DESIGN CHOICE 13) -/
def nextReqId (used : List Nat) : Nat → Nat → Nat
  | 0, n => n
  | fuel + 1, n =>
    let m := if n = 0 ∨ 0xFFFF < n then 1 else n
    if used.contains m then nextReqId used fuel (m + 1) else m

/-- The DISC_DONE event that closes a request (R167, R390). (Log DEDUCED 140) -/
def discDone (s : State) (r : DiscReq) (code : Nat) : State :=
  let left := s.recov.requests.filter (fun x => x.id != r.id)
  let s1 := { s with recov := { s.recov with requests := left, closed := Tbl.set 0 s.recov.closed r.id (s.now + 1) } }
  s1.event evDiscDone (beBytes 2 r.id ++ beBytes 1 code ++ beBytes 1 r.member ++ beBytes 8 r.course)
def State.modReq (s : State) (id : Nat) (f : DiscReq → DiscReq) : State :=
  { s with recov := { s.recov with requests := s.recov.requests.map (fun r => if r.id = id then f r else r) } }

/-- The class of the most urgent command that waits for a course's rebuild. -/
def urgency (s : State) (course : Nat) : Nat :=
  ((s.tags.filter (fun c => c.sectors.any (fun x =>
    (match atStep7 s c x with | some (cc, _, _) => cc == course | none => false)
      || (x.bay.isNone && x.outcome == .pending && c.sqe.name == course)))).map (·.cls)).foldl min 3

/-- Whether a session may raise one more request (R165). -/
def mayAsk (s : State) (course : Nat) : Bool :=
  let outstanding := s.recov.requests.filter (fun r => !r.answered)
  decide (outstanding.length < 64) && decide ((outstanding.filter (fun r => r.course == course)).length < s.pnat 0x0428 0)
/-- Rows that wait on a member: those it is to supply and whose sectors are not all held, and those of its own sectors (R165). -/
def rowsOn (s : State) (r : Rebuild) (i : Nat) : List Nat :=
  r.rows.filter (fun m =>
    let ts := targets s r.course m
    (r.groups m ts).any (fun ks => (suppliers s r m ts ks).contains i && !r.holdsAll m i ks))
  ++ s.tags.flatMap (fun c => if c.sqe.csn ∧ !c.sqe.memberLost ∧ c.sqe.name = r.course then
      (c.sectors.filter (fun x => x.bay.isNone && x.member == i && x.outcome == .pending)).map (·.row) else [])
/-- A request for a member. -/
def askFor (s : State) (r : Rebuild) (i : Nat) : State :=
  let id := nextReqId (s.recov.requests.map (·.id)) 0x10000 s.recov.nextReq
  let rows := rowsOn s r i
  let q : DiscReq := { id := id, course := r.course, member := i, at_ := s.now, reason := 1, firstRow := rows.foldl min (rows.headD 0)
                       lastRow := rows.foldl max 0, answered := false, wrong := false, dtype := r.dtype, cls := urgency s r.course
                       wait := s.pnat 0x0427 0 }
  discNeeded { s with recov := { s.recov with requests := s.recov.requests ++ [q], nextReq := id + 1 } } q 1
/-- What a request says if it is raised again: the class and the rows of what waits now (R165). (Log DEDUCED 83) -/
def refreshRequests (s : State) (course : Nat) : State :=
  match s.session? course with
  | none => s
  | some r =>
    { s with recov := { s.recov with requests := s.recov.requests.map (fun q =>
        if q.course = course ∧ q.answered = false then
          (match rowsOn s r q.member with
           | [] => q
           | m :: ms => { q with cls := urgency s course, firstRow := ms.foldl min m, lastRow := ms.foldl max m })
        else q) } }

/-! ## Sessions (R160 to R164) -/

/-- The rows whose sectors the rebuild buffer takes now: every waiting row where all fit, otherwise those of the batch in progress, and
after it the lowest rows that fit (R164). (Log DESIGN CHOICE 157) -/
def nextBatch (s : State) (r : Rebuild) : List Nat :=
  let room := s.pnat 0x0429 0 * 1048576 / 4128
  let size (m : Nat) : Nat := (rowKs (targets s r.course m)).length * (r.d + r.p)
  let waiting := (r.rows.filter (fun m => !(targets s r.course m).isEmpty)).mergeSort (· ≤ ·)
  let live := r.batch.filter waiting.contains
  if (waiting.map size).foldl (· + ·) 0 ≤ room then waiting
  else if live.isEmpty = false then live
  else (waiting.foldl (fun (acc : List Nat × Nat) m =>
    if acc.1.isEmpty ∨ acc.2 + size m ≤ room then (acc.1 ++ [m], acc.2 + size m) else (acc.1, room + 1)) ([], 0)).1

/-- What mounted members have supplied for a row goes into the rebuild buffer, and a member that cannot supply a sector is lost
for it (R160, R162, R164). (Log DEDUCED 83) -/
def harvest (s : State) (course m : Nat) : State :=
  match s.session? course with
  | none => s
  | some r =>
    let ks := rowKs (targets s course m)
    (List.range (r.d + r.p)).foldl (fun s i =>
      match memberBay s course i with
      | none => s
      | some b =>
        ks.foldl (fun s k =>
          match s.session? course with
          | none => s
          | some r =>
            if r.holds m i k ∨ r.lost.contains i ∨ (targets s course m).contains (i, k) then s
            else match supplyOf s b.val (rowLayer r.dtype m) (rowBlock r.dtype m) k with
              | .bytes v =>
                let s1 := s.modSession course fun r => { r with held := r.held ++ [(m, i, k, v)] }
                { s1 with recov := { s1.recov with requests := s1.recov.requests.map (fun q =>
                    if q.course = course ∧ q.member = i ∧ q.answered then { q with used := true } else q) } }
              | .failed => s.modSession course fun r =>
                  { r with lostRows := if r.lostRows.contains (m, i, k) then r.lostRows else r.lostRows ++ [(m, i, k)] }
              | _ => s) s) s

/-- Suppliers read or asked for, in ascending order (R160, R165). (Log DEDUCED 83) -/
def gather (course m : Nat) (ks : List Nat) : List Nat → State → State
  | [], s => s
  | i :: rest, s =>
    match s.session? course with
    | none => s
    | some r =>
      if r.holdsAll m i ks then gather course m ks rest s
      else match memberBay s course i with
        | some b => gather course m ks rest (s.ensureBlock b (rowLayer r.dtype m) (rowBlock r.dtype m))
        | none =>
          if s.recov.requests.any (fun q => q.course == course && q.member == i && !q.answered) then gather course m ks rest s
          else if mayAsk s course then gather course m ks rest (askFor s r i)
          else s

/-- Every group of a row is held from as many members as its set takes: its peers are read (R142). -/
def peersRead (s : State) (r : Rebuild) (m : Nat) : Bool :=
  let ts := targets s r.course m
  (r.groups m ts).all (fun ks =>
    let l := suppliers s r m ts ks
    decide (r.d ≤ l.length) && l.all (fun i => r.holdsAll m i ks))
/-- One row of the batch: what its members have supplied, and what is still to be read or asked for. -/
def advanceRow (s : State) (course m : Nat) : State :=
  let t := harvest s course m
  match t.session? course with
  | none => t
  | some r =>
    let ts := targets t course m
    let t1 := (r.groups m ts).foldl (fun a ks => gather course m ks (suppliers t r m ts ks) a) t
    let at_ := if peersRead t r m = false then 0 else if Tbl.get 0 r.readAt m = 0 then t.now + 1 else Tbl.get 0 r.readAt m
    t1.modSession course fun r => { r with readAt := Tbl.set 0 r.readAt m at_ }

/-- The entries of the sectors that have come to step 7 (R154). (Log DEDUCED 81) -/
def logEntered (s : State) (course : Nat) (t : DiscType) (log : State → Nat → Nat → Nat → State) : State :=
  match s.session? course with
  | none => s
  | some r =>
    let all := r.rows.flatMap (fun m => ((s.tags.flatMap (fun c => c.sectors.filterMap (fun x => match atStep7 s c x with
      | some (cc, mm, i) => if cc = course ∧ mm = m then some (m, i, x.k) else none
      | none => none))).eraseDups))
    let new_ := all.filter (fun e => !r.entered.contains e)
    let s1 := new_.foldl (fun a e => log a e.1 e.2.1 e.2.2) s
    s1.modSession course fun r => { r with entered := (r.entered ++ new_).filter all.contains, dtype := t }

/-- Where a sector of a row is recorded in the log as it enters or leaves step 7: with the record of its block on a mounted disc, and
without a read of its own elsewhere (R154). (Log DEDUCED 81) -/
def step7Entry (s : State) (course m i k outcome depth : Nat) (t : DiscType) : RecEntry :=
  let l := rowLayer t m
  let n := rowBlock t m
  match memberBay s course i with
  | some b => match s.block? b.val l n with
    | some x => blockEntry s x k outcome depth
    | none =>
      let a := homeAddr t l n k
      ⟨s.now, ((s.bay b.val).disc.map (·.discId)).getD 0, b.val, outcome,
        (match (s.bay b.val).disc with | some d => standingSlot d.defects a | none => a), lsnOf t l n k, depth, 0, 0xFF, 0, 0⟩
  | none =>
    let ids := s.tags.filterMap (fun c => if c.sqe.csn ∧ c.sqe.name = course then
      (c.sqe.lostTable.find? (fun e => e.1 == i)).map (·.2) else none)
    ⟨s.now, ids.headD 0, 0xFF, outcome, homeAddr t l n k, lsnOf t l n k, depth, 0, 0xFF, 0, 0⟩

/-- A session goes on: own data discs are asked for first (R369), then each row of the batch gathers its suppliers. -/
def advanceSession (s : State) (course : Nat) : State :=
  match s.session? course with
  | none => s
  | some r =>
    let s0 := logEntered s course r.dtype (fun a m i k => enterLog a (step7Entry a course m i k 0 7 r.dtype))
    let s1 := (ownNeeds s0 course).foldl (fun s i =>
      if (memberBay s course i).isSome ∨ s.recov.requests.any (fun q => q.course == course && q.member == i && !q.answered)
          ∨ mayAsk s course = false then s
      else askFor s r i) s0
    let rows := match s1.session? course with | some r => nextBatch s1 r | none => []
    let s2 := s1.modSession course fun r => { r with batch := rows }
    refreshRequests (rows.foldl (fun a m => advanceRow a course m) s2) course

/-- A command still waits for a sector of a member of its own. -/
def ownUse (s : State) (course i : Nat) : Bool :=
  s.tags.any (fun c => c.sqe.csn && !c.sqe.memberLost && c.sqe.name == course
    && c.sectors.any (fun x => x.outcome == .pending && x.member == i))
/-- A session still needs the member of a request: some row takes it into its set, or its own sectors wait (R167).
(Log DEDUCED 83) -/
def needsMember (s : State) (r : Rebuild) (q : DiscReq) : Bool :=
  ownUse s r.course q.member || r.rows.any (fun m =>
    let ts := targets s r.course m
    (r.groups m ts).any (fun ks => (suppliers s r m ts ks).contains q.member))
/-- The code with which a request that is no longer needed is closed (R167). (Log DEDUCED 140) -/
def DiscReq.doneCode (q : DiscReq) : Nat := if q.answered ∧ q.used then 0x10 else if q.wrong then 0x13 else 0x11

/-- A session closes the requests of members it no longer needs; with no waiting row it ends (R163, R167).
(Log DEDUCED 83, 140) -/
def closeSession (s : State) (course : Nat) : State :=
  match s.session? course with
  | none => s
  | some r =>
    let left := r.rows.filter (fun m => !(targets s course m).isEmpty)
    let mine := s.recov.requests.filter (fun q => q.course == course)
    if left.isEmpty ∧ mine.all (fun q => !ownUse s course q.member) ∧ ownNeeds s course = [] then
      let s1 := { s with recov := { s.recov with sessions := s.recov.sessions.filter (fun x => x.course != course) } }
      mine.foldl (fun s q => discDone s q q.doneCode) s1
    else
      let s1 := s.modSession course fun r => { r with rows := left, held := r.held.filter (fun e => left.contains e.1) }
      match s1.session? course with
      | none => s1
      | some r1 => (mine.filter (fun q => !needsMember s1 r1 q && (q.answered || !r1.lost.contains q.member))).foldl (fun s q => discDone s q q.doneCode) s1

/-- A session for a course, where one is open or one of four is free (R163). -/
def openSession (s : State) (course : Nat) : State :=
  if (s.session? course).isSome ∨ 4 ≤ s.recov.sessions.length then s
  else match courseShape s course with
    | none => s
    | some (d, p, t) =>
      { s with recov := { s.recov with sessions := s.recov.sessions ++ [{ course := course, d := d, p := p, dtype := t, rows := [], lost := [], lostRows := [], held := [] }] } }
/-- Rows that the open of a course brings its members into line on (R195). -/
def alignRows (s : State) (c : Course) : List Nat :=
  let lows := c.bays.filterMap (fun b => (s.bay b.val).disc.map (·.rowsEnd))
  let lo := lows.foldl min c.alignTo
  if c.opening.isNone then [] else (List.range (c.alignTo - lo)).map (lo + ·)
/-- A row joins its course's session. -/
def joinRow (s : State) (course m : Nat) : State :=
  s.modSession course fun r => { r with rows := if r.rows.contains m then r.rows else r.rows ++ [m] }

/-- A row that an open rebuilds joins its course's session: the members that lack it supply nothing of it. -/
def joinAligned (s : State) (c : Course) (m : Nat) : State :=
  let lacks := (c.bays.zipIdx.filter (fun e => match (s.bay e.1.val).disc with
    | some x => decide (x.rowsEnd ≤ m)
    | none => false)).flatMap (fun e => (List.range c.dtype.dataSectors).map (fun k => (m, e.2, k)))
  (joinRow s c.id m).modSession c.id fun r => { r with lostRows := r.lostRows ++ lacks.filter (fun x => !r.lostRows.contains x) }

/-- Courses that commands address by CSN. -/
def csnCourses (s : State) : List Nat := ((s.tags.filter (fun c => c.sqe.csn && c.started)).map (·.sqe.name)).eraseDups
/-- Rows that an open rebuilds join their course's session, and so do sectors of discs that are not mounted, or open it
(R195, R369). -/
def admitAbsent (s0 : State) : State :=
  let s := s0.courses.foldl (fun a c =>
    match (alignRows a c).filter (fun m => !(alignTargets a c.id m).isEmpty) with
    | [] => a
    | rows => rows.foldl (fun a m => joinAligned a c m) (openSession a c.id)) s0
  (csnCourses s).foldl (fun s course =>
    let rows := (s.tags.flatMap (fun c => if c.sqe.csn ∧ c.sqe.name = course then
      c.sectors.filterMap (fun x => if x.bay.isNone then (atStep7 s c x).map (·.2.1) else none) else [])).eraseDups
    if rows.isEmpty ∧ ownNeeds s course = [] then s
    else rows.foldl (fun s m => joinRow s course m) (openSession s course)) s

/-- A step of a block's ladder is in progress: a decode of steps 1 to 3, step 4, or a re-read pass (R156). -/
def Block.busy (x : Block) : Bool :=
  x.secs.any (fun e => decide (e.2.state = .decoding) && decide (1 ≤ e.2.step)) || decide (x.phase = .thatch)
    || (x.passAt.isSome && (match x.phase with | .reread _ _ => true | _ => false))
/-- Blocks that nothing needs any more are given up once the present step has ended, with their retry store entries (R156). -/
def pruneBlocks (s : State) : State :=
  let need (x : Block) : Bool := x.busy || (List.range 32).any (fun k => wanted s x.bay.val x.layer x.block k)
  let gone := s.recov.blocks.filter (fun x => !need x)
  let s1 := { s with recov := { s.recov with blocks := s.recov.blocks.filter need } }
  gone.foldl (fun s x =>
    let homes := (blockKs s x.bay.val).map (fun k =>
      let a := homeAddr (bayType s x.bay.val) x.layer x.block k
      match (s.bay x.bay.val).disc with | some d => standingSlot d.defects a | none => a)
    s.modChan x.bay.val fun c => { c with retry := c.retry.filter (fun e => !homes.contains e.addr) }) s1

/-- The sessions and the target blocks brought up to date after any change of what commands wait for. -/
def sessionsStep (s : State) : State :=
  let s1 := admitAbsent s
  let s2 := (s1.recov.sessions.map (·.course)).foldl advanceSession s1
  let s3 := (s2.recov.sessions.map (·.course)).foldl closeSession s2
  pruneBlocks s3

/-! ## Solving a row (R94, R97, R161, R168) -/

/-- A member's sector rebuilt from `d` members' covered bytes, where it passes R92 step 4. (Log DEDUCED 135) -/
def rebuildSector (r : Rebuild) (m i k : Nat) (known : List (Nat × List Byte)) : Option (List Byte) :=
  match courseSolve r.d known with
  | none => none
  | some data =>
    let c := courseMember r.d i data
    let l := rowLayer r.dtype m
    let bytes := fromCovered c (lsnOf r.dtype l (rowBlock r.dtype m) k) (rebuiltFlags c l (decide (r.d ≤ i)) false)
    let md := parseMeta (metaOf bytes)
    if r.d ≤ i ∨ (md.crc = sectorCrc (userOf bytes) md ∧ dataRule (userOf bytes) md) then some bytes else none

/-- What becomes of one sector: not enough read, rebuilt, or lost. -/
inductive Solved | waiting | bytes (b : List Byte) | lost
  deriving DecidableEq, Repr
/-- The sectors of one group of a row, solved from the first *d* members that hold them all; a failure drops the highest member for the next
that supplies, until none is left (R160, R161, R168). -/
def solveGroup (r : Rebuild) (m : Nat) (ts : List (Nat × Nat)) (ks : List Nat) : List ((Nat × Nat) × Solved) :=
  let cands := r.candidates m ts ks
  let have_ := cands.filter (fun i => r.holdsAll m i ks)
  (ts.filter (fun t => ks.contains t.2)).map (fun t =>
    let known := have_.filterMap (fun c =>
      (r.held.find? (fun e => e.1 == m && e.2.1 == c && e.2.2.1 == t.2)).map (fun e => (c, coveredOf e.2.2.2)))
    if cands.length < r.d then (t, .lost)
    else if known.length < r.d then (t, .waiting)
    else
      let base := known.take (r.d - 1)
      match (known.drop (r.d - 1)).findSome? (fun e => rebuildSector r m t.1 t.2 (base ++ [e])) with
      | some b => (t, .bytes b)
      | none => (t, if known.length = cands.length then .lost else .waiting))
/-- Every sector of a row, group by group. -/
def solveAll (r : Rebuild) (m : Nat) (ts : List (Nat × Nat)) : List ((Nat × Nat) × Solved) :=
  (r.groups m ts).flatMap (solveGroup r m ts)

/-- The disc ID for a sector of a member: that of its mounted disc, or of the command's lost-member table (R161). -/
def memberDiscId (s : State) (course i : Nat) (c : Cmd) : Option Nat :=
  match memberBay s course i with
  | some b => (s.bay b.val).disc.map (·.discId)
  | none => (c.sqe.lostTable.find? (fun e => e.1 == i)).map (·.2)

/-- Whether a waiting sector is sector `k` of a row of a member. -/
def isTarget (s : State) (course m i k : Nat) (c : Cmd) (x : CmdSector) : Bool :=
  x.k == k && (match atStep7 s c x with | some (cc, mm, ii) => cc == course && mm == m && ii == i | none => false)

/-- A sector that an open of a course rebuilds is kept for the member that lacks it. A position that fewer than `d` members
supply is a fill sector of the session that records it, or the course parity of such sectors (R195); until that session is
open it waits. -/
def keepAligned (s : State) (course m i k : Nat) (o : Solved) : State :=
  if (alignTargets s course m).contains (i, k) = false then s
  else match s.courses.find? (fun c => c.id == course && c.opening.isSome) with
    | none => s
    | some c =>
      let put (b : List Byte) : State := s.modCourse c.handle fun c => { c with aligned := c.aligned ++ [(m, i, k, b)] }
      match o with
      | .waiting => s
      | .bytes b => put b
      | .lost =>
        match (c.bays[i]?).bind (fun b => openSeq (s.bay b.val).write) with
        | none => s
        | some seq =>
          let l := rowLayer c.dtype m
          let lsn := lsnOf c.dtype l (rowBlock c.dtype m) k
          let fill := encodeSector 0 lsn 0 seq l false true none (zeros 4096)
          if i < c.d then put fill
          else
            let v := courseParity (i - c.d) (List.replicate c.d (coveredOf fill))
            put (fromCovered v lsn (rebuiltFlags v l true false))

/-- A sector rebuilt, with depth 7, or lost: step 8. -/
def endTarget (s0 : State) (course m i k : Nat) (t : DiscType) (o : Solved) : State :=
  let s := keepAligned s0 course m i k o
  let hit := isTarget s course m i k
  let asked := s.tags.any (fun c => c.sectors.any (fun x => x.outcome == .pending && hit c x))
  let l := rowLayer t m
  let n := rowBlock t m
  let mark (s : State) (st : SecState) (bytes : List Byte) : State :=
    match memberBay s course i with
    | some b => s.modBlock b.val l n fun x => x.modSec k fun r => { r with state := st, depth := 7, carried := 7, bytes := bytes }
    | none => s
  if asked = false then s
  else match o with
  | .waiting => s
  | .bytes v =>
    let s1 := recLog s (step7Entry s course m i k 0 7 t)
    let s2 := settle s1 7 hit (fun c x => sectorOut s (memberDiscId s course i c) v 7 c x)
    mark s2 .accepted v
  | .lost =>
    let s1 := recLog s (step7Entry s course m i k 1 8 t)
    let s2 := settle s1 7 hit (fun _ x => { x with outcome := .lost })
    mark s2 .lost []

/-- Step 7 of a row has ended: its 20 ms have passed since its peers were read (R142). (Log DEDUCED 158) -/
def rowSpent (s : State) (r : Rebuild) (m : Nat) : Bool :=
  decide (Tbl.get 0 r.readAt m ≠ 0 ∧ Tbl.get 0 r.readAt m + msec 20 ≤ s.now + 1)
/-- A course row of the batch is solved (R161): each waiting sector is rebuilt, lost, or waits for a further member. -/
def solveRow (s : State) (course m : Nat) : State :=
  let s0 := harvest s course m
  match s0.session? course with
  | none => s
  | some r =>
    if r.batch.contains m = false ∨ rowSpent s r m then s
    else
      let ts := targets s0 course m
      let out := solveAll r m ts
      let have_ := ((r.candidates m ts (rowKs ts)).filter (fun i => r.holdsAll m i (rowKs ts))).length
      let s1 := out.foldl (fun a e => endTarget a course m e.1.1 e.1.2 r.dtype e.2) s0
      let more := decide (r.d ≤ have_) && out.any (fun e => e.2 == .waiting)
      sessionsStep (if more then s1.modSession course fun r => { r with tried := Tbl.set 0 r.tried m have_ } else s1)

/-- ROW_SOLVE. -/
def execRowSolve (course : Long) (row : Nat) (s : State) : Host.Outcome State Fault Refusal :=
  if s.fwRuns then .next (solveRow s course.toNat row) else .next s

/-- A request not answered within DISC_WAIT of its first raising times out: the member is lost for the session (R166).
(Log DEDUCED 83, 140) -/
def execDiscWaitExpiry (req : Nat) (s : State) : Host.Outcome State Fault Refusal :=
  match s.recov.requests.find? (fun r => r.id == req) with
  | some r =>
    if r.answered = false ∧ r.at_ + secs r.wait ≤ s.now then
      let s1 := (discDone s r 0x12).modSession r.course fun x => { x with lost := x.lost ++ [r.member] }
      .next (sessionsStep s1)
    else .next s
  | none => .next s

end Sys2Proof.Machine
end

