-- ==== Sys2Proof/Machine/DataCmd.lean ====
section
/-! DEFINITION. The data commands as they run: READ and VERIFY with their delivery, APPEND, FLUSH, SEAL, MOUNT and RELEASE,
and the passing of a deadline (R354, R357, R358, R364, R367 to R378). -/

namespace Sys2Proof.Machine

open Sys2Proof

/-- Firmware schedules data commands: it runs, and the mode is one in which commands in flight go on (R22, R380, R399).
(Log DEDUCED 63) -/
def canServe (s : State) : Bool := s.fwRuns && (s.mode.data || decide (s.mode = .quiesce))

/-- A command of the tag store that has not run yet and that a meaning serves; its fields out of range end it (R12, R357).
(Log DEDUCED 63) -/
def serve (s : State) (q : QpId) (tag : Nat) (kinds : List SqeKind) (run : Cmd → State) : State :=
  match s.cmd? q tag with
  | none => s
  | some c =>
    if c.started ∨ kinds.contains c.sqe.kind = false ∨ canServe s = false then s
    else if c.sqe.inRange = false then endEarly s c stOutOfRange
    else run c

/-! ## READ and VERIFY: what they report (R152, R153, R358, R368, R371) -/

def SecOutcome.depth : SecOutcome → Nat | .accepted d => d | _ => 0
def SecOutcome.isAccepted : SecOutcome → Bool | .accepted _ => true | _ => false

/-- The sectors delivered so far, or for VERIFY those accepted. -/
def Cmd.given (c : Cmd) : List CmdSector :=
  (if c.sqe.opcode = opRead then c.sectors.take c.next else c.sectors).filter (fun x => x.outcome.isAccepted)
/-- The number AUX64 reports: a sector of another tenant is accepted, though not delivered. (Log DEDUCED 62) -/
def Cmd.givenCount (c : Cmd) : Nat :=
  if c.sqe.opcode = opRead then c.given.length
  else (c.sectors.filter (fun x => x.outcome.isAccepted || x.outcome == .tenantMismatch)).length
/-- Indices of lost sectors. -/
def Cmd.lostIdx (c : Cmd) : List Nat := (c.sectors.zipIdx.filter (fun e => e.1.outcome == .lost)).map (·.2)
/-- The status of its sectors' outcomes, the highest-ranked first (R368). -/
def Cmd.status (c : Cmd) : Nat :=
  let has (o : SecOutcome) : Bool := c.sectors.any (fun x => x.outcome == o)
  if has .lost then stDataLost
  else if has .keyInvalid then stKeyInvalid
  else if has .tenantMismatch then stTenant
  else if c.sectors.any (fun x => decide (0 < x.outcome.depth)) then stRecovered
  else stSuccess
/-- RDEPTH (R152, R153). -/
def Cmd.rdepth (c : Cmd) (status : Nat) : Nat :=
  if status = stDataLost then c.deepest else (c.given.map (fun x => x.outcome.depth)).foldl max 0

/-- A READ or VERIFY ends with a status and its report. (Log DEDUCED 62) -/
def endRead (s : State) (c : Cmd) (status : Nat) : State :=
  let lost := c.lostIdx
  let first := match lost with | i :: _ => (c.sqe.addr + i) % 2 ^ 32 | [] => noneLost
  s.finish c.q c.sqe.tag (c.rdepth status) status (bitNat (c.given.any (·.fill))) (lost.length % 2 ^ 16)
    (first + 2 ^ 32 * (c.givenCount % 2 ^ 16))

/-! ## Delivery (R361, R364) -/

/-- Sectors of DATA frames on a queue pair that the host has not acknowledged. -/
def dataInFlight (p : Qp) : Nat :=
  (((p.txWait ++ p.unacked).filter (fun f => f.ftype == 2)).map (fun f => (byteAt f.body 4).toNat)).foldl (· + ·) 0
/-- The sectors that can go now, in ascending INDEX, two to a frame where both are ready; then the CQE. -/
def sendSectors (q : QpId) (tag : Nat) : Nat → State → State
  | 0, s => s
  | n + 1, s =>
    match s.cmd? q tag with
    | none => s
    | some c =>
      match c.sectors[c.next]? with
      | none => endRead s c c.status
      | some x =>
        let skip (k : Nat) (t : State) : State := t.modCmd q tag fun c => { c with next := c.next + k }
        if x.outcome = .pending then s
        else if x.outcome.isAccepted = false ∨ c.sqe.opcode ≠ opRead then sendSectors q tag n (skip 1 s)
        else
          let room := (s.qp q).dataCredit - dataInFlight (s.qp q)
          if room = 0 then s
          else
            let second := match c.sectors[c.next + 1]? with
              | some y => if 2 ≤ room ∧ y.outcome.isAccepted then [y.data] else []
              | none => []
            let units := x.data :: second
            let t := s.queueFrame q 2 tag (dataBody c.next units)
            sendSectors q tag n ((skip units.length t).modCmd q tag fun c => { c with delivered := c.delivered + units.length })

/-- READ_SECTOR_DELIVERY. -/
def execReadSectorDelivery (q : QpId) (tag : Nat) (s : State) : Host.Outcome State Fault Refusal :=
  match s.cmd? q tag with
  | some c =>
    if c.started ∧ (c.sqe.kind = .read ∨ c.sqe.kind = .verify) then .next (sendSectors q tag (c.sectors.length + 1) s)
    else .next s
  | none => .next s

/-! ## READ and VERIFY: starting (R151, R368 to R371) -/

/-- A sector named on a mounted disc, and one named by its course. -/
def discSector (b : BayId) (t : DiscType) (lnk : Nat × Nat × Nat) (member : Nat) : CmdSector :=
  { bay := some b, layer := lnk.1, block := lnk.2.1, k := lnk.2.2, row := lnk.1 * t.blocks + lnk.2.1, member := member
    outcome := .pending, fill := false, data := [] }
def courseSector (s : State) (course d : Nat) (t : DiscType) (csn : Nat) : CmdSector :=
  let m := csnRow t d csn
  let i := csnDisc t d csn
  { bay := memberBay s course i, layer := rowLayer t m, block := rowBlock t m, k := csnK t csn, row := m, member := i
    outcome := .pending, fill := false, data := [] }

/-- The sectors of a READ or VERIFY become targets; those that a ladder in progress has decided already are settled.
(Log DEDUCED 80) -/
def joinBlocks (s : State) (xs : List CmdSector) : State :=
  let s1 := xs.foldl (fun a x => match x.bay with | some b => a.ensureBlock b x.layer x.block | none => a) s
  xs.foldl (fun a x => match x.bay with
    | none => a
    | some b => match a.block? b x.layer x.block with
      | none => a
      | some y =>
        let r := y.sec x.k
        match r.state with
        | .accepted => deliver a b x.layer x.block x.k r.bytes r.depth r.carried
        | .lost => settle a r.carried (fun _ z => z.on b x.layer x.block x.k) (fun _ z => { z with outcome := .lost })
        | .failed => a.modBlock b.val x.layer x.block (·.begin a)
        | _ => a) s1

/-- The command runs over its sectors. -/
def startRead (s : State) (c : Cmd) (xs : List CmdSector) : State :=
  sessionsStep (joinBlocks (s.modCmd c.q c.sqe.tag fun c => { c with started := true, sectors := xs }) xs)

/-- Disc addressing (R368). -/
def readDisc (s : State) (c : Cmd) : State :=
  let q := c.sqe
  match bayOfDisc s q.name with
  | none => endEarly s c stNotMounted
  | some b => match (s.bay b.val).disc with
    | none => endEarly s c stNotMounted
    | some d => match lsnData d.dtype d.layers q.addr, lsnData d.dtype d.layers (q.addr + q.count - 1) with
      | some (l, _, _), some (l2, n2, _) =>
        if l = l2 ∧ n2 < d.append.getD l 0 then
          let i := match d.binding with | .member _ i _ _ _ => i | _ => 0
          startRead s c ((List.range q.count).map (fun x =>
            discSector b d.dtype ((lsnData d.dtype d.layers (q.addr + x)).getD (0, 0, 0)) i))
        else endEarly s c stOutOfRange
      | _, _ => endEarly s c stOutOfRange

/-- CSN addressing (R368, R369). -/
def readCourse (s : State) (c : Cmd) : State :=
  let q := c.sqe
  match courseShape s q.name with
  | none => endEarly s c stNotMounted
  | some (d, p, t) =>
    if q.lostTable.any (fun e => decide (d + p ≤ e.1 ∨ e.2 = 0xFFFFFFFFFFFF)) then endEarly s c stOutOfRange
    else if t.dataSectors * d * courseRowsEnd s q.name < q.addr + q.count then endEarly s c stOutOfRange
    else startRead s c ((List.range q.count).map (fun x => courseSector s q.name d t (q.addr + x)))

/-- READ. -/
def execRead (q : QpId) (tag : Nat) (s : State) : Host.Outcome State Fault Refusal :=
  .next (serve s q tag [.read] fun c => if c.sqe.csn then readCourse s c else readDisc s c)
/-- VERIFY (R371). -/
def execVerify (q : QpId) (tag : Nat) (s : State) : Host.Outcome State Fault Refusal :=
  .next (serve s q tag [.verify] fun c => if c.sqe.csn then readCourse s c else readDisc s c)

/-- A data opcode that this chapter does not define completes with OUT_OF_RANGE (R12, R354). -/
def execDataUndefinedOpcode (q : QpId) (tag : Nat) (s : State) : Host.Outcome State Fault Refusal :=
  match s.cmd? q tag with
  | some c => if c.sqe.kind = .none then .next (endEarly s c stOutOfRange) else .next s
  | none => .next s

/-! ## APPEND (R372) -/

/-- An open course of a handle. -/
def openCourse? (s : State) (h : Nat) : Option Course := (s.course? h).bind (fun c => if c.opening.isNone then some c else none)

/-- APPEND: the checks, then it waits for its data. (Log DEDUCED 136, 143) -/
def execAppend (q : QpId) (tag : Nat) (s : State) : Host.Outcome State Fault Refusal :=
  .next (serve s q tag [.append] fun c =>
    match openCourse? s c.sqe.handle with
    | none => endEarly s c stNotMounted
    | some k =>
      if k.stopped then endEarly s c stAborted
      else if k.full then s.finish q tag 0 stSealedFull 0 0 k.left
      else if k.sealed then endEarly s c stSealed
      else if k.left < c.sqe.count then s.finish q tag 0 stSealedFull 0 0 k.left
      else if c.sqe.key ≠ 0 ∧ Tbl.get [] s.sec.keys c.sqe.key = [] then endEarly s c stKeyInvalid
      else s.modCmd q tag fun c => { c with started := true })

/-! ## FLUSH and SEAL (R193, R196, R374) -/

/-- CSNs of a course row. -/
def Course.rowSize (c : Course) : Nat := c.dtype.dataSectors * c.d
/-- Rows that the next CSN has reached, the partial row among them. -/
def Course.rowsBegun (c : Course) : Nat := (c.nextCsn + c.rowSize - 1) / max 1 c.rowSize
/-- Every row begun is committed on every member. -/
def Course.allCommitted (c : Course) : Bool := decide (c.rowsBegun ≤ c.committed)
/-- The partial row padded with fill sectors, the next CSN at the start of the following row (R193, R374).
(Log DEDUCED 87) -/
def Course.pad (c : Course) : Course :=
  let stop := c.rowsBegun * c.rowSize
  { c with missing := c.missing ++ (List.range (stop - c.nextCsn)).map (c.nextCsn + ·), nextCsn := stop }
/-- Every member carries a closing update (R65). -/
def membersClosed (s : State) (c : Course) : Bool :=
  c.bays.all (fun b => match (s.bay b.val).disc with | some d => d.sealed || d.full | none => false)
/-- First CSN not durable, or none (R358). (Log DEDUCED 137) -/
def Course.notDurable (c : Course) : Nat := if c.allCommitted then noneLost else c.firstLost

/-- A course handle is freed: what is still in flight for it ends (R377, R378). -/
def freeCourse (s : State) (h : Nat) : State :=
  let s1 := s.abortAppends h
  let s2 := match s1.course? h with
    | some c => c.bays.foldl (fun (a : State) (b : BayId) => a.modBay b.val fun y => { y with write := none }) s1
    | none => s1
  { s2 with courses := s2.courses.filter (fun c => c.handle != h) }

/-- A command waits for the course's close. -/
def waitClose (s : State) (c : Cmd) (h : Nat) (w : CloseWait) : State :=
  (s.modCmd c.q c.sqe.tag fun c => { c with started := true }).modCourse h fun k => { k with waits := k.waits ++ [w] }

/-- FLUSH, SEAL and RELEASE of a course: what ends at once, and what waits for the close of R190. (Log DEDUCED 136) -/
def closeCommand (s : State) (c : Cmd) (sealing release : Bool) : State :=
  let fin (t : State) (status aux : Nat) : State := t.finish c.q c.sqe.tag 0 status 0 0 aux
  match openCourse? s c.sqe.handle with
  | none => endEarly s c stNotMounted
  | some k =>
    let h := k.handle
    let free (t : State) : State := if release then freeCourse t h else t
    if k.stopped then
      if k.allCommitted ∧ (sealing = false ∨ membersClosed s k) then fin (free s) stSuccess noneLost
      else fin (free s) stAborted k.notDurable
    else if k.full ∧ k.allCommitted = false then fin (free s) stSealedFull k.firstLost
    else
      let s1 := s.modCourse h fun k => { k.pad with sealed := k.sealed || sealing }
      let done := k.allCommitted && (!sealing || membersClosed s k)
        && (!release || k.bays.all (fun b => match (s.bay b.val).write with | some w => !w.recorded | none => true))
      if done then fin (free s1) stSuccess noneLost
      else waitClose s1 c h ⟨c.q, c.sqe.tag, k.rowsBegun, sealing, release, none⟩

/-- FLUSH. -/
def execFlush (q : QpId) (tag : Nat) (s : State) : Host.Outcome State Fault Refusal :=
  .next (serve s q tag [.flush] fun c => closeCommand s c false false)
/-- SEAL (R196). -/
def execSeal (q : QpId) (tag : Nat) (s : State) : Host.Outcome State Fault Refusal :=
  .next (serve s q tag [.sealing] fun c => closeCommand s c true false)
/-- RELEASE with ACTION 1 (R378). -/
def execReleaseCourse (q : QpId) (tag : Nat) (s : State) : Host.Outcome State Fault Refusal :=
  .next (serve s q tag [.releaseCourse] fun c => closeCommand s c false true)

/-! ## MOUNT (R375, R376) -/

/-- A request ID that is not outstanding now, nor was when the MOUNT was accepted. -/
def reqUnknown (s : State) (id at_ : Nat) : Bool :=
  decide (id ≠ 0) && !s.recov.requests.any (fun r => r.id == id && !r.answered)
    && decide (Tbl.get 0 s.recov.closed id ≤ at_)

/-- The beams of a bay at a MOUNT (R100, R119, R129, R132): nothing of the disc before it is kept. -/
def freshBeams (s : State) (b : Nat) : State :=
  ([0, 1, 2, 3, 4, 5, 6, 7] : List Nat).foldl (fun a n => a.modBeam (8 * b + n) fun m =>
    { m with trLock := false, defect := false, gain := s.pnat 0x0401 (8 * b + n), gainOf := [], reacquire := true, frozen := 0, offset := 0
             set0 := none, set1 := [], envs := [], retained := none }) s
/-- MOUNT of the disc in a bay: the checks, then SPINUP (R269, R375). -/
def execMount (q : QpId) (tag : Nat) (s : State) : Host.Outcome State Fault Refusal :=
  .next (serve s q tag [.load] fun c =>
    let b := c.sqe.bay
    let y := s.bay b
    if (y.state ≠ .empty ∧ y.state ≠ .loaded) ∨ y.disc.isSome ∨ y.mount.isSome ∨ y.outOfService then endEarly s c stBayBusy
    else if y.present = false then
      let s1 := match s.recov.requests.find? (fun r => r.id == c.sqe.request && !r.answered) with
        | some r => discNeeded s r 4
        | none => s
      s1.finishFree q tag stMountFailed 0 1
    else
      let m : MountProc := { q := q, tag := tag, req := c.sqe.request, reqUnknown := reqUnknown s c.sqe.request c.at_ }
      (freshBeams (s.modCmd q tag fun c => { c with started := true }) b).modBay b fun y =>
        { y with state := .spinUp, mount := some m, ldPermit := false, servo := {}, chan := {}, dibCheck := false
                 spin := { y.spin with startsRow := 0 } })

/-- MOUNT with DISPOSITION UNAVAILABLE (R376): the request is closed and its member lost for the session. -/
def execMountUnavailable (q : QpId) (tag : Nat) (s : State) : Host.Outcome State Fault Refusal :=
  .next (serve s q tag [.unavailable] fun c =>
    match s.recov.requests.find? (fun r => r.id == c.sqe.request && !r.answered) with
    | none => endEarly s c stOutOfRange
    | some r =>
      let s1 := (discDone s r 0x14).modSession r.course fun x => { x with lost := x.lost ++ [r.member] }
      sessionsStep (s1.finishFree q tag stSuccess 0 0))

/-- Commands and sessions that wait for a member take the disc now mounted in a bay (R165, R369). -/
def adoptDisc (s : State) (b : BayId) (d : Disc) : State :=
  match d.binding with
  | .member course i _ _ _ =>
    let hit (c : Cmd) (x : CmdSector) : Bool :=
      c.sqe.csn && !c.sqe.memberLost && c.sqe.name == course && x.bay.isNone && x.member == i && x.outcome == .pending
        && !memberGone s course i
    let xs := s.tags.flatMap (fun c => (c.sectors.filter (hit c)).map (fun x => { x with bay := some b }))
    let s1 : State := { s with tags := s.tags.map (fun c =>
      { c with sectors := c.sectors.map (fun x => if hit c x then { x with bay := some b } else x) }) }
    let s2 := if xs.isEmpty then s1 else { s1 with recov := { s1.recov with requests := s1.recov.requests.map (fun q =>
      if q.course = course ∧ q.member = i ∧ q.answered then { q with used := true } else q) } }
    joinBlocks s2 xs
  | _ => s

/-- CFLAGS and AUX64 of a MOUNT (R358, R375). -/
def mountFlags (d : Disc) (mismatch unknown : Bool) : Nat :=
  bitNat (d.readOnly || d.sealed || d.full) + 2 * bitNat d.sealed + 4 * bitNat d.full
    + 8 * bitNat (decide (d.binding = .unbound)) + 16 * bitNat mismatch + 32 * bitNat unknown
def mountAux (d : Disc) : Nat :=
  let i := match d.binding with | .member _ i _ _ _ => i | _ => 0xFF
  d.discId % 2 ^ 48 + i * 2 ^ 48 + d.layers % 8 * 2 ^ 56

/-- The steps of R68 are done and the disc can be mounted: reason 6 where its disc ID is mounted already; otherwise the MOUNT
completes, and a request that it answers is answered, or raised again for a wrong disc (R166, R375, R376).
(Log DEDUCED 84) -/
def mountDone (s : State) (b : BayId) (d : Disc) : State :=
  match (s.bay b.val).mount with
  | none => s
  | some m =>
    if allBays.any (fun o => o != b.val && (match (s.bay o).disc with | some x => x.discId == d.discId | none => false)) then
      (s.failMount b 6).enterSpindown b
    else
      let s1 := s.modBay b fun y => { y with disc := some d, mount := none }
      let s2 := if d.binding = .unknown then s1.logFree .mount 0x0406 b else s1
      let req := s2.recov.requests.find? (fun r => r.id == m.req && !r.answered)
      let right := match req with | some r => d.isMember r.course r.member | none => false
      let s3 := match req with
        | some r =>
          if right then (s2.modReq r.id fun r => { r with answered := true, wrong := false }).modSession r.course fun x =>
            { x with lost := x.lost.filter (· != r.member) }
          else discNeeded (s2.modReq r.id fun r => { r with wrong := true }) r 2
        | none => s2
      let s4 := if (s3.cmd? m.q m.tag).isSome then
          s3.finish m.q m.tag 0 stSuccess (mountFlags d (req.isSome && !right) m.reqUnknown) 0 (mountAux d)
        else s3
      sessionsStep (adoptDisc s4 b d)

/-! ## Opening a course (R195, R377) -/

/-- M: rows committed on at least `d` members (R195). (Log DEDUCED 144) -/
def alignedRows (s : State) (d : Nat) (bays : List Nat) : Nat :=
  let ends := (bays.map (fun b => match (s.bay b).disc with
    | some x => (match x.binding with | .member _ _ _ _ _ => x.rowsEnd | _ => 0)
    | none => 0)).mergeSort (fun a b => decide (b ≤ a))
  ends.getD (d - 1) 0

/-- The first check of R377 that fails, in the order of its table and then of the members: its status and member index, none
where no member is at fault. (Log DEDUCED 86) -/
def openFault (s : State) (q : DataSqe) : Option (Nat × Option Nat) :=
  let d := q.openD
  let p := q.openP
  let n := d + p
  if ¬(2 ≤ d ∧ d ≤ 14 ∧ 1 ≤ p ∧ p ≤ 4 ∧ n ≤ 16) then some (stOutOfRange, none)
  else
    let bays := q.memberBays
    let disc (j : Nat) : Option Disc := liveDisc s (bays.getD j 0)
    let first (f : Nat → Bool) : Option Nat := (List.range n).find? f
    let on (j : Nat) (f : Disc → Bool) : Bool := match disc j with | some x => f x | none => false
    let open_ := s.courses.filter (fun c => !c.stopped)
    let shape (j : Nat) : Option (DiscType × Nat) := (disc j).map (fun x => (x.dtype, x.layers))
    let unbound (x : Disc) : Bool := decide (x.binding = .unbound)
    let fits (j : Nat) (x : Disc) : Bool := unbound x || (match x.binding with
      | .member c i dd pp _ => c == q.name && i == j && dd == d && pp == p | _ => false)
    match first (fun j => (bays.take j).contains (bays.getD j 0)) with
    | some j => some (stOutOfRange, some j)
    | none => if 8 ≤ open_.length then some (stNoResource, none) else
    match first (fun j => (disc j).isNone) with
    | some j => some (stNotMounted, some j)
    | none => match first (fun j => open_.any (fun c => c.id == q.name || c.bays.any (fun b => b.val == bays.getD j 0))) with
    | some j => some (stBayBusy, some j)
    | none => match first (fun j => on j (·.readOnly)) with
    | some j => some (stSealed, some j)
    | none => match first (fun j => on j (fun x => x.sealed || x.full)) with
    | some j => some (if on j (·.full) then stSealedFull else stSealed, some j)
    | none => match first (fun j => shape j != shape 0) with
    | some j => some (stOutOfRange, some j)
    | none => match first (fun j => !on j (fits j)) with
    | some j => some (stOutOfRange, some j)
    | none => if (List.range n).any (fun j => on j unbound) then
        (first (fun j => on j (fun x => !unbound x && x.append.any (· != 0)))).map (fun j => (stOutOfRange, some j))
      else none

/-- Every member is bound, aligned, and no session of the open is still under way. (Log DEDUCED 86, 144) -/
def openReady (s : State) (c : Course) : Bool :=
  let m := alignedRows s c.d (c.bays.map (·.val))
  c.bays.all (fun b =>
    (match (s.bay b.val).disc with
     | some x => (match x.binding with | .member cc _ _ _ _ => cc == c.id && !x.dibDue && decide (m ≤ x.rowsEnd) | _ => false)
     | none => false)
    && (match (s.bay b.val).write with | some w => decide (w.phase = .ready) | none => true))

/-- A disc whose content ends with the rows below `m` (R62, R195): rows from `m` on that it alone carries are no content of the
course that continues there. (Log DEDUCED 144) -/
def Disc.upTo (d : Disc) (m : Nat) : Disc :=
  { d with append := d.append.zipIdx.map (fun e => min e.1 (m - e.2 * d.dtype.blocks)) }

/-- A course is ready: it takes its handle and its command completes; where the command's wait has ended, the course is not
opened (R367, R377). (Log DESIGN CHOICE 13; DEDUCED 86, 132, 144) -/
def openDone (s : State) (key : Nat) : State :=
  match s.course? key with
  | none => s
  | some c =>
    match c.opening with
    | none => s
    | some (q, tag) =>
      if (s.cmd? q tag).isNone then freeCourse s key
      else
        let h := nextReqId (s.courses.map (·.handle)) 0x10000 s.nextHandle
        let m := alignedRows s c.d (c.bays.map (·.val))
        let s1 := s.modCourse key fun c =>
          { c with handle := h, opening := none, committed := m, nextCsn := c.rowSize * m, lastData := s.now }
        let s2 := c.bays.foldl (fun a b => (a.modWrite b.val fun w => { w with handle := h }).modDisc b.val (·.upTo m)) s1
        ({ s2 with nextHandle := h + 1 } : State).finish q tag 0 stSuccess 0 h 0

/-- A member ends the open of a course with a status (R377): the members bound stay bound. (Log DEDUCED 86) -/
def openFails (s : State) (key status member : Nat) : State :=
  match s.course? key with
  | none => s
  | some c =>
    let s1 := match c.opening with
      | some (q, tag) => if (s.cmd? q tag).isSome then s.finish q tag 0 status 0 member 0 else s
      | none => s
    freeCourse s1 key

/-- MOUNT with ACTION 1. (Log DEDUCED 132) -/
def execMountOpenCourse (q : QpId) (tag : Nat) (s : State) : Host.Outcome State Fault Refusal :=
  .next (serve s q tag [.opening] fun c =>
    match openFault s c.sqe with
    | some (status, some j) => s.finish q tag 0 status 0 j 0
    | some (status, none) =>
      let f := s.fresh
      f.2.finish q tag 0 status 0 (f.1 % 2 ^ 16) 0
    | none =>
      let bays := c.sqe.memberBays
      let key := 0x10000 + c.order
      let d0 := (liveDisc s (bays.headD 0)).map (fun x => (x.dtype, x.layers))
      let k : Course :=
        { handle := key, id := c.sqe.name, d := c.sqe.openD, p := c.sqe.openP, dtype := (d0.map (·.1)).getD .plain
          layers := (d0.map (·.2)).getD 1, bays := bays.map (fun b => Fin.ofNat 16 b), nextCsn := 0, buf := [], nextSeq := []
          committed := 0, stopped := false, full := false, sealed := false, waits := [], lastData := s.now
          opening := some (q, tag), missing := [], closing := none }
      let m := alignedRows s k.d bays
      let behind := bays.any (fun b => match (s.bay b).disc with | some x => decide (x.rowsEnd < m) | none => false)
      let k := { k with alignTo := m, closing := if behind then some m else none }
      let s1 : State := { s with courses := s.courses.filter (fun o => o.id != c.sqe.name) ++ [k] }
      let s2 := s1.modCmd q tag fun c => { c with started := true }
      if openReady s2 k then openDone s2 key else sessionsStep s2)

/-! ## RELEASE of a bay (R125, R157, R162, R378) -/

/-- Runs over target blocks that nothing needs any more, as they were before and are now: they end at the next slot boundary
(R125). -/
def abortRuns (before after : State) : State :=
  allBays.foldl (fun a b =>
    let on (x : Block) : Bool := x.bay.val == b
    match (a.bay b).chan.run with
    | some r =>
      if (r.kind = .read ∨ r.kind = .reread) ∧ before.recov.blocks.any on ∧ a.recov.blocks.any on = false then
        a.modChan b fun c => { c with run := some { r with aborted := true } }
      else a
    | none => a) after

/-- What waits on a disc ends: commands with ABORTED, its ladders, and its part in sessions for rows not yet read. -/
def abortDisc (s : State) (b : Nat) : State :=
  let on (x : CmdSector) : Bool := x.outcome == .pending && (match x.bay with | some v => v.val == b | none => false)
  let s1 := (s.tags.filter (fun c => c.sectors.any on)).foldl (fun a c => endRead a c stAborted) s
  let s2 := match membership s1 b with
    | none => s1
    | some (course, i) =>
      match s1.session? course with
      | none => s1
      | some r => r.rows.foldl (fun a m =>
          let gone := ((rowKs (targets s1 course m)).filter (fun k => !r.holds m i k && !r.lostRows.contains (m, i, k))).map (fun k => (m, i, k))
          a.modSession course fun r => { r with lostRows := r.lostRows ++ gone }) s1
  abortRuns s <| sessionsStep { s2 with recov := { s2.recov with blocks := s2.recov.blocks.filter (fun x => x.bay.val != b) } }

/-- The release goes on: the bay passes through SPINDOWN, and the command completes at standstill. (Log DEDUCED 84) -/
def goRelease (s : State) (b : Nat) (q : QpId) (tag : Nat) : State :=
  let s1 := (abortDisc s b).modBay b fun y => { y with releasing := y.releasing ++ [(q, tag)] }
  let s2 := if (s1.bay b).state = .safe ∨ (s1.bay b).state = .spinDown then s1 else s1.enterSpindown b
  settleBay s2 b

/-- RELEASE with ACTION 0. -/
def execRelease (q : QpId) (tag : Nat) (s : State) : Host.Outcome State Fault Refusal :=
  .next (serve s q tag [.releaseBay] fun c =>
    let b := c.sqe.bay
    let s1 := s.modCmd q tag fun c => { c with started := true }
    match liveDisc s b with
    | none => endEarly s c stNotMounted
    | some _ => match s.courseOfBay b with
      | none => goRelease s1 b q tag
      | some k =>
        if c.sqe.forced then goRelease (s1.stopCourse k.handle .stopped) b q tag
        else if k.opening.isNone ∧ k.bays.any (fun v => match (s.bay v.val).write with | some w => w.recorded | none => false)
            ∨ k.committed < k.nextCsn / max 1 k.rowSize then
          (abortDisc s1 b).modCourse k.handle fun k => { k with waits := k.waits ++
            [⟨q, tag, k.nextCsn / max 1 k.rowSize, false, true, some (Fin.ofNat 16 b)⟩] }
        else goRelease (freeCourse s1 k.handle) b q tag)

/-! ## Deadlines (R156, R367, R373) -/

/-- A command of the tag store passes its deadline: what it started runs on, but for an APPEND's missing sectors and a READ's
undecided ones. (Log DEDUCED 60, 137) -/
def expire (s : State) (c : Cmd) : State :=
  let q := c.q
  let tag := c.sqe.tag
  match c.sqe.kind with
  | .read | .verify => abortRuns s (sessionsStep (endRead s c stDeadline))
  | .append =>
    let s1 := s.giveUpAppend c
    (match c.csn with
     | some first => s1.finish q tag 0 stDeadline 0 c.taken.length first
     | none => s1.finishFree q tag stDeadline 0 0)
  | .flush | .sealing | .releaseCourse =>
    (match s.course? c.sqe.handle with
     | some k => s.finish q tag 0 stDeadline 0 0 k.notDurable
     | none => s.finishFree q tag stDeadline 0 0)
  | .releaseBay | .opening => s.finish q tag 0 stDeadline 0 0 0
  | _ => s.finishFree q tag stDeadline 0 0

/-- DEADLINE_EXPIRY: a command in flight, or one that still waits in its submission ring. (Log DEDUCED 60) -/
def execDeadlineExpiry (q : QpId) (tag : Nat) (s : State) : Host.Outcome State Fault Refusal :=
  match s.cmd? q tag with
  | some c => if c.deadline ≤ s.now then .next (expire s c) else .next s
  | none =>
    match q, (s.qp q).sq.find? (fun e => (parseSqe e.received).tag == tag && decide (deadlineOf e (parseSqe e.received) ≤ s.now)) with
    | .data _, some e =>
      .next (refuseSqe (s.modQp q fun p => { p with sq := p.sq.erase e }) q (parseSqe e.received) stDeadline)
    | _, _ => .next s

end Sys2Proof.Machine
end

