-- ==== Sys2Proof/Machine/Ladder.lean ====
section
/-! DEFINITION. The recovery ladder: steps 1 to 3 on a sector, the Thatch decode, re-read passes, and the way to step 7
(R140 to R158, R169). -/

namespace Sys2Proof.Machine

open Sys2Proof

/-! ## What a block's ladder knows -/

/-- The group of a bay is parked (R474). -/
def parked (s : State) (b : Nat) : Bool := s.eave.parked.any (fun p => p.1.val == groupOf b)

/-- The address at which a sector is read: its home slot, or the standing replacement (R61, R93). -/
def standingAddr (s : State) (b layer n k : Nat) : Nat :=
  let a := homeAddr (bayType s b) layer n k
  match (s.bay b).disc with
  | some d => standingSlot d.defects a
  | none => a

/-- A sector's samples as the bay's retry store holds them (R133). -/
def retained (s : State) (b a : Nat) : Option Kept := ((s.bay b).chan.retry.find? (fun e => e.addr == a)).map (·.kept)
/-- A retry store entry released. (Log DEDUCED 78) -/
def dropRetry (s : State) (b a : Nat) : State :=
  s.modChan b fun c => { c with retry := c.retry.filter (fun e => e.addr != a) }

/-- The commands that wait on a block: for a sector of its own, or through the session that reads it as a peer (R155). -/
def waiters (s : State) (x : Block) : List Cmd :=
  let peer := (List.range 32).any (fun k => sessionWants s x.bay.val x.layer x.block k)
  let course := (membership s x.bay.val).map (·.1)
  s.tags.filter (fun c => c.sectors.any (fun y => y.outcome == .pending &&
    ((List.range 32).any (fun k => y.on x.bay.val x.layer x.block k)
      || (peer && (match atStep7 s c y with | some (cc, _, _) => course == some cc | none => false))))
    || (peer && decide (c.sqe.kind = .opening) && c.started && course == some c.sqe.name))
/-- Some command that waits on a block has at least `limit` stitches left (R155). -/
def timeFor (s : State) (x : Block) (limit : Nat) : Bool := (waiters s x).any (fun c => decide (s.now + limit ≤ c.deadline))

def Block.turbo (x : Block) : Nat := x.took.getD 0 0
def Block.altMax (x : Block) : Nat := x.took.getD 1 0
def Block.rereads (x : Block) : Nat := x.took.getD 2 0
def Block.focRetry (x : Block) : Int := x.took.getD 3 0
def Block.trkRetry (x : Block) : Int := x.took.getD 4 0
def Block.pwrRetry (x : Block) : Nat := x.took.getD 5 0

/-- The bay can read: it is in a state with its optical loops closed or about to be, and not parked (R154, R157). -/
def canRead (s : State) (b : Nat) : Bool :=
  !parked s b && (match (s.bay b).state with
    | .focus | .track | .read | .verify | .write => true
    | _ => false)

/-- The erased sectors of a block: those not accepted. -/
def erasedOf (s : State) (x : Block) : List Nat := (blockKs s x.bay.val).filter (fun k => decide ((x.sec k).state ≠ .accepted))
/-- Requested sectors of a block that are still undecided. -/
def openOf (s : State) (x : Block) : List Nat :=
  (blockKs s x.bay.val).filter (fun k => wanted s x.bay.val x.layer x.block k && decide ((x.sec k).state = .failed))

/-- A step carried out for every erased sector of a block (R153). -/
def carriedOut (s : State) (b l n step : Nat) : State :=
  s.modBlock b l n fun x => { x with secs := x.secs.map (fun (e : Nat × SecRec) =>
    if e.2.state = .accepted then e else (e.1, { e.2 with carried := max e.2.carried step })) }

/-- A step passed over for lack of its need: its bit, and an entry (R154). -/
def passOver (s : State) (b layer n k step : Nat) : State :=
  let s1 := s.modBlock b layer n fun x => x.modSec k fun r => { r with passedOver := r.passedOver ||| (1 <<< (step - 1)) }
  match s1.block? b layer n with
  | some x => recLog s1 (blockEntry s1 x k 3 step)
  | none => s1
/-- The same for every requested sector that a block's step would have worked on. -/
def passOverBlock (s : State) (b layer n step : Nat) : State :=
  match s.block? b layer n with
  | some x => (openOf s x).foldl (fun a k => passOver a b layer n k step) s
  | none => s
/-- The entries of a block's erased sectors as they enter step 5 or 6 (R143, R154). -/
def enterBlock (s : State) (b l n step : Nat) : State :=
  match s.block? b l n with
  | some x => (erasedOf s x).foldl (fun a k => enterLog a (blockEntry a x k 0 step)) s
  | none => s

/-! ## Re-read passes begin (R148, R149, R155, R157) -/

/-- The limit of the raised read power on a layer (R149). -/
def powerLimit (d : Disc) (layer : Nat) : Nat :=
  let last := d.lastOpc.getD layer 0
  (if last = 0 then (d.hints.getD layer default).startPower else last) * 35 / 100
/-- The raised read power of pass `p`, where it exceeds read power. -/
def raisedPower (s : State) (b layer p : Nat) : Option Nat :=
  match (s.bay b).disc with
  | none => none
  | some d =>
    let base := (d.hints.getD layer default).readPower
    let v := min (base * (100 + 10 * p) / 100) (powerLimit d layer)
    if base < v then some v else none

/-- The ladder goes to step 7. -/
def toCourse (s : State) (b l n : Nat) : State :=
  s.modBlock b l n fun x => { x with phase := .course, since := s.now, passAt := none, resuming := false }
/-- Steps 5 and 6 are ruled out by something that loses no sector (R168). -/
def ruleOut (s : State) (b l n : Nat) : State := s.modBlock b l n fun x => { x with ruledOut := true }
/-- A pass of step 5 or 6 waits for its run; after one that HOLD, SAFE or rotor loss has ended, the bay must be in TRACK again within
that pass's limit (R157). -/
def waitPass (s : State) (b l n st p : Nat) (resuming : Bool) : State :=
  let s1 := match s.block? b l n with
    | some x => if (match x.phase with | .reread v _ => v == st | _ => false) then s else enterBlock s b l n st
    | none => s
  s1.modBlock b l n fun x =>
    { x with phase := .reread st p, since := if resuming then x.passAt.getD s.now else s.now, passAt := none, resuming := resuming
             secs := x.secs.map (fun (e : Nat × SecRec) => (e.1, { e.2 with passRead := false })) }
/-- A pass waits although its bay cannot read: in SAFE-STOP, or where the pass before it was cut short (R157). -/
def mayWait (s : State) (b : Nat) (x : Block) : Bool := decide (s.mode = .safeStop) || (x.passAt.isSome && !parked s b)

/-- A block's ladder goes to the pass `p` of step 6, to the next, or to step 7. -/
def toStep6 : Nat → State → Nat → Nat → Nat → Nat → State
  | 0, s, b, l, n, _ => toCourse s b l n
  | fuel + 1, s, b, l, n, p =>
    match s.block? b l n with
    | none => s
    | some x =>
      if x.pwrRetry < p then toCourse s b l n
      else if canRead s b = false then
        if mayWait s b x then waitPass s b l n 6 p true else toCourse (ruleOut (passOverBlock s b l n 6) b l n) b l n
      else if 3 ≤ (s.bay b).welt.band.level then toCourse (passOverBlock s b l n 6) b l n
      else if timeFor s x 10000 = false then toCourse (ruleOut s b l n) b l n
      else if (raisedPower s b l p).isNone then toStep6 fuel s b l n (p + 1)
      else waitPass s b l n 6 p false

/-- Step 5, its pass `p`, or step 6. -/
def toStep5 (s : State) (b l n p : Nat) : State :=
  match s.block? b l n with
  | none => s
  | some x =>
    if x.rereads < p then toStep6 2 s b l n 1
    else if canRead s b = false then
      if mayWait s b x then waitPass s b l n 5 p true else toStep6 2 (ruleOut (passOverBlock s b l n 5) b l n) b l n 1
    else if timeFor s x 10000 = false then toStep6 2 (ruleOut s b l n) b l n 1
    else waitPass s b l n 5 p false
/-- The pass after `p` of step `st`. -/
def nextPass (s : State) (b l n st p : Nat) : State := if st = 5 then toStep5 s b l n (p + 1) else toStep6 2 s b l n (p + 1)
/-- A pass that waited for its bay is passed over at its limit, with the step 6 behind it (R157). -/
def giveUpPass (s : State) (b l n st : Nat) : State :=
  let s1 := (ruleOut (passOverBlock s b l n st) b l n).modBlock b l n fun x => { x with passAt := none, resuming := false }
  if st = 5 then toStep6 2 s1 b l n 1 else toCourse s1 b l n

/-! ## A sector is accepted (R131, R140, R143, R150, R152, R154) -/

/-- What is counted or logged of a requested sector accepted with a depth. (Log DEDUCED 81) -/
def noteRecovered (s : State) (b l n k depth : Nat) : State :=
  if wanted s b l n k = false ∨ depth = 0 then s
  else if depth ≤ 4 then { s with recov := { s.recov with counted := Tbl.upd 0 s.recov.counted b (· + 1) } }
  else match s.block? b l n with
    | some x => recLog s (blockEntry s x k 0 depth)
    | none => s

/-- A sector of a block accepted: kept in the block's reassembly buffer and delivered to what waits for it. -/
def acceptSector (s : State) (b l n k depth : Nat) (bytes : List Byte) : State :=
  let s1 := s.modBlock b l n fun x => x.modSec k fun r =>
    { r with state := .accepted, depth := depth, carried := max r.carried depth, bytes := bytes }
  let s2 := dropRetry s1 b (standingAddr s1 b l n k)
  let s3 := noteRecovered s2 b l n k depth
  let carried := match s3.block? b l n with | some x => (x.sec k).carried | none => depth
  deliver s3 b l n k bytes depth carried
/-- The recorded reference of a layer takes an accepted sector's envelopes (R131). -/
def noteEnvelope (s : State) (b : Nat) (r : SlotReport) : State :=
  s.modDisc b fun d => { d with refEnv := Tbl.upd (0, 0) d.refEnv r.addr.layer.val (fun e => (e.1 + r.env.1, e.2 + r.env.2)) }

/-! ## Step 4 (R86, R147, R150) -/

/-- What the reader expects of a sector of a block (R78, R92): on a disc of unknown membership the CPAR of the first sector
accepted in the block. (Log DEDUCED 82) -/
def expectedOf (s : State) (x : Block) (k : Nat) (remap : Bool) : Expected :=
  let t := bayType s x.bay.val
  { lsn := lsnOf t x.layer x.block k, layer := x.layer, remap := remap, tpar := decide (t.dataSectors ≤ k)
    cpar := match (s.bay x.bay.val).disc with
      | some d => (match d.binding with
        | .member _ i dd _ _ => some (decide (dd ≤ i))
        | .unbound => some false
        | .unknown => ((blockKs s x.bay.val).find? (fun j => decide ((x.sec j).state = .accepted))).map
            (fun j => (parseMeta (metaOf (x.sec j).bytes)).flags.cpar))
      | none => none }

/-- The block's erased sectors rebuilt: none where a rebuilt data sector fails R92. -/
def thatchSectors (s : State) (x : Block) : Option (List (Nat × List Byte)) :=
  let ks := blockKs s x.bay.val
  let gone := erasedOf s x
  let known := (ks.filter (fun k => decide ((x.sec k).state = .accepted))).map (fun k => (k, coveredOf (x.sec k).bytes))
  match thatchRebuild ks.length known gone with
  | none => none
  | some out =>
    let secs := out.map (fun e =>
      let w := expectedOf s x e.1 false
      (e.1, fromCovered e.2 w.lsn (rebuiltFlags e.2 x.layer (w.cpar.getD false) w.tpar)))
    if secs.all (fun e => let w := expectedOf s x e.1 false
        w.tpar || accepts w e.2) then some secs else none

/-- Step 4 of a block, after which it is done, or goes on after step `st`'s pass `p` (step 4 itself is `st` = 4). -/
def thatchStep4 (s : State) (b l n st p : Nat) : State :=
  match s.block? b l n with
  | none => s
  | some x =>
    let s1 := (carriedOut s b l n st).modBlock b l n fun x => { x with erasures := (erasedOf s x).length }
    match thatchSectors s1 x with
    | some out =>
      let s2 := out.foldl (fun a e => acceptSector a b l n e.1 st e.2) s1
      s2.modBlock b l n fun x => { x with phase := .done, since := s.now, passAt := none }
    | none => if st = 4 then toStep5 s1 b l n 1 else nextPass s1 b l n st p

/-- The block has ended its reads and its steps 1 to 3: it is done, or it enters step 4 (R143). -/
def blockComplete (s : State) (b l n : Nat) : State :=
  match s.block? b l n with
  | none => s
  | some x =>
    let sts := (blockKs s b).map (fun k => (x.sec k).state)
    if sts.any (fun v => v == .unread || v == .decoding) then
      (if x.phase = .reading ∧ !sts.contains .unread then s.modBlock b l n fun x => { x with phase := .sectors } else s)
    else match x.phase with
      | .reading | .sectors =>
        if sts.all (· == .accepted) then s.modBlock b l n fun x => { x with phase := .done }
        else if timeFor s x 200 = false then
          toStep5 ((ruleOut s b l n).modBlock b l n fun x => { x with erasures := (erasedOf s x).length }) b l n 1
        else s.modBlock b l n fun x => { x with phase := .thatch, since := s.now }
      | _ => s

/-! ## Steps 1 to 3: the decodes (R119, R128, R144 to R146) -/

/-- A beam's coefficients in a set (R119): none of set 1 where the layer has none. -/
def eqTaps (s : State) (b : Nat) (t : DiscType) (layer beam set : Nat) : Taps :=
  let m := s.beam (8 * b + beam)
  let d := Config.eqDefault (decide (t = .ridged)) layer beam
  let two : Taps := ⟨d.take 15, (d.drop 15).take 7, (d.drop 22).take 7⟩
  match set with
  | 0 => m.set0.getD two
  | 1 => (Tbl.get none m.set1 layer).getD two
  | 2 => two
  | _ => two.oneSided
/-- A bay has a set 1 for a layer (R119). -/
def hasSet1 (s : State) (b : Nat) (t : DiscType) (layer : Nat) : Bool :=
  (List.range 8).all (fun v => decide (v < t.firstSpiral) || (Tbl.get none (s.beam (8 * b + v)).set1 layer).isSome)

/-- The LLR of a bit whose value is certain. (Log DEDUCED 148) -/
def certain : Int := 2 ^ 30
/-- What a turbo pass knows beforehand of each codeword: the array's last LLRs, and certainty of one that has converged (R145). -/
def SecRec.priors (r : SecRec) : List (List Int) :=
  r.soft.zipIdx.map (fun e => if (r.cws.getD e.2 none).isSome then e.1.map (fun l => if l < 0 then -certain else certain) else e.1)

/-- Step 3's candidates, as equaliser set and origin from the flywheel's prediction (R146). -/
def altCandidates (set1 : Bool) (r : SecRec) : List (Nat × Int) :=
  match r.report with
  | none => []
  | some p =>
    let sets := p.eq :: ([1, 2, 3, 0].filter (fun g => decide (g ≠ p.eq) && (g != 1 || set1)))
    let origins : List Int := if p.offset = 0 then [0] else [p.offset, 0]
    let done : List (Int) := (if p.outcome = .pending then [p.offset] else []) ++ (List.range r.searched).map (fun i => searchOffset (i + 1))
    (sets.flatMap (fun g => origins.flatMap (fun o => (List.range 9).map (fun i => (g, o + searchOffset (i + 1)))))).filter
      (fun c => !(c.1 == p.eq && done.contains c.2))

/-- A decode of a kept sector with the equaliser set and origin that its report names, with what is known beforehand; codewords held
fixed are not sent again (R128, R144 to R146). -/
def keptJob (s : State) (b : Nat) (lsn : Nat) (p : SlotReport) (kept : Kept) (soft : List (List Int)) (held : List (Option (List Byte))) :
    LdpcJob :=
  let t := bayType s b
  let ys := keptOutput (eqTaps s b t p.addr.layer.val p.addr.spiral.val p.eq) kept
  let took := decodeTake s b
  let pri := if soft = [] then [] else sectorPriors (took.getD 2 2) t.preamble ys.length p.resyncs p.offset (scramblerSeed lsn) soft
  let j := sectorJob t took b p (some lsn) 0 held (slotLlrs ys pri kept.erased) kept.erased
  { j with llr := j.llr.zipIdx.map (fun e => if (held.getD e.2 none).isSome then none else e.1) }

/-- The next decode of a sector's present step on its kept samples, counted; none where the step is spent (R144 to R146). -/
def nextDecode (s : State) (b l n k : Nat) (x : Block) (kept : Kept) : Option (State × LdpcJob) :=
  let r := x.sec k
  let t := bayType s b
  match r.report with
  | none => none
  | some p =>
    let job (set : Nat) (o : Int) (soft : List (List Int)) (held : List (Option (List Byte))) : LdpcJob :=
      keptJob s b (lsnOf t l n k) { p with offset := o, eq := set } kept soft held
    let count (f : SecRec → SecRec) : State := s.modBlock b l n fun x => x.modSec k f
    match r.step with
    | 1 => if 1 ≤ r.count then none else some (count fun r => { r with count := r.count + 1 }, job p.eq p.offset [] r.cws)
    | 2 => if x.turbo ≤ r.count then none
      else some (count fun r => { r with count := r.count + 1 }, job p.eq p.offset r.priors r.cws)
    | _ =>
      match (altCandidates (hasSet1 s b t p.addr.layer.val) r)[r.cand]? with
      | none => none
      | some (g, o) =>
        if x.altMax ≤ r.count then none
        else
          let j := job g o [] []
          some (count fun r => { r with count := r.count + 1, cand := r.cand + 1, cws := [] }, { j with llr := cw0First false j.llr })

/-- Decodes of the present step until one is sent to the LDPC array; none where the step is spent. -/
def runStep : Nat → State → Nat → Nat → Nat → Nat → Option State × State
  | 0, s, _, _, _, _ => (none, s)
  | fuel + 1, s, b, l, n, k =>
    match s.block? b l n, retained s b (standingAddr s b l n k) with
    | some x, some kept =>
      match nextDecode s b l n k x kept with
      | none => (none, s)
      | some (s1, j) =>
        if j.sends then
          let s2 := s1.modBlock b l n fun x => x.modSec k fun r => { r with carried := max r.carried r.step }
          (some (s2.pushJob j), s2)
        else runStep fuel s1 b l n k
    | _, _ => (none, s)

/-! ## Steps 1 to 3: from one to the next (R143 to R146, R154, R155, R157) -/

/-- A sector ends steps 1 to 3 not accepted: its samples are given up. -/
def sectorFailed (s : State) (b l n k : Nat) : State :=
  let s1 := s.modBlock b l n fun x => x.modSec k fun r => { r with state := .failed }
  let s2 := match (s1.block? b l n).bind (fun x => (x.sec k).report) with | some p => s1.dropJob b p.addr | none => s1
  blockComplete (dropRetry s2 b (standingAddr s2 b l n k)) b l n
/-- A step of a sector begins. (Log DEDUCED 80) -/
def beginStep (s : State) (b l n k step : Nat) : State :=
  s.modBlock b l n fun x => x.modSec k fun r => { r with state := .decoding, step := step, count := 0, cand := 0, since := s.now }

/-- A sector goes to a step from 1 to 3 that its pattern field, its need and the time left allow, or past them all (R143,
R154, R155). (Log DEDUCED 80) -/
def sectorStep : Nat → State → Nat → Nat → Nat → Nat → Nat → State
  | 0, s, b, l, n, k, _ => sectorFailed s b l n k
  | fuel + 1, s, b, l, n, k, step =>
    match s.block? b l n with
    | none => s
    | some x =>
      let next (s : State) : State := sectorStep fuel s b l n k (step + 1)
      let off := match step with
        | 1 => decide (s.pnat 0x0420 b = 12)
        | 2 => decide (x.turbo = 0)
        | _ => decide (x.altMax = 0)
      let limit := match step with | 1 => 0 | 2 => 80 | _ => 400
      if 3 < step then sectorFailed s b l n k
      else if off then next s
      else if (retained s b (standingAddr s b l n k)).isNone then next (passOver s b l n k step)
      else if timeFor s x limit = false then next s
      else
        let r := runStep 80 (beginStep s b l n k step) b l n k
        match r.1 with
        | some t => t
        | none => next r.2

/-- A first decode that did not accept its sector: its ladder begins with step 1, where that was deferred, or with step 2. An
unrequested sector is erased in its block, but in a re-read pass (R141, R144, R150). -/
def firstFailed (s : State) (b l n k : Nat) (deferred : Bool) : State :=
  match s.block? b l n with
  | none => s
  | some x =>
    if !x.isReread && !wanted s b l n k then sectorFailed (recLog s (blockEntry s x k 2 0)) b l n k
    else
      let s1 := s.modBlock b l n fun x => (x.begin s).modSec k fun r => { r with state := .decoding, step := 0, count := 0, since := s.now }
      if deferred then sectorStep 4 s1 b l n k 1 else sectorStep 3 s1 b l n k 2

/-- A decode of step 1, 2 or 3 that did not accept its sector: the step goes on until its decodes are spent.
(Log DEDUCED 80) -/
def stepFailed (s : State) (b l n k : Nat) : State :=
  match s.block? b l n with
  | none => s
  | some x =>
    if s.mgmt.restarting then s
    else
      let r := runStep 80 s b l n k
      match r.1 with
      | some t => t
      | none => sectorStep 3 r.2 b l n k ((x.sec k).step + 1)

/-- A sector's step begins again (R157). -/
def restartSector (b l n : Nat) (s : State) (k : Nat) : State :=
  match s.block? b l n with
  | none => s
  | some x =>
    let r := x.sec k
    if r.state ≠ .decoding ∨ r.step = 0 then s
    else
      let d := runStep 80 (beginStep s b l n k r.step) b l n k
      match d.1 with
      | some t => t
      | none => sectorStep 3 d.2 b l n k (r.step + 1)
/-- A block's ladder begins the step that it was in again: step 5 or 6 with its first pass, a read of which under way ends (R157). -/
def restartBlock (s : State) (x : Block) : State :=
  let b := x.bay.val
  let s1 := s.modBlock b x.layer x.block fun x => { x with since := s.now }
  let s2 := match x.phase with
    | .reread st _ =>
      (s1.modBlock b x.layer x.block fun x =>
        { x with phase := .reread st 1, passAt := none
                 secs := x.secs.map (fun (e : Nat × SecRec) => (e.1, { e.2 with passRead := false })) }).modChan b fun c =>
        { c with run := c.run.map fun r =>
            if r.kind = .reread ∧ r.layer = x.layer ∧ r.block = x.block then { r with aborted := true } else r }
    | _ => s1
  (List.range 32).foldl (restartSector b x.layer x.block) s2

/-! ## The end of a pass (R148 to R150) -/

/-- A re-read pass ends: its offsets go, what is still being decoded stays erased, and step 4 is made again. -/
def passEnd (s : State) (b l n st p : Nat) : State :=
  let s1 : State := match (s.bay b).chan.run with
    | some r =>
      if r.kind = .reread ∧ r.layer = l ∧ r.block = n then
        (s.endRun b).modBay b fun y => { y with state := if y.state = .read then .track else y.state }
      else s
    | none => s
  let s2 := s1.modBlock b l n fun x =>
    { x with secs := x.secs.map (fun (e : Nat × SecRec) => if e.2.state = .decoding then (e.1, { e.2 with state := .failed }) else e) }
  match s2.block? b l n with
  | none => s2
  | some x =>
    if (erasedOf s2 x).isEmpty then s2.modBlock b l n fun x => { x with phase := .done, passAt := none }
    else thatchStep4 s2 b l n st p

/-! ## The commands -/

/-- A sector's step 2 or 3 reaches its limit (R142). -/
def sectorLimit (s : State) (r : SecRec) : Bool :=
  let limit := if r.step = 2 then 80 else 400
  decide (r.state = .decoding ∧ 2 ≤ r.step ∧ r.since + limit ≤ s.now)

/-- A step reaches its limit (R142): a sector's step 2 or 3, the Thatch decode's 1 ms, a pass's 50 ms, or a row's 20 ms once its peers
are read. (Log DEDUCED 80, 158; DESIGN CHOICE 129) -/
def execRecoveryStepLimit (b : BayId) (layer : Fin 6) (block sector : Nat) (s : State) :
    Host.Outcome State Fault Refusal :=
  let l := layer.val
  match s.block? b.val l block with
  | none => .next s
  | some x =>
    if s.fwRuns = false then .next s
    else match x.phase with
      | .thatch =>
        if x.since + 200 ≤ s.now then
          .next (sessionsStep (toStep5 ((carriedOut s b.val l block 4).modBlock b.val l block fun x => { x with erasures := (erasedOf s x).length })
            b.val l block 1))
        else .next s
      | .course =>
        (match membership s b.val with
         | some (course, _) =>
           let m := l * (bayType s b.val).blocks + block
           (match s.session? course with
            | some r =>
              if rowSpent s r m then
                .next (sessionsStep (s.modBlock b.val l block fun x => { x with phase := .done, ruledOut := true, since := s.now }))
              else .next s
            | none => .next s)
         | none => .next s)
      | .reread st p =>
        if x.resuming ∧ x.since + 10000 ≤ s.now ∧ s.mode ≠ .safeStop then
          match (s.bay b.val).state with
          | .track | .read | .verify | .write => .next (s.modBlock b.val l block fun x => { x with resuming := false })
          | _ => .next (sessionsStep (giveUpPass s b.val l block st))
        else if (match x.passAt with | some t => decide (t + 10000 ≤ s.now) | none => false) then
          .next (sessionsStep (passEnd s b.val l block st p))
        else if sectorLimit s (x.sec sector) then
          .next (sessionsStep (sectorStep 3 s b.val l block sector ((x.sec sector).step + 1)))
        else .next s
      | _ =>
        if sectorLimit s (x.sec sector) then
          .next (sessionsStep (sectorStep 3 s b.val l block sector ((x.sec sector).step + 1)))
        else .next s

/-- Step 4 of a complete block. -/
def execThatchDecode (b : BayId) (layer : Fin 6) (block : Nat) (s : State) : Host.Outcome State Fault Refusal :=
  match s.block? b.val layer.val block with
  | some x =>
    if x.phase = .thatch ∧ s.fwRuns then .next (sessionsStep (thatchStep4 s b.val layer.val block 4 0)) else .next s
  | none => .next s

/-- A block's erased sectors that the present pass has still to read: those with a slot to read (R148). -/
def passLeft (s : State) (x : Block) : List Nat :=
  (erasedOf s x).filter (fun k => decide ((x.sec k).state = .failed) && !(x.sec k).passRead
    && decide (standingAddr s x.bay.val x.layer x.block k ≠ noSlot))

/-- A re-read pass has ended: its runs are over, or its bay has left TRACK, and every sector that it read is decided. -/
def execRereadPassDone (b : BayId) (layer : Fin 6) (block : Nat) (s : State) : Host.Outcome State Fault Refusal :=
  match s.block? b.val layer.val block with
  | some x =>
    let runs := match (s.bay b.val).chan.run with
      | some r => decide (r.kind = .reread ∧ r.layer = layer.val ∧ r.block = block)
      | none => false
    (match x.phase with
     | .reread st p =>
       if s.fwRuns ∧ x.passAt.isSome ∧ runs = false ∧ x.secs.all (fun e => decide (e.2.state ≠ .decoding))
           ∧ ((passLeft s x).isEmpty ∨ canRead s b.val = false) then
         .next (sessionsStep (passEnd s b.val layer.val block st p))
       else .next s
     | _ => .next s)
  | none => .next s

/-- Step 7 is available to a disc's data sectors: a known membership, and as many members left as the course has data discs
(R158). (Log DEDUCED 135) -/
def courseOpen (s : State) (b : Nat) : Bool :=
  match (s.bay b).disc with
  | none => false
  | some d => match d.binding with
    | .member course i dd pp _ =>
      let lost := match s.session? course with | some r => (r.lost.filter (· != i)).length | none => 0
      decide (dd + lost + 1 ≤ dd + pp)
    | _ => false

/-- A requested sector that has no step 7 reaches step 8: DATA_LOST (R158, R168). -/
def loseSector (s : State) (b l n k : Nat) : State :=
  let s1 := passOver s b l n k 7
  let s2 := s1.modBlock b l n fun x => x.modSec k fun r => { r with state := .lost, depth := 8 }
  match s2.block? b l n with
  | none => s2
  | some x =>
    settle (recLog s2 (blockEntry s2 x k 1 8)) (x.sec k).carried (fun _ y => y.on b l n k) (fun _ y => { y with outcome := .lost })

/-- A ladder reaches step 7 (R158, R163, R168): it joins or opens its course's session, waits for one of the four to be free, or
ends at step 8; where steps 5 and 6 were ruled out by what loses no sector, it waits. (Log DEDUCED 160) -/
def execCourseReconstruction (b : BayId) (layer : Fin 6) (block : Nat) (s : State) : Host.Outcome State Fault Refusal :=
  let l := layer.val
  match s.block? b.val l block with
  | none => .next s
  | some x =>
    let ks := (openOf s x).filter (fun k => cmdWants s b.val l block k)
    if x.phase ≠ .course ∨ s.fwRuns = false ∨ ks.isEmpty then .next s
    else if courseOpen s b.val = false then
      if x.ruledOut then .next s else .next (sessionsStep (ks.foldl (fun a k => loseSector a b.val l block k) s))
    else match membership s b.val with
      | none => .next s
      | some (course, _) =>
        .next (sessionsStep (joinRow (openSession s course) course (l * (bayType s b.val).blocks + block)))

end Sys2Proof.Machine
end

