-- ==== Sys2Proof/Machine/Rows.lean ====
section
/-! DEFINITION. What a course's members have to record: the sectors of its rows, the rows that are complete, and the block at which a
session's feed stops (R84, R85, R94 to R96, R174, R187, R190, R193, R195). -/

namespace Sys2Proof.Machine

open Sys2Proof

/-! ## Sectors of a row (R84, R85, R94 to R96, R193, R195) -/

/-- A member's place in its course. -/
def Course.memberAt (c : Course) (b : Nat) : Nat := (c.bays.findIdx? (fun x => x.val == b)).getD 0
/-- A data disc's sector in the write buffer. -/
def Course.buffered (c : Course) (i m k : Nat) : Option (List Byte) :=
  (c.buf.find? (fun e => e.csn == c.dtype.dataSectors * (c.d * m + i) + k)).map (·.bytes)
/-- All of a list, where each is there. -/
def allOf {α : Type} : List (Option α) → Option (List α)
  | [] => some []
  | none :: _ => none
  | some x :: r => (allOf r).map (x :: ·)
/-- Sector `k` of row `m` as member `i` records it, below the Thatch parity: rebuilt in an open, from the write buffer, or
course parity of the data discs. -/
def Course.memberSector (c : Course) (i m k : Nat) : Option (List Byte) :=
  match c.aligned.find? (fun e => e.1 == m && e.2.1 == i && e.2.2.1 == k) with
  | some e => some e.2.2.2
  | none =>
    if i < c.d then c.buffered i m k
    else (allOf ((List.range c.d).map (fun j => c.buffered j m k))).map (fun ds =>
      let l := rowLayer c.dtype m
      let v := courseParity (i - c.d) (ds.map coveredOf)
      fromCovered v (lsnOf c.dtype l (rowBlock c.dtype m) k) (rebuiltFlags v l true false))
/-- Sector `k` of a block as a member records it, its Thatch parity included. -/
def Course.blockSector (c : Course) (i m k : Nat) : Option (List Byte) :=
  if k < c.dtype.dataSectors then c.memberSector i m k
  else (allOf ((List.range c.dtype.dataSectors).map (c.memberSector i m))).map (fun ds =>
    let l := rowLayer c.dtype m
    let v := (thatchParity (ds.map coveredOf)).getD (k - c.dtype.dataSectors) []
    fromCovered v (lsnOf c.dtype l (rowBlock c.dtype m) k) (rebuiltFlags v l (decide (c.d ≤ i)) true))

/-- The first CSN from `n` on that the write buffer lacks. -/
def Course.firstGap (c : Course) : Nat → Nat → Nat
  | 0, n => n
  | fuel + 1, n => if c.buf.any (fun e => e.csn == n) then c.firstGap fuel (n + 1) else n
/-- The first row from `m` on that the open has not yet rebuilt for a member. -/
def Course.alignedEnd (c : Course) (i : Nat) : Nat → Nat → Nat
  | 0, m => m
  | fuel + 1, m =>
    if m < c.alignTo ∧ (List.range c.dtype.dataSectors).all (fun k =>
        c.aligned.any (fun e => e.1 == m && e.2.1 == i && e.2.2.1 == k)) then c.alignedEnd i fuel (m + 1) else m
/-- The row up to which a member can record: every row below it is complete (R173, R195). (Log DEDUCED 89) -/
def readyEnd (s : State) (c : Course) (b : Nat) : Nat :=
  match (s.bay b).disc with
  | none => 0
  | some d =>
    if c.opening.isSome then c.alignedEnd (c.memberAt b) (c.alignTo - d.rowsEnd) d.rowsEnd
    else max d.rowsEnd (c.firstGap (c.buf.length + 1) (c.rowSize * max c.committed c.freed) / max 1 c.rowSize)

/-! ## Boundaries and the close (R174, R187, R190) -/

/-- The first row of a session's layer. -/
def WriteSess.base (w : WriteSess) (t : DiscType) : Nat := w.layer * t.blocks
/-- The end of the verify segment that a block lies in (R187). -/
def segmentEnd (t : DiscType) (n : Nat) : Nat := min t.blocks ((n / t.segmentBlocks + 1) * t.segmentBlocks)
/-- The block at which a session's feed has to stop: the end of its segment, of the rows that are complete, or the boundary
of the close, but no block that has begun is left unfinished. (Log DEDUCED 89) -/
def limitBlock (s : State) (c : Course) (b : Nat) (w : WriteSess) : Nat :=
  let t := c.dtype
  let ready := min t.blocks (readyEnd s c b - w.base t)
  let stop := min ready (segmentEnd t w.segment)
  let lim := match c.closing with
    | some m => min stop (m - w.base t)
    | none => stop
  max lim (max (blocksBegun t w.j) w.segment)

/-- The block boundary at which a session stands. -/
def WriteSess.boundary (w : WriteSess) (t : DiscType) : Nat := blocksBegun t w.j
/-- A session stands at the end of its verify segment, or where the close leaves no more to record: the verify pass comes next (R187,
R190). -/
def verifyDue (s : State) (c : Course) (b : Nat) (w : WriteSess) : Bool :=
  let n := w.boundary c.dtype
  decide (w.phase = .ready ∧ w.segment < n)
    && (decide (n = segmentEnd c.dtype w.segment) || (c.closing.isSome && decide (limitBlock s c b w ≤ n)))

end Sys2Proof.Machine
end

