-- ==== Sys2Proof/Machine/Mounting.lean ====
section
/-! DEFINITION. The steps of R68 on a newly loaded disc, the read-back of a binding and the disc check after a restart: what
each system sector read does (R52 to R66, R171, R271, R284, R375). -/

namespace Sys2Proof.Machine

open Sys2Proof

/-- What reading one slot of a system sector gives: a blank slot, one recorded but not decoded, 4,128 bytes whose codewords all
converged, or, for a slot whose LSN is unknown, its codewords' LLRs, still scrambled, as they may be sent (R98, R127). -/
inductive SysRead | blank | bad | bytes (l : List Byte) | scrambled (r : SlotReport) (llr : List (Option (List Int)))
  deriving DecidableEq, Repr

/-- The user bytes of an accepted system sector of an LSN (R52, R92). -/
def SysRead.user (r : SysRead) (lsn : Nat) : Option (List Byte) :=
  match r with
  | .bytes l => if acceptsSystem lsn l then some (userOf l) else none
  | _ => none

/-! ## What is read next -/

/-- System sectors that a bay is to read next: zone, layer and the places, as spiral and slot. -/
structure SysNeed where
  kind : RunKind
  zone : Zone
  layer : Nat
  places : List (Nat × Nat)
  deriving DecidableEq, Repr

/-- The next spare position that a rescan reads, from a layer and position: those a standing entry retires are passed over
(R64). (Log DEDUCED 85) -/
def rescanNext (t : DiscType) (us : List DmaUpdate) (defects : List Defect) : Nat → Nat → Nat → Option (Nat × Nat)
  | 0, _, _ => none
  | fuel + 1, l, e =>
    let used := ((us.getLast?.map (·.spareUsed)).getD []).getD l 0
    if 6 ≤ l then none
    else if used ≤ e then rescanNext t us defects fuel (l + 1) 0
    else if defects.any (fun d => d.home == spareAddr t l e && d.repl == noSlot) then rescanNext t us defects fuel l (e + 1)
    else some (l, e)
/-- Every spare position of a disc, and its layers. -/
def rescanFuel (t : DiscType) : Nat := 6 * sparePositions t + 7

/-- What the mount in progress reads next. -/
def MountProc.need (m : MountProc) : Option SysNeed :=
  let t := m.dtype.getD .plain
  let dib (recorded : Bool) : SysNeed := ⟨.system, .leadIn, 0, [(dibSpiral m.nextCopy, dibSlot recorded m.nextCopy)]⟩
  match m.step with
  | .spinUp | .discType => none
  | .mastered => some (dib false)
  | .recorded => some (dib true)
  | .dma =>
    let copyB := decide (4 ≤ m.partsA.length + m.blankA.length + m.badA.length)
    some ⟨.system, .leadOut, 0, [1, 2, 3, 4].map (fun b => (b, dmaSlot copyB m.number))⟩
  | .rescan => some ⟨.system, .dataBand, m.rescanLayer, [(m.rescanPos % t.spirals + t.firstSpiral, t.spareStart + m.rescanPos / t.spirals)]⟩
  | .done => none

/-- What a bay reads next outside its target blocks. -/
def sysNeed (y : Bay) : Option SysNeed :=
  match y.mount with
  | some m => m.need
  | none =>
    if y.dibCheck ∧ y.disc.isSome then
      some ⟨.dibCheck, .leadIn, 0, [(dibSpiral y.chan.dibCopy, dibSlot false y.chan.dibCopy)]⟩
    else match y.write with
      | some w => if w.phase = .binding then some ⟨.system, .leadIn, 0, [(dibSpiral w.copy, dibSlot true w.copy)]⟩ else none
      | none => none

/-- The LSN that a reader expects of a system sector (R52, R98): none of a spare position in a rescan. -/
def sysLsn (y : Bay) (spiral : Nat) : Option Nat :=
  match y.mount with
  | some m =>
    (match m.step with
     | .mastered => some (lsnMastered m.nextCopy)
     | .recorded => some (lsnRecorded m.nextCopy)
     | .dma => some (lsnUpdate m.number (spiral - 1))
     | _ => none)
  | none => if y.dibCheck then some (lsnMastered y.chan.dibCopy) else y.write.map (fun w => lsnRecorded w.copy)

/-! ## The mount (R68) -/

/-- A disc that is not mountable (R57, R375): a member that it was to be is lost for its session, until another copy answers the
request, which stays open (R162, R166). (Log DEDUCED 159) -/
def notMountable (s : State) (b : Nat) : State :=
  let req : Option DiscReq := match (s.bay b).mount with
    | some m => s.recov.requests.find? (fun r => r.id == m.req && !r.answered)
    | none => none
  let s1 := match req with
    | some r => s.modSession r.course fun x => { x with lost := if x.lost.contains r.member then x.lost else x.lost ++ [r.member] }
    | none => s
  sessionsStep ((s1.failMount b 5).enterSpindown b)

/-- The DIB that a mount uses: the recorded one of a bound disc, the mastered one otherwise. -/
def MountProc.dib (m : MountProc) : Dib := (m.recorded.orElse (fun _ => m.mastered)).getD default
def MountProc.binding (m : MountProc) : Binding :=
  match m.recorded with
  | some x => .member x.course x.member x.d x.p x.bindSeq
  | none => if m.recordedSeen then .unknown else .unbound

/-- The mount ends: the disc as found, limited by the companion's peak power (R215). `used` says that no update number is
left. (Log DEDUCED 126) -/
def mountEnds (s : State) (b : BayId) (m : MountProc) (used : Bool) : State :=
  let x := m.dib
  let base := defectMap x.dtype x.layers m.updates
  let rescan := needsRescan m.updates m.skipped
  let d := mountedDisc x m.binding m.updates (m.found.foldl standEntry base) rescan used m.number m.dibEnv
  mountDone s b (match (s.bay b.val).welt.companion with | some c => d.limited c.peakLimit | none => d)

/-- The DMA scan has ended (R63): a rescan where R64 calls for one, or the end of the mount. -/
def scanEnds (s : State) (b : BayId) (m : MountProc) (used : Bool) : State :=
  let x := m.dib
  let base := defectMap x.dtype x.layers m.updates
  match if needsRescan m.updates m.skipped then rescanNext x.dtype m.updates base (rescanFuel x.dtype) 0 0 else none with
  | some (l, e) => s.modBay b.val fun y => { y with mount := some { m with step := .rescan, rescanLayer := l, rescanPos := e } }
  | none => mountEnds s b m used

/-- The next update number of the scan. (Log DEDUCED 85) -/
def nextUpdate (s : State) (b : BayId) (m : MountProc) : State :=
  let m1 := { m with number := m.number + 1, partsA := [], partsB := [], blankA := [], blankB := [], badA := [], badB := [] }
  if updateSlots m.dib.issue ≤ m1.number then scanEnds s b m1 true
  else s.modBay b.val fun y => { y with mount := some m1 }

/-- The four parts of a copy as one update, where it is valid (R63). -/
def copyBytes (m : MountProc) (parts : List (Nat × List Byte)) : Option DmaUpdate :=
  let l := (List.range 4).flatMap (fun p => Tbl.get [] parts p)
  if parts.length = 4 ∧ updateValid l m.number m.dib.issue m.dib.discId then some (parseUpdate l) else none

/-- An update once its copies have been read as far as R63 needs: valid, skipped, or the end of the DMA.
(Log DEDUCED 85) -/
def judgeUpdate (s : State) (b : BayId) (m : MountProc) : State :=
  let doneA := decide (4 ≤ m.partsA.length + m.blankA.length + m.badA.length)
  let doneB := decide (4 ≤ m.partsB.length + m.blankB.length + m.badB.length)
  let keep := s.modBay b.val fun y => { y with mount := some m }
  if doneA = false then keep
  else match copyBytes m m.partsA with
    | some u => nextUpdate s b { m with updates := m.updates ++ [u] }
    | none =>
      if doneB = false then keep
      else match copyBytes m m.partsB with
        | some u => nextUpdate s b { m with updates := m.updates ++ [u] }
        | none =>
          if 4 ≤ m.blankA.length ∧ 4 ≤ m.blankB.length then scanEnds s b m false
          else nextUpdate (s.log .mount 0x0404 b.val m.number) b { m with skipped := m.skipped ++ [m.number] }

/-- One part of an update, on its copy. (Log DEDUCED 85) -/
def takePart (m : MountProc) (copyB : Bool) (p : Nat) (r : SysRead) : MountProc :=
  if copyB then
    match r.user (lsnUpdate m.number p) with
    | some l => { m with partsB := Tbl.set [] m.partsB p l }
    | none => if r = .blank then { m with blankB := addNew m.blankB [p] } else { m with badB := addNew m.badB [p] }
  else
    match r.user (lsnUpdate m.number p) with
    | some l => { m with partsA := Tbl.set [] m.partsA p l }
    | none => if r = .blank then { m with blankA := addNew m.blankA [p] } else { m with badA := addNew m.badA [p] }

/-- The recorded-DIB slots have been read (R57). -/
def bindingKnown (s : State) (b : BayId) (m : MountProc) : State :=
  if m.recorded.isNone ∧ m.mastered.isNone then notMountable s b.val
  else s.modBay b.val fun y => { y with mount := some { m with step := .dma, number := 0 } }

/-- The sector of a layer that an LSN names: a data sector or a Thatch parity sector (R87). -/
def lsnSector (t : DiscType) (layers lsn : Nat) : Option (Nat × Nat × Nat) :=
  if lsn < 0x40000000 then lsnData t layers lsn
  else
    let l := (lsn - 0x40000000) / 0x1000000
    let n := (lsn - 0x40000000) % 0x1000000 / 4
    if l < layers ∧ n < t.blocks then some (l, n, t.dataSectors + lsn % 4) else none

/-- The home slot of the replacement sector that a rescan reads (R51, R64, R98). -/
def rescanHome (x : Dib) (binding : Binding) (layer : Nat) (l : List Byte) : Option Nat :=
  let m := parseMeta (metaOf l)
  match lsnSector x.dtype x.layers m.lsn with
  | none => none
  | some (sl, n, k) =>
    let e : Expected :=
      { lsn := m.lsn, layer := layer, remap := true, tpar := decide (x.dtype.dataSectors ≤ k)
        cpar := match binding with | .member _ i d _ _ => some (decide (d ≤ i)) | .unbound => some false | .unknown => none }
    if sl = layer ∧ accepts e l then some (homeAddr x.dtype layer n k) else none

/-- A seed is that of the LSN of a data sector; a parity sector is known by its LSN and flags (R98). -/
def seedFits (seed : Nat) (l : List Byte) : Bool :=
  let n := (parseMeta (metaOf l)).lsn
  decide (0x40000000 ≤ n) || scramblerSeed n == BitVec.ofNat 16 seed
/-- The sector of the present spare position decoded with the first of the seeds that are left (R98). -/
def trySeed (s : State) (b : BayId) (m : MountProc) (seed : Nat) (p : SlotReport) : State :=
  let j : LdpcJob := { bay := b, addr := p.addr, report := p, lsn := none
                       llr := m.scrambled.zipIdx.map (fun e => e.1.map (descramble (keystream (BitVec.ofNat 16 seed) e.2))) }
  (s.modBay b.val fun y => { y with mount := some m }).pushJob j
/-- The spare position is done with, and the next one is read; the last of them ends the mount. -/
def spareDone (s : State) (b : BayId) (m0 : MountProc) : State :=
  let m := { m0 with seeds := [], scrambled := [], trial := none }
  let x := m.dib
  match rescanNext x.dtype m.updates (defectMap x.dtype x.layers m.updates) (rescanFuel x.dtype) m.rescanLayer (m.rescanPos + 1) with
  | some (l, e) => s.modBay b.val fun y => { y with mount := some { m with rescanLayer := l, rescanPos := e } }
  | none => mountEnds s b m (decide (updateSlots x.issue ≤ m.number))
/-- A spare position has been read in a rescan: its LSN is unknown, so that seeds are tried (R64, R98). -/
def takeSpare (s : State) (b : BayId) (m : MountProc) (r : SysRead) : State :=
  let x := m.dib
  match r with
  | .scrambled p llr =>
    (match llr with
     | some y :: _ =>
       if llr.all (·.isSome) = false then spareDone s b m
       else match seedRank (y.map (fun v => decide (v < 0))) with
         | [] => spareDone s b m
         | seed :: rest => trySeed s b { m with seeds := seed :: rest, scrambled := llr, trial := some p } seed p
     | _ => spareDone s b m)
  | _ =>
    let home := match r, m.seeds with
      | .bytes l, seed :: _ => if seedFits seed l then rescanHome x m.binding m.rescanLayer l else none
      | _, _ => none
    match home, m.seeds.drop 1, m.trial with
    | some h, _, _ => spareDone s b { m with found := m.found ++ [⟨h, spareAddr x.dtype m.rescanLayer m.rescanPos⟩] }
    | none, seed :: rest, some p => trySeed s b { m with seeds := seed :: rest } seed p
    | _, _, _ => spareDone s b m
/-- A system sector read for a mount, at spiral and slot of the place that the mount waits for. -/
def mountTake (s : State) (b : BayId) (m : MountProc) (spiral slot : Nat) (env : Nat × Nat) (r : SysRead) : State :=
  let t := m.dtype.getD .plain
  match m.step with
  | .mastered =>
    let ok := match r.user (lsnMastered m.nextCopy) with
      | some l => if dibValid l false t then some (parseDib l) else none
      | none => none
    if ok.isSome ∨ 27 ≤ m.nextCopy then
      s.modBay b.val fun y =>
        { y with mount := some { m with mastered := ok, step := .recorded, nextCopy := 0, dibEnv := if ok.isSome then env else m.dibEnv } }
    else s.modBay b.val fun y => { y with mount := some { m with nextCopy := m.nextCopy + 1 } }
  | .recorded =>
    let m1 := { m with recordedSeen := m.recordedSeen || decide (r ≠ SysRead.blank) }
    let ok := match r.user (lsnRecorded m.nextCopy) with
      | some l =>
        let x := parseDib l
        if dibValid l true t && (match m.mastered with | some y => y.discId == x.discId | none => true) then some x else none
      | none => none
    if ok.isSome then bindingKnown s b { m1 with recorded := ok }
    else if 27 ≤ m.nextCopy then bindingKnown s b m1
    else s.modBay b.val fun y => { y with mount := some { m1 with nextCopy := m.nextCopy + 1 } }
  | .dma => judgeUpdate s b (takePart m (decide (slot = dmaSlot true m.number)) (spiral - 1) r)
  | .rescan => takeSpare s b m r
  | _ => s

/-! ## Other system reads -/

/-- A mastered-DIB copy read after a restart or a demand start (R271, R284): another disc takes the bay to SPINDOWN.
(Log DEDUCED 84) -/
def checkTake (s : State) (b : Nat) (r : SysRead) : State :=
  let y := s.bay b
  match r.user (lsnMastered y.chan.dibCopy), y.disc with
  | some l, some d =>
    if dibValid l false d.dtype = false then s.modChan b fun c => { c with dibCopy := (c.dibCopy + 1) % 28 }
    else
      let s1 := s.modBay b fun y => { y with dibCheck := false, chan := { y.chan with dibCopy := 0 } }
      if (parseDib l).discId = d.discId then s1 else (s1.logFree .mount 0x0405 b).enterSpindown b
  | _, _ => s.modChan b fun c => { c with dibCopy := (c.dibCopy + 1) % 28 }

/-- A recorded-DIB copy read back after a binding (R56, R171): one valid copy confirms it; with none the disc is read-only and
its course cannot open. -/
def bindTake (s : State) (b : Nat) (r : SysRead) : State :=
  match (s.bay b).write, (s.bay b).disc, s.courseOfBay b with
  | some w, some d, some c =>
    let i := (c.bays.findIdx? (fun x => x.val == b)).getD 0
    let ok := match r.user (lsnRecorded w.copy) with
      | some l => dibValid l true d.dtype && decide ((parseDib l).discId = d.discId)
      | none => false
    if ok then (s.modDisc b fun d => { d with dibDue := false }).modWrite b fun w => { w with phase := .blankScan }
    else if w.copy < 27 then s.modWrite b fun w => { w with copy := w.copy + 1 }
    else
      let s1 := s.modBay b fun y => { y with write := none, disc := y.disc.map fun d => { d with binding := .unknown, readOnly := true, dibDue := false } }
      openFails s1 c.handle stBindFailed i
  | _, _, _ => s

/-- A system sector read in a bay, where it is one of those that the bay reads next. -/
def sysTake (s : State) (b : BayId) (zone : Zone) (layer spiral slot : Nat) (env : Nat × Nat) (r : SysRead) : State :=
  let y := s.bay b.val
  match sysNeed y with
  | none => s
  | some q =>
    if q.zone ≠ zone ∨ q.layer ≠ layer ∨ !q.places.contains (spiral, slot) then s
    else match y.mount with
      | some m => mountTake s b m spiral slot env r
      | none => if q.kind = .dibCheck then checkTake s b.val r else bindTake s b.val r

end Sys2Proof.Machine
end

