-- ==== Sys2Proof/Machine/Channel.lean ====
section
/-! DEFINITION. The parts of a bay's read channel over one slot: what a beam's samples show, sync cases and blank slots, the
flywheel, timing recovery and the ridge PLL, equaliser adaptation, and the seam buffer (R100 to R132). -/

namespace Sys2Proof.Machine

open Sys2Proof

/-! ## What a beam's slot shows (R111, R113, R129) -/

/-- One beam's slot: its flagged blocks, the envelopes of its blocks and the reference after them, its erased channel bits, and the
marks detected in its own decisions, counted from the flywheel's prediction. -/
structure BeamObs where
  raw : BeamRaw
  flags : List Bool
  envs : List Nat
  ref : List Nat
  mask : List Bool
  syncs : List MarkHit
  resyncs : List MarkHit
  deriving DecidableEq, Repr
def BeamObs.beam (o : BeamObs) : Nat := o.raw.beam.val

/-- The equaliser set in use on a beam (R119, R123). -/
def eqInUse (s : State) (b beam : Nat) : Nat := if beam = 7 ∧ (s.bay b).chan.seamFault then 3 else s.pnat 0x040A b
/-- Decisions for sync come from the own-beam path, with the neighbour taps at zero (R113); defects from blocks aligned to the
prediction (R129). -/
def observe (s : State) (b : Nat) (t : DiscType) (layer : Nat) (x : BeamRaw) : BeamObs :=
  let sc := scanBlocks (s.pnat 0x040C b) (s.pnat 0x040D b) (s.beam (8 * b + x.beam.val)).envs (blocksOf t.preamble x.samples x.clipped)
  let mask := eraseMask t.preamble x.samples.length sc.flags []
  let taps := (eqTaps s b t layer x.beam.val (eqInUse s b x.beam.val)).oneSided
  let bits := decide01 (softBits (equalise taps x.samples [] []) [])
  { raw := x, flags := sc.flags, envs := sc.envs, ref := sc.ref, mask := mask
    syncs := markHits syncMark (s.pnat 0x0407 b) t.preamble 0 bits mask
    resyncs := markHits resyncMark (s.pnat 0x0408 b) t.preamble 0 bits mask }

/-! ## Sync cases (R111 to R117) -/

/-- The sync cases (R114, R115), by their codes of R154; `unsettled` is the combination that R114 leaves without a case: a sync
in the window that only resync 2 or 3, against the sync, confirms. (Log DESIGN CHOICE 75) -/
inductive SyncCase | clean | smallShift | earlyFalse | unconfirmed | missed | lost | first | unsettled
  deriving DecidableEq, Repr
def SyncCase.code : SyncCase → Nat
  | .clean => 0 | .smallShift => 1 | .earlyFalse => 2 | .unconfirmed => 3 | .missed => 4 | .lost => 5 | .first => 6
  | .unsettled => 3

/-- Resync 1 stands more than 4 cb from its place after a sync, within the window about its place after the prediction (R114). -/
def farResync (rtol awl : Nat) (o : BeamObs) (sync : Int) : Bool :=
  match resyncNear rtol o.resyncs 1 0 awl with
  | some e => decide (4 < (e - sync).natAbs)
  | none => false
/-- A beam's sync case with the flywheel PROVISIONAL or LOCKED, and the origin that it decodes from (R114).
(Log DESIGN CHOICE 75) -/
def syncCase (rtol awl : Nat) (o : BeamObs) : SyncCase × Int :=
  let near (i : Nat) (from_ : Int) : Option Int := resyncNear rtol o.resyncs i from_ 4
  match bestMark 48 0 (fun p => decide (p.natAbs ≤ awl)) o.syncs with
  | some m =>
    (match near 1 m.pos with
     | some d => if d.natAbs ≤ 1 then (.clean, m.pos) else (.smallShift, m.pos + d)
     | none =>
       if farResync rtol awl o m.pos || [1, 2, 3].any (fun i => (near i 0).isSome) then (.earlyFalse, 0)
       else if [2, 3].any (fun i => (near i m.pos).isSome) then (.unsettled, m.pos)
       else (.unconfirmed, m.pos))
  | none => match [1, 2, 3].findSome? (fun i => near i 0) with
    | some e => (.missed, e)
    | none => (.lost, 0)

/-- A sync that two of its three resyncs confirm (R115). -/
def confirmed (rtol : Nat) (o : BeamObs) (m : MarkHit) : Bool :=
  decide (2 ≤ ([1, 2, 3].filter (fun i => (resyncNear rtol o.resyncs i m.pos 1).isSome)).length)
/-- The origin that a full search accepts: a sync confirmed on some beam, with which every other beam that reports a sync agrees
(R115). (Log DEDUCED 77) -/
def searchOrigin (rtol awl : Nat) (os : List BeamObs) : Option Int :=
  (os.flatMap (fun o => (o.syncs.filter (confirmed rtol o)).map (·.pos))).find? (fun p =>
    os.all (fun o => o.syncs.isEmpty || o.syncs.any (fun m => decide ((m.pos - p).natAbs ≤ awl))))

/-! ## Blank slots (R131) -/

/-- The recorded reference of a layer, as sum and number of envelopes: of accepted sectors since MOUNT, before them of the DIB copy
read. -/
def envRef (s : State) (b layer : Nat) : Nat × Nat :=
  let y := s.bay b
  match y.disc, y.mount with
  | some d, _ => if (Tbl.get (0, 0) d.refEnv layer).2 = 0 then d.dibEnv else Tbl.get (0, 0) d.refEnv layer
  | none, some m => m.dibEnv
  | none, none => (0, 0)
/-- No mark is detected in any of a beam's windows, and nine tenths of the codeword area lie below BLANK_THR (R131).
(Log DEDUCED 76) -/
def beamBlank (t : DiscType) (unlocked : Bool) (rtol awl thr : Nat) (ref : Nat × Nat) (o : BeamObs) : Bool :=
  let marks := if unlocked then !o.syncs.isEmpty || !o.resyncs.isEmpty
    else o.syncs.any (fun m => decide (m.pos.natAbs ≤ awl)) || [1, 2, 3].any (fun i => (resyncNear rtol o.resyncs i 0 4).isSome)
  !marks && decide (90 ≤ lowPercent (areaBlocks t.preamble t.preamble o.envs) thr ref)

/-! ## What one beam's slot comes to (R114 to R117, R131, R135) -/

/-- A beam's slot: the case, what becomes of it, the origin that it decodes from, whether that origin counts for the flywheel's median,
and whether its samples are retained (R116). -/
structure BeamRead where
  obs : BeamObs
  case_ : SyncCase
  outcome : SlotOutcome
  origin : Int
  counts : Bool
  keep : Bool
  deriving DecidableEq, Repr

/-- What a beam reads, given the flywheel: `found` is the origin that a full search has accepted, `timing` that the beam's clock
holds. -/
def readBeam (unlocked : Bool) (rtol awl : Nat) (found : Option Int) (timing blank : Bool) (o : BeamObs) : BeamRead :=
  let bad (c : SyncCase) (keep : Bool) : BeamRead := ⟨o, c, if blank then .blank else .erased, 0, false, keep⟩
  if unlocked then
    match found with
    | none => bad .lost false
    | some x => match bestMark 48 x (fun p => decide ((p - x).natAbs ≤ awl)) o.syncs with
      | some m => if timing then ⟨o, .first, .pending, m.pos, true, true⟩ else bad .lost false
      | none => bad .lost false
  else
    let c := syncCase rtol awl o
    if timing = false then bad .lost true
    else match c.1 with
      | .clean | .smallShift => ⟨o, c.1, .pending, c.2, true, true⟩
      | .earlyFalse | .unconfirmed | .missed | .unsettled => ⟨o, c.1, .pending, c.2, false, true⟩
      | _ => bad .lost true

/-- The data beams of a disc type. -/
def dataBeam (t : DiscType) (o : BeamObs) : Bool := decide (t.firstSpiral ≤ o.beam)

/-! ## The flywheel (R103, R108 to R110, R115) -/

/-- How far the ridge's address words put the slot from where the flywheel has it: a word with good CRC, off by more than 2 cb
(R108). (Log DEDUCED 77) -/
def ridgeOff (t : DiscType) (start : Int) (o : SlotObs) : Option Int :=
  if t = .plain then none
  else (o.words.find? (fun w => decide (w.1.val = 0) && awGood w.2.1 && decide (2 < (awGrid w.2.1 - (start + w.2.2)).natAbs))).map
    (fun w => awGrid w.2.1 - (start + w.2.2))
/-- The median of the origins that count, the lower of two middle ones (R110). -/
def medianOrigin (xs : List BeamRead) : Option Int :=
  let l := ((xs.filter (·.counts)).map (·.origin)).mergeSort (fun a b => decide (a ≤ b))
  if l.isEmpty then none else some (l.getD ((l.length - 1) / 2) 0)

/-- The flywheel after a slot that it predicted at `pos` (R109, R110, R115). (Log DEDUCED 77) -/
def flyAfter (t : DiscType) (coastMax : Nat) (unlocked : Bool) (pos : Int) (found median : Option Int) (c : Channel) : Channel :=
  let next := pos + t.slotLen
  if unlocked then
    match found with
    | some x => { c with fly := .provisional, coast := 0, searchSlots := 0, pos := next + x }
    | none => { c with fly := .unlocked, searchSlots := c.searchSlots + 1, pos := next }
  else match median with
    | some e => { c with fly := .locked, coast := 0, searchSlots := 0, pos := next + e }
    | none =>
      if t = .plain ∧ coastMax ≤ c.coast + 1 then { c with fly := .unlocked, coast := 0, searchSlots := 0, pos := next }
      else { c with coast := c.coast + 1, pos := next }

/-! ## Timing (R104 to R107) -/

/-- A block of 64 cb holds part of a mark, for an origin (R105). -/
def markBlock (t : DiscType) (origin : Int) (k : Nat) : Bool :=
  let lo : Int := 64 * k
  let at_ : Int := t.preamble + origin
  [(at_, 48), (at_ + resyncAt 1, 24), (at_ + resyncAt 2, 24), (at_ + resyncAt 3, 24)].any (fun (e : Int × Int) =>
    decide (e.1 < lo + 64 ∧ lo < e.1 + e.2))

/-- One block of a beam's timing loop: frozen, it holds phase and frequency (R104, R105). -/
def loopBlock (n : Nat) (hold : Bool) (err : Int) (m : Beam) : Beam :=
  if hold then { m with frozen := m.frozen + 64, reacquire := m.reacquire || decide (16384 < m.frozen + 64) }
  else
    let p := Config.loopStep n m.phase m.freq err
    { m with phase := p.1, freq := p.2, frozen := 0, bw := n }
/-- A plain disc's beam over a slot (R104, R105): it acquires on the preamble within 256 cb, tracks with TR_BW, and freezes on defects,
marks and blank slots. (Log DESIGN CHOICE 151) -/
def timePlain (trBw : Nat) (x : BeamRead) (m : Beam) : Beam :=
  let blank := decide (x.outcome = .blank)
  let m1 := x.obs.raw.errs.zipIdx.foldl (fun (a : Beam) e =>
    loopBlock (if e.2 < 4 then Config.acquireCode else 12 - trBw)
      (blank || x.obs.flags.getD e.2 false || markBlock .plain x.origin e.2) e.1 a) (if blank then m else { m with reacquire := false })
  { m1 with trLock := if blank then m.trLock else !x.obs.raw.lostLock && !m1.reacquire }
/-- A ridged disc's data beam over a slot (R106, R107): on the ridge's frequency with its own offset, and a loop of a bandwidth of TR_BW
÷ 8, or of TR_BW while the ridge is unlocked. -/
def timeRidged (trBw : Nat) (ridge : Bool) (x : BeamRead) (m : Beam) : Beam :=
  let n := if ridge then 15 - trBw else 12 - trBw
  let m1 := x.obs.raw.errs.foldl (fun (a : Beam) e => loopBlock n false e a) m
  { m1 with trLock := if ridge then !x.obs.raw.lostLock else m.trLock && !x.obs.raw.lostLock
            offset := if ridge ∧ x.case_ = .clean then m.offset + roundDiv x.obs.raw.syncErr 8 else m.offset }

/-- One edge of the ridge, every 8 cb (R106, R107): while b0 is flagged the PLL coasts at its held frequency. -/
def ridgeEdge (n coastMax : Nat) (flagged : Bool) (e : Int) (c : Channel) : Channel :=
  if flagged then { c with ridgeCoasting := true, ridgeCoast := c.ridgeCoast + 8
                           ridgeOver := c.ridgeOver || (c.ridgeLock && decide (coastMax < c.ridgeCoast + 8)) }
  else
    let p := Config.loopStep n c.ridgePhase c.ridgeFreq (roundDiv (e * 65536) 1000)
    { c with ridgeCoasting := false, ridgeCoast := 0, ridgePhase := p.1, ridgeFreq := p.2 }
/-- The RMS edge error stays below 0.1 cb over 1,024 cb (R106). -/
def ridgeClean (edges : List Int) : Bool :=
  let l := edges.drop (edges.length - 128)
  decide (l.length = 128) && decide ((l.map (fun e => e * e)).foldl (· + ·) 0 < 128 * 10000)
/-- The ridge PLL over a slot: once unlocked by coasting it relocks by RIDGE_RELOCK (R106, R107). (Log DEDUCED 77) -/
def ridgeAfter (s : State) (b : Nat) (t : DiscType) (o : SlotObs) (flags : List Bool) (c : Channel) : Channel :=
  if t = .plain then c
  else
    let c1 := o.edges.zipIdx.foldl (fun (a : Channel) e =>
      ridgeEdge (12 - s.pnat 0x0404 b) (s.pnat 0x0405 b) (flags.getD (e.2 / 8) false) e.1 a) c
    { c1 with ridgeLock := c1.ridgeLock || (!c1.ridgeOver && !c1.ridgeCoasting && ridgeClean o.edges) }

/-! ## The seam (R121 to R123) -/

/-- The radius of S0 at data-band grid position `c`, in pm (R29). (Log DEDUCED 106) -/
def gridRadiusPm (c : Int) : Nat :=
  Nat.sqrt (Int.toNat (30000000000 * 30000000000 + c * 96000000000 * 1000000000000000 / 3141592653589793))
/-- The nominal turn of S0 that starts at a grid position, in 1/64 cb (R122). -/
def turn64 (c : Int) : Int := roundDiv (64 * 3141592653589793 * (2 * gridRadiusPm c + 1920000)) (50000 * 10 ^ 15)
/-- The samples at a fraction of a channel bit after the fourth of each window of eight (R103, R122). -/
def interp (phase : Nat) (w : List Int) : Int := if phase = 0 then w.getD 3 0 else Config.interpolate phase w

/-- S0's samples from a grid position on, 0 where none are held. -/
def liveSlice (live : List LiveSlot) (p : Int) (n : Nat) : List Int :=
  live.foldl (fun acc e => addSeq acc (sliceAt e.samples (p - e.grid) n)) (List.replicate n 0)
/-- Which of `n` samples of S0 from a grid position on are erased. -/
def liveMask (live : List LiveSlot) (p : Int) (n : Nat) : List Bool :=
  live.foldl (fun acc e => orSeq acc (sliceFill false e.mask (p - e.grid) n)) (List.replicate n false)
/-- The outer-neighbour samples of `n` positions of S7 from a grid position on: those of S0 one turn later (R122). -/
def outerChunk (live : List LiveSlot) (delta c : Int) (n : Nat) : List Int :=
  let d := turn64 c + delta
  ((windows 8 (liveSlice live (c + d / 64 - 3) (n + 7))).take n).map (interp (d % 64).toNat)
/-- A slot of S7 with the late pass brought up to S0's samples below `stop`, D taken anew every 64 cb (R121, R122). -/
def latePass (live : List LiveSlot) (delta stop : Int) : Nat → SeamSlot → SeamSlot
  | 0, x => x
  | fuel + 1, x =>
    let c := x.grid + x.outer.length
    let n := min 64 (x.part.length - x.outer.length)
    if n = 0 ∨ stop < c + (turn64 c + delta) / 64 + n + 5 then x
    else latePass live delta stop fuel
      { x with outer := x.outer ++ outerChunk live delta c n, outerMask := x.outerMask ++ liveMask live (c + (turn64 c + delta) / 64) n }
/-- S7's output as far as the late pass has come (R121); one-sided on a seam fault, its partial sums stand alone (R123). -/
def seamOut (t : Taps) (fault : Bool) (x : SeamSlot) : List Int :=
  let p := (x.part.take x.outer.length).map (· * 16384)
  if fault then p else addSeq p (fir t.outer x.outer)
/-- Its late pass is complete. -/
def SeamSlot.complete (x : SeamSlot) : Bool := decide (x.part.length ≤ x.outer.length)
/-- S7's decisions of the turn before as ±1, for `n` samples of S0 from a grid position on, 0 where there are none (R120, R121). -/
def seamLevels (delta : Int) (seam : List SeamSlot) (p : Int) (n : Nat) : List Int :=
  let d := (turn64 (p - turn64 p / 64) + delta) / 64
  seam.foldl (fun acc x => addSeq acc (sliceAt ((decide01 (softBits x.out [])).map level) (p - d - x.grid) n)) (List.replicate n 0)

/-- The steps of 1/64 cb that the tracking loop takes over a completed slot, one per 4,096 cb, by the sign of the correlation between the
outer-neighbour term and the PR error (R123). (Log DESIGN CHOICE 152) -/
def trackSeam (t : Taps) (x : SeamSlot) (c : Channel) : Channel :=
  let bits := decide01 (softBits x.out [])
  let prods := List.zipWith (· * ·) (fir t.outer x.outer) (List.zipWith (· - ·) (prTargets 0 0 0 bits) x.out)
  prods.foldl (fun (a : Channel) v =>
    if a.seamCount + 1 < 4096 then { a with seamCount := a.seamCount + 1, seamCorr := a.seamCorr + v }
    else
      let q := a.seamCorr + v
      { a with seamCount := 0, seamCorr := 0, seamDelta := a.seamDelta + (if q < 0 then -1 else if q = 0 then 0 else 1) }) c
/-- Tracking has moved Δ by more than 2 cb from the peak (R123). -/
def Channel.seamLost (c : Channel) : Bool := decide (128 < (c.seamDelta - c.seamPeak).natAbs)

/-- Where S0's samples for the search begin: one nominal turn after the first partial sums, past the offsets searched (R123). -/
def seamFrom (c : Channel) : Int :=
  match c.seam with
  | [] => 0
  | x :: _ => x.grid + turn64 x.grid / 64 + c.seamSearch
/-- The correlation of 32,768 cb of S0's live samples with the partial sums at an offset of Δ, in channel bits (R123).
(Log DESIGN CHOICE 152) -/
def seamCorrelation (c : Channel) (delta : Int) : Int :=
  let p := seamFrom c
  let d := turn64 (p - turn64 p / 64) / 64 + delta
  dot (liveSlice c.live p 32768) (c.seam.foldl (fun acc x => addSeq acc (sliceAt x.part (p - d - x.grid) 32768)) (List.replicate 32768 0))

/-! ## The equaliser's inputs and its adaptation (R118 to R120) -/

/-- A beam's samples as a neighbour's input: zeros from a slot found blank, or where there is no such beam (R118, R120). -/
def neighbour (obs : List BeamObs) (blank : List Nat) (v : Nat) : List Int :=
  match obs.find? (fun o => o.beam == v) with
  | some o => if blank.contains v then [] else o.raw.samples
  | none => []
/-- Erased channel bits of a neighbour. -/
def neighbourMask (obs : List BeamObs) (v : Nat) : List Bool :=
  match obs.find? (fun o => o.beam == v) with | some o => o.mask | none => []

/-- A position in the codeword area (R37), from an origin. -/
def inArea (t : DiscType) (origin : Int) (i : Nat) : Bool :=
  decide (origin + 48 ≤ (i : Int) - t.preamble ∧ (i : Int) - t.preamble < origin + 46560)
/-- Set 0 after a slot (R119): it adapts in the codeword area where neither the beam nor a neighbour is flagged. For b7, which adapts in
its late pass alone, `part` is the sum of its other two filters, whose samples are given as empty.
(Log DESIGN CHOICE 147) -/
def adapt (t : DiscType) (mu : Nat) (origin : Int) (taps : Taps) (ys part own inner outer : List Int) (masks : List (List Bool)) : Taps :=
  let n := ys.length
  let pad (k : Nat) (xs : List Int) : List (List Int) :=
    (windows (2 * k + 1) (List.replicate k 0 ++ xs ++ List.replicate (n + k - xs.length) 0)).take n
  let targets := addSeq (prTargets 0 0 0 (decide01 (softBits ys []))) (part.map (fun v => -(16384 * v)))
  let held := masks.foldl (fun acc m => orSeq acc (m.take n)) (List.replicate n false)
  lms mu taps (((pad 7 own).zip ((pad 3 inner).zip ((pad 3 outer).zip (targets.zip held)))).zipIdx.map (fun e =>
    (e.1.1, e.1.2.1, e.1.2.2.1, e.1.2.2.2.1, inArea t origin e.2 && !e.1.2.2.2.2)))

end Sys2Proof.Machine
end

