-- ==== Sys2Proof/Machine/Runs.lean ====
section
/-! DEFINITION. Read runs: what a bay in TRACK reads next, where a run begins and ends, and what a slot that it passes is read for
(R20, R68, R124, R125, R141, R148, R150, R172, R187, R188, R200, R366). -/

namespace Sys2Proof.Machine

open Sys2Proof

/-! ## Extent (R124, R125) -/

/-- Where a zone begins on the grid (R30). -/
def zoneOrigin : Zone → Int
  | .leadIn => -1927806976
  | .dataBand => 0
  | .leadOut => 80631758848
/-- The grid position at which a slot begins. -/
def slotGrid (t : DiscType) (z : Zone) (slot : Nat) : Int := zoneOrigin z + slot * t.slotLen
/-- A revolution in slots, with room for the offset searched, rounded up. -/
def turnSlots (s : State) (b : Nat) (t : DiscType) (z : Zone) (slot : Nat) : Nat :=
  ((turn64 (slotGrid t z slot) / 64).toNat + s.pnat 0x0411 b + 64) / t.slotLen + 1

/-- A run over places, as spiral and slot: with a lead revolution before the first slot on S0, and a tail revolution past
the last slot on S7. (Log DEDUCED 73) -/
def runOver (s : State) (b : Nat) (kind : RunKind) (z : Zone) (layer block : Nat) (ps : List (Nat × Nat)) : Option Run :=
  let t := chanType s b
  match ps.map (·.2) with
  | [] => none
  | a :: r =>
    let lo := r.foldl min a
    let hi := r.foldl max a
    let s0 := (ps.filter (fun p => p.1 == 0)).map (·.2)
    let s7 := (ps.filter (fun p => p.1 == 7)).map (·.2)
    let lead := match s0 with
      | x :: xs =>
        let m := xs.foldl min x
        if t = .plain ∧ s.pval 0x0410 b = 1 then min lo (m - turnSlots s b t z m) else lo
      | [] => lo
    let tail := match s7 with
      | x :: xs =>
        let m := xs.foldl max x
        max hi (m + turnSlots s b t z m)
      | [] => hi
    some { kind := kind, zone := z, layer := layer, first := lead, need := lo, last := tail, block := block, at_ := lead }

/-- Places of addresses on one layer. -/
def placesOf (as : List Nat) : List (Nat × Nat) := as.map (fun a => (psaSpiral a, psaSlot a))
/-- A run over the addresses of sectors: those of the user zone first, then those of the spare zone, on the layer of the
first of them. -/
def runAt (s : State) (b : Nat) (kind : RunKind) (block : Nat) (as : List Nat) : Option Run :=
  let t := bayType s b
  let user := as.filter (fun a => decide (psaSlot a < t.spareStart))
  let pick := if user.isEmpty then as else user
  match pick with
  | [] => none
  | a :: _ => runOver s b kind .dataBand (psaLayer a) block (placesOf (pick.filter (fun x => psaLayer x == psaLayer a)))

/-- Sectors of the data band that have been read and are being decoded, or wait for it in the seam buffer. -/
def inDecode (s : State) (b : Nat) : List SlotAddr :=
  ((s.recov.ldpc.filter (fun j => j.bay.val == b)).map (·.addr)) ++ (s.bay b).chan.seam.map (·.report.addr)
/-- The address of a slot address in the data band. -/
def addrOf (a : SlotAddr) : Nat := psa a.layer.val a.spiral.val a.slot

/-! ## Which run comes next -/

/-- The addresses that a block still has to read in its phase. -/
def unreadAddrs (s : State) (x : Block) : List Nat :=
  let ks : List Nat := match x.phase with
    | .reread _ _ => passLeft s x
    | _ => (blockKs s x.bay.val).filter (fun k => decide ((x.sec k).state = SecState.unread))
  ks.map (standingAddr s x.bay.val x.layer x.block)
/-- A block that waits for a run: to be read, or for a re-read pass that has slots left. -/
def waitsRun (s : State) (x : Block) : Bool :=
  match x.phase with
  | .reading => true
  | .reread _ _ => !(passLeft s x).isEmpty
  | _ => false

/-- The rank of a block's most urgent waiter: class, deadline and order (R366). (Log DEDUCED 74) -/
def blockRank (s : State) (x : Block) : Option (Nat × Nat × Nat) :=
  match waiters s x with
  | [] => none
  | c :: r => some (r.foldl (fun a d =>
      if d.cls < a.1 ∨ (d.cls = a.1 ∧ (d.deadline < a.2.1 ∨ (d.deadline = a.2.1 ∧ d.order < a.2.2))) then (d.cls, d.deadline, d.order)
      else a) (c.cls, c.deadline, c.order))
/-- One block before another: by class, re-read passes first within it, then by deadline and order (R150, R366).
(Log DEDUCED 74) -/
def goesFirst (a b : (Nat × Nat × Nat) × Block) : Bool :=
  if a.1.1 = b.1.1 then
    if a.2.isReread ≠ b.2.isReread then a.2.isReread
    else decide (a.1.2.1 < b.1.2.1 ∨ (a.1.2.1 = b.1.2.1 ∧ a.1.2.2 < b.1.2.2))
  else decide (a.1.1 < b.1.1)
/-- The read run that firmware starts next over a bay's target blocks: a re-read pass of one block, or the blocks to be read
that the most urgent waiter shares. (Log DEDUCED 74) -/
def blockRun (s : State) (b : Nat) : Option Run :=
  let xs := (s.recov.blocks.filter (fun x => x.bay.val == b && waitsRun s x)).filterMap (fun x => (blockRank s x).map (·, x))
  match xs with
  | [] => none
  | a :: r =>
    let top := r.foldl (fun t x => if goesFirst x t then x else t) a
    if top.2.isReread then runAt s b .reread top.2.block (unreadAddrs s top.2)
    else
      let group := (xs.filter (fun x => !x.2.isReread && x.2.layer == top.2.layer && decide (x.1 = top.1))).map (·.2)
      runAt s b .read 0 (group.flatMap (unreadAddrs s))

/-- Addresses of a verify segment that its passes have still to read (R187). -/
def verifyAddrs (t : DiscType) (w : WriteSess) (stop : Nat) : List Nat :=
  (((List.range (stop - w.segment)).map (w.segment + ·)).flatMap (fun n =>
    (List.range t.blockSectors).map (homeAddr t w.layer n))).filter (fun a => !w.bad.contains a && !w.judged.contains a)
/-- Addresses of the spare-zone run in progress that are recorded and not yet read back (R188). -/
def spareAddrs (t : DiscType) (w : WriteSess) : List Nat :=
  (w.spares.filter (fun x => decide (x.state = .recorded))).map (fun x => spareAddr t w.layer x.pos)
/-- The blank scan's run: from the first slot of the session's first block (R172). -/
def scanRun (s : State) (b : Nat) (t : DiscType) (w : WriteSess) : Option Run :=
  runOver s b .blankScan .dataBand w.layer 0 [(1, t.userStart + t.firstIndex w.start), (1, t.userStart + t.userSlots - 1)]

/-- The run that a bay in TRACK starts next (R68, R150, R172, R187, R188, R200, R271, R366): what a mount, a check or a binding reads,
then a verify pass or the read-back of replacements, which READs wait for, then target blocks, then a blank scan.
(Log DEDUCED 74) -/
def nextRun (s : State) (b : Nat) : Option Run :=
  let y := s.bay b
  match sysNeed y with
  | some q =>
    if (inDecode s b).any (fun a => decide (a.zone = q.zone ∧ a.layer.val = q.layer) && q.places.contains (a.spiral.val, a.slot)) then none
    else runOver s b q.kind q.zone q.layer 0 q.places
  | none =>
    if y.mount.isSome then none
    else match y.disc, y.write with
      | some d, some w =>
        let left (as : List Nat) : List Nat := as.filter (fun a => !(inDecode s b).any (fun x => addrOf x == a))
        (match w.phase with
         | .verifying => runAt s b .verifyPass 0 (left (verifyAddrs d.dtype w (w.boundary d.dtype)))
         | .replacing => if w.spares.any (fun x => decide (x.state = .waiting)) then none
           else runAt s b .replacement 0 (left (spareAddrs d.dtype w))
         | .ready => (match s.courseOfBay b with
           | some c => if verifyDue s c b w then none else blockRun s b
           | none => blockRun s b)
         | .blankScan => (blockRun s b).orElse (fun _ => if 140 ≤ w.scanBlank then none else scanRun s b d.dtype w)
         | _ => blockRun s b)
      | some _, none => blockRun s b
      | none, _ => none

/-- A run may start: TRACK, registered, at speed, no sequence of the servo under way, the group not parked, and firmware to
start it (R268, R283, R366, R474). (Log DEDUCED 73) -/
def mayRun (s : State) (b : Nat) : Bool :=
  let y := s.bay b
  let v := y.servo
  canServe s && decide (y.state = .track) && y.chan.run.isNone && v.registered && v.tracking && !v.trackSettling
    && v.seek.isNone && v.jump.isNone && v.trackJump.isNone && y.spin.atSpeed && !parked s b

/-! ## A run begins (R115, R123, R134, R138, R148, R149) -/

/-- The setpoint offsets and the read power of a re-read pass (R148, R149). -/
def passSettings (s : State) (b : Nat) (x : Block) : State :=
  match x.phase with
  | .reread 5 p =>
    let f : Int := if p = 1 then 5 * x.focRetry else if p = 2 then -(5 * x.focRetry) else 0
    let k : Int := if p = 3 then 5 * x.trkRetry else if p = 4 then -(5 * x.trkRetry) else 0
    writeOffsets (s.modServo b fun v => { v with focusOff := f, trackOff := k }) b
  | .reread _ p =>
    match raisedPower s b x.layer p with
    | some v => (s.modServo b fun w => { w with powerUp := v, powerBase := (s.bay b).welt.readPwr }).modWelt b
        fun w => { w with readPwr := v }
    | none => s
  | _ => s

/-- A run starts as its first slot comes: the seam is measured anew, and the parameters of a run are taken.
(Log DEDUCED 73) -/
def beginRun (s : State) (b : Nat) (r : Run) : State :=
  let s1 := s.modBay b fun y =>
    { y with state := match r.kind with | .verifyPass | .replacement => .verify | _ => .read
             chan := { y.chan with run := some r, seamFault := false, seamDelta := 0, seamPeak := 0, seamSearch := s.pnat 0x0411 b
                                   seamFound := false, seamCount := 0, seamCorr := 0, seam := [], live := [], retryFullRun := false
                                   retrySlots := s.pnat 0x0413 b } }
  match r.kind with
  | .reread =>
    (match s1.block? b r.layer r.block with
     | some x => (passSettings s1 b x).modBlock b r.layer r.block fun x =>
         { x with passAt := some (x.passAt.getD s1.now), resuming := false }
     | none => s1)
  | .verifyPass | .replacement => s1.modWrite b fun w => { w with resumeBy := none }
  | .blankScan => s1.modWrite b fun w => { w with scanBlank := 0 }
  | _ => s1

/-- A newly loaded disc's type (R36, R68, R270): once registration is correct, from an address word of b0 with CRC good on L0, and whether
S0's pre-format shows the ridge. -/
def findType (s : State) (b : Nat) (o : SlotObs) : State :=
  let y := s.bay b
  match y.mount with
  | some m =>
    if (m.step = .spinUp ∨ m.step = .discType) ∧ y.state = .track ∧ y.servo.registered ∧ o.layer = 0
        ∧ o.words.any (fun w => decide (w.1.val = 0) && awGood w.2.1 && decide (awLayer w.2.1 = 0)) then
      s.modBay b fun y => { y with mount := some { m with step := .mastered, nextCopy := 0, dtype := some (if o.ridge then .ridged else .plain) } }
    else s
  | none => s
/-- The run that a slot belongs to: the one in progress, or one that starts here. A run starts at or before its first
slot. (Log DEDUCED 73) -/
def runHere (s : State) (b : Nat) (o : SlotObs) : State :=
  let s1 := findType s b o
  if mayRun s1 b = false then s1
  else match nextRun s1 b with
    | some r => if r.zone = o.zone ∧ r.layer = o.layer.val ∧ o.slot ≤ r.first then beginRun s1 b r else s1
    | none => s1
/-- A slot belongs to the run in progress. -/
def inRun (s : State) (b : Nat) (z : Zone) (layer slot : Nat) : Bool :=
  match (s.bay b).chan.run with
  | some r => decide (r.zone = z ∧ r.layer = layer ∧ r.first ≤ slot)
  | none => false

/-! ## What a slot is read for -/

/-- Layer, block, `k` and REMAP of the sector that a slot of a spiral carries, as the disc's map has it (R89, R93). -/
def sectorOfSlot (d : Disc) (layer spiral slot : Nat) : Option (Nat × Nat × Nat × Bool) :=
  let t := d.dtype
  let a := psa layer spiral slot
  if t.spareStart ≤ slot then
    match d.defects.find? (fun e => e.repl == a) with
    | some e => (sectorAt t (psaSpiral e.home) (psaSlot e.home - t.userStart)).map (fun p => (psaLayer e.home, p.1, p.2, true))
    | none => none
  else if slot < t.userStart ∨ d.defects.any (fun e => e.home == a) then none
  else (sectorAt t spiral (slot - t.userStart)).map (fun p => (layer, p.1, p.2, false))

/-- What a slot of a spiral is read for: a system sector, a sector under verification, a replacement, or a sector of a target block,
as layer, block, `k` and REMAP. -/
inductive SlotUse | system | verify (n k : Nat) | spare (home : Nat) | block (l n k : Nat) (remap : Bool) | nothing
  deriving DecidableEq, Repr

/-- The verify pass's sector at an address, as block and `k` (R187). -/
def verifySector (t : DiscType) (w : WriteSess) (a : SlotAddr) : Option (Nat × Nat) :=
  if a.layer.val ≠ w.layer ∨ a.slot < t.userStart ∨ w.judged.contains (addrOf a) ∨ w.bad.contains (addrOf a) then none
  else match sectorAt t a.spiral.val (a.slot - t.userStart) with
    | some (n, k) => if w.segment ≤ n ∧ n < w.boundary t then some (n, k) else none
    | none => none
/-- A sector of a target block at an address. -/
def blockUse (s : State) (b : Nat) (d : Disc) (a : SlotAddr) : SlotUse :=
  match sectorOfSlot d a.layer.val a.spiral.val a.slot with
  | some (l, n, k, remap) => if (s.block? b l n).isSome then .block l n k remap else .nothing
  | none => .nothing
/-- What a slot of the lead or tail, or of a run, is read for; one that nothing needs is reported only (R124, R135).
(Log DESIGN CHOICE 179) -/
def slotUse (s : State) (b : Nat) (a : SlotAddr) : SlotUse :=
  let y := s.bay b
  let sys := match sysNeed y with
    | some q => decide (q.zone = a.zone ∧ q.layer = a.layer.val) && q.places.contains (a.spiral.val, a.slot)
    | none => false
  if sys then .system
  else if a.zone ≠ .dataBand then .nothing
  else match y.disc, y.write with
    | none, _ => .nothing
    | some d, none => blockUse s b d a
    | some d, some w =>
      (match w.phase with
       | .verifying => (match verifySector d.dtype w a with
         | some (n, k) => .verify n k
         | none => blockUse s b d a)
       | .replacing => (match w.spares.find? (fun x => decide (x.state = .recorded) && (spareAddr d.dtype w.layer x.pos == addrOf a)) with
         | some x => .spare x.home
         | none => blockUse s b d a)
       | _ => blockUse s b d a)

/-- The LSN that a reader expects at a slot (R87, R92, R127). -/
def slotLsn (s : State) (b : Nat) (a : SlotAddr) : Option Nat :=
  match slotUse s b a, (s.bay b).disc with
  | .system, _ => sysLsn (s.bay b) a.spiral.val
  | .verify n k, some d => some (lsnOf d.dtype a.layer.val n k)
  | .spare h, some d => (sectorAt d.dtype (psaSpiral h) (psaSlot h - d.dtype.userStart)).map (fun p => lsnOf d.dtype a.layer.val p.1 p.2)
  | _, some d => if a.zone = .dataBand then
      (sectorOfSlot d a.layer.val a.spiral.val a.slot).map (fun p => lsnOf d.dtype p.1 p.2.1 p.2.2.1) else none
  | _, none => none

/-! ## A run ends (R125, R172) -/

/-- A sector that has been read is still owed to what it was read for. -/
def owed (s : State) (b : Nat) (a : SlotAddr) : Bool :=
  match slotUse s b a with
  | .nothing => false
  | .block l n k _ => (match s.block? b l n with
    | some x => decide ((x.sec k).state = .decoding) && ((x.sec k).report.map (·.addr) == some a)
    | none => false)
  | _ => true
/-- A run ends after its tail, once the late pass has reached what it read on S7; a run that nothing waits for ends at the next slot
boundary, and the blank scan where it has found its 140 blank indices. (Log DEDUCED 73) -/
def settleRun (s : State) (b slot : Nat) : State :=
  match (s.bay b).chan.run with
  | none => s
  | some r =>
    let s1 := s.modChan b fun c => { c with run := some { r with at_ := slot } }
    let c := (s1.bay b).chan
    let scanned := decide (r.kind = .blankScan) && (match (s1.bay b).write with | some w => decide (140 ≤ w.scanBlank) | none => true)
    let past := decide (r.last ≤ slot) && !c.seam.any (fun x => owed s1 b x.report.addr)
    if r.aborted ∨ scanned ∨ past then
      let s2 := (s1.endRun b).modBay b fun y => { y with state := match y.state with | .read | .verify => .track | v => v }
      match r.kind with
      | .verifyPass | .replacement => s2.modWrite b fun w => { w with resumeBy := some s2.resumeLimit }
      | _ => s2
    else s1

end Sys2Proof.Machine
end

