-- ==== Sys2Proof/Machine/WriteOps.lean ====
section
/-! DEFINITION. What the write path records: the sectors of a course's rows on each member, the write strategy, the close of
the sessions and the contents of DMA updates (R170 to R199). -/

namespace Sys2Proof.Machine

open Sys2Proof

/-! ## The close's boundary (R76, R190, R373) -/

/-- Missing CSNs whose data disc has a session open become fill sectors of that session (R76, R373, R374).
(Log DEDUCED 87, 88) -/
def fillMissing (s : State) (handle : Nat) : State :=
  match s.course? handle with
  | none => s
  | some c =>
    c.missing.foldl (fun a n =>
      let i := csnDisc c.dtype c.d n
      match (c.bays[i]?).bind (fun b => openSeq (a.bay b.val).write) with
      | none => a
      | some seq =>
        let m := csnRow c.dtype c.d n
        let l := rowLayer c.dtype m
        let lsn := lsnOf c.dtype l (rowBlock c.dtype m) (csnK c.dtype n)
        a.modCourse handle fun c =>
          { c with missing := c.missing.filter (· != n)
                   buf := c.buf ++ [⟨n, encodeSector 0 lsn 0 seq l false true none (zeros 4096)⟩] }) s

/-- A close of a course's sessions is due (R190). (Log DEDUCED 90) -/
def closeDue (s : State) (c : Course) : Bool :=
  !c.waits.isEmpty || decide (s.mode = .quiesce) || c.full || c.bays.any (fun b => match (s.bay b.val).write with
    | some w => decide (w.segs ≤ w.segmentsDone) || decide (c.dtype.blocks ≤ w.boundary c.dtype ∧ w.phase ≠ .recording)
    | none => false)
/-- The common row boundary at which the sessions will close: the furthest that any of them is bound for (R190).
(Log DEDUCED 90) -/
def noteClose (s : State) (handle : Nat) (idle : Bool) : State :=
  match s.course? handle with
  | none => s
  | some c =>
    if c.closing.isSome ∨ c.opening.isSome ∨ c.stopped ∨ (closeDue s c || idle) = false then s
    else
      let at_ := c.bays.filterMap (fun b => (s.bay b.val).write.map (fun w => w.base c.dtype + limitBlock s c b.val w))
      if at_.isEmpty then s
      else s.modCourse handle fun c => { c with closing := some (at_.foldl max c.committed) }

/-! ## OPC (R177, R178) -/

/-- An asymmetry β = (A⁺ + A⁻) ÷ (A⁺ − A⁻), as numerator and positive denominator; none where it cannot be measured. -/
def asymmetry (p : Option (Int × Int)) : Option (Int × Int) :=
  match p with
  | some (a, c) => if 0 < a - c then some (a + c, a - c) else none
  | none => none
/-- The target, in 0.5 %, lies between the asymmetries of two slots. (Log DEDUCED 91) -/
def brackets (target : Int) (x y : Int × Int) : Bool :=
  (decide (200 * x.1 ≤ target * x.2) && decide (target * y.2 ≤ 200 * y.1))
    || (decide (target * x.2 ≤ 200 * x.1) && decide (200 * y.1 ≤ target * y.2))
/-- Power of slot `i` of a unit, in 1/200 of 0.01 mW. (Log DEDUCED 91) -/
def opcStep (p0 : Nat) (h : Hint) (i : Nat) : Int := 200 * p0 + ((i : Int) - 16) * h.step * h.startPower
/-- What an OPC unit yields. (Log DEDUCED 91) -/
inductive OpcFind | found (p : Int) | edge (p : Int) | failed
  deriving DecidableEq, Repr
def opcResult (p0 : Nat) (h : Hint) (peaks : List (Option (Int × Int))) : OpcFind :=
  let bs := (peaks.map asymmetry).take 32
  let good := bs.zipIdx.filterMap (fun e => e.1.map (fun v => (e.2, v)))
  if good.length < 8 then .failed
  else
    match (List.range 31).findSome? (fun i => match (bs.getD i none), (bs.getD (i + 1) none) with
        | some x, some y => if brackets h.asymmetry x y then some (i, x, y) else none
        | _, _ => none) with
    | some (i, x, y) =>
      let d := 200 * (y.1 * x.2 - x.1 * y.2)
      let q := opcStep p0 h i
      if d = 0 then .found (roundDiv q 200)
      else
        let num := (h.asymmetry * x.2 - 200 * x.1) * y.2 * (opcStep p0 h (i + 1) - q)
        .found (roundDiv (q * d.natAbs + (if d < 0 then -num else num)) (200 * d.natAbs))
    | none =>
      let far (v : Int × Int) : Nat := (200 * v.1 - h.asymmetry * v.2).natAbs
      let best := good.foldl (fun (a : Option (Nat × Int × Int)) e => match a with
        | none => some e
        | some x => if far e.2 * x.2.2.toNat < far x.2 * e.2.2.toNat then some e else some x) none
      match best with
      | some e => .edge (roundDiv (opcStep p0 h e.1) 200)
      | none => .failed

/-! ## The write strategy (R181 to R183, R221) -/

/-- The write-strategy record of a layer for the present head band, at a peak power (R181). -/
def strategyAt (s : State) (b l peak : Nat) : List Byte :=
  let h := min 3 (s.bay b).welt.band.level
  let hint := ((s.bay b).disc.bind (fun d => d.hints[l]?)).getD default
  let part (ratio : Nat) : Nat := (roundDiv (peak * ratio) 256).toNat
  let edge (base : Int) (id : Nat) : List Byte := (List.range 7).flatMap (fun r =>
    beBytes 1 (unsignedOf 8 (clampInt (-32) 31 (base + s.pval id (28 * l + 7 * h + r)))))
  beBytes 2 peak ++ beBytes 2 (part hint.biasRatio) ++ beBytes 2 (part hint.coolRatio) ++ beBytes 2 hint.readPower
    ++ edge hint.lead 0x0501 ++ edge hint.trail 0x0502
    ++ (List.range 7).flatMap (fun r => beBytes 1 (s.pnat 0x0503 (28 * l + 7 * h + r))) ++ zeros 3
/-- That of a session's layer, from its OPC peak power. (Log DEDUCED 91) -/
def strategy (s : State) (b : Nat) (w : WriteSess) : List Byte :=
  let h := min 3 (s.bay b).welt.band.level
  let l := w.layer
  strategyAt s b l (roundDiv (w.opcPower * s.pval 0x0500 (4 * l + h)) (s.pnat 0x0500 (4 * l + min 3 w.opcBand))).toNat

/-- The record that a session needs is asked for: loaded into a register that is neither active nor about to be (R221).
(Log DEDUCED 92) -/
def wantRecord (s : State) (b : Nat) (r : List Byte) : State :=
  let v := (s.bay b).welt
  if v.loadRec = r ∨ v.loadReg.isSome then s
  else
    let busy := [v.active, v.nextReg]
    let reg := ((List.range 4).find? (fun x => !busy.contains (some x))).getD 0
    s.modWelt b fun v => { v with loadReg := some reg, loadRec := r }
/-- A first slot of a block comes (R183): a confirmed register becomes the active one. (Log DEDUCED 92) -/
def blockRecord (s : State) (b : Nat) : State :=
  let v := (s.bay b).welt
  match (s.bay b).write, v.nextReg with
  | some _, some x => (s.modWelt b fun v => { v with active := some x, nextReg := none, switchAt := some (x, (v.stream.getD 0 []).length) }).modWrite b fun w => { w with record := v.loadRec }
  | _, _ => s
/-- What the session's record has become is asked for at once, so that it has been loaded by the next first slot (R183). -/
def keepRecord (s : State) (b : Nat) : State :=
  match (s.bay b).write with
  | some w => wantRecord s b (strategy s b w)
  | none => s
/-- The record of the layer and band is confirmed in a register. (Log DEDUCED 92) -/
def recordReady (s : State) (b : Nat) (w : WriteSess) : Bool :=
  let v := (s.bay b).welt
  v.loadReg.isNone && decide (v.loadRec = strategy s b w) && (v.nextReg.isSome || v.active.isSome)

/-! ## What is recorded (R37 to R42, R53, R54, R58, R177, R185) -/

/-- The recording spiral-slots of the present slot, with block, `k` and address: blocks completed earlier are passed over (R173). -/
def slotSectors (t : DiscType) (w : WriteSess) : List (Nat × Nat × Nat) :=
  t.spiralList.filterMap fun v =>
    match sectorAt t v w.j with
    | none => none
    | some (n, k) =>
      let a := userAddr t w.layer v w.j
      if w.low ≤ n ∧ n < w.limit t ∧ !w.bad.contains a then some (n, k, a) else none
/-- A spiral-slot of a session's layer holds something: of an earlier block, found not blank or defective, or recorded since the feed
last went on (R42, R62). -/
def slotHolds (t : DiscType) (w : WriteSess) (v j : Nat) : Bool :=
  match sectorAt t v j with
  | none => false
  | some (n, _) => decide (n < w.low) || w.bad.contains (userAddr t w.layer v j) || decide (j < w.j ∧ n < w.limit t)
/-- A sector as it is recorded in a user-zone slot of the session, beside its neighbours (R42). -/
def userCells (t : DiscType) (w : WriteSess) (a : Nat) (sector : List Byte) (post : Nat) : List (Option Bool) :=
  let v := psaSpiral a
  linked (0 < w.j && slotHolds t w v (w.j - 1)) (slotHolds t w v (w.j + 1)) (slotCells t sector post)
/-- A sector's bytes as its replacement carries them: REMAP set (R83). -/
def remapped (bytes : List Byte) : List Byte :=
  let m := parseMeta (metaOf bytes)
  sectorBytes (userOf bytes) { m with flags := { m.flags with remap := true } }.bytes
/-- The block of a home address. -/
def blockOfAddr (t : DiscType) (a : Nat) : Nat :=
  match sectorAt t (psaSpiral a) (psaSlot a - t.userStart) with
  | some (n, _) => n
  | none => 0
/-- A replacement as it is recorded (R42, R83, R188): the spare position before it on its spiral has been used. -/
def spareCells (b : Nat) (c : Course) (w : WriteSess) (x : SpareRec) : List (Option Bool) :=
  let t := c.dtype
  let sector := match sectorAt t (psaSpiral x.home) (psaSlot x.home - t.userStart) with
    | some (n, k) => (c.blockSector (c.memberAt b) (w.base t + n) k).getD []
    | none => []
  linked (decide (t.spirals ≤ x.pos)) false (slotCells t (remapped sector) 64)

/-- The recorded DIB of a disc (R54). -/
def Disc.dib (d : Disc) (course member dd pp seq : Nat) : Dib :=
  { issue := d.issue, dtype := d.dtype, layers := d.layers, recorded := true, discId := d.discId, maker := d.maker, lot := d.lot
    course := course, member := member, d := dd, p := pp, bindSeq := seq, hints := d.hints }
/-- A disc is bound (R53, R54, R56): its 28 recorded-DIB copies are recorded, and it counts as bound from then on. -/
def bindDisc (s : State) (b : BayId) (c : Course) (seq : Nat) : State :=
  match (s.bay b.val).disc with
  | none => s
  | some d =>
    let i := c.memberAt b.val
    let user := (d.dib c.id i c.d c.p seq).bytes
    let s1 := (List.range 28).foldl (fun a n => a.send (.recordSystem b ⟨.leadIn, 0, Fin.ofNat 8 (dibSpiral n), dibSlot true n⟩
      ((slotCells d.dtype (systemSector (lsnRecorded n) seq user) 64).map some))) s
    s1.modDisc b.val fun d => { d with binding := .member c.id i c.d c.p seq, dibDue := true }
/-- Both copies of an update recorded (R58, R192): copy A's four parts before copy B's, each beside the number before (R42). -/
def recordUpdate (s : State) (b : BayId) (t : DiscType) (u : DmaUpdate) : State :=
  ([false, true] : List Bool).foldl (fun a copyB => (List.range 4).foldl (fun a p =>
    a.send (.recordSystem b ⟨.leadOut, 0, Fin.ofNat 8 (1 + p), dmaSlot copyB u.number⟩
      (linked (decide (0 < u.number)) false
        (slotCells t (systemSector (lsnUpdate u.number p) u.seq ((u.bytes.drop (4096 * p)).take 4096)) 64)))) a) s

/-! ## The write stream (R218 to R220) -/

/-- The next segment of a bay's write stream on both lanes: DL0 carries beams b0 to b3, DL1 b4 to b7, and both the same switch. -/
def sendSegment (s : State) (b : BayId) : State :=
  let w := (s.bay b.val).welt
  let beams := (List.range 8).map (fun i => (w.stream.getD i []).take 3200)
  let open0 := (List.range 8).map (fun i => w.gates.getD i false)
  let sw := match w.switchAt with | some (r, o) => if o < 3200 then some (r, o) else none | none => none
  let s1 := s.sendLane b 0 (segmentBlocks 0 w.segment.toNat true (beams.take 4) (open0.take 4) sw)
  let s2 := s1.sendLane b 1 (segmentBlocks 1 w.segment.toNat true (beams.drop 4) (open0.drop 4) sw)
  s2.modWelt b.val fun w =>
    { w with stream := w.stream.map (·.drop 3200), segment := w.segment + 1
             gates := (List.range 8).map (fun i => (gateChanges (open0.getD i false) (beams.getD i [])).2)
             switchAt := match w.switchAt with | some (r, o) => if o < 3200 then none else some (r, o - 3200) | none => none }
/-- Whole segments of the stream, sent. -/
def sendSegments (s : State) (b : BayId) : State :=
  (List.range (((s.bay b.val).welt.stream.getD 0 []).length / 3200)).foldl (fun a _ => sendSegment a b) s
/-- `len` channel bits of every beam join the stream: those of the spirals that record, and read power on the others (R173, R220).
(Log DESIGN CHOICE 163) -/
def feedStream (s : State) (b : BayId) (len : Nat) (cells : List (Nat × List (Option Bool))) : State :=
  let beam (i : Nat) : List (Option Bool) := match cells.find? (fun e => e.1 == i) with
    | some e => (e.2 ++ List.replicate (len - e.2.length) none).take len
    | none => List.replicate len none
  sendSegments (s.modWelt b.val fun w => { w with stream := (List.range 8).map (fun i => w.stream.getD i [] ++ beam i) }) b
/-- The stream begins: its first channel bit stands at an offset of the segment that window *n* − 2 sends. -/
def beginStream (s : State) (b offset : Nat) : State :=
  s.modWelt b fun w => { w with stream := List.replicate 8 (List.replicate (offset % 3200) none), segment := s.stitch16 + 2, gates := [], switchAt := none }
/-- The stream ends at read power: its last segment is filled. -/
def endStream (s : State) (b : Nat) : State :=
  match Nat.decLt b 16 with
  | .isTrue h =>
    let n := ((s.bay b).welt.stream.getD 0 []).length
    let s1 := if n = 0 then s else feedStream s ⟨b, h⟩ (3200 - n) []
    s1.modWelt b fun w => { w with stream := [] }
  | .isFalse _ => s

/-! ## The updates of a close (R59, R64, R191, R192, R196 to R198) -/

/-- The session's entries for a close at a block, in ascending block order, after those that restate a rescan where all fit, and the
number of the latter (R64, R198). (Log DEDUCED 125) -/
def planUpdates (d : Disc) (w : WriteSess) (stop : Nat) : List (Nat × Defect) × Option Nat :=
  let mine := (w.entries.filter (fun e => decide (e.1 < stop))).mergeSort (fun a b => decide (a.1 ≤ b.1))
  if d.rescan ∧ d.defects.length + mine.length ≤ 2032 * (updateSlots d.issue - d.nextUpdate) then
    (d.defects.map (fun e => (0, e)) ++ mine, some d.defects.length)
  else (mine, none)

/-- The highest block below which every entry fits in update 511; entries below the old append point do not limit it.
(Log DEDUCED 125) -/
def lastFit (old stop : Nat) (es : List (Nat × Defect)) : Nat :=
  match (es.drop 2032).map (·.1) with
  | [] => stop
  | x :: _ => max old (min stop x)

/-- The update that a member records next: its content, the entries it takes, and whether it is the last of its content.
`stop` is the append point of the close on the session's layer. (Log DEDUCED 90, 125) -/
def nextContent (d : Disc) (w : WriteSess) (stop : Nat) : DmaUpdate × Nat × Bool :=
  let u := d.nextUpdate
  let last := decide (u + 1 = updateSlots d.issue)
  let old := d.append.getD w.layer 0
  let seal_ := w.contentDone && w.sealDue
  let app := if last then lastFit old stop w.todo else stop
  let todo := if last then w.todo.filter (fun e => decide (e.1 < app ∨ e.1 < old)) else w.todo
  let es := todo.take 2032
  let final := last || decide (todo.length ≤ 2032)
  let set6 (l : List Nat) (v : Nat) : List Nat := ((l ++ List.replicate 6 0).take 6).set w.layer v
  let opc := decide (0 < w.opcPower)
  ({ number := u, issue := d.issue
     flags := bitNat (seal_ && final && !last) + 2 * bitNat last + 4 * bitNat w.restating
     discId := d.discId, seq := w.seq, cumulative := d.cumulative + es.length
     append := if final ∧ !seal_ then set6 d.append app else d.append
     nextOpc := if opc then set6 d.nextOpc w.nextOpc else d.nextOpc
     lastOpc := if opc then set6 d.lastOpc w.opcPower else d.lastOpc
     spareUsed := d.spareUsed, entries := es.map (·.2) }, es.length, final)

/-- A disc after a valid update (R61, R63, R65). -/
def Disc.updated (d : Disc) (u : DmaUpdate) (restated : Bool) : Disc :=
  { d with append := u.append, nextOpc := u.nextOpc, lastOpc := u.lastOpc, nextUpdate := u.number + 1
           cumulative := u.cumulative, defects := u.entries.foldl standEntry d.defects, rescan := d.rescan && !restated
           usedSeqs := addNew d.usedSeqs [u.seq], sealed := d.sealed || (u.isSealed && !u.isFull), full := d.full || u.isFull }

/-! ## The end of a close (R190, R193, R196, R199) -/

/-- Rows committed on every member. -/
def committedRows (s : State) (c : Course) : Nat :=
  let ends := c.bays.map (fun b => match (s.bay b.val).disc with | some d => d.rowsEnd | none => 0)
  match ends with
  | [] => 0
  | x :: r => r.foldl min x

/-- A command that waited for the close of a course completes (R193, R196, R378). -/
def endClose (s : State) (c : Course) (w : CloseWait) : State :=
  match w.releaseBay with
  | some b => goRelease (freeCourse s c.handle) b.val w.q w.tag
  | none =>
    let s1 := if (s.cmd? w.q w.tag).isSome then s.finish w.q w.tag 0 stSuccess 0 0 noneLost else s
    if w.releaseCourse then freeCourse s1 c.handle else s1

/-- Every member has ended its part of a close: rows committed leave the write buffer, commands that waited for them end, and
a course that can take no more rows is full. -/
def closeEnds (s : State) (handle : Nat) : State :=
  match s.course? handle with
  | none => s
  | some c =>
    if c.bays.any (fun b => match (s.bay b.val).write with | some w => decide (w.phase = .updating) | none => false) then s
    else
      let m := committedRows s c
      if c.opening.isSome then
        let left := c.bays.any (fun b => match (s.bay b.val).disc with | some d => decide (d.rowsEnd < c.alignTo) | none => false)
        let c1 := { c with closing := if left then some c.alignTo else none }
        let s1 := s.modCourse handle fun _ => c1
        if openReady s1 c1 then openDone s1 handle else s1
      else
        let full := c.full || c.bays.any (fun b => match (s.bay b.val).disc with | some d => d.full | none => false)
          || decide (c.dtype.blocks * c.layers ≤ m)
        let c1 := { c with committed := m, freed := max m c.freed, closing := none, full := full
                           buf := c.buf.filter (fun e => decide (c.rowSize * max m c.freed ≤ e.csn)) }
        let s1 := s.modCourse handle fun _ => c1
        let done := c.waits.filter (fun w => decide (w.upTo ≤ m) && (!w.sealing || membersClosed s1 c1))
        let s2 := s1.modCourse handle fun c => { c with waits := c.waits.filter (fun w => !done.contains w) }
        let s3 := done.foldl (fun a w => endClose a c1 w) s2
        if full ∧ m * c.rowSize < c.nextCsn then s3.stopCourse handle .full else s3

end Sys2Proof.Machine
end

