-- ==== Sys2Proof/Machine/Device.lean ====
section
/-! DEFINITION. Supply, reset, rails and clocks, boot, restarts of the management complex, self-resets and the mode changes
that the engine makes by itself (R399 to R406, R412, R426, R461 to R465, R480 to R482, R491, R500). -/

namespace Sys2Proof.Machine

open Sys2Proof

/-! ## Supply, RESET_N, rails and clocks -/

/-- What stands of PD0 when its supply goes or comes: the fuses, the strap samples, and what lies outside.
(Log DEDUCED 20) -/
def Aon.cold (a : Aon) : Aon :=
  { supply := true, resetN := a.resetN, testEn := a.testEn, badRails := a.badRails, refSys := a.refSys, refRing := a.refRing
    smbAddr := a.smbAddr, dramCfg := a.dramCfg, fuseSvn := a.fuseSvn }

/-- PD0_SUPPLY_APPLIED: from DARK to RESET, with STITCH64, the bucket and RESET_CAUSE at 0 (R203, R400, R467, R479).
(Log DEDUCED 20) -/
def execPd0SupplyApplied (smbAddr : Fin 8) (dramCfg : Fin 4) (s : State) : Host.Outcome State Fault Refusal :=
  if s.aon.supply then .next s
  else
    let s1 := s.discard .reset
    .next ({ s1 with aon := s.aon.cold, eave := {}, pat := {} }.straps smbAddr dramCfg)

/-- PD0_SUPPLY_LOST: DARK with nothing powered; the values pending for the next boot go with PD0 (R395, R400).
(Log DEDUCED 20) -/
def execPd0SupplyLost (s : State) : Host.Outcome State Fault Refusal :=
  if s.aon.supply = false then .next s
  else
    let s1 := if s.tapped then s.send (.switches false) else s
    let s2 := s1.discard .dark
    .next { s2 with aon := { s.aon.cold with supply := false, power := 0 }, eave := {}, pat := {} }

/-- Entry to RESET from any mode but DARK (R400), for RESET_N or for what PD0 treats as RESET_N (R462).
(Log DEDUCED 22, 23) -/
def resetHeld (s : State) (cause : Nat) : State :=
  if s.aon.supply = false ∨ s.mode = .dark then s else s.enterReset cause

/-- RESET_N_ASSERTED: RESET, and the straps are sampled at the entry (R491). -/
def execResetNAsserted (smbAddr : Fin 8) (dramCfg : Fin 4) (s : State) : Host.Outcome State Fault Refusal :=
  let s1 : State := { s with aon := { s.aon with resetN := true } }
  if s.aon.supply = false ∨ s.mode = .dark then .next s1
  else .next ((resetHeld s1 1).straps smbAddr dramCfg)

/-- RESET_N_RELEASED: the straps are sampled, and BOOT follows where the rest of its condition holds (R400, R491).
(Log DEDUCED 23) -/
def execResetNReleased (smbAddr : Fin 8) (dramCfg : Fin 4) (testEn : Bool) (s : State) : Host.Outcome State Fault Refusal :=
  let s1 : State := { s with aon := { s.aon with resetN := false, testEn := testEn } }
  if s.aon.supply = false then .next s1 else .next (tryBoot (s1.straps smbAddr dramCfg))

/-- RAIL_FAULT: RESET with CAUSE 4, held while the rail is out of tolerance (R462). -/
def execRailFault (r : Rail) (s : State) : Host.Outcome State Fault Refusal :=
  .next (resetHeld { s with aon := { s.aon with badRails := r :: s.aon.badRails.filter (· != r) } } 4)

/-- RAIL_RESTORED: the rail has been back for 1 ms (R462). -/
def execRailRestored (r : Rail) (s : State) : Host.Outcome State Fault Refusal :=
  let s1 : State := { s with aon := { s.aon with badRails := s.aon.badRails.filter (· != r) }
                             ring := { s.ring with vhtr := s.ring.vhtr || r == .vhtr } }
  .next (tryBoot s1)

/-- REFCLK_SYS_LOST: handled as a rail fault; STITCH64 stands (R500). (Log DEDUCED 24) -/
def execRefclkSysLost (s : State) : Host.Outcome State Fault Refusal :=
  .next (resetHeld { s with aon := { s.aon with refSys := false } } 4)

/-- REFCLK_SYS_RESTORED: stable for 1 ms (R500). -/
def execRefclkSysRestored (s : State) : Host.Outcome State Fault Refusal :=
  .next (tryBoot { s with aon := { s.aon with refSys := true } })

/-! ## Boot (R404 to R406, R426) -/

/-- A channel that is in its training in BOOT. -/
def inTraining (s : State) (ch : Nat) : Bool :=
  decide (s.mode = .boot) && !s.mgmt.noImage && decide ((s.chan ch).state = .training)
/-- Failed attempts of a channel in this BOOT. -/
def Mgmt.tries (m : Mgmt) (ch : Nat) : Nat := if ch = 0 then m.tries0 else m.tries1
def Mgmt.failTry (m : Mgmt) (ch : Nat) : Mgmt :=
  if ch = 0 then { m with tries0 := m.tries0 + 1 } else { m with tries1 := m.tries1 + 1 }
def Mgmt.train (m : Mgmt) (ch : Nat) : Mgmt := if ch = 0 then { m with trained0 := true } else { m with trained1 := true }

/-- DRAM_TRAINING_COMPLETE (R426, R427): with both channels up the regions are allocated; a channel is retried once, and
its second failure stops BOOT. -/
def execDramTrainingComplete (ch : Fin 2) (ok : Bool) (s : State) : Host.Outcome State Fault Refusal :=
  if inTraining s ch = false then .next s
  else if ok then
    let s1 := { s.modChanD ch fun d => { d with state := .up } with mgmt := s.mgmt.train ch }
    .next (if s1.mgmt.trained0 && s1.mgmt.trained1 then allocateRegions s1 else s1)
  else if s.mgmt.tries ch = 0 then .next { s with mgmt := s.mgmt.failTry ch }
  else
    .next { s.modChanD ch fun d => { d with state := .failed } with mgmt := { s.mgmt.failTry ch with noImage := true } }

/-- A directory copy is valid (R404). (Log DESIGN CHOICE 27) -/
def dirValid (d : List Byte) : Bool :=
  decide (16 ≤ d.length) && (beAt d 0 4 == 0x434C4452) && (beAt d 12 4 == crc32c (d.take 12))
/-- The preferred slot, 0 A or 1 B: that of the valid copy with the newer sequence, or A (R404). (Log DESIGN CHOICE 27) -/
def preferredSlot (d0 d1 : List Byte) : Nat :=
  let slot (d : List Byte) : Nat := if byteAt d 8 = 1 then 1 else 0
  let seq (d : List Byte) : Word := BitVec.ofNat 32 (beAt d 4 4)
  if dirValid d0 && dirValid d1 then (if newer32 (seq d1) (seq d0) then slot d1 else slot d0)
  else if dirValid d0 then slot d0
  else if dirValid d1 then slot d1
  else 0

/-- SVN of an image, its release, its Claos interface revision, and the digest of the whole image. -/
def imageSvn (i : ImageFile) : Nat := beAt i.header 6 2
def imageRelease (i : ImageFile) : List Byte := (i.header.drop 8).take 16
def imageRevision (i : ImageFile) : Nat := beAt i.header 176 2
def imageLen (i : ImageFile) : Nat := beAt i.header 24 4
def imageDigest (i : ImageFile) : List Byte := sha384 (i.header.take 512 ++ i.body.take (imageLen i))
/-- Header, signature and body hash of an image verify (R404). -/
def imageVerifies (i : ImageFile) : Bool :=
  let h := i.header
  decide (h.length = 512) && (beAt h 0 4 == 0x434C494D) && (beAt h 4 2 == 1)
    && decide (imageLen i ≤ 16776704 ∧ imageLen i ≤ i.body.length)
    && (sha384 (i.body.take (imageLen i)) == (h.drop 32).take 48)
    && ecdsaVerify Config.firmwareKey (h.take 80 ++ (h.drop 176).take 2) (beAt h 80 48) (beAt h 128 48)
/-- An image is bootable (R405). -/
def bootable (fuse : Nat) (i : ImageFile) : Bool := imageVerifies i && decide (fuse ≤ imageSvn i ∧ imageSvn i ≤ 64)

/-- The image that starts, with its slot: the preferred one, or the other (R406 steps 3 and 4). -/
def chooseImage (fuse : Nat) (d0 d1 : List Byte) (a b : ImageFile) : Option (Nat × ImageFile) :=
  let first := if preferredSlot d0 d1 = 1 then [(1, b), (0, a)] else [(0, a), (1, b)]
  first.find? (fun e => bootable fuse e.2)

/-- RESET_CAUSE copied at boot (R462, R478): an entry of kind 8 in the thermal log, and one in the device log, which a
self-reset makes with its own code. (Log DESIGN CHOICE 5; DEDUCED 128) -/
def copyCause (s : State) : State :=
  let s1 := s.thermLog 8 (if s.aon.cause = 5 then s.aon.tripSensor else s.eave.hottest) 0xFF
  if s.aon.cause = 3 then s1.log .device 0x0E03 0xFF s.resetCause
  else
    let f := s1.fresh
    f.2.log .device (f.1 % 65536) 0xFF s.resetCause

/-- The image runs on core 0 (R406 steps 5 and 6): PD2 to PD4 on, laser sources enabled, the loopback self-test made; ENROL
follows whatever its result. (Log DEDUCED 28) -/
def startImage (s : State) (slot : Nat) (i : ImageFile) (elsEast elsWest selfTest : Bool) : State :=
  let m := { s.mgmt with running := true, slot := slot, svn := imageSvn i, release := imageRelease i
                         revision := BitVec.ofNat 16 (imageRevision i), imageDigest := imageDigest i, selfTest := selfTest }
  let r := { s.ring with east := { s.ring.east with elsOk := elsEast }, west := { s.ring.west with elsOk := elsWest } }
  let s1 : State := { s.powerOn [2, 3, 4] with mgmt := m, ring := r }
  let s2 : State := { s1 with aon := { s1.aon with kick0 := s.now, kick1 := s.now } }
  copyCause (s2.enterMode .enrol mcAuto)

/-- IMAGE_START (R404 to R406): without a bootable slot the engine stays in BOOT and reports BOOT_NO_IMAGE. -/
def execImageStart (dir0 dir1 : List Byte) (imgA imgB : ImageFile) (elsEast elsWest selfTest : Bool) (s : State) :
    Host.Outcome State Fault Refusal :=
  if s.mode ≠ .boot ∨ s.mgmt.noImage ∨ s.mgmt.trained0 = false ∨ s.mgmt.trained1 = false then .next s
  else match chooseImage s.aon.fuseSvn dir0 dir1 imgA imgB with
    | none => .next { s with mgmt := { s.mgmt with noImage := true } }
    | some (slot, i) => .next (startImage s slot i elsEast elsWest selfTest)

/-! ## Management restarts and self-resets (R22, R402, R411, R481, R482) -/

/-- WATCHDOG_EXPIRY: a core not kicked for 500 ms restarts the management complex (R481). (Log DEDUCED 36) -/
def execWatchdogExpiry (core : Fin 2) (s : State) : Host.Outcome State Fault Refusal :=
  let kick := if core = 0 then s.aon.kick0 else s.aon.kick1
  if s.fwRuns ∧ kick + msec 500 ≤ s.now then .next (mgmtRestart s true false none) else .next s

/-- Mode changes made while firmware restarted are reported when it runs (R475). -/
def reportOwed (s : State) : State :=
  let s1 := s.mgmt.owedModes.foldl (fun a e => (a.modeEvent e.1 e.2.1 e.2.2 false).logFree .device 0x0E01 0xFF) s
  { s1 with mgmt := { s1.mgmt with owedModes := [] } }

/-- Each ladder resumes at the start of the step it was in (R157). -/
def restartLadders (s : State) : State := s.recov.blocks.foldl restartBlock s

/-- Outstanding DISC_NEEDED requests are raised again (R157, R165). -/
def reraise (s : State) : State :=
  (s.recov.requests.filter (fun r => !r.answered)).foldl (fun a r => discNeeded a r 3) s

/-- MGMT_RESTART_COMPLETE: the cores run again, after a LIVE activation with the staged image, which completes the
activation's command (R411, R481). (Log DEDUCED 70) -/
def execMgmtRestartComplete (s : State) : Host.Outcome State Fault Refusal :=
  if s.mgmt.restarting = false then .next s
  else
    let m0 := { s.mgmt with restarting := false, running := true, live := none }
    let m := match s.mgmt.live, s.mgmt.staged with
      | some _, some g => { m0 with slot := 2, svn := g.svn, release := g.release, revision := g.revision, imageDigest := g.digest }
      | _, _ => m0
    let s1 : State := { s with mgmt := m, aon := { s.aon with kick0 := s.now, kick1 := s.now } }
    let s2 := s1.logFree .device (if s.mgmt.live.isSome then 0x0E04 else 0x0E02) 0xFF
    let s3 := match s.mgmt.live with | some c => adminEnd s2 c stSuccess | none => s2
    .next (reraise (restartLadders (reportOwed s3)))

/-- SELF_RESET_ENTRY: every spindle at a confirmed standstill, or 15 s passed (R402). (Log DEDUCED 37) -/
def execSelfResetEntry (s : State) : Host.Outcome State Fault Refusal :=
  match s.mgmt.selfReset with
  | some t =>
    if s.mode = .safeStop ∧ (allBays.all (fun b => (s.bay b).still) ∨ t + secs 15 ≤ s.now) then .next s.selfResetNow
    else .next s
  | none => .next s

/-! ## Mode changes by themselves (R399, R401, R465) -/

/-- CONSTRAINED_EXIT: no cause has held for 1 s (R399). -/
def execConstrainedExit (s : State) : Host.Outcome State Fault Refusal :=
  match s.mgmt.clearSince with
  | some t =>
    if s.mode = .constrained ∧ s.constrainedCause = false ∧ t + secs 1 ≤ s.now then
      .next ({ s with mgmt := { s.mgmt with clearSince := none } }.enterMode .active mcAuto)
    else .next s
  | none => .next s

/-- The sessions of every course are closed (R190). (Log DEDUCED 40) -/
def coursesClosed (s : State) : Bool :=
  s.courses.all (fun c => c.stopped || (c.opening.isNone && c.closing.isNone && c.waits.isEmpty
    && c.bays.all (fun b => (s.bay b.val).write.isNone)))

/-- QUIESCE_DRAINED: no data command in flight and every course closed (R401). (Log DEDUCED 40) -/
def execQuiesceDrained (s : State) : Host.Outcome State Fault Refusal :=
  if s.mode = .quiesce ∧ s.fwRuns ∧ s.mgmt.drained = false ∧ s.tags = [] ∧ coursesClosed s then
    .next ({ s with mgmt := { s.mgmt with drained := true } }.modeEvent .quiesce .quiesce mcRequest true)
  else .next s

/-- RETIRE_POWER_DOWN: PD7 to PD19 off once every spindle is at standstill (R465). -/
def execRetirePowerDown (s : State) : Host.Outcome State Fault Refusal :=
  if s.mode = .retire ∧ s.powered 18 ∧ allBays.all (fun b => (s.bay b).still) then
    .next ((s.powerOff (pds 7 16)).motionDown)
  else .next s

/-! ## Requested modes (R400, R401, R465) -/

/-- A bay goes through SPINDOWN at entry to RETIRE; one that stands empty or loaded is at standstill already. -/
def retireBay (s : State) (b : Nat) : State :=
  match (s.bay b).state with
  | .empty | .loaded | .spinDown => s
  | _ => s.enterSpindown b

/-- Entry to QUIESCE (R190, R380, R401): write runs make their boundary stops and the sessions close. (Log DEDUCED 40) -/
def quiesceWork (s : State) : State :=
  s.courses.foldl (fun a c => noteClose a c.handle false) { s with mgmt := { s.mgmt with drained := false } }

/-- The mode entered on a request, with the domains of R464 and R465. -/
def goMode (s : State) (m : Mode) (cause : Nat) : State :=
  match m with
  | .standby =>
    ((if s.mode = .transit then (s.motionUp.powerOn (pds 7 16)) else s.powerOn (pds 7 16))).enterMode .standby cause
  | .transit => ((s.powerOff (pds 7 16)).motionDown).enterMode .transit cause
  | .retire => (allBays.foldl retireBay s).enterMode .retire cause
  | .quiesce => quiesceWork (s.enterMode .quiesce cause)
  | .safeStop => s.enterSafeStop cause
  | .active => (s.enterMode .active cause).constrain
  | _ => s.enterMode m cause

/-- The transitions that MODE_REQUEST makes (R400). (Log DEDUCED 38, 39) -/
def requestTable : Mode → List Mode
  | .transit => [.standby, .safeStop]
  | .standby => [.transit, .active, .service, .retire, .safeStop]
  | .active | .constrained => [.quiesce, .safeStop]
  | .quiesce => [.active, .standby, .service, .retire, .safeStop]
  | .service => [.standby, .safeStop]
  | .safeStop => [.standby]
  | .retire => [.safeStop]
  | _ => []

/-- A cause of SAFE-STOP holds (R400, R402, R473): Eave's step 4 with Tmax above 104.0 °C, or a self-reset that waits. -/
def safeStopHolds (s : State) : Bool := (decide (s.eave.step = 4) && decide (1664 < s.eave.tmax)) || s.mgmt.selfReset.isSome

/-- The mode of a code. (Log DEDUCED 39) -/
def modeOf (n : Nat) : Option Mode :=
  [Mode.dark, .reset, .boot, .enrol, .transit, .standby, .active, .constrained, .quiesce, .service, .safeStop, .retire][n]?

end Sys2Proof.Machine
end

