-- ==== Sys2Proof/Machine/ReadChannel.lean ====
section
/-! DEFINITION. A slot under the heads of a bay: what its beams give, the flywheel and the loops after it, the seam buffer, the retry
store, and what becomes of each sector before its decode (R99 to R138, R172). -/

namespace Sys2Proof.Machine

open Sys2Proof

/-! ## The retry store (R132 to R134) -/

/-- A beam's retention SRAM still holds a slot: for 65,536 − L channel bits, less than six stitches, after its end (R132).
(Log DEDUCED 78) -/
def heldSlot (s : State) (b : Nat) (a : SlotAddr) : Option Retained :=
  (s.beam (8 * b + a.spiral.val)).retained.bind (fun r => if r.addr = a ∧ s.now ≤ r.ended + 6 then some r else none)
/-- Retry-store entries in use: two for a sector of S7 (R133). -/
def retryUsed (c : Channel) : Nat := (c.retry.map (fun e => if psaSpiral e.addr = 7 then 2 else 1)).foldl (· + ·) 0
/-- A sector's retained samples copied. With no entry free it has no retained samples any more, and the run reports that once (R133,
R134). (Log DEDUCED 78) -/
def copyRetry (s : State) (b : Nat) (a : SlotAddr) (auto : Bool) : State :=
  let c := (s.bay b).chan
  match heldSlot s b a with
  | none => s
  | some r =>
    if c.retry.any (fun e => e.addr == addrOf a) then s
    else if retryUsed c + (if a.spiral.val = 7 then 2 else 1) ≤ c.retrySlots then
      s.modChan b fun c => { c with retry := c.retry ++ [⟨addrOf a, r.kept, auto⟩] }
    else
      let s1 := s.modBeam (8 * b + a.spiral.val) fun m => { m with retryFull := true, retained := none }
      if c.retryFullRun then s1
      else (s1.modChan b fun c => { c with retryFullRun := true }).bayLog b 0x0403 (addrOf a)
/-- A slot's samples are copied at its end: a sync case other than clean, or a codeword over ERASE_MAX (R133). -/
def copyAtEnd (s : State) (b : Nat) (p : SlotReport) (eraseMax : Nat) : State :=
  if p.sync ≠ 0 ∨ p.erased.any (fun n => decide (eraseMax < n)) then copyRetry s b p.addr false else s

/-! ## A sector without a decode, or on its way to one (R92, R98, R117, R130, R131, R135, R188) -/

/-- A sector judged by the verify pass (R188). -/
def judge (s : State) (b a : Nat) (pass : Bool) : State :=
  (dropRetry s b a).modWrite b fun w =>
    if w.judged.contains a then w
    else { w with judged := w.judged ++ [a], toReplace := if pass then w.toReplace else w.toReplace ++ [a] }
/-- A replacement judged as it is read back (R188). -/
def judgeSpare (s : State) (b home a : Nat) (pass : Bool) : State :=
  (dropRetry s b a).modWrite b fun w =>
    { w with spares := w.spares.map (fun x => if x.home = home ∧ x.state = .recorded then { x with state := if pass then .passed else .failed } else x) }
/-- A slot that is not accepted and not blank is recorded-unreadable (R131, R135). -/
def noteUnreadable (s : State) (b : Nat) (a : SlotAddr) : State :=
  s.modChan b fun c => { c with reports := c.reports.map (fun p =>
    if p.addr = a ∧ p.outcome ≠ .blank then { p with outcome := .unreadable } else p) }

/-- No decode of a slot will be made, or none has given its bytes: what it was read for goes on without it. -/
def notDecoded (s : State) (b : BayId) (p : SlotReport) : State :=
  let a := p.addr
  let s1 := noteUnreadable s b.val a
  match slotUse s b.val a with
  | .system =>
    sysTake (dropRetry s1 b.val (addrOf a)) b a.zone a.layer.val a.spiral.val a.slot p.env (if p.outcome = .blank then .blank else .bad)
  | .verify _ _ => judge s1 b.val (addrOf a) false
  | .spare h => judgeSpare s1 b.val h (addrOf a) false
  | .block l n k _ => if owed s1 b.val a then firstFailed s1 b.val l n k false else s1
  | .nothing => s1

/-- The first offset of R117's search, from the `i`-th on, at which CW0 may be sent. -/
def searchJob (t : DiscType) (took : List Nat) (b : Nat) (p : SlotReport) (lsn : Option Nat) (ls : List Int) (mask : List Bool) :
    Nat → Nat → Option LdpcJob
  | 0, _ => none
  | fuel + 1, i =>
    if 9 < i then none
    else
      let j := sectorJob t took b p lsn i [] ls mask
      if j.sends then some j else searchJob t took b p lsn ls mask fuel (i + 1)

/-- A target sector's record of the offsets that R117's search has tried. -/
def noteSearched (s : State) (b : Nat) (a : SlotAddr) (tries : Nat) : State :=
  match slotUse s b a with
  | .block l n k _ => s.modBlock b l n fun x => x.modSec k fun r => { r with searched := tries }
  | _ => s
/-- A slot decided to be decoded: its codewords go to the LDPC array, those of an early false sync one offset at a time; a slot whose LSN
is unknown gives its LLRs still scrambled (R98, R117, R127, R130). -/
def sendSector (s : State) (b : BayId) (took : List Nat) (p : SlotReport) (lsn : Option Nat) (ls : List Int) (mask : List Bool) : State :=
  let t := chanType s b.val
  let a := p.addr
  if p.sync = 2 then
    match lsn, searchJob t took b.val p lsn ls mask 9 1 with
    | some _, some j => s.pushJob j
    | _, _ => notDecoded (noteSearched s b.val a 9) b { p with outcome := .erased }
  else
    let j := sectorJob t took b.val p lsn 0 [] ls mask
    match lsn with
    | some _ => if j.sends then s.pushJob j else notDecoded s b p
    | none =>
      if slotUse s b.val a = .system then sysTake s b a.zone a.layer.val a.spiral.val a.slot p.env (.scrambled p j.llr) else s

/-- A slot that has ended, in a run: its samples are copied where R133 says so, and it is decoded or given up. -/
def slotEnds (s : State) (b : BayId) (took : List Nat) (p : SlotReport) (lsn : Option Nat) (ls : List Int) (mask : List Bool) : State :=
  let s1 := if slotUse s b.val p.addr = .nothing then s else copyAtEnd s b.val p (took.getD 1 1024)
  if p.outcome = .pending then sendSector s1 b took p lsn ls mask else notDecoded s1 b p

/-- A slot of a target block has passed (R133, R140, R141, R150): its sector is being decoded. -/
def blockSeen (s : State) (b : Nat) (p : SlotReport) : State :=
  match slotUse s b p.addr, (s.bay b).chan.run with
  | .block l n k _, some r => match s.block? b l n with
    | some y =>
      let st := (y.sec k).state
      let live := (y.phase = .reading ∧ st = .unread ∧ r.kind = .read)
        ∨ (y.isReread ∧ st = .failed ∧ r.kind = .reread ∧ r.layer = l ∧ r.block = n)
      if live then
        s.modBlock b l n fun y => y.modSec k fun r =>
          { r with state := .decoding, step := 0, count := 0, since := s.now, sync := p.sync, erasedBits := min 0xFFFF (p.erased.foldl max 0)
                   report := some p, searched := 0, cand := 0, cws := [], soft := [], passRead := true }
      else s
    | none => s
  | _, _ => s

/-- The blank scan's slot of a beam: not blank, a slot of a block at or above the session's first is defective (R62, R172).
(Log DEDUCED 144) -/
def scanTake (s : State) (b : Nat) (p : SlotReport) : State :=
  match (s.bay b).disc, (s.bay b).write with
  | some d, some w =>
    (match sectorAt d.dtype p.addr.spiral.val (p.addr.slot - d.dtype.userStart) with
     | some (n, _) =>
       if w.start ≤ n ∧ d.dtype.userStart ≤ p.addr.slot ∧ p.outcome ≠ .blank then
         s.modWrite b fun w => { w with bad := addNew w.bad [addrOf p.addr], scanBlank := 0 }
       else s
     | none => s)
  | _, _ => s
/-- The blank scan at a slot: one more index without a slot other than blank, or none; no index follows the user zone's last. -/
def scanSlot (s : State) (b slot : Nat) (ps : List SlotReport) : State :=
  let t := bayType s b
  match (s.bay b).chan.run with
  | some r =>
    if r.kind ≠ .blankScan ∨ slot < t.userStart then s
    else
      let s1 := s.modWrite b fun w => { w with scanBlank := if r.last ≤ slot then 139 else w.scanBlank }
      ps.foldl (fun a p => scanTake a b p) (s1.modWrite b fun w => { w with scanBlank := w.scanBlank + 1 })
  | none => s

/-! ## The beams of a slot -/

/-- A new layer under the head (R100, R119): the gain restarts from the layer's last, or RX_GAIN_INIT, and set 0 from the layer's set 1, or
set 2. -/
def layerChange (s : State) (b layer : Nat) : State :=
  if (s.bay b).chan.layer = layer then s
  else
    ([0, 1, 2, 3, 4, 5, 6, 7] : List Nat).foldl (fun a n => a.modBeam (8 * b + n) fun m =>
      { m with gain := if Tbl.get 0 m.gainOf layer = 0 then s.pnat 0x0401 (8 * b + n) else Tbl.get 0 m.gainOf layer - 1
               set0 := Tbl.get none m.set1 layer })
      (s.modChan b fun c => { c with layer := layer })
/-- A disc channel rate more than 0.5 % off (R103): the flywheel goes unlocked, and the event is logged.
(Log DESIGN CHOICE 153) -/
def timingOut (s : State) (b : Nat) (rateErr : Int) : State :=
  if rateErr.natAbs ≤ 50 then s
  else (s.modChan b fun c => { c with fly := .unlocked, coast := 0 }).bayLogFree b (Config.logCode 3).toNat
/-- Where the flywheel predicts the origin of the slot: as it has counted, or, unlocked or a whole slot away, the slot's own place.
(Log DEDUCED 77) -/
def Channel.anchor (t : DiscType) (z : Zone) (slot : Nat) (c : Channel) : Channel :=
  let p := slotGrid t z slot + t.preamble
  if c.fly = .unlocked ∨ t.slotLen ≤ (c.pos - p).natAbs then { c with pos := p } else c

/-- A free value settles what R114 leaves without a case: the beams' sectors are decoded from their syncs, or lost.
(Log DESIGN CHOICE 75) -/
def settleUnsettled (s : State) (xs : List BeamRead) : List BeamRead × State :=
  if xs.all (fun x => decide (x.case_ ≠ .unsettled)) then (xs, s)
  else
    let f := s.fresh
    if f.1 % 2 = 0 then (xs, f.2)
    else (xs.map (fun x => if x.case_ = .unsettled then { x with case_ := .lost, outcome := .erased, origin := 0 } else x), f.2)
/-- The bay-log entries of a slot's sync cases (R114). (Log DESIGN CHOICE 153) -/
def logCases (s : State) (b : Nat) (xs : List BeamRead) : State :=
  xs.foldl (fun a x => match x.case_ with
    | .smallShift => a.bayLogFree b (Config.logCode 0).toNat
    | .unconfirmed => a.bayLogFree b (Config.logCode 1).toNat
    | .missed => a.bayLogFree b (Config.logCode 2).toNat
    | .earlyFalse => a.bayLogFree b (Config.logCode 4).toNat
    | _ => a) s

/-- The tile's report of a beam's slot (R135). -/
def slotReport (s : State) (b : Nat) (t : DiscType) (z : Zone) (layer : Fin 6) (slot set : Nat) (x : BeamRead) : SlotReport :=
  let env := areaBlocks t.preamble (t.preamble + x.origin).toNat x.obs.envs
  { addr := ⟨z, layer, x.obs.raw.beam, slot⟩, outcome := x.outcome, sync := x.case_.code, offset := x.origin, resyncs := x.obs.resyncs
    erased := sectorErased (s.pnat 0x0408 b) t.preamble x.obs.resyncs x.origin x.obs.mask, eq := set
    env := (env.foldl (· + ·) 0, env.length), retained := x.keep }

/-- A beam's inner- and outer-neighbour inputs (R118, R120); b7 has its outer one a revolution later. -/
def beamInputs (obs : List BeamObs) (blank : List Nat) (levels : List Int) (v : Nat) : List Int × List Int :=
  (if v = 0 then levels else neighbour obs blank (v - 1), if v = 7 then [] else neighbour obs blank (v + 1))
/-- Its equaliser's output: b7's without its outer neighbour, at read time (R121). -/
def beamOut (t : Taps) (obs : List BeamObs) (blank : List Nat) (levels : List Int) (x : BeamObs) : List Int :=
  let i := beamInputs obs blank levels x.beam
  equalise (if x.beam = 7 then { t with outer := [] } else t) (if blank.contains x.beam then [] else x.raw.samples) i.1 i.2

/-- The codeword area of a slot's samples (R37). -/
def areaOf {α : Type} (t : DiscType) (origin : Int) (xs : List α) : List α := (xs.drop (t.preamble + origin + 48).toNat).take 46512
/-- A beam's status and loops after a slot (R100, R104 to R107, R119, R129, R136). `locked` says that the flywheel is not unlocked, `adapts`
that set 0 is `set0` now. (Log DEDUCED 76; DESIGN CHOICE 149) -/
def beamAfter (s : State) (b : Nat) (t : DiscType) (layer : Nat) (locked ridge : Bool) (x : BeamRead) (m : Beam) : Beam :=
  let v := x.obs.beam
  let gain := if s.pval 0x0400 b = 1 ∧ locked ∧ x.outcome ≠ .blank ∧ t.firstSpiral ≤ v then
      gainAfter m.gain (areaOf t x.origin x.obs.raw.samples) (areaOf t x.origin x.obs.mask) else m.gain
  let m1 := match t with
    | .plain => timePlain (s.pnat 0x0403 b) x m
    | .ridged => if v = 0 then m else timeRidged (s.pnat 0x0403 b) ridge x m
  { m1 with defect := x.obs.flags.getLast?.getD false, envs := x.obs.ref, gain := gain, gainOf := Tbl.set 0 m.gainOf layer (gain + 1)
            eq := eqInUse s b v, lost := if x.case_ = .lost ∧ x.outcome = .erased ∧ t.firstSpiral ≤ v then min 255 (m.lost + 1) else m.lost }

/-- Set 0 of a beam after a sector of a clean or small-shift sync case (R119). (Log DEDUCED 79) -/
def beamAdapts (s : State) (b : Nat) (t : DiscType) (layer : Nat) (obs : List BeamObs) (blank : List Nat) (levels ys : List Int)
    (x : BeamRead) : State :=
  let v := x.obs.beam
  if x.outcome = .pending ∧ v < 7 ∧ (x.case_ = .clean ∨ x.case_ = .smallShift) then
    let i := beamInputs obs blank levels v
    let taps := adapt t (s.pnat 0x040B b) x.origin (eqTaps s b t layer v 0) ys [] x.obs.raw.samples i.1 i.2
      [x.obs.mask, neighbourMask obs (v - 1), neighbourMask obs (v + 1)]
    s.modBeam (8 * b + v) fun m => { m with set0 := some taps }
  else s

/-! ## The seam buffer (R121 to R125) -/

/-- S7 is decoded one-sided from now on in this run (R123). -/
def seamFaults (s : State) (b : Nat) : State :=
  if (s.bay b).chan.seamFault then s
  else (((s.modChan b fun c => { c with seamFault := true }).modBeam (8 * b + 7) fun m => { m with eq := 3 }).bayLogFree b 0x0402)
/-- A turn and the search lag exceed the seam buffer (R123). -/
def seamTooLong (c : Channel) : Bool := decide (7340032 * 64 < turn64 c.pos + c.seamDelta + 32768 * 64)
/-- S0's samples that the late pass still needs. -/
def keepLive (c : Channel) : List LiveSlot :=
  match c.seam.find? (fun x => !x.complete) with
  | none => c.live.drop (c.live.length - 1)
  | some x =>
    let at_ := x.grid + x.outer.length
    let from_ := at_ + (turn64 at_ + c.seamDelta) / 64 - (if c.seamFound then 16 else (c.seamSearch : Int) + 16)
    c.live.filter (fun e => decide (from_ < e.grid + e.samples.length))
/-- S7's slots brought up to S0's samples that have come (R121): on a fault they stand on their own. -/
def SeamSlot.advance (t : Taps) (c : Channel) (stop : Int) (x : SeamSlot) : SeamSlot :=
  let x1 := if c.seamFault then { x with outer := x.outer ++ List.replicate (x.part.length - x.outer.length) 0 }
    else latePass c.live c.seamDelta stop (x.part.length / 64 + 1) x
  { x1 with out := x.out ++ (seamOut t c.seamFault x1).drop x.out.length }
/-- A sector of S7 whose late pass is complete (R119, R121, R123, R132): the offset is tracked, set 0 adapts, the sector is retained, and
is decoded now. -/
def seamEnds (b : BayId) (t : DiscType) (s : State) (x : SeamSlot) : State :=
  let g := 8 * b.val + 7
  let p := x.report
  let layer := p.addr.layer.val
  let c := (s.bay b.val).chan
  let s1 := if c.seamFault then s
    else
      let s0 := s.modChan b.val (trackSeam (eqTaps s b.val t layer 7 p.eq) x)
      if (s0.bay b.val).chan.seamLost then seamFaults s0 b.val else s0
  let s2 := if c.seamFault = false ∧ c.fly ≠ .unlocked ∧ p.outcome = .pending ∧ p.sync ≤ 1 then
      let taps := adapt t (s1.pnat 0x040B b.val) p.offset (eqTaps s1 b.val t layer 7 0) x.out x.part [] [] x.outer [x.mask, x.innerMask, x.outerMask]
      s1.modBeam g fun m => { m with set0 := some { eqTaps s1 b.val t layer 7 0 with outer := taps.outer } }
    else s1
  let ls := slotLlrs x.out [] x.mask
  let s3 := if p.retained then s2.modBeam g fun m =>
      { m with retained := some ⟨p.addr, s2.now, { samples := x.part, outer := x.outer, erased := x.mask, partials := true }, ls⟩ }
    else s2
  slotEnds s3 b x.took p x.lsn ls x.mask
/-- The late pass of a slot: S7's completed sectors leave the seam buffer. -/
def seamSlot (s : State) (b : BayId) (t : DiscType) : State :=
  let c := (s.bay b.val).chan
  let done := c.seam.filter (·.complete)
  done.foldl (seamEnds b t) (s.modChan b.val fun c => { c with seam := c.seam.filter (fun x => !x.complete) })

/-! ## A slot (R103, R108 to R110, R114, R115, R121, R135) -/

/-- A beam of S0 to S6 whose slot has ended in a run, with its equaliser's output; b7 goes through the seam buffer instead. -/
def beamEnds (b : BayId) (need slot : Nat) (s : State) (e : BeamRead × SlotReport × List Int) : State :=
  let p := e.2.1
  let ls := slotLlrs e.2.2 [] e.1.obs.mask
  let s1 := s.modBeam (8 * b.val + e.1.obs.beam) fun m =>
    { m with retained := if p.retained then some ⟨p.addr, s.now, { samples := e.1.obs.raw.samples, erased := e.1.obs.mask }, ls⟩ else none }
  if slot < need ∧ slotUse s1 b.val p.addr = .nothing then s1
  else slotEnds s1 b (decodeTake s b.val) p (slotLsn s b.val p.addr) ls e.1.obs.mask

/-- Partial sums as the seam buffer takes them: the write port drops those of lines whose channel retrains, which read as erased (R121, R429).
(Log DESIGN CHOICE 168) -/
def seamStored (s : State) (b : Nat) (grid : Int) (ys : List Int) (mask : List Bool) : List Int × List Bool :=
  let lost (i : Nat) : Bool :=
    let pa := (s.mem.region 5).base * mib2 + b * 7340032 + ((grid + i) % 7340032).toNat
    (s.chan (chanOf pa)).retraining
  if ((s.chan 0).retraining || (s.chan 1).retraining) = false then (ys, mask)
  else (ys.zipIdx.map (fun e => if lost e.2 then 0 else e.1), mask.zipIdx.map (fun e => e.1 || lost e.2))

/-- A slot passes under the head. In a run its sectors are decoded, and S7's go to the seam buffer. -/
def slotPasses (s : State) (b : BayId) (o : SlotObs) : State :=
  let n := b.val
  let t := chanType s n
  let layer := o.layer.val
  let inside := inRun s n o.zone layer o.slot
  let s1 := (timingOut (layerChange s n layer) n o.rateErr).modChan n (Channel.anchor t o.zone o.slot)
  let obs := o.beams.map (observe s1 n t layer)
  let rtol := s1.pnat 0x0408 n
  let awl := s1.pnat 0x0406 n
  let c1 := (s1.bay n).chan
  let reset := ridgeOff t (c1.pos - t.preamble) o
  let search := decide (c1.fly = .unlocked) || reset.isSome
  let data := obs.filter (dataBeam t)
  let found := if search ∧ o.rateErr.natAbs ≤ 20 then searchOrigin rtol awl data else none
  let s2 := s1.modChan n (ridgeAfter s1 n t o ((obs.find? (fun x => x.beam == 0)).map (·.flags) |>.getD []))
  let ridge := (s2.bay n).chan.ridgeLock
  let ref := envRef s2 n layer
  let isBlank (x : BeamObs) : Bool := beamBlank t search rtol awl (s2.pnat 0x040F n) ref x
  let timing (x : BeamObs) : Bool := decide (t = .plain) || ridge || ((s2.beam (8 * n + x.beam)).trLock && !x.raw.lostLock)
  let sv := settleUnsettled s2 (data.map (fun x => readBeam search rtol awl found (timing x) (isBlank x && timing x) x))
  let xs := sv.1
  let s3 := logCases sv.2 n xs
  let c3 := (s3.bay n).chan
  let median := medianOrigin xs
  let fly := if search ∧ found.isNone ∧ c1.fly ≠ .unlocked then
      { c3 with pos := c3.pos + reset.getD 0 + t.slotLen, coast := c3.coast + 1 }
    else flyAfter t (s3.pnat 0x0409 n) search c3.pos found median c3
  let start := c3.pos - t.preamble
  let blank := (xs.filter (fun x => decide (x.outcome = .blank))).map (·.obs.beam)
  let s4 := s3.modChan n fun _ => fly
  let s5 := if inside ∧ seamTooLong c3 then seamFaults s4 n else s4
  let reps := xs.map (fun x => (x, slotReport s5 n t o.zone o.layer o.slot (eqInUse s5 n x.obs.beam) x))
  let s6 := (if inside then reps.foldl (fun a e => blockSeen a n e.2) s5 else s5).modChan n fun c => { c with reports := reps.map (·.2) }
  let b0 := neighbour obs blank 0
  let taps (a : State) (v : Nat) : Taps := eqTaps a n t layer v (eqInUse a n v)
  -- S0's samples, and S7's new slot, in the seam buffer
  let s7 := if inside = false then s6
    else
      let entry := (reps.find? (fun e => e.1.obs.beam == 7)).map (fun e =>
        let ys := beamOut (taps s6 7) obs blank [] e.1.obs
        let st := seamStored s6 n start (ys.map (fun y => clampInt (-128) 127 (roundDiv y 16384))) e.1.obs.mask
        ({ report := e.2, lsn := slotLsn s6 n e.2.addr, grid := start, part := st.1
           outer := [], out := [], mask := st.2, innerMask := neighbourMask obs 6, outerMask := [], took := decodeTake s6 n } : SeamSlot))
      s6.modChan n fun c =>
        let c1 := { c with live := c.live ++ [({ grid := start, samples := b0, mask := neighbourMask obs 0 } : LiveSlot)], seam := c.seam ++ entry.toList }
        let c2 := { c1 with live := keepLive c1 }
        if c2.seamFound || c2.seamFault then { c2 with seam := c2.seam.map (SeamSlot.advance (taps s6 7) c2 (start + b0.length)) } else c2
  let c7 := (s7.bay n).chan
  let levels := if t = .plain ∧ inside ∧ c7.seamFound ∧ c7.seamFault = false then seamLevels c7.seamDelta c7.seam start b0.length else []
  let outs := reps.map (fun e => (e.1, e.2, beamOut (taps s7 e.1.obs.beam) obs blank levels e.1.obs))
  let s8 := obs.foldl (fun a x =>
    let y := (xs.find? (fun y => y.obs.beam == x.beam)).getD ⟨x, .lost, .pending, 0, false, false⟩
    a.modBeam (8 * n + x.beam) (beamAfter s7 n t layer (decide (fly.fly ≠ .unlocked)) ridge y)) s7
  let s9 := if fly.fly = .unlocked then s8 else outs.foldl (fun a e => beamAdapts a n t layer obs blank levels e.2.2 e.1) s8
  let clean := decide (xs.length = t.spirals) && xs.all (fun x => decide (x.case_ = .clean))
  let s10 := if clean then xs.foldl (fun a x => a.modBeam (8 * n + x.obs.beam) fun m =>
      { m with set1 := Tbl.set none m.set1 layer (some (eqTaps a n t layer x.obs.beam 0)) }) s9 else s9
  if inside = false then s10
  else
    let need := match c7.run with | some r => r.need | none => 0
    let s11 := (outs.filter (fun e => decide (e.1.obs.beam < 7))).foldl (beamEnds b need o.slot) s10
    settleRun (sessionsStep (scanSlot (seamSlot s11 b t) n o.slot (reps.map (·.2)))) n o.slot

/-- SECTOR_SLOT_READ: a slot passes in a bay whose tracking is closed; in TRACK it may begin a run. -/
def execSectorSlotRead (b : BayId) (o : SlotObs) (s : State) : Host.Outcome State Fault Refusal :=
  let y := s.bay b.val
  if y.servo.tracking = false ∨ ¬(y.state = .track ∨ y.state = .read ∨ y.state = .verify) then .next s
  else .next (slotPasses (runHere s b.val o) b o)

/-! ## Other events of the channel -/

/-- Sixteen slot lengths of search without an accepted origin (R115, R268): NO_SYNC, and registration is to be checked.
(Log DEDUCED 109) -/
def execNoSync (b : BayId) (s : State) : Host.Outcome State Fault Refusal :=
  let c := (s.bay b.val).chan
  if c.fly = .unlocked ∧ 16 ≤ c.searchSlots then
    .next (((s.modChan b.val fun c => { c with searchSlots := 0 }).modServo b.val fun v => { v with registered := false }).bayLogFree
      b.val 0x0401)
  else .next s

/-- The ridge PLL has coasted for more than RIDGE_COAST (R107). (Log DEDUCED 77) -/
def execRidgeCoastExpiry (b : BayId) (s : State) : Host.Outcome State Fault Refusal :=
  let c := (s.bay b.val).chan
  if c.ridgeLock ∧ c.ridgeOver then .next (s.modChan b.val fun c => { c with ridgeLock := false }) else .next s

/-- 4,096 cb of clean ridge (R107): the data beams return to ridge timing. (Log DEDUCED 77) -/
def execRidgeRelock (b : BayId) (s : State) : Host.Outcome State Fault Refusal :=
  let y := s.bay b.val
  if bayRidged y ∧ y.chan.ridgeLock = false ∧ y.chan.ridgeCoasting = false then
    let s1 := s.modChan b.val fun c => { c with ridgeLock := true, ridgeOver := false, ridgeCoast := 0 }
    .next ([1, 2, 3, 4, 5, 6, 7].foldl (fun a n => a.modBeam (8 * b.val + n) fun m => { m with trLock := true }) s1)
  else .next s

/-- S0's samples have come as far as the search needs, a turn after the first partial sums of the run. -/
def seamReady (c : Channel) : Bool := !c.seam.isEmpty && c.live.any (fun e => decide (seamFrom c + 32768 ≤ e.grid + e.samples.length))
/-- The offset of Δ with the highest correlation, in channel bits, the lowest of equals, and that correlation (R123). -/
def seamPeakOf (c : Channel) : Int × Int :=
  match (List.range (2 * c.seamSearch + 1)).map (fun (i : Nat) => let d := (i : Int) - c.seamSearch; (d, seamCorrelation c d)) with
  | [] => (0, 0)
  | x :: r => r.foldl (fun a e => if a.2 < e.2 then e else a) x
/-- SEAM_OFFSET_SEARCH: the seam offset of a run from the first 32,768 cb of S0 over the partial sums of the turn before (R123): without a
peak, or where a turn and the search lag exceed the seam buffer, S7 is decoded one-sided. (Log DESIGN CHOICE 152) -/
def execSeamOffsetSearch (b : BayId) (s : State) : Host.Outcome State Fault Refusal :=
  let c := (s.bay b.val).chan
  if c.run.isNone ∨ c.seamFound ∨ c.seamFault ∨ seamReady c = false then .next s
  else
    let k := seamPeakOf c
    let s1 := s.modChan b.val fun c => { c with seamFound := true, seamDelta := 64 * k.1, seamPeak := 64 * k.1 }
    .next (if k.2 < Config.seamThreshold ∨ seamTooLong (s1.bay b.val).chan then seamFaults s1 b.val else s1)

/-- Acceptance not yet known 16,384 cb after the slot's end (R133): a stitch is 3,200 cb. (Log DEDUCED 78) -/
def execRetryStoreCopy (b : BayId) (a : SlotAddr) (s : State) : Host.Outcome State Fault Refusal :=
  match heldSlot s b.val a with
  | some r => if r.ended + 5 ≤ s.now ∧ owed s b.val a ∧ (s.job? b.val a).isSome then .next (copyRetry s b.val a true) else .next s
  | none => .next s

end Sys2Proof.Machine
end

