-- ==== Sys2Proof/Machine/Eave.lean ====
section
/-! DEFINITION. The sensors, the Eave governor, parking, and the energy bucket with its cap (R466 to R479, R484).
Temperatures are in 1/16 °C, power in 10 mW, the bucket in 10 µJ. -/

namespace Sys2Proof.Machine

open Sys2Proof

/-! ## Sensors (R469 to R472) -/

def Eave.sensor (e : Eave) (i : Nat) : Sensor := Tbl.get {} e.sensors i
/-- A sensor has produced a reading and is not BROKEN (R471). -/
def Sensor.good (x : Sensor) : Bool := x.valid && !x.broken
/-- Every sensor has produced a reading. -/
def Eave.allRead (e : Eave) : Bool := (List.range 16).all (fun i => (e.sensor i).valid)
/-- The neighbour of each sensor (R469). (Log DEDUCED 46) -/
def neighbourOf (i : Nat) : Nat := [1, 2, 1, 5, 5, 3, 7, 6, 9, 8, 11, 10, 13, 12, 12, 14].getD i 0

/-- A sensor BROKEN: its reading in use is pinned at 103.0 °C. -/
def Sensor.break_ (x : Sensor) : Sensor := { x with broken := true, tj := 1648, trips := 0 }

/-- A sample of one sensor: range, the same code over spans, and the consecutive samples at 115.0 °C. -/
def sampleOne (atSpan : Bool) (offset raw : Int) (x : Sensor) : Sensor :=
  let same := if x.valid && decide (raw = x.raw) then x.same + bitNat atSpan else bitNat atSpan
  let y : Sensor := { x with valid := true, raw := raw, same := same }
  if x.broken then y
  else if raw < -640 ∨ 2400 < raw ∨ 1000 ≤ same then y.break_
  else { y with tj := raw + offset, trips := if 1840 ≤ raw + offset then x.trips + 1 else 0 }

/-- A reading put into a rising list. -/
def insertReading (x : Int) : List Int → List Int
  | [] => [x]
  | y :: r => if x ≤ y then x :: y :: r else y :: insertReading x r
/-- Twice the median of a list of readings; none for an empty list. (Log DEDUCED 46) -/
def median2 (l : List Int) : Option Int :=
  let v := l.foldr insertReading []
  match v[(v.length - 1) / 2]?, v[v.length / 2]? with
  | some a, some b => some (a + b)
  | _, _ => none

/-- Which of a disagreeing pair is BROKEN: the one further from the median of the other valid sensors; where these do not
tell, the sensor whose neighbour the other is. (Log DEDUCED 46) -/
def oddOne (e : Eave) (i n : Nat) : Nat :=
  let rest := ((List.range 16).filter (fun k => k != i && k != n && (e.sensor k).good)).map (fun k => (e.sensor k).tj)
  match median2 rest with
  | some m => if (2 * (e.sensor i).tj - m).natAbs < (2 * (e.sensor n).tj - m).natAbs then n else i
  | none => i

/-- A sensor put in place. -/
def State.modSensor (s : State) (i : Nat) (f : Sensor → Sensor) : State :=
  { s with eave := { s.eave with sensors := Tbl.upd {} s.eave.sensors i f } }

/-- The comparison of a sensor with its neighbour: the tenth consecutive sample with more than 20 °C between them breaks
one of the two. (Log DEDUCED 46) -/
def compareOne (s : State) (i : Nat) : State :=
  let e := s.eave
  let n := neighbourOf i
  let apart := (e.sensor i).good && (e.sensor n).good && decide (320 < ((e.sensor i).tj - (e.sensor n).tj).natAbs)
  let s1 := s.modSensor i fun x => { x with differs := if apart then x.differs + 1 else 0 }
  if apart && decide (10 ≤ (e.sensor i).differs + 1) then
    s1.modSensor (oddOne e i n) fun x => { x.break_ with differs := 0 }
  else s1

/-- Sensors newly BROKEN are recorded in the thermal log. -/
def logBroken (before s : State) : State :=
  (List.range 16).foldl (fun a i =>
    if (s.eave.sensor i).broken && !(before.eave.sensor i).broken then a.thermLog 4 i 0xFF else a) s

/-- Tmax over the readings in use, the sensor giving it, and fast sampling (R470). -/
def retakeTmax (s : State) : State :=
  let e := s.eave
  let top := (List.range 16).foldl (fun (a : Nat × Int) i => if a.2 < (e.sensor i).tj then (i, (e.sensor i).tj) else a)
    (0, (e.sensor 0).tj)
  { s with eave := { e with tmax := top.2, hottest := top.1, fast := decide (1488 ≤ top.2) || (e.fast && decide (1472 ≤ top.2)) } }

/-- The readings of a sample taken in. -/
def takeReadings (s : State) (raw : List (Fin 16 × Int)) : State :=
  let s1 := raw.foldl (fun a r =>
    a.modSensor r.1.val (sampleOne (decide (s.now % 200 = 0)) (s.pval 0x0B03 r.1.val) r.2)) s
  retakeTmax (logBroken s ((List.range 16).foldl compareOne s1))

/-! ## Steps (R473, R475, R476) -/

/-- Tmax as the governor takes it: a DRAM indication above 95 °C counts as 101.0 °C. -/
def Eave.gov (e : Eave) : Int := if e.dramHot then max e.tmax 1616 else e.tmax

/-- The EAVE event (R390, R476). -/
def eaveEvent (s : State) : State :=
  let e := s.eave
  { s.event evEave (beBytes 1 e.step ++ beBytes 1 e.hottest ++ beBytes 2 (unsignedOf 16 (e.sensor e.hottest).tj)) with
    eave := { e with eventTj := e.tmax } }

/-- The release level of a step, for its dwell. -/
def releaseLevel (step : Nat) : Option Int := if step = 1 then some 1520 else if step = 2 then some 1568 else none
/-- Since when Tmax lies at or below the release level of the step in force; the interval starts anew with a change of
step. -/
def Eave.cooling (e : Eave) (now : Nat) (fresh : Bool) : Option Nat :=
  match releaseLevel e.step with
  | none => none
  | some l =>
    if l < e.gov ∨ e.allRead = false then none
    else if fresh then some now
    else match e.coolSince with | none => some now | some t => some t

/-- The step in force changes: logged, reported, and the mode follows (R399, R473, R476, R478). (Log DEDUCED 38, 45) -/
def setStep (s : State) (n : Nat) : State :=
  let e := { s.eave with step := n, step1At := if s.eave.step = 0 then s.now else s.eave.step1At
                         step1Hot := s.eave.step1Hot || decide (s.eave.step = 0), parkAt := if n = 3 then s.now else s.eave.parkAt }
  let s1 : State := { s with eave := { e with coolSince := e.cooling s.now true } }
  let s2 := eaveEvent (s1.thermLog 1 s1.eave.hottest 0xFF)
  if n ≠ 4 then s2.constrain else if s2.mode = .safeStop then s2 else s2.enterSafeStop mcEave

/-- The step that the readings ask for. Step 4 acts in the modes from which SAFE-STOP is entered (R400).
(Log DEDUCED 45) -/
def stepAsked (s : State) : Nat :=
  let t := s.eave.gov
  if 2 ≤ s.eave.criticals ∧ s.mode.onRing then 4
  else if 1664 ≤ t then 3
  else if 1616 ≤ t then 2
  else if 1568 ≤ t then 1
  else 0

/-- The governor's own records at a sample: the critical count, the 60 s of step 1, the cooling interval, the interval of
R474's unparking, and the 5 s of step 3. (Log DEDUCED 47) -/
def noteSample (s : State) : State :=
  let e := s.eave
  let t := e.gov
  let hot := decide (1568 ≤ t)
  let e1 := { e with
    criticals := if 1760 ≤ e.tmax then e.criticals + 1 else 0
    step1At := if e.allRead ∧ hot ∧ e.step1Hot then e.step1At else s.now
    step1Hot := hot && decide (0 < e.step)
    coolSince := e.cooling s.now false
    parkAt := if e.step = 3 ∧ t < 1664 then s.now else e.parkAt
    unparkSince := if t ≤ s.pval 0x0902 0 then (match e.unparkSince with | none => some s.now | some u => some u) else none }
  { s with eave := e1 }

/-- What a sample makes of the step in force. Step 3 with no group parked is released once Tmax is below 104.0 °C; the
first real readings release step 1 at once (R472). (Log DEDUCED 47) -/
def govern (s : State) (firstAll : Bool) : State :=
  let e := s.eave
  let n := stepAsked s
  if e.step < n then setStep s n
  else if e.step = 3 ∧ e.parked = [] ∧ e.gov < 1664 ∧ s.fwRuns then setStep s 2
  else if e.step = 1 ∧ firstAll ∧ e.gov ≤ 1520 then setStep s 0
  else if 0 < e.step ∧ 16 * s.pval 0x0900 0 ≤ (e.tmax - e.eventTj).natAbs then eaveEvent s
  else s

/-- The hardware trip (R475): a sensor that is not BROKEN at 115.0 °C or more in two consecutive samples. -/
def tripped (e : Eave) : Option Nat := (List.range 16).find? (fun i => decide (2 ≤ (e.sensor i).trips))

/-- EAVE_SAMPLE: the readings are taken in, and the trip, or the governor, acts on them (R470 to R475). -/
def execEaveSample (raw : List (Fin 16 × Int)) (s : State) : Host.Outcome State Fault Refusal :=
  if s.aon.supply = false then .next s
  else
    let s1 := takeReadings s raw
    match tripped s1.eave with
    | some i =>
      if s.mode = .dark then .next s1
      else
        let s2 := s1.enterDark 5
        .next { s2 with aon := { s2.aon with tripSensor := i } }
    | none => .next (govern (noteSample s1) (s1.eave.allRead && !s.eave.allRead))

/-- EAVE_RELEASE_DWELL: 10 s at or below the release level of the step in force (R473).
(Log DESIGN CHOICE 2; DEDUCED 47) -/
def execEaveReleaseDwell (s : State) : Host.Outcome State Fault Refusal :=
  match s.eave.coolSince with
  | some t =>
    if (s.eave.step = 1 ∨ s.eave.step = 2) ∧ t + secs 10 ≤ s.now then .next (setStep s (s.eave.step - 1)) else .next s
  | none => .next s

/-- STEP1_60S_EXPIRY: step 1 in force for 60 s with Tmax at or above 98.0 °C throughout engages step 2 (R473).
(Log DEDUCED 47) -/
def execStep1SixtySecondExpiry (s : State) : Host.Outcome State Fault Refusal :=
  let e := s.eave
  if e.step = 1 ∧ e.step1Hot ∧ e.allRead ∧ e.step1At + secs 60 ≤ s.now then .next (setStep s 2) else .next s

/-! ## Parking (R474) -/

/-- A command concerns a group: a sector it still awaits there, or a course with a member there. -/
def touchesGroup (s : State) (g : Nat) (c : Cmd) : Bool :=
  c.sectors.any (fun x => (match x.bay with | some b => groupOf b.val == g | none => false) && x.outcome == .pending)
    || (match s.course? c.sqe.handle with
        | some k => decide (c.sqe.opcode = opAppend ∨ c.sqe.opcode = opFlush ∨ c.sqe.opcode = opSeal)
            && k.bays.any (fun b => groupOf b.val == g)
        | none => false)
/-- The class of a group's most urgent command; 4 where it has none. -/
def groupClass (s : State) (g : Nat) : Nat := ((s.tags.filter (touchesGroup s g)).map (fun c => c.cls)).foldl min 4
/-- Bays of a group in READ, WRITE or VERIFY. -/
def groupBusy (s : State) (g : Nat) : Nat :=
  ((groupBays g).filter (fun b => match (s.bay b).state with | .read | .write | .verify => true | _ => false)).length
/-- Group `a` is parked before group `b`. -/
def parksFirst (s : State) (a b : Nat) : Bool :=
  let ra := s.pnat 0x0901 a
  let rb := s.pnat 0x0901 b
  let ca := groupClass s a
  let cb := groupClass s b
  let na := groupBusy s a
  let nb := groupBusy s b
  if ra ≠ rb then decide (ra < rb)
  else if ca ≠ cb then decide (cb < ca)
  else if na ≠ nb then decide (na < nb)
  else decide (b < a)
/-- The group to park next, of those not parked. -/
def nextGroup (s : State) : Option GroupId :=
  let free := ([0, 1, 2, 3] : List GroupId).filter (fun g => !s.eave.parked.any (fun p => p.1 == g))
  match free with
  | [] => none
  | a :: r => some (r.foldl (fun t g => if parksFirst s g.val t.val then g else t) a)

/-- A read or verify run of a parked bay ends after the target block in progress and its tail revolution (R125).
(Log DEDUCED 49) -/
def shortenRun (s : State) (b : Nat) : State :=
  let t := bayType s b
  match (s.bay b).chan.run with
  | none => s
  | some r =>
    let inUser := decide (r.zone = .dataBand ∧ t.userStart ≤ r.at_ ∧ r.at_ < t.spareStart)
    let stop := match (if inUser then sectorAt t t.firstSpiral (r.at_ - t.userStart) else none) with
      | some (n, _) =>
        let m := ((List.range t.blockSectors).map (fun k => psaSlot (homeAddr t r.layer n k))).foldl max r.at_
        m + turnSlots s b t r.zone m
      | none => r.last
    s.modChan b fun c => { c with run := some { r with last := min r.last stop } }

/-- A group is parked: its write runs make a boundary stop, its read and verify runs end, and its beams but b0 go off
(R464, R474). (Log DEDUCED 49) -/
def parkGroup (s : State) (g : GroupId) (cap : Bool) : State :=
  let s1 : State := { s with eave := { s.eave with parked := s.eave.parked ++ [(g, cap)], parkAt := s.now, unparkSince := none } }
  let s2 := (groupBays g).foldl (fun a b => shortenRun (a.boundaryStop b) b) s1
  let s3 := (groupBays g).foldl (fun a b => ([1, 2, 3, 4, 5, 6, 7] : List Nat).foldl (fun c n =>
    c.modBeam (8 * b + n) fun x => { x with trLock := false, defect := false }) a) s2
  s3.thermLog 2 s3.eave.hottest g.val
/-- One group more is parked, if any is left. -/
def parkNext (s : State) (cap : Bool) : State :=
  match nextGroup s with
  | some g => parkGroup s g cap
  | none => s
/-- Every remaining group is parked. -/
def parkAll : Nat → State → State
  | 0, s => s
  | n + 1, s => parkAll n (parkNext s false)

/-- Groups parked by the governor, and by the bucket cap. -/
def Eave.parkedBy (e : Eave) (cap : Bool) : List GroupId := (e.parked.filter (fun p => p.2 == cap)).map (·.1)

/-- The cap parks a group (R468): k at k_max with P above 36.0 W for 200 spans, and 5 s after the cap's last. -/
def capParkDue (s : State) : Bool :=
  let e := s.eave
  e.capOn && decide (200 ≤ e.capSpans) && ((e.parkedBy true).isEmpty || decide (e.parkAt + secs 5 ≤ s.now))

/-- GROUP_PARK: step 3 parks one group, and at 105.0 °C every remaining group at once (R473); the cap parks one. -/
def execGroupPark (s : State) : Host.Outcome State Fault Refusal :=
  if s.fwRuns = false then .next s
  else if s.eave.step = 3 ∧ 1680 ≤ s.eave.gov then .next (parkAll 4 s)
  else if s.eave.step = 3 ∧ s.eave.parkedBy false = [] then .next (parkNext s false)
  else if capParkDue s ∧ s.eave.parkedBy true = [] then .next (parkNext s true)
  else .next s

/-- GROUP_PARK_REPEAT: a further group after each 5 s at 104.0 °C or more (R473). (Log DEDUCED 47) -/
def execGroupParkRepeat (s : State) : Host.Outcome State Fault Refusal :=
  if s.fwRuns ∧ s.eave.step = 3 ∧ 1664 ≤ s.eave.gov ∧ s.eave.parkedBy false ≠ [] ∧ s.eave.parkAt + secs 5 ≤ s.now then
    .next (parkNext s false)
  else .next s

/-- CAP_PARK_TIMER (R468). (Log DEDUCED 48) -/
def execCapParkTimer (s : State) : Host.Outcome State Fault Refusal :=
  if s.fwRuns ∧ capParkDue s then .next (parkNext s true) else .next s

/-- A group runs again: its beams are powered, with the gain of the layer's last value (R100, R474). Step 3 is released
with the last of the parked groups (R473). -/
def unparkGroup (s : State) (g : GroupId) : State :=
  let s1 : State := { s with eave := { s.eave with parked := s.eave.parked.filter (fun p => p.1 != g) } }
  let s2 := (groupBays g).foldl (fun a b => ([1, 2, 3, 4, 5, 6, 7] : List Nat).foldl (fun c n =>
    c.modBeam (8 * b + n) fun x =>
      { x with gain := match Tbl.get 0 x.gainOf (a.bay b).chan.layer with | 0 => x.gain | v + 1 => v }) a) s1
  let s3 := s2.thermLog 3 s2.eave.hottest g.val
  if s3.eave.step = 3 ∧ s3.eave.parked = [] then setStep s3 2 else s3

/-- GROUP_UNPARK: the governor's groups after each 10 s at or below EAVE_UNPARK_TJ, the cap's once it has released, one
per 10 s; in the reverse of the parking order (R468, R474). (Log DEDUCED 48) -/
def execGroupUnpark (s : State) : Host.Outcome State Fault Refusal :=
  let e := s.eave
  if s.fwRuns = false then .next s
  else
    let cool : Bool := match e.unparkSince with | some t => decide (t + secs 10 ≤ s.now) | none => false
    let free : Bool := match e.capFreeAt with | some t => !e.capOn && decide (t ≤ s.now) | none => false
    match (if cool then (e.parkedBy false).getLast? else none), (if free then (e.parkedBy true).getLast? else none) with
    | some g, _ => .next (unparkGroup { s with eave := { e with unparkSince := some s.now } } g)
    | none, some g => .next (unparkGroup { s with eave := { e with capFreeAt := some (s.now + secs 10) } } g)
    | none, none => .next s

/-! ## The energy bucket and the cap (R466 to R468) -/

/-- 480 J and 360 J. -/
def bucketFull : Nat := 48000000
def bucketFree : Nat := 36000000

/-- ITER_FIRST as the array's limit takes it: the largest of the bays. (Log DEDUCED 48) -/
def iterFirst (s : State) : Nat := (allBays.map (fun b => s.pnat 0x0420 b)).foldl max 1
/-- k_max: the largest k that leaves the array 1.1 times its coded input of the last span. (Log DEDUCED 48) -/
def kMax (s : State) (input : Nat) : Nat :=
  ((List.range 8).filter (fun k => decide (11 * input * 8 * iterFirst s ≤ 128000 * (8 - k) * 60))).foldl max 0

/-- E after a span (R467). (Log DEDUCED 48) -/
def bucketNext (e p : Nat) : Nat := min bucketFull ((e : Int) + p - 3600).toNat

/-- The cap's skip for a span: one up above 35.0 W, one down below 34.0 W. (Log DEDUCED 48) -/
def capStep (s : State) (k p input : Nat) : Nat :=
  if 3500 < p ∧ k < kMax s input then k + 1
  else if p < 3400 ∧ eaveSkip s.eave.step < k then k - 1
  else k

/-- The bucket and the cap at a span boundary. (Log DEDUCED 48; DESIGN CHOICE 50) -/
def bucketSpan (s : State) (power input : Nat) : State :=
  let e := s.eave
  let lvl := bucketNext e.bucket power
  let e1 := { e with power := power, codedInput := input, bucket := lvl }
  if e.capOn then
    let k := capStep s e.capSkip power input
    if lvl ≤ bucketFree then
      let s1 : State := { s with eave := { e1 with capOn := false, capSkip := 0, capSpans := 0, capFreeAt := some s.now } }
      (s1.thermLog 6 e.hottest 0xFF).constrain
    else
      { s with eave := { e1 with capSkip := k, capSpans := if k = kMax s input ∧ 3600 < power then e.capSpans + 1 else 0 } }
  else if lvl = bucketFull then
    let s1 : State := { s with eave := { e1 with capOn := true, capSkip := eaveSkip e.step, capSpans := 0, capFreeAt := none } }
    (s1.thermLog 5 e.hottest 0xFF).constrain
  else { s with eave := e1 }

end Sys2Proof.Machine
end

