-- ==== Sys2Proof/Machine/Admin.lean ====
section
/-! DEFINITION. The Claos admin commands: each row acts on the command at the head of core 0's queue when that is one of its
kind (R382 to R419). -/

namespace Sys2Proof.Machine

open Sys2Proof

/-! ## IDENTIFY and the logs (R388, R391, R393) -/

/-- A beam of bay `b` is untrimmed (R102). -/
def bayUntrimmed (s : State) (b : Nat) : Bool := (List.range 8).any (fun n => !(s.beam (8 * b + n)).loaded)
def untrimmed (s : State) : Bool := allBays.any (bayUntrimmed s)
/-- Installed DRAM in MiB, by the DRAM_CFG straps (R423). -/
def dramMiB (s : State) : Nat :=
  32768 * (if s.aon.dramCfg.val % 2 = 1 then 2 else 1) * (if s.aon.dramCfg.val / 2 = 1 then 2 else 1)
/-- A bit for each bay that meets a test. -/
def bayMask (f : Nat → Bool) : Nat := (allBays.map (fun b => bitNat (f b) * 2 ^ b)).foldl (· + ·) 0
/-- Key slots loaded. -/
def keysLoaded (s : State) : Nat := (s.sec.keys.filter (fun e => !e.2.isEmpty)).length
/-- Self-resets of the last hour. -/
def selfResetCount (s : State) : Nat := (s.aon.recentResets s.now).length

/-- The IDENTIFY record, with the release and the interface revision of the running image (R2, R404). (Log DEDUCED 127) -/
def identity (s : State) : List Byte :=
  let flags := bitNat (untrimmed s) + 2 * bitNat s.tapped + 4 * bitNat (decide (64 ≤ s.aon.fuseSvn))
    + 8 * bitNat (decide (s.mgmt.slot = 2)) + 16 * bitNat s.mgmt.staged.isSome
  beBytes 4 0x434C4944 ++ asciiPad 16 "HX-1608-A0" ++ (s.mgmt.release ++ zeros 16).take 16 ++ beBytes 2 s.mgmt.revision.toNat ++ beBytes 1 s.mode.code
    ++ beBytes 1 flags ++ beBytes 8 Config.serial.toNat ++ beBytes 1 (if s.tapped then s.ring.node else 0)
    ++ beBytes 1 Config.siliconRev.toNat ++ beBytes 1 s.aon.fuseSvn ++ beBytes 1 s.mgmt.svn ++ beBytes 1 s.mgmt.slot
    ++ beBytes 1 (keysLoaded s) ++ beBytes 2 (bayMask (bayUntrimmed s)) ++ beBytes 4 (dramMiB s)
    ++ beBytes 2 (bayMask (fun b => (s.bay b).present)) ++ beBytes 2 (selfResetCount s) ++ zeros 64

/-- IDENTIFY. -/
def execIdentify (s : State) : Host.Outcome State Fault Refusal :=
  adminRun (isOp 0x40) inF (fun c t => adminFinish t c stSuccess 0 0 0 (identity t)) s

/-- GET_LOG without CLEAR. -/
def execGetLog (s : State) : Host.Outcome State Fault Refusal :=
  adminRun (fun c => isOp 0x41 c && !c.flag0) inF getLog s
/-- GET_LOG with CLEAR. -/
def execGetLogClear (s : State) : Host.Outcome State Fault Refusal :=
  adminRun (fun c => isOp 0x41 c && c.flag0) inF getLog s

/-! ## The pattern (R394 to R398) -/

/-- Step 4 of R395: a cache enable without a completed invalidate-all is held at disabled (R452). -/
def patAllow (s : State) (id idx : Nat) (v : Int) : Int :=
  let k : Option Cache :=
    if id = 0x0A00 then some (if idx = 0 then .l1i 0 else .l1i 1)
    else if id = 0x0A01 then some (if idx = 0 then .l1d 0 else .l1d 1)
    else if id = 0x0A02 then some .l2 else none
  match k with
  | some c => if v = 1 ∧ (s.cache c).invDone = false then 0 else v
  | none => v

/-- The complete triples of a payload that came, each with its number; those of a unit that did not come are left out
(R397). -/
def triplesHere (c : AdminCmd) : List (Nat × Nat × Nat × Int) :=
  (triplesOf c.payload).zipIdx.filterMap (fun e =>
    if c.units.contains (e.2 / 512) then some (e.2, e.1.1, e.1.2.1, e.1.2.2) else none)

/-- Numbered triples processed in payload order. -/
def runTriples (allow : Nat → Nat → Int → Int) (p : Pattern) (l : List (Nat × Nat × Nat × Int)) : Pattern × List ClampEntry :=
  l.foldl (fun r e =>
    let q := applyTriple allow r.1 e.1 e.2.1 e.2.2.1 e.2.2.2
    (q.1, r.2 ++ q.2)) (p, [])

/-- Triples written, the report held in page 0x07, and the completion of R396. -/
def patternFinish (s : State) (c : AdminCmd) (l : List (Nat × Nat × Nat × Int)) (truncated : Bool) : State :=
  let r := runTriples (patAllow s) s.pat l
  let s1 : State := { s with pat := r.1, logs := { s.logs with clamp := r.2 } }
  let status := if truncated then stTruncated else if r.2.isEmpty then stSuccess else stClamped
  adminFinish s1 c status (bitNat !r.2.isEmpty) l.length r.2.length (r.2.map ClampEntry.be).flatten

/-- SET_PATTERN. -/
def execSetPattern (s : State) : Host.Outcome State Fault Refusal :=
  adminRun (isOp 0x42) inF
    (fun c t => patternFinish t c (triplesHere c) (decide (c.len % 8 ≠ 0) || c.short)) s

/-- GET_PATTERN: value in force and value pending of each index. -/
def getPattern (c : AdminCmd) (s : State) : State :=
  let id := c.arg 0 2
  let first := c.arg 2 2
  let n := c.arg 4 2
  if (patField id).isNone ∨ (List.range n).any (fun i => !patDefined id (first + i)) then adminEnd s c stOutOfRange
  else
    adminFinish s c stSuccess 0 0 0 (((List.range n).map (fun i =>
      beBytes 2 id ++ beBytes 2 (first + i) ++ beBytes 4 (unsignedOf 32 (s.pval id (first + i)))
        ++ beBytes 4 (unsignedOf 32 (s.pat.latest id (first + i))))).flatten)
/-- GET_PATTERN. -/
def execGetPattern (s : State) : Host.Outcome State Fault Refusal := adminRun (isOp 0x43) inF getPattern s

/-! ## Calibration (R408, R409) -/

/-- The trim fields of a record in its order: field, index, offset, and size, 1 for the unsigned beam codes. -/
def calFields : List (Nat × Nat × Nat × Nat) :=
  ((List.range 128).map (fun g => [(0x0B00, g, 32 + 4 * g, 1), (0x0B01, g, 33 + 4 * g, 1), (0x0B02, g, 34 + 4 * g, 1)])).flatten
    ++ (List.range 16).map (fun i => (0x0B03, i, 544 + 2 * i, 2))
    ++ (List.range 80).map (fun i => (0x0B04, i, 576 + 2 * i, 2))
    ++ (List.range 32).map (fun i => (0x0B05, i, 736 + 2 * i, 2))
    ++ (List.range 8).map (fun i => (0x0B06, i, 800 + 2 * i, 2))
/-- The record as numbered pattern triples. -/
def calTriples (l : List Byte) : List (Nat × Nat × Nat × Int) :=
  calFields.zipIdx.map (fun e =>
    let v : Int := if e.1.2.2.2 = 1 then beAt l e.1.2.2.1 1 else signedOf 16 (beAt l e.1.2.2.1 2)
    (e.2, e.1.1, e.1.2.1, v))
/-- Magic, format, length and CRC of a record hold. (Log DEDUCED 66) -/
def calValid (l : List Byte) : Bool :=
  decide (l.length = 1200) && (beAt l 0 4 == 0x5443414C) && (beAt l 4 2 == 1) && (beAt l 6 2 == 1200)
    && (beAt l 1196 4 == crc32c (l.take 1196))

/-- CAL_LOAD. (Log DEDUCED 66) -/
def calLoad (c : AdminCmd) (s : State) : State :=
  if calValid c.payload = false then adminEnd s c stOutOfRange
  else if beAt c.payload 8 8 ≠ Config.serial.toNat then adminEnd s c stSerialMismatch
  else
    let s1 := (List.range 128).foldl (fun a g => a.modBeam g fun x => { x with loaded := true }) s
    let s2 := { s1 with mgmt := { s1.mgmt with calDigest := sha384 c.payload } }.logFree .device 0x0E06 0xFF
    patternFinish s2 c (calTriples c.payload) false
def execCalLoad (s : State) : Host.Outcome State Fault Refusal := adminRun (isOp 0x44) inCal calLoad s

/-- A record built from the values in force; the informational station and date, which no rule gives, are `info`. -/
def calRecord (s : State) (info : Nat) : List Byte :=
  let codes := (List.range 128).map (fun g => beBytes 1 (s.pnat 0x0B00 g) ++ beBytes 1 (s.pnat 0x0B01 g)
    ++ beBytes 1 (s.pnat 0x0B02 g) ++ zeros 1)
  let words (id n : Nat) : List Byte := ((List.range n).map (fun i => beBytes 2 (unsignedOf 16 (s.pval id i)))).flatten
  let b := beBytes 4 0x5443414C ++ beBytes 2 1 ++ beBytes 2 1200 ++ beBytes 8 Config.serial.toNat ++ beBytes 16 info
    ++ codes.flatten ++ words 0x0B03 16 ++ words 0x0B04 80 ++ words 0x0B05 32 ++ words 0x0B06 8 ++ zeros 380
  b ++ beBytes 4 (crc32c b)
/-- CAL_READ. (Log DESIGN CHOICE 5; DEDUCED 66) -/
def execCalRead (s : State) : Host.Outcome State Fault Refusal :=
  adminRun (isOp 0x45) inF (fun c t =>
    let f := t.fresh
    adminFinish f.2 c stSuccess 0 0 0 (calRecord f.2 f.1)) s

/-! ## Keys (R416, R417) -/

/-- The key-wrapping key of a session (R416). -/
def wrapKey (x : Session) : List Byte := hkdfExpand x.secret (asciiPad 13 "claos keywrap") 32

/-- KEY_LOAD. (Log DEDUCED 67) -/
def keyLoad (c : AdminCmd) (s : State) : State :=
  let p := c.payload
  let slot := (byteAt p 4).toNat
  match s.sec.sessions.find? (fun x => x.established && x.sid.toNat == beAt p 0 4) with
  | none => adminEnd s c stAuthFailed
  | some x =>
    match gcmOpen (wrapKey x) ((p.drop 8).take 12) (p.take 8) ((p.drop 20).take 32) ((p.drop 52).take 16) with
    | none => adminEnd s c stAuthFailed
    | some key =>
      if slot = 0 then adminEnd s c stOutOfRange
      else if Tbl.get [] s.sec.keys slot ≠ [] ∧ (byteAt p 5).getLsbD 0 = false then adminEnd s c stBusy
      else adminFinish { s with sec := { s.sec with keys := Tbl.set [] s.sec.keys slot key } } c stSuccess 0 slot 0 []
/-- A KEY_LOAD payload of another length than 68 bytes is out of range. (Log DEDUCED 67) -/
def execKeyLoad (s : State) : Host.Outcome State Fault Refusal :=
  adminRun (isOp 0x46) inService (fun c t => if c.len = 68 then keyLoad c t else adminEnd t c stOutOfRange) s

/-- APPENDs in flight with unencrypted sectors under an erased slot end with KEY_INVALID (R373, R417). (Log DEDUCED 67) -/
def endAppends (s : State) (gone : Nat → Bool) : State :=
  (s.tags.filter (fun c => c.sqe.opcode == opAppend && c.started && c.sqe.key != 0 && gone c.sqe.key)).foldl (fun a c =>
    match c.csn with
    | some first => (a.giveUpAppend c).finish c.q c.sqe.tag 0 stKeyInvalid 0 c.taken.length first
    | none => a.finishFree c.q c.sqe.tag stKeyInvalid 0 c.taken.length) s

/-- KEY_ERASE of one slot. (Log DEDUCED 67) -/
def keyErase (c : AdminCmd) (s : State) : State :=
  let slot := c.arg 0 1
  if slot = 0 then adminEnd s c stOutOfRange
  else
    let s1 := { s with sec := { s.sec with keys := Tbl.set [] s.sec.keys slot [] } }
    adminEnd (endAppends s1 (· == slot)) c stSuccess
def execKeyErase (s : State) : Host.Outcome State Fault Refusal :=
  adminRun (fun c => isOp 0x47 c && !c.flag0) inF keyErase s
/-- KEY_ERASE with ALL. -/
def execKeyEraseAll (s : State) : Host.Outcome State Fault Refusal :=
  adminRun (fun c => isOp 0x47 c && c.flag0) inF
    (fun c t => adminEnd (endAppends { t with sec := { t.sec with keys := [] } } (fun _ => true)) c stSuccess) s

/-! ## Modes and queue pairs (R400, R401, R418) -/

/-- Step 4 of the governor is released by a request that leaves SAFE-STOP (R473). -/
def releaseCritical (s : State) : State :=
  if s.mode = .safeStop ∧ s.eave.step = 4 then setStep s (if s.eave.parked.isEmpty then 2 else 3) else s

/-- MODE_REQUEST: judged against R400 and completed when the transition is accepted. (Log DEDUCED 39) -/
def modeRequest (c : AdminCmd) (s : State) : State :=
  match modeOf (c.arg 0 1) with
  | none => adminEnd s c stOutOfRange
  | some m =>
    if s.mgmt.selfReset.isSome then adminEnd s c stBusy
    else if (requestTable s.mode).contains m = false then adminEnd s c stBadTransition
    else if s.mode = .quiesce ∧ m ≠ .active ∧ m ≠ .safeStop ∧ s.mgmt.drained = false then adminEnd s c stBadTransition
    else if s.mode = .safeStop ∧ safeStopHolds s then adminEnd s c stBadTransition
    else if m = .retire ∧ s.courses ≠ [] then adminEnd s c stBusy
    else goMode (releaseCritical (adminEnd s c stSuccess)) m mcRequest
def execModeRequest (s : State) : Host.Outcome State Fault Refusal := adminRun (isOp 0x48) inF modeRequest s

/-- Ring entries of all data queue pairs. -/
def entriesUsed (s : State) : Nat := ((s.qps.filter (fun e => decide (e.2.state ≠ .free))).map (fun e => e.2.depth)).foldl (· + ·) 0
/-- QP_CREATE: the gateway it came from is the peer. -/
def qpCreate (c : AdminCmd) (s : State) : State :=
  let n := c.arg 0 2
  let cls := c.arg 2 1
  let k := c.arg 3 1
  match c.via with
  | .carrier _ => adminEnd s c stOutOfRange
  | .ring g =>
    if n = 0 ∨ 4095 < n ∨ 3 < cls ∨ k < 4 ∨ 12 < k then adminEnd s c stOutOfRange
    else if (s.qp (.data n)).state ≠ .free then adminEnd s c stBusy
    else if 1048576 < entriesUsed s + 2 ^ k then adminEnd s c stNoResource
    else
      let s1 := s.modQp (.data n) fun _ => { state := .opened, peer := gwNode g, cls := cls, depth := 2 ^ k }
      sendAck (adminEnd s1 c stSuccess) (.data n) false
def execQpCreate (s : State) : Host.Outcome State Fault Refusal := adminRun (isOp 0x49) inT qpCreate s

/-- QP_DELETE. -/
def qpDelete (c : AdminCmd) (s : State) : State :=
  let n := c.arg 0 2
  if n = 0 ∨ 4095 < n then adminEnd s c stOutOfRange
  else match (s.qp (.data n)).state with
    | .opened | .unreachable => adminEnd (deleteQp s (.data n)) c stSuccess
    | _ => adminEnd s c stOutOfRange
def execQpDelete (s : State) : Host.Outcome State Fault Refusal := adminRun (isOp 0x4A) inT qpDelete s

/-! ## Events (R389, R390) -/

/-- ENABLE as an arm writes it: the bits of codes 1, 2 and 7 stay set, and there is no code 0. (Log DEDUCED 68) -/
def enableOf (v : Nat) : Word := ((BitVec.ofNat 32 v) ||| 0x86#32) &&& 0xFFFFFFFE#32
def State.setEnable (s : State) (v : Nat) : State := { s with events := { s.events with enable := enableOf v } }

/-- EVENT_ARM: in flight until an event is ready for it; a 17th ends with NO_RESOURCE and writes nothing.
(Log DEDUCED 68) -/
def eventArm (c : AdminCmd) (s : State) : State :=
  match c.via with
  | .carrier _ => adminEnd s c stOutOfRange
  | .ring g =>
    if 16 ≤ s.events.arms.length then adminEnd s c stNoResource
    else
      let s1 := s.setEnable (c.arg 0 4)
      { s1 with events := { s1.events with arms := s1.events.arms ++ [⟨g, c.tag, c.rlen⟩] } }
def execEventArm (s : State) : Host.Outcome State Fault Refusal :=
  adminRun (fun c => isOp 0x4B c && !c.flag0) inT eventArm s
/-- EVENT_ARM with MASK_ONLY. -/
def execEventArmMaskOnly (s : State) : Host.Outcome State Fault Refusal :=
  adminRun (fun c => isOp 0x4B c && c.flag0) inT (fun c t => adminEnd (t.setEnable (c.arg 0 4)) c stSuccess) s

/-- The count of dropped events becomes an event as soon as an entry is free (R389). -/
def Events.reportLost (e : Events) (now : Nat) : Events :=
  if 0 < e.lost ∧ e.others < 128 then { e with queue := e.queue ++ [⟨evEventsLost, now, beBytes 4 e.lost⟩], lost := 0 } else e

/-- EVENT_DELIVERY: the oldest event answers the oldest arm. -/
def execEventDelivery (s : State) : Host.Outcome State Fault Refusal :=
  match s.events.queue, s.events.arms with
  | e :: es, a :: rest =>
    if s.fwRuns = false then .next s
    else
      let ev := ({ s.events with queue := es, arms := rest }).reportLost s.now
      let s1 : State := { s with events := ev }
      let r := (beBytes 8 e.at_ ++ e.payload).take a.rlen
      .next ((sendResponse s1 a.gw a.tag r).postCqe (.admin a.gw) a.tag 0 stSuccess (bitNat !ev.queue.isEmpty) e.code
        (e.at_ % 2 ^ 32 * 2 ^ 32 + r.length))
  | _, _ => .next s

/-! ## Firmware (R410 to R412) -/

/-- FW_STAGE. -/
def fwStage (c : AdminCmd) (s : State) : State :=
  let i : ImageFile := { header := c.payload.take 512, body := c.payload.drop 512 }
  if imageVerifies i = false then adminEnd s c stAuthFailed
  else if imageSvn i < s.aon.fuseSvn ∨ 64 < imageSvn i then adminEnd s c stRollback
  else if imageRevision i / 256 ≠ 3 then adminEnd s c stOutOfRange
  else
    let g : Staged := { svn := imageSvn i, release := imageRelease i, revision := BitVec.ofNat 16 (imageRevision i), digest := imageDigest i }
    adminFinish { s with mgmt := { s.mgmt with staged := some g } } c stSuccess 0 (imageSvn i) 0 []
def execFwStage (s : State) : Host.Outcome State Fault Refusal := adminRun (isOp 0x4C) inT fwStage s

/-- FW_ACTIVATE LIVE: a restart into the staged image, not counted; the new image completes the command.
(Log DEDUCED 70) -/
def fwActivateLive (c : AdminCmd) (s : State) : State :=
  if s.mgmt.staged.isNone then adminEnd s c stOutOfRange
  else
    let s1 := mgmtRestart s false false none
    { s1 with mgmt := { s1.mgmt with live := some c } }
def execFwActivateLive (s : State) : Host.Outcome State Fault Refusal := adminRun (isAction 0x4D 0) inLive fwActivateLive s

/-- COMMIT_SVN: fuse bits blown until the fuse SVN equals the running one. (Log DESIGN CHOICE 44; DEDUCED 69) -/
def commitSvn (c : AdminCmd) (s : State) : State :=
  if s.mgmt.slot = 2 then adminEnd s c stRollback
  else if s.mgmt.svn ≤ s.aon.fuseSvn then adminEnd s c stSuccess
  else
    let s1 : State := { s with aon := { s.aon with fuseSvn := s.mgmt.svn } }
    adminEnd (s1.logFree .device 0x0E05 0xFF) c stSuccess
def execCommitSvn (s : State) : Host.Outcome State Fault Refusal := adminRun (isAction 0x4D 1) inF commitSvn s

/-! ## BAY_CONTROL (R419) -/

/-- The bay or group that a BAY_CONTROL names. -/
def onTarget (n : Nat) (f : Nat → AdminCmd → State → State) (c : AdminCmd) (s : State) : State :=
  if n ≤ c.arg 1 1 then adminEnd s c stOutOfRange else f (c.arg 1 1) c s

/-- WELT_RETRAIN: training restarts; a link held off by WELT_EN stays off. (Log DEDUCED 71) -/
def weltRetrain (b : Nat) (c : AdminCmd) (s : State) : State :=
  let s1 := if (s.bay b).welt.enabled then startTraining (s.modWelt b fun w => { w with attempts := 0 }) b else s
  adminEnd s1 c stSuccess
def execWeltRetrain (s : State) : Host.Outcome State Fault Refusal :=
  adminRun (isAction 0x4F 0) inBays (onTarget 16 weltRetrain) s

/-- SAFE_RESTART: the hourly count is cleared and a restart tried. -/
def tryRestart (b : Nat) (c : AdminCmd) (s : State) : State :=
  let s1 := s.modBay b fun y => { y with safeStarts := [] }
  adminEnd (if mayRestart s1 b then safeRestart s1 b else if (s1.bay b).state = .safe then settleBay s1 b else s1) c stSuccess
def execSafeRestart (s : State) : Host.Outcome State Fault Refusal :=
  adminRun (isAction 0x4F 1) inBays (onTarget 16 tryRestart) s

/-- CHOPPER_CLEAR: BUSY at a bus of 13.8 V or more. (Log DEDUCED 116) -/
def chopperClear (g : Nat) (c : AdminCmd) (s : State) : State :=
  if 13800 ≤ (s.bus g).mv then adminEnd s c stBusy
  else adminEnd (updateRegen (s.modBus g fun u => { u with chopFault := false }) g) c stSuccess
def execChopperClear (s : State) : Host.Outcome State Fault Refusal :=
  adminRun (isAction 0x4F 2) inBays (onTarget 4 chopperClear) s

/-- BAY_OUT: SAFE, and no scheduling or demand start. -/
def bayOut (b : Nat) (c : AdminCmd) (s : State) : State :=
  if (s.bay b).disc.isSome ∨ (s.bay b).mount.isSome then adminEnd s c stBayBusy
  else adminEnd ((s.enterSafe b 0x060D).modBay b fun y => { y with outOfService := true }) c stSuccess
def execBayOut (s : State) : Host.Outcome State Fault Refusal := adminRun (isAction 0x4F 3) inBays (onTarget 16 bayOut) s

/-- BAY_IN reverses BAY_OUT. -/
def bayIn (b : Nat) (c : AdminCmd) (s : State) : State :=
  adminEnd (settleBay (s.modBay b fun y => { y with outOfService := false }) b) c stSuccess
def execBayIn (s : State) : Host.Outcome State Fault Refusal := adminRun (isAction 0x4F 4) inBays (onTarget 16 bayIn) s

/-- REHOME: in SERVICE, on a bay that is EMPTY or LOADED. -/
def rehome (b : Nat) (c : AdminCmd) (s : State) : State :=
  if s.mode ≠ .service then adminEnd s c stWrongMode
  else if (s.bay b).state ≠ .empty ∧ (s.bay b).state ≠ .loaded then adminEnd s c stBayBusy
  else adminEnd (startHoming s b) c stSuccess
def execRehome (s : State) : Host.Outcome State Fault Refusal := adminRun (isAction 0x4F 5) inBays (onTarget 16 rehome) s

/-! ## Undefined commands, and payloads that do not come (R12, R385, R386) -/

/-- An opcode outside 0x40 to 0x4F, or an action that R411 and R419 do not define. -/
def undefinedAdmin (c : AdminCmd) : Bool :=
  decide (c.opcode < 0x40 ∨ 0x4F < c.opcode) || (c.opcode == 0x4D && decide (1 < c.arg 0 1))
    || (c.opcode == 0x4F && decide (5 < c.arg 0 1))
/-- ADMIN_UNDEFINED_OPCODE. (Log DEDUCED 65) -/
def execAdminUndefinedOpcode (s : State) : Host.Outcome State Fault Refusal :=
  adminRun undefinedAdmin (fun _ => true) (fun c t => adminEnd t c stOutOfRange) s

/-- ADMIN_PAYLOAD_TIMEOUT: the payload of the command being executed has not come within 1 s of its CMD frame. Nothing is
applied, but for the complete triples of a SET_PATTERN (R385, R397). -/
def execAdminPayloadTimeout (g : Gateway) (tag : Nat) (s : State) : Host.Outcome State Fault Refusal :=
  match s.adminQ with
  | [] => .next s
  | c :: rest =>
    if s.fwRuns = false ∨ c.via ≠ .ring g ∨ c.tag ≠ tag ∨ c.complete ∨ s.now < c.at_ + secs 1 then .next s
    else
      let s1 : State := { s with adminQ := rest, aon := { s.aon with kick0 := s.now } }
      .next (afterCal (if c.opcode = 0x42 then patternFinish s1 c (triplesHere c) true else adminEnd s1 c stTruncated))

end Sys2Proof.Machine
end

