-- ==== Sys2Proof/Machine/Decodes.lean ====
section
/-! DEFINITION. The LDPC array's reports: what its decisions hold, the iteration cap, the search of R117, and what the sector's reader
makes of it (R73, R92, R98, R117, R140, R144 to R146, R150, R188). -/

namespace Sys2Proof.Machine

open Sys2Proof

/-! ## What a report holds (R73, R144) -/

/-- Hard decisions of LLRs. -/
def hardBits (l : List Int) : List Bool := l.map (fun v => decide (v < 0))
/-- A sector after a decode: the bytes of each codeword that is decoded, the array's LLRs, and the most iterations of a codeword. -/
structure Decoded where
  cws : List (Option (List Byte))
  soft : List (List Int)
  iters : Nat
  deriving DecidableEq, Repr

/-- A codeword's bytes: held from before, or from decisions that satisfy all checks (R73). -/
def decodedCw (held : Option (List Byte)) (r : Option CwReport) : Option (List Byte) :=
  match held, r with
  | some x, _ => some x
  | none, some c => if converged (hardBits c.llr) then some (infoBytes (hardBits c.llr)) else none
  | none, none => none
def decodedOf (j : LdpcJob) (r : DecodeReport) : Decoded :=
  { cws := (List.range 4).map (fun c => decodedCw (j.held.getD c none) (r.cws.getD c none))
    soft := (List.range 4).map (fun c => ((r.cws.getD c none).map (·.llr)).getD [])
    iters := (r.cws.map (fun c => (c.map (·.iters)).getD 0)).foldl max 0 }
def Decoded.all (d : Decoded) : Bool := d.cws.all (·.isSome)
/-- The 4,128 bytes of a sector whose codewords are all decoded, in recording order (R69). -/
def Decoded.bytes (d : Decoded) : List Byte := d.cws.flatMap (fun c => c.getD [])
/-- A codeword that was sent has not converged. -/
def Decoded.unfinished (d : Decoded) (j : LdpcJob) : Bool :=
  (List.range 4).any (fun c => (j.llr.getD c none).isSome && (d.cws.getD c none).isNone)

/-- The sector of a target block that a job is of, with its record. -/
def jobSector (s : State) (b : Nat) (a : SlotAddr) : Option (Block × Nat × SecRec) :=
  match slotUse s b a with
  | .block l n k _ => if owed s b a then (s.block? b l n).map (fun x => (x, k, x.sec k)) else none
  | _ => none
/-- The iterations at which the array ends a codeword (R144, R188): 12 in steps 1 to 3; in a first decode 12 while the backlog is below 256
codewords, and ITER_FIRST in the verify test. (Log DEDUCED 161) -/
def iterCap (s : State) (b : Nat) (j : LdpcJob) : Nat :=
  let first := s.pnat 0x0420 b
  match slotUse s b j.addr, jobSector s b j.addr with
  | .verify _ _, _ => first
  | .spare _, _ => first
  | _, some (_, _, r) => if 1 ≤ r.step ∨ (s.dropJob b j.addr).backlog < 256 then 12 else first
  | _, none => if (s.dropJob b j.addr).backlog < 256 then 12 else first
/-- A report is of the codewords sent, each converged within the cap or iterated up to it. (Log DESIGN CHOICE 3) -/
def fitsJob (cap : Nat) (j : LdpcJob) (r : DecodeReport) : Bool :=
  decide (r.cws.length = 4) && (List.range 4).all (fun c => match j.llr.getD c none, r.cws.getD c none with
    | none, none => true
    | some _, some x => decide (x.llr.length = 9288)
        && (if converged (hardBits x.llr) then decide (x.iters ≤ cap) else decide (x.iters = cap))
    | _, _ => false)

/-! ## What the reader makes of it (R92, R140, R144 to R146, R150, R188) -/

/-- A target sector's decode: accepted with the depth of its step, or on to the next one. -/
def blockReport (s : State) (b : BayId) (j : LdpcJob) (d : Decoded) (cap : Nat) : State :=
  match slotUse s b.val j.addr, jobSector s b.val j.addr with
  | .block l n k remap, some (x, _, r) =>
    let beyond := decide (s.pnat 0x0420 b.val < d.iters)
    if d.all ∧ accepts (expectedOf s x k remap) d.bytes then
      let step := if r.step = 0 then bitNat beyond else r.step
      let depth := match x.phase with | .reread st _ => st | _ => step
      let s1 := s.modBlock b.val l n fun x => x.modSec k fun r => { r with carried := max r.carried step }
      blockComplete (acceptSector (noteEnvelope s1 b.val j.report) b.val l n k depth d.bytes) b.val l n
    else
      let s1 := s.modBlock b.val l n fun x => x.modSec k fun r =>
        { r with cws := if d.all then [] else d.cws, soft := d.soft, carried := if r.step = 0 then max r.carried (bitNat beyond) else r.carried
                 report := some j.report, searched := if j.search = 0 then r.searched else j.search }
      if r.step = 0 then
        firstFailed (copyRetry (noteUnreadable s1 b.val j.addr) b.val j.addr false) b.val l n k (decide (cap < 12) && d.unfinished j)
      else if r.step = 3 ∧ j.held = [] then
        -- CW0 of a candidate: with the LSN expected, CW1 to CW3 follow (R146)
        match d.cws.getD 0 none, retained s1 b.val (addrOf j.addr), j.lsn with
        | some cw, some kept, some lsn =>
          let rest := keptJob s1 b.val lsn j.report kept [] [some cw]
          if beAt cw 1024 4 = lsn ∧ rest.sends then s1.pushJob rest else stepFailed s1 b.val l n k
        | _, _, _ => stepFailed s1 b.val l n k
      else stepFailed s1 b.val l n k
  | _, _ => s

/-- The verify test of a sector read (R188): accepted by a first decode, within VERIFY_ITER and VERIFY_ERASE. -/
def verifyPasses (s : State) (b : Nat) (w : WriteSess) (lsn k : Nat) (remap : Bool) (t : DiscType) (j : LdpcJob) (d : Decoded) : Bool :=
  let e : Expected :=
    { lsn := lsn, layer := w.layer, remap := remap, tpar := decide (t.dataSectors ≤ k)
      cpar := match (s.bay b).disc.map (fun (x : Disc) => x.binding) with | some (.member _ i dd _ _) => some (decide (dd ≤ i)) | _ => some false }
  d.all && accepts e d.bytes && decide (d.iters ≤ w.took.getD 0 12) && j.report.erased.all (fun n => decide (n ≤ w.took.getD 1 1024))

/-- A sector's decode has ended. -/
def sectorReported (s : State) (b : BayId) (j : LdpcJob) (d : Decoded) (cap : Nat) : State :=
  let a := j.addr
  let s1 := if d.all then s else copyRetry s b.val a false
  match slotUse s b.val a, (s.bay b.val).disc, (s.bay b.val).write with
  | .system, _, _ =>
    if d.all then sysTake (dropRetry s b.val (addrOf a)) b a.zone a.layer.val a.spiral.val a.slot j.report.env (.bytes d.bytes)
    else notDecoded s1 b j.report
  | .verify n k, some x, some w =>
    if verifyPasses s b.val w (lsnOf x.dtype w.layer n k) k false x.dtype j d then
      noteEnvelope (judge s b.val (addrOf a) true) b.val j.report
    else notDecoded s1 b j.report
  | .spare h, some x, some w =>
    let k := ((sectorAt x.dtype (psaSpiral h) (psaSlot h - x.dtype.userStart)).map (·.2)).getD 0
    if verifyPasses s b.val w (j.lsn.getD 0) k true x.dtype j d then
      noteEnvelope (judgeSpare s b.val h (addrOf a) true) b.val j.report
    else notDecoded s1 b j.report
  | .block _ _ _ _, _, _ => blockReport s b j d cap
  | _, _, _ => s

/-- A search of R117 after CW0's decode at an offset: with the LSN expected CW1 to CW3 follow, otherwise the next offset, from the samples
still retained; without one the sector is erased. -/
def searchGoesOn (s : State) (b : BayId) (j : LdpcJob) (d : Decoded) : State :=
  let gone (s : State) (n : Nat) : State := notDecoded (noteSearched s b.val j.addr n) b { j.report with outcome := .erased }
  match heldSlot s b.val j.addr, j.lsn with
  | some m, some lsn =>
    let t := chanType s b.val
    let next (s : State) : State :=
      match searchJob t j.took b.val j.report (some lsn) m.llr m.kept.erased 9 (j.search + 1) with
      | some x => s.pushJob x
      | none => gone s 9
    (match d.cws.getD 0 none with
     | some cw =>
       let rest := sectorJob t j.took b.val { j.report with offset := searchOffset j.search } (some lsn) j.search [some cw] m.llr m.kept.erased
       if beAt cw 1024 4 = lsn then (if rest.sends then s.pushJob rest else gone s j.search) else next s
     | none => next s)
  | _, _ => gone s j.search

/-- LDPC_DECODE_DONE: the codewords of a sector that were sent have converged or reached their cap. -/
def execLdpcDecodeDone (b : BayId) (a : SlotAddr) (r : DecodeReport) (s : State) : Host.Outcome State Fault Refusal :=
  match s.job? b.val a with
  | none => .next s
  | some j =>
    let cap := iterCap s b.val j
    if fitsJob cap j r = false then .next s
    else
      let d := decodedOf j r
      let s1 := s.dropJob b.val a
      .next (sessionsStep (if 0 < j.search ∧ j.held = [] then searchGoesOn s1 b j d else sectorReported s1 b j d cap))

end Sys2Proof.Machine
end

