-- ==== Sys2Proof/Machine/Mctp.lean ====
section
/-! DEFINITION. The MCTP sideband: vendor-defined commands, the Claos carrier and the control commands (R384, R386, R400,
R420, R421). Message layouts of DSP0236 that the manual does not repeat are PRESUMED from that standard. -/

namespace Sys2Proof.Machine

open Sys2Proof

/-! ## Vendor-defined commands (R421) -/

/-- GET_STATUS's body. (Log DEDUCED 127) -/
def statusBody (s : State) : List Byte :=
  let flags := bitNat s.mgmt.noImage + 2 * bitNat s.tapped + 4 * bitNat (untrimmed s)
  beBytes 1 s.mode.code ++ beBytes 1 flags ++ beBytes 1 (if s.tapped then s.ring.node else 0) ++ beBytes 1 s.aon.fuseSvn
    ++ beBytes 2 (unsignedOf 16 s.eave.tmax) ++ beBytes 2 s.eave.power ++ beBytes 1 (min 255 (selfResetCount s))
/-- GET_STATUS. -/
def execGetStatus (inst : Byte) (s : State) : Host.Outcome State Fault Refusal :=
  if s.aon.supply then .next (mctpAnswer s 0x10 inst 0 (statusBody s)) else .next s

/-- GET_TEMPS's body: sixteen readings and the BROKEN mask. -/
def tempsBody (s : State) : List Byte :=
  ((List.range 16).map (fun i => beBytes 2 (unsignedOf 16 (s.eave.sensor i).tj))).flatten
    ++ beBytes 2 (bayMask (fun i => (s.eave.sensor i).broken))
/-- GET_TEMPS. -/
def execGetTemps (inst : Byte) (s : State) : Host.Outcome State Fault Refusal :=
  if s.aon.supply then .next (mctpAnswer s 0x11 inst 0 (tempsBody s)) else .next s

/-- RESET: in any mode but DARK. (Log DEDUCED 22) -/
def execReset (inst : Byte) (s : State) : Host.Outcome State Fault Refusal :=
  if s.aon.supply = false then .next s
  else if s.mode = .dark then .next (mctpAnswer s 0x12 inst 2 [])
  else .next ((mctpAnswer s 0x12 inst 0 []).enterReset 2)

/-- A WAKE is accepted: every valid sensor reads below 98.0 °C (R400). -/
def wakeOk (s : State) : Bool := (List.range 16).all (fun i => !(s.eave.sensor i).good || decide ((s.eave.sensor i).tj < 1568))
/-- WAKE: from DARK to RESET, with the count of self-resets cleared (R400, R482). -/
def execWake (inst : Byte) (s : State) : Host.Outcome State Fault Refusal :=
  if s.aon.supply = false then .next s
  else if s.mode ≠ .dark then .next (mctpAnswer s 0x13 inst 2 [])
  else if wakeOk s = false then .next (mctpAnswer s 0x13 inst 1 [])
  else .next ({ mctpAnswer s 0x13 inst 0 [] with aon := { s.aon with selfResets := [] } }.enterReset 8)

/-- SHUTDOWN: DARK, without a cut. (Log DEDUCED 22) -/
def execShutdown (inst : Byte) (s : State) : Host.Outcome State Fault Refusal :=
  if s.aon.supply = false then .next s else .next ((mctpAnswer s 0x14 inst 0 []).enterDark 6)

/-- SAFE_STOP: in TRANSIT to RETIRE. (Log DEDUCED 38) -/
def execSafeStop (inst : Byte) (s : State) : Host.Outcome State Fault Refusal :=
  if s.aon.supply = false then .next s
  else if s.mode.onRing = false then .next (mctpAnswer s 0x15 inst 2 [])
  else
    let s1 := mctpAnswer s 0x15 inst 0 []
    .next (if s.mode = .safeStop then s1 else s1.enterSafeStop mcMctp)

/-- A carrier command as core 0's queue takes it: its payload came whole with its message. -/
def carrierCmd (inst : Byte) (sqe payload : List Byte) (now : Nat) : AdminCmd :=
  let c := parseAdmin (.carrier inst) sqe now
  { c with payload := payload.take c.len, units := List.range c.unitCount }
/-- CLAOS: an admin SQE joins core 0's queue; a command that the carrier does not take, or one too long, ends at once with
OUT_OF_RANGE (R384, R386). (Log DEDUCED 65) -/
def execClaos (inst : Byte) (sqe payload : List Byte) (s : State) : Host.Outcome State Fault Refusal :=
  let c := carrierCmd inst sqe payload s.now
  if s.aon.supply = false then .next s
  else if inF s = false ∨ sqe.length ≠ 64 then .next (mctpAnswer s 0x16 inst 2 [])
  else if onCarrier c.opcode = false ∨ c.tooLong then .next (adminEnd s c stOutOfRange)
  else .next { s with adminQ := s.adminQ ++ [c] }

/-- The vendor-defined commands that R421 and R344 define, and whether the mode is one in which a command is answered.
(Log DEDUCED 32) -/
def vendorModes (s : State) (code : Nat) : Option Bool :=
  match code with
  | 0x10 | 0x11 | 0x14 | 0x30 | 0x31 => some true
  | 0x12 => some (decide (s.mode ≠ .dark))
  | 0x13 => some (decide (s.mode = .dark))
  | 0x15 => some s.mode.onRing
  | 0x16 => some (inF s)
  | 0x32 => some (s.powered 4)
  | _ => none
/-- MCTP_VENDOR_UNSUPPORTED: outside its modes a command completes with invalid, an undefined one with unsupported.
(Log DEDUCED 32) -/
def execMctpVendorUnsupported (inst code : Byte) (s : State) : Host.Outcome State Fault Refusal :=
  if s.aon.supply = false then .next s
  else match vendorModes s code.toNat with
    | some true => .next s
    | some false => .next (mctpAnswer s code.toNat inst 2 [])
    | none => .next (mctpAnswer s code.toNat inst 3 [])

/-! ## Control commands (R420) -/

/-- A control response: the completion code and the fields of DSP0236. (Log PRESUMED 31) -/
def controlAnswer (s : State) (code : Byte) (cc : Nat) (body : List Byte) : State := s.send (.mctpControl code (beBytes 1 cc ++ body))

/-- Set Endpoint ID: 0 and 0xFF are no endpoint IDs. (Log PRESUMED 31) -/
def execSetEndpointId (eid : Byte) (s : State) : Host.Outcome State Fault Refusal :=
  if s.aon.supply = false then .next s
  else if eid = 0 ∨ eid = 0xFF then .next (controlAnswer s 1 2 [])
  else .next (controlAnswer { s with aon := { s.aon with eid := eid } } 1 0 [0, eid, 0])
/-- Get Endpoint ID. (Log PRESUMED 31) -/
def execGetEndpointId (s : State) : Host.Outcome State Fault Refusal :=
  if s.aon.supply then .next (controlAnswer s 2 0 [s.aon.eid, 0, 0]) else .next s
/-- Get Endpoint UUID. -/
def execGetEndpointUuid (s : State) : Host.Outcome State Fault Refusal :=
  if s.aon.supply then .next (controlAnswer s 3 0 Config.uuid) else .next s
/-- Get MCTP Version Support: one version, which the manual does not name. (Log DESIGN CHOICE 5) -/
def execGetMctpVersionSupport (s : State) : Host.Outcome State Fault Refusal :=
  let f := s.fresh
  if s.aon.supply then .next (controlAnswer f.2 4 0 ([1] ++ beBytes 4 f.1)) else .next s
/-- Get Message Type Support. (Log PRESUMED 31) -/
def execGetMessageTypeSupport (s : State) : Host.Outcome State Fault Refusal :=
  if s.aon.supply then .next (controlAnswer s 5 0 [4, 0x00, 0x05, 0x06, 0x7F]) else .next s
/-- Get Vendor Defined Message Support: the IANA enterprise number, the only set; its version is not in the manual.
(Log DESIGN CHOICE 5) -/
def execGetVendorDefinedMessageSupport (s : State) : Host.Outcome State Fault Refusal :=
  let f := s.fresh
  if s.aon.supply then .next (controlAnswer f.2 6 0 ([0xFF, 1] ++ beBytes 4 Config.iana.toNat ++ beBytes 2 f.1)) else .next s
/-- Any other control command: ERROR_UNSUPPORTED_CMD. (Log PRESUMED 31) -/
def execMctpControlUnsupported (code : Byte) (s : State) : Host.Outcome State Fault Refusal :=
  if s.aon.supply = false ∨ (1 ≤ code.toNat ∧ code.toNat ≤ 6) then .next s else .next (controlAnswer s code 5 [])

end Sys2Proof.Machine
end

