-- ==== Sys2Proof/Machine/Span.lean ====
section
/-! DEFINITION. What every span boundary does, and the test access port (R204, R225, R340 to R342, R395, R430, R452, R467,
R506). -/

namespace Sys2Proof.Machine

open Sys2Proof

/-- WELT_EN at a span boundary (R213, R225): set to 0, the bay enters SAFE and the link stops; set to 1, it trains.
(Log DEDUCED 71, 103) -/
def weltEnable (s : State) (b : Nat) : State :=
  let on := decide (s.pval 0x0680 b = 1)
  if s.powered 19 = false ∨ on = (s.bay b).welt.enabled then s
  else if on then startTraining (s.modWelt b fun w => { w with enabled := true, attempts := 0 }) b
  else (s.enterSafe b 0x060C).modWelt b fun _ => { enabled := false }

/-- The count of R224 for a span starts anew. -/
def weltSpan (s : State) (b : Nat) : State := (weltEnable s b).modWelt b fun w => { w with spanMissing := 0 }

/-- MR4 of both channels (R430): above 95 °C it is reported to the governor, and recorded when it begins. -/
def mr4Span (s : State) (a b : Nat) (driftA driftB : Int) : State :=
  let s1 := dramSpan (dramSpan s 0 a driftA) 1 b driftB
  let up (c : Nat) : Bool := decide ((s1.chan c).state = .up)
  let hot := (up 0 && decide (a = 4)) || (up 1 && decide (b = 4))
  let s2 : State := { s1 with eave := { s1.eave with dramHot := hot } }
  if hot && !s.eave.dramHot then s2.thermLog 7 s.eave.hottest 0xFF else s2

/-- Heartbeats and the miss count of a tapped engine's ports (R340, R341). -/
def heartbeatSpan (s : State) : State :=
  if s.tapped ∧ s.powered 4 then missSpan (missSpan (sendHeartbeat (sendHeartbeat s .east) .west) .east) .west else s

/-- Uncorrectable FEC codewords that a port has met in the span (R349). -/
def fecSpan (s : State) (p : Port) (n : Nat) : State :=
  if s.powered p.domain then s.modPort p fun x => { x with fecUncorr := min 255 (x.fecUncorr + n) } else s
/-- The loopback self-test of an untapped engine: both receivers locked for 1 ms with no uncorrectable codeword (R322). -/
def selfTestSpan (s : State) (east west : Nat) : State :=
  let ok (x : PortState) : Bool := x.pcs && decide (x.lockAt + msec 1 ≤ s.now)
  if s.tapped = false ∧ s.mode = .enrol ∧ ok s.ring.east ∧ ok s.ring.west ∧ east = 0 ∧ west = 0 then
    { s with mgmt := { s.mgmt with selfTest := true } }
  else s

/-- SPAN_BOUNDARY: pending values come into force, and the span's tasks run. (Log DESIGN CHOICE 1, 50) -/
def execSpanBoundary (power codedInput : Nat) (mr4a mr4b : Fin 5) (driftA driftB : Int) (fecEast fecWest : Nat) (s : State) :
    Host.Outcome State Fault Refusal :=
  if s.aon.supply = false ∨ s.aon.refSys = false ∨ s.now % 200 ≠ 0 then .next s
  else
    let s1 : State := { s with pat := s.pat.settle [.span] }
    let s2 := mr4Span (bucketSpan s1 power codedInput) mr4a.val mr4b.val driftA driftB
    let s3 := ringEventSpan (heartbeatSpan (if s2.powered 1 then cacheEnable s2 else s2))
    .next (allBays.foldl weltSpan (selfTestSpan (fecSpan (fecSpan s3 .east fecEast) .west fecWest) fecEast fecWest))

/-! ## The test access port (R506) -/

/-- IDCODE. (Log DEDUCED 26) -/
def idcode : Nat := Config.siliconRev.toNat * 2 ^ 28 + 0x1608 * 2 ^ 12 + Config.jep106.toNat * 2 + 1
/-- The instruction executed: in RESET every one, in any other mode BYPASS, IDCODE and SAMPLE. (Log DEDUCED 26) -/
def tapExecuted (m : Mode) (i : TapInstr) : TapInstr :=
  match i with
  | .bypass => .bypass
  | .idcode => .idcode
  | .sample => .sample
  | .other c => if m = .reset then .other c else .bypass
/-- TAP_INSTRUCTION. (Log DEDUCED 26) -/
def execTapInstruction (i : TapInstr) (s : State) : Host.Outcome State Fault Refusal :=
  if s.aon.supply = false then .next s
  else .next (s.send (.tap (tapExecuted s.mode i) (if i = .idcode then idcode else 0)))

end Sys2Proof.Machine
end

