-- ==== Sys2Proof/Machine/Spdm.lean ====
section
/-! DEFINITION. The SPDM 1.2 responder, over MCTP and inside SPDM_TUNNEL (R413 to R415). Codes and layouts of DSP0274 that
the manual does not repeat are PRESUMED from that standard; a message inside a session is recorded in `sent` before its
secured record is made. -/

namespace Sys2Proof.Machine

open Sys2Proof

/-- A response: what the request leaves of the state, the response code, and the bytes from Param1 on. -/
abbrev SpdmAnswer := State × Byte × List Byte

/-- An ERROR response (DSP0274): the error code and its data. (Log PRESUMED 33) -/
def spdmError (s : State) (code data : Byte) : SpdmAnswer := (s, 0x7F, [code, data])

/-- A session held. -/
def State.spdmSession (s : State) (sid : Word) : Option Session := s.sec.sessions.find? (fun x => x.sid == sid)
/-- The session that a request came in, if any. -/
def viaSession : SpdmVia → Option Word
  | .mctp => none
  | .mctpSession sid => some sid
  | .tunnel _ _ => none
  | .tunnelSession _ _ sid => some sid
def viaTunnel : SpdmVia → Option (Gateway × Nat)
  | .mctp | .mctpSession _ => none
  | .tunnel g t => some (g, t)
  | .tunnelSession g t _ => some (g, t)

/-- A request over MCTP is answered over MCTP; one in a tunnel completes the SPDM_TUNNEL at the head of core 0's queue. A
record of an unknown session is not answered. (Log DESIGN CHOICE 34) -/
def spdmRun (v : SpdmVia) (f : State → SpdmAnswer) (s : State) : Host.Outcome State Fault Refusal :=
  if inF s = false ∨ s.fwRuns = false then .next s
  else if (match viaSession v with | some sid => (s.spdmSession sid).isNone | none => false) then .next s
  else match viaTunnel v with
    | none =>
      let r := f s
      .next (r.1.send (.spdm v r.2.1 r.2.2))
    | some (g, tag) =>
      adminRun (fun c => isOp 0x4E c && decide (c.via = .ring g) && c.tag == tag) inF (fun c t =>
        let r := f t
        let m := [0x12, r.2.1] ++ r.2.2
        match viaSession v with
        | none => adminFinish r.1 c stSuccess 0 0 0 m
        | some sid => adminFinish { r.1 with freeCtr := r.1.freeCtr + 1 } c stSuccess 0 0 0 (Config.securedRecord sid r.1.freeCtr m)) s

/-! ## Requests -/

/-- GET_VERSION: 1.2; negotiation begins anew. (Log PRESUMED 33) -/
def spdmVersion (s : State) : SpdmAnswer :=
  ({ s with sec := { s.sec with versionSet := true, algorithmsSet := false } }, 0x04, [0, 0, 0, 1, 0x00, 0x12])
def execGetVersion (v : SpdmVia) (s : State) : Host.Outcome State Fault Refusal := spdmRun v spdmVersion s

/-- CERT, CHAL, MEAS with signature, ENCRYPT, MAC, KEY_EX, HBEAT and KEY_UPD; the timing and size fields are free values.
(Log DESIGN CHOICE 5; PRESUMED 33) -/
def spdmCapabilities (s : State) : SpdmAnswer :=
  if s.sec.versionSet = false then spdmError s 4 0
  else
    let f := s.fresh
    let g := f.2.fresh
    (g.2, 0x61, [0, 0, 0] ++ beBytes 1 f.1 ++ zeros 2 ++ leBytes 4 0x62D6 ++ beBytes 8 g.1)
def execGetCapabilities (v : SpdmVia) (s : State) : Host.Outcome State Fault Refusal := spdmRun v spdmCapabilities s

/-- ECDSA P-384, SHA-384, secp384r1 and AES-256-GCM. (Log PRESUMED 33) -/
def spdmAlgorithms (s : State) : SpdmAnswer :=
  if s.sec.versionSet = false then spdmError s 4 0
  else
    ({ s with sec := { s.sec with algorithmsSet := true } }, 0x63,
      [3, 0] ++ leBytes 2 48 ++ [1, 0] ++ leBytes 4 4 ++ leBytes 4 0x80 ++ leBytes 4 2 ++ zeros 16
        ++ [2, 0x20] ++ leBytes 2 0x10 ++ [3, 0x20] ++ leBytes 2 2 ++ [5, 0x20] ++ leBytes 2 1)
def execNegotiateAlgorithms (v : SpdmVia) (s : State) : Host.Outcome State Fault Refusal := spdmRun v spdmAlgorithms s

/-- What follows the negotiation is answered once it is made. -/
def negotiated (s : State) (f : State → SpdmAnswer) : SpdmAnswer := if s.sec.algorithmsSet then f s else spdmError s 4 0

/-- GET_DIGESTS: slot 0 alone holds a chain. -/
def spdmDigests (s : State) : SpdmAnswer := negotiated s fun t => (t, 0x01, [0, 1] ++ sha384 Config.certChain)
def execGetDigests (v : SpdmVia) (s : State) : Host.Outcome State Fault Refusal := spdmRun v spdmDigests s

/-- GET_CERTIFICATE: a portion of the chain of slot 0. (Log PRESUMED 33) -/
def spdmCertificate (slot offset length : Nat) (s : State) : SpdmAnswer :=
  negotiated s fun t =>
    if slot ≠ 0 ∨ Config.certChain.length ≤ offset then spdmError t 1 0
    else
      let part := (Config.certChain.drop offset).take length
      (t, 0x02, [0, 0] ++ leBytes 2 part.length ++ leBytes 2 (Config.certChain.length - offset - part.length) ++ part)
def execGetCertificate (v : SpdmVia) (slot offset length : Nat) (s : State) : Host.Outcome State Fault Refusal :=
  spdmRun v (spdmCertificate slot offset length) s

/-- A response signed with the device key over the requester's nonce and the response, with a fresh nonce of the engine's. -/
def signed (s : State) (code : Byte) (nonce body : List Byte) : SpdmAnswer :=
  let b := body ++ Config.responderNonce s.freeCtr ++ zeros 2
  ({ s with freeCtr := s.freeCtr + 1 }, code, b ++ Config.deviceSignature (nonce ++ [0x12, code] ++ b))

/-- CHALLENGE. (Log PRESUMED 33) -/
def spdmChallenge (slot : Nat) (nonce : List Byte) (s : State) : SpdmAnswer :=
  negotiated s fun t => if slot ≠ 0 then spdmError t 1 0 else signed t 0x03 nonce ([0, 1] ++ sha384 Config.certChain)
def execChallenge (v : SpdmVia) (slot : Nat) (nonce : List Byte) (s : State) : Host.Outcome State Fault Refusal :=
  spdmRun v (spdmChallenge slot nonce) s

/-- A measurement block in the DMTF form: index, specification 1, size, value type with bit 7 for a raw value, size. -/
def measurement (index type_ : Nat) (raw : Bool) (value : List Byte) : List Byte :=
  beBytes 1 index ++ [1] ++ leBytes 2 (value.length + 3) ++ beBytes 1 (type_ + 128 * bitNat raw) ++ leBytes 2 value.length ++ value
/-- The five blocks of R414. (Log DEDUCED 28; PRESUMED 33) -/
def measurements (s : State) : List (List Byte) :=
  [measurement 1 0 false Config.romDigest, measurement 2 1 false s.mgmt.imageDigest,
   measurement 3 7 true (beBytes 1 s.mgmt.svn ++ beBytes 1 s.aon.fuseSvn), measurement 4 2 false Config.otpDigest,
   measurement 5 3 false (if s.mgmt.calDigest.isEmpty then zeros 48 else s.mgmt.calDigest)]

/-- GET_MEASUREMENTS: index 0 asks for their number, 0xFF for all, and any other for one. -/
def spdmMeasurements (index : Nat) (sign : Bool) (nonce : List Byte) (s : State) : SpdmAnswer :=
  negotiated s fun t =>
    let ms := measurements t
    if 5 < index ∧ index ≠ 255 then spdmError t 1 0
    else
      let blocks := if index = 0 then [] else if index = 255 then ms else (ms.drop (index - 1)).take 1
      let body := beBytes 1 (if index = 0 then 5 else 0) ++ [0] ++ beBytes 1 blocks.length ++ leBytes 3 blocks.flatten.length
        ++ blocks.flatten
      if sign then signed t 0x60 nonce body
      else ({ t with freeCtr := t.freeCtr + 1 }, 0x60, body ++ Config.responderNonce t.freeCtr ++ zeros 2)
def execGetMeasurements (v : SpdmVia) (index : Nat) (sign : Bool) (nonce : List Byte) (s : State) :
    Host.Outcome State Fault Refusal := spdmRun v (spdmMeasurements index sign nonce) s

/-! ## Sessions (R415) -/

/-- KEY_EXCHANGE: a session opens; beyond four the answer is ERROR Busy. (Log PRESUMED 33) -/
def spdmKeyExchange (tunnel : Bool) (req : Half) (exchange : List Byte) (s : State) : SpdmAnswer :=
  negotiated s fun t =>
    if 4 ≤ t.sec.sessions.length then spdmError t 3 0
    else
      let rsp := Config.sessionId t.sec.opened
      let sid : Word := req ++ rsp
      let x : Session := { sid := sid, secret := Config.exportSecret sid exchange, established := false, viaTunnel := tunnel }
      ({ t with sec := { t.sec with sessions := t.sec.sessions ++ [x], opened := t.sec.opened + 1 } }, 0x64,
        [0, 0] ++ leBytes 2 rsp.toNat ++ [0, 0] ++ Config.keyExchangeAnswer sid exchange)
def execKeyExchange (v : SpdmVia) (reqSession : Half) (exchange : List Byte) (s : State) : Host.Outcome State Fault Refusal :=
  spdmRun v (spdmKeyExchange (viaTunnel v).isSome reqSession exchange) s

/-- A session taken away. -/
def endSession (s : State) (sid : Word) : State :=
  { s with sec := { s.sec with sessions := s.sec.sessions.filter (fun x => x.sid != sid) } }

/-- FINISH: the handshake ends; verification data that do not match end the session. (Log PRESUMED 33) -/
def spdmFinish (sid : Word) (verifyData : List Byte) (s : State) : SpdmAnswer :=
  match s.spdmSession sid with
  | none => spdmError s 2 0
  | some _ =>
    if Config.finishVerifies sid verifyData then
      ({ s with sec := { s.sec with sessions := s.sec.sessions.map (fun x => if x.sid == sid then { x with established := true } else x) } },
        0x65, [0, 0])
    else spdmError (endSession s sid) 6 0
def execFinish (v : SpdmVia) (sid : Word) (verifyData : List Byte) (s : State) : Host.Outcome State Fault Refusal :=
  spdmRun v (spdmFinish sid verifyData) s

/-- What an established session answers. -/
def inSession (s : State) (sid : Word) (f : State → SpdmAnswer) : SpdmAnswer :=
  match s.spdmSession sid with
  | some x => if x.established then f s else spdmError s 4 0
  | none => spdmError s 2 0

/-- HEARTBEAT. -/
def execSpdmHeartbeat (v : SpdmVia) (sid : Word) (s : State) : Host.Outcome State Fault Refusal :=
  spdmRun v (fun t => inSession t sid fun u => (u, 0x68, [0, 0])) s
/-- KEY_UPDATE: the operations of DSP0274 are 1 to 3; the export secret of the session stands. (Log DEDUCED 35) -/
def execKeyUpdate (v : SpdmVia) (sid : Word) (op : Nat) (s : State) : Host.Outcome State Fault Refusal :=
  spdmRun v (fun t => inSession t sid fun u => if 1 ≤ op ∧ op ≤ 3 then (u, 0x69, beBytes 1 op ++ [0]) else spdmError u 1 0) s
/-- END_SESSION: keys loaded under it stay loaded. -/
def execEndSession (v : SpdmVia) (sid : Word) (s : State) : Host.Outcome State Fault Refusal :=
  spdmRun v (fun t => inSession t sid fun u => (endSession u sid, 0x6C, [0, 0])) s

/-- The request codes of R413. -/
def spdmKnown (code : Nat) : Bool :=
  ([0x84, 0xE1, 0xE3, 0x81, 0x82, 0x83, 0xE0, 0xE4, 0xE5, 0xE8, 0xE9, 0xEC] : List Nat).contains code
/-- Any other request: ERROR UnsupportedRequest. -/
def execSpdmUnsupportedRequest (v : SpdmVia) (code : Byte) (s : State) : Host.Outcome State Fault Refusal :=
  if spdmKnown code.toNat then .next s else spdmRun v (fun t => spdmError t 7 code) s

/-! ## SPDM_TUNNEL (R413, R415) -/

/-- The answer to a plain SPDM message, read from its bytes; a FINISH or a session's message comes in a secured record, which
is no plain message. -/
def spdmMessage (p : List Byte) (s : State) : SpdmAnswer :=
  match (byteAt p 1).toNat with
  | 0x84 => spdmVersion s
  | 0xE1 => spdmCapabilities s
  | 0xE3 => spdmAlgorithms s
  | 0x81 => spdmDigests s
  | 0x82 => spdmCertificate ((byteAt p 2).toNat % 16) (leAt p 4 2) (leAt p 6 2) s
  | 0x83 => spdmChallenge ((byteAt p 2).toNat % 16) ((p.drop 4).take 32) s
  | 0xE0 => spdmMeasurements (byteAt p 3).toNat ((byteAt p 2).getLsbD 0) ((p.drop 4).take 32) s
  | 0xE4 => spdmKeyExchange true (BitVec.ofNat 16 (leAt p 4 2)) ((p.drop 40).take 96) s
  | _ => if spdmKnown (byteAt p 1).toNat then spdmError s 4 0 else spdmError s 7 (byteAt p 1)
/-- A payload is a plain SPDM message: its first byte is an SPDM version. -/
def plainSpdm (p : List Byte) : Bool := (byteAt p 0).toNat / 16 == 1

/-- SPDM_TUNNEL: one SPDM message each way. A secured record is answered by the command of the request that it carries.
(Log DESIGN CHOICE 34) -/
def execSpdmTunnel (s : State) : Host.Outcome State Fault Refusal :=
  adminRun (fun c => isOp 0x4E c && plainSpdm c.payload) inF (fun c t =>
    let r := spdmMessage c.payload t
    adminFinish r.1 c stSuccess 0 0 0 ([0x12, r.2.1] ++ r.2.2)) s

end Sys2Proof.Machine
end

