-- ==== Sys2Proof/Machine/WritePath.lean ====
section
/-! DEFINITION. The write path's events: opening a session, blank scan and OPC, the feed and its stops, verify and
replacements, and the close with its updates (R170 to R201). -/

namespace Sys2Proof.Machine

open Sys2Proof

/-! ## Opening a session (R171, R172, R177, R182, R194) -/

/-- A bay is free for a run of the write path: TRACK, registered and at speed, with no read run, sequence or parking. -/
def mayWrite (s : State) (b : Nat) : Bool := mayRun s b && (s.bay b).mount.isNone && !(s.bay b).dibCheck

/-- A course needs a session on a member's disc: to bind it or to read its binding back, to bring it into line, to record complete rows,
to give padding its write sequence, or to seal it. -/
def sessionNeeded (s : State) (c : Course) (b : Nat) : Bool :=
  match (s.bay b).disc with
  | none => false
  | some d =>
    let rows := match c.closing with | some m => min m (readyEnd s c b) | none => readyEnd s c b
    !c.stopped && !d.sealed && !d.full && !d.readOnly
      && (if c.opening.isSome then decide (d.binding = .unbound) || d.dibDue || decide (d.rowsEnd < c.alignTo)
          else decide (d.rowsEnd < rows) || c.missing.any (fun n => csnDisc c.dtype c.d n == c.memberAt b)
            || (c.sealed && decide (c.rowsBegun ≤ c.committed)))

/-- A session's first block: the append point of the layer in progress. -/
def sessionStart (d : Disc) : Nat × Nat :=
  let m := d.rowsEnd
  if rowLayer d.dtype m < d.layers then (rowLayer d.dtype m, rowBlock d.dtype m) else (d.layers - 1, d.dtype.blocks)

/-- VERIFY_ITER, VERIFY_ERASE and SPARE_TRIES, which a segment takes as it begins (R201, R202). -/
def segmentTake (s : State) : List Nat := [s.pnat 0x0511 0, s.pnat 0x0512 0, s.pnat 0x0513 0]
/-- SESSION_OPEN. `draws` are values of the random bit generator (R82). -/
def execSessionOpen (b : BayId) (draws : List Word) (s : State) : Host.Outcome State Fault Refusal :=
  match s.courseOfBay b.val, (s.bay b.val).disc with
  | some c, some d =>
    let waits := match (s.bay b.val).write with | some w => decide (w.phase = .waitTemp) | none => true
    if mayWrite s b.val = false ∨ waits = false ∨ sessionNeeded s c b.val = false then .next s
    else
      let i := c.memberAt b.val
      let at_ := sessionStart d
      let opened := match (s.bay b.val).write with | some w => w.openedAt | none => s.now
      let limit := match (s.bay b.val).write with | some w => w.resumeBy | none => some s.resumeLimit
      let w0 : WriteSess :=
        { handle := c.handle, seq := 0, phase := .waitTemp, layer := at_.1, start := at_.2, j := d.dtype.firstIndex at_.2, low := at_.2
          segment := at_.2, openedAt := opened, resumeBy := limit, segs := s.pnat 0x0510 0, took := segmentTake s
          nextOpc := d.nextOpc.getD at_.1 0 }
      if 4 ≤ (s.bay b.val).welt.band.level then .next (s.modBay b.val fun y => { y with write := some w0 })
      else
        let drawn := Tbl.get 0 c.nextSeq i
        match if drawn ≠ 0 then some drawn else drawSeq d [] draws with
        | none => .next s
        | some q =>
          let bound := decide (d.binding ≠ .unbound) && !d.dibDue
          let ph : SessPhase := if bound then (if at_.2 < d.dtype.blocks then .blankScan else .ready) else .binding
          let s1 := s.modBay b.val fun y =>
            { y with write := some { w0 with seq := q, phase := ph, resumeBy := none }
                     disc := y.disc.map fun d => { d with usedSeqs := addNew d.usedSeqs [q] } }
          let s2 := s1.modCourse c.handle fun c => { c with nextSeq := Tbl.set 0 c.nextSeq i 0 }
          let s3 := if d.binding = .unbound then bindDisc s2 b c q else s2
          .next (sessionsStep (fillMissing s3 c.handle))
  | _, _ => .next s

/-- BLANK_SCAN_DONE: the scan's run has met 140 consecutive indices without a slot other than blank, and OPC follows; the slots that it found
not blank are defective (R62, R172). -/
def execBlankScanDone (b : BayId) (s : State) : Host.Outcome State Fault Refusal :=
  match (s.bay b.val).write with
  | some w =>
    if w.phase ≠ .blankScan ∨ w.scanBlank < 140 ∨ mayWrite s b.val = false then .next s
    else .next (s.modWrite b.val fun w => { w with phase := .opc })
  | none => .next s

/-- Channel bits of slot `i` of an OPC unit (R177): RL45 words of the keystream seeded with 1 + i, in slot timing.
(Log DEDUCED 91) -/
def opcBits (t : DiscType) (i : Nat) : List Bool :=
  (rl45Bits (scrambler (4 * (t.slotLen / 5 + 1)) (BitVec.ofNat 16 (1 + i)))).take t.slotLen
/-- OPC_DONE: a unit, at or above the next-unit value, whose first slot is blank on every data spiral is recorded at 32 powers
and read back (R50, R177, R178). The session is then ready. (Log DEDUCED 91; DESIGN CHOICE 96) -/
def execOpcDone (b : BayId) (blankUnits : List Nat) (peaks : List (Option (Int × Int))) (s : State) :
    Host.Outcome State Fault Refusal :=
  match (s.bay b.val).disc, (s.bay b.val).write with
  | some d, some w =>
    if w.phase ≠ .opc ∨ mayWrite s b.val = false then .next s
    else
      let l := w.layer
      let h := d.hints.getD l default
      let last := d.lastOpc.getD l 0
      let p0 := if last = 0 then h.startPower else last
      let next := d.nextOpc.getD l 0
      let fits := blankUnits.filter (fun u => decide (next ≤ u ∧ u < d.dtype.opcUnits))
      let band := min 3 (s.bay b.val).welt.band.level
      let set (t : State) (p : Int) (u : Nat) : State := t.modWrite b.val fun w =>
        { w with phase := .ready, opcPower := p.toNat, opcBand := band, nextOpc := u }
      let s1 := match fits with
        | [] => (set s p0 next).bayLogFree b.val 0x0503
        | x :: r =>
          let u := r.foldl min x
          let t := (List.range 32).foldl (fun (a : State) (i : Nat) => a.send (.recordOpc b l u i
            (strategyAt s b l (roundDiv (opcStep p0 h i) 200).toNat) (opcBits d.dtype i))) s
          match opcResult p0 h peaks with
          | .found p => set t p (u + 1)
          | .edge p => (set t p (u + 1)).bayLogFree b.val 0x0501
          | .failed => (set t p0 (u + 1)).bayLogFree b.val 0x0502
      match s1.courseOfBay b.val with
      | some c => .next (if c.opening.isSome ∧ openReady s1 c then openDone s1 c.handle else s1)
      | none => .next s1
  | _, _ => .next s

/-! ## The feed (R173 to R176, R179, R180, R183, R185, R200) -/

/-- A read that a write session pauses for: one of the urgent or interactive class, or a re-read pass (R20, R150).
(Log DEDUCED 89) -/
def readWaits (s : State) (b : Nat) : Bool :=
  s.recov.blocks.any (fun x => x.bay.val == b && waitsRun s x && (match blockRank s x with
    | some k => x.isReread || decide (k.1 ≤ 1)
    | none => false))

/-- The slot of the data band at which a session records next: in the user zone, or in the spare zone for its replacements. -/
def WriteSess.nextSlot (w : WriteSess) (t : DiscType) : Nat :=
  match w.phase, w.presentSpares t with
  | .replacing, x :: _ => t.spareStart + x.pos / t.spirals
  | _, _ => t.userStart + w.j
/-- The head approaches from at least one turn before the slot (R176). (Log DEDUCED 162) -/
def approached (s : State) (b : Nat) (t : DiscType) (slot : Nat) : Bool :=
  let c := slotGrid t .dataBand slot
  decide (64 * (s.bay b).servo.parkGrid + turn64 c ≤ 64 * c)
/-- A seek to the track two turns before the slot. -/
def approach (s : State) (b : Nat) (t : DiscType) (layer slot : Nat) : State :=
  let c := slotGrid t .dataBand slot
  let dest := c - 2 * turn64 c / 64
  let s1 := (s.modServo b fun v => { v with seek := some ⟨layer, dest⟩ }).modChan b fun c => { c with fly := .unlocked, coast := 0 }
  if layer = (s.bay b).servo.layer then seekOn s1 b (s.bay b).servo.parkGrid else startJump s1 b layer
/-- What a run that resumes does first (R18, R174): where the next index belongs to no block that may be fed, it drains. -/
def resumedPhase (s : State) (c : Course) (b : Nat) (w : WriteSess) : SessPhase :=
  match w.phase with
  | .ready => .recording
  | .recording => if c.dtype.firstIndex (limitBlock s c b w) ≤ w.j then .draining (w.boundary c.dtype) else .recording
  | p => p
/-- A session has a run to start or to resume: recording, or the spare-zone run of its replacements. -/
def WriteSess.mayGo (w : WriteSess) : Bool :=
  match w.phase with
  | .recording | .draining _ => w.resumeBy.isSome
  | .ready => true
  | .replacing => w.spares.any (fun x => decide (x.state = .waiting))
  | _ => false

/-- RUN_RESUME: a run starts, or a stopped one resumes, once its record is confirmed, the head approaches from a turn before and the FIFO
holds RUN_FILL (R176, R179, R182, R183); its first channel bit stands at `offset` in its segment. The record in use changes only at a first slot. -/
def execRunResume (b : BayId) (fifoPct offset : Nat) (s : State) : Host.Outcome State Fault Refusal :=
  match s.courseOfBay b.val, (s.bay b.val).write with
  | some c, some w =>
    let late : Bool := match w.resumeBy with | some t => decide (t < s.now) | none => false
    let v := (s.bay b.val).welt
    let spare := decide (w.phase = .replacing)
    let first := spare || decide (w.phase = .ready ∨ w.j % 4 = 0)
    if w.mayGo = false ∨ late = true ∨ mayWrite s b.val = false ∨ v.hotStop ∨ 4 ≤ v.band.level ∨ (spare = false ∧ readWaits s b.val) then .next s
    else if w.phase = .ready ∧ (verifyDue s c b.val w ∨ limitBlock s c b.val w ≤ w.boundary c.dtype) then .next s
    else if first ∧ recordReady s b.val w = false then .next (keepRecord s b.val)
    else if approached s b.val c.dtype (w.nextSlot c.dtype) = false then
      .next (approach s b.val c.dtype w.layer (w.nextSlot c.dtype))
    else if fifoPct < s.pnat 0x0514 0 then .next s
    else
      let s0 := beginStream (fillMissing s c.handle) b.val offset
      let s1 := if first then blockRecord s0 b.val else s0
      .next (s1.modBay b.val fun y =>
        { y with state := .write
                 write := y.write.map fun w =>
                   { w with phase := resumedPhase s c b.val w, low := if w.phase = .ready then w.boundary c.dtype else w.low
                            resumeBy := none, slotStop := false, slotErr := 0, panic := if 50 ≤ fifoPct then false else w.panic } })
  | _, _ => .next s

/-- A beam's channel bits of a slot, at read power from where a word of the FIFO was lost (R444). -/
def cutCells (w : WriteSess) (beam : Nat) (cells : List (Option Bool)) : List (Option Bool) :=
  match w.cuts.find? (fun e => e.1 == beam) with
  | some e => cells.zipIdx.map (fun v => if v.2 < e.2 then v.1 else none)
  | none => cells
/-- The slot in progress is recorded, with a postamble. -/
def recordSlot (s : State) (b : BayId) (c : Course) (w : WriteSess) (post : Nat) : State :=
  let i := c.memberAt b.val
  let hits := slotSectors c.dtype w
  let cells := hits.map (fun e => (e.2.2, cutCells w (psaSpiral e.2.2)
    (userCells c.dtype w e.2.2 ((c.blockSector i (w.base c.dtype + e.1) e.2.1).getD []) post)))
  let s1 := cells.foldl (fun a e => a.send (.recordSector b e.1 e.2)) s
  let s2 := feedStream s1 b (c.dtype.slotLen + post - 64) (cells.map (fun e => (psaSpiral e.1, e.2)))
  s2.modWrite b.val fun w => { w with j := w.j + 1, recorded := w.recorded || !hits.isEmpty, cuts := [] }
/-- The spare-zone slot in progress is recorded (R188). -/
def recordSpares (s : State) (b : BayId) (c : Course) (w : WriteSess) : State :=
  let cells := (w.presentSpares c.dtype).map (fun x => (spareAddr c.dtype w.layer x.pos, spareCells b.val c w x))
  let s1 := cells.foldl (fun a e => a.send (.recordSector b e.1 e.2)) s
  let s2 := feedStream s1 b c.dtype.slotLen (cells.map (fun e => (psaSpiral e.1, e.2)))
  s2.modWrite b.val fun w => w.setSpares c.dtype .recorded

/-- A write run stops: read power, TRACK, and a time by which to resume. (Log DEDUCED 93) -/
def stopWrite (s : State) (b : Nat) : State :=
  (endStream s b).modBay b fun y =>
    { y with state := if y.state = .write then .track else y.state
             servo := match y.write, y.disc with
               | some w, some d => { y.servo with parkGrid := slotGrid d.dtype .dataBand (w.nextSlot d.dtype) }
               | _, _ => y.servo
             write := y.write.map fun w => { w with resumeBy := some s.resumeLimit, slotStop := false } }

/-- What a run does at the end of a slot: a stop at the slot's end, a drain for what waits, or the next slot; at a first slot it takes the
record that has been loaded (R183). (Log DEDUCED 89) -/
def afterSlot (s : State) (b : BayId) (fault : Bool) : State :=
  match s.courseOfBay b.val, (s.bay b.val).write with
  | some c, some w =>
    if w.slotStop ∨ fault then stopWrite s b.val
    else
      let s1 := keepRecord (if w.j % 4 = 0 then blockRecord s b.val else s) b.val
      if w.phase = .recording ∧ (c.dtype.firstIndex (limitBlock s1 c b.val w) ≤ w.j ∨ readWaits s1 b.val ∨ parked s1 b.val
          ∨ s1.fwRuns = false) then s1.boundaryStop b.val
      else s1
  | _, _ => s
/-- What a spare-zone run does at the end of a slot (R188): the next slot, a stop, or its read-back, for which the bay is in TRACK. -/
def afterSpare (s : State) (b : Nat) (fault : Bool) : State :=
  match (s.bay b).write with
  | some w =>
    if w.spares.any (fun x => decide (x.state = .waiting)) then (if w.slotStop ∨ fault then stopWrite s b else s)
    else (stopWrite s b).modWrite b fun w => { w with resumeBy := none }
  | none => s

/-- WRITE_SLOT_END: the slot's sectors are recorded with a postamble of 64 − e; outside 48 to 80 cb it is a write phase
fault (R180). The FIFO's level raises and clears panic (R179). -/
def execWriteSlotEnd (b : BayId) (err : Int) (fifoPct : Nat) (s : State) : Host.Outcome State Fault Refusal :=
  match s.courseOfBay b.val, (s.bay b.val).write with
  | some c, some w =>
    let past : Bool := match w.phase with | .draining n => decide (4 * n + 136 ≤ w.j) | _ => false
    let spare := decide (w.phase = .replacing)
    if (s.bay b.val).state ≠ .write ∨ (w.feeding || spare) = false ∨ past = true then .next s
    else
      let p := 64 - err
      let post := (clampInt 48 80 p).toNat
      let fault := decide (p < 48 ∨ 80 < p)
      let s1 := (if spare then recordSpares s b c w else recordSlot s b c w post).send (.postamble b post)
      let s2 := s1.modWrite b.val fun w =>
        { w with slotErr := err, panic := if fifoPct < 25 then true else if 50 ≤ fifoPct then false else w.panic }
      .next (if spare then afterSpare s2 b.val fault
        else afterSlot (noteClose (fillMissing s2 c.handle) c.handle false) b fault)
  | _, _ => .next s

/-- The slot in progress as an underrun leaves it (R185): every spiral-slot that was being recorded is padded and defective. -/
def underrunSlot (s : State) (b : BayId) (c : Course) (w : WriteSess) (missingFrom : Nat) : State :=
  let t := c.dtype
  let i := c.memberAt b.val
  let hits := slotSectors t w
  let cells := hits.map (fun e => (e.2.2, underrunCells t (0 < w.j && slotHolds t w (psaSpiral e.2.2) (w.j - 1))
    ((c.blockSector i (w.base t + e.1) e.2.1).getD []) missingFrom))
  let s1 := cells.foldl (fun a e => a.send (.recordSector b e.1 e.2)) s
  let s2 := feedStream s1 b t.slotLen (cells.map (fun e => (psaSpiral e.1, e.2)))
  s2.modWrite b.val fun w =>
    { w with bad := addNew w.bad (hits.map (fun e => e.2.2)), j := w.j + 1, recorded := w.recorded || !hits.isEmpty, panic := true }
/-- FIFO_UNDERRUN: every spiral-slot that was being recorded is defective; recording goes on at the next slot where the FIFO
holds a slot's channel bits, and stops there otherwise (R185). In a spare-zone run its replacements fail (R200).
(Log DEDUCED 93) -/
def execFifoUnderrun (b : BayId) (missingFrom fifoBits : Nat) (s : State) : Host.Outcome State Fault Refusal :=
  match s.courseOfBay b.val, (s.bay b.val).write with
  | some c, some w =>
    let t := c.dtype
    let spare := decide (w.phase = .replacing)
    let full := decide (t.slotLen * t.spirals ≤ fifoBits)
    if (s.bay b.val).state ≠ .write ∨ (w.feeding || spare) = false ∨ t.slotLen ≤ missingFrom then .next s
    else if spare then
      let s1 := s.modWrite b.val fun w => { w.setSpares t .failed with panic := true }
      .next (afterSpare s1 b.val (!full))
    else
      let s1 := underrunSlot s b c w missingFrom
      .next (if full then afterSlot s1 b false else stopWrite s1 b.val)
  | _, _ => .next s

/-- DRAIN_COMPLETE: the layer stands at the boundary (R174, R175); a stop for heat has a time by which to resume (R182). -/
def execDrainComplete (b : BayId) (s : State) : Host.Outcome State Fault Refusal :=
  match (s.bay b.val).disc, (s.bay b.val).write with
  | some d, some w =>
    match w.phase with
    | .draining n =>
      if (s.bay b.val).state = .write ∧ w.feeding ∧ 4 * n + 136 ≤ w.j then
        let hot := (s.bay b.val).welt.hotStop
        .next ((endStream s b.val).modBay b.val fun y =>
          { y with state := .track
                   servo := { y.servo with parkGrid := slotGrid d.dtype .dataBand (d.dtype.userStart + w.j) }
                   write := y.write.map fun w =>
                     { w with phase := .ready, j := d.dtype.firstIndex n, slotStop := false
                              resumeBy := if hot then some s.resumeLimit else none } })
      else .next s
    | _ => .next s
  | _, _ => .next s

/-- RESUME_MAX_EXPIRY: a run not resumed, a session not opened, or a bay not back in TRACK in time stops the course, or ends its open;
a wait for the head to cool has ended well when it has cooled (R176, R182, R187, R199, R377). -/
def execResumeMaxExpiry (b : BayId) (s : State) : Host.Outcome State Fault Refusal :=
  match s.courseOfBay b.val, (s.bay b.val).write with
  | some c, some w =>
    let y := s.bay b.val
    let back := decide (y.state = .track ∨ y.state = .read ∨ y.state = .verify)
    let well := match w.phase with
      | .waitTemp => decide (y.welt.band.level < 4)
      | .ready => !y.welt.hotStop
      | .verifying => back
      | .replacing => back && w.spares.all (fun x => decide (x.state ≠ .waiting))
      | _ => false
    if (match w.resumeBy with | some t => decide (s.now < t) | none => true) || well then .next s
    else if c.opening.isSome then .next (sessionsStep (openFails s c.handle stAborted (c.memberAt b.val)))
    else .next (s.stopCourse c.handle .stopped)
  | _, _ => .next s

/-! ## Verify and replacements (R187 to R189) -/

/-- VERIFY_SEGMENT_END: at a segment's end, or where the close leaves no more to record, the verify pass follows. -/
def execVerifySegmentEnd (b : BayId) (s : State) : Host.Outcome State Fault Refusal :=
  match s.courseOfBay b.val, (s.bay b.val).write with
  | some c, some w =>
    let s1 := noteClose s c.handle false
    let c1 := (s1.course? c.handle).getD c
    if verifyDue s1 c1 b.val w ∧ s.fwRuns then
      .next (s1.modWrite b.val fun w => { w with phase := .verifying, judged := [], toReplace := [] })
    else .next s1
  | _, _ => .next s

/-- Rows of a course verified with their replacements on a member, or committed there. -/
def verifiedRows (s : State) (c : Course) (b : Nat) : Nat :=
  match (s.bay b).write, (s.bay b).disc with
  | some w, _ => w.base c.dtype + w.segment
  | none, some d => d.rowsEnd
  | none, none => 0
/-- Rows verified on every member leave the write buffer (R193). -/
def freeRows (s : State) (handle : Nat) : State :=
  s.modCourse handle fun c =>
    if c.opening.isSome then c
    else
      let n := match c.bays.map (fun b => verifiedRows s c b.val) with
        | [] => 0
        | x :: r => r.foldl min x
      { c with freed := max c.freed n, buf := c.buf.filter (fun e => decide (c.rowSize * max c.freed n ≤ e.csn)) }
/-- The segment is verified with its replacements: a close may be due at its end, the next segment begins there, and rows verified
everywhere leave the buffer (R187, R190, R193, R202). -/
def segmentVerified (s : State) (b : Nat) (c : Course) : State :=
  let s1 := s.modWrite b fun w => { w with phase := .ready, segmentsDone := w.segmentsDone + 1, judged := [], toReplace := [], spares := [], resumeBy := none }
  let s2 := noteClose s1 c.handle false
  let s3 := s2.modWrite b fun w =>
    let n := w.boundary c.dtype
    { w with segment := n, took := segmentTake s2, bad := w.bad.filter (fun a => decide (n ≤ blockOfAddr c.dtype a)) }
  freeRows s3 c.handle
/-- A sector cannot be placed: the course ends at its row and is full (R189, R199). (Log DEDUCED 94) -/
def endAtRow (s : State) (c : Course) (row : Nat) : State :=
  s.modCourse c.handle fun k =>
    { k with full := true, closing := match k.closing with | some m => some (min m row) | none => some row }

/-- Pending replacements take the next spare positions of the layer, in ascending home address, and wait to be recorded; what finds
no position cannot be placed (R188, R189). `hs` gives homes with the replacements that failed before.
(Log DEDUCED 94) -/
def assignSpares (s : State) (b : BayId) (c : Course) (hs : List (Nat × Nat)) : State :=
  match (s.bay b.val).disc, (s.bay b.val).write with
  | some d, some w =>
    let t := d.dtype
    let sorted := hs.mergeSort (fun x y => decide (x.1 ≤ y.1))
    let used := d.spareUsed.getD w.layer 0
    let room := sparePositions t - used
    let now := (sorted.take room).zipIdx.map (fun e => ({ home := e.1.1, pos := used + e.2, tries := e.1.2 } : SpareRec))
    let out := (sorted.drop room).map (fun e => blockOfAddr t e.1)
    let s2 := s.modBay b.val fun y =>
      { y with disc := y.disc.map fun d => { d with spareUsed := (d.spareUsed ++ List.replicate 6 0).take 6 |>.set w.layer (used + now.length) }
               write := y.write.map fun w => { w with phase := .replacing, spares := now, resumeBy := none } }
    let s3 := match out with
      | [] => s2
      | n :: r => endAtRow s2 c (w.base t + r.foldl min n)
    if now.isEmpty then segmentVerified s3 b.val c else keepRecord s3 b.val
  | _, _ => s

/-- VERIFY_PASS_DONE: every sector of the segment is judged; what failed, and what was made defective, is remapped.
(Log DEDUCED 94) -/
def execVerifyPassDone (b : BayId) (s : State) : Host.Outcome State Fault Refusal :=
  match s.courseOfBay b.val, (s.bay b.val).disc, (s.bay b.val).write with
  | some c, some d, some w =>
    let t := d.dtype
    let n := w.boundary t
    if w.phase ≠ .verifying ∨ (s.bay b.val).chan.run.isSome ∨ (verifyAddrs t w n).isEmpty = false ∨ s.fwRuns = false then .next s
    else
      let bad := w.bad.filter (fun a => let m := blockOfAddr t a; decide (w.segment ≤ m ∧ m < n))
      let homes := addNew w.toReplace bad
      .next (if homes.isEmpty then segmentVerified s b.val c else assignSpares s b c (homes.map (·, 0)))
  | _, _, _ => .next s

/-- The entry that a replacement makes: its home slot's, or the retirement of its position (R60, R61). -/
def SpareRec.entry (t : DiscType) (layer : Nat) (x : SpareRec) : Nat × Defect :=
  let a := spareAddr t layer x.pos
  (blockOfAddr t x.home, if x.state = .passed then ⟨x.home, a⟩ else ⟨a, noSlot⟩)
/-- REPLACEMENT_RUN_DONE: every replacement has been recorded and judged as it was read back, or has failed as it was recorded: one that
passes makes an entry, one that fails is retired and tried again up to SPARE_TRIES (R60, R61, R188, R200). -/
def execReplacementRunDone (b : BayId) (s : State) : Host.Outcome State Fault Refusal :=
  match s.courseOfBay b.val, (s.bay b.val).write with
  | some c, some w =>
    if w.phase ≠ .replacing ∨ w.spares.any (fun x => decide (x.state = .waiting ∨ x.state = .recorded)) ∨ mayWrite s b.val = false then .next s
    else
      let t := c.dtype
      let tries := w.took.getD 2 3
      let failed := (w.spares.filter (fun x => decide (x.state = .failed))).map (fun x => (x.home, x.tries + 1))
      let again := failed.filter (fun e => decide (e.2 < tries))
      let out := (failed.filter (fun e => decide (tries ≤ e.2))).map (fun e => blockOfAddr t e.1)
      let s1 := s.modWrite b.val fun w => { w with entries := w.entries ++ w.spares.map (SpareRec.entry t w.layer), spares := [] }
      let s2 := match out with
        | [] => s1
        | n :: r => endAtRow s1 c (w.base t + r.foldl min n)
      .next (if again.isEmpty then segmentVerified s2 b.val c else assignSpares s2 b c again)
  | _, _ => .next s

/-! ## The close (R190 to R192, R194, R196, R197) -/

/-- SESSION_IDLE_EXPIRY: no APPEND data for SESSION_IDLE makes the sessions close at the next segment end. -/
def execSessionIdleExpiry (handle : Nat) (s : State) : Host.Outcome State Fault Refusal :=
  match s.course? handle with
  | some c => if c.lastData + secs (s.pnat 0x0515 0) ≤ s.now ∧ s.fwRuns then .next (noteClose s handle true) else .next s
  | none => .next s

/-- A member stands at the close's boundary: verified to a boundary at or above it, or committed to it already; in an open that brings it
into line, at the end of its layer too (R190, R195). -/
def atClose (s : State) (c : Course) (m : Nat) (b : Nat) : Bool :=
  match (s.bay b).write, (s.bay b).disc with
  | some w, some d => decide (w.phase = .ready ∧ w.segment = w.boundary c.dtype)
      && (decide (m ≤ w.base c.dtype + w.segment) || d.sealed || d.full || (c.opening.isSome && decide (c.dtype.blocks ≤ w.segment)))
  | none, some d => decide (m ≤ d.rowsEnd) || d.sealed || d.full
  | _, none => false

/-- One member's close: its updates are planned; a session that has recorded nothing ends without one, and its write sequence
passes on (R190). (Log DEDUCED 90, 94) -/
def closeMember (s : State) (c : Course) (m : Nat) (b : BayId) : State :=
  match (s.bay b.val).write, (s.bay b.val).disc with
  | some w, some d =>
    let stop := min c.dtype.blocks (m - w.base c.dtype)
    let due := c.sealed && decide (c.rowsBegun ≤ m)
    let p := planUpdates d w stop
    let worth := w.recorded || !w.entries.isEmpty
    if worth ∨ due then
      s.modWrite b.val fun w =>
        { w with phase := .updating, todo := p.1, restate := p.2.getD 0, restating := p.2.isSome, sealDue := due, contentDone := !worth, updateTries := 0 }
    else (s.modBay b.val fun y => { y with write := none }).modCourse c.handle fun k =>
      { k with nextSeq := Tbl.set 0 k.nextSeq (c.memberAt b.val) w.seq }
  | _, _ => s

/-- SESSION_CLOSE: the sessions close at their common row boundary; while a member is parked the close waits (R190, R200). -/
def execSessionClose (handle : Nat) (s : State) : Host.Outcome State Fault Refusal :=
  let s0 := noteClose s handle false
  match s0.course? handle with
  | none => .next s
  | some c =>
    match c.closing with
    | none => .next s0
    | some m =>
      if s.fwRuns = false ∨ c.bays.any (fun b => parked s b.val) ∨ c.bays.all (fun b => atClose s0 c m b.val) = false then .next s0
      else .next (closeEnds (c.bays.foldl (fun a b => closeMember a c m b) s0) handle)

/-- A member ends its part of a close. -/
def memberClosed (s : State) (b : Nat) (handle : Nat) : State :=
  sessionsStep (closeEnds (s.modBay b fun y => { y with write := none }) handle)
/-- A member whose last number is gone without a closing update is full (R65, R197). -/
def memberFull (s : State) (b : Nat) (handle : Nat) : State :=
  memberClosed (s.modDisc b fun d => { d with full := true }) b handle
/-- A member that cannot commit stops its course, or ends its open (R192, R199, R377). (Log DEDUCED 95) -/
def cannotCommit (s : State) (b : Nat) (c : Course) : State :=
  let s1 := s.logFree .mount 0x0504 b
  if c.opening.isSome then sessionsStep (openFails s1 c.handle stAborted (c.memberAt b)) else s1.stopCourse c.handle .stopped

/-- DMA_UPDATE_READBACK: the next number is checked for blank slots, both copies are recorded and read back; a number not
blank or not valid is spent, and the same content is tried at most twice (R192). -/
def execDmaUpdateReadback (b : BayId) (blank aValid bValid : Bool) (s : State) : Host.Outcome State Fault Refusal :=
  match s.courseOfBay b.val, (s.bay b.val).disc, (s.bay b.val).write with
  | some c, some d, some w =>
    if w.phase ≠ .updating ∨ mayWrite s b.val = false then .next s
    else
      let last := decide (updateSlots d.issue ≤ d.nextUpdate + 1)
      let spent := s.modDisc b.val fun d => { d with nextUpdate := d.nextUpdate + 1 }
      if updateSlots d.issue ≤ d.nextUpdate then .next (memberFull s b.val c.handle)
      else if blank = false then .next (if last then memberFull spent b.val c.handle else spent)
      else
        let stop := min d.dtype.blocks ((c.closing.getD c.committed) - w.base d.dtype)
        let u := nextContent d w stop
        let s1 := recordUpdate s b d.dtype u.1
        if aValid || bValid then
          let restated := w.restating && decide (w.restate ≤ u.2.1)
          let s2 := s1.modDisc b.val fun d => d.updated u.1 restated
          let s3 := s2.modWrite b.val fun w =>
            { w with todo := w.todo.drop u.2.1, restate := w.restate - u.2.1, restating := w.restating && !restated, updateTries := 0, contentDone := w.contentDone || u.2.2 }
          let closed := u.1.isFull || u.1.isSealed
          .next (if closed ∨ (u.2.2 && !w.sealDue) then memberClosed s3 b.val c.handle else s3)
        else
          let s2 := s1.modDisc b.val fun d => { d with nextUpdate := d.nextUpdate + 1 }
          .next (if last then memberFull s2 b.val c.handle
            else if 2 ≤ w.updateTries + 1 then cannotCommit s2 b.val c
            else s2.modWrite b.val fun w => { w with updateTries := w.updateTries + 1 })
  | _, _, _ => .next s

end Sys2Proof.Machine
end

