-- ==== Sys2Proof/Machine/Dispatch.lean ====
section
/-! DEFINITION. The meaning of each command: one direct call per constructor, in the order of the opcode table. -/

namespace Sys2Proof.Machine

open Sys2Proof

def exec (i : Instr) (s : State) : Host.Outcome State Fault Refusal :=
  match i with
  | .pd0SupplyApplied smbAddr dramCfg => Sys2Proof.Machine.execPd0SupplyApplied smbAddr dramCfg s
  | .pd0SupplyLost => Sys2Proof.Machine.execPd0SupplyLost s
  | .resetNAsserted smbAddr dramCfg => Sys2Proof.Machine.execResetNAsserted smbAddr dramCfg s
  | .resetNReleased smbAddr dramCfg testEn => Sys2Proof.Machine.execResetNReleased smbAddr dramCfg testEn s
  | .railFault r => Sys2Proof.Machine.execRailFault r s
  | .railRestored r => Sys2Proof.Machine.execRailRestored r s
  | .refclkSysLost => Sys2Proof.Machine.execRefclkSysLost s
  | .refclkSysRestored => Sys2Proof.Machine.execRefclkSysRestored s
  | .refclkRingLost => Sys2Proof.Machine.execRefclkRingLost s
  | .dramTrainingComplete ch ok => Sys2Proof.Machine.execDramTrainingComplete ch ok s
  | .imageStart dir0 dir1 imgA imgB elsEast elsWest selfTest => Sys2Proof.Machine.execImageStart dir0 dir1 imgA imgB elsEast elsWest selfTest s
  | .watchdogExpiry core => Sys2Proof.Machine.execWatchdogExpiry core s
  | .mgmtRestartComplete => Sys2Proof.Machine.execMgmtRestartComplete s
  | .selfResetEntry => Sys2Proof.Machine.execSelfResetEntry s
  | .constrainedExit => Sys2Proof.Machine.execConstrainedExit s
  | .quiesceDrained => Sys2Proof.Machine.execQuiesceDrained s
  | .retirePowerDown => Sys2Proof.Machine.execRetirePowerDown s
  | .getStatus inst => Sys2Proof.Machine.execGetStatus inst s
  | .getTemps inst => Sys2Proof.Machine.execGetTemps inst s
  | .reset inst => Sys2Proof.Machine.execReset inst s
  | .wake inst => Sys2Proof.Machine.execWake inst s
  | .shutdown inst => Sys2Proof.Machine.execShutdown inst s
  | .safeStop inst => Sys2Proof.Machine.execSafeStop inst s
  | .claos inst sqe payload => Sys2Proof.Machine.execClaos inst sqe payload s
  | .mctpVendorUnsupported inst code => Sys2Proof.Machine.execMctpVendorUnsupported inst code s
  | .setEndpointId eid => Sys2Proof.Machine.execSetEndpointId eid s
  | .getEndpointId => Sys2Proof.Machine.execGetEndpointId s
  | .getEndpointUuid => Sys2Proof.Machine.execGetEndpointUuid s
  | .getMctpVersionSupport => Sys2Proof.Machine.execGetMctpVersionSupport s
  | .getMessageTypeSupport => Sys2Proof.Machine.execGetMessageTypeSupport s
  | .getVendorDefinedMessageSupport => Sys2Proof.Machine.execGetVendorDefinedMessageSupport s
  | .mctpControlUnsupported code => Sys2Proof.Machine.execMctpControlUnsupported code s
  | .getVersion v => Sys2Proof.Machine.execGetVersion v s
  | .getCapabilities v => Sys2Proof.Machine.execGetCapabilities v s
  | .negotiateAlgorithms v => Sys2Proof.Machine.execNegotiateAlgorithms v s
  | .getDigests v => Sys2Proof.Machine.execGetDigests v s
  | .getCertificate v slot offset length => Sys2Proof.Machine.execGetCertificate v slot offset length s
  | .challenge v slot nonce => Sys2Proof.Machine.execChallenge v slot nonce s
  | .getMeasurements v index signed nonce => Sys2Proof.Machine.execGetMeasurements v index signed nonce s
  | .keyExchange v reqSession exchange => Sys2Proof.Machine.execKeyExchange v reqSession exchange s
  | .finish v sid verifyData => Sys2Proof.Machine.execFinish v sid verifyData s
  | .spdmHeartbeat v sid => Sys2Proof.Machine.execSpdmHeartbeat v sid s
  | .keyUpdate v sid op => Sys2Proof.Machine.execKeyUpdate v sid op s
  | .endSession v sid => Sys2Proof.Machine.execEndSession v sid s
  | .spdmUnsupportedRequest v code => Sys2Proof.Machine.execSpdmUnsupportedRequest v code s
  | .identify => Sys2Proof.Machine.execIdentify s
  | .getLog => Sys2Proof.Machine.execGetLog s
  | .getLogClear => Sys2Proof.Machine.execGetLogClear s
  | .setPattern => Sys2Proof.Machine.execSetPattern s
  | .getPattern => Sys2Proof.Machine.execGetPattern s
  | .calLoad => Sys2Proof.Machine.execCalLoad s
  | .calRead => Sys2Proof.Machine.execCalRead s
  | .keyLoad => Sys2Proof.Machine.execKeyLoad s
  | .keyErase => Sys2Proof.Machine.execKeyErase s
  | .keyEraseAll => Sys2Proof.Machine.execKeyEraseAll s
  | .modeRequest => Sys2Proof.Machine.execModeRequest s
  | .qpCreate => Sys2Proof.Machine.execQpCreate s
  | .qpDelete => Sys2Proof.Machine.execQpDelete s
  | .eventArm => Sys2Proof.Machine.execEventArm s
  | .eventArmMaskOnly => Sys2Proof.Machine.execEventArmMaskOnly s
  | .eventDelivery => Sys2Proof.Machine.execEventDelivery s
  | .fwStage => Sys2Proof.Machine.execFwStage s
  | .fwActivateLive => Sys2Proof.Machine.execFwActivateLive s
  | .commitSvn => Sys2Proof.Machine.execCommitSvn s
  | .spdmTunnel => Sys2Proof.Machine.execSpdmTunnel s
  | .weltRetrain => Sys2Proof.Machine.execWeltRetrain s
  | .safeRestart => Sys2Proof.Machine.execSafeRestart s
  | .chopperClear => Sys2Proof.Machine.execChopperClear s
  | .bayOut => Sys2Proof.Machine.execBayOut s
  | .bayIn => Sys2Proof.Machine.execBayIn s
  | .rehome => Sys2Proof.Machine.execRehome s
  | .adminUndefinedOpcode => Sys2Proof.Machine.execAdminUndefinedOpcode s
  | .adminPayloadTimeout g tag => Sys2Proof.Machine.execAdminPayloadTimeout g tag s
  | .read q tag => Sys2Proof.Machine.execRead q tag s
  | .verify q tag => Sys2Proof.Machine.execVerify q tag s
  | .append q tag => Sys2Proof.Machine.execAppend q tag s
  | .flush q tag => Sys2Proof.Machine.execFlush q tag s
  | .seal q tag => Sys2Proof.Machine.execSeal q tag s
  | .mount q tag => Sys2Proof.Machine.execMount q tag s
  | .mountUnavailable q tag => Sys2Proof.Machine.execMountUnavailable q tag s
  | .mountOpenCourse q tag => Sys2Proof.Machine.execMountOpenCourse q tag s
  | .release q tag => Sys2Proof.Machine.execRelease q tag s
  | .releaseCourse q tag => Sys2Proof.Machine.execReleaseCourse q tag s
  | .dataUndefinedOpcode q tag => Sys2Proof.Machine.execDataUndefinedOpcode q tag s
  | .sqeTake => Sys2Proof.Machine.execSqeTake s
  | .deadlineExpiry q tag => Sys2Proof.Machine.execDeadlineExpiry q tag s
  | .readSectorDelivery q tag => Sys2Proof.Machine.execReadSectorDelivery q tag s
  | .cmd f => Sys2Proof.Machine.execCmd f s
  | .data f draws => Sys2Proof.Machine.execData f draws s
  | .cpl f => Sys2Proof.Machine.execCpl f s
  | .ack f => Sys2Proof.Machine.execAck f s
  | .nak f => Sys2Proof.Machine.execNak f s
  | .ackTimerExpiry q => Sys2Proof.Machine.execAckTimerExpiry q s
  | .rtoExpiry q => Sys2Proof.Machine.execRtoExpiry q s
  | .sequencedFrameLaunch q => Sys2Proof.Machine.execSequencedFrameLaunch q s
  | .queueOrphanExpiry q => Sys2Proof.Machine.execQueueOrphanExpiry q s
  | .qpFreed q => Sys2Proof.Machine.execQpFreed q s
  | .heartbeat f => Sys2Proof.Machine.execHeartbeat f s
  | .topology f => Sys2Proof.Machine.execTopology f s
  | .idProbe f => Sys2Proof.Machine.execIdProbe f s
  | .idClaim f => Sys2Proof.Machine.execIdClaim f s
  | .transitFrame f => Sys2Proof.Machine.execTransitFrame f s
  | .nonYaverFrame p => Sys2Proof.Machine.execNonYaverFrame p s
  | .pfcXoff p pr timer => Sys2Proof.Machine.execPfcXoff p pr timer s
  | .pfcXon p pr => Sys2Proof.Machine.execPfcXon p pr s
  | .pfcTimerExpiry p pr => Sys2Proof.Machine.execPfcTimerExpiry p pr s
  | .pfcXoffRepeat p pr => Sys2Proof.Machine.execPfcXoffRepeat p pr s
  | .pfcWatchdogExpiry p pr => Sys2Proof.Machine.execPfcWatchdogExpiry p pr s
  | .pfcStormDrop p pr => Sys2Proof.Machine.execPfcStormDrop p pr s
  | .pfcStormEnd p pr => Sys2Proof.Machine.execPfcStormEnd p pr s
  | .pcsLock p => Sys2Proof.Machine.execPcsLock p s
  | .pcsLoss p => Sys2Proof.Machine.execPcsLoss p s
  | .heartbeatMissLimit p => Sys2Proof.Machine.execHeartbeatMissLimit p s
  | .cutQuiet p => Sys2Proof.Machine.execCutQuiet p s
  | .ringTap inst node seq0 nonce => Sys2Proof.Machine.execRingTap inst node seq0 nonce s
  | .tapTrainTimeout => Sys2Proof.Machine.execTapTrainTimeout s
  | .idClaimWindowExpiry => Sys2Proof.Machine.execIdClaimWindowExpiry s
  | .ringUntap inst => Sys2Proof.Machine.execRingUntap inst s
  | .ringStatus inst => Sys2Proof.Machine.execRingStatus inst s
  | .laserSourceUnusable p => Sys2Proof.Machine.execLaserSourceUnusable p s
  | .portDomainFault p => Sys2Proof.Machine.execPortDomainFault p s
  | .vhtrLost => Sys2Proof.Machine.execVhtrLost s
  | .stitchBoundary ms mem => Sys2Proof.Machine.execStitchBoundary ms mem s
  | .spanBoundary power codedInput mr4a mr4b driftA driftB fecEast fecWest => Sys2Proof.Machine.execSpanBoundary power codedInput mr4a mr4b driftA driftB fecEast fecWest s
  | .stitchLoRead => Sys2Proof.Machine.execStitchLoRead s
  | .girthWindow errs => Sys2Proof.Machine.execGirthWindow errs s
  | .downlinkLaunch => Sys2Proof.Machine.execDownlinkLaunch s
  | .uplinkStitchFrame b blocks => Sys2Proof.Machine.execUplinkStitchFrame b blocks s
  | .uplinkFrameMissing b => Sys2Proof.Machine.execUplinkFrameMissing b s
  | .ulBlockLock b => Sys2Proof.Machine.execUlBlockLock b s
  | .echo b blocks roundTripUi => Sys2Proof.Machine.execEcho b blocks roundTripUi s
  | .identity b blocks => Sys2Proof.Machine.execIdentity b blocks s
  | .weltTrainingTimeout b => Sys2Proof.Machine.execWeltTrainingTimeout b s
  | .sectorSlotRead b o => Sys2Proof.Machine.execSectorSlotRead b o s
  | .noSync b => Sys2Proof.Machine.execNoSync b s
  | .ridgeCoastExpiry b => Sys2Proof.Machine.execRidgeCoastExpiry b s
  | .ridgeRelock b => Sys2Proof.Machine.execRidgeRelock b s
  | .seamOffsetSearch b => Sys2Proof.Machine.execSeamOffsetSearch b s
  | .retryStoreCopy b a => Sys2Proof.Machine.execRetryStoreCopy b a s
  | .ldpcDecodeDone b a r => Sys2Proof.Machine.execLdpcDecodeDone b a r s
  | .recoveryStepLimit b layer block sector => Sys2Proof.Machine.execRecoveryStepLimit b layer block sector s
  | .thatchDecode b layer block => Sys2Proof.Machine.execThatchDecode b layer block s
  | .rereadPassDone b layer block => Sys2Proof.Machine.execRereadPassDone b layer block s
  | .courseReconstruction b layer block => Sys2Proof.Machine.execCourseReconstruction b layer block s
  | .discWaitExpiry req => Sys2Proof.Machine.execDiscWaitExpiry req s
  | .rowSolve course row => Sys2Proof.Machine.execRowSolve course row s
  | .sessionOpen b draws => Sys2Proof.Machine.execSessionOpen b draws s
  | .blankScanDone b => Sys2Proof.Machine.execBlankScanDone b s
  | .opcDone b blankUnits peaks => Sys2Proof.Machine.execOpcDone b blankUnits peaks s
  | .writeSlotEnd b err fifoPct => Sys2Proof.Machine.execWriteSlotEnd b err fifoPct s
  | .fifoUnderrun b missingFrom fifoBits => Sys2Proof.Machine.execFifoUnderrun b missingFrom fifoBits s
  | .drainComplete b => Sys2Proof.Machine.execDrainComplete b s
  | .runResume b fifoPct offset => Sys2Proof.Machine.execRunResume b fifoPct offset s
  | .resumeMaxExpiry b => Sys2Proof.Machine.execResumeMaxExpiry b s
  | .verifySegmentEnd b => Sys2Proof.Machine.execVerifySegmentEnd b s
  | .verifyPassDone b => Sys2Proof.Machine.execVerifyPassDone b s
  | .replacementRunDone b => Sys2Proof.Machine.execReplacementRunDone b s
  | .sessionIdleExpiry handle => Sys2Proof.Machine.execSessionIdleExpiry handle s
  | .sessionClose handle => Sys2Proof.Machine.execSessionClose handle s
  | .dmaUpdateReadback b blank aValid bValid => Sys2Proof.Machine.execDmaUpdateReadback b blank aValid bValid s
  | .focusSweepEnd b => Sys2Proof.Machine.execFocusSweepEnd b s
  | .focusCapture b ppf sref => Sys2Proof.Machine.execFocusCapture b ppf sref s
  | .focusSettled b => Sys2Proof.Machine.execFocusSettled b s
  | .layerJumpCapture b ppf sref => Sys2Proof.Machine.execLayerJumpCapture b ppf sref s
  | .layerJumpTimeout b => Sys2Proof.Machine.execLayerJumpTimeout b s
  | .focusLoss b => Sys2Proof.Machine.execFocusLoss b s
  | .offTrack b => Sys2Proof.Machine.execOffTrack b s
  | .trackingCapture b => Sys2Proof.Machine.execTrackingCapture b s
  | .trackingAcqTimeout b => Sys2Proof.Machine.execTrackingAcqTimeout b s
  | .registrationCheck b words ridgeBeam => Sys2Proof.Machine.execRegistrationCheck b words ridgeBeam s
  | .trackJumpDone b => Sys2Proof.Machine.execTrackJumpDone b s
  | .turnBack b => Sys2Proof.Machine.execTurnBack b s
  | .seek b layer grid => Sys2Proof.Machine.execSeek b layer grid s
  | .holdRelease b => Sys2Proof.Machine.execHoldRelease b s
  | .holdTimeout b => Sys2Proof.Machine.execHoldTimeout b s
  | .safeRestartStart b => Sys2Proof.Machine.execSafeRestartStart b s
  | .discPresentChange b active => Sys2Proof.Machine.execDiscPresentChange b active s
  | .ldBusyChange b active => Sys2Proof.Machine.execLdBusyChange b active s
  | .spindleStart b first second => Sys2Proof.Machine.execSpindleStart b first second s
  | .handover b => Sys2Proof.Machine.execHandover b s
  | .startFailure b => Sys2Proof.Machine.execStartFailure b s
  | .startRetry b => Sys2Proof.Machine.execStartRetry b s
  | .rotorLoss b c => Sys2Proof.Machine.execRotorLoss b c s
  | .catchLock b rpm => Sys2Proof.Machine.execCatchLock b rpm s
  | .catchFail b rpm => Sys2Proof.Machine.execCatchFail b rpm s
  | .standstill b => Sys2Proof.Machine.execStandstill b s
  | .spinStuck b => Sys2Proof.Machine.execSpinStuck b s
  | .atSpeed b => Sys2Proof.Machine.execAtSpeed b s
  | .demandStart b => Sys2Proof.Machine.execDemandStart b s
  | .demandStop b => Sys2Proof.Machine.execDemandStop b s
  | .spinSafeHoldExpiry b => Sys2Proof.Machine.execSpinSafeHoldExpiry b s
  | .pd18PowerUp b rpm => Sys2Proof.Machine.execPd18PowerUp b rpm s
  | .busChopperOn g mv => Sys2Proof.Machine.execBusChopperOn g mv s
  | .busRegenInhibit g mv => Sys2Proof.Machine.execBusRegenInhibit g mv s
  | .busOvervolt g mv => Sys2Proof.Machine.execBusOvervolt g mv s
  | .busUndervolt g mv => Sys2Proof.Machine.execBusUndervolt g mv s
  | .busLowLimit g mv => Sys2Proof.Machine.execBusLowLimit g mv s
  | .busRecovered g mv rpms => Sys2Proof.Machine.execBusRecovered g mv rpms s
  | .brakeChopperFault g => Sys2Proof.Machine.execBrakeChopperFault g s
  | .positionMove b um => Sys2Proof.Machine.execPositionMove b um s
  | .newTarget b um => Sys2Proof.Machine.execNewTarget b um s
  | .moveComplete b => Sys2Proof.Machine.execMoveComplete b s
  | .sledStall b => Sys2Proof.Machine.execSledStall b s
  | .sledSoftLimit b => Sys2Proof.Machine.execSledSoftLimit b s
  | .homing b => Sys2Proof.Machine.execHoming b s
  | .homeEdge b => Sys2Proof.Machine.execHomeEdge b s
  | .homeRelease b => Sys2Proof.Machine.execHomeRelease b s
  | .homeFailure b why => Sys2Proof.Machine.execHomeFailure b why s
  | .limitSwitchTrip b w => Sys2Proof.Machine.execLimitSwitchTrip b w s
  | .dramRequestTimeout ch req => Sys2Proof.Machine.execDramRequestTimeout ch req s
  | .dramRetrainDone ch ok => Sys2Proof.Machine.execDramRetrainDone ch ok s
  | .dramCorrectedError c pa flips => Sys2Proof.Machine.execDramCorrectedError c pa flips s
  | .dramUncorrectable c pa flips => Sys2Proof.Machine.execDramUncorrectable c pa flips s
  | .dramUnmapped c pa => Sys2Proof.Machine.execDramUnmapped c pa s
  | .burnisherRead flips => Sys2Proof.Machine.execBurnisherRead flips s
  | .refresh ch => Sys2Proof.Machine.execRefresh ch s
  | .zqCalibration ch => Sys2Proof.Machine.execZqCalibration ch s
  | .clean core w => Sys2Proof.Machine.execClean core w s
  | .invalidate core w => Sys2Proof.Machine.execInvalidate core w s
  | .cleanInvalidate core w => Sys2Proof.Machine.execCleanInvalidate core w s
  | .invalidateAll core w => Sys2Proof.Machine.execInvalidateAll core w s
  | .cacheDisableWalkDone c => Sys2Proof.Machine.execCacheDisableWalkDone c s
  | .cacheError c f set way => Sys2Proof.Machine.execCacheError c f set way s
  | .rgnCtrlWrite r w => Sys2Proof.Machine.execRgnCtrlWrite r w s
  | .eaveSample raw => Sys2Proof.Machine.execEaveSample raw s
  | .eaveReleaseDwell => Sys2Proof.Machine.execEaveReleaseDwell s
  | .step1SixtySecondExpiry => Sys2Proof.Machine.execStep1SixtySecondExpiry s
  | .groupPark => Sys2Proof.Machine.execGroupPark s
  | .groupParkRepeat => Sys2Proof.Machine.execGroupParkRepeat s
  | .groupUnpark => Sys2Proof.Machine.execGroupUnpark s
  | .capParkTimer => Sys2Proof.Machine.execCapParkTimer s
  | .channelStatusRead g coincident => Sys2Proof.Machine.execChannelStatusRead g coincident s
  | .channelStatusWrite g w coincident => Sys2Proof.Machine.execChannelStatusWrite g w coincident s
  | .girthStatRead overruns parity => Sys2Proof.Machine.execGirthStatRead overruns parity s
  | .girthLoadRead coincident => Sys2Proof.Machine.execGirthLoadRead coincident s
  | .girthOvrBayWrite w coincident => Sys2Proof.Machine.execGirthOvrBayWrite w coincident s
  | .slotStatWrite sl w switched unfinished => Sys2Proof.Machine.execSlotStatWrite sl w switched unfinished s
  | .spinStatRead b coincident => Sys2Proof.Machine.execSpinStatRead b coincident s
  | .spinStatWrite b w coincident => Sys2Proof.Machine.execSpinStatWrite b w coincident s
  | .busStatRead g coincident => Sys2Proof.Machine.execBusStatRead g coincident s
  | .sledStatWrite b w coincident => Sys2Proof.Machine.execSledStatWrite b w coincident s
  | .ringPortStatRead p coincident => Sys2Proof.Machine.execRingPortStatRead p coincident s
  | .ringPortStatWrite p w storm nbChange => Sys2Proof.Machine.execRingPortStatWrite p w storm nbChange s
  | .ringDropRead p fcsBad dropped => Sys2Proof.Machine.execRingDropRead p fcsBad dropped s
  | .dramStatRead ch ce timeouts retrains => Sys2Proof.Machine.execDramStatRead ch ce timeouts retrains s
  | .burnishStatRead coincident => Sys2Proof.Machine.execBurnishStatRead coincident s
  | .cacheStatRead c par fatal => Sys2Proof.Machine.execCacheStatRead c par fatal s
  | .cacheStatWrite c w coincident => Sys2Proof.Machine.execCacheStatWrite c w coincident s
  | .registerWrite r w => Sys2Proof.Machine.execRegisterWrite r w s
  | .sledHoldDelayExpiry b => Sys2Proof.Machine.execSledHoldDelayExpiry b s
  | .agePromotion ch req => Sys2Proof.Machine.execAgePromotion ch req s
  | .tapInstruction t => Sys2Proof.Machine.execTapInstruction t s
  | .unknownFrameType f => Sys2Proof.Machine.execUnknownFrameType f s

end Sys2Proof.Machine
end

