-- ==== Sys2Proof/Machine/Step.lean ====
section
/-! DEFINITION. One step of the block: the command at the front of the queue runs on the state with the queue's rest.
On an empty queue the block idles. -/

namespace Sys2Proof.Machine

open Sys2Proof

/-- A step takes the command at the front of the queue. (Log DESIGN CHOICE 1, 129) -/
def step (s : State) : Host.Outcome State Fault Refusal :=
  match s.pending with
  | [] => .next s
  | c :: rest => exec c { s with pending := rest }

/-- `s` with the command that a table word spells put in front of its queue; unchanged where the word spells none.
(Log DEDUCED 8) -/
def State.withFetchWord (s : State) (nbits w : Nat) : State :=
  match decodeTableWord nbits w with
  | some c => { s with pending := c :: s.pending }
  | none => s

end Sys2Proof.Machine
end

