-- ==== Sys2Proof/Machine/Pins.lean ====
section
/-! DEFINITION. What the balls carry, as functions of the state: the signals of R493, the gate pairs of R494, the sense
converters of R495 with their trims of R408, the judgement of a laser input (R502), and the clocks that a governor step divides
(R473). -/

namespace Sys2Proof.Machine

open Sys2Proof

/-- The governor holds the device in CONSTRAINED (R399, R467, R473). -/
def governed (s : State) : Bool := decide (1 ≤ s.eave.step ∧ s.eave.step ≤ 3) || s.eave.capOn
/-- SMB_ALERT_N is pulled low in SAFE-STOP, and in CONSTRAINED by the governor (R493). -/
def smbAlert (s : State) : Bool := decide (s.mode = .safeStop) || (decide (s.mode = .constrained) && governed s)
/-- ELS_E_EN or ELS_W_EN: high while the port's domain is powered (R464, R493). -/
def elsEnable (s : State) (p : Port) : Bool := s.powered p.domain
/-- The XSPI outputs are driven in RESET and BOOT (R406, R493). -/
def xspiDriven (s : State) : Bool := decide (s.mode = .reset ∨ s.mode = .boot)
/-- DRAM_RESET_N of a channel is low in DARK and RESET, and with its domain off (R464, R493). -/
def dramResetLow (s : State) (ch : Nat) : Bool := decide (s.mode = .dark ∨ s.mode = .reset) || !s.powered (5 + ch)
/-- The Welt lanes of a bay stand in electrical idle (R493). -/
def weltLanesIdle (s : State) (b : Nat) : Bool := !s.powered 19 || !(s.bay b).welt.enabled
/-- The clamps of R463 hold the gate outputs low (R493). -/
def gatesClamped (s : State) : Bool := !s.powered 18 || decide (Rail.vioMot ∈ s.aon.badRails)

/-- A half-bridge of the motor outputs: its two gates, and the ticks of 1 ns for which both have been off (R494). -/
structure GatePair where
  high : Bool := false
  low : Bool := false
  dead : Nat := 200
  deriving DecidableEq, Repr, Inhabited
/-- One nanosecond of a half-bridge that is asked for its high switch (`some true`), its low switch (`some false`) or none:
one gate rises only when both have been low for 200 ns, and a clamp forces both low (R494). -/
def GatePair.tick (g : GatePair) (ask : Option Bool) (clamp : Bool) : GatePair :=
  let stay (on : Bool) (w : Bool) : Bool := on && !clamp && decide (ask = some w)
  let may : Bool := !g.high && !g.low && decide (200 ≤ g.dead) && !clamp
  let h := stay g.high true || (may && decide (ask = some true))
  let l := stay g.low false || (may && decide (ask = some false))
  { high := h, low := l, dead := if h || l then 0 else g.dead + 1 }

/-- A sense reading with its gain trim in 1/65,536 (R408, R495). (Log DESIGN CHOICE 170) -/
def senseTrimmed (raw trim : Int) : Int := roundDiv (raw * (65536 + trim)) 65536
/-- The code of a bus voltage in mV: 1.2 V in 4,096 codes behind a divider by 16 (R495). -/
def busCode (mv : Nat) : Nat := (mv * 4096 + 9600) / 19200
/-- A bus reading in mV with the group's trims, gain in 1/65,536 and offset in mV (R408). (Log DESIGN CHOICE 170) -/
def busTrimmed (s : State) (g : Nat) (mv : Int) : Int := senseTrimmed mv (s.pval 0x0B06 (2 * g)) + s.pval 0x0B06 (2 * g + 1)

/-- A port's source is usable: every one of its inputs at +13.0 dBm or more, in tenths of a dBm, and no alarm (R319, R502). -/
def laserUsable (inputs : List Int) (alarm : Bool) : Bool := inputs.all (fun p => decide (130 ≤ p)) && !alarm

/-- Clock of the management complex in MHz, divided by 2 from step 1 on (R473). -/
def mgmtClock (s : State) : Nat := if 1 ≤ s.eave.step then 500 else 1000
/-- Clock of the codec in MHz, divided by 2 from step 2 on (R473). -/
def codecClock (s : State) : Nat := if 2 ≤ s.eave.step then 625 else 1250

end Sys2Proof.Machine
end

