-- ==== Sys2Proof/Safety.lean ====
section
/-! DEFINITION. The terms in which claims about the engine speak: the parts of the state and what it means that a
command changes no others, the same for the parts of one bay, the bounds that every run keeps, and the shape of a
command's completion. -/

namespace Sys2Proof.Machine

open Sys2Proof

/-! ## Frames -/

/-- The parts of the state, one for each field. -/
inductive Part
  | mode | aon | mgmt | eave | pat | logs | events | adminQ | qps | lastQp | turns | tags | orders | sec | ring | girth
  | bays | beams | buses | recov | courses | nextHandle | mem | freeCtr | readData | sent | pending
  deriving DecidableEq, Repr

/-- Two states agree in a part. -/
def State.agrees (s t : State) : Part → Prop
  | .mode => t.mode = s.mode
  | .aon => t.aon = s.aon
  | .mgmt => t.mgmt = s.mgmt
  | .eave => t.eave = s.eave
  | .pat => t.pat = s.pat
  | .logs => t.logs = s.logs
  | .events => t.events = s.events
  | .adminQ => t.adminQ = s.adminQ
  | .qps => t.qps = s.qps
  | .lastQp => t.lastQp = s.lastQp
  | .turns => t.turns = s.turns
  | .tags => t.tags = s.tags
  | .orders => t.orders = s.orders
  | .sec => t.sec = s.sec
  | .ring => t.ring = s.ring
  | .girth => t.girth = s.girth
  | .bays => t.bays = s.bays
  | .beams => t.beams = s.beams
  | .buses => t.buses = s.buses
  | .recov => t.recov = s.recov
  | .courses => t.courses = s.courses
  | .nextHandle => t.nextHandle = s.nextHandle
  | .mem => t.mem = s.mem
  | .freeCtr => t.freeCtr = s.freeCtr
  | .readData => t.readData = s.readData
  | .sent => t.sent = s.sent
  | .pending => t.pending = s.pending

/-- From `s` to `t` nothing changes outside the listed parts. -/
def State.changesOnly (ps : List Part) (s t : State) : Prop := ∀ p, p ∉ ps → s.agrees t p

/-- From `s` to `t` no bay but `b` changes. -/
def State.onlyBay (b : Nat) (s t : State) : Prop := ∀ n, n ≠ b → t.bay n = s.bay n

/-- The parts of a bay. -/
inductive BayPart
  | state | pins | permit | service | disc | mount | releasing | safe | holds | downAt | restarts | dibCheck | overrun
  | welt | servo | chan | spin | sled | write | catching
  deriving DecidableEq, Repr

/-- Two bays agree in a part. -/
def Bay.agrees (x y : Bay) : BayPart → Prop
  | .state => y.state = x.state
  | .pins => y.discPin = x.discPin ∧ y.busyPin = x.busyPin
  | .permit => y.ldPermit = x.ldPermit
  | .service => y.outOfService = x.outOfService
  | .disc => y.disc = x.disc
  | .mount => y.mount = x.mount
  | .releasing => y.releasing = x.releasing
  | .safe => y.safeCause = x.safeCause ∧ y.safeAt = x.safeAt
  | .holds => y.holds = x.holds ∧ y.holdAt = x.holdAt
  | .downAt => y.downAt = x.downAt
  | .restarts => y.safeStarts = x.safeStarts
  | .dibCheck => y.dibCheck = x.dibCheck
  | .overrun => y.overrunRow = x.overrunRow ∧ y.overrunDue = x.overrunDue
  | .welt => y.welt = x.welt
  | .servo => y.servo = x.servo
  | .chan => y.chan = x.chan
  | .spin => y.spin = x.spin
  | .sled => y.sled = x.sled
  | .write => y.write = x.write
  | .catching => y.catching = x.catching

/-- From bay `x` to bay `y` nothing changes outside the listed parts. -/
def Bay.changesOnly (ps : List BayPart) (x y : Bay) : Prop := ∀ p, p ∉ ps → x.agrees y p

/-! ## Completion -/

/-- A command answers a next state of which `P` holds. -/
def completes (c : Instr) (s : State) (P : State → Prop) : Prop := ∃ t, exec c s = .next t ∧ P t

/-! ## Modes and domains -/

/-- The changes of mode that one command may make: those of R400's table, and from STANDBY or QUIESCE through ACTIVE to
CONSTRAINED where a cause of CONSTRAINED holds as ACTIVE is entered (R399). -/
def modeStep : Mode → Mode → Bool
  | _, .dark => true
  | _, .reset => true
  | .reset, .boot => true
  | .boot, .enrol => true
  | .enrol, .transit => true
  | .transit, m => m == .standby || m == .safeStop
  | .standby, m => m == .transit || m == .active || m == .constrained || m == .service || m == .retire || m == .safeStop
  | .active, m => m == .constrained || m == .quiesce || m == .safeStop
  | .constrained, m => m == .active || m == .quiesce || m == .safeStop
  | .quiesce, m => m == .active || m == .constrained || m == .standby || m == .service || m == .retire || m == .safeStop
  | .service, m => m == .standby || m == .safeStop
  | .safeStop, m => m == .standby
  | .retire, m => m == .safeStop || m == .enrol
  | _, _ => false

/-- The domains that are on in a mode (R464): the masks of PD0 to PD19 that it allows. -/
def domainMasks : Mode → List (BitVec 20)
  | .dark => [0#20, 0x00001#20]
  | .reset => [0x00001#20]
  | .boot => [0x00063#20]
  | .enrol => [0x0007F#20]
  | .transit => [0x0007F#20]
  | .safeStop => [0xE007F#20]
  | .retire => [0xFFFFF#20, 0x0007F#20]
  | _ => [0xFFFFF#20]

/-- The domains stand as the mode has them. -/
def State.domainsFit (s : State) : Prop := s.aon.power ∈ domainMasks s.mode

/-- An entry to RESET with a cause code (R403, R465, R479): STITCH64, the fuses, the bucket, the pattern values pending for
the next boot and the history of RESET_CAUSE stand, and everything else of the engine is as after reset. -/
structure State.EntersReset (s t : State) (cause : Nat) : Prop where
  mode : t.mode = .reset
  stitch : t.aon.stitch = s.aon.stitch
  fuses : t.aon.fuseSvn = s.aon.fuseSvn
  cause : t.aon.cause = cause
  previous : t.aon.prevCause = s.aon.cause
  domains : t.aon.power = 1
  bucket : t.eave.bucket = s.eave.bucket
  pattern : t.pat = { inForce := [], pending := s.pat.pending.filter (fun e => e.point == .boot) }
  keys : t.sec = {}
  queues : t.qps = [] ∧ t.tags = [] ∧ t.adminQ = []
  courses : t.courses = []
  mounts : ∀ b, (t.bay b).disc = none ∧ (t.bay b).mount = none ∧ (t.bay b).write = none ∧ (t.bay b).state = .spinDown
  logs : t.logs = {} ∧ t.events = {}
  ring : t.ring.node = 0 ∧ t.ring.map = none ∧ t.ring.tapped = false

/-- Core 0 is about to execute `c` (R385, R387): firmware runs, `c` heads the one queue with its payload complete, and no
RING_TAP waits for it. -/
structure State.atHead (s : State) (c : AdminCmd) (rest : List AdminCmd) : Prop where
  runs : s.fwRuns = true
  queue : s.adminQ = c :: rest
  complete : c.complete = true
  whole : c.len ≤ c.payload.length
  noTap : match s.ring.splice with | .waitingCal _ _ _ _ => False | _ => True

/-- The state in which core 0 executes the head of its queue: the command is off the queue, and core 0's watchdog is kicked
(R481). -/
def State.taken (s : State) (rest : List AdminCmd) : State :=
  { s with adminQ := rest, aon := { s.aon with kick0 := s.now } }

/-- A frame is received by the engine as its node: it passes the checks of every frame, is addressed to the engine by another
node, and its FCS holds (R328 to R330). -/
structure State.takes (s : State) (f : Frame) : Prop where
  good : frameVerdict s f = .good
  mine : f.dst = s.ring.node
  other : f.src ≠ s.ring.node
  fcs : f.fcsOk = true

/-- What arrives in sequence is stored at once: no channel retrains, and no word of the ingest buffer is lost (R429, R444). -/
structure State.stores (s : State) : Prop where
  east : (s.chan 0).retraining = false
  west : (s.chan 1).retraining = false
  whole : s.ring.ingestLost = false

/-- A frame passes the engine: it passes the checks of every frame, and it goes from one node to another (R328 to R332). -/
structure State.passes (s : State) (f : Frame) : Prop where
  good : frameVerdict s f = .good
  unicast : f.dst ≠ 255
  other : f.dst ≠ s.ring.node
  foreign : f.src ≠ s.ring.node
  routed : f.ftype ≠ 0x20

/-- A command of the tag store is about to run: firmware schedules it, it has not run yet, its opcode and operands select the
meaning, and its fields are in range (R357, R360, R365). -/
structure State.toRun (s : State) (q : QpId) (tag : Nat) (k : SqeKind) (c : Cmd) : Prop where
  found : s.cmd? q tag = some c
  fresh : c.started = false
  kind : c.sqe.kind = k
  serves : canServe s = true
  range : c.sqe.inRange = true

/-- An SPDM request over MCTP that is answered: outside a session, or in a session that is held (R413, R415). -/
def State.overMctp (s : State) : SpdmVia → Prop
  | .mctp => True
  | .mctpSession sid => (s.spdmSession sid).isSome = true
  | _ => False

/-- From `s` to `t` the commands of the tag store stay in their places, and a sector whose outcome is decided stays as it is
(R151, R368). -/
def State.keepsDecided (s t : State) : Prop :=
  t.tags.length = s.tags.length ∧ ∀ (i : Nat) (c : Cmd), s.tags[i]? = some c → ∃ e : Cmd, t.tags[i]? = some e ∧ e.q = c.q ∧
    e.sqe = c.sqe ∧ ∀ (j : Nat) (x : CmdSector), c.sectors[j]? = some x → x.outcome ≠ .pending → e.sectors[j]? = some x

/-! ## What every run keeps -/

/-- A log page holds at most `cap` entries (R391, R392). -/
def LogPage.within {α : Type} (p : LogPage α) (cap : Nat) : Prop := p.entries.length ≤ cap

/-- The bounds of the stores: the pages of codes hold 1,024 entries (R391), the responder four sessions (R415), and the
event queue 128 events beside DISC_NEEDED and DISC_DONE (R389). -/
structure State.Bounded (s : State) : Prop where
  device : s.logs.device.within 1024
  mount : s.logs.mount.within 1024
  ring : s.logs.ring.within 1024
  bay : ∀ b, (Tbl.get {} s.logs.bay b).within 1024
  sessions : s.sec.sessions.length ≤ 4
  events : s.events.others ≤ 128

end Sys2Proof.Machine
end

