-- ==== Sys2Proof/WellFormed.lean ====
section
/-! DEFINITION. Which commands are well formed: the operands whose type is wider than what can reach the engine are
held to the range that the manual gives them. The meanings are total: a command outside these ranges has an effect in
the model too, and claims may ask for well-formed commands where they need them. -/

namespace Sys2Proof

/-- A queue pair number: QPs 1 to 4095 carry data commands (R352). -/
def QpId.wf : QpId → Bool
  | .admin _ => true
  | .data n => decide (1 ≤ n ∧ n ≤ 4095)

/-- An 11-bit command tag (R327). -/
def tagWf (t : Nat) : Bool := decide (t < 2048)

/-- The reserved content of a header fits its widths (R327). -/
def FrameRsv.wf (r : FrameRsv) : Bool := decide (r.flags < 64 ∧ r.qp < 16 ∧ r.tag < 2 ^ 21 ∧ r.bytes.length = 10)

/-- The header fields of a frame fit their widths, and LEN is the body's length, at most 9,184 (R327). -/
def Frame.wf (f : Frame) : Bool := f.rsv.wf &&
  decide (f.pcp < 8 ∧ f.ver < 256 ∧ f.ftype < 256 ∧ f.dst < 256 ∧ f.src < 256 ∧ f.hops < 65536 ∧ f.qp < 4096
    ∧ f.tag < 2048 ∧ f.hcrc < 65536 ∧ f.len = f.body.length ∧ f.len ≤ 9184)

/-- A tag that comes with a message is a command tag. -/
def SpdmVia.wf : SpdmVia → Bool
  | .mctp => true
  | .mctpSession _ => true
  | .tunnel _ t => tagWf t
  | .tunnelSession _ t _ => tagWf t

/-- An image slot holds a header of 512 bytes (R404). -/
def ImageFile.wf (i : ImageFile) : Bool := decide (i.header.length = 512)

/-- A decode report is of four codewords, each with an LLR for every bit, after at most 12 iterations (R69, R73). -/
def DecodeReport.wf (r : DecodeReport) : Bool :=
  decide (r.cws.length = 4) && r.cws.all (fun c => match c with
    | some x => decide (x.llr.length = 9288 ∧ x.iters ≤ 12)
    | none => true)

/-- A beam's samples are ADC codes less 128. -/
def BeamRaw.wf (o : BeamRaw) : Bool := o.samples.all (fun x => decide (-128 ≤ x ∧ x ≤ 127))

/-- A slot's observation: at most eight beams, each once, one sample per channel bit of the slot at most. -/
def SlotObs.wf (o : SlotObs) : Bool :=
  decide (o.beams.length ≤ 8) && decide ((o.beams.map (·.beam)).Nodup) && o.beams.all BeamRaw.wf

/-- A cache and the number of its sets and ways (R449). -/
def Cache.sets : Cache → Nat
  | .l1i _ => 128
  | .l1d _ => 128
  | .l2 => 4096
def Cache.waysOf : Cache → Nat
  | .l1i _ => 4
  | .l1d _ => 4
  | .l2 => 16

/-- A physical address: at most 128 GiB (R423). -/
def paWf (pa : Nat) : Bool := decide (pa < 2 ^ 37)

/-- The well-formed commands. -/
def Instr.wf : Instr → Bool
  | .imageStart d0 d1 a b _ _ _ => decide (16 ≤ d0.length ∧ 16 ≤ d1.length) && a.wf && b.wf
  | .claos _ sqe p => decide (sqe.length = 64 ∧ p.length ≤ 65536)
  | .getVersion v | .getCapabilities v | .negotiateAlgorithms v | .getDigests v | .getCertificate v _ _ _
  | .challenge v _ _ | .getMeasurements v _ _ _ | .keyExchange v _ _ | .finish v _ _ | .spdmHeartbeat v _
  | .keyUpdate v _ _ | .endSession v _ | .spdmUnsupportedRequest v _ => v.wf
  | .adminPayloadTimeout _ t => tagWf t
  | .read q t | .verify q t | .append q t | .flush q t | .seal q t | .mount q t | .mountUnavailable q t
  | .mountOpenCourse q t | .release q t | .releaseCourse q t | .dataUndefinedOpcode q t | .deadlineExpiry q t
  | .readSectorDelivery q t => q.wf && tagWf t
  | .cmd f | .data f _ | .cpl f | .ack f | .nak f | .heartbeat f | .topology f | .idProbe f | .idClaim f
  | .transitFrame f | .unknownFrameType f => f.wf
  | .ackTimerExpiry q | .rtoExpiry q | .sequencedFrameLaunch q | .queueOrphanExpiry q | .qpFreed q => q.wf
  | .stitchBoundary ms m => decide ((ms.map (·.bay)).Nodup) && decide (m.issue0 ≤ 10000 ∧ m.issue1 ≤ 10000)
    && m.accesses.all (fun a => decide (a.pa < 2 ^ 37 ∧ a.pa % 64 + a.data.length ≤ 64))
  | .uplinkStitchFrame _ l => decide (l.length ≤ 512)
  | .echo _ l _ => decide (l.length ≤ 512)
  | .identity _ l => decide (l.length ≤ 512)
  | .sectorSlotRead _ o => o.wf
  | .ldpcDecodeDone _ _ r => r.wf
  | .recoveryStepLimit _ _ k m => decide (m < 288) && decide (k < 2 ^ 32)
  | .opcDone _ us ps => decide (us.Nodup) && decide (ps.length ≤ 32)
  | .writeSlotEnd _ _ p => decide (p ≤ 100)
  | .runResume _ p o => decide (p ≤ 100 ∧ o < 3200)
  | .registrationCheck _ ws _ => decide ((ws.map (·.1)).Nodup)
  | .spindleStart _ a b => decide (a.length = 6 ∧ b.length = 6)
  | .busRecovered _ _ rs => decide (rs.length = 4)
  | .dramCorrectedError _ pa fs | .dramUncorrectable _ pa fs => paWf pa && decide fs.Nodup
  | .dramUnmapped _ pa => paWf pa
  | .burnisherRead fs => decide fs.Nodup
  | .cacheError c _ set way => decide (set < c.sets ∧ way < c.waysOf)
  | .eaveSample raw => decide ((raw.map (·.1)).Nodup)
  | .pd0SupplyApplied _ _ | .pd0SupplyLost | .resetNAsserted _ _ | .resetNReleased _ _ _ | .railFault _ | .railRestored _
  | .refclkSysLost | .refclkSysRestored | .refclkRingLost | .dramTrainingComplete _ _ | .watchdogExpiry _
  | .mgmtRestartComplete | .selfResetEntry | .constrainedExit | .quiesceDrained | .retirePowerDown | .getStatus _
  | .getTemps _ | .reset _ | .wake _ | .shutdown _ | .safeStop _ | .mctpVendorUnsupported _ _ | .setEndpointId _
  | .getEndpointId | .getEndpointUuid | .getMctpVersionSupport | .getMessageTypeSupport | .getVendorDefinedMessageSupport
  | .mctpControlUnsupported _ | .identify | .getLog | .getLogClear | .setPattern | .getPattern | .calLoad | .calRead
  | .keyLoad | .keyErase | .keyEraseAll | .modeRequest | .qpCreate | .qpDelete | .eventArm | .eventArmMaskOnly
  | .eventDelivery | .fwStage | .fwActivateLive | .commitSvn | .spdmTunnel | .weltRetrain | .safeRestart | .chopperClear
  | .bayOut | .bayIn | .rehome | .adminUndefinedOpcode | .sqeTake | .nonYaverFrame _ | .pfcXoff _ _ _ | .pfcXon _ _
  | .pfcTimerExpiry _ _ | .pfcXoffRepeat _ _ | .pfcWatchdogExpiry _ _ | .pfcStormDrop _ _ | .pfcStormEnd _ _ | .pcsLock _
  | .pcsLoss _ | .heartbeatMissLimit _ | .cutQuiet _ | .ringTap _ _ _ _ | .tapTrainTimeout | .idClaimWindowExpiry
  | .ringUntap _ | .ringStatus _ | .laserSourceUnusable _ | .portDomainFault _ | .vhtrLost | .spanBoundary _ _ _ _ _ _ _ _
  | .stitchLoRead | .girthWindow _ | .downlinkLaunch | .uplinkFrameMissing _ | .ulBlockLock _ | .weltTrainingTimeout _
  | .noSync _ | .ridgeCoastExpiry _ | .ridgeRelock _ | .seamOffsetSearch _ | .replacementRunDone _ | .retryStoreCopy _ _ | .thatchDecode _ _ _
  | .rereadPassDone _ _ _ | .courseReconstruction _ _ _ | .discWaitExpiry _ | .rowSolve _ _ | .sessionOpen _ _
  | .blankScanDone _ | .fifoUnderrun _ _ _ | .drainComplete _ | .resumeMaxExpiry _ | .verifySegmentEnd _
  | .verifyPassDone _ | .sessionIdleExpiry _ | .sessionClose _ | .dmaUpdateReadback _ _ _ _ | .focusSweepEnd _
  | .focusCapture _ _ _ | .focusSettled _ | .layerJumpCapture _ _ _ | .layerJumpTimeout _ | .focusLoss _ | .offTrack _
  | .trackingCapture _ | .trackingAcqTimeout _ | .trackJumpDone _ | .turnBack _ | .seek _ _ _ | .holdRelease _
  | .holdTimeout _ | .safeRestartStart _ | .discPresentChange _ _ | .ldBusyChange _ _ | .handover _ | .startFailure _
  | .startRetry _ | .rotorLoss _ _ | .catchLock _ _ | .catchFail _ _ | .standstill _ | .spinStuck _ | .atSpeed _
  | .demandStart _ | .demandStop _ | .spinSafeHoldExpiry _ | .pd18PowerUp _ _ | .busChopperOn _ _ | .busRegenInhibit _ _
  | .busOvervolt _ _ | .busUndervolt _ _ | .busLowLimit _ _ | .brakeChopperFault _ | .positionMove _ _ | .newTarget _ _
  | .moveComplete _ | .sledStall _ | .sledSoftLimit _ | .homing _ | .homeEdge _ | .homeRelease _ | .homeFailure _ _
  | .limitSwitchTrip _ _ | .dramRequestTimeout _ _ | .dramRetrainDone _ _ | .refresh _ | .zqCalibration _ | .clean _ _
  | .invalidate _ _ | .cleanInvalidate _ _ | .invalidateAll _ _ | .cacheDisableWalkDone _ | .rgnCtrlWrite _ _
  | .eaveReleaseDwell | .step1SixtySecondExpiry | .groupPark | .groupParkRepeat | .groupUnpark | .capParkTimer
  | .channelStatusRead _ _ | .channelStatusWrite _ _ _ | .girthStatRead _ _ | .girthLoadRead _ | .girthOvrBayWrite _ _
  | .slotStatWrite _ _ _ _ | .spinStatRead _ _ | .spinStatWrite _ _ _ | .busStatRead _ _ | .sledStatWrite _ _ _
  | .ringPortStatRead _ _ | .ringPortStatWrite _ _ _ _ | .ringDropRead _ _ _ | .dramStatRead _ _ _ _
  | .burnishStatRead _ | .cacheStatRead _ _ _ | .cacheStatWrite _ _ _ | .registerWrite _ _ | .sledHoldDelayExpiry _
  | .agePromotion _ _ | .tapInstruction _ => true

end Sys2Proof
end

