-- ==== Sys2Proof/Certificates/Slice0/Obligations.lean ====
section
/-! DEFINITION. The statements about the engine: for every command where it completes and with what effect, what it leaves
as it was, where it changes nothing, and what every step keeps. A number of stitches stands for a time at 5 µs a stitch. -/

open Sys2Proof Sys2Proof.Machine

/-! ## Registers -/

/-- A read of a register with read-clear counts returns the counts held before the read; the counts then hold only what the
hardware counted in the same cycle, and nothing else changes (R9, R10, with the fields of R136, R248, R292, R349, R457). -/
def Obligations.CountReadsReturnOldValueThenClear : Prop :=
  (∀ (g : GBeam) (n : Nat) (s : State), completes (.channelStatusRead g n) s fun t =>
    bitsOf t.readData.toNat 15 8 = min 255 (s.beam g).lost ∧ t.beam g = { s.beam g with lost := min 255 n } ∧
    (∀ k, k ≠ g.val → t.beam k = s.beam k) ∧ s.changesOnly [.beams, .readData] t) ∧
  (∀ (o p : Nat) (s : State), completes (.girthStatRead o p) s fun t =>
    bitsOf t.readData.toNat 31 16 = min 0xFFFF s.girth.overruns ∧ bitsOf t.readData.toNat 15 8 = min 0xFF s.girth.parity ∧
    t.girth = { s.girth with overruns := min 0xFFFF o, parity := min 0xFF p } ∧ s.changesOnly [.girth, .readData] t) ∧
  (∀ (n : Nat) (s : State), completes (.girthLoadRead n) s fun t =>
    t.readData.toNat = s.girth.maxCyc % 2048 ∧ t.girth = { s.girth with maxCyc := min 2047 n } ∧
    s.changesOnly [.girth, .readData] t) ∧
  (∀ (b : BayId) (n : Nat) (s : State), completes (.spinStatRead b n) s fun t =>
    bitsOf t.readData.toNat 23 20 = min 15 (s.bay b).spin.starts ∧ bitsOf t.readData.toNat 31 28 = (s.bay b).spin.state.code ∧
    (t.bay b).spin = { (s.bay b).spin with starts := min 15 n } ∧ (s.bay b).changesOnly [.spin] (t.bay b) ∧
    s.onlyBay b t ∧ s.changesOnly [.bays, .readData] t) ∧
  (∀ (g : GroupId) (n : Nat) (s : State), completes (.busStatRead g n) s fun t =>
    bitsOf t.readData.toNat 23 16 = min 255 (s.bus g).events ∧ bitsOf t.readData.toNat 15 0 = (s.bus g).mv % 65536 ∧
    t.bus g = { s.bus g with events := min 255 n } ∧ (∀ k, k ≠ g.val → t.bus k = s.bus k) ∧
    s.changesOnly [.buses, .readData] t) ∧
  (∀ (p : Port) (n : Nat) (s : State), completes (.ringPortStatRead p n) s fun t =>
    bitsOf t.readData.toNat 15 8 = min 255 (s.port p).fecUncorr ∧ bitsOf t.readData.toNat 23 16 = (s.port p).neighbour % 256 ∧
    t.port p = { s.port p with fecUncorr := min 255 n } ∧ (∀ q, q ≠ p → t.port q = s.port q) ∧
    s.changesOnly [.ring, .readData] t) ∧
  (∀ (p : Port) (f d : Nat) (s : State), completes (.ringDropRead p f d) s fun t =>
    bitsOf t.readData.toNat 31 16 = min 0xFFFF (s.port p).fcsBad ∧ bitsOf t.readData.toNat 15 0 = min 0xFFFF (s.port p).dropped ∧
    t.port p = { s.port p with fcsBad := min 0xFFFF f, dropped := min 0xFFFF d } ∧ (∀ q, q ≠ p → t.port q = s.port q) ∧
    s.changesOnly [.ring, .readData] t) ∧
  (∀ (ch : Fin 2) (a b c : Nat) (s : State), completes (.dramStatRead ch a b c) s fun t =>
    bitsOf t.readData.toNat 15 8 = min 255 (s.chan ch).ce ∧ bitsOf t.readData.toNat 7 4 = min 15 (s.chan ch).timeouts ∧
    bitsOf t.readData.toNat 3 0 = min 15 (s.chan ch).retrains ∧
    t.chan ch = { s.chan ch with ce := min 255 a, timeouts := min 15 b, retrains := min 15 c } ∧
    t.mem.readByte = s.mem.readByte ∧ s.changesOnly [.mem, .readData] t) ∧
  (∀ (n : Nat) (s : State), completes (.burnishStatRead n) s fun t =>
    bitsOf t.readData.toNat 23 16 = min 255 s.mem.burnPasses ∧ t.mem = { s.mem with burnPasses := min 255 n } ∧
    s.changesOnly [.mem, .readData] t) ∧
  (∀ (k : Cache) (a b : Nat) (s : State), completes (.cacheStatRead k a b) s fun t =>
    bitsOf t.readData.toNat 15 8 = min 255 (s.cache k).par ∧ bitsOf t.readData.toNat 7 0 = min 255 (s.cache k).fatal ∧
    t.cache k = { s.cache k with par := min 255 a, fatal := min 255 b } ∧ t.mem.readByte = s.mem.readByte ∧
    s.changesOnly [.mem, .readData] t)

/-- A write of 1 to a write-one-to-clear bit clears it unless the hardware sets it in the same cycle; a written 0 leaves it;
every other bit written is ignored (R9, R10). -/
def Obligations.WriteOneClearsUnlessSetInTheSameCycle : Prop :=
  (∀ (g : GBeam) (w : Word) (e : Bool) (s : State), completes (.channelStatusWrite g w e) s fun t =>
    t.beam g = { s.beam g with retryFull := e || ((s.beam g).retryFull && !w.getLsbD 28) } ∧
    (∀ k, k ≠ g.val → t.beam k = s.beam k) ∧ s.changesOnly [.beams] t) ∧
  (∀ (w : Word) (e : Half) (s : State), completes (.girthOvrBayWrite w e) s fun t =>
    (∀ n, n < 16 → t.girth.ovrBay.getLsbD n = (e.getLsbD n || (s.girth.ovrBay.getLsbD n && !w.getLsbD n))) ∧
    t.girth = { s.girth with ovrBay := t.girth.ovrBay } ∧ s.changesOnly [.girth] t) ∧
  (∀ (i : SlotId) (w : Word) (a u : Bool) (s : State), completes (.slotStatWrite i w a u) s fun t =>
    t.slot i = { s.slot i with switched := a || ((s.slot i).switched && !w.getLsbD 26),
                               unfinished := u || ((s.slot i).unfinished && !w.getLsbD 25) } ∧
    (∀ k, k ≠ i.val → t.slot k = s.slot k) ∧ s.changesOnly [.girth] t) ∧
  (∀ (b : BayId) (w : Word) (e : Bool) (s : State), completes (.spinStatWrite b w e) s fun t =>
    (t.bay b).spin = { (s.bay b).spin with lost := e || ((s.bay b).spin.lost && !w.getLsbD 25) } ∧
    (s.bay b).changesOnly [.spin] (t.bay b) ∧ s.onlyBay b t ∧ s.changesOnly [.bays] t) ∧
  (∀ (b : BayId) (w : Word) (e : Bool) (s : State), completes (.sledStatWrite b w e) s fun t =>
    (t.bay b).sled = { (s.bay b).sled with stall := e || ((s.bay b).sled.stall && !w.getLsbD 26) } ∧
    (s.bay b).changesOnly [.sled] (t.bay b) ∧ s.onlyBay b t ∧ s.changesOnly [.bays] t) ∧
  (∀ (p : Port) (w : Word) (a n : Bool) (s : State), completes (.ringPortStatWrite p w a n) s fun t =>
    t.port p = { s.port p with stormFlag := a || ((s.port p).stormFlag && !w.getLsbD 25),
                               nbChange := n || ((s.port p).nbChange && !w.getLsbD 24) } ∧
    (∀ q, q ≠ p → t.port q = s.port q) ∧ s.changesOnly [.ring] t) ∧
  (∀ (k : Cache) (w : Word) (e : Bool) (s : State), completes (.cacheStatWrite k w e) s fun t =>
    t.cache k = { s.cache k with err := e || ((s.cache k).err && !w.getLsbD 29) } ∧
    t.mem.readByte = s.mem.readByte ∧ s.changesOnly [.mem] t)

/-- A locked region descriptor ignores writes; an unlocked one takes the written fields of RGN_CTRL and RGN_BASE, with the
reserved bits ignored. Writes to read-only registers change nothing, and CM_ADDR takes bits 30 to 0 (R9, R11, R432, R453). -/
def Obligations.PlainRegisterWritesFollowTheirAccess : Prop :=
  (∀ (i : Fin 16) (w : Word) (s : State), (s.mem.region i).lock = true →
    exec (.rgnCtrlWrite i w) s = .next s ∧ exec (.registerWrite (.rgnBase i) w) s = .next s) ∧
  (∀ (i : Fin 16) (w : Word) (s : State), (s.mem.region i).lock = false → completes (.rgnCtrlWrite i w) s fun t =>
    t.mem.region i = { base := (s.mem.region i).base, en := w.getLsbD 31, lock := w.getLsbD 30, cache := w.getLsbD 29,
                       code := w.getLsbD 28, size := w.toNat % 65536 } ∧
    (∀ k, k ≠ i.val → t.mem.region k = s.mem.region k) ∧ t.mem.readByte = s.mem.readByte ∧ s.changesOnly [.mem] t) ∧
  (∀ (i : Fin 16) (w : Word) (s : State), (s.mem.region i).lock = false → completes (.registerWrite (.rgnBase i) w) s fun t =>
    t.mem.region i = { s.mem.region i with base := w.toNat % 65536 } ∧
    (∀ k, k ≠ i.val → t.mem.region k = s.mem.region k) ∧ s.changesOnly [.mem] t) ∧
  (∀ (c : Fin 2) (w : Word) (s : State), completes (.registerWrite (.cmAddr c) w) s fun t =>
    (if c.val = 0 then t.mem.cmAddr0 else t.mem.cmAddr1).toNat = w.toNat % 2 ^ 31 ∧ s.changesOnly [.mem] t) ∧
  (∀ (g : GBeam) (w : Word) (s : State), completes (.registerWrite (.trimWord g) w) s fun t =>
    t.pat = ((s.pat.pend 0x0B00 g (w.toNat % 256 : Nat)).pend 0x0B01 g (w.toNat / 256 % 64 : Nat)).pend 0x0B02 g
      (w.toNat / 16384 % 16 : Nat) ∧ s.changesOnly [.pat] t) ∧
  (∀ (r : Reg) (w : Word) (s : State),
    (match r with | .trimWord _ | .rgnBase _ | .cmAddr _ => False | _ => True) → exec (.registerWrite r w) s = .next s)

/-- Firmware reads the timebase through three read-only registers: a read of STITCH_LO returns STITCH64[31:0] and latches
STITCH64[63:32] into STITCH_HI in the same cycle; STITCH_HI returns what was latched, which no stitch boundary changes, so
that the pair is one consistent 64-bit value; SPAN_POS returns STITCH64 mod 200 in bits 7 to 0 with the others 0; entry to
RESET keeps them (R206). -/
def Obligations.StitchRegistersReadOneConsistentTime : Prop :=
  (∀ s : State, completes .stitchLoRead s fun t =>
    t.aon.stitchHi.toNat * 2 ^ 32 + t.readData.toNat = s.aon.stitch.toNat ∧
    t.aon = { s.aon with stitchHi := t.aon.stitchHi } ∧ s.changesOnly [.aon, .readData] t) ∧
  (∀ s : State, s.plainWord .stitchHi = s.aon.stitchHi.toNat) ∧
  (∀ (l : List MotionSample) (m : MemStitch) (s : State),
    completes (.stitchBoundary l m) s fun t => t.aon.stitchHi = s.aon.stitchHi) ∧
  (∀ s : State, s.plainWord .spanPos = s.aon.stitch.toNat % 200) ∧
  (∀ (r : Reg) (w : Word) (s : State), r ∈ [Reg.stitchLo, .stitchHi, .spanPos] → exec (.registerWrite r w) s = .next s) ∧
  (∀ (i : Byte) (s : State), completes (.reset i) s fun t => t.aon.stitch = s.aon.stitch ∧ t.aon.stitchHi = s.aon.stitchHi)

/-! ## Supply, reset, boot and modes -/

/-- PD0's supply: applied, it takes the engine to RESET with STITCH64, the bucket and RESET_CAUSE at 0 and the fuses as they
were; lost, it takes the engine to DARK with every domain off. Every entry to RESET keeps only what R403 lists, puts PD1 to
PD19 off and records its cause with the one before (R203, R400, R403, R412, R462, R465, R467, R479, R500). Where the manual
leaves a point open, it follows the model's choice of log 20, 22, 37 and 38. -/
def Obligations.SupplyAndResetKeepOnlyWhatIsListed : Prop :=
  (∀ (a : Fin 8) (d : Fin 4) (s : State), s.aon.supply = false → completes (.pd0SupplyApplied a d) s fun t =>
    t.mode = .reset ∧ t.aon.supply = true ∧ t.aon.power = 1 ∧ t.aon.stitch = 0 ∧ t.eave.bucket = 0 ∧ t.resetCause = 0 ∧
    t.aon.smbAddr = a ∧ t.aon.dramCfg = d ∧ t.aon.fuseSvn = s.aon.fuseSvn ∧ t.aon.resetN = s.aon.resetN) ∧
  (∀ s : State, s.aon.supply = true → completes .pd0SupplyLost s fun t =>
    t.mode = .dark ∧ t.aon.supply = false ∧ t.aon.power = 0 ∧ t.ring.tapped = false ∧ t.pat = {} ∧
    t.aon.fuseSvn = s.aon.fuseSvn) ∧
  (∀ (a : Fin 8) (d : Fin 4) (s : State), s.aon.supply = true → exec (.pd0SupplyApplied a d) s = .next s) ∧
  (∀ s : State, s.aon.supply = false → exec .pd0SupplyLost s = .next s) ∧
  (∀ (a : Fin 8) (d : Fin 4) (s : State), s.aon.supply = true → s.mode ≠ .dark → completes (.resetNAsserted a d) s fun t =>
    s.EntersReset t 1 ∧ t.aon.resetN = true ∧ t.aon.smbAddr = a ∧ t.aon.dramCfg = d) ∧
  (∀ (r : Rail) (s : State), s.aon.supply = true → s.mode ≠ .dark → completes (.railFault r) s fun t =>
    s.EntersReset t 4 ∧ r ∈ t.aon.badRails) ∧
  (∀ s : State, s.aon.supply = true → s.mode ≠ .dark → completes .refclkSysLost s fun t =>
    s.EntersReset t 4 ∧ t.aon.refSys = false) ∧
  (∀ (i : Byte) (s : State), s.aon.supply = true → s.mode ≠ .dark → completes (.reset i) s fun t => s.EntersReset t 2) ∧
  (∀ (i : Byte) (s : State), s.aon.supply = true → s.mode = .dark → wakeOk s = true → completes (.wake i) s fun t =>
    s.EntersReset t 8 ∧ t.aon.selfResets = []) ∧
  (∀ s : State, s.mode = .safeStop → s.mgmt.selfReset.isSome → (∀ b ∈ allBays, (s.bay b).still = true) →
    (s.aon.recentResets s.now).length < 2 → completes .selfResetEntry s fun t =>
    s.EntersReset t 3 ∧ t.aon.selfResets = s.aon.recentResets s.now ++ [s.now])

/-- RESET is left for BOOT exactly when RESET_N is released, TEST_EN is low, every rail and REFCLK_SYS are in order; BOOT
powers PD1, PD5 and PD6, trains both channels and leaves every cache invalidated (R400, R406, R426, R452, R491, R500). Where
the manual leaves a point open, it follows the model's choice of log 22 and 23. -/
def Obligations.BootFollowsOnceTheConditionHolds : Prop :=
  (∀ (a : Fin 8) (d : Fin 4) (s : State), s.mode = .reset → s.aon.supply = true → s.aon.badRails = [] → s.aon.refSys = true →
    s.aon.power = 1 → completes (.resetNReleased a d false) s fun t =>
    t.mode = .boot ∧ t.aon.power = 0x63#20 ∧ t.mem.ch0.state = .training ∧ t.mem.ch1.state = .training ∧
    t.mem.l2.invDone = true ∧ t.aon.smbAddr = a ∧ t.aon.dramCfg = d ∧ t.aon.resetN = false) ∧
  (∀ (a : Fin 8) (d : Fin 4) (s : State), s.mode = .reset → s.aon.supply = true → completes (.resetNReleased a d true) s fun t =>
    t.mode = .reset ∧ t.aon.smbAddr = a ∧ t.aon.dramCfg = d ∧ s.changesOnly [.aon] t) ∧
  (∀ (r : Rail) (s : State), s.mode = .reset → s.aon.supply = true → s.aon.resetN = false → s.aon.testEn = false →
    s.aon.refSys = true → (∀ x ∈ s.aon.badRails, x = r) → completes (.railRestored r) s fun t =>
    t.mode = .boot ∧ t.aon.badRails = []) ∧
  (∀ s : State, s.mode = .reset → s.aon.supply = true → s.aon.resetN = false → s.aon.testEn = false →
    s.aon.badRails = [] → completes .refclkSysRestored s fun t => t.mode = .boot ∧ t.aon.refSys = true) ∧
  (∀ s : State, s.mode = .reset → s.aon.resetN = true → completes .refclkSysRestored s fun t =>
    t.mode = .reset ∧ s.changesOnly [.aon] t)

/-- DRAM training in BOOT: the second channel up, the regions are allocated in locked descriptors and every byte reads 0; a
first failure is tried again and a second stops BOOT. The image then starts with PD2 to PD4 on and the mode is ENROL, or,
with no bootable image, the engine stays in BOOT with BOOT_NO_IMAGE (R404 to R406, R426, R427, R431). Where the manual leaves
a point open, it follows the model's choice of log 18, 118 and 119. -/
def Obligations.BootTrainsAllocatesAndStartsTheImage : Prop :=
  (∀ (ch : Fin 2) (s : State), inTraining s ch = true → (s.mgmt.train ch).trained0 = true → (s.mgmt.train ch).trained1 = true →
    completes (.dramTrainingComplete ch true) s fun t =>
    (t.chan ch).state = .up ∧ t.mgmt = s.mgmt.train ch ∧ (∀ a, t.mem.readByte a = 0) ∧ t.mem.poisoned = [] ∧
    t.mem.region 0 = { base := 0, en := true, lock := true, cache := true, code := false, size := 24 } ∧
    t.mem.region 1 = { base := 24, en := true, lock := true, cache := true, code := false, size := 256 } ∧
    s.changesOnly [.mem, .mgmt, .pat] t) ∧
  (∀ (ch : Fin 2) (s : State), inTraining s ch = true →
    ((s.mgmt.train ch).trained0 && (s.mgmt.train ch).trained1) = false → completes (.dramTrainingComplete ch true) s fun t =>
    (t.chan ch).state = .up ∧ t.mgmt = s.mgmt.train ch ∧ t.mem.regions = s.mem.regions ∧ s.changesOnly [.mem, .mgmt] t) ∧
  (∀ (ch : Fin 2) (s : State), inTraining s ch = true → s.mgmt.tries ch = 0 → completes (.dramTrainingComplete ch false) s fun t =>
    t.mgmt.tries ch = 1 ∧ t.mgmt.noImage = false ∧ s.changesOnly [.mgmt] t) ∧
  (∀ (ch : Fin 2) (s : State), inTraining s ch = true → 0 < s.mgmt.tries ch → completes (.dramTrainingComplete ch false) s fun t =>
    t.mgmt.noImage = true ∧ (t.chan ch).state = .failed ∧ t.mode = .boot ∧ s.changesOnly [.mgmt, .mem] t) ∧
  (∀ (d0 d1 : List Byte) (a b : ImageFile) (e w x : Bool) (s : State),
    s.mode = .boot → s.mgmt.noImage = false → s.mgmt.trained0 = true → s.mgmt.trained1 = true →
    completes (.imageStart d0 d1 a b e w x) s fun t =>
    match chooseImage s.aon.fuseSvn d0 d1 a b with
    | none => t = { s with mgmt := { s.mgmt with noImage := true } }
    | some (k, i) =>
      t.mode = .enrol ∧ t.mgmt.running = true ∧ t.mgmt.slot = k ∧ t.mgmt.svn = imageSvn i ∧ t.mgmt.selfTest = x ∧
      t.powered 2 = true ∧ t.powered 3 = true ∧ t.powered 4 = true ∧ t.ring.east.elsOk = e ∧ t.ring.west.elsOk = w ∧
      t.aon.kick0 = s.now ∧ t.aon.kick1 = s.now)

/-- A core's watchdog restarts the management complex: its SPDM sessions end, and the restart counts towards the third in ten
minutes, which leads to SAFE-STOP and a waiting self-reset. The restart's end sets firmware running; a LIVE activation then
runs the staged image in slot 2 (R400, R402, R411, R415, R481, R482). Where the manual leaves a point open, it follows the
model's choice of log 36, 37 and 70. -/
def Obligations.WatchdogRestartsAndTheThirdLeadsToSelfReset : Prop :=
  (∀ (c : Fin 2) (s : State), s.fwRuns = true → s.aon.kick0 + 100000 ≤ s.now → s.aon.kick1 + 100000 ≤ s.now →
    (s.aon.restarts.filter (fun t => s.now < t + 120000000)).length < 2 → completes (.watchdogExpiry c) s fun t =>
    t.mgmt.restarting = true ∧ t.mgmt.running = false ∧ t.sec.sessions = [] ∧ t.sec.keys = s.sec.keys ∧ t.mode = s.mode ∧
    t.aon.restarts = s.aon.restarts.filter (fun t => s.now < t + 120000000) ++ [s.now] ∧ t.qps = s.qps ∧ t.tags = s.tags) ∧
  (∀ (c : Fin 2) (s : State), s.fwRuns = true → s.mode.onRing = true → s.mode ≠ .safeStop → s.aon.kick0 + 100000 ≤ s.now →
    s.aon.kick1 + 100000 ≤ s.now → 2 ≤ (s.aon.restarts.filter (fun t => s.now < t + 120000000)).length →
    completes (.watchdogExpiry c) s fun t => t.mode = .safeStop ∧ t.mgmt.restarting = true ∧ t.mgmt.selfReset = some s.now) ∧
  (∀ s : State, s.mgmt.restarting = true → completes .mgmtRestartComplete s fun t =>
    t.mgmt.restarting = false ∧ t.mgmt.running = true ∧ t.mgmt.owedModes = [] ∧ t.aon.kick0 = s.now ∧ t.aon.kick1 = s.now ∧
    t.mode = s.mode ∧ (s.mgmt.live.isSome → ∀ g, s.mgmt.staged = some g → t.mgmt.slot = 2 ∧ t.mgmt.svn = g.svn)) ∧
  (∀ s : State, s.mode = .safeStop → s.mgmt.selfReset.isSome → (∀ b ∈ allBays, (s.bay b).still = true) →
    2 ≤ (s.aon.recentResets s.now).length → completes .selfResetEntry s fun t =>
    t.mode = .dark ∧ t.aon.cause = 7 ∧ t.aon.prevCause = s.aon.cause ∧ t.aon.power = 1)

/-- The changes that the engine makes by itself, and the sideband's: CONSTRAINED back to ACTIVE 1 s after its last cause, the
DRAINED report of QUIESCE, the power-down of RETIRE at standstill, SHUTDOWN to DARK and SAFE_STOP (R399 to R401, R421, R464,
R465). Where the manual leaves a point open, it follows the model's choice of log 40. -/
def Obligations.AutomaticAndSidebandModeChanges : Prop :=
  (∀ (t0 : Nat) (s : State), s.mode = .constrained → s.constrainedCause = false → s.mgmt.clearSince = some t0 →
    t0 + 200000 ≤ s.now → completes .constrainedExit s fun t =>
    t.mode = .active ∧ s.changesOnly [.mode, .mgmt, .events, .logs, .freeCtr] t) ∧
  (∀ (t0 : Nat) (s : State), s.mgmt.clearSince = some t0 → s.now < t0 + 200000 → exec .constrainedExit s = .next s) ∧
  (∀ s : State, s.mode = .quiesce → s.fwRuns = true → s.mgmt.drained = false → s.tags = [] → coursesClosed s = true →
    s.ring.tapped = true → s.events.others < 128 → s.events.enabled 3 = true → completes .quiesceDrained s fun t =>
    t.mgmt.drained = true ∧ t.events.queue = s.events.queue ++ [⟨3, s.now, [8, 8, 1, 1]⟩] ∧
    s.changesOnly [.mgmt, .events] t) ∧
  (∀ s : State, s.mode = .retire → s.powered 18 = true → (∀ b ∈ allBays, (s.bay b).still = true) →
    completes .retirePowerDown s fun t =>
    t.aon.power = s.aon.power &&& 0x7F#20 ∧ t.mode = .retire ∧ t.buses = [] ∧ t.girth = {} ∧
    s.changesOnly [.aon, .girth, .buses, .bays] t) ∧
  (∀ (i : Byte) (s : State), s.aon.supply = true → completes (.shutdown i) s fun t =>
    t.mode = .dark ∧ t.aon.power = 1 ∧ t.aon.cause = 6 ∧ t.aon.stitch = s.aon.stitch ∧ t.ring.tapped = false) ∧
  (∀ (i : Byte) (s : State), s.aon.supply = true → s.mode.onRing = true → s.mode ≠ .safeStop → completes (.safeStop i) s fun t =>
    t.mode = .safeStop ∧ (∀ n, 7 ≤ n → n ≤ 16 → t.powered n = false) ∧ t.powered 17 = true ∧ t.powered 18 = true ∧
    t.powered 19 = true ∧ (∀ c ∈ t.courses, c.stopped = true)) ∧
  (∀ (i : Byte) (s : State), s.aon.supply = true → s.mode.onRing = false → completes (.safeStop i) s fun t =>
    t.mode = s.mode ∧ s.changesOnly [.sent] t)

/-! ## The MCTP sideband -/

/-- GET_STATUS and GET_TEMPS are answered whenever PD0 is powered, with the bodies of R421 and nothing changed but what was
sent; a vendor-defined command outside its modes is answered with 0x02 and an undefined one with 0x03. An admin SQE that
comes by the carrier joins core 0's queue behind the others, with its payload; one whose opcode the carrier does not take
executes nothing and its CQE says OUT_OF_RANGE (R382, R384, R386, R387, R420, R421). Where the manual leaves a point open, it
follows the model's choice of log 32 and 65. -/
def Obligations.QueriesAnswerAndCarrierCommandsQueue : Prop :=
  (∀ (i : Byte) (s : State), s.aon.supply = true → completes (.getStatus i) s fun t =>
    t.sent = s.sent ++ [.mctp ([0x7F] ++ beBytes 4 Config.iana.toNat ++ [0x90, i, 0x00] ++ [BitVec.ofNat 8 s.mode.code,
      BitVec.ofNat 8 (bitNat s.mgmt.noImage + 2 * bitNat s.ring.tapped + 4 * bitNat (untrimmed s)),
      BitVec.ofNat 8 (if s.ring.tapped then s.ring.node else 0), BitVec.ofNat 8 s.aon.fuseSvn]
      ++ beBytes 2 (unsignedOf 16 s.eave.tmax) ++ beBytes 2 s.eave.power
      ++ [BitVec.ofNat 8 (min 255 (s.aon.recentResets s.now).length)])] ∧ s.changesOnly [.sent] t) ∧
  (∀ (i : Byte) (s : State), s.aon.supply = true → completes (.getTemps i) s fun t =>
    (∃ l mask, t.sent = s.sent ++ [.mctp ([0x7F] ++ beBytes 4 Config.iana.toNat ++ [0x91, i, 0x00] ++ l ++ mask)] ∧
      l.length = 32 ∧ mask.length = 2 ∧ (∀ n, n < 16 → beAt l (2 * n) 2 = unsignedOf 16 (s.eave.sensor n).tj) ∧
      (∀ n, n < 16 → (beNat mask).testBit n = (s.eave.sensor n).broken)) ∧ s.changesOnly [.sent] t) ∧
  (∀ (i c : Byte) (s : State), s.aon.supply = true →
    c.toNat ∉ [0x10, 0x11, 0x12, 0x13, 0x14, 0x15, 0x16, 0x30, 0x31, 0x32] → completes (.mctpVendorUnsupported i c) s fun t =>
    t.sent = s.sent ++ [.mctp ([0x7F] ++ beBytes 4 Config.iana.toNat ++ [c ||| 0x80, i, 0x03])] ∧ s.changesOnly [.sent] t) ∧
  (∀ (i : Byte) (s : State), s.aon.supply = true → s.mode = .dark → completes (.mctpVendorUnsupported i 0x12) s fun t =>
    t.sent = s.sent ++ [.mctp ([0x7F] ++ beBytes 4 Config.iana.toNat ++ [0x92, i, 0x02])] ∧ s.changesOnly [.sent] t) ∧
  (∀ (i : Byte) (s : State), s.aon.supply = true → s.mode.firmware = false → completes (.mctpVendorUnsupported i 0x16) s fun t =>
    t.sent = s.sent ++ [.mctp ([0x7F] ++ beBytes 4 Config.iana.toNat ++ [0x96, i, 0x02])] ∧ s.changesOnly [.sent] t) ∧
  (∀ (i : Byte) (sqe p : List Byte) (s : State), s.aon.supply = true → s.mode.firmware = true → sqe.length = 64 →
    onCarrier (byteAt sqe 0).toNat = true → (carrierCmd i sqe p s.now).tooLong = false → completes (.claos i sqe p) s fun t =>
    (∃ c : AdminCmd, t.adminQ = s.adminQ ++ [c] ∧ c.via = .carrier i ∧ c.opcode = (byteAt sqe 0).toNat ∧ c.flags = (byteAt sqe 1).toNat ∧
      c.tag = beAt sqe 2 2 % 2048 ∧ c.len = beAt sqe 4 4 ∧ c.rlen = beAt sqe 8 4 ∧ c.payload = p.take c.len ∧ c.at_ = s.now) ∧
    s.changesOnly [.adminQ] t) ∧
  (∀ (i : Byte) (sqe p : List Byte) (s : State), s.aon.supply = true → s.mode.firmware = true → sqe.length = 64 →
    onCarrier (byteAt sqe 0).toNat = false → completes (.claos i sqe p) s fun t =>
    t.sent = s.sent ++ [.mctp ([0x7F] ++ beBytes 4 Config.iana.toNat ++ [0x96, i, 0x00]
      ++ cqeBytes (beAt sqe 2 2 % 2048) 0 0x11 0 0 0)] ∧ s.changesOnly [.sent] t)

/-- The control commands that R420 lists are answered with their values, and Set Endpoint ID takes a valid ID. The layout of
a control answer is DSP0236's, which the model PRESUMES (log 31); version codes that the manual does not state are free
values. -/
def Obligations.ControlCommandsAnswerAndSetTheEndpoint : Prop :=
  (∀ (e : Byte) (s : State), s.aon.supply = true → e ≠ 0 → e ≠ 0xFF → completes (.setEndpointId e) s fun t =>
    t.aon = { s.aon with eid := e } ∧ t.sent = s.sent ++ [.mctpControl 1 [0, 0, e, 0]] ∧ s.changesOnly [.aon, .sent] t) ∧
  (∀ s : State, s.aon.supply = true → completes (.setEndpointId 0) s fun t =>
    t.sent = s.sent ++ [.mctpControl 1 [2]] ∧ s.changesOnly [.sent] t) ∧
  (∀ s : State, s.aon.supply = true → completes .getEndpointId s fun t =>
    t.sent = s.sent ++ [.mctpControl 2 [0, s.aon.eid, 0, 0]] ∧ s.changesOnly [.sent] t) ∧
  (∀ s : State, s.aon.supply = true → completes .getEndpointUuid s fun t =>
    t.sent = s.sent ++ [.mctpControl 3 ([0] ++ Config.uuid)] ∧ s.changesOnly [.sent] t) ∧
  (∀ s : State, s.aon.supply = true → completes .getMctpVersionSupport s fun t =>
    (∃ v : List Byte, v.length = 4 ∧ t.sent = s.sent ++ [.mctpControl 4 ([0, 1] ++ v)]) ∧ s.changesOnly [.sent, .freeCtr] t) ∧
  (∀ s : State, s.aon.supply = true → completes .getMessageTypeSupport s fun t =>
    t.sent = s.sent ++ [.mctpControl 5 [0, 4, 0x00, 0x05, 0x06, 0x7F]] ∧ s.changesOnly [.sent] t) ∧
  (∀ s : State, s.aon.supply = true → completes .getVendorDefinedMessageSupport s fun t =>
    (∃ v : List Byte, v.length = 2 ∧ t.sent = s.sent ++ [.mctpControl 6 ([0, 0xFF, 1] ++ beBytes 4 Config.iana.toNat ++ v)]) ∧
    s.changesOnly [.sent, .freeCtr] t) ∧
  (∀ (c : Byte) (s : State), s.aon.supply = true → c.toNat = 0 ∨ 6 < c.toNat → completes (.mctpControlUnsupported c) s fun t =>
    t.sent = s.sent ++ [.mctpControl c [5]] ∧ s.changesOnly [.sent] t)

/-! ## SPDM -/

/-- The queries of SPDM over MCTP: negotiation in its order, then digests, certificate portions, the signed challenge and the
measurement blocks of R414, with nothing else of the engine changed (R413, R414). Codes and layouts are DSP0274's, which the
model PRESUMES (log 33). -/
def Obligations.SpdmQueriesAnswerOverMctp : Prop :=
  (∀ (v : SpdmVia) (s : State), s.fwRuns = true → s.overMctp v → completes (.getVersion v) s fun t =>
    t.sent = s.sent ++ [.spdm v 0x04 [0, 0, 0, 1, 0x00, 0x12]] ∧ t.sec = { s.sec with versionSet := true, algorithmsSet := false } ∧
    s.changesOnly [.sec, .sent] t) ∧
  (∀ (v : SpdmVia) (s : State), s.fwRuns = true → s.overMctp v → s.sec.versionSet = true → completes (.getCapabilities v) s fun t =>
    (∃ b, t.sent = s.sent ++ [.spdm v 0x61 b] ∧ leAt b 6 4 = 0x62D6) ∧ s.changesOnly [.sent, .freeCtr] t) ∧
  (∀ (v : SpdmVia) (s : State), s.fwRuns = true → s.overMctp v → s.sec.versionSet = true → completes (.negotiateAlgorithms v) s fun t =>
    (∃ b, t.sent = s.sent ++ [.spdm v 0x63 b]) ∧ t.sec = { s.sec with algorithmsSet := true } ∧ s.changesOnly [.sec, .sent] t) ∧
  (∀ (v : SpdmVia) (s : State), s.fwRuns = true → s.overMctp v → s.sec.algorithmsSet = true → completes (.getDigests v) s fun t =>
    t.sent = s.sent ++ [.spdm v 0x01 ([0, 1] ++ sha384 Config.certChain)] ∧ s.changesOnly [.sent] t) ∧
  (∀ (v : SpdmVia) (off len : Nat) (s : State), s.fwRuns = true → s.overMctp v → s.sec.algorithmsSet = true →
    completes (.getCertificate v 0 off len) s fun t =>
    (if Config.certChain.length ≤ off then t.sent = s.sent ++ [.spdm v 0x7F [1, 0]]
     else ∃ b, t.sent = s.sent ++ [.spdm v 0x02 (b ++ (Config.certChain.drop off).take len)] ∧ b.length = 6) ∧
    s.changesOnly [.sent] t) ∧
  (∀ (v : SpdmVia) (k : Nat) (n : List Byte) (s : State), s.fwRuns = true → s.overMctp v → s.sec.algorithmsSet = true →
    completes (.challenge v k n) s fun t =>
    (if k = 0 then ∃ b, t.sent = s.sent ++ [.spdm v 0x03 ([0, 1] ++ sha384 Config.certChain ++ b)]
     else t.sent = s.sent ++ [.spdm v 0x7F [1, 0]]) ∧ s.changesOnly [.sent, .freeCtr] t) ∧
  (∀ (v : SpdmVia) (sg : Bool) (n : List Byte) (s : State), s.fwRuns = true → s.overMctp v → s.sec.algorithmsSet = true →
    completes (.getMeasurements v 3 sg n) s fun t =>
    (∃ h b, t.sent = s.sent ++ [.spdm v 0x60 (h ++ [3, 1, 5, 0, 0x87, 2, 0, BitVec.ofNat 8 s.mgmt.svn,
      BitVec.ofNat 8 s.aon.fuseSvn] ++ b)] ∧ h.length = 6) ∧ s.changesOnly [.sent, .freeCtr] t)

/-- At most four sessions are held: a fifth KEY_EXCHANGE is answered Busy, and a session opens, is established, is kept and
ends without touching the key slots. A request that the engine does not support is answered UnsupportedRequest (R413, R415).
Codes are DSP0274's, which the model PRESUMES. Where the manual leaves a point open, it follows the model's choice of log 33,
34 and 35. -/
def Obligations.SpdmSessionsOpenAndEndWithTheKeysKept : Prop :=
  (∀ (v : SpdmVia) (r : Half) (x : List Byte) (s : State), s.fwRuns = true → s.overMctp v → s.sec.algorithmsSet = true →
    s.sec.sessions.length < 4 → completes (.keyExchange v r x) s fun t =>
    (∃ e : Session, t.sec.sessions = s.sec.sessions ++ [e] ∧ e.sid.toNat / 65536 = r.toNat ∧ e.established = false ∧
      e.viaTunnel = false) ∧ t.sec.keys = s.sec.keys ∧ s.changesOnly [.sec, .sent] t) ∧
  (∀ (v : SpdmVia) (r : Half) (x : List Byte) (s : State), s.fwRuns = true → s.overMctp v → s.sec.algorithmsSet = true →
    4 ≤ s.sec.sessions.length → completes (.keyExchange v r x) s fun t =>
    t.sent = s.sent ++ [.spdm v 0x7F [3, 0]] ∧ s.changesOnly [.sent] t) ∧
  (∀ (v : SpdmVia) (sid : Word) (m : List Byte) (s : State), s.fwRuns = true → s.overMctp v →
    (s.spdmSession sid).isSome = true → completes (.finish v sid m) s fun t =>
    (if Config.finishVerifies sid m then
      t.sec.sessions = s.sec.sessions.map (fun e => if e.sid = sid then { e with established := true } else e) ∧
      t.sent = s.sent ++ [.spdm v 0x65 [0, 0]]
     else t.sec.sessions = s.sec.sessions.filter (fun e => e.sid ≠ sid)) ∧
    t.sec.keys = s.sec.keys ∧ s.changesOnly [.sec, .sent] t) ∧
  (∀ (v : SpdmVia) (sid : Word) (e : Session) (s : State), s.fwRuns = true → s.overMctp v → s.spdmSession sid = some e →
    e.established = true → completes (.spdmHeartbeat v sid) s fun t =>
    t.sent = s.sent ++ [.spdm v 0x68 [0, 0]] ∧ s.changesOnly [.sent] t) ∧
  (∀ (v : SpdmVia) (sid : Word) (e : Session) (n : Nat) (s : State), s.fwRuns = true → s.overMctp v →
    s.spdmSession sid = some e → e.established = true → 1 ≤ n → n ≤ 3 → completes (.keyUpdate v sid n) s fun t =>
    t.sent = s.sent ++ [.spdm v 0x69 [BitVec.ofNat 8 n, 0]] ∧ s.changesOnly [.sent] t) ∧
  (∀ (v : SpdmVia) (sid : Word) (e : Session) (s : State), s.fwRuns = true → s.overMctp v → s.spdmSession sid = some e →
    e.established = true → completes (.endSession v sid) s fun t =>
    t.spdmSession sid = none ∧ t.sec.keys = s.sec.keys ∧ t.sent = s.sent ++ [.spdm v 0x6C [0, 0]] ∧
    s.changesOnly [.sec, .sent] t) ∧
  (∀ (v : SpdmVia) (c : Byte) (s : State), s.fwRuns = true → s.overMctp v → spdmKnown c.toNat = false →
    completes (.spdmUnsupportedRequest v c) s fun t =>
    t.sent = s.sent ++ [.spdm v 0x7F [7, c]] ∧ s.changesOnly [.sent] t)

/-! ## Claos admin commands -/

/-- IDENTIFY answers the 128-byte record of R388, with the firmware release and the Claos interface revision of the running
image, which are CL-3.2 and 0x0302 for the image of this release (R2, R388, R404). -/
def Obligations.IdentifyAnswersTheRecord : Prop :=
  ∀ (c : AdminCmd) (rest : List AdminCmd) (s : State), s.atHead c rest → c.opcode = 0x40 → completes .identify s fun t =>
    ∃ r : List Byte, t = adminFinish (s.taken rest) c 0x00 0 0 0 r ∧ r.length = 128 ∧ beAt r 0 4 = 0x434C4944 ∧
      (r.drop 4).take 16 = asciiPad 16 "HX-1608-A0" ∧ (r.drop 20).take 16 = (s.mgmt.release ++ zeros 16).take 16 ∧ beAt r 36 2 = s.mgmt.revision.toNat ∧
      (s.mgmt.release = asciiPad 16 "CL-3.2" → (r.drop 20).take 16 = asciiPad 16 "CL-3.2") ∧
      beAt r 38 1 = s.mode.code ∧
      beAt r 39 1 = bitNat (untrimmed s) + 2 * bitNat s.ring.tapped + 4 * bitNat (decide (64 ≤ s.aon.fuseSvn))
        + 8 * bitNat (decide (s.mgmt.slot = 2)) + 16 * bitNat s.mgmt.staged.isSome ∧
      beAt r 40 8 = Config.serial.toNat ∧ beAt r 48 1 = (if s.ring.tapped then s.ring.node % 256 else 0) ∧
      beAt r 49 1 = Config.siliconRev.toNat ∧ beAt r 50 1 = s.aon.fuseSvn % 256 ∧ beAt r 51 1 = s.mgmt.svn % 256 ∧
      beAt r 52 1 = s.mgmt.slot % 256 ∧ beAt r 53 1 = keysLoaded s % 256 ∧
      (∀ n, n < 16 → (beAt r 54 2).testBit n = (List.range 8).any (fun k => !(s.beam (8 * n + k)).loaded)) ∧
      beAt r 56 4 = dramMiB s ∧ (∀ n, n < 16 → (beAt r 60 2).testBit n = (s.bay n).present) ∧
      beAt r 62 2 = (s.aon.recentResets s.now).length % 65536 ∧ r.drop 64 = zeros 64

/-- GET_LOG returns the page header and the entries from the first asked for, oldest first, as many as the response holds;
with CLEAR exactly those returned are freed and the overflow count returned is subtracted. EVENT_ARM writes ENABLE, in which
the bits of DISC_NEEDED, DISC_DONE and EVENTS_LOST stay set, and waits behind the other arms, of which at most 16 are
outstanding; with MASK_ONLY it completes at once. The oldest event answers the oldest arm (R389 to R391, R393). Where the
manual leaves a point open, it follows the model's choice of log 133 and 171. -/
def Obligations.LogsAndEventsAreReturned : Prop :=
  (∀ (c : AdminCmd) (rest : List AdminCmd) (s : State), s.atHead c rest → c.opcode = 0x41 → c.flag0 = false → c.arg 0 1 = 1 →
    c.arg 8 2 = 0 → completes .getLog s fun t =>
    t = adminFinish (s.taken rest) c 0x00 0 0 0 (leBytes 4 s.logs.device.entries.length ++ leBytes 4 s.logs.device.overflow
      ++ leBytes 2 16 ++ leBytes 4 1024 ++ zeros 2
      ++ (((s.logs.device.entries.map LogEntry.bytes).drop (c.arg 4 4)).take ((c.room - 16) / 16)).flatten)) ∧
  (∀ (c : AdminCmd) (rest : List AdminCmd) (s : State), s.atHead c rest → c.opcode = 0x41 → c.flag0 = false →
    (c.arg 0 1 = 0 ∨ 9 < c.arg 0 1) → completes .getLog s fun t => t = adminFinish (s.taken rest) c 0x11 0 0 0 []) ∧
  (∀ (c : AdminCmd) (rest : List AdminCmd) (s : State), s.atHead c rest → c.opcode = 0x41 → c.flag0 = true → c.arg 0 1 = 1 →
    c.arg 4 4 = 0 → c.arg 8 2 = 0 → completes .getLogClear s fun t =>
    t.logs.device.entries = s.logs.device.entries.drop ((c.room - 16) / 16) ∧ t.logs.device.overflow = 0 ∧
    t.logs.bay = s.logs.bay ∧ t.logs.recovery = s.logs.recovery ∧ t.logs.thermal = s.logs.thermal ∧ t.adminQ = rest) ∧
  (∀ (c : AdminCmd) (rest : List AdminCmd) (g : Gateway) (s : State), s.atHead c rest → c.opcode = 0x4B → c.flag0 = false →
    inT s = true → c.via = .ring g → s.events.arms.length < 16 → completes .eventArm s fun t =>
    t.events.arms = s.events.arms ++ [⟨g, c.tag, c.rlen⟩] ∧ t.events.queue = s.events.queue ∧
    (∀ n, 1 ≤ n → n < 32 → t.events.enable.getLsbD n = ((c.arg 0 4).testBit n || n == 1 || n == 2 || n == 7)) ∧
    s.changesOnly [.events, .adminQ, .aon] t) ∧
  (∀ (c : AdminCmd) (rest : List AdminCmd) (g : Gateway) (s : State), s.atHead c rest → c.opcode = 0x4B → c.flag0 = false →
    inT s = true → c.via = .ring g → 16 ≤ s.events.arms.length → completes .eventArm s fun t =>
    t = adminFinish (s.taken rest) c 0x16 0 0 0 []) ∧
  (∀ (c : AdminCmd) (rest : List AdminCmd) (s : State), s.atHead c rest → c.opcode = 0x4B → c.flag0 = true → inT s = true →
    completes .eventArmMaskOnly s fun t =>
    (∀ n, 1 ≤ n → n < 32 → t.events.enable.getLsbD n = ((c.arg 0 4).testBit n || n == 1 || n == 2 || n == 7)) ∧
    t.events.arms = s.events.arms ∧ t.events.queue = s.events.queue) ∧
  (∀ (e : Event) (es : List Event) (a : Arm) (as : List Arm) (s : State), s.fwRuns = true → s.events.queue = e :: es →
    s.events.arms = a :: as → s.events.lost = 0 → completes .eventDelivery s fun t =>
    t.events = { s.events with queue := es, arms := as } ∧
    (∃ fs, (t.qp (.admin a.gw)).txWait = (s.qp (.admin a.gw)).txWait ++ fs ++ [⟨3, 6, gwNode a.gw, 0, 0, a.tag, false,
      beBytes 2 1 ++ zeros 6 ++ cqeBytes a.tag 0 0x00 (if es = [] then 0 else 1) e.code
        (e.at_ % 2 ^ 32 * 2 ^ 32 + min (8 + e.payload.length) a.rlen), false⟩]) ∧ s.changesOnly [.events, .qps] t)

/-- SET_PATTERN processes its triples in payload order, keeps the clamp report as page 0x07 and ends SUCCESS, CLAMPED or
TRUNCATED; GET_PATTERN returns value in force and value pending, and refuses what is not defined. CAL_LOAD applies nothing of
a record that fails its checks or is another unit's; one that holds writes every trim as pattern values, sets LOADED in every
trim word and is measured. CAL_READ returns a record of 1,200 bytes with the values in force and a CRC that holds (R394 to
R398, R408, R409, R414). Where the manual leaves a point open, it follows the model's choice of log 5, 66 and 139. -/
def Obligations.PatternAndCalibrationAreSetAndReadBack : Prop :=
  (∀ (c : AdminCmd) (rest : List AdminCmd) (s : State), s.atHead c rest → c.opcode = 0x42 → c.len = 8 → c.units = [0] →
    c.payload.length = 8 → completes .setPattern s fun t =>
    let id := beAt c.payload 0 2
    let idx := beAt c.payload 2 2
    let v := signedOf 32 (beAt c.payload 4 4)
    let r := applyTriple (patAllow s) s.pat 0 id idx v
    t.pat = r.1 ∧ t.logs.clamp = r.2 ∧ t.adminQ = rest ∧
    (patDefined id idx = false → t.pat = s.pat ∧ r.2.length = 1) ∧
    ∃ b : List Byte, t = adminFinish { s.taken rest with pat := r.1, logs := { s.logs with clamp := r.2 } } c
      (if r.2 = [] then 0x00 else 0x17) (if r.2 = [] then 0 else 1) 1 r.2.length b) ∧
  (∀ (c : AdminCmd) (rest : List AdminCmd) (s : State), s.atHead c rest → c.opcode = 0x43 → c.arg 4 2 = 1 →
    completes .getPattern s fun t =>
    let id := c.arg 0 2
    let idx := c.arg 2 2
    t = if patDefined id idx then
        adminFinish (s.taken rest) c 0x00 0 0 0 (beBytes 2 id ++ beBytes 2 idx ++ beBytes 4 (unsignedOf 32 (s.pval id idx))
          ++ beBytes 4 (unsignedOf 32 (s.pat.latest id idx)))
      else adminFinish (s.taken rest) c 0x11 0 0 0 []) ∧
  (∀ (c : AdminCmd) (rest : List AdminCmd) (s : State), s.atHead c rest → c.opcode = 0x44 → (s.mode = .enrol ∨ s.mode = .service) →
    completes .calLoad s fun t =>
    if calValid c.payload = false then t = adminFinish (s.taken rest) c 0x11 0 0 0 []
    else if beAt c.payload 8 8 ≠ Config.serial.toNat then t = adminFinish (s.taken rest) c 0x24 0 0 0 []
    else (∀ g, g < 128 → (t.beam g).loaded = true) ∧ t.mgmt.calDigest = sha384 c.payload ∧ t.adminQ = rest) ∧
  (∀ (c : AdminCmd) (rest : List AdminCmd) (s : State), s.atHead c rest → c.opcode = 0x44 → s.mode ≠ .enrol → s.mode ≠ .service →
    completes .calLoad s fun t => t = adminFinish (s.taken rest) c 0x1E 0 0 0 []) ∧
  (∀ (c : AdminCmd) (rest : List AdminCmd) (s : State), s.atHead c rest → c.opcode = 0x45 → completes .calRead s fun t =>
    ∃ r : List Byte, t = adminFinish { s.taken rest with freeCtr := s.freeCtr + 1 } c 0x00 0 0 0 r ∧ r.length = 1200 ∧
      beAt r 0 4 = 0x5443414C ∧ beAt r 4 2 = 1 ∧ beAt r 6 2 = 1200 ∧ beAt r 8 8 = Config.serial.toNat ∧
      beAt r 1196 4 = crc32c (r.take 1196) ∧
      (∀ g, g < 128 → beAt r (32 + 4 * g) 1 = s.pnat 0x0B00 g % 256 ∧ beAt r (33 + 4 * g) 1 = s.pnat 0x0B01 g % 256 ∧
        beAt r (34 + 4 * g) 1 = s.pnat 0x0B02 g % 256))

/-- KEY_LOAD opens the wrapped key under the session's key-wrapping key and stores it; KEY_ERASE empties one slot or all; an
erase of an empty slot succeeds and no other slot changes (R416, R417). Where the manual leaves a point open, it follows the
model's choice of log 65 and 67. -/
def Obligations.KeySlotsAreLoadedAndErased : Prop :=
  (∀ (c : AdminCmd) (rest : List AdminCmd) (x : Session) (s : State), s.atHead c rest → c.opcode = 0x46 → inService s = true →
    c.len = 68 → s.sec.sessions.find? (fun e => e.established && e.sid.toNat == beAt c.payload 0 4) = some x →
    completes .keyLoad s fun t =>
    let slot := (byteAt c.payload 4).toNat
    let u := s.taken rest
    t = match gcmOpen (hkdfExpand x.secret (asciiPad 13 "claos keywrap") 32) ((c.payload.drop 8).take 12) (c.payload.take 8)
        ((c.payload.drop 20).take 32) ((c.payload.drop 52).take 16) with
      | none => adminFinish u c 0x22 0 0 0 []
      | some k =>
        if slot = 0 then adminFinish u c 0x11 0 0 0 []
        else if Tbl.get [] s.sec.keys slot ≠ [] ∧ (byteAt c.payload 5).getLsbD 0 = false then adminFinish u c 0x21 0 0 0 []
        else adminFinish { u with sec := { s.sec with keys := Tbl.set [] s.sec.keys slot k } } c 0x00 0 slot 0 []) ∧
  (∀ (c : AdminCmd) (rest : List AdminCmd) (s : State), s.atHead c rest → c.opcode = 0x46 → inService s = true → c.len = 68 →
    s.sec.sessions.find? (fun e => e.established && e.sid.toNat == beAt c.payload 0 4) = none → completes .keyLoad s fun t =>
    t = adminFinish (s.taken rest) c 0x22 0 0 0 []) ∧
  (∀ (c : AdminCmd) (rest : List AdminCmd) (s : State), s.atHead c rest → c.opcode = 0x47 → c.flag0 = false → c.arg 0 1 ≠ 0 →
    completes .keyErase s fun t =>
    Tbl.get [] t.sec.keys (c.arg 0 1) = [] ∧ (∀ n, n ≠ c.arg 0 1 → Tbl.get [] t.sec.keys n = Tbl.get [] s.sec.keys n) ∧
    t.sec.sessions = s.sec.sessions ∧ t.adminQ = rest) ∧
  (∀ (c : AdminCmd) (rest : List AdminCmd) (s : State), s.atHead c rest → c.opcode = 0x47 → c.flag0 = true →
    completes .keyEraseAll s fun t => t.sec.keys = [] ∧ t.sec.sessions = s.sec.sessions ∧ t.adminQ = rest)

/-- MODE_REQUEST makes exactly the transitions of R400's table: an undefined mode is OUT_OF_RANGE, one not listed
BAD_TRANSITION, RETIRE with an open course BUSY, and a transition made leaves the mode asked for, or CONSTRAINED where a
cause of it holds as ACTIVE is entered (R12, R399 to R401). Where the manual leaves a point open, it follows the model's
choice of log 38 and 39. -/
def Obligations.ModeRequestFollowsTheTransitionTable : Prop :=
  (∀ (c : AdminCmd) (rest : List AdminCmd) (s : State), s.atHead c rest → c.opcode = 0x48 → 11 < c.arg 0 1 →
    completes .modeRequest s fun t => t = adminFinish (s.taken rest) c 0x11 0 0 0 []) ∧
  (∀ (c : AdminCmd) (rest : List AdminCmd) (m : Mode) (s : State), s.atHead c rest → c.opcode = 0x48 → c.arg 0 1 = m.code →
    m ∉ requestTable s.mode → s.mgmt.selfReset = none → completes .modeRequest s fun t => t = adminFinish (s.taken rest) c 0x25 0 0 0 []) ∧
  (∀ (c : AdminCmd) (rest : List AdminCmd) (m : Mode) (s : State), s.atHead c rest → c.opcode = 0x48 → c.arg 0 1 = m.code →
    s.mgmt.selfReset.isSome = true → completes .modeRequest s fun t => t = adminFinish (s.taken rest) c 0x21 0 0 0 []) ∧
  (∀ (c : AdminCmd) (rest : List AdminCmd) (m : Mode) (s : State), s.atHead c rest → c.opcode = 0x48 → c.arg 0 1 = m.code →
    m ∈ requestTable s.mode → s.mgmt.selfReset = none → s.mode ≠ .quiesce → s.mode ≠ .safeStop → m ≠ .retire → completes .modeRequest s fun t =>
    (t.mode = m ∨ m = .active ∧ t.mode = .constrained) ∧ t.adminQ = rest) ∧
  (∀ (c : AdminCmd) (rest : List AdminCmd) (s : State), s.atHead c rest → c.opcode = 0x48 → c.arg 0 1 = 11 → s.mode = .standby →
    s.mgmt.selfReset = none → s.courses ≠ [] → completes .modeRequest s fun t => t = adminFinish (s.taken rest) c 0x21 0 0 0 []) ∧
  (∀ (c : AdminCmd) (rest : List AdminCmd) (m : Mode) (s : State), s.atHead c rest → c.opcode = 0x48 → c.arg 0 1 = m.code →
    s.mgmt.selfReset = none → s.mode = .quiesce → s.mgmt.drained = false → m ∈ [Mode.standby, .service, .retire] → completes .modeRequest s fun t =>
    t = adminFinish (s.taken rest) c 0x25 0 0 0 []) ∧
  (∀ (c : AdminCmd) (rest : List AdminCmd) (s : State), s.atHead c rest → c.opcode = 0x48 → c.arg 0 1 = 5 → s.mode = .safeStop →
    s.mgmt.selfReset = none → completes .modeRequest s fun t =>
    if safeStopHolds s then t = adminFinish (s.taken rest) c 0x25 0 0 0 [] else t.mode = .standby)

/-- QP_CREATE opens a FREE queue pair with its class, depth and the gateway as its peer, and QP_DELETE of an open one enters
DELETING with nothing left to take; both refuse what R418 says (R353, R379, R418). -/
def Obligations.QueuePairsAreCreatedAndDeleted : Prop :=
  (∀ (c : AdminCmd) (rest : List AdminCmd) (g : Gateway) (s : State), s.atHead c rest → c.opcode = 0x49 → inT s = true →
    c.via = .ring g → 1 ≤ c.arg 0 2 → c.arg 0 2 ≤ 4095 → c.arg 2 1 ≤ 3 → 4 ≤ c.arg 3 1 → c.arg 3 1 ≤ 12 →
    (s.qp (.data (c.arg 0 2))).state = .free → entriesUsed s + 2 ^ c.arg 3 1 ≤ 1048576 → completes .qpCreate s fun t =>
    (t.qp (.data (c.arg 0 2))).state = .opened ∧ (t.qp (.data (c.arg 0 2))).cls = c.arg 2 1 ∧
    (t.qp (.data (c.arg 0 2))).depth = 2 ^ c.arg 3 1 ∧ (t.qp (.data (c.arg 0 2))).sq = [] ∧
    (t.qp (.data (c.arg 0 2))).peer = (match g with | .a => 253 | .b => 254) ∧
    (∀ n, n ≠ c.arg 0 2 → 1 ≤ n → n ≤ 4095 → t.qp (.data n) = s.qp (.data n)) ∧ t.tags = s.tags) ∧
  (∀ (c : AdminCmd) (rest : List AdminCmd) (g : Gateway) (s : State), s.atHead c rest → c.opcode = 0x49 → inT s = true →
    c.via = .ring g → 1 ≤ c.arg 0 2 → c.arg 0 2 ≤ 4095 → c.arg 2 1 ≤ 3 → 4 ≤ c.arg 3 1 → c.arg 3 1 ≤ 12 →
    (s.qp (.data (c.arg 0 2))).state ≠ .free → completes .qpCreate s fun t =>
    t = adminFinish (s.taken rest) c 0x21 0 0 0 []) ∧
  (∀ (c : AdminCmd) (rest : List AdminCmd) (s : State), s.atHead c rest → c.opcode = 0x4A → inT s = true → 1 ≤ c.arg 0 2 →
    c.arg 0 2 ≤ 4095 → ((s.qp (.data (c.arg 0 2))).state = .opened ∨ (s.qp (.data (c.arg 0 2))).state = .unreachable) →
    completes .qpDelete s fun t =>
    (t.qp (.data (c.arg 0 2))).state = .deleting ∧ (t.qp (.data (c.arg 0 2))).sq = [] ∧
    (∀ x ∈ t.tags, x.q ≠ .data (c.arg 0 2)) ∧ (∀ n, n ≠ c.arg 0 2 → 1 ≤ n → n ≤ 4095 → t.qp (.data n) = s.qp (.data n))) ∧
  (∀ (c : AdminCmd) (rest : List AdminCmd) (s : State), s.atHead c rest → c.opcode = 0x4A → inT s = true → 1 ≤ c.arg 0 2 →
    c.arg 0 2 ≤ 4095 → ((s.qp (.data (c.arg 0 2))).state = .free ∨ (s.qp (.data (c.arg 0 2))).state = .deleting) →
    completes .qpDelete s fun t => t = adminFinish (s.taken rest) c 0x11 0 0 0 [])

/-- FW_STAGE judges an image in the order of R410 and holds one that passes; FW_ACTIVATE LIVE restarts into it without
counting the restart; COMMIT_SVN raises the fuse SVN to the running one and never lowers it (R410 to R412, R482). Where the
manual leaves a point open, it follows the model's choice of log 69 and 70. -/
def Obligations.FirmwareIsStagedActivatedAndCommitted : Prop :=
  (∀ (c : AdminCmd) (rest : List AdminCmd) (s : State), s.atHead c rest → c.opcode = 0x4C → inT s = true →
    completes .fwStage s fun t =>
    let i : ImageFile := { header := c.payload.take 512, body := c.payload.drop 512 }
    let u := s.taken rest
    if imageVerifies i = false then t = adminFinish u c 0x22 0 0 0 []
    else if beAt i.header 6 2 < s.aon.fuseSvn ∨ 64 < beAt i.header 6 2 then t = adminFinish u c 0x23 0 0 0 []
    else if beAt i.header 176 2 / 256 ≠ 3 then t = adminFinish u c 0x11 0 0 0 []
    else ∃ g : Staged, g.svn = beAt i.header 6 2 ∧
      t = adminFinish { u with mgmt := { s.mgmt with staged := some g } } c 0x00 0 (beAt i.header 6 2) 0 []) ∧
  (∀ (c : AdminCmd) (rest : List AdminCmd) (s : State), s.atHead c rest → c.opcode = 0x4D → c.arg 0 1 = 0 → inLive s = true →
    s.mgmt.staged = none → completes .fwActivateLive s fun t => t = adminFinish (s.taken rest) c 0x11 0 0 0 []) ∧
  (∀ (c : AdminCmd) (rest : List AdminCmd) (g : Staged) (s : State), s.atHead c rest → c.opcode = 0x4D → c.arg 0 1 = 0 →
    inLive s = true → s.mgmt.staged = some g → completes .fwActivateLive s fun t =>
    t.mgmt.restarting = true ∧ t.mgmt.live = some c ∧ t.mgmt.staged = some g ∧ t.mode = s.mode ∧ t.sec.sessions = [] ∧
    t.aon.restarts = s.aon.restarts.filter (fun n => s.now < n + 120000000)) ∧
  (∀ (c : AdminCmd) (rest : List AdminCmd) (s : State), s.atHead c rest → c.opcode = 0x4D → c.arg 0 1 = 1 → s.mgmt.slot = 2 →
    completes .commitSvn s fun t => t = adminFinish (s.taken rest) c 0x23 0 0 0 []) ∧
  (∀ (c : AdminCmd) (rest : List AdminCmd) (s : State), s.atHead c rest → c.opcode = 0x4D → c.arg 0 1 = 1 → s.mgmt.slot ≠ 2 →
    completes .commitSvn s fun t => t.aon.fuseSvn = max s.aon.fuseSvn s.mgmt.svn ∧ t.mode = s.mode ∧ t.adminQ = rest)

/-- BAY_CONTROL acts on the bay or group it names: training restarts, the restart count is cleared, a chopper fault is
cleared below 13.8 V, a bay without a disc goes out of service in SAFE and comes back, and a sled is homed in SERVICE (R213,
R271, R291, R309, R419). Where the manual leaves a point open, it follows the model's choice of log 71 and 116. -/
def Obligations.BayControlActsOnItsTarget : Prop :=
  (∀ (c : AdminCmd) (rest : List AdminCmd) (b : BayId) (s : State), s.atHead c rest → c.opcode = 0x4F → c.arg 0 1 = 0 →
    c.arg 1 1 = b.val → inBays s = true → (s.bay b).welt.enabled = true → completes .weltRetrain s fun t =>
    (t.bay b).welt.phase = .idle ∧ (t.bay b).welt.startedAt = s.now ∧ (t.bay b).welt.attempts = 0 ∧
    (t.bay b).welt.laserEn = false ∧ s.onlyBay b t) ∧
  (∀ (c : AdminCmd) (rest : List AdminCmd) (b : BayId) (s : State), s.atHead c rest → c.opcode = 0x4F → c.arg 0 1 = 1 →
    c.arg 1 1 = b.val → inBays s = true → (s.bay b).state ≠ .safe → completes .safeRestart s fun t =>
    (t.bay b).safeStarts = [] ∧ (t.bay b).state = (s.bay b).state ∧ t.adminQ = rest ∧ s.onlyBay b t) ∧
  (∀ (c : AdminCmd) (rest : List AdminCmd) (b : BayId) (s : State), s.atHead c rest → c.opcode = 0x4F → c.arg 0 1 = 1 →
    c.arg 1 1 = b.val → inBays s = true → mayRestart s b = true → completes .safeRestart s fun t =>
    (t.bay b).state = .spinUp ∧ (t.bay b).safeStarts = [s.now] ∧ (t.bay b).dibCheck = true ∧ s.onlyBay b t) ∧
  (∀ (c : AdminCmd) (rest : List AdminCmd) (g : GroupId) (s : State), s.atHead c rest → c.opcode = 0x4F → c.arg 0 1 = 2 →
    c.arg 1 1 = g.val → inBays s = true → completes .chopperClear s fun t =>
    if 13800 ≤ (s.bus g).mv then t = adminFinish (s.taken rest) c 0x21 0 0 0 []
    else (t.bus g).chopFault = false ∧ t.adminQ = rest) ∧
  (∀ (c : AdminCmd) (rest : List AdminCmd) (b : BayId) (s : State), s.atHead c rest → c.opcode = 0x4F → c.arg 0 1 = 3 →
    c.arg 1 1 = b.val → inBays s = true → completes .bayOut s fun t =>
    if (s.bay b).disc.isSome ∨ (s.bay b).mount.isSome then t = adminFinish (s.taken rest) c 0x1D 0 0 0 []
    else (t.bay b).outOfService = true ∧ (t.bay b).state = .safe) ∧
  (∀ (c : AdminCmd) (rest : List AdminCmd) (b : BayId) (s : State), s.atHead c rest → c.opcode = 0x4F → c.arg 0 1 = 4 →
    c.arg 1 1 = b.val → inBays s = true → completes .bayIn s fun t => (t.bay b).outOfService = false ∧ t.adminQ = rest) ∧
  (∀ (c : AdminCmd) (rest : List AdminCmd) (b : BayId) (s : State), s.atHead c rest → c.opcode = 0x4F → c.arg 0 1 = 5 →
    c.arg 1 1 = b.val → inBays s = true → completes .rehome s fun t =>
    if s.mode ≠ .service then t = adminFinish (s.taken rest) c 0x1E 0 0 0 []
    else if (s.bay b).state ≠ .empty ∧ (s.bay b).state ≠ .loaded then t = adminFinish (s.taken rest) c 0x1D 0 0 0 []
    else (t.bay b).sled.state = .homing ∧ s.onlyBay b t)

/-- An undefined admin opcode executes nothing and completes with OUT_OF_RANGE, an SPDM_TUNNEL carries one message each way,
and a payload that has not come after 1 s ends its command with TRUNCATED and applies nothing (R12, R384 to R386, R415). The
completion on QP 0 is one CPL frame with one CQE. Where the manual leaves a point open, it follows the model's choice of log
34 and 65. -/
def Obligations.AdminEndsCarryOneCqe : Prop :=
  (∀ (c : AdminCmd) (rest : List AdminCmd) (g : Gateway) (s : State), s.atHead c rest → c.via = .ring g →
    (c.opcode < 0x40 ∨ 0x4F < c.opcode) → completes .adminUndefinedOpcode s fun t =>
    t.adminQ = rest ∧ (t.qp (.admin g)).txWait = (s.qp (.admin g)).txWait ++ [⟨3, 6, gwNode g, 0, 0, c.tag, false,
      beBytes 2 1 ++ zeros 6 ++ cqeBytes c.tag 0 0x11 0 0 0, false⟩] ∧ s.changesOnly [.adminQ, .aon, .qps] t) ∧
  (∀ (c : AdminCmd) (rest : List AdminCmd) (g : Gateway) (s : State), s.atHead c rest → c.via = .ring g → c.opcode = 0x4E →
    byteAt c.payload 0 = 0x12 → byteAt c.payload 1 = 0x84 → 8 ≤ c.rlen → completes .spdmTunnel s fun t =>
    t.adminQ = rest ∧ t.sec = { s.sec with versionSet := true, algorithmsSet := false } ∧
    (∃ d, (t.qp (.admin g)).txWait = (s.qp (.admin g)).txWait ++ [d, ⟨3, 6, gwNode g, 0, 0, c.tag, false,
      beBytes 2 1 ++ zeros 6 ++ cqeBytes c.tag 0 0x00 0 0 8, false⟩] ∧ d.ftype = 2 ∧
      (d.body.drop 8).take 8 = [0x12, 0x04, 0, 0, 0, 1, 0x00, 0x12])) ∧
  (∀ (c : AdminCmd) (rest : List AdminCmd) (g : Gateway) (s : State), s.fwRuns = true → s.adminQ = c :: rest → c.via = .ring g →
    c.complete = false → c.opcode ≠ 0x42 → c.at_ + 200000 ≤ s.now →
    (match s.ring.splice with | .waitingCal _ _ _ _ => False | _ => True) → completes (.adminPayloadTimeout g c.tag) s fun t =>
    t = adminFinish (s.taken rest) c 0x20 0 0 0 [])

/-! ## Submission, deadlines and the data commands -/

/-- SQE_TAKE removes the oldest entry of the queue pair whose turn it is: a data SQE with a tag in use, a mode that takes no
data or a deadline passed takes no slot, every other enters the tag store with the next order; an admin SQE joins core 0's
queue, and QP 0 is served before every class. A deadline that passes ends its command and frees the slot, one whose limit is
not reached leaves everything as it is, and an undefined opcode ends with 0x11 (R12, R353, R354, R360, R365, R367, R384).
Where the manual leaves a point open, it follows the model's choice of log 58 and 60. -/
def Obligations.SubmissionEntriesAreTakenAndExpire : Prop :=
  (∀ (n : Nat) (u : State) (e : RingEntry) (rest : List RingEntry) (s : State), pickQp s = some (.data n, u) →
    (s.qp (.data n)).sq = e :: rest → completes .sqeTake s fun t =>
    let x := parseSqe e.received
    (t.qp (.data n)).sq = rest ∧ (t.qp (.data n)).occupied = (s.qp (.data n)).occupied ∧
    (if (s.cmd? (.data n) x.tag).isSome ∨ s.mode.data = false ∨ deadlineOf e x ≤ s.now then t.tags = s.tags ∧ t.orders = s.orders
     else t.orders = s.orders + 1 ∧ ∃ c : Cmd, t.tags = s.tags ++ [c] ∧ c.q = .data n ∧ c.sqe = x ∧ c.started = false ∧
       c.order = s.orders ∧ c.at_ = e.at_ ∧ c.deadline = e.at_ + 200 * (if x.deadline = 0 then e.limit else x.deadline)) ∧
    s.changesOnly [.qps, .tags, .orders, .lastQp, .turns, .freeCtr] t) ∧
  (∀ (g : Gateway) (e : RingEntry) (rest : List RingEntry) (s : State), adminNext s = some (.admin g) →
    (s.qp (.admin g)).sq = e :: rest → completes .sqeTake s fun t =>
    let c := parseAdmin (.ring g) e.received e.at_
    (t.qp (.admin g)).sq = rest ∧
    (if adminTagUsed s g c.tag = true then t.adminQ = s.adminQ ∧ (t.qp (.admin g)).txWait = (s.qp (.admin g)).txWait ++
       [⟨3, 6, gwNode g, 0, 0, c.tag, false, beBytes 2 1 ++ zeros 6 ++ cqeBytes c.tag 0 0x1C 0 0 0, false⟩]
     else if c.tooLong then t.adminQ = s.adminQ ∧ (t.qp (.admin g)).txWait = (s.qp (.admin g)).txWait ++
       [⟨3, 6, gwNode g, 0, 0, c.tag, false, beBytes 2 1 ++ zeros 6 ++ cqeBytes c.tag 0 0x11 0 0 0, false⟩]
     else t.adminQ = s.adminQ ++ [c]) ∧ s.changesOnly [.qps, .adminQ] t) ∧
  (∀ s : State, pickQp s = none → exec .sqeTake s = .next s) ∧
  (∀ (q : QpId) (tag : Nat) (c : Cmd) (s : State), s.cmd? q tag = some c → c.deadline ≤ s.now →
    completes (.deadlineExpiry q tag) s fun t =>
    t.cmd? q tag = none ∧ (∀ x ∈ t.tags, x ∈ s.tags) ∧ t.mode = s.mode ∧ t.sec = s.sec ∧ t.mem = s.mem ∧ t.pat = s.pat) ∧
  (∀ (q : QpId) (tag : Nat) (c : Cmd) (s : State), s.cmd? q tag = some c → s.now < c.deadline →
    exec (.deadlineExpiry q tag) s = .next s) ∧
  (∀ (n tag : Nat) (c : Cmd) (s : State), s.cmd? (.data n) tag = some c → c.sqe.kind = .none → (s.qp (.data n)).state ≠ .deleting →
    completes (.dataUndefinedOpcode (.data n) tag) s fun t =>
    t.cmd? (.data n) tag = none ∧ s.changesOnly [.qps, .tags, .freeCtr] t ∧
    ∃ v, (t.qp (.data n)).txWait = (s.qp (.data n)).txWait ++ [⟨3, 3, (s.qp (.data n)).peer, n, 0, tag, false,
      beBytes 2 1 ++ zeros 6 ++ cqeBytes tag 0 0x11 0 0 v, false⟩])

/-- READ and VERIFY name their sectors by disc or by course: a disc not mounted ends them with 0x10, an LSN range outside its
committed content with 0x11, and otherwise they run over COUNT undecided sectors of that disc. Delivery of a READ sends its
next sector where the host has credit, and ends the command once every sector is decided (R361, R364, R368 to R371). Where
the manual leaves a point open, it follows the model's choice of log 62. -/
def Obligations.ReadsNameTheirSectorsAndDeliverInOrder : Prop :=
  (∀ (vr : Bool) (q : QpId) (tag : Nat) (c : Cmd) (s : State), s.toRun q tag (if vr then .verify else .read) c →
    c.sqe.csn = false → bayOfDisc s c.sqe.name = none → completes (if vr then .verify q tag else .read q tag) s fun t =>
    t = s.finish q tag 0 0x10 0 0 0xFFFFFFFF) ∧
  (∀ (vr : Bool) (q : QpId) (tag : Nat) (c : Cmd) (b : BayId) (d : Disc) (s : State),
    s.toRun q tag (if vr then .verify else .read) c → c.sqe.csn = false → bayOfDisc s c.sqe.name = some b →
    (s.bay b.val).disc = some d → lsnData d.dtype d.layers (c.sqe.addr + c.sqe.count - 1) = none →
    completes (if vr then .verify q tag else .read q tag) s fun t => t = s.finish q tag 0 0x11 0 0 0xFFFFFFFF) ∧
  (∀ (q : QpId) (tag l n k n2 k2 : Nat) (c : Cmd) (b : BayId) (d : Disc) (s : State),
    s.toRun q tag .read c → c.sqe.csn = false → bayOfDisc s c.sqe.name = some b →
    (s.bay b.val).disc = some d → lsnData d.dtype d.layers c.sqe.addr = some (l, n, k) →
    lsnData d.dtype d.layers (c.sqe.addr + c.sqe.count - 1) = some (l, n2, k2) → n2 < d.append.getD l 0 → s.recov.blocks = [] →
    completes (.read q tag) s fun t =>
    ∃ xs : List CmdSector, xs.length = c.sqe.count ∧
      (∀ x ∈ xs, x.bay = some b ∧ x.outcome = .pending ∧
        ∃ i, i < c.sqe.count ∧ lsnData d.dtype d.layers (c.sqe.addr + i) = some (x.layer, x.block, x.k)) ∧
      t.tags = s.tags.map (fun y => if y.q == q && y.sqe.tag == tag then { y with started := true, sectors := xs } else y) ∧
      s.changesOnly [.tags, .recov, .events, .logs, .freeCtr, .bays] t) ∧
  (∀ (q : QpId) (tag l n k n2 k2 : Nat) (c : Cmd) (b : BayId) (d : Disc) (s : State),
    s.toRun q tag .verify c → c.sqe.csn = false → bayOfDisc s c.sqe.name = some b →
    (s.bay b.val).disc = some d → lsnData d.dtype d.layers c.sqe.addr = some (l, n, k) →
    lsnData d.dtype d.layers (c.sqe.addr + c.sqe.count - 1) = some (l, n2, k2) → n2 < d.append.getD l 0 → s.recov.blocks = [] →
    completes (.verify q tag) s fun t =>
    ∃ xs : List CmdSector, xs.length = c.sqe.count ∧
      (∀ x ∈ xs, x.bay = some b ∧ x.outcome = .pending ∧
        ∃ i, i < c.sqe.count ∧ lsnData d.dtype d.layers (c.sqe.addr + i) = some (x.layer, x.block, x.k)) ∧
      t.tags = s.tags.map (fun y => if y.q == q && y.sqe.tag == tag then { y with started := true, sectors := xs } else y) ∧
      s.changesOnly [.tags, .recov, .events, .logs, .freeCtr, .bays] t) ∧
  (∀ (n tag : Nat) (c : Cmd) (x : CmdSector) (s : State), s.cmd? (.data n) tag = some c → c.started = true →
    c.sqe.kind = .read → c.sectors[c.next]? = some x → x.outcome.isAccepted = true →
    (s.qp (.data n)).dataCredit = dataInFlight (s.qp (.data n)) + 1 → completes (.readSectorDelivery (.data n) tag) s fun t =>
    ∃ fs, (t.qp (.data n)).txWait = (s.qp (.data n)).txWait ++ [⟨2, 3, (s.qp (.data n)).peer, n, 0, tag, false,
      beBytes 4 c.next ++ [1, 0, 0, 0] ++ x.data, false⟩] ++ fs ∧ s.changesOnly [.qps, .tags] t) ∧
  (∀ (n tag : Nat) (c : Cmd) (x : CmdSector) (s : State), s.cmd? (.data n) tag = some c → c.started = true →
    c.sqe.kind = .read → c.sectors[c.next]? = some x → x.outcome = .pending →
    exec (.readSectorDelivery (.data n) tag) s = .next s) ∧
  (∀ (n tag : Nat) (c : Cmd) (s : State), s.cmd? (.data n) tag = some c → c.started = true → c.sqe.kind = .verify →
    c.sectors.length ≤ c.next → completes (.readSectorDelivery (.data n) tag) s fun t =>
    t = s.finish (.data n) tag (c.rdepth c.status) c.status (bitNat (c.given.any (·.fill))) (c.lostIdx.length % 2 ^ 16)
      ((match c.lostIdx with | i :: _ => (c.sqe.addr + i) % 2 ^ 32 | [] => 0xFFFFFFFF) + 2 ^ 32 * (c.givenCount % 2 ^ 16)))

/-- APPEND runs where its course takes it: the checks of R372 in their order, a refused one with AUX64 the sectors left where
the course is full, and otherwise the command waits for its data. Where the manual leaves a point open, it follows the
model's choice of log 5, 136 and 143. -/
def Obligations.AppendsAreCheckedAgainstTheirCourse : Prop :=
  (∀ (q : QpId) (tag : Nat) (c : Cmd) (s : State), s.toRun q tag .append c → openCourse? s c.sqe.handle = none →
    completes (.append q tag) s fun t =>
    ∃ v, t = ({ s with freeCtr := s.freeCtr + 1 } : State).finish q tag 0 0x10 0 0 v) ∧
  (∀ (q : QpId) (tag : Nat) (c : Cmd) (k : Course) (s : State), s.toRun q tag .append c → openCourse? s c.sqe.handle = some k →
    completes (.append q tag) s fun t =>
    let early (st : Nat) : Prop := ∃ v, t = ({ s with freeCtr := s.freeCtr + 1 } : State).finish q tag 0 st 0 0 v
    if k.stopped then early 0x14
    else if k.full then t = s.finish q tag 0 0x13 0 0 k.left
    else if k.sealed then early 0x12
    else if k.left < c.sqe.count then t = s.finish q tag 0 0x13 0 0 k.left
    else if c.sqe.key ≠ 0 ∧ Tbl.get [] s.sec.keys c.sqe.key = [] then early 0x18
    else t.cmd? q tag = some { c with started := true } ∧ s.changesOnly [.tags] t)

/-- FLUSH, SEAL and RELEASE of a course end at once with 0x10 without a course, with 0x14 or 0x13 and the first CSN not
durable where it has stopped or is full with rows not committed; where rows are not committed they wait for the close, with
the partial row padded; a FLUSH of a committed course succeeds, also of one that has stopped; a SEAL of a committed course
seals it, and ends at once where every member's disc is closed and waits for the closing updates where one is not (R193,
R196, R199, R358, R374, R378). Where the manual leaves a point open, it follows the model's choice of log 87, 136 and 137. -/
def Obligations.ClosesWaitForWhatIsNotDurable : Prop :=
  (∀ (q : QpId) (tag : Nat) (c : Cmd) (s : State), ∀ p ∈ [(Instr.flush q tag, SqeKind.flush), (Instr.seal q tag, .sealing),
      (Instr.releaseCourse q tag, .releaseCourse)],
    s.toRun q tag p.2 c → openCourse? s c.sqe.handle = none → completes p.1 s fun t =>
    ∃ v, t = ({ s with freeCtr := s.freeCtr + 1 } : State).finish q tag 0 0x10 0 0 v) ∧
  (∀ (q : QpId) (tag : Nat) (c : Cmd) (k : Course) (s : State), ∀ p ∈ [(Instr.flush q tag, SqeKind.flush), (Instr.seal q tag, .sealing)],
    s.toRun q tag p.2 c → openCourse? s c.sqe.handle = some k → (k.stopped = true ∨ k.full = true) → k.allCommitted = false →
    completes p.1 s fun t =>
    t = s.finish q tag 0 (if k.stopped then 0x14 else 0x13) 0 0 (k.dtype.dataSectors * k.d * k.committed)) ∧
  (∀ (q : QpId) (tag : Nat) (c : Cmd) (k : Course) (s : State), s.toRun q tag .releaseCourse c →
    openCourse? s c.sqe.handle = some k → k.stopped = true → completes (.releaseCourse q tag) s fun t =>
    (∀ x ∈ t.courses, x.handle ≠ k.handle) ∧ t.cmd? q tag = none ∧
    s.changesOnly [.courses, .tags, .qps, .bays, .freeCtr] t) ∧
  (∀ (q : QpId) (tag : Nat) (c : Cmd) (k : Course) (s : State), ∀ p ∈ [(Instr.flush q tag, SqeKind.flush), (Instr.seal q tag, .sealing),
      (Instr.releaseCourse q tag, .releaseCourse)],
    s.toRun q tag p.2 c → openCourse? s c.sqe.handle = some k → k.stopped = false → k.full = false → k.allCommitted = false →
    completes p.1 s fun t =>
    t.course? k.handle = some { k.pad with
      sealed := (k.sealed || decide (p.2 = .sealing))
      waits := k.waits ++ [⟨q, tag, k.rowsBegun, decide (p.2 = .sealing), decide (p.2 = .releaseCourse), none⟩] } ∧
    t.cmd? q tag = some { c with started := true } ∧ s.changesOnly [.tags, .courses] t) ∧
  (∀ (q : QpId) (tag : Nat) (c : Cmd) (k : Course) (s : State), s.toRun q tag .flush c → openCourse? s c.sqe.handle = some k →
    k.allCommitted = true → completes (.flush q tag) s fun t =>
    t = (if k.stopped then s else s.modCourse k.handle Course.pad).finish q tag 0 0x00 0 0 0xFFFFFFFF) ∧
  (∀ (q : QpId) (tag : Nat) (c : Cmd) (k : Course) (s : State), s.toRun q tag .sealing c → openCourse? s c.sqe.handle = some k →
    k.stopped = false → k.allCommitted = true → membersClosed s k = true → completes (.seal q tag) s fun t =>
    t = (s.modCourse k.handle fun k => { k.pad with sealed := true }).finish q tag 0 0x00 0 0 0xFFFFFFFF) ∧
  (∀ (q : QpId) (tag : Nat) (c : Cmd) (k : Course) (s : State), s.toRun q tag .sealing c → openCourse? s c.sqe.handle = some k →
    k.stopped = false → k.allCommitted = true → membersClosed s k = false → completes (.seal q tag) s fun t =>
    t.course? k.handle = some { k.pad with
      sealed := true
      waits := k.waits ++ [⟨q, tag, k.rowsBegun, true, false, none⟩] } ∧
    t.cmd? q tag = some { c with started := true } ∧ s.changesOnly [.tags, .courses] t) ∧
  (∀ (q : QpId) (tag : Nat) (c : Cmd) (k : Course) (s : State), s.toRun q tag .sealing c → openCourse? s c.sqe.handle = some k →
    k.stopped = true → k.allCommitted = true → completes (.seal q tag) s fun t =>
    t = if membersClosed s k then s.finish q tag 0 0x00 0 0 0xFFFFFFFF else s.finish q tag 0 0x14 0 0 k.notDurable)

/-- MOUNT takes a free bay with a disc to SPINUP with nothing kept in its beams of the disc before, ends with 0x1D on a bay
that is not free and with 0x1B, reason 1, on an empty one; the answer UNAVAILABLE closes its request with DISC_DONE; RELEASE
takes the bay to SPINDOWN, or waits for the close of a course that is still open on it (R100, R129, R269, R375, R376, R378,
R390). Where the manual leaves a point open, it follows the model's choice of log 84 and 136. -/
def Obligations.MountsAndReleasesMoveTheirBay : Prop :=
  (∀ (q : QpId) (tag : Nat) (c : Cmd) (s : State), s.toRun q tag .load c → ((s.bay c.sqe.bay).state ≠ .empty ∧
      (s.bay c.sqe.bay).state ≠ .loaded ∨ (s.bay c.sqe.bay).mount.isSome = true) → completes (.mount q tag) s fun t =>
    ∃ v, t = ({ s with freeCtr := s.freeCtr + 1 } : State).finish q tag 0 0x1D 0 0 v) ∧
  (∀ (q : QpId) (tag : Nat) (c : Cmd) (s : State), s.toRun q tag .load c → (s.bay c.sqe.bay).state = .empty →
    (s.bay c.sqe.bay).disc = none → (s.bay c.sqe.bay).mount = none → (s.bay c.sqe.bay).outOfService = false →
    (s.bay c.sqe.bay).present = false → c.sqe.request = 0 → (∀ r ∈ s.recov.requests, r.id ≠ 0) → completes (.mount q tag) s fun t =>
    ∃ v, t = ({ s with freeCtr := s.freeCtr + 1 } : State).finish q tag 0 0x1B 0 1 v) ∧
  (∀ (q : QpId) (tag : Nat) (c : Cmd) (s : State), s.toRun q tag .load c →
    ((s.bay c.sqe.bay).state = .empty ∨ (s.bay c.sqe.bay).state = .loaded) → (s.bay c.sqe.bay).disc = none →
    (s.bay c.sqe.bay).mount = none → (s.bay c.sqe.bay).outOfService = false → (s.bay c.sqe.bay).present = true →
    completes (.mount q tag) s fun t =>
    (t.bay c.sqe.bay).state = .spinUp ∧ (t.bay c.sqe.bay).ldPermit = false ∧
    (∃ m, (t.bay c.sqe.bay).mount = some m ∧ m.q = q ∧ m.tag = tag ∧ m.req = c.sqe.request ∧
      m.reqUnknown = reqUnknown s c.sqe.request c.at_) ∧ (t.bay c.sqe.bay).disc = none ∧ s.onlyBay c.sqe.bay t ∧
    (∀ n, n < 8 → (t.beam (8 * c.sqe.bay + n)).gainOf = [] ∧ (t.beam (8 * c.sqe.bay + n)).envs = [] ∧
      (t.beam (8 * c.sqe.bay + n)).retained = none ∧ (t.beam (8 * c.sqe.bay + n)).set1 = []) ∧
    (∀ g, g / 8 ≠ c.sqe.bay → t.beam g = s.beam g) ∧
    t.cmd? q tag = some { c with started := true } ∧ s.changesOnly [.tags, .bays, .beams] t) ∧
  (∀ (q : QpId) (tag : Nat) (c : Cmd) (r : DiscReq) (s : State), s.toRun q tag .unavailable c →
    s.recov.requests.find? (fun r => r.id == c.sqe.request && !r.answered) = some r → s.tapped = true →
    completes (.mountUnavailable q tag) s fun t =>
    t.cmd? q tag = none ∧ (∃ es, t.events.queue = s.events.queue ++ [⟨2, s.now, beBytes 2 r.id ++ [0x14] ++ beBytes 1 r.member
      ++ beBytes 8 r.course⟩] ++ es) ∧ s.changesOnly [.tags, .qps, .events, .logs, .recov, .bays, .freeCtr] t) ∧
  (∀ (q : QpId) (tag : Nat) (c : Cmd) (s : State), s.toRun q tag .unavailable c →
    s.recov.requests.find? (fun r => r.id == c.sqe.request && !r.answered) = none → completes (.mountUnavailable q tag) s fun t =>
    ∃ v, t = ({ s with freeCtr := s.freeCtr + 1 } : State).finish q tag 0 0x11 0 0 v) ∧
  (∀ (q : QpId) (tag : Nat) (c : Cmd) (s : State), s.toRun q tag .releaseBay c → liveDisc s c.sqe.bay = none →
    completes (.release q tag) s fun t => t = s.finish q tag 0 0x10 0 0 0) ∧
  (∀ (q : QpId) (tag : Nat) (c : Cmd) (d : Disc) (s : State), s.toRun q tag .releaseBay c → liveDisc s c.sqe.bay = some d →
    s.courseOfBay c.sqe.bay = none → (s.bay c.sqe.bay).still = false → completes (.release q tag) s fun t =>
    (q, tag) ∈ (t.bay c.sqe.bay).releasing ∧ ((t.bay c.sqe.bay).state = .spinDown ∨ (t.bay c.sqe.bay).state = .safe) ∧
    t.mode = s.mode ∧ t.courses = s.courses) ∧
  (∀ (q : QpId) (tag : Nat) (c : Cmd) (d : Disc) (k : Course) (s : State), s.toRun q tag .releaseBay c →
    liveDisc s c.sqe.bay = some d → s.courseOfBay c.sqe.bay = some k → c.sqe.forced = false →
    k.committed < k.nextCsn / max 1 k.rowSize → completes (.release q tag) s fun t =>
    t.courses = s.courses.map (fun x => if x.handle = k.handle then { x with waits := x.waits ++
      [⟨q, tag, k.nextCsn / max 1 k.rowSize, false, true, some (Fin.ofNat 16 c.sqe.bay)⟩] } else x) ∧
    (t.bay c.sqe.bay).disc = (s.bay c.sqe.bay).disc ∧ (t.bay c.sqe.bay).state = (s.bay c.sqe.bay).state)

/-- MOUNT with ACTION 1 opens a course that passes the checks of R377 and reports the status and member of the first that
fails: fewer than two data discs and an eighth course open already are refused before any member is looked at. Where the
manual leaves a point open, it follows the model's choice of log 5, 86, 132 and 144. -/
def Obligations.CoursesOpenWhereTheirChecksHold : Prop :=
  (∀ (q : QpId) (tag : Nat) (c : Cmd) (s : State), s.toRun q tag .opening c → c.sqe.openD < 2 →
    completes (.mountOpenCourse q tag) s fun t =>
    ∃ v, t = ({ s with freeCtr := s.freeCtr + 1 } : State).finish q tag 0 0x11 0 v 0) ∧
  (∀ (q : QpId) (tag j st : Nat) (c : Cmd) (s : State), s.toRun q tag .opening c → openFault s c.sqe = some (st, some j) →
    completes (.mountOpenCourse q tag) s fun t => t = s.finish q tag 0 st 0 j 0) ∧
  (∀ (q : QpId) (tag : Nat) (c : Cmd) (s : State), s.toRun q tag .opening c → 2 ≤ c.sqe.openD → c.sqe.openD ≤ 14 →
    1 ≤ c.sqe.openP → c.sqe.openP ≤ 4 → c.sqe.openD + c.sqe.openP ≤ 16 → c.sqe.memberBays.Nodup →
    8 ≤ (s.courses.filter (fun k => !k.stopped)).length → completes (.mountOpenCourse q tag) s fun t =>
    ∃ v, t = ({ s with freeCtr := s.freeCtr + 1 } : State).finish q tag 0 0x16 0 v 0) ∧
  (∀ (q : QpId) (tag : Nat) (c : Cmd) (s : State), s.toRun q tag .opening c → openFault s c.sqe = none →
    (∀ k ∈ s.courses, k.handle ≠ 0x10000 + c.order) → completes (.mountOpenCourse q tag) s fun t =>
    (∃ k ∈ t.courses, k.id = c.sqe.name ∧ k.d = c.sqe.openD ∧ k.p = c.sqe.openP ∧ k.bays.map (·.val) = c.sqe.memberBays ∧
      k.stopped = false ∧ k.alignTo = alignedRows s k.d c.sqe.memberBays) ∧
    s.changesOnly [.courses, .tags, .qps, .bays, .recov, .events, .logs, .freeCtr, .nextHandle] t)

/-! ## The end-to-end transport -/

/-- Sequenced frames (R338, R363): of a CMD frame only the expected number is stored, whole, as the newest entries of its
submission ring, where they have credit; an older number, a newer one and one beyond the credit store nothing; a malformed
one counts as received and stores nothing; the entries stand little-endian in the ring, which turns them back. While a
channel retrains a frame waits in the ingest buffer. A frame whose queue pair is free, or that comes from another peer, is
dropped and counted (R8, R329, R338, R349, R352, R353, R355, R363, R429). Where the manual leaves a point open, it follows
the model's choice of log 64 and 167. -/
def Obligations.CommandFramesAreStoredInSequence : Prop :=
  (∀ (f : Frame) (q : QpId) (s : State), s.takes f → s.stores → f.ftype = 1 → frameQp f = some q → reaches s f q = true →
    (s.qp q).state = .opened → f.seq = (s.qp q).rxNext → 1 ≤ beAt f.body 0 2 → beAt f.body 0 2 ≤ 128 →
    f.len = 8 + 64 * beAt f.body 0 2 → beAt f.body 0 2 ≤ cmdCredit s q → completes (.cmd f) s fun t =>
    (t.qp q).sq = (s.qp q).sq ++ cmdEntries f s.now (s.pnat 0x0200 (qpClass s q)) ∧
    (t.qp q).occupied = (s.qp q).occupied + beAt f.body 0 2 ∧ (t.qp q).rxNext = f.seq + 1 ∧
    s.changesOnly [.qps, .ring, .sent] t) ∧
  (∀ (f : Frame) (q : QpId) (s : State), s.takes f → s.stores → f.ftype = 1 → frameQp f = some q → reaches s f q = true →
    (s.qp q).state = .opened → f.seq = (s.qp q).rxNext → (beAt f.body 0 2 = 0 ∨ 128 < beAt f.body 0 2 ∨
      f.len ≠ 8 + 64 * beAt f.body 0 2) → completes (.cmd f) s fun t =>
    (t.qp q).sq = (s.qp q).sq ∧ (t.qp q).rxNext = f.seq + 1 ∧ s.changesOnly [.qps, .ring, .sent, .logs, .events] t) ∧
  (∀ (f : Frame) (q : QpId) (s : State), s.takes f → s.stores → f.ftype = 1 → frameQp f = some q → reaches s f q = true →
    (s.qp q).state = .opened → f.seq = (s.qp q).rxNext → 1 ≤ beAt f.body 0 2 → beAt f.body 0 2 ≤ 128 →
    f.len = 8 + 64 * beAt f.body 0 2 → cmdCredit s q < beAt f.body 0 2 → completes (.cmd f) s fun t => t = learn s f) ∧
  (∀ (f : Frame) (q : QpId) (s : State), s.takes f → s.stores → f.ftype = 1 → frameQp f = some q → reaches s f q = true →
    (s.qp q).state = .opened → f.seq ≠ (s.qp q).rxNext → completes (.cmd f) s fun t =>
    (t.qp q).sq = (s.qp q).sq ∧ (t.qp q).rxNext = (s.qp q).rxNext ∧
    (t.qp q).nakFor = (if newer32 (s.qp q).rxNext f.seq then (s.qp q).nakFor else some (s.qp q).rxNext) ∧
    s.changesOnly [.qps, .ring, .sent] t) ∧
  (∀ (f : Frame) (q : QpId) (s : State), s.takes f → s.stores → f.ftype = 1 → frameQp f = some q → reaches s f q = false →
    completes (.cmd f) s fun t => t = (learn s f).ringDrop f.port) ∧
  (∀ (f : Frame) (n : Nat) (e : RingEntry), cmdEntries f n 0 = [e] → beAt f.body 0 2 = 1 → f.body.length = 72 →
    e.received = f.body.drop 8) ∧
  (∀ (f : Frame) (s : State), s.takes f → f.ftype = 1 → (s.chan 0).retraining = true →
    ingestBytes s + wireSize f.len ≤ 1048576 → completes (.cmd f) s fun t =>
    t.ring.ingest = s.ring.ingest ++ [(f, [])] ∧ s.changesOnly [.ring, .sent] t) ∧
  (∀ (f : Frame) (s : State), s.takes f → f.ftype = 3 → completes (.cpl f) s fun t => t = (learn s f).ringDrop f.port)

/-- DATA frames in sequence: units of an admin payload go to their place in the command's payload; a sector of an APPEND gets
its CSN from a range assigned at its first sector, is encoded and enters the course write buffer; a tag not in flight has its
data accepted, discarded and counted; beyond the granted credit nothing is stored (R193, R338, R361, R364, R372, R379, R384).
Where the manual leaves a point open, it follows the model's choice of log 64 and 87. -/
def Obligations.DataFramesReachTheirCommands : Prop :=
  (∀ (f : Frame) (g : Gateway) (dr : List Word) (s : State), s.takes f → s.stores → f.ftype = 2 → frameQp f = some (.admin g) →
    reaches s f (.admin g) = true → (s.qp (.admin g)).state = .opened → f.seq = (s.qp (.admin g)).rxNext →
    (s.qp (.admin g)).dataIn + (dataSectorsOf f).length ≤ (s.qp (.admin g)).granted →
    s.adminQ.any (fun c => c.via == .ring g && c.tag == f.tag % 2048) = true → completes (.data f dr) s fun t =>
    t.adminQ = s.adminQ.map (fun c => if c.via == .ring g && c.tag == f.tag % 2048 then (dataSectorsOf f).foldl takeUnit c else c) ∧
    (t.qp (.admin g)).rxNext = f.seq + 1 ∧ s.changesOnly [.adminQ, .qps, .ring, .sent] t) ∧
  (∀ (f : Frame) (q : QpId) (dr : List Word) (s : State), s.takes f → s.stores → f.ftype = 2 → frameQp f = some q →
    reaches s f q = true → (s.qp q).state = .opened → f.seq = (s.qp q).rxNext →
    (s.qp q).granted < (s.qp q).dataIn + (dataSectorsOf f).length → completes (.data f dr) s fun t => t = learn s f) ∧
  (∀ (f : Frame) (n : Nat) (dr : List Word) (s : State), s.takes f → s.stores → f.ftype = 2 → frameQp f = some (.data n) →
    reaches s f (.data n) = true → (s.qp (.data n)).state = .opened → f.seq = (s.qp (.data n)).rxNext →
    (s.qp (.data n)).dataIn + (dataSectorsOf f).length ≤ (s.qp (.data n)).granted → s.cmd? (.data n) (f.tag % 2048) = none →
    tagWaits s (.data n) (f.tag % 2048) = false → completes (.data f dr) s fun t =>
    (t.qp (.data n)).rxNext = f.seq + 1 ∧ s.changesOnly [.qps, .ring, .sent] t) ∧
  (∀ (f : Frame) (n x i : Nat) (u : List Byte) (c : Cmd) (k : Course) (b : BayId) (w : WriteSess) (d : Disc) (dr : List Word) (s : State),
    s.takes f → s.stores → f.ftype = 2 → frameQp f = some (.data n) → reaches s f (.data n) = true → (s.qp (.data n)).state = .opened →
    f.seq = (s.qp (.data n)).rxNext → dataSectorsOf f = [(x, u)] → (s.qp (.data n)).dataIn + 1 ≤ (s.qp (.data n)).granted →
    s.cmd? (.data n) (f.tag % 2048) = some c → c.sqe.opcode = 2 → c.started = true → 1 ≤ bufferRoom s → x < c.sqe.count →
    c.csn = none → c.taken = [] → 2 ≤ c.sqe.count → s.course? c.sqe.handle = some k → k.sealed = false →
    k.full = false → w.phase ≠ .waitTemp → c.sqe.count ≤ k.left → i = csnDisc k.dtype k.d (k.nextCsn + x) → k.bays[i]? = some b → (s.bay b.val).write = some w →
    (s.bay b.val).disc = some d → completes (.data f dr) s fun t =>
    let m := csnRow k.dtype k.d (k.nextCsn + x)
    let lsn := lsnOf k.dtype (rowLayer k.dtype m) (rowBlock k.dtype m) (csnK k.dtype (k.nextCsn + x))
    let key := if c.sqe.key = 0 then none else some (c.sqe.key, Tbl.get [] s.sec.keys c.sqe.key)
    t.course? c.sqe.handle = some { k with
      nextCsn := k.nextCsn + c.sqe.count
      buf := k.buf ++ [⟨k.nextCsn + x, encodeSector d.discId lsn c.sqe.tenant w.seq (rowLayer k.dtype m) false false key
        ((u ++ zeros 4096).take 4096)⟩]
      lastData := s.now } ∧
    t.cmd? (.data n) (f.tag % 2048) = some { c with csn := some k.nextCsn, taken := [x] } ∧
    (t.qp (.data n)).rxNext = f.seq + 1 ∧ s.changesOnly [.tags, .courses, .qps, .ring, .sent] t)

/-- An acknowledgement removes the older frames from the retransmission buffer and gives the host's DATA_CREDIT; a NAK also
sends the rest again with RETX set, and one outside the window changes nothing. A launch gives a waiting frame the next
sequence number within the window; a retransmission timeout sends everything again with RETX set until the limit, when the
peer is unreachable; QUEUE_ORPHAN later the queue pair is being deleted, and it is free once its tags are (R338, R339, R353,
R362, R363). Where the manual leaves a point open, it follows the model's choice of log 52 and 57. -/
def Obligations.WindowsAdvanceLaunchAndTimeOut : Prop :=
  (∀ (f : Frame) (q : QpId) (s : State), s.takes f → f.ftype = 4 → frameQp f = some q → reaches s f q = true →
    (s.qp q).state = .opened → byteAt f.body 0 = 0 → newer32 (match (s.qp q).unacked with | g :: _ => g.seq | [] => (s.qp q).txNext) f.seq = false →
    newer32 f.seq (s.qp q).txNext = false → completes (.ack f) s fun t =>
    (t.qp q).unacked = (s.qp q).unacked.filter (fun g => !newer32 f.seq g.seq) ∧ (t.qp q).dataCredit = beAt f.body 6 2 ∧
    (t.qp q).occupied = (s.qp q).occupied - ((s.qp q).unacked.filter (fun g => newer32 f.seq g.seq && g.ftype == 3)).length ∧
    s.changesOnly [.qps, .ring] t) ∧
  (∀ (f : Frame) (q : QpId) (s : State), s.takes f → f.ftype = 4 → frameQp f = some q → reaches s f q = true →
    (s.qp q).state = .opened → byteAt f.body 0 = 0 → newer32 f.seq (s.qp q).txNext = true → completes (.ack f) s fun t =>
    t = learn s f) ∧
  (∀ (f : Frame) (q : QpId) (s : State), s.takes f → f.ftype = 4 → frameQp f = some q → reaches s f q = true →
    (s.qp q).state = .opened → byteAt f.body 0 = 1 → newer32 (match (s.qp q).unacked with | g :: _ => g.seq | [] => (s.qp q).txNext) f.seq = false →
    newer32 f.seq (s.qp q).txNext = false → completes (.nak f) s fun t =>
    (t.qp q).unacked = ((s.qp q).unacked.filter (fun g => !newer32 f.seq g.seq)).map (fun g => { g with retx := true }) ∧
    (t.qp q).waitFrom = s.now ∧ s.changesOnly [.qps, .ring, .sent] t) ∧
  (∀ (q : QpId) (f : TxFrame) (rest : List TxFrame) (p : Port) (s : State), (s.qp q).txWait = f :: rest → s.tapped = true →
    (s.qp q).state = .opened → (s.qp q).unacked.length < s.pnat 0x0102 0 →
    retxBytes s + wireSize f.body.length ≤ s.pnat 0x0107 0 * 1048576 → direction s f.dst = some p →
    completes (.sequencedFrameLaunch q) s fun t =>
    (t.qp q).txWait = rest ∧ (t.qp q).txNext = (s.qp q).txNext + 1 ∧
    (t.qp q).unacked = (s.qp q).unacked ++ [{ f with seq := (s.qp q).txNext }] ∧ s.changesOnly [.qps, .ring, .sent] t) ∧
  (∀ (q : QpId) (s : State), s.pnat 0x0102 0 ≤ (s.qp q).unacked.length → exec (.sequencedFrameLaunch q) s = .next s) ∧
  (∀ (q : QpId) (s : State), (s.qp q).state = .opened → (s.qp q).unacked ≠ [] → (s.qp q).timeouts + 1 < s.pnat 0x0101 0 →
    (s.qp q).waitFrom + s.pnat 0x0100 0 * min 8 (2 ^ (s.qp q).timeouts) / 5 ≤ s.now → completes (.rtoExpiry q) s fun t =>
    (t.qp q).timeouts = (s.qp q).timeouts + 1 ∧ (t.qp q).unacked = (s.qp q).unacked.map (fun g => { g with retx := true }) ∧
    (t.qp q).state = .opened ∧ s.changesOnly [.qps, .ring, .sent] t) ∧
  (∀ (q : QpId) (s : State), (s.qp q).state = .opened → (s.qp q).unacked ≠ [] → s.pnat 0x0101 0 ≤ (s.qp q).timeouts + 1 →
    (s.qp q).waitFrom + s.pnat 0x0100 0 * min 8 (2 ^ (s.qp q).timeouts) / 5 ≤ s.now → completes (.rtoExpiry q) s fun t =>
    (t.qp q).state = .unreachable ∧ (t.qp q).lostAt = s.now ∧ (t.qp q).unacked = (s.qp q).unacked ∧
    s.changesOnly [.qps, .logs, .events] t) ∧
  (∀ (q : QpId) (s : State), s.tapped = true → 0 < (s.qp q).rxUnacked → (s.qp q).rxFirstAt + s.pnat 0x0104 0 / 5 ≤ s.now →
    completes (.ackTimerExpiry q) s fun t =>
    (t.qp q).rxUnacked = 0 ∧ (t.qp q).granted = dataGrant s q ∧ (t.qp q).rxNext = (s.qp q).rxNext ∧
    s.changesOnly [.qps, .ring, .sent] t) ∧
  (∀ (n : Nat) (s : State), (s.qp (.data n)).state = .unreachable → (s.qp (.data n)).lostAt + 200000 * s.pnat 0x0204 0 ≤ s.now →
    completes (.queueOrphanExpiry (.data n)) s fun t =>
    (t.qp (.data n)).state = .deleting ∧ (t.qp (.data n)).sq = [] ∧ (∀ c ∈ t.tags, c.q ≠ .data n)) ∧
  (∀ (q : QpId) (s : State), (s.qp q).state = .deleting → (∀ c ∈ s.tags, c.q ≠ q) → completes (.qpFreed q) s fun t =>
    t.qp q = {} ∧ s.changesOnly [.qps] t) ∧
  (∀ (q : QpId) (c : Cmd) (s : State), (s.qp q).state = .deleting → c ∈ s.tags → c.q = q → exec (.qpFreed q) s = .next s)

/-! ## The ring -/

/-- A frame for another node leaves by the opposite port with HOPS one more; a wrapped or closed port turns it back once with
WRAP set, the 512th hop, a second turn, an own frame come round and a failed check drop and count it, and a broken FCS is
counted but forwarded. Frames of unknown type are treated so, and dropped where they are for the engine (R318, R326 to R332,
R349). -/
def Obligations.FramesPassWithTheirHopsCounted : Prop :=
  (∀ (f : Frame) (s : State), s.passes f → f.hops + 1 < 512 → (s.port f.port.other).turns f.pcp = false →
    (s.port f.port.other).clear f.pcp = true → completes (.transitFrame f) s fun t =>
    t.sent = s.sent ++ [.forward f.port.other { f with hops := f.hops + 1 }] ∧
    (t.port f.port).fcsBad = (if f.fcsOk then (s.port f.port).fcsBad else min 0xFFFF ((s.port f.port).fcsBad + 1)) ∧
    (∀ p, (t.port p).dropped = (s.port p).dropped) ∧ s.changesOnly [.ring, .sent] t) ∧
  (∀ (f : Frame) (s : State), s.passes f → f.hops + 1 < 512 → f.fcsOk = true → f.wrap = false →
    (s.port f.port.other).turns f.pcp = true → (s.port f.port).turns f.pcp = false → (s.port f.port).clear f.pcp = true →
    completes (.transitFrame f) s fun t =>
    t.sent = s.sent ++ [.forward f.port { f with wrap := true, hops := f.hops + 1 }] ∧ s.changesOnly [.ring, .sent] t) ∧
  (∀ (f : Frame) (s : State), s.passes f → f.fcsOk = true → (512 ≤ f.hops + 1 ∨
      f.wrap = true ∧ (s.port f.port.other).turns f.pcp = true) → completes (.transitFrame f) s fun t =>
    t = (learn s f).ringDrop f.port) ∧
  (∀ (f : Frame) (s : State), frameVerdict s f = .dropped → completes (.transitFrame f) s fun t => t = s.ringDrop f.port) ∧
  (∀ (f : Frame) (s : State), frameVerdict s f = .silent → exec (.transitFrame f) s = .next s) ∧
  (∀ (f : Frame) (s : State), frameVerdict s f = .good → f.src = s.ring.node → f.ftype ≠ 0x20 → f.ftype ≠ 0x23 → f.ftype ≠ 0x24 →
    completes (.transitFrame f) s fun t => t = (learn s f).ringDrop f.port) ∧
  (∀ (f : Frame) (s : State), s.takes f → knownType f.ftype = false → completes (.unknownFrameType f) s fun t =>
    t = (learn s f).ringDrop f.port) ∧
  (∀ (f : Frame) (s : State), s.passes f → knownType f.ftype = false → exec (.unknownFrameType f) s = exec (.transitFrame f) s) ∧
  (∀ (p : Port) (s : State), completes (.nonYaverFrame p) s fun t =>
    t = if s.tapped ∧ s.powered 4 then s.ringDrop p else s)

/-- A newer map that names the engine once takes effect and closes the port that faces its cut, which goes QUIET once its two
lower queues are empty; another map leaves the one in force. A tapped engine that loses a laser source, a port's domain or
REFCLK_RING raises SELF_FAULT and untaps; without VHTR the switches are in bar; its SPDM sessions end and its key slots stay
(R319, R320, R334, R335, R342, R346, R347, R415, R500). Where the manual leaves a point open, it follows the model's choice
of log 25 and 141. -/
def Obligations.MapsCutAndFaultsUntap : Prop :=
  (∀ (f : Frame) (s : State), frameVerdict s f = .good → f.fcsOk = true → f.dst = 255 → f.ftype = 0x21 → f.src ≠ s.ring.node →
    s.ring.node ≠ 255 → firstCopy s f = true → mapAccepted s f (parseMap f.body) = true → completes (.topology f) s fun t =>
    t.ring.map = some (parseMap f.body) ∧ (∀ p, (t.port p).cut = closes s (parseMap f.body) p) ∧
    (∀ p, (t.port p).quiet = ((s.port p).quiet && closes s (parseMap f.body) p)) ∧
    Tbl.get 0 t.ring.lastB f.src = f.seq.toNat + 1 ∧ s.changesOnly [.ring, .sent] t) ∧
  (∀ (f : Frame) (s : State), frameVerdict s f = .good → f.fcsOk = true → f.dst = 255 → f.ftype = 0x21 → f.src ≠ s.ring.node →
    s.ring.node ≠ 255 → (firstCopy s f = false ∨ mapAccepted s f (parseMap f.body) = false) → completes (.topology f) s fun t =>
    t.ring.map = s.ring.map ∧ (∀ p, (t.port p).cut = (s.port p).cut) ∧ s.changesOnly [.ring, .sent, .logs, .events, .freeCtr] t) ∧
  (∀ (p : Port) (s : State), s.tapped = true → (s.port p).cut = true → (s.port p).quiet = false → (s.port p).p3.transit = [] →
    (s.port p).p3.own = [] → (s.port p).p6.transit = [] → (s.port p).p6.own = [] → completes (.cutQuiet p) s fun t =>
    t.port p = { s.port p with quiet := true } ∧
    t.ring.events = s.ring.events ++ [⟨5, p.index, (s.port p).neighbour, (s.port p).neighbour, s.epoch, s.now, 0⟩] ∧
    s.changesOnly [.ring] t) ∧
  (∀ (p : Port) (s : State), ((s.port p).cut = false ∨ (s.port p).p3.transit ≠ []) → exec (.cutQuiet p) s = .next s) ∧
  (∀ (p : Port) (s : State), ∀ c ∈ [Instr.laserSourceUnusable p, .refclkRingLost, .vhtrLost], s.tapped = true →
    completes c s fun t =>
    t.ring.tapped = false ∧ t.ring.node = 0 ∧ t.ring.map = none ∧ t.sec = { s.sec with sessions := [] } ∧ t.mode = s.mode ∧
    s.changesOnly [.ring, .sec, .sent, .logs, .events, .freeCtr, .aon] t) ∧
  (∀ (p : Port) (s : State), s.tapped = true → s.powered p.domain = true → completes (.portDomainFault p) s fun t =>
    t.ring.tapped = false ∧ t.sec = { s.sec with sessions := [] } ∧ t.mode = s.mode ∧
    s.changesOnly [.ring, .sec, .sent, .logs, .events, .freeCtr] t) ∧
  (∀ (p : Port) (s : State), s.tapped = false → completes (.laserSourceUnusable p) s fun t =>
    t.port p = { s.port p with elsOk := false } ∧ s.changesOnly [.ring] t) ∧
  (∀ (s : State), s.tapped = false → completes .vhtrLost s fun t => t.ring = { s.ring with vhtr := false } ∧ s.changesOnly [.ring] t) ∧
  (∀ (s : State), s.tapped = false → completes .refclkRingLost s fun t =>
    t.aon = { s.aon with refRing := false } ∧ s.changesOnly [.aon] t)

/-- Heartbeats keep a port's neighbour: a valid one clears the misses, unwraps a port that is LINK_UP and notes a new
neighbour; one with the port's own number shows a crossed cable; the third miss wraps the port and raises WRAPPED and
NEIGHBOR_DARK; the PCS comes and goes (R340 to R343, R349). Where the manual leaves a point open, it follows the model's
choice of log 25 and 56. -/
def Obligations.HeartbeatsWrapAndUnwrapPorts : Prop :=
  (∀ (f : Frame) (s : State), frameVerdict s f = .good → f.fcsOk = true → f.ftype = 0x20 →
    (byteAt f.body 0).toNat = f.port.other.index → completes (.heartbeat f) s fun t =>
    (t.port f.port).misses = 0 ∧ (t.port f.port).heard = true ∧ (t.port f.port).neighbour = f.src ∧
    (t.port f.port).miswired = false ∧ (t.port f.port).wrapped = ((s.port f.port).wrapped && !(s.port f.port).pcs) ∧
    (t.port f.port).nbChange = ((s.port f.port).nbChange || decide ((s.port f.port).neighbour ≠ f.src)) ∧
    s.changesOnly [.ring, .sent] t) ∧
  (∀ (f : Frame) (s : State), frameVerdict s f = .good → f.fcsOk = true → f.ftype = 0x20 →
    (byteAt f.body 0).toNat ≠ f.port.other.index → completes (.heartbeat f) s fun t =>
    (t.port f.port).miswired = true ∧ (t.port f.port).neighbour = (s.port f.port).neighbour ∧
    s.changesOnly [.ring, .logs, .events, .freeCtr] t) ∧
  (∀ (p : Port) (s : State), s.tapped = true → 3 ≤ (s.port p).misses → (s.port p).wrapped = false →
    completes (.heartbeatMissLimit p) s fun t =>
    (t.port p).wrapped = true ∧ (t.port p).p3.transit = [] ∧ (t.port p).p6.transit = [] ∧
    t.ring.events = s.ring.events ++ [⟨3, p.index, (s.port p).neighbour, 0, s.epoch, s.now, 0⟩,
      ⟨1, p.index, (s.port p).neighbour, 0, s.epoch, s.now, 0⟩] ∧ s.changesOnly [.ring, .sent] t) ∧
  (∀ (p : Port) (s : State), (s.port p).misses < 3 → exec (.heartbeatMissLimit p) s = .next s) ∧
  (∀ (p : Port) (s : State), s.powered p.domain = true → completes (.pcsLock p) s fun t =>
    (t.port p).pcs = true ∧ t.aon = { s.aon with refRing := true } ∧ s.changesOnly [.aon, .ring, .sent] t) ∧
  (∀ (p : Port) (s : State), completes (.pcsLoss p) s fun t =>
    t.port p = { s.port p with pcs := false } ∧ (∀ q, q ≠ p → t.port q = s.port q) ∧ s.changesOnly [.ring] t)

/-- PFC: XOFF pauses a priority for its timer, XON and the timer's end let what waits go, XOFF is repeated every 20 µs while
it is in force; a pause of RING_PFC_WD is a storm, in which the head of the paused queue is dropped every 10 µs, until the
priority has been free for 1 ms (R331, R336, R337, R342). Where the manual leaves a point open, it follows the model's choice
of log 51 and 52. -/
def Obligations.PfcPausesAndItsStormsDrop : Prop :=
  (∀ (p : Port) (pr : Prio) (w : Half) (s : State), s.powered 4 = true → w ≠ 0 → completes (.pfcXoff p pr w) s fun t =>
    ((t.port p).prio pr.pcp).paused = true ∧ ((t.port p).prio pr.pcp).pauseEnds = s.now + w.toNat * 64 / 500000 ∧
    ((t.port p).prio pr.pcp).transit = ((s.port p).prio pr.pcp).transit ∧ (∀ q, q ≠ p → t.port q = s.port q) ∧
    s.changesOnly [.ring] t) ∧
  (∀ (p : Port) (pr : Prio) (s : State), s.powered 4 = true → ((s.port p).prio pr.pcp).paused = true →
    completes (.pfcXon p pr) s fun t =>
    ((t.port p).prio pr.pcp).paused = false ∧ ((t.port p).prio pr.pcp).freeSince = s.now ∧
    ((s.port p).usable = true → ((t.port p).prio pr.pcp).transit = [] ∧ ((t.port p).prio pr.pcp).own = []) ∧
    s.changesOnly [.ring, .sent] t) ∧
  (∀ (p : Port) (pr : Prio) (s : State), s.powered 4 = true → ((s.port p).prio pr.pcp).pauseEnds ≤ s.now →
    exec (.pfcTimerExpiry p pr) s = exec (.pfcXon p pr) s) ∧
  (∀ (p : Port) (pr : Prio) (s : State), s.powered 4 = true → ((s.port p).prio pr.pcp).paused = true →
    ((s.port p).prio pr.pcp).pauseEnds ≤ s.now → completes (.pfcTimerExpiry p pr) s fun t =>
    ((t.port p).prio pr.pcp).paused = false ∧ ((t.port p).prio pr.pcp).freeSince = s.now ∧
    ((s.port p).usable = true → ((t.port p).prio pr.pcp).transit = [] ∧ ((t.port p).prio pr.pcp).own = []) ∧
    s.changesOnly [.ring, .sent] t) ∧
  (∀ (p : Port) (pr : Prio) (s : State), s.now < ((s.port p).prio pr.pcp).pauseEnds → exec (.pfcTimerExpiry p pr) s = .next s) ∧
  (∀ (p : Port) (pr : Prio) (s : State), s.powered 4 = true → ((s.port p).prio pr.pcp).xoff = true →
    ((s.port p).prio pr.pcp).xoffAt + 4 ≤ s.now → completes (.pfcXoffRepeat p pr) s fun t =>
    t.sent = s.sent ++ [.pfc p pr 0xFFFF] ∧ ((t.port p).prio pr.pcp).xoff = true ∧ ((t.port p).prio pr.pcp).xoffAt = s.now ∧
    (∀ q, q ≠ p → t.port q = s.port q) ∧ s.changesOnly [.ring, .sent] t) ∧
  (∀ (p : Port) (pr : Prio) (s : State), s.now < ((s.port p).prio pr.pcp).xoffAt + 4 → exec (.pfcXoffRepeat p pr) s = .next s) ∧
  (∀ (p : Port) (pr : Prio) (s : State), s.powered 4 = true → ((s.port p).prio pr.pcp).paused = true →
    ((s.port p).prio pr.pcp).storm = false → ((s.port p).prio pr.pcp).pausedSince + 200 * s.pnat 0x0106 0 ≤ s.now →
    completes (.pfcWatchdogExpiry p pr) s fun t =>
    ((t.port p).prio pr.pcp).storm = true ∧ (t.port p).stormFlag = true ∧ t.ring.events = s.ring.events ++
      [⟨8, p.index, (s.port p).neighbour, (s.port p).neighbour, s.epoch, s.now, 0⟩] ∧ s.changesOnly [.ring] t) ∧
  (∀ (p : Port) (pr : Prio) (f : Frame) (rest : List Frame) (s : State), s.powered 4 = true →
    ((s.port p).prio pr.pcp).storm = true → ((s.port p).prio pr.pcp).dropAt + 2 ≤ s.now → ((s.port p).prio pr.pcp).transit = f :: rest →
    completes (.pfcStormDrop p pr) s fun t =>
    ((t.port p).prio pr.pcp).transit = rest ∧ (t.port f.port).dropped = min 0xFFFF ((s.port f.port).dropped + 1) ∧
    s.changesOnly [.ring, .sent] t) ∧
  (∀ (p : Port) (pr : Prio) (s : State), ((s.port p).prio pr.pcp).storm = true → ((s.port p).prio pr.pcp).paused = false →
    ((s.port p).prio pr.pcp).freeSince + 200 ≤ s.now → completes (.pfcStormEnd p pr) s fun t =>
    (t.port p).prio pr.pcp = { (s.port p).prio pr.pcp with storm := false } ∧ s.changesOnly [.ring] t)

/-- RING_TAP judges its conditions in the order of R344 and then crosses the switches; training that fails, and a claim of
its node ID within 2 ms, untap the engine again, and the joined engine is in TRANSIT; RING_UNTAP in RETIRE leads to ENROL
(R344, R345, R348, R464). A RING_TAP during a CAL_LOAD waits, which is the model's reading of R422 (log 55). Where the manual
leaves a point open, it follows the model's choice of log 43 and 55. -/
def Obligations.SplicesCrossAndUncrossTheSwitches : Prop :=
  (∀ (i n : Byte) (q z : Word) (s : State), s.aon.supply = true → (∀ c ∈ s.adminQ, c.opcode ≠ 0x44) →
    completes (.ringTap i n q z) s fun t =>
    if s.tapped then t = tapAnswer s i 6
    else if n.toNat = 0 ∨ 252 < n.toNat then t = tapAnswer s i 1
    else if s.mode ≠ .enrol then t = tapAnswer s i 2
    else if s.mgmt.selfTest = false ∨ s.ring.east.elsOk = false ∨ s.ring.west.elsOk = false then t = tapAnswer s i 3
    else t.ring.tapped = true ∧ t.ring.node = n.toNat ∧ t.ring.bseq = q ∧ t.ring.nonce = z ∧ t.ring.map = none ∧
      t.sent = s.sent ++ [.switches true] ∧ (t.qp (.admin .a)).state = .opened ∧ (t.qp (.admin .b)).state = .opened ∧
      t.mode = .enrol ∧ s.changesOnly [.ring, .qps, .sent] t) ∧
  (∀ (i : Byte) (a : Nat) (s : State), s.ring.splice = .training i a → s.ring.tapped = true → a + 4000 ≤ s.now →
    (s.ring.east.linkUp && s.ring.west.linkUp) = false → completes .tapTrainTimeout s fun t =>
    t.ring.tapped = false ∧ t.ring.node = 0 ∧ t.ring.map = none ∧ t.ring.splice = .none ∧
    t.sent = s.sent ++ [.switches false, .mctp ([0x7F] ++ beBytes 4 Config.iana.toNat ++ [0xB0, i, 0x00, 4])] ∧
    s.changesOnly [.ring, .sec, .sent] t) ∧
  (∀ (f : Frame) (s : State), frameVerdict s f = .good → f.fcsOk = true → f.ftype = 0x23 → f.dst = 255 → f.src = s.ring.node →
    beAt f.body 0 4 ≠ s.ring.nonce.toNat → firstCopy s f = true → completes (.idProbe f) s fun t =>
    t.ring.bseq = s.ring.bseq + 1 ∧ t.ring.events = s.ring.events ++ [⟨7, f.port.index, f.src, f.src, s.epoch, s.now, 0⟩] ∧
    s.changesOnly [.ring, .sent] t) ∧
  (∀ (f : Frame) (i : Byte) (a : Nat) (s : State), frameVerdict s f = .good → f.fcsOk = true → f.ftype = 0x24 → f.dst = 255 →
    f.src = s.ring.node → beAt f.body 0 4 = s.ring.nonce.toNat → firstCopy s f = true → s.ring.splice = .probing i a →
    s.now ≤ a + 400 → s.ring.tapped = true → completes (.idClaim f) s fun t =>
    t.ring.tapped = false ∧ t.ring.node = 0 ∧ t.mode = s.mode ∧
    t.sent = s.sent ++ [.switches false, .mctp ([0x7F] ++ beBytes 4 Config.iana.toNat ++ [0xB0, i, 0x00, 5])]) ∧
  (∀ (i : Byte) (a : Nat) (s : State), s.ring.splice = .probing i a → s.mode = .enrol → a + 400 ≤ s.now →
    completes .idClaimWindowExpiry s fun t =>
    t.mode = .transit ∧ t.ring.splice = .none ∧ t.ring.tapped = s.ring.tapped ∧
    t.ring.events = s.ring.events ++ [⟨6, 0, 0, s.ring.east.neighbour, s.epoch, s.now, 0⟩] ∧
    t.sent = s.sent ++ [.mctp ([0x7F] ++ beBytes 4 Config.iana.toNat ++ [0xB0, i, 0x00, 0])]) ∧
  (∀ (i : Byte) (s : State), s.aon.supply = true → completes (.ringUntap i) s fun t =>
    if s.mode ≠ .retire then t = mctpAnswer s 0x31 i 0 [2]
    else t.mode = .enrol ∧ t.ring.tapped = false ∧ (∀ n, 7 ≤ n → n ≤ 19 → s.powered 18 = true → t.powered n = false)) ∧
  (∀ (i : Byte) (s : State), s.aon.supply = true → completes (.ringStatus i) s fun t =>
    t = if s.powered 4 then mctpAnswer s 0x32 i 0 (beBytes 4 (ringStat s) ++ beBytes 4 s.ring.east.stat ++ beBytes 4 s.ring.west.stat)
        else mctpAnswer s 0x32 i 2 [])

/-! ## The timebase, the Girth engine and the Welt links -/

/-- A stitch boundary advances STITCH64 by one and brings pending values of the stitch and of Girth into force; a span
boundary falls on every 200th and brings in those of the span; nothing advances without the supply or REFCLK_SYS, and the
test access port executes any instruction in RESET only. A Girth window evaluates every slot that runs: an output lies where
its set's limits hold it, a disabled slot holds no evaluation, and no lane uses more than 1,800 cycles. The launch at its end
sends a downlink frame to every link that is up and counts an overrun with its bays where slots are unfinished (R203, R204,
R217, R228, R233, R242 to R245, R248, R395, R500, R506). Where the manual leaves a point open, it follows the model's choice
of log 24, 26, 48, 50, 97, 98, 99 and 173. -/
def Obligations.TimeAdvancesAndGirthWindowsLaunch : Prop :=
  (∀ (ms : List MotionSample) (m : MemStitch) (s : State), s.aon.supply = true → s.aon.refSys = true →
    completes (.stitchBoundary ms m) s fun t => t.aon.stitch = s.aon.stitch + 1) ∧
  (∀ (ms : List MotionSample) (m : MemStitch) (s : State), s.aon.supply = true → s.aon.refSys = true → m.issue0 = 0 →
    m.issue1 = 0 → m.accesses = [] → s.mem.waiting = [] → completes (.stitchBoundary ms m) s fun t =>
    (s.mode ≠ .reset → t.mode = s.mode ∧ t.aon = { s.aon with stitch := s.aon.stitch + 1 }) ∧
    (s.mode = .reset → t.mode = .reset ∨ t.mode = .boot) ∧
    (s.mode ≠ .reset → s.powered 18 = false → (∀ b, b < 16 → (s.bay b).overrunDue = false) →
      t.pat = (s.pat.settle [.girth]).settle [.stitch])) ∧
  (∀ (ms : List MotionSample) (m : MemStitch) (s : State), (s.aon.supply = false ∨ s.aon.refSys = false) →
    exec (.stitchBoundary ms m) s = .next s) ∧
  (∀ (p i : Nat) (a b : Fin 5) (x y : Int) (e w : Nat) (s : State), s.aon.supply = true → s.aon.refSys = true →
    s.now % 200 = 0 → completes (.spanBoundary p i a b x y e w) s fun t =>
    t.aon = s.aon ∧ t.eave.power = p ∧ t.eave.codedInput = i ∧ t.eave.bucket = bucketNext s.eave.bucket p ∧
    (s.powered Port.east.domain = true → t.ring.east.fecUncorr = min 255 (s.ring.east.fecUncorr + e)) ∧
    (s.powered Port.west.domain = true → t.ring.west.fecUncorr = min 255 (s.ring.west.fecUncorr + w)) ∧
    (∀ n, n < 16 → (t.bay n).welt.spanMissing = 0) ∧ (s.powered 19 = false → t.pat = s.pat.settle [.span])) ∧
  (∀ (p i : Nat) (a b : Fin 5) (x y : Int) (s : State), s.aon.supply = true → s.aon.refSys = true → s.now % 200 = 0 →
    s.ring.tapped = false → s.mode = .enrol → s.ring.east.pcs = true → s.ring.west.pcs = true →
    s.ring.east.lockAt + 200 ≤ s.now → s.ring.west.lockAt + 200 ≤ s.now → completes (.spanBoundary p i a b x y 0 0) s fun t =>
    t.mgmt.selfTest = true) ∧
  (∀ (p i : Nat) (a b : Fin 5) (x y : Int) (e w : Nat) (s : State), s.now % 200 ≠ 0 →
    exec (.spanBoundary p i a b x y e w) s = .next s) ∧
  (∀ (i : TapInstr) (s : State), s.aon.supply = true → completes (.tapInstruction i) s fun t =>
    t.sent = s.sent ++ [.tap (match i with | .other c => if s.mode = .reset then .other c else .bypass | j => j)
      (if i = .idcode then Config.siliconRev.toNat * 2 ^ 28 + 0x1608 * 2 ^ 12 + Config.jep106.toNat * 2 + 1 else 0)] ∧
    s.changesOnly [.sent] t) ∧
  (∀ s : State, s.powered 17 = true → s.girth.loaded = true → s.girth.windowOpen = false → completes (.girthWindow []) s fun t =>
    t.girth.windowOpen = true ∧ s.girth.maxCyc ≤ t.girth.maxCyc ∧ t.girth.maxCyc ≤ max s.girth.maxCyc 1800 ∧
    t.girth.parity = min 0xFF s.girth.parity ∧
    (∀ i, i < 256 → s.pval 0x0600 i ≠ 1 → (t.slot i).done = false ∧ (t.slot i).live = false) ∧
    (∀ i, i < 256 → (t.slot i).done = true → ∃ raw, (t.slot i).out =
      clampInt (s.pval 0x0609 (8 * i + (t.slot i).gprev)) (s.pval 0x0608 (8 * i + (t.slot i).gprev)) raw) ∧
    s.changesOnly [.girth, .logs, .events] t) ∧
  (∀ (l : List GirthParity) (s : State), s.girth.windowOpen = true → exec (.girthWindow l) s = .next s) ∧
  (∀ s : State, s.girth.windowOpen = true → s.powered 19 = true → completes .downlinkLaunch s fun t =>
    t.girth.overruns = (if lateBays s = [] then s.girth.overruns else min 0xFFFF (s.girth.overruns + 1)) ∧
    (∀ b, b < 16 → t.girth.ovrBay.getLsbD b = (s.girth.ovrBay.getLsbD b || (lateBays s).contains b)) ∧
    (∀ b, b < 16 → (lateBays s).contains b = true → (s.bay b).overrunRow = 2 → (t.bay b).overrunDue = true) ∧
    (∃ fs, t.sent = s.sent ++ fs ∧ ∀ b : BayId, (s.bay b.val).welt.phase = .up →
      Output.lane b 0 (codeBlocks (codeBlocks (s.bay b.val).welt.scr0
        (List.replicate (blocksAt s.now 26250 - (s.bay b.val).welt.sent0) idleBlock)).2
        (frameBlocks (downlinkFrame s b.val))).1 ∈ fs) ∧ s.changesOnly [.girth, .bays, .sent] t) ∧
  (∀ (b : Nat) (s : State), (s.bay b).overrunDue = true → (s.bay b).state = .track →
    (((overrunHold s b).bay b).state = .hold ∨ ((overrunHold s b).bay b).state = .safe) ∧
    ((overrunHold s b).bay b).overrunDue = false) ∧
  (∀ s : State, s.girth.windowOpen = false → exec .downlinkLaunch s = .next s)

/-- Link training goes from block lock through Pings and Echoes to the Identity frame; an attempt that fails is made again,
and the last leaves the link dead and the bay in SAFE. Good uplink frames bring the link up and clear the count of missing
ones; the second missing in a row holds the bay and the eighth retrains the link (R213 to R216, R224). Where the manual
leaves a point open, it follows the model's choice of log 101, 102, 126 and 163. -/
def Obligations.WeltLinksTrainAndCountMissingFrames : Prop :=
  (∀ (b : BayId) (s : State), completes (.ulBlockLock b) s fun t =>
    if (s.bay b.val).welt.phase = .idle then (t.bay b.val).welt = { (s.bay b.val).welt with phase := .pinging, pings := 0 } ∧
      s.onlyBay b.val t ∧ s.changesOnly [.bays] t
    else t = s) ∧
  (∀ (b : BayId) (x : List LaneWord) (l : List Byte) (h : BitVec 58) (u n : Nat) (s : State),
    receiveBlocks (s.bay b.val).welt.ulHist x = (some l, h) → (s.bay b.val).welt.phase = .pinging → l.length = 12 → byteAt l 0 = 0x83 →
    weltCrc l = true → n < (s.bay b.val).welt.pings → Config.pingToken b.val n = BitVec.ofNat 16 (beAt l 2 2) →
    (∀ e ∈ (s.bay b.val).welt.echoes, e.1 ≠ BitVec.ofNat 16 (beAt l 2 2)) → (s.bay b.val).welt.echoes.length < 7 →
    completes (.echo b x u) s fun t =>
    (t.bay b.val).welt = { (s.bay b.val).welt with
      ulHist := h
      echoes := (s.bay b.val).welt.echoes ++ [(BitVec.ofNat 16 (beAt l 2 2), u - beAt l 4 2)] } ∧ s.onlyBay b.val t ∧
    s.changesOnly [.bays] t) ∧
  (∀ (b : BayId) (x : List LaneWord) (l : List Byte) (h : BitVec 58) (s : State),
    receiveBlocks (s.bay b.val).welt.ulHist x = (some l, h) → (s.bay b.val).welt.phase = .params → l.length = 32 → byteAt l 0 = 0x82 →
    weltCrc l = true → beAt l 1 1 / 16 = 1 → beAt l 7 1 = 8 → beAt l 8 2 ≤ 1000 → beAt l 12 1 % 8 = 7 →
    completes (.identity b x) s fun t =>
    (t.bay b.val).welt.companion = some (parseIdentity l) ∧ (t.bay b.val).welt.phase = .frames ∧ (t.bay b.val).welt.good = 0 ∧
    s.onlyBay b.val t ∧ s.changesOnly [.bays] t) ∧
  (∀ (b : BayId) (x : List LaneWord) (l : List Byte) (h : BitVec 58) (s : State),
    receiveBlocks (s.bay b.val).welt.ulHist x = (some l, h) → (s.bay b.val).welt.phase = .params → l.length = 32 → byteAt l 0 = 0x82 →
    weltCrc l = true → beAt l 7 1 ≠ 8 → (s.bay b.val).welt.attempts + 1 < s.pnat 0x0682 b.val → completes (.identity b x) s fun t =>
    (t.bay b.val).welt.phase = .idle ∧ (t.bay b.val).welt.attempts = (s.bay b.val).welt.attempts + 1 ∧
    (t.bay b.val).state = (s.bay b.val).state ∧ s.onlyBay b.val t) ∧
  (∀ (b : BayId) (s : State), (s.bay b.val).welt.phase = .idle → (s.bay b.val).welt.startedAt + 1000 ≤ s.now →
    s.pnat 0x0682 b.val ≤ (s.bay b.val).welt.attempts + 1 → completes (.weltTrainingTimeout b) s fun t =>
    (t.bay b.val).welt.phase = .dead ∧ (t.bay b.val).welt.laserEn = false ∧ (t.bay b.val).state = .safe ∧ s.onlyBay b.val t) ∧
  (∀ (b : BayId) (s : State), s.now < (s.bay b.val).welt.startedAt + 1000 → exec (.weltTrainingTimeout b) s = .next s) ∧
  (∀ (b : BayId) (x : List LaneWord) (l : List Byte) (h : BitVec 58) (s : State),
    receiveBlocks (s.bay b.val).welt.ulHist x = (some l, h) → (s.bay b.val).welt.phase = .frames → uplinkGood s l = true →
    completes (.uplinkStitchFrame b x) s fun t =>
    (t.bay b.val).welt.uplink = parseUplink (s.bay b.val).welt.uplink l ∧ (t.bay b.val).welt.missing = 0 ∧
    (t.bay b.val).welt.good = (s.bay b.val).welt.good + 1 ∧
    (t.bay b.val).welt.phase = (if 15 ≤ (s.bay b.val).welt.good then .up else .frames)) ∧
  (∀ (b : BayId) (x : List LaneWord) (s : State), uplinkGood s ((receiveBlocks (s.bay b.val).welt.ulHist x).1.getD []) = false →
    exec (.uplinkStitchFrame b x) s = exec (.uplinkFrameMissing b)
      (s.modWelt b.val fun w => { w with ulHist := (receiveBlocks (s.bay b.val).welt.ulHist x).2 })) ∧
  (∀ (b : BayId) (s : State), (s.bay b.val).welt.phase = .up → (s.bay b.val).welt.missing = 0 → completes (.uplinkFrameMissing b) s fun t =>
    (t.bay b.val).welt = { (s.bay b.val).welt with missing := 1, spanMissing := (s.bay b.val).welt.spanMissing + 1, good := 0 } ∧
    (s.bay b.val).changesOnly [.welt] (t.bay b.val) ∧ s.onlyBay b.val t ∧ s.changesOnly [.bays] t) ∧
  (∀ (b : BayId) (s : State), (s.bay b.val).welt.phase = .up → (s.bay b.val).welt.missing = 1 → (s.bay b.val).state = .track →
    completes (.uplinkFrameMissing b) s fun t =>
    ((t.bay b.val).state = .hold ∨ (t.bay b.val).state = .safe) ∧ (t.bay b.val).welt.laserEn = false ∧
    (t.bay b.val).welt.hold = true ∧ (t.bay b.val).welt.missing = 2 ∧ s.onlyBay b.val t) ∧
  (∀ (b : BayId) (s : State), (s.bay b.val).welt.phase = .up → (s.bay b.val).welt.missing = 7 → completes (.uplinkFrameMissing b) s fun t =>
    (t.bay b.val).state = .safe ∧ (t.bay b.val).welt.phase = .idle ∧ (t.bay b.val).welt.startedAt = s.now)

/-! ## The read channel and the recovery ladder -/

/-- Without tracking, or outside TRACK, READ and VERIFY, no slot passes; a slot outside a run changes only what the channel
holds; a run whose need has gone ends and leaves the bay in TRACK. Sixteen slots of search raise NO_SYNC, the ridge coasts
and relocks, a seam offset is taken or S7 is decoded one-sided, and samples whose sector is not yet accepted are kept (R107,
R114, R115, R123, R125, R133). Where the manual leaves a point open, it follows the model's choice of log 73, 77, 78, 109 and
152. -/
def Obligations.RunsReadTheirSlotsAndEnd : Prop :=
  (∀ (b : BayId) (o : SlotObs) (s : State), ((s.bay b.val).servo.tracking = false ∨
    ((s.bay b.val).state ≠ .track ∧ (s.bay b.val).state ≠ .read ∧ (s.bay b.val).state ≠ .verify)) →
    exec (.sectorSlotRead b o) s = .next s) ∧
  (∀ (b : BayId) (o : SlotObs) (r : Run) (s : State), (s.bay b.val).state = .read → (s.bay b.val).servo.tracking = true →
    (s.bay b.val).chan.run = some r → (r.zone ≠ o.zone ∨ r.layer ≠ o.layer.val ∨ o.slot < r.first) →
    completes (.sectorSlotRead b o) s fun t =>
    (t.bay b.val).chan.run = some r ∧ (s.bay b.val).changesOnly [.chan] (t.bay b.val) ∧ s.onlyBay b.val t ∧
    s.changesOnly [.bays, .beams, .logs, .events, .freeCtr] t) ∧
  (∀ (b : BayId) (o : SlotObs) (r : Run) (s : State), (s.bay b.val).state = .read → (s.bay b.val).servo.tracking = true →
    (s.bay b.val).mount = none → (s.bay b.val).dibCheck = false → (s.bay b.val).write = none →
    (s.bay b.val).chan.run = some r → r.kind = .read → r.aborted = true → r.zone = o.zone → r.layer = o.layer.val → r.first ≤ o.slot →
    completes (.sectorSlotRead b o) s fun t =>
    (t.bay b.val).chan.run = none ∧ (t.bay b.val).state = .track ∧ t.mode = s.mode ∧ t.courses = s.courses ∧ t.sec = s.sec) ∧
  (∀ (b : BayId) (s : State), (s.bay b.val).chan.fly = .unlocked → 16 ≤ (s.bay b.val).chan.searchSlots →
    completes (.noSync b) s fun t =>
    (t.bay b.val).chan = { (s.bay b.val).chan with searchSlots := 0 } ∧ (t.bay b.val).servo.registered = false ∧
    (s.bay b.val).changesOnly [.chan, .servo] (t.bay b.val) ∧ s.onlyBay b.val t ∧
    s.changesOnly [.bays, .logs, .events, .freeCtr] t) ∧
  (∀ (b : BayId) (s : State), ((s.bay b.val).chan.fly ≠ .unlocked ∨ (s.bay b.val).chan.searchSlots < 16) →
    exec (.noSync b) s = .next s) ∧
  (∀ (b : BayId) (s : State), completes (.ridgeCoastExpiry b) s fun t =>
    (t.bay b.val).chan = { (s.bay b.val).chan with
      ridgeLock := (s.bay b.val).chan.ridgeLock && !(s.bay b.val).chan.ridgeOver } ∧
    (s.bay b.val).changesOnly [.chan] (t.bay b.val) ∧ s.onlyBay b.val t ∧ s.changesOnly [.bays] t) ∧
  (∀ (b : BayId) (s : State), bayRidged (s.bay b.val) = true → (s.bay b.val).chan.ridgeLock = false →
    (s.bay b.val).chan.ridgeCoasting = false → completes (.ridgeRelock b) s fun t =>
    (t.bay b.val).chan = { (s.bay b.val).chan with ridgeLock := true, ridgeOver := false, ridgeCoast := 0 } ∧
    (∀ n, 1 ≤ n → n ≤ 7 → (t.beam (8 * b.val + n)).trLock = true) ∧ s.onlyBay b.val t ∧ s.changesOnly [.bays, .beams] t) ∧
  (∀ (b : BayId) (s : State), (s.bay b.val).chan.run.isSome = true → (s.bay b.val).chan.seamFound = false →
    (s.bay b.val).chan.seamFault = false → seamReady (s.bay b.val).chan = true →
    completes (.seamOffsetSearch b) s fun t =>
    if (seamPeakOf (s.bay b.val).chan).2 < Config.seamThreshold ∨
      seamTooLong { (s.bay b.val).chan with seamDelta := 64 * (seamPeakOf (s.bay b.val).chan).1 } = true then
      (t.bay b.val).chan.seamFault = true ∧ (t.beam (8 * b.val + 7)).eq = 3 ∧ s.onlyBay b.val t ∧
      s.changesOnly [.bays, .beams, .logs, .events, .freeCtr] t
    else
      (t.bay b.val).chan = { (s.bay b.val).chan with
        seamFound := true, seamDelta := 64 * (seamPeakOf (s.bay b.val).chan).1, seamPeak := 64 * (seamPeakOf (s.bay b.val).chan).1 } ∧
      s.onlyBay b.val t ∧ s.changesOnly [.bays] t) ∧
  (∀ (b : BayId) (s : State), ((s.bay b.val).chan.run = none ∨ (s.bay b.val).chan.seamFound = true ∨ (s.bay b.val).chan.seamFault = true ∨
    seamReady (s.bay b.val).chan = false) → exec (.seamOffsetSearch b) s = .next s) ∧
  (∀ (b : BayId) (a : SlotAddr) (r : Retained) (s : State), heldSlot s b.val a = some r → r.ended + 5 ≤ s.now →
    owed s b.val a = true → (s.job? b.val a).isSome = true →
    ((s.bay b.val).chan.retry.any (fun e => e.addr == addrOf a)) = false →
    retryUsed (s.bay b.val).chan + (if a.spiral.val = 7 then 2 else 1) ≤ (s.bay b.val).chan.retrySlots →
    completes (.retryStoreCopy b a) s fun t =>
    (t.bay b.val).chan = { (s.bay b.val).chan with retry := (s.bay b.val).chan.retry ++ [⟨addrOf a, r.kept, true⟩] } ∧
    (s.bay b.val).changesOnly [.chan] (t.bay b.val) ∧ s.onlyBay b.val t ∧ s.changesOnly [.bays] t) ∧
  (∀ (b : BayId) (a : SlotAddr) (r : Retained) (s : State), heldSlot s b.val a = some r → r.ended + 5 ≤ s.now →
    owed s b.val a = true → (s.job? b.val a).isSome = true →
    ((s.bay b.val).chan.retry.any (fun e => e.addr == addrOf a)) = false →
    (s.bay b.val).chan.retrySlots < retryUsed (s.bay b.val).chan + (if a.spiral.val = 7 then 2 else 1) →
    completes (.retryStoreCopy b a) s fun t =>
    (t.beam (8 * b.val + a.spiral.val)).retryFull = true ∧ (t.beam (8 * b.val + a.spiral.val)).retained = none ∧
    (t.bay b.val).chan.retry = (s.bay b.val).chan.retry ∧ s.onlyBay b.val t ∧ s.changesOnly [.bays, .beams, .logs, .events] t)

/-- A report of the codewords sent whose checks all hold gives the sector to every command that waits for it; any other
decides nothing for a command. Each step ends at its limit, the Thatch decode and a re-read pass lead on to the next step,
and a sector with no course to rebuild it is lost (R140 to R151, R158, R168). Where the manual leaves a point open, it
follows the model's choice of log 80, 82, 158, 160 and 161. -/
def Obligations.TheLadderDecidesEverySectorOnce : Prop :=
  (∀ (b : BayId) (a : SlotAddr) (r : DecodeReport) (j : LdpcJob) (l n k : Nat) (m : Bool) (x : Block) (c : SecRec) (s : State),
    s.job? b.val a = some j → fitsJob (iterCap s b.val j) j r = true → j.search = 0 → slotUse s b.val a = .block l n k m →
    jobSector s b.val a = some (x, k, c) → (decodedOf j r).all = true → accepts (expectedOf s x k m) (decodedOf j r).bytes = true →
    completes (.ldpcDecodeDone b a r) s fun t =>
    cmdWants t b.val l n k = false ∧ s.keepsDecided t ∧
    s.changesOnly [.recov, .tags, .logs, .events, .freeCtr, .bays] t) ∧
  (∀ (b : BayId) (a : SlotAddr) (r : DecodeReport) (j : LdpcJob) (l n k : Nat) (m : Bool) (x : Block) (c : SecRec) (s : State),
    s.job? b.val a = some j → fitsJob (iterCap s b.val j) j r = true → j.search = 0 → slotUse s b.val a = .block l n k m →
    jobSector s b.val a = some (x, k, c) →
    ((decodedOf j r).all = false ∨ accepts (expectedOf s x k m) (decodedOf j r).bytes = false) →
    completes (.ldpcDecodeDone b a r) s fun t =>
    t.tags = s.tags ∧ s.changesOnly [.recov, .logs, .events, .freeCtr, .bays, .beams] t) ∧
  (∀ (b : BayId) (a : SlotAddr) (r : DecodeReport) (s : State),
    (∀ j, s.job? b.val a = some j → fitsJob (iterCap s b.val j) j r = false) → exec (.ldpcDecodeDone b a r) s = .next s) ∧
  (∀ (b : BayId) (l : Fin 6) (n k : Nat) (x : Block) (s : State), s.block? b.val l.val n = some x → s.fwRuns = true →
    x.phase = .thatch → x.since + 200 ≤ s.now → completes (.recoveryStepLimit b l n k) s fun t =>
    (∀ y, t.block? b.val l.val n = some y → y.phase ≠ .thatch) ∧ t.tags = s.tags ∧
    s.changesOnly [.recov, .logs, .events, .freeCtr, .bays] t) ∧
  (∀ (b : BayId) (l : Fin 6) (n k : Nat) (x : Block) (s : State), s.block? b.val l.val n = some x → s.fwRuns = true →
    x.phase = .sectors → (x.sec k).state = .decoding → (x.sec k).step = 2 → (x.sec k).since + 80 ≤ s.now →
    completes (.recoveryStepLimit b l n k) s fun t =>
    (∀ y, t.block? b.val l.val n = some y → (y.sec k).state ≠ .decoding ∨ (y.sec k).step = 3) ∧ t.tags = s.tags) ∧
  (∀ (b : BayId) (l : Fin 6) (n k : Nat) (x : Block) (s : State), s.block? b.val l.val n = some x → s.fwRuns = true →
    x.phase = .sectors → (x.sec k).state = .decoding → (x.sec k).step = 3 → (x.sec k).since + 400 ≤ s.now →
    completes (.recoveryStepLimit b l n k) s fun t =>
    (∀ y, t.block? b.val l.val n = some y → (y.sec k).state ≠ .decoding) ∧ t.tags = s.tags) ∧
  (∀ (b : BayId) (l : Fin 6) (n k : Nat) (x : Block) (s : State), s.block? b.val l.val n = some x → x.phase = .sectors →
    ((x.sec k).step = 2 ∧ s.now < (x.sec k).since + 80 ∨ (x.sec k).step = 3 ∧ s.now < (x.sec k).since + 400) →
    exec (.recoveryStepLimit b l n k) s = .next s) ∧
  (∀ (b : BayId) (l : Fin 6) (n k st p a : Nat) (x : Block) (s : State), s.block? b.val l.val n = some x → s.fwRuns = true →
    x.phase = .reread st p → x.resuming = false → x.passAt = some a → a + 10000 ≤ s.now → completes (.recoveryStepLimit b l n k) s fun t =>
    (∀ y, t.block? b.val l.val n = some y → y.phase ≠ .reread st p) ∧ s.keepsDecided t ∧
    s.changesOnly [.recov, .tags, .logs, .events, .freeCtr, .bays, .pat] t) ∧
  (∀ (b : BayId) (l : Fin 6) (n k course i : Nat) (x : Block) (r : Rebuild) (s : State), s.block? b.val l.val n = some x →
    s.fwRuns = true → x.phase = .course → membership s b.val = some (course, i) → s.session? course = some r →
    rowSpent s r (l.val * (bayType s b.val).blocks + n) = true → completes (.recoveryStepLimit b l n k) s fun t =>
    (∀ y, t.block? b.val l.val n = some y → y.phase = .done) ∧ t.tags = s.tags ∧
    s.changesOnly [.recov, .logs, .events, .freeCtr, .bays] t) ∧
  (∀ (b : BayId) (l : Fin 6) (n : Nat) (x : Block) (out : List (Nat × List Byte)) (s : State), s.block? b.val l.val n = some x →
    s.fwRuns = true → x.phase = .thatch → thatchSectors s x = some out → completes (.thatchDecode b l n) s fun t =>
    (∀ e ∈ out, cmdWants t b.val l.val n e.1 = false) ∧ (∀ y, t.block? b.val l.val n = some y → y.phase = .done) ∧ s.keepsDecided t ∧
    s.changesOnly [.recov, .tags, .logs, .events, .freeCtr, .bays] t) ∧
  (∀ (b : BayId) (l : Fin 6) (n : Nat) (x : Block) (s : State), s.block? b.val l.val n = some x → s.fwRuns = true →
    x.phase = .thatch → thatchSectors s x = none → completes (.thatchDecode b l n) s fun t =>
    (∀ y, t.block? b.val l.val n = some y → y.phase ≠ .thatch) ∧ t.tags = s.tags ∧
    s.changesOnly [.recov, .logs, .events, .freeCtr, .bays] t) ∧
  (∀ (b : BayId) (l : Fin 6) (n : Nat) (x : Block) (s : State), s.block? b.val l.val n = some x → x.phase ≠ .thatch →
    exec (.thatchDecode b l n) s = .next s) ∧
  (∀ (b : BayId) (l : Fin 6) (n st p : Nat) (x : Block) (s : State), s.block? b.val l.val n = some x → s.fwRuns = true →
    x.phase = .reread st p → x.passAt.isSome = true → (s.bay b.val).chan.run = none →
    (∀ e ∈ x.secs, e.2.state ≠ .decoding) → (passLeft s x = [] ∨ canRead s b.val = false) → completes (.rereadPassDone b l n) s fun t =>
    (∀ y, t.block? b.val l.val n = some y → y.phase ≠ .reread st p) ∧ s.keepsDecided t ∧
    s.changesOnly [.recov, .tags, .logs, .events, .freeCtr, .bays] t) ∧
  (∀ (b : BayId) (l : Fin 6) (n k : Nat) (x : Block) (s : State), s.block? b.val l.val n = some x → s.fwRuns = true →
    x.phase = .course → courseOpen s b.val = false → x.ruledOut = false → k < (bayType s b.val).blockSectors →
    (x.sec k).state = .failed → cmdWants s b.val l.val n k = true → completes (.courseReconstruction b l n) s fun t =>
    cmdWants t b.val l.val n k = false ∧ s.keepsDecided t ∧ s.changesOnly [.recov, .tags, .logs, .events, .freeCtr, .bays] t) ∧
  (∀ (b : BayId) (l : Fin 6) (n k course i : Nat) (x : Block) (r : Rebuild) (s : State), s.block? b.val l.val n = some x →
    s.fwRuns = true → x.phase = .course → courseOpen s b.val = true → membership s b.val = some (course, i) →
    s.session? course = some r → k < (bayType s b.val).blockSectors → (x.sec k).state = .failed →
    cmdWants s b.val l.val n k = true → completes (.courseReconstruction b l n) s fun t =>
    (∃ r', t.session? course = some r' ∧ r'.rows.contains (l.val * (bayType s b.val).blocks + n) = true) ∧ t.tags = s.tags ∧
    s.changesOnly [.recov, .logs, .events, .freeCtr, .bays] t) ∧
  (∀ (b : BayId) (l : Fin 6) (n : Nat) (x : Block) (s : State), s.block? b.val l.val n = some x →
    (x.phase ≠ .course ∨ courseOpen s b.val = false ∧ x.ruledOut = true) → exec (.courseReconstruction b l n) s = .next s)

/-- A request for a disc that is not answered within DISC_WAIT is closed with DISC_DONE code 0x12; a row is solved only for a
course with a session, and a sector that its members give, or that too few are left to give, waits no more (R160 to R168,
R390). Where the manual leaves a point open, it follows the model's choice of log 83, 140, 157 and 158. -/
def Obligations.RebuildsSolveRowsAndCloseRequests : Prop :=
  (∀ (i : Nat) (r : DiscReq) (s : State), s.recov.requests.find? (fun r => r.id == i) = some r → r.answered = false →
    r.at_ + 200000 * r.wait ≤ s.now → s.tapped = true → completes (.discWaitExpiry i) s fun t =>
    (∃ es, t.events.queue = s.events.queue ++ [⟨2, s.now, beBytes 2 r.id ++ [0x12] ++ beBytes 1 r.member ++ beBytes 8 r.course⟩]
      ++ es) ∧ t.tags = s.tags ∧ s.changesOnly [.recov, .logs, .events, .freeCtr, .bays] t) ∧
  (∀ (i : Nat) (r : DiscReq) (s : State), s.recov.requests.find? (fun r => r.id == i) = some r →
    (r.answered = true ∨ s.now < r.at_ + 200000 * r.wait) → exec (.discWaitExpiry i) s = .next s) ∧
  (∀ (c : Long) (m : Nat) (s : State), (s.session? c.toNat = none ∨ s.fwRuns = false) → exec (.rowSolve c m) s = .next s) ∧
  (∀ (c : Long) (m : Nat) (s : State), completes (.rowSolve c m) s fun t =>
    s.keepsDecided t ∧ s.changesOnly [.recov, .tags, .courses, .logs, .events, .freeCtr, .bays] t) ∧
  (∀ (c : Long) (m i k : Nat) (o : Solved) (r : Rebuild) (s : State), s.fwRuns = true → (harvest s c.toNat m).session? c.toNat = some r →
    r.batch.contains m = true → rowSpent s r m = false →
    ((i, k), o) ∈ solveAll r m (targets (harvest s c.toNat m) c.toNat m) → o ≠ .waiting → completes (.rowSolve c m) s fun t =>
    ∀ d ∈ t.tags, ∀ x ∈ d.sectors, x.outcome = .pending → isTarget t c.toNat m i k d x = false) ∧
  (∀ (r : Rebuild) (m i k : Nat) (ts : List (Nat × Nat)) (ks : List Nat), (r.candidates m ts ks).length < r.d → (i, k) ∈ ts → k ∈ ks →
    ((i, k), Solved.lost) ∈ solveGroup r m ts ks)

/-! ## The write path -/

/-- A session opens on a member that needs one, with the write sequence drawn for it; an unbound disc is bound by 28 copies
of its DIB first, and above the temperature limit the session waits. The blank scan makes what it finds defective, OPC uses
the lowest free unit or keeps the last power, and a run starts from a turn before, when its record, its temperature and its
FIFO allow. A wait beyond RESUME_MAX stops the course (R54, R56, R171, R172, R176 to R179, R182, R194, R199). Where the
manual leaves a point open, it follows the model's choice of log 89, 91, 92, 96 and 162. -/
def Obligations.SessionsOpenMeasureAndStart : Prop :=
  (∀ (b : BayId) (dr : List Word) (c : Course) (d : Disc) (s : State), s.courseOfBay b.val = some c → (s.bay b.val).disc = some d →
    (s.bay b.val).write = none → mayWrite s b.val = true → sessionNeeded s c b.val = true → (s.bay b.val).welt.band.level < 4 →
    Tbl.get 0 c.nextSeq (c.memberAt b.val) ≠ 0 → completes (.sessionOpen b dr) s fun t =>
    (∃ w : WriteSess, (t.bay b.val).write = some w ∧ w.seq = Tbl.get 0 c.nextSeq (c.memberAt b.val) ∧ w.handle = c.handle ∧
      w.layer = (sessionStart d).1 ∧ w.start = (sessionStart d).2 ∧ w.openedAt = s.now ∧
      w.phase = (if d.binding = .unbound ∨ d.dibDue = true then .binding
        else if (sessionStart d).2 < d.dtype.blocks then .blankScan else .ready)) ∧
    (d.binding = .unbound → ∃ e : Disc, (t.bay b.val).disc = some e ∧
      e.binding = .member c.id (c.memberAt b.val) c.d c.p (Tbl.get 0 c.nextSeq (c.memberAt b.val))) ∧
    t.sent = s.sent ++ (if d.binding = .unbound then (List.range 28).map (fun n =>
      .recordSystem b ⟨.leadIn, 0, Fin.ofNat 8 (dibSpiral n), dibSlot true n⟩
        ((slotCells d.dtype (systemSector (lsnRecorded n) (Tbl.get 0 c.nextSeq (c.memberAt b.val))
          (d.dib c.id (c.memberAt b.val) c.d c.p (Tbl.get 0 c.nextSeq (c.memberAt b.val))).bytes) 64).map some)) else []) ∧
    s.changesOnly [.bays, .courses, .sent, .recov, .events, .logs, .freeCtr] t) ∧
  (∀ (b : BayId) (dr : List Word) (c : Course) (d : Disc) (s : State), s.courseOfBay b.val = some c → (s.bay b.val).disc = some d →
    (s.bay b.val).write = none → mayWrite s b.val = true → sessionNeeded s c b.val = true → 4 ≤ (s.bay b.val).welt.band.level →
    completes (.sessionOpen b dr) s fun t =>
    (∃ w : WriteSess, (t.bay b.val).write = some w ∧ w.phase = .waitTemp ∧ w.openedAt = s.now ∧ openSeq (t.bay b.val).write = none) ∧
    (s.bay b.val).changesOnly [.write] (t.bay b.val) ∧ s.onlyBay b.val t ∧ s.changesOnly [.bays] t) ∧
  (∀ (b : BayId) (dr : List Word) (c : Course) (s : State), s.courseOfBay b.val = some c → sessionNeeded s c b.val = false →
    exec (.sessionOpen b dr) s = .next s) ∧
  (∀ (b : BayId) (w : WriteSess) (s : State), (s.bay b.val).write = some w → w.phase = .blankScan → 140 ≤ w.scanBlank →
    mayWrite s b.val = true → completes (.blankScanDone b) s fun t =>
    (t.bay b.val).write = some { w with phase := .opc } ∧
    (s.bay b.val).changesOnly [.write] (t.bay b.val) ∧ s.onlyBay b.val t ∧ s.changesOnly [.bays] t) ∧
  (∀ (b : BayId) (w : WriteSess) (s : State), (s.bay b.val).write = some w → w.scanBlank < 140 → exec (.blankScanDone b) s = .next s) ∧
  (∀ (b n k : Nat) (p : SlotReport) (d : Disc) (w : WriteSess) (s : State), (s.bay b).disc = some d → (s.bay b).write = some w →
    d.dtype.userStart ≤ p.addr.slot → sectorAt d.dtype p.addr.spiral.val (p.addr.slot - d.dtype.userStart) = some (n, k) →
    w.start ≤ n → p.outcome ≠ .blank →
    ((scanTake s b p).bay b).write = some { w with bad := addNew w.bad [addrOf p.addr], scanBlank := 0 }) ∧
  (∀ (b : BayId) (ps : List (Option (Int × Int))) (d : Disc) (w : WriteSess) (s : State), (s.bay b.val).disc = some d →
    (s.bay b.val).write = some w → w.phase = .opc → mayWrite s b.val = true → (∀ c, s.courseOfBay b.val = some c → c.opening = none) →
    completes (.opcDone b [] ps) s fun t =>
    (∃ v : WriteSess, (t.bay b.val).write = some v ∧ v.phase = .ready ∧ v.nextOpc = d.nextOpc.getD w.layer 0 ∧
      v.opcPower = (if d.lastOpc.getD w.layer 0 = 0 then (d.hints.getD w.layer default).startPower else d.lastOpc.getD w.layer 0)) ∧
    t.sent = s.sent ∧ s.onlyBay b.val t) ∧
  (∀ (b : BayId) (u : Nat) (p : Int) (ps : List (Option (Int × Int))) (d : Disc) (w : WriteSess) (s : State),
    (s.bay b.val).disc = some d → (s.bay b.val).write = some w → w.phase = .opc → mayWrite s b.val = true →
    (∀ c, s.courseOfBay b.val = some c → c.opening = none) → d.nextOpc.getD w.layer 0 ≤ u → u < d.dtype.opcUnits →
    opcResult (if d.lastOpc.getD w.layer 0 = 0 then (d.hints.getD w.layer default).startPower else d.lastOpc.getD w.layer 0)
      (d.hints.getD w.layer default) ps = .found p → completes (.opcDone b [u] ps) s fun t =>
    (∃ v : WriteSess, (t.bay b.val).write = some v ∧ v.phase = .ready ∧ v.nextOpc = u + 1 ∧ v.opcPower = p.toNat) ∧
    t.sent = s.sent ++ (List.range 32).map (fun (i : Nat) => .recordOpc b w.layer u i (strategyAt s b.val w.layer (roundDiv (opcStep
      (if d.lastOpc.getD w.layer 0 = 0 then (d.hints.getD w.layer default).startPower else d.lastOpc.getD w.layer 0)
      (d.hints.getD w.layer default) i) 200).toNat) (opcBits d.dtype i)) ∧ s.onlyBay b.val t ∧ s.changesOnly [.bays, .sent] t) ∧
  (∀ (b : BayId) (f o : Nat) (c : Course) (w : WriteSess) (s : State), s.courseOfBay b.val = some c → (s.bay b.val).write = some w →
    w.phase = .ready → w.resumeBy = none → mayWrite s b.val = true → (s.bay b.val).welt.hotStop = false →
    (s.bay b.val).welt.band.level < 4 → readWaits s b.val = false → verifyDue s c b.val w = false →
    w.boundary c.dtype < limitBlock s c b.val w → recordReady s b.val w = true →
    approached s b.val c.dtype (w.nextSlot c.dtype) = true → s.pnat 0x0514 0 ≤ f → completes (.runResume b f o) s fun t =>
    (t.bay b.val).state = .write ∧ (∃ v : WriteSess, (t.bay b.val).write = some v ∧ v.phase = .recording ∧ v.resumeBy = none ∧
      v.j = w.j ∧ v.low = w.boundary c.dtype ∧ v.bad = w.bad) ∧ s.onlyBay b.val t ∧ s.changesOnly [.bays, .courses] t) ∧
  (∀ (b : BayId) (f o : Nat) (c : Course) (w : WriteSess) (s : State), s.courseOfBay b.val = some c → (s.bay b.val).write = some w →
    w.phase = .ready → recordReady s b.val w = true → approached s b.val c.dtype (w.nextSlot c.dtype) = true → f < s.pnat 0x0514 0 →
    exec (.runResume b f o) s = .next s) ∧
  (∀ (b : BayId) (f o : Nat) (c : Course) (w : WriteSess) (s : State), s.courseOfBay b.val = some c → (s.bay b.val).write = some w →
    w.phase = .ready → w.resumeBy = none → mayWrite s b.val = true → (s.bay b.val).welt.hotStop = false →
    (s.bay b.val).welt.band.level < 4 → readWaits s b.val = false → verifyDue s c b.val w = false →
    w.boundary c.dtype < limitBlock s c b.val w → (s.bay b.val).welt.loadReg = none → (s.bay b.val).welt.loadRec ≠ strategy s b.val w →
    completes (.runResume b f o) s fun t =>
    (t.bay b.val).welt.loadRec = strategy s b.val w ∧ (t.bay b.val).welt.loadReg.isSome = true ∧
    (s.bay b.val).changesOnly [.welt] (t.bay b.val) ∧ s.onlyBay b.val t ∧ s.changesOnly [.bays] t) ∧
  (∀ (b : BayId) (c : Course) (w : WriteSess) (r : Nat) (s : State), s.courseOfBay b.val = some c → (s.bay b.val).write = some w →
    (w.phase = .ready ∧ (s.bay b.val).welt.hotStop = true ∨ w.phase = .recording ∨ w.phase = .waitTemp ∧ 4 ≤ (s.bay b.val).welt.band.level) →
    w.resumeBy = some r → r ≤ s.now → c.opening = none → completes (.resumeMaxExpiry b) s fun t =>
    (∀ k ∈ t.courses, k.handle = c.handle → k.stopped = true) ∧ t.mode = s.mode ∧
    s.changesOnly [.courses, .bays, .tags, .qps, .freeCtr] t) ∧
  (∀ (b : BayId) (w : WriteSess) (s : State), (s.bay b.val).write = some w →
    (w.resumeBy = none ∨ w.phase = .ready ∧ (s.bay b.val).welt.hotStop = false) → exec (.resumeMaxExpiry b) s = .next s)

/-- The end of a slot records its sectors as the course has them, channel bit by channel bit and as segments on both lanes,
and a postamble of 64 − e cb, outside 48 to 80 with a stop; an underrun makes the slot's spiral-slots defective; a drain ends
at its block boundary. A segment is verified, what fails is remapped, and the session is ready at the segment's end (R42,
R173 to R175, R180, R185, R187 to R189, R220). Where the manual leaves a point open, it follows the model's choice of log 92,
93, 94 and 163. -/
def Obligations.RunsRecordSlotsAndAreVerified : Prop :=
  (∀ (b : BayId) (e : Int) (f : Nat) (c : Course) (w : WriteSess) (s : State), s.courseOfBay b.val = some c →
    (s.bay b.val).write = some w → (s.bay b.val).state = .write → w.phase = .recording → w.resumeBy = none →
    completes (.writeSlotEnd b e f) s fun t =>
    (∃ ls ms : List Output, (∀ o ∈ ls ++ ms, ∃ n ws, o = Output.lane b n ws) ∧
      t.sent = s.sent ++ (slotSectors c.dtype w).map (fun x => .recordSector b x.2.2 (cutCells w (psaSpiral x.2.2) (userCells c.dtype w x.2.2
        ((c.blockSector (c.memberAt b) (w.base c.dtype + x.1) x.2.1).getD []) (clampInt 48 80 (64 - e)).toNat)))
        ++ ls ++ [.postamble b (clampInt 48 80 (64 - e)).toNat] ++ ms) ∧
    (∃ v : WriteSess, (t.bay b.val).write = some v ∧ v.j = w.j + 1 ∧ v.bad = w.bad ∧
      v.recorded = (w.recorded || !(slotSectors c.dtype w).isEmpty)) ∧
    ((64 - e < 48 ∨ 80 < 64 - e) → (t.bay b.val).state = .track) ∧ s.onlyBay b.val t ∧ s.changesOnly [.bays, .courses, .sent] t) ∧
  (∀ (b : BayId) (e : Int) (f : Nat) (s : State), (s.bay b.val).state ≠ .write → exec (.writeSlotEnd b e f) s = .next s) ∧
  (∀ (b : BayId) (m f : Nat) (c : Course) (w : WriteSess) (s : State), s.courseOfBay b.val = some c → (s.bay b.val).write = some w →
    (s.bay b.val).state = .write → w.phase = .recording → w.resumeBy = none → m < c.dtype.slotLen →
    completes (.fifoUnderrun b m f) s fun t =>
    (∃ v : WriteSess, (t.bay b.val).write = some v ∧ v.j = w.j + 1 ∧ v.panic = true ∧ (∀ x ∈ slotSectors c.dtype w, x.2.2 ∈ v.bad)) ∧
    (f < c.dtype.slotLen * c.dtype.spirals → (t.bay b.val).state = .track) ∧ s.onlyBay b.val t ∧ s.changesOnly [.bays, .sent] t) ∧
  (∀ (b : BayId) (n : Nat) (d : Disc) (w : WriteSess) (s : State), (s.bay b.val).disc = some d → (s.bay b.val).write = some w →
    (s.bay b.val).state = .write → w.phase = .draining n → w.resumeBy = none → 4 * n + 136 ≤ w.j → completes (.drainComplete b) s fun t =>
    (t.bay b.val).state = .track ∧ (∃ v : WriteSess, (t.bay b.val).write = some v ∧ v.phase = .ready ∧ v.j = d.dtype.firstIndex n ∧
      v.bad = w.bad ∧ (v.resumeBy.isSome = (s.bay b.val).welt.hotStop)) ∧
    (s.bay b.val).changesOnly [.state, .write, .servo, .welt] (t.bay b.val) ∧ s.onlyBay b.val t ∧ s.changesOnly [.bays, .sent] t) ∧
  (∀ (b : BayId) (c : Course) (w : WriteSess) (s : State), s.courseOfBay b.val = some c → (s.bay b.val).write = some w →
    w.phase = .ready → w.segment < w.boundary c.dtype → w.boundary c.dtype = segmentEnd c.dtype w.segment → s.fwRuns = true →
    completes (.verifySegmentEnd b) s fun t =>
    (∃ v : WriteSess, (t.bay b.val).write = some v ∧ v.phase = .verifying ∧ v.judged = [] ∧ v.toReplace = [] ∧
      v.took = w.took ∧ v.segment = w.segment) ∧
    s.onlyBay b.val t ∧ s.changesOnly [.bays, .courses] t) ∧
  (∀ (b : BayId) (c : Course) (d : Disc) (w : WriteSess) (s : State), s.courseOfBay b.val = some c → (s.bay b.val).disc = some d →
    (s.bay b.val).write = some w → w.phase = .verifying → (s.bay b.val).chan.run = none →
    verifyAddrs d.dtype w (w.boundary d.dtype) = [] → w.toReplace = [] → w.bad = [] → s.fwRuns = true →
    completes (.verifyPassDone b) s fun t =>
    (∃ v : WriteSess, (t.bay b.val).write = some v ∧ v.phase = .ready ∧ v.segment = w.boundary c.dtype ∧
      v.segmentsDone = w.segmentsDone + 1 ∧ v.entries = w.entries ∧ v.took = [s.pnat 0x0511 0, s.pnat 0x0512 0, s.pnat 0x0513 0]) ∧
    t.sent = s.sent ∧ s.onlyBay b.val t ∧ s.changesOnly [.bays, .courses] t) ∧
  (∀ (b : BayId) (d : Disc) (w : WriteSess) (s : State), (s.bay b.val).disc = some d → (s.bay b.val).write = some w →
    verifyAddrs d.dtype w (w.boundary d.dtype) ≠ [] → exec (.verifyPassDone b) s = .next s) ∧
  (∀ (b : BayId) (c : Course) (w : WriteSess) (h e k : Nat) (s : State), s.courseOfBay b.val = some c →
    (s.bay b.val).write = some w → w.phase = .replacing → mayWrite s b.val = true → w.spares = [⟨h, e, k, .passed⟩] →
    completes (.replacementRunDone b) s fun t =>
    (∃ v : WriteSess, (t.bay b.val).write = some v ∧ v.phase = .ready ∧ v.spares = [] ∧
      v.entries = w.entries ++ [(blockOfAddr c.dtype h, ⟨h, spareAddr c.dtype w.layer e⟩)]) ∧ t.sent = s.sent ∧
    s.onlyBay b.val t ∧ s.changesOnly [.bays, .courses] t) ∧
  (∀ (b : BayId) (c : Course) (w : WriteSess) (h e k : Nat) (s : State), s.courseOfBay b.val = some c →
    (s.bay b.val).write = some w → w.phase = .replacing → mayWrite s b.val = true → w.spares = [⟨h, e, k, .failed⟩] →
    w.took.getD 2 3 ≤ k + 1 → completes (.replacementRunDone b) s fun t =>
    (∃ v : WriteSess, (t.bay b.val).write = some v ∧ v.phase = .ready ∧ v.spares = [] ∧
      v.entries = w.entries ++ [(blockOfAddr c.dtype h, ⟨spareAddr c.dtype w.layer e, noSlot⟩)]) ∧
    (∀ x ∈ t.courses, x.handle = c.handle → x.full = true) ∧ s.onlyBay b.val t ∧ s.changesOnly [.bays, .courses] t) ∧
  (∀ (b : BayId) (w : WriteSess) (x : SpareRec) (s : State), (s.bay b.val).write = some w → x ∈ w.spares →
    (x.state = .waiting ∨ x.state = .recorded) → exec (.replacementRunDone b) s = .next s)

/-- Sessions close together at a common row boundary: each member that has recorded writes its updates, with the next number
and its write sequence; a number that is not blank or not valid is spent, and a second failure of the same content stops the
course (R59, R190 to R192, R199). Where the manual leaves a point open, it follows the model's choice of log 85, 90 and 125.
-/
def Obligations.SessionsCloseWithTheirUpdates : Prop :=
  (∀ (h : Nat) (c : Course) (s : State), s.course? h = some c → s.now < c.lastData + 200000 * s.pnat 0x0515 0 →
    exec (.sessionIdleExpiry h) s = .next s) ∧
  (∀ (h : Nat) (c : Course) (b : BayId) (s : State), s.course? h = some c → c.lastData + 200000 * s.pnat 0x0515 0 ≤ s.now →
    s.fwRuns = true → c.closing = none → c.opening = none → c.stopped = false → b ∈ c.bays → (s.bay b.val).write.isSome →
    completes (.sessionIdleExpiry h) s fun t =>
    (∃ k m, t.course? h = some k ∧ k.closing = some m ∧ c.committed ≤ m ∧ k.bays = c.bays) ∧ s.changesOnly [.courses] t) ∧
  (∀ (h m : Nat) (c : Course) (b : BayId) (w : WriteSess) (s : State), s.course? h = some c → c.closing = some m → s.fwRuns = true →
    (∀ x ∈ c.bays, parked s x.val = false ∧ atClose s c m x.val = true) → b ∈ c.bays → (s.bay b.val).write = some w →
    w.recorded = true → completes (.sessionClose h) s fun t =>
    (∃ v : WriteSess, (t.bay b.val).write = some v ∧ v.phase = .updating ∧ v.seq = w.seq ∧ v.updateTries = 0 ∧
      v.sealDue = (c.sealed && decide (c.rowsBegun ≤ m))) ∧ s.changesOnly [.bays, .courses] t) ∧
  (∀ (h m : Nat) (c : Course) (b : BayId) (s : State), s.course? h = some c → c.closing = some m → b ∈ c.bays →
    parked s b.val = true → exec (.sessionClose h) s = .next s) ∧
  (∀ (b : BayId) (x y : Bool) (c : Course) (d : Disc) (w : WriteSess) (s : State), s.courseOfBay b.val = some c →
    (s.bay b.val).disc = some d → (s.bay b.val).write = some w → w.phase = .updating → mayWrite s b.val = true →
    d.nextUpdate < updateSlots d.issue → completes (.dmaUpdateReadback b true x y) s fun t =>
    ∃ (u : DmaUpdate) (os : List Output), t.sent = s.sent ++ [false, true].flatMap (fun copyB => (List.range 4).map (fun p =>
      .recordSystem b ⟨.leadOut, 0, Fin.ofNat 8 (1 + p), dmaSlot copyB u.number⟩ (linked (decide (0 < u.number)) false
        (slotCells d.dtype (systemSector (lsnUpdate u.number p) u.seq ((u.bytes.drop (4096 * p)).take 4096)) 64)))) ++ os ∧
      u.number = d.nextUpdate ∧
      u.seq = w.seq ∧ u.discId = d.discId ∧ u.entries.length ≤ 2032) ∧
  (∀ (b : BayId) (x y : Bool) (c : Course) (d : Disc) (w : WriteSess) (s : State), s.courseOfBay b.val = some c →
    (s.bay b.val).disc = some d → (s.bay b.val).write = some w → w.phase = .updating → mayWrite s b.val = true →
    d.nextUpdate + 1 < updateSlots d.issue → completes (.dmaUpdateReadback b false x y) s fun t =>
    (t.bay b.val).disc = some { d with nextUpdate := d.nextUpdate + 1 } ∧ (t.bay b.val).write = some w ∧ s.onlyBay b.val t ∧
    s.changesOnly [.bays] t) ∧
  (∀ (b : BayId) (c : Course) (d : Disc) (w : WriteSess) (s : State), s.courseOfBay b.val = some c → (s.bay b.val).disc = some d →
    (s.bay b.val).write = some w → w.phase = .updating → mayWrite s b.val = true → d.nextUpdate + 1 < updateSlots d.issue →
    c.opening = none → completes (.dmaUpdateReadback b true false false) s fun t =>
    (w.updateTries = 0 → (t.bay b.val).disc = some { d with nextUpdate := d.nextUpdate + 1 } ∧
      (t.bay b.val).write = some { w with updateTries := 1 }) ∧
    (1 ≤ w.updateTries → ∀ k ∈ t.courses, k.handle = c.handle → k.stopped = true))

/-! ## The optical servo and the states of a bay -/

/-- Focus: a sweep without capture is made again, and the last ends in SAFE; a capture closes the loop with set 6, 64 settled
stitches lead to tracking or to the next layer jump, a jump not captured in 160 stitches starts focus again, and focus lost
for 8 stitches ends the run (R257 to R260, R263). Where the manual leaves a point open, it follows the model's choice of log
104 and 105. -/
def Obligations.FocusIsAcquiredJumpedAndLost : Prop :=
  (∀ (b : BayId) (s : State), (s.bay b.val).state = .focus → (s.bay b.val).servo.sweeping = true →
    (s.bay b.val).servo.sweepAt + msec (acqVal s b.val 0x0641).toNat ≤ s.now →
    (s.bay b.val).servo.sweeps + 1 < (acqVal s b.val 0x0642).toNat → completes (.focusSweepEnd b) s fun t =>
    (t.bay b.val).servo = { (s.bay b.val).servo with
      sweeps := (s.bay b.val).servo.sweeps + 1
      sweepAt := s.now } ∧ (s.bay b.val).changesOnly [.servo] (t.bay b.val) ∧ s.onlyBay b.val t ∧ s.changesOnly [.bays] t) ∧
  (∀ (b : BayId) (s : State), (s.bay b.val).state = .focus → (s.bay b.val).servo.sweeping = true →
    (s.bay b.val).servo.sweepAt + msec (acqVal s b.val 0x0641).toNat ≤ s.now →
    (acqVal s b.val 0x0642).toNat ≤ (s.bay b.val).servo.sweeps + 1 → (s.bay b.val).mount = none →
    completes (.focusSweepEnd b) s fun t =>
    (t.bay b.val).state = .safe ∧ (t.bay b.val).safeCause = 0x0607 ∧ (t.bay b.val).welt.laserEn = false ∧ s.onlyBay b.val t ∧
    s.changesOnly [.bays, .pat, .sent, .girth, .recov, .logs, .events, .freeCtr] t) ∧
  (∀ (b : BayId) (p r : Nat) (s : State), (s.bay b.val).state = .focus → (s.bay b.val).servo.sweeping = true →
    (acqVal s b.val 0x0643).toNat * 32767 < r * 100 → completes (.focusCapture b p r) s fun t =>
    (t.bay b.val).servo.sweeping = false ∧ (t.bay b.val).servo.focusClosed = true ∧ (t.bay b.val).servo.focusSettling = true ∧
    (t.bay b.val).servo.settled = 0 ∧ (t.bay b.val).servo.layer = 0 ∧ Tbl.get 0 (t.bay b.val).servo.ppf 0 = p ∧
    Tbl.get 0 (t.bay b.val).servo.sref 0 = r ∧ (t.slot b.val).force = 6 ∧
    (s.bay b.val).changesOnly [.servo] (t.bay b.val) ∧ s.onlyBay b.val t ∧ s.changesOnly [.bays, .girth] t) ∧
  (∀ (b : BayId) (p r : Nat) (s : State), r * 100 ≤ (acqVal s b.val 0x0643).toNat * 32767 →
    exec (.focusCapture b p r) s = .next s) ∧
  (∀ (b : BayId) (s : State), (s.bay b.val).servo.jump = none → (s.bay b.val).servo.focusSettling = true →
    64 ≤ (s.bay b.val).servo.settled → completes (.focusSettled b) s fun t =>
    (t.bay b.val).servo.layer = 0 ∧ (t.bay b.val).servo.focusSettling = false ∧ (t.slot b.val).force = 8 ∧
    (if (s.bay b.val).servo.wantLayer = 0 then (t.bay b.val).servo.trackAcq = some s.now ∧ (t.slot (16 + b.val)).force = 8
     else ∃ j, (t.bay b.val).servo.jump = some j ∧ j.src = 0 ∧ j.dest = 1 ∧ j.final = (s.bay b.val).servo.wantLayer ∧
       j.at_ = s.now ∧ j.captured = false) ∧
    s.onlyBay b.val t ∧ s.changesOnly [.bays, .pat, .girth, .logs, .events, .freeCtr] t) ∧
  (∀ (b : BayId) (j : Jump) (s : State), (s.bay b.val).servo.jump = some j → j.captured = true → j.dest = j.final →
    64 ≤ (s.bay b.val).servo.settled → completes (.focusSettled b) s fun t =>
    (t.bay b.val).servo.jump = none ∧ (t.bay b.val).servo.layer = j.dest ∧ (t.bay b.val).servo.trackAcq = some s.now ∧
    s.onlyBay b.val t ∧ s.changesOnly [.bays, .pat, .girth, .logs, .events, .freeCtr] t) ∧
  (∀ (b : BayId) (j : Jump) (p r : Nat) (s : State), (s.bay b.val).servo.jump = some j → j.captured = false → j.phase = 4 →
    s.now ≤ j.at_ + 160 → completes (.layerJumpCapture b p r) s fun t =>
    (t.bay b.val).servo.jump = some { j with
      captured := true
      at_ := s.now } ∧ (t.bay b.val).servo.focusSettling = true ∧ Tbl.get 0 (t.bay b.val).servo.ppf j.dest = p ∧
    Tbl.get 0 (t.bay b.val).servo.sref j.dest = r ∧ (t.slot b.val).force = 7 ∧
    (s.bay b.val).changesOnly [.servo] (t.bay b.val) ∧ s.onlyBay b.val t ∧ s.changesOnly [.bays, .girth] t) ∧
  (∀ (b : BayId) (j : Jump) (s : State), (s.bay b.val).servo.jump = some j → j.captured = false → j.at_ + 160 ≤ s.now →
    completes (.layerJumpTimeout b) s fun t =>
    (t.bay b.val).state = .focus ∧ (t.bay b.val).servo.sweeping = true ∧ (t.bay b.val).servo.wantLayer = j.final ∧
    (t.bay b.val).servo.jump = none ∧ s.onlyBay b.val t ∧ s.changesOnly [.bays, .pat, .girth, .recov] t) ∧
  (∀ (b : BayId) (s : State), 8 ≤ (s.bay b.val).servo.lowSum → (s.bay b.val).state = .read → completes (.focusLoss b) s fun t =>
    (t.bay b.val).state = .focus ∧ (t.bay b.val).servo.sweeping = true ∧ (t.bay b.val).chan.run = none ∧
    (t.bay b.val).servo.wantLayer = (s.bay b.val).servo.layer ∧ s.onlyBay b.val t ∧ s.changesOnly [.bays, .pat, .girth, .recov] t) ∧
  (∀ (b : BayId) (s : State), 8 ≤ (s.bay b.val).servo.lowSum → (s.bay b.val).state = .write → completes (.focusLoss b) s fun t =>
    ((t.bay b.val).state = .hold ∨ (t.bay b.val).state = .safe) ∧ (t.bay b.val).welt.laserEn = false ∧ s.onlyBay b.val t) ∧
  (∀ (b : BayId) (s : State), (s.bay b.val).servo.lowSum < 8 → exec (.focusLoss b) s = .next s)

/-- Tracking: a slow crossing after 100 stitches closes it with set 4, 4,000 without one is a registration failure;
registration that is right takes FOCUS to TRACK, and wrong spirals lead to a track jump. Off-track holds a write run and ends
another; a bay at rest jumps 8 tracks back in each revolution, and a seek starts with the layer (R261 to R268). Where the
manual leaves a point open, it follows the model's choice of log 106, 107 and 172. -/
def Obligations.TrackingRegistersJumpsAndSeeks : Prop :=
  (∀ (b : BayId) (s : State), (s.bay b.val).servo.lowSum < 8 → (s.bay b.val).state = .write → 1 ≤ (s.bay b.val).servo.offCount →
    completes (.offTrack b) s fun t =>
    ((t.bay b.val).state = .hold ∨ (t.bay b.val).state = .safe) ∧ (t.bay b.val).welt.laserEn = false ∧ s.onlyBay b.val t) ∧
  (∀ (b : BayId) (s : State), (s.bay b.val).servo.lowSum < 8 → (s.bay b.val).state = .read → 2 ≤ (s.bay b.val).servo.offCount →
    completes (.offTrack b) s fun t =>
    (t.bay b.val).state = .track ∧ (t.bay b.val).chan.run = none ∧ (t.bay b.val).servo.tracking = false ∧
    (t.bay b.val).servo.trackAcq = some s.now ∧ (t.bay b.val).servo.offCount = 0 ∧ (t.slot (16 + b.val)).force = 8 ∧
    s.onlyBay b.val t ∧ s.changesOnly [.bays, .pat, .girth, .recov] t) ∧
  (∀ (b : BayId) (s : State), (s.bay b.val).servo.offCount = 0 → exec (.offTrack b) s = .next s) ∧
  (∀ (b : BayId) (t0 : Nat) (s : State), (s.bay b.val).servo.trackAcq = some t0 → t0 + 100 ≤ s.now →
    slowCrossing (s.bay b.val).servo (acqVal s b.val 0x0645).toNat = true → completes (.trackingCapture b) s fun t =>
    (t.bay b.val).servo.tracking = true ∧ (t.bay b.val).servo.trackAcq = none ∧
    (t.bay b.val).servo.ppt = spanPpt (s.bay b.val).servo.teSpan ∧
    (t.bay b.val).servo.trackSettling = true ∧ (t.bay b.val).servo.tiltAcq = some s.now ∧ (t.slot (16 + b.val)).force = 4 ∧
    (t.slot (32 + b.val)).force = 4 ∧ (t.slot (64 + b.val)).force = 8 ∧
    (s.bay b.val).changesOnly [.servo, .sled] (t.bay b.val) ∧ s.onlyBay b.val t ∧ s.changesOnly [.bays, .pat, .girth] t) ∧
  (∀ (b : BayId) (t0 : Nat) (s : State), (s.bay b.val).servo.trackAcq = some t0 →
    (s.now < t0 + 100 ∨ slowCrossing (s.bay b.val).servo (acqVal s b.val 0x0645).toNat = false) →
    exec (.trackingCapture b) s = .next s) ∧
  (∀ (b : BayId) (t0 : Nat) (s : State), (s.bay b.val).servo.trackAcq = some t0 → t0 + 4000 ≤ s.now →
    (s.bay b.val).servo.regFails + 1 < s.pnat 0x064D b.val → completes (.trackingAcqTimeout b) s fun t =>
    (t.bay b.val).servo.regFails = (s.bay b.val).servo.regFails + 1 ∧ (t.bay b.val).servo.trackAcq = some s.now ∧
    (s.bay b.val).changesOnly [.servo] (t.bay b.val) ∧ s.onlyBay b.val t ∧ s.changesOnly [.bays, .girth] t) ∧
  (∀ (b : BayId) (t0 : Nat) (s : State), (s.bay b.val).servo.trackAcq = some t0 → t0 + 4000 ≤ s.now →
    s.pnat 0x064D b.val ≤ (s.bay b.val).servo.regFails + 1 → (s.bay b.val).mount = none → (s.bay b.val).state ≠ .safe →
    completes (.trackingAcqTimeout b) s fun t =>
    (if (s.bay b.val).servo.regSeries = 0 then (t.bay b.val).state = .focus ∧ (t.bay b.val).servo.regSeries = 1 ∧
       (t.bay b.val).servo.regFails = 0
     else (t.bay b.val).state = .safe ∧ (t.bay b.val).safeCause = 0x0608) ∧ s.onlyBay b.val t) ∧
  (∀ (b : BayId) (n : BeamId) (w : BitVec 60) (s : State), (s.bay b.val).servo.tracking = true →
    (s.bay b.val).servo.trackSettling = false → (s.bay b.val).servo.trackJump = none → (s.bay b.val).servo.jump = none →
    (s.bay b.val).servo.seek = none → bayRidged (s.bay b.val) = false → awGood w = true → awLayer w = (s.bay b.val).servo.layer →
    awSpiral w = n.val → completes (.registrationCheck b [(n, w)] none) s fun t =>
    (t.bay b.val).servo = { (s.bay b.val).servo with
      registered := true
      regFails := 0
      regSeries := 0
      parkGrid := awGrid w } ∧
    (t.bay b.val).state = (if (s.bay b.val).state = .focus then .track else (s.bay b.val).state) ∧
    (s.bay b.val).changesOnly [.state, .servo] (t.bay b.val) ∧ s.onlyBay b.val t ∧ s.changesOnly [.bays] t) ∧
  (∀ (b : BayId) (n : BeamId) (w : BitVec 60) (s : State), (s.bay b.val).servo.tracking = true →
    (s.bay b.val).servo.trackSettling = false → (s.bay b.val).servo.trackJump = none → (s.bay b.val).servo.jump = none →
    bayRidged (s.bay b.val) = false → awGood w = true → awLayer w = (s.bay b.val).servo.layer → awSpiral w ≠ n.val →
    (s.bay b.val).servo.regFails + 1 < s.pnat 0x064D b.val → completes (.registrationCheck b [(n, w)] none) s fun t =>
    (t.bay b.val).servo.trackJump = some { n := plainFix ((awSpiral w + 8 - n.val) % 8), at_ := s.now, kick := 1
                                           base := (s.slot (16 + b.val)).applied } ∧
    (t.bay b.val).servo.registered = false ∧
    (t.bay b.val).servo.regFails = (s.bay b.val).servo.regFails + 1 ∧ (t.bay b.val).state = (s.bay b.val).state ∧
    s.onlyBay b.val t ∧ s.changesOnly [.bays, .girth] t) ∧
  (∀ (b : BayId) (s : State), exec (.registrationCheck b [] none) s = .next s) ∧
  (∀ (b : BayId) (j : TrackJump) (s : State), (s.bay b.val).servo.trackJump = some j → s.now ≤ j.at_ + 72 + 2 * j.n.natAbs →
    j.phase = 3 → 32 ≤ (s.bay b.val).servo.settled → completes (.trackJumpDone b) s fun t =>
    (t.bay b.val).servo = { (s.bay b.val).servo with trackJump := none } ∧ (t.slot (16 + b.val)).force = 8 ∧
    (t.slot (64 + b.val)).hold = false ∧
    (s.bay b.val).changesOnly [.servo] (t.bay b.val) ∧ s.onlyBay b.val t ∧ s.changesOnly [.bays, .girth] t) ∧
  (∀ (b : BayId) (j : TrackJump) (s : State), (s.bay b.val).servo.trackJump = some j → s.now ≤ j.at_ + 72 + 2 * j.n.natAbs →
    (j.phase ≠ 3 ∨ (s.bay b.val).servo.settled < 32) → exec (.trackJumpDone b) s = .next s) ∧
  (∀ (b : BayId) (j : TrackJump) (s : State), (s.bay b.val).servo.trackJump = some j → j.at_ + 72 + 2 * j.n.natAbs < s.now →
    (s.bay b.val).servo.regFails + 1 < s.pnat 0x064D b.val → completes (.trackJumpDone b) s fun t =>
    (t.bay b.val).servo.trackJump = none ∧ (t.bay b.val).servo.trackAcq = some s.now ∧
    (t.bay b.val).servo.regFails = (s.bay b.val).servo.regFails + 1 ∧
    (s.bay b.val).changesOnly [.servo] (t.bay b.val) ∧ s.onlyBay b.val t ∧ s.changesOnly [.bays, .girth] t) ∧
  (∀ (b : BayId) (s : State), (s.bay b.val).state = .track → (s.bay b.val).chan.run = none → (s.bay b.val).servo.tracking = true →
    (s.bay b.val).servo.seek = none → (s.bay b.val).servo.trackJump = none → (s.bay b.val).servo.jump = none →
    completes (.turnBack b) s fun t =>
    (t.bay b.val).servo.trackJump = some { n := -8, at_ := s.now, kick := 1, base := (s.slot (16 + b.val)).applied } ∧
    (t.bay b.val).chan.fly = .unlocked ∧
    (t.slot (16 + b.val)).applied = sat27 ((s.slot (16 + b.val)).applied - q27 1 4) ∧ (t.slot (64 + b.val)).hold = true ∧
    (s.bay b.val).changesOnly [.servo, .chan] (t.bay b.val) ∧ s.onlyBay b.val t ∧ s.changesOnly [.bays, .girth] t) ∧
  (∀ (b : BayId) (l : Fin 6) (g : Int) (s : State), s.fwRuns = true → (s.bay b.val).state = .track →
    (s.bay b.val).chan.run = none → (s.bay b.val).servo.tracking = true → (s.bay b.val).servo.seek = none →
    l.val = (s.bay b.val).servo.layer → turnsBetween (s.bay b.val).servo.parkGrid g - 1 ≠ 0 →
    (turnsBetween (s.bay b.val).servo.parkGrid g - 1).natAbs ≤ s.pnat 0x0648 b.val → completes (.seek b l g) s fun t =>
    (t.bay b.val).servo.seek = some ⟨l.val, g⟩ ∧ (∃ j, (t.bay b.val).servo.trackJump = some j ∧
      j.n = 8 * (turnsBetween (s.bay b.val).servo.parkGrid g - 1) ∧ j.at_ = s.now ∧ j.phase = 0) ∧
    (s.bay b.val).changesOnly [.servo, .chan] (t.bay b.val) ∧ s.onlyBay b.val t ∧ s.changesOnly [.bays, .girth] t) ∧
  (∀ (b : BayId) (l : Fin 6) (g : Int) (s : State), s.fwRuns = true → (s.bay b.val).state = .track →
    (s.bay b.val).chan.run = none → (s.bay b.val).servo.tracking = true → (s.bay b.val).servo.seek = none →
    l.val ≠ (s.bay b.val).servo.layer → completes (.seek b l g) s fun t =>
    (t.bay b.val).servo.seek = some ⟨l.val, g⟩ ∧ (∃ j, (t.bay b.val).servo.jump = some j ∧ j.src = (s.bay b.val).servo.layer ∧
      j.final = l.val ∧ j.dest = (if (s.bay b.val).servo.layer < l.val then (s.bay b.val).servo.layer + 1
        else (s.bay b.val).servo.layer - 1)) ∧
    (s.bay b.val).changesOnly [.servo, .chan] (t.bay b.val) ∧ s.onlyBay b.val t ∧ s.changesOnly [.bays, .girth] t)

/-- HOLD is left for FOCUS when its conditions hold, and for SAFE after 1 s; SAFE restarts within SAFE_RETRY per hour. The
disc-present line and LD_BUSY_N settle a bay at standstill, and a disc lost while it turns stops the spindle; demand starts
and stops the spindle of a mounted disc (R269, R271, R284, R285, R496). Where the manual leaves a point open, it follows the
model's choice of log 108, 110 and 145. -/
def Obligations.HoldSafeAndPresenceMoveTheBay : Prop :=
  (∀ (b : BayId) (s : State), s.fwRuns = true → (s.bay b.val).state = .hold → (s.bay b.val).holdAt + s.pnat 0x0649 b.val ≤ s.now →
    (s.bay b.val).welt.phase = .up → 16 ≤ (s.bay b.val).welt.good → parityDisabled s b.val = false →
    (s.bay b.val).welt.uplink.holdLatch = true → completes (.holdRelease b) s fun t =>
    (t.bay b.val).state = .focus ∧ (t.bay b.val).servo.sweeping = true ∧
    (t.bay b.val).servo.wantLayer = (s.bay b.val).servo.layer ∧ (t.bay b.val).welt.laserEn = true ∧
    (t.bay b.val).welt.hold = false ∧ s.onlyBay b.val t ∧ s.changesOnly [.bays, .pat, .girth] t) ∧
  (∀ (b : BayId) (s : State), s.now < (s.bay b.val).holdAt + s.pnat 0x0649 b.val → exec (.holdRelease b) s = .next s) ∧
  (∀ (b : BayId) (s : State), s.fwRuns = true → (s.bay b.val).state = .hold → (s.bay b.val).holdAt + 200000 ≤ s.now →
    completes (.holdTimeout b) s fun t =>
    (t.bay b.val).state = .safe ∧ (t.bay b.val).safeCause = 0x0609 ∧ (t.bay b.val).safeAt = s.now ∧ s.onlyBay b.val t) ∧
  (∀ (b : BayId) (s : State), s.now < (s.bay b.val).holdAt + 200000 → exec (.holdTimeout b) s = .next s) ∧
  (∀ (b : BayId) (s : State), s.fwRuns = true → mayRestart s b.val = true →
    (recentStarts s b.val).length < s.pnat 0x064B b.val → completes (.safeRestartStart b) s fun t =>
    (t.bay b.val).state = .spinUp ∧ (t.bay b.val).safeStarts = recentStarts s b.val ++ [s.now] ∧ (t.bay b.val).dibCheck = true ∧
    (s.bay b.val).changesOnly [.state, .restarts, .dibCheck, .spin, .chan] (t.bay b.val) ∧ s.onlyBay b.val t ∧ s.changesOnly [.bays] t) ∧
  (∀ (b : BayId) (s : State), s.fwRuns = true → (s.bay b.val).state = .safe → (s.bay b.val).disc.isSome →
    (s.bay b.val).present = true → (s.bay b.val).releasing = [] → s.pnat 0x064B b.val ≤ (recentStarts s b.val).length →
    exec (.safeRestartStart b) s = .next s) ∧
  (∀ (b : BayId) (s : State), s.powered 18 = true → (s.bay b.val).state = .empty → (s.bay b.val).still = true →
    (s.bay b.val).discPin = false → (s.bay b.val).busyPin = false → (s.bay b.val).disc = none → (s.bay b.val).mount = none →
    completes (.discPresentChange b true) s fun t =>
    (t.bay b.val).state = .loaded ∧ (t.bay b.val).ldPermit = true ∧ (t.bay b.val).discPin = true ∧
    (s.bay b.val).changesOnly [.state, .permit, .pins, .chan] (t.bay b.val) ∧ s.onlyBay b.val t ∧ s.changesOnly [.bays] t) ∧
  (∀ (b : BayId) (s : State), s.powered 18 = true → (s.bay b.val).state = .track → (s.bay b.val).spin.confirmed = true →
    (s.bay b.val).still = false → (s.bay b.val).discPin = true → (s.bay b.val).busyPin = false → (s.bay b.val).mount = none →
    s.courseOfBay b.val = none → completes (.discPresentChange b false) s fun t =>
    (t.bay b.val).state = .spinDown ∧ (t.bay b.val).downAt = s.now ∧ (t.bay b.val).welt.laserEn = false ∧
    (t.bay b.val).disc = (s.bay b.val).disc ∧ s.onlyBay b.val t ∧ s.changesOnly [.bays, .pat, .recov, .logs, .events, .freeCtr] t) ∧
  (∀ (b : BayId) (v : Bool) (s : State), s.powered 18 = false → completes (.discPresentChange b v) s fun t =>
    t.bay b.val = { s.bay b.val with discPin := v } ∧ s.onlyBay b.val t ∧ s.changesOnly [.bays] t) ∧
  (∀ (b : BayId) (s : State), s.powered 18 = true → (s.bay b.val).state = .loaded → (s.bay b.val).still = true →
    (s.bay b.val).present = true → (s.bay b.val).mount = none → completes (.ldBusyChange b true) s fun t =>
    (t.bay b.val).state = .empty ∧ (t.bay b.val).disc = none ∧ (t.bay b.val).busyPin = true ∧ s.onlyBay b.val t ∧
    s.changesOnly [.bays] t) ∧
  (∀ (b : BayId) (s : State), s.fwRuns = true → s.mode.data = true → (s.bay b.val).state = .loaded → (s.bay b.val).disc.isSome →
    (s.bay b.val).outOfService = false → (s.bay b.val).releasing = [] → urgentWaits s b.val = true →
    completes (.demandStart b) s fun t =>
    t.bay b.val = { s.bay b.val with
      state := .spinUp
      dibCheck := true
      ldPermit := false
      chan := { (s.bay b.val).chan with fly := .unlocked, coast := 0 } } ∧ s.onlyBay b.val t ∧ s.changesOnly [.bays] t) ∧
  (∀ (b : BayId) (s : State), waitingSectors s b.val < s.pnat 0x070E b.val → urgentWaits s b.val = false →
    exec (.demandStart b) s = .next s) ∧
  (∀ (b : BayId) (t0 : Nat) (s : State), s.fwRuns = true → (s.bay b.val).spin.idleSince = some t0 → (s.bay b.val).state = .track →
    (s.bay b.val).disc.isSome → (s.bay b.val).mount = none → hasDemand s b.val = false →
    t0 + 200000 * s.pnat 0x070F b.val ≤ s.now → completes (.demandStop b) s fun t =>
    (t.bay b.val).state = .spinDown ∧ (t.bay b.val).downAt = s.now ∧ (t.bay b.val).disc = (s.bay b.val).disc ∧
    s.onlyBay b.val t ∧ s.changesOnly [.bays, .pat, .recov] t) ∧
  (∀ (b : BayId) (s : State), hasDemand s b.val = true → exec (.demandStop b) s = .next s)

/-! ## Spindles, motor bus and sleds -/

/-- A start detects the position and ramps, hands over to closed loop after 64 good stitches, and is made again until
SPIN_START_TRIES failures end in SAFE. Rotor loss ends the run and catches the rotor, overspeed and a failed catch brake in
SAFE; standstill is confirmed after 250 ms without current, and 10 s without it switches the bridges off (R277, R278, R283,
R285 to R289). Where the manual leaves a point open, it follows the model's choice of log 5, 41, 111 and 112. -/
def Obligations.SpindlesStartCatchAndStop : Prop :=
  (∀ (b : BayId) (l m : List Nat) (k : Nat) (s : State), s.powered 18 = true → (s.bay b.val).state = .spinUp →
    (s.bus (groupOf b.val)).bridgesOff = false → (s.bay b.val).still = true → (s.bay b.val).spin.startsRow = 0 →
    detect l = some k → completes (.spindleStart b l m) s fun t =>
    (t.bay b.val).spin.state = .ramp ∧ (t.bay b.val).spin.rampAt = s.now ∧ (t.bay b.val).spin.sector = k ∧
    (t.bay b.val).spin.good = 0 ∧ (t.bay b.val).spin.rampT = s.pnat 0x0709 b.val ∧
    (s.bay b.val).changesOnly [.spin] (t.bay b.val) ∧ s.onlyBay b.val t ∧ s.changesOnly [.bays] t) ∧
  (∀ (b : BayId) (l m : List Nat) (s : State), s.powered 18 = true → (s.bay b.val).state = .spinUp →
    (s.bus (groupOf b.val)).bridgesOff = false → (s.bay b.val).still = true → (s.bay b.val).spin.startsRow = 0 →
    detect l = none → detect m = none → 1 < s.pnat 0x0711 b.val → completes (.spindleStart b l m) s fun t =>
    (t.bay b.val).spin.state = .short ∧ (t.bay b.val).spin.eventAt = s.now ∧ (t.bay b.val).spin.startsRow = 1 ∧
    (t.bay b.val).spin.starts = min 15 ((s.bay b.val).spin.starts + 1) ∧
    (s.bay b.val).changesOnly [.spin] (t.bay b.val) ∧ s.onlyBay b.val t ∧ s.changesOnly [.bays] t) ∧
  (∀ (b : BayId) (l m : List Nat) (s : State), (s.bay b.val).state ≠ .spinUp → exec (.spindleStart b l m) s = .next s) ∧
  (∀ (b : BayId) (s : State), (s.bay b.val).spin.state = .ramp →
    (s.bay b.val).spin.rampAt + 200 * (s.bay b.val).spin.rampT ≤ s.now → 64 ≤ (s.bay b.val).spin.good →
    completes (.handover b) s fun t =>
    (t.bay b.val).spin.state = (if s.mode = .safeStop then .safeStop else .closed) ∧ (t.bay b.val).spin.startsRow = 0 ∧
    (t.bay b.val).spin.ref = (s.bay b.val).spin.rpm * 200000 ∧ (t.slot (80 + b.val)).out = q27 (s.bay b.val).spin.startI 100 ∧
    (s.bay b.val).changesOnly [.spin, .catching] (t.bay b.val) ∧ s.onlyBay b.val t ∧ s.changesOnly [.bays, .girth] t) ∧
  (∀ (b : BayId) (s : State), (s.bay b.val).spin.good < 64 → exec (.handover b) s = .next s) ∧
  (∀ (b : BayId) (s : State), (s.bay b.val).spin.state = .ramp →
    (s.bay b.val).spin.rampAt + 200 * (s.bay b.val).spin.rampT + 200000 ≤ s.now →
    s.pnat 0x0711 b.val ≤ (s.bay b.val).spin.startsRow + 1 → (s.bay b.val).mount = none → (s.bay b.val).state ≠ .safe →
    completes (.startFailure b) s fun t =>
    (t.bay b.val).state = .safe ∧ (t.bay b.val).safeCause = 0x0701 ∧ (t.bay b.val).spin.state = .short ∧ s.onlyBay b.val t) ∧
  (∀ (b : BayId) (s : State), (s.bay b.val).state = .spinUp → (s.bay b.val).still = true → 0 < (s.bay b.val).spin.startsRow →
    (s.bay b.val).spin.stillAt + 40000 ≤ s.now → completes (.startRetry b) s fun t =>
    (t.bay b.val).spin.state = .detect ∧ (t.bay b.val).spin.startsRow = (s.bay b.val).spin.startsRow ∧
    (s.bay b.val).changesOnly [.spin] (t.bay b.val) ∧ s.onlyBay b.val t ∧ s.changesOnly [.bays] t) ∧
  (∀ (b : BayId) (c : RotorCause) (s : State), c ≠ .overspeed → ((s.bay b.val).spin.state = .closed ∨ (s.bay b.val).spin.state = .safeStop) →
    lossHolds (s.bay b.val).spin c = true → ((s.bay b.val).state = .read ∨ (s.bay b.val).state = .write) →
    completes (.rotorLoss b c) s fun t =>
    (t.bay b.val).state = .track ∧ (t.bay b.val).catching = true ∧ (t.bay b.val).spin.state = .catching ∧
    (t.bay b.val).spin.lost = true ∧ (t.bay b.val).spin.eventAt = s.now ∧ (t.bay b.val).chan.run = none ∧
    (t.bay b.val).welt.laserEn = (s.bay b.val).welt.laserEn ∧ s.onlyBay b.val t ∧
    s.changesOnly [.bays, .pat, .recov, .sent, .logs, .events, .freeCtr] t) ∧
  (∀ (b : BayId) (s : State), (s.bay b.val).spin.state = .closed → 2 ≤ (s.bay b.val).spin.overs → (s.bay b.val).state ≠ .safe →
    completes (.rotorLoss b .overspeed) s fun t =>
    (t.bay b.val).state = .safe ∧ (t.bay b.val).safeCause = 0x0702 ∧ (t.bay b.val).spin.state = .short ∧
    (t.bay b.val).spin.lost = true ∧ s.onlyBay b.val t) ∧
  (∀ (b : BayId) (c : RotorCause) (s : State), lossHolds (s.bay b.val).spin c = false → exec (.rotorLoss b c) s = .next s) ∧
  (∀ (b : BayId) (r : Nat) (s : State), (s.bay b.val).spin.state = .catching → s.now ≤ (s.bay b.val).spin.eventAt + 40000 →
    64 ≤ (s.bay b.val).spin.good → 600 ≤ r → completes (.catchLock b r) s fun t =>
    (t.bay b.val).spin.state = (if s.mode = .safeStop then .safeStop else .closed) ∧ (t.bay b.val).spin.rpm = r ∧ (t.bay b.val).spin.ref = r * 200000 ∧
    (t.bay b.val).catching = false ∧ (t.slot (80 + b.val)).out = 0 ∧ s.onlyBay b.val t ∧ s.changesOnly [.bays, .girth] t) ∧
  (∀ (b : BayId) (r : Nat) (s : State), r < 600 → exec (.catchLock b r) s = .next s) ∧
  (∀ (b : BayId) (r : Nat) (s : State), (s.bay b.val).spin.state = .catching → r < 600 → (s.bay b.val).state ≠ .safe →
    completes (.catchFail b r) s fun t =>
    (t.bay b.val).state = .safe ∧ (t.bay b.val).safeCause = 0x0703 ∧ (t.bay b.val).spin.state = .short ∧
    (t.bay b.val).catching = false ∧ (t.bay b.val).welt.laserEn = false ∧ s.onlyBay b.val t) ∧
  (∀ (b : BayId) (s : State), (s.bay b.val).spin.state = .short → (s.bay b.val).spin.eventAt + 50000 ≤ s.now →
    (s.bay b.val).state = .spinDown → (s.bay b.val).releasing = [] → completes (.standstill b) s fun t =>
    (t.bay b.val).still = true ∧ (t.bay b.val).spin.rpm = 0 ∧ (t.bay b.val).spin.stillAt = s.now ∧
    (t.bay b.val).state = (if (s.bay b.val).present then .loaded else .empty) ∧ s.onlyBay b.val t ∧ s.changesOnly [.bays] t) ∧
  (∀ (b : BayId) (s : State), s.now < (s.bay b.val).spin.eventAt + 50000 → exec (.standstill b) s = .next s) ∧
  (∀ (b : BayId) (s : State), (s.bay b.val).spin.state = .short → (s.bay b.val).spin.eventAt + 2000000 ≤ s.now →
    (s.bay b.val).state ≠ .safe → completes (.spinStuck b) s fun t =>
    (t.bay b.val).state = .safe ∧ (t.bay b.val).safeCause = 0x0704 ∧ (t.bay b.val).spin.state = .coast ∧ s.onlyBay b.val t) ∧
  (∀ (b : BayId) (s : State), (s.bay b.val).spin.state = .closed → (s.bay b.val).spin.fine = true →
    16 ≤ (s.bay b.val).spin.fineCount → completes (.atSpeed b) s fun t =>
    (t.bay b.val).spin = { (s.bay b.val).spin with atSpeed := true } ∧ (s.bay b.val).changesOnly [.spin] (t.bay b.val) ∧
    s.onlyBay b.val t ∧ s.changesOnly [.bays] t) ∧
  (∀ (b : BayId) (s : State), (s.bay b.val).state = .safe → (s.bay b.val).spin.state = .closed →
    (s.bay b.val).safeAt + 200000 * s.pnat 0x0710 b.val ≤ s.now → completes (.spinSafeHoldExpiry b) s fun t =>
    (t.bay b.val).spin = { (s.bay b.val).spin with
      state := .safeStop
      atSpeed := false } ∧ (s.bay b.val).changesOnly [.spin] (t.bay b.val) ∧ s.onlyBay b.val t ∧ s.changesOnly [.bays] t) ∧
  (∀ (b : BayId) (r : Nat) (s : State), s.powered 18 = true → (s.bay b.val).spin.confirmed = false →
    (s.bay b.val).state = .spinDown → (s.bay b.val).spin.state ≠ .short → completes (.pd18PowerUp b r) s fun t =>
    (t.bay b.val).spin.state = .short ∧ (t.bay b.val).spin.eventAt = s.now ∧ (t.bay b.val).spin.rpm = r ∧
    (t.bay b.val).ldPermit = false ∧ (t.bay b.val).state = .spinDown ∧ s.onlyBay b.val t ∧ s.changesOnly [.bays] t)

/-- The motor bus acts at its thresholds with their hystereses: chopper, regeneration inhibit, bridges off above 16.5 V and
below 9.5 V with the group's bays in SAFE and the engine constrained, speed limit, and the return with fast spindles caught;
a chopper that does not lower the voltage is off from then on. A half bridge never has both switches on, and one comes on 200
ns or more after the other went off (R290, R291, R296, R313, R399, R494). Where the manual leaves a point open, it follows
the model's choice of log 111 and 116. -/
def Obligations.MotorBusActsAtItsThresholds : Prop :=
  (∀ (g : GroupId) (v : Nat) (s : State), s.powered 18 = true → completes (.busChopperOn g v) s fun t =>
    (t.bus g.val).chopOn = (if 13800 ≤ v ∧ (s.bus g.val).chopFault = false then true
      else if v ≤ 13200 then false else (s.bus g.val).chopOn) ∧
    (t.bus g.val).mv = v ∧ (∀ n, n ≠ g.val → t.bus n = s.bus n) ∧ s.changesOnly [.buses] t) ∧
  (∀ (g : GroupId) (v : Nat) (s : State), s.powered 18 = true → completes (.busRegenInhibit g v) s fun t =>
    (t.bus g.val).regenInh = (if 15000 ≤ v then true else if v ≤ 14400 then false else (s.bus g.val).regenInh) ∧
    (t.bus g.val).events = (if 15000 ≤ v ∧ (s.bus g.val).regenInh = false then min 255 ((s.bus g.val).events + 1)
      else (s.bus g.val).events) ∧
    (∀ b, b / 4 = g.val → (t.bay b).spin.regenInh = ((t.bus g.val).regenInh || (s.bus g.val).chopFault) ∧
      (s.bay b).changesOnly [.spin] (t.bay b)) ∧
    (∀ b, b / 4 ≠ g.val → t.bay b = s.bay b) ∧ (∀ n, n ≠ g.val → t.bus n = s.bus n) ∧ s.changesOnly [.buses, .bays] t) ∧
  (∀ (g : GroupId) (v : Nat) (s : State), s.powered 18 = true → 16500 ≤ v → (s.bus g.val).offOver = false →
    completes (.busOvervolt g v) s fun t =>
    (t.bus g.val).bridgesOff = true ∧ (t.bus g.val).offOver = true ∧
    (t.bus g.val).events = min 255 ((s.bus g.val).events + 1) ∧
    (∀ b, b / 4 = g.val → (t.bay b).state = .safe ∧ (t.bay b).safeCause = 0x0706 ∧ (t.bay b).spin.state = .busOff ∧
      (t.bay b).sled.state = .busOff ∧ (t.bay b).sled.homed = false ∧ (t.bay b).sled.current = 0) ∧
    (∀ b, b / 4 ≠ g.val → t.bay b = s.bay b) ∧ t.mode = (if s.mode = .active then .constrained else s.mode)) ∧
  (∀ (g : GroupId) (v : Nat) (s : State), v < 16500 → exec (.busOvervolt g v) s = .next s) ∧
  (∀ (g : GroupId) (v : Nat) (s : State), s.powered 18 = true → v ≤ 9500 → (s.bus g.val).offUnder = false →
    completes (.busUndervolt g v) s fun t =>
    (t.bus g.val).bridgesOff = true ∧ (t.bus g.val).offUnder = true ∧
    (∀ b, b / 4 = g.val → (t.bay b).state = .safe ∧ (t.bay b).safeCause = 0x0707 ∧ (t.bay b).spin.state = .busOff ∧
      (t.bay b).sled.state = .busOff ∧ (t.bay b).sled.homed = false) ∧
    (∀ b, b / 4 ≠ g.val → t.bay b = s.bay b) ∧ t.mode = (if s.mode = .active then .constrained else s.mode)) ∧
  (∀ (g : GroupId) (v : Nat) (s : State), 9500 < v → exec (.busUndervolt g v) s = .next s) ∧
  (∀ (g : GroupId) (v : Nat) (s : State), s.powered 18 = true → completes (.busLowLimit g v) s fun t =>
    t.bus g.val = { s.bus g.val with
      mv := v
      limited := if v ≤ 10800 then true else if 11200 ≤ v then false else (s.bus g.val).limited } ∧
    (∀ n, n ≠ g.val → t.bus n = s.bus n) ∧ s.changesOnly [.buses] t) ∧
  (∀ (g : GroupId) (v : Nat) (l : List Nat) (s : State), s.powered 18 = true → (s.bus g.val).bridgesOff = true →
    v ≤ 13200 → ((s.bus g.val).offUnder = true → 11200 ≤ v) → completes (.busRecovered g v l) s fun t =>
    (t.bus g.val).bridgesOff = false ∧ (t.bus g.val).offOver = false ∧ (t.bus g.val).offUnder = false ∧
    (∀ b, b / 4 = g.val → (s.bay b).spin.state = .busOff → (t.bay b).spin.state = (if 600 ≤ l.getD (b % 4) 0 then .catching
      else .short) ∧ (t.bay b).spin.eventAt = s.now ∧ (t.bay b).spin.rpm = l.getD (b % 4) 0) ∧
    (∀ b, b / 4 = g.val → (s.bay b).sled.state = .busOff → (t.bay b).sled.state = .notHomed ∧
      (t.bay b).sled.current = s.pnat 0x080F b) ∧
    (∀ b, b / 4 ≠ g.val → t.bay b = s.bay b)) ∧
  (∀ (g : GroupId) (v : Nat) (l : List Nat) (s : State), s.powered 18 = true → (s.bus g.val).bridgesOff = true →
    (s.bus g.val).offOver = true → 13200 < v → completes (.busRecovered g v l) s fun t =>
    (t.bus g.val).bridgesOff = true ∧ (t.bus g.val).offOver = true ∧ t.bays = s.bays) ∧
  (∀ (g : GroupId) (s : State), (s.bus g.val).chopOn = true → (s.bus g.val).chopFault = false →
    (s.bus g.val).chopAt + 400 < s.now → (s.bus g.val).chopAtMv < (s.bus g.val).mv + 100 → completes (.brakeChopperFault g) s fun t =>
    t.bus g.val = { s.bus g.val with
      chopFault := true
      chopOn := false } ∧ (∀ b, b / 4 = g.val → (t.bay b).spin.regenInh = true) ∧
    (∀ b, b / 4 ≠ g.val → t.bay b = s.bay b) ∧ s.changesOnly [.buses, .bays, .logs, .events] t) ∧
  (∀ (g : GroupId) (s : State), s.now ≤ (s.bus g.val).chopAt + 400 → exec (.brakeChopperFault g) s = .next s) ∧
  (∀ (g : GatePair) (ask : Option Bool) (clamp : Bool), (g.high && g.low) = false →
    ((g.tick ask clamp).high && (g.tick ask clamp).low) = false ∧
    ((g.tick ask clamp).high = true → g.high = true ∨ g.low = false ∧ 200 ≤ g.dead) ∧
    ((g.tick ask clamp).low = true → g.low = true ∨ g.high = false ∧ 200 ≤ g.dead) ∧
    (clamp = true → (g.tick ask clamp).high = false ∧ (g.tick ask clamp).low = false))

/-- A sled moves to a target within its soft limits and rests there, homes on the release of its switch, and stops with its
bay in SAFE on a stall, a homing failure or a limit switch it moves towards; a soft limit leaves it homed, and at rest its
current goes down to SLED_IHOLD. A chopper keeps an interval for 0.5 µs, and 10 µs pass between two drives (R296 to R300,
R304, R305, R307, R309 to R313, R315). Where the manual leaves a point open, it follows the model's choice of log 113, 114,
115 and 164. -/
def Obligations.SledsMoveHomeAndStop : Prop :=
  (∀ (b : BayId) (u : Nat) (s : State), sledDriven s b.val = true → (s.bay b.val).sled.homed = true →
    (s.bay b.val).sled.state = .rest → (s.bay b.val).state = .track → completes (.positionMove b u) s fun t =>
    (t.bay b.val).sled.state = .move ∧ (t.bay b.val).sled.target = some (radiusPos (max (s.pnat 0x080B b.val)
      (min u (s.pnat 0x080C b.val)))) ∧ (t.bay b.val).sled.pos = (s.bay b.val).sled.pos ∧
    (t.slot (64 + b.val)).force = 7 ∧ (s.bay b.val).changesOnly [.sled] (t.bay b.val) ∧ s.onlyBay b.val t ∧
    s.changesOnly [.bays, .girth] t) ∧
  (∀ (b : BayId) (u : Nat) (s : State), (s.bay b.val).sled.homed = false → exec (.positionMove b u) s = .next s) ∧
  (∀ (b : BayId) (u : Nat) (s : State), (s.bay b.val).sled.state = .homing → completes (.newTarget b u) s fun t =>
    (t.bay b.val).sled = { (s.bay b.val).sled with
      next := some (radiusPos (max (s.pnat 0x080B b.val) (min u (s.pnat 0x080C b.val)))) } ∧
    (s.bay b.val).changesOnly [.sled] (t.bay b.val) ∧ s.onlyBay b.val t ∧ s.changesOnly [.bays] t) ∧
  (∀ (b : BayId) (u : Nat) (s : State), (s.bay b.val).sled.state = .move → completes (.newTarget b u) s fun t =>
    (t.bay b.val).sled.target = some (radiusPos (max ((s.bay b.val).sled.val 0x080B) (min u ((s.bay b.val).sled.val 0x080C)))) ∧
    (t.bay b.val).sled.pos = (s.bay b.val).sled.pos ∧ (t.bay b.val).sled.speed = (s.bay b.val).sled.speed ∧
    (s.bay b.val).changesOnly [.sled] (t.bay b.val) ∧ s.onlyBay b.val t ∧ s.changesOnly [.bays] t) ∧
  (∀ (b : BayId) (s : State), (s.bay b.val).sled.state = .move → (s.bay b.val).sled.speed = 0 → (s.bay b.val).sled.wait = false →
    (s.bay b.val).sled.target = some (s.bay b.val).sled.pos → (s.bay b.val).servo.seek = none → completes (.moveComplete b) s fun t =>
    (t.bay b.val).sled.state = (if (s.bay b.val).sled.homed then .rest else .notHomed) ∧ (t.bay b.val).sled.target = none ∧
    (t.bay b.val).sled.restAt = s.now ∧ (t.bay b.val).sled.pos = (s.bay b.val).sled.pos ∧
    (s.bay b.val).changesOnly [.sled] (t.bay b.val) ∧ s.onlyBay b.val t ∧ s.changesOnly [.bays] t) ∧
  (∀ (b : BayId) (s : State), (s.bay b.val).sled.target ≠ some (s.bay b.val).sled.pos → exec (.moveComplete b) s = .next s) ∧
  (∀ (b : BayId) (s : State), 8 ≤ (s.bay b.val).sled.stallCount → (s.bay b.val).sled.homePhase = .none →
    (s.bay b.val).state ≠ .safe → completes (.sledStall b) s fun t =>
    (t.bay b.val).state = .safe ∧ (t.bay b.val).safeCause = 0x0801 ∧ (t.bay b.val).sled.stall = true ∧
    (t.bay b.val).sled.homed = false ∧ (t.bay b.val).sled.speed = 0 ∧ s.onlyBay b.val t) ∧
  (∀ (b : BayId) (s : State), 4000 < (s.bay b.val).sled.satCount → (s.bay b.val).servo.tracking = true →
    (s.bay b.val).sled.softLim = true → (s.bay b.val).state ≠ .safe → completes (.sledSoftLimit b) s fun t =>
    (t.bay b.val).state = .safe ∧ (t.bay b.val).safeCause = 0x0802 ∧ (t.bay b.val).sled.stall = true ∧
    (t.bay b.val).sled.homed = (s.bay b.val).sled.homed ∧ s.onlyBay b.val t) ∧
  (∀ (b : BayId) (s : State), (s.bay b.val).sled.softLim = false → exec (.sledSoftLimit b) s = .next s) ∧
  (∀ (b : BayId) (s : State), sledDriven s b.val = true → (s.bay b.val).state = .spinUp →
    (s.bay b.val).sled.homed = false → (s.bay b.val).sled.state = .notHomed → completes (.homing b) s fun t =>
    (t.bay b.val).sled.state = .homing ∧
    (t.bay b.val).sled.homePhase = (if (s.bay b.val).sled.homeSw then .backOff else .search) ∧
    (t.bay b.val).sled.searchFrom = (s.bay b.val).sled.pos ∧ (t.bay b.val).sled.homed = false ∧
    (s.bay b.val).changesOnly [.sled] (t.bay b.val) ∧ s.onlyBay b.val t ∧ s.changesOnly [.bays] t) ∧
  (∀ (b : BayId) (s : State), sledDriven s b.val = false → exec (.homing b) s = .next s) ∧
  (∀ (b : BayId) (s : State), (s.bay b.val).sled.state = .homing → (s.bay b.val).sled.homePhase = .search →
    (s.bay b.val).sled.homeSw = true → completes (.homeEdge b) s fun t =>
    (t.bay b.val).sled = { (s.bay b.val).sled with
      latchP := (s.bay b.val).sled.homeFirst
      homePhase := .slowing } ∧ (s.bay b.val).changesOnly [.sled] (t.bay b.val) ∧ s.onlyBay b.val t ∧ s.changesOnly [.bays] t) ∧
  (∀ (b : BayId) (s : State), (s.bay b.val).sled.homeSw = false → exec (.homeEdge b) s = .next s) ∧
  (∀ (b : BayId) (s : State), (s.bay b.val).sled.state = .homing → (s.bay b.val).sled.homePhase = .backOff →
    16 ≤ (s.bay b.val).sled.inactive → (s.bay b.val).sled.next = none → (s.bay b.val).state ≠ .spinUp →
    completes (.homeRelease b) s fun t =>
    (t.bay b.val).sled.homed = true ∧ (t.bay b.val).sled.state = .rest ∧
    (t.bay b.val).sled.pos = radiusPos ((s.bay b.val).sled.val 0x080A) +
      ((s.bay b.val).sled.pos + 2 ^ 32 - (s.bay b.val).sled.candP) % 2 ^ 32 ∧
    (s.bay b.val).changesOnly [.sled] (t.bay b.val) ∧ s.onlyBay b.val t ∧ s.changesOnly [.bays] t) ∧
  (∀ (b : BayId) (s : State), (s.bay b.val).sled.state = .homing → (s.bay b.val).sled.homePhase = .backOff →
    16 ≤ (s.bay b.val).sled.inactive → (s.bay b.val).sled.next = none → (s.bay b.val).state = .spinUp →
    completes (.homeRelease b) s fun t =>
    (t.bay b.val).sled.homed = true ∧ (t.bay b.val).sled.state = .move ∧ (t.bay b.val).sled.target =
      some (radiusPos (max (s.pnat 0x080B b.val) (min 29050 (s.pnat 0x080C b.val)))) ∧ s.onlyBay b.val t) ∧
  (∀ (b : BayId) (s : State), (s.bay b.val).sled.inactive < 16 → exec (.homeRelease b) s = .next s) ∧
  (∀ (b : BayId) (s : State), (s.bay b.val).sled.state = .homing → (s.bay b.val).sled.homePhase = .search →
    5600 * 256 ≤ posGap (s.bay b.val).sled.searchFrom (s.bay b.val).sled.pos → (s.bay b.val).state ≠ .safe →
    completes (.homeFailure b .notFound) s fun t =>
    (t.bay b.val).state = .safe ∧ (t.bay b.val).safeCause = 0x0804 ∧ (t.bay b.val).sled.homed = false ∧
    (t.bay b.val).sled.state = .emergency ∧ s.onlyBay b.val t) ∧
  (∀ (b : BayId) (w : HomeFault) (s : State), (s.bay b.val).sled.state ≠ .homing → exec (.homeFailure b w) s = .next s) ∧
  (∀ (b : BayId) (s : State), s.powered 18 = true → (s.bay b.val).sled.state ≠ .homing → (s.bay b.val).sled.speed ≠ 0 →
    (s.bay b.val).sled.outward = true → (s.bay b.val).sled.limitSw = true → (s.bay b.val).state ≠ .safe →
    completes (.limitSwitchTrip b .outer) s fun t =>
    (t.bay b.val).state = .safe ∧ (t.bay b.val).safeCause = 0x0807 ∧
    (t.bay b.val).sled.homed = false ∧ (t.bay b.val).sled.speed = 0 ∧ s.onlyBay b.val t) ∧
  (∀ (b : BayId) (s : State), s.powered 18 = true → (s.bay b.val).sled.state ≠ .homing → (s.bay b.val).sled.speed ≠ 0 →
    (s.bay b.val).sled.outward = false → (s.bay b.val).sled.homeSw = true → (s.bay b.val).state ≠ .safe →
    completes (.limitSwitchTrip b .home) s fun t =>
    (t.bay b.val).state = .safe ∧ (t.bay b.val).safeCause = 0x0807 ∧
    (t.bay b.val).sled.homed = false ∧ (t.bay b.val).sled.speed = 0 ∧ s.onlyBay b.val t) ∧
  (∀ (b : BayId) (s : State), ((s.bay b.val).sled.outward = false ∨ (s.bay b.val).sled.limitSw = false) →
    exec (.limitSwitchTrip b .outer) s = .next s) ∧
  (∀ (b : BayId) (s : State), s.powered 18 = true → (s.bay b.val).sled.state = .rest →
    (s.bay b.val).sled.restAt + 200 * s.pnat 0x0810 b.val ≤ s.now → completes (.sledHoldDelayExpiry b) s fun t =>
    (t.bay b.val).sled.curTo = s.pnat 0x080F b.val ∧ (t.bay b.val).sled.state = .rest ∧
    (t.bay b.val).sled.pos = (s.bay b.val).sled.pos ∧ (s.bay b.val).changesOnly [.sled] (t.bay b.val) ∧ s.onlyBay b.val t ∧
    s.changesOnly [.bays] t) ∧
  (∀ (cmd off : Int) (hyst : Nat) (slow : Bool) (c : Chopper) (e : Nat × Int), c.mode ≠ .off → (chopStep cmd hyst off slow c e).mode ≠ c.mode →
    c.since + 500 ≤ e.1 ∧ (chopStep cmd hyst off slow c e).since = e.1 ∧
    ((chopStep cmd hyst off slow c e).mode = .drive → c.mode = .slow ∧ c.driveAt + 10000 ≤ e.1) ∧
    (slow = true → (chopStep cmd hyst off slow c e).mode ≠ .fast))

/-! ## The memory system and Eave -/

/-- DRAM requests: a request late by 50 µs is reissued, three in a row retrain the channel, and a retrain goes on through
quick and full to a self-reset; refreshes and promotions follow their intervals. Errors are corrected or poison the line,
with every stored byte kept, and an access outside every region is only logged (R428 to R430, R432, R440, R443, R444, R447).
Where the manual leaves a point open, it follows the model's choice of log 117, 118, 121 and 165. -/
def Obligations.DramRequestsErrorsAndRefresh : Prop :=
  (∀ (c : Fin 2) (i : Nat) (r : DramReq) (s : State), (s.chan c.val).queue.find? (fun r => r.id == i) = some r →
    (s.chan c.val).state = .up → r.at_ + 10 ≤ s.now → r.timeouts < 2 → (s.chan c.val).rowTimeouts < 2 →
    completes (.dramRequestTimeout c i) s fun t =>
    t.chan c.val = { s.chan c.val with
      timeouts := min 15 ((s.chan c.val).timeouts + 1)
      rowTimeouts := (s.chan c.val).rowTimeouts + 1
      queue := (s.chan c.val).queue.map (fun x => if x.id = i then { x with timeouts := x.timeouts + 1, at_ := s.now } else x) } ∧
    (∀ k, k < 2 → k ≠ c.val → t.chan k = s.chan k) ∧ t.mem.readByte = s.mem.readByte ∧ s.changesOnly [.mem] t) ∧
  (∀ (c : Fin 2) (i : Nat) (r : DramReq) (s : State), (s.chan c.val).queue.find? (fun r => r.id == i) = some r →
    (s.chan c.val).state = .up → r.at_ + 10 ≤ s.now → r.timeouts < 2 → (s.chan c.val).rowTimeouts = 2 →
    completes (.dramRequestTimeout c i) s fun t =>
    (t.chan c.val).state = .quick ∧ (t.chan c.val).quickTries = 1 ∧ (t.chan c.val).rowTimeouts = 0 ∧
    (t.chan c.val).retrains = min 15 ((s.chan c.val).retrains + 1) ∧ s.changesOnly [.mem, .logs, .events] t) ∧
  (∀ (c : Fin 2) (i : Nat) (s : State), (s.chan c.val).state ≠ .up → exec (.dramRequestTimeout c i) s = .next s) ∧
  (∀ (c : Fin 2) (s : State), (s.chan c.val).retraining = true → s.ring.ingest = [] → completes (.dramRetrainDone c true) s fun t =>
    (t.chan c.val).state = .up ∧ (t.chan c.val).quickTries = 0 ∧ (t.chan c.val).rowTimeouts = 0 ∧
    (∀ x ∈ (t.chan c.val).queue, x.at_ = s.now) ∧ (∀ k, k < 2 → k ≠ c.val → t.chan k = s.chan k) ∧ s.changesOnly [.mem] t) ∧
  (∀ (c : Fin 2) (s : State), (s.chan c.val).retraining = true → (∀ k, k < 2 → k ≠ c.val → (s.chan k).retraining = false) →
    completes (.dramRetrainDone c true) s fun t => (t.chan c.val).state = .up ∧ t.ring.ingest = []) ∧
  (∀ (c : Fin 2) (s : State), (s.chan c.val).state = .quick → completes (.dramRetrainDone c false) s fun t =>
    (t.chan c.val).state = (if (s.chan c.val).quickTries < 2 then .quick else .full) ∧
    (t.chan c.val).retrains = min 15 ((s.chan c.val).retrains + 1) ∧ s.changesOnly [.mem, .logs, .events] t) ∧
  (∀ (c : Fin 2) (s : State), (s.chan c.val).state = .full → s.mode.onRing = true → s.mode ≠ .safeStop →
    completes (.dramRetrainDone c false) s fun t =>
    t.mode = .safeStop ∧ t.mgmt.selfReset = some s.now ∧ (t.chan c.val).state = .failed) ∧
  (∀ (c : Fin 2) (s : State), (s.chan c.val).retraining = false → exec (.dramRetrainDone c true) s = .next s) ∧
  (∀ (k : Client) (a : Nat) (l : List Nat) (s : State), sramWord k = none → (s.mem.regionOf a).isSome →
    readOf s.mem (battenAt s.mem a) (a / 64) l = .corrected → (checkLine (battenAt s.mem a) l).residual = [] →
    (∀ r ∈ (s.chan (chanOf (64 * (a / 64)))).queue, r.write = true → r.line ≠ a / 64) → completes (.dramCorrectedError k a l) s fun t =>
    (∀ n, t.mem.readByte n = s.mem.readByte n) ∧ t.mem.poisoned = s.mem.poisoned ∧
    (∃ r ∈ (t.chan (chanOf (64 * (a / 64)))).queue ++ (t.chan (chanOf (64 * (a / 64)))).held, r.line = a / 64 ∧ r.write = true ∧
      r.cls = 4 ∧ r.off = 0 ∧ r.data = s.mem.readBytes (64 * (a / 64)) 64 ∧ r.poison = false ∧ r.client = k) ∧
    s.changesOnly [.mem, .logs, .events] t) ∧
  (∀ (k : Client) (a w : Nat) (l : List Nat) (s : State), sramWord k = some w → completes (.dramCorrectedError k a l) s fun t =>
    s.changesOnly [.logs, .events] t) ∧
  (∀ (k : Client) (a : Nat) (l : List Nat) (s : State), sramWord k = none → (s.mem.regionOf a).isSome → k ≠ .burnisher → k ≠ .merge →
    readOf s.mem (battenAt s.mem a) (a / 64) l = .uncorrectable → completes (.dramUncorrectable k a l) s fun t =>
    ∃ u, t = clientLoss u k a (checkLine (battenAt s.mem a) l) ∧ s.changesOnly [.logs, .events] u) ∧
  (∀ (k : Client) (a w : Nat) (l : List Nat) (s : State), sramWord k = some w → sramVerdict l = .bad →
    completes (.dramUncorrectable k a l) s fun t =>
    ∃ u, t = clientLoss u k a (checkLine false l) ∧ s.changesOnly [.logs, .events] u) ∧
  (∀ (a : Nat) (l : List Nat) (r : DramReq) (s : State), (s.mem.regionOf a).isSome →
    readOf s.mem (battenAt s.mem a) (a / 64) l = .uncorrectable →
    (s.chan (chanOf (64 * (a / 64)))).queue.find? (fun r => r.line == a / 64 && r.merges) = some r →
    completes (.dramUncorrectable .merge a l) s fun t =>
    ∃ u k, t = clientLoss u r.client (64 * (a / 64)) k ∧ a / 64 ∈ u.mem.poisoned ∧
      u.mem.readBytes (64 * (a / 64)) 64 = mergeLine (s.mem.readBytes (64 * (a / 64)) 64) r.off r.data ∧
      s.changesOnly [.mem, .logs, .events] u) ∧
  (∀ (h a : Nat) (k : Course) (m : LineCheck) (s : State), s.course? h = some k →
    ∀ j ∈ (clientLoss s (.writeBuffer h) a m).courses, j.handle = h → j.stopped = true) ∧
  (∀ (k : Client) (a : Nat) (s : State), s.mem.regionOf a = none → completes (.dramUnmapped k a) s fun t =>
    s.changesOnly [.logs, .events] t) ∧
  (∀ (k : Client) (a : Nat) (s : State), (s.mem.regionOf a).isSome → exec (.dramUnmapped k a) s = .next s) ∧
  (∀ (n : Nat) (s : State), nextLine s.mem s.mem.burnLine = some n → s.mgmt.trained0 = true → s.mgmt.trained1 = true →
    burnPaused s n = false → readOf s.mem (battenAt s.mem (64 * n)) n [] = .clean → completes (.burnisherRead []) s fun t =>
    (match nextLine s.mem (n + 1) with
      | some m => t.mem.burnLine = m ∧ t.mem.burnRunning = true ∧ t.mem.burnPasses = s.mem.burnPasses
      | none => t.mem.burnLine = (nextLine s.mem 0).getD 0 ∧ t.mem.burnRunning = false ∧
          t.mem.burnPasses = min 255 (s.mem.burnPasses + 1)) ∧
    t.mem.readByte = s.mem.readByte ∧ s.changesOnly [.mem] t) ∧
  (∀ (l : List Nat) (n : Nat) (s : State), nextLine s.mem s.mem.burnLine = some n → s.mgmt.trained0 = true →
    s.mgmt.trained1 = true → burnPaused s n = false → readOf s.mem (battenAt s.mem (64 * n)) n l = .uncorrectable →
    completes (.burnisherRead l) s fun t =>
    (∃ r ∈ (t.chan (chanOf (64 * n))).queue ++ (t.chan (chanOf (64 * n))).held, r.line = n ∧ r.write = true ∧ r.cls = 4 ∧ r.off = 0 ∧
      r.data = s.mem.readBytes (64 * n) 64 ∧ r.poison = true) ∧
    (∀ a, t.mem.readByte a = s.mem.readByte a) ∧ s.changesOnly [.mem, .logs, .events] t) ∧
  (∀ (l : List Nat) (n : Nat) (s : State), nextLine s.mem s.mem.burnLine = some n → burnPaused s n = true →
    exec (.burnisherRead l) s = .next s) ∧
  (∀ (c : Fin 2) (s : State), (s.chan c.val).state = .up → completes (.refresh c) s fun t =>
    (if panicWaits s c.val = true ∧ (s.chan c.val).postponed < 4 then (t.chan c.val).postponed = (s.chan c.val).postponed + 1 ∧
       (t.chan c.val).refreshes = (s.chan c.val).refreshes
     else (t.chan c.val).postponed = 0 ∧ (t.chan c.val).refreshes = (s.chan c.val).refreshes + (s.chan c.val).postponed + 1 ∧
       (t.chan c.val).hot = (s.chan c.val).nextHot ∧ (t.chan c.val).zqDue = false) ∧ s.changesOnly [.mem] t) ∧
  (∀ (c : Fin 2) (s : State), (s.chan c.val).state = .up → completes (.zqCalibration c) s fun t =>
    t.chan c.val = { s.chan c.val with zqDue := true } ∧ (∀ k, k < 2 → k ≠ c.val → t.chan k = s.chan k) ∧
    s.changesOnly [.mem] t) ∧
  (∀ (c : Fin 2) (i : Nat) (s : State), completes (.agePromotion c i) s fun t =>
    (t.chan c.val).queue = lendAll s.now ((s.chan c.val).queue.map (fun x =>
      if x.id = i ∧ 2 ≤ x.cls ∧ x.cls ≤ 4 ∧ x.classAt + (if x.cls = 4 then 4 else 0) ≤ s.now then
        { x with cls := x.cls - 1, classAt := s.now } else x)) ∧
    (∀ k, k < 2 → k ≠ c.val → t.chan k = s.chan k) ∧ s.changesOnly [.mem] t) ∧
  (∀ (cfg : Nat) (d : DramChan) (r : DramReq), d.pick cfg = some r → r ∈ unblocked [] d.queue ∧
    (∀ x ∈ unblocked [] d.queue, x.cls ≤ 1 → r.cls ≤ x.cls) ∧
    (d.batch = false → (∃ x ∈ d.queue, x.write = false) → r.write = true → r.cls ≤ 1))

/-- Cache maintenance: CLEAN by set and way writes a dirty line of the L2 to DRAM and keeps it, CLEAN+INVALIDATE then drops
it, INVALIDATE drops without writing, a set or way that does not exist sets ERR, and INVALIDATE_ALL acts on a disabled cache
only. A disable walk leaves the cache empty, and errors count, drop the line or restart the complex (R452, R453, R455, R456).
Where the manual leaves a point open, it follows the model's choice of log 120, 123 and 166. -/
def Obligations.CacheMaintenanceAndErrors : Prop :=
  (∀ (c : Fin 2) (w : Word) (l : CacheLine) (s : State), s.powered 1 = true → w.toNat.testBit 6 = true →
    bitsOf w.toNat 5 4 = 3 → s.mem.l2.en = true → bitsOf w.toNat 31 28 < 16 → bitsOf w.toNat 27 16 < 4096 →
    Tbl.get none s.mem.l2.lines (bitsOf w.toNat 27 16 * 16 + bitsOf w.toNat 31 28) = some l → l.dirty = true →
    completes (.clean c w) s fun t =>
    Tbl.get none t.mem.l2.lines (bitsOf w.toNat 27 16 * 16 + bitsOf w.toNat 31 28) = some { l with dirty := false } ∧
    (∃ r ∈ (t.chan (chanOf (64 * l.line))).queue ++ (t.chan (chanOf (64 * l.line))).held, r.line = l.line ∧ r.write = true ∧ r.off = 0 ∧
      r.data = l.data ∧ r.poison = l.poison ∧ r.cls = 2 ∧ r.client = .cacheWrite) ∧
    (∀ n, t.mem.readByte n = s.mem.readByte n) ∧ s.changesOnly [.mem] t) ∧
  (∀ (c : Fin 2) (w : Word) (l : CacheLine) (s : State), s.powered 1 = true → w.toNat.testBit 6 = true →
    bitsOf w.toNat 5 4 = 3 → s.mem.l2.en = true → bitsOf w.toNat 31 28 < 16 → bitsOf w.toNat 27 16 < 4096 →
    Tbl.get none s.mem.l2.lines (bitsOf w.toNat 27 16 * 16 + bitsOf w.toNat 31 28) = some l → l.dirty = true →
    s.mem.l1d0.en = false → s.mem.l1d1.en = false → completes (.cleanInvalidate c w) s fun t =>
    Tbl.get none t.mem.l2.lines (bitsOf w.toNat 27 16 * 16 + bitsOf w.toNat 31 28) = none ∧
    (∃ r ∈ (t.chan (chanOf (64 * l.line))).queue ++ (t.chan (chanOf (64 * l.line))).held, r.line = l.line ∧ r.write = true ∧ r.off = 0 ∧
      r.data = l.data ∧ r.poison = l.poison ∧ r.cls = 2 ∧ r.client = .cacheWrite) ∧
    (∀ n, t.mem.readByte n = s.mem.readByte n) ∧ s.changesOnly [.mem] t) ∧
  (∀ (c : Fin 2) (w : Word) (s : State), completes (.invalidate c w) s fun t =>
    t.mem.cells = s.mem.cells ∧ t.mem.poisoned = s.mem.poisoned ∧ s.changesOnly [.mem] t) ∧
  (∀ (c : Fin 2) (w : Word) (s : State), s.powered 1 = true → w.toNat.testBit 6 = true → bitsOf w.toNat 5 4 = 3 →
    s.mem.l2.en = true → bitsOf w.toNat 31 28 < 16 → bitsOf w.toNat 27 16 < 4096 → completes (.invalidate c w) s fun t =>
    Tbl.get none t.mem.l2.lines (bitsOf w.toNat 27 16 * 16 + bitsOf w.toNat 31 28) = none) ∧
  (∀ (c : Fin 2) (w : Word) (s : State), s.powered 1 = true → w.toNat.testBit 6 = true → bitsOf w.toNat 5 4 = 2 →
    128 ≤ bitsOf w.toNat 27 16 → ∀ i ∈ [Instr.clean c w, .invalidate c w, .cleanInvalidate c w], completes i s fun t =>
    (t.cache (.l1d c)).err = true ∧ (t.cache (.l1d c)).lines = (s.cache (.l1d c)).lines ∧ t.mem.readByte = s.mem.readByte ∧
    s.changesOnly [.mem] t) ∧
  (∀ (c : Fin 2) (w : Word) (s : State), s.powered 1 = true → bitsOf w.toNat 5 4 = 3 → completes (.invalidateAll c w) s fun t =>
    (if s.mem.l2.en then t.mem.l2 = { s.mem.l2 with err := true }
     else t.mem.l2 = { s.mem.l2 with
       lines := []
       invDone := true
       lfsr := 0xACE1 }) ∧ t.mem.readByte = s.mem.readByte ∧ s.changesOnly [.mem] t) ∧
  (∀ (c : Fin 2) (w : Word) (s : State), s.powered 1 = true → bitsOf w.toNat 5 4 = 0 → completes (.invalidateAll c w) s fun t =>
    (∀ k, (t.cache k).err = true ∧ (t.cache k).lines = (s.cache k).lines) ∧ s.changesOnly [.mem] t) ∧
  (∀ (k : Cache) (s : State), (s.cache k).walking = true → completes (.cacheDisableWalkDone k) s fun t =>
    (t.cache k).walking = false ∧ (t.cache k).invDone = true ∧ (t.cache k).lines = [] ∧ s.changesOnly [.mem] t) ∧
  (∀ (k : Cache) (s : State), (s.cache k).walking = false → exec (.cacheDisableWalkDone k) s = .next s) ∧
  (∀ (c : Fin 2) (x y : Nat) (s : State), s.powered 1 = true → x < 128 → y < 4 → completes (.cacheError (.l1i c) .l1iParity x y) s fun t =>
    Tbl.get none (t.cache (.l1i c)).lines (x * 4 + y) = none ∧ (t.cache (.l1i c)).par = min 255 ((s.cache (.l1i c)).par + 1) ∧
    t.mem.readByte = s.mem.readByte ∧ s.changesOnly [.mem, .logs, .events, .freeCtr] t) ∧
  (∀ (c : Fin 2) (x y : Nat) (l : CacheLine) (s : State), s.powered 1 = true → s.mode.firmware = true → x < 128 → y < 4 →
    Tbl.get none (s.cache (.l1d c)).lines (x * 4 + y) = some l → l.dirty = true →
    (s.aon.restarts.filter (fun t => s.now < t + 120000000)).length < 2 → completes (.cacheError (.l1d c) .l1dParity x y) s fun t =>
    t.mgmt.restarting = true ∧ t.sec.sessions = [] ∧ (t.cache (.l1d c)).lines = [] ∧
    (t.cache (.l1d c)).fatal = min 255 ((s.cache (.l1d c)).fatal + 1) ∧ t.mode = s.mode) ∧
  (∀ (x y n : Nat) (w : Fin 8) (s : State), s.powered 1 = true → x < 4096 → y < 16 → n < 72 →
    completes (.cacheError .l2 (.l2Data w [n]) x y) s fun t =>
    t.mem.l2.par = min 255 (s.mem.l2.par + 1) ∧ (∀ i, Tbl.get none t.mem.l2.lines i = Tbl.get none s.mem.l2.lines i) ∧
    (∀ k ≠ Cache.l2, t.cache k = s.cache k) ∧ t.mem.readByte = s.mem.readByte ∧
    s.changesOnly [.mem, .logs, .events, .freeCtr] t) ∧
  (∀ (x y : Nat) (w : Fin 8) (e : List Nat) (l : CacheLine) (s : State), s.powered 1 = true → x < 4096 → y < 16 → l2Verdict e = .bad →
    Tbl.get none s.mem.l2.lines (x * 16 + y) = some l → l.dirty = false → completes (.cacheError .l2 (.l2Data w e) x y) s fun t =>
    Tbl.get none t.mem.l2.lines (x * 16 + y) = none ∧ t.mem.l2.par = min 255 (s.mem.l2.par + 1) ∧
    t.mem.readByte = s.mem.readByte ∧ s.changesOnly [.mem, .logs, .events, .freeCtr] t) ∧
  (∀ (k : Cache) (f : CacheFault) (x y : Nat) (s : State), (cacheSets k ≤ x ∨ cacheWays k ≤ y) →
    exec (.cacheError k f x y) s = .next s)

/-- A sample sets Tmax and the step that the readings ask for, and a second sample at 115.0 °C takes the engine to DARK. The
dwell and the 60 s change the step by one. Step 3 parks groups one by one, at 105.0 °C all of them, and the cap parks its
own; a parked group's beams are off but b0, and groups come back one by one in the reverse order (R468, R470, R473 to R475).
Where the manual leaves a point open, it follows the model's choice of log 45 to 48. -/
def Obligations.EaveStepsAndParksGroups : Prop :=
  (∀ (l : List (Fin 16 × Int)) (s : State), s.aon.supply = false → exec (.eaveSample l) s = .next s) ∧
  (∀ (l : List (Fin 16 × Int)) (i : Nat) (s : State), s.aon.supply = true → s.mode ≠ .dark →
    tripped (takeReadings s l).eave = some i → completes (.eaveSample l) s fun t =>
    t.mode = .dark ∧ t.aon.tripSensor = i ∧ t.aon.cause = 5 ∧ t.aon.power = 1 ∧ t.aon.stitch = s.aon.stitch) ∧
  (∀ (l : List (Fin 16 × Int)) (s : State), s.aon.supply = true → tripped (takeReadings s l).eave = none →
    (noteSample (takeReadings s l)).eave.step < stepAsked (noteSample (takeReadings s l)) → completes (.eaveSample l) s fun t =>
    t.eave.step = stepAsked (noteSample (takeReadings s l)) ∧ t.eave.sensors = (takeReadings s l).eave.sensors ∧
    t.eave.tmax = (takeReadings s l).eave.tmax ∧ (t.eave.step = 4 → t.mode = .safeStop)) ∧
  (∀ (l : List (Fin 16 × Int)) (s : State), s.aon.supply = true → tripped (takeReadings s l).eave = none →
    s.eave.step = 0 → stepAsked (noteSample (takeReadings s l)) = 0 → completes (.eaveSample l) s fun t =>
    t.eave.step = 0 ∧ t.mode = s.mode ∧ (∀ i, i < 16 → (t.eave.sensor i).tj ≤ t.eave.tmax) ∧
    s.changesOnly [.eave, .logs, .events] t) ∧
  (∀ (t0 : Nat) (s : State), s.eave.coolSince = some t0 → (s.eave.step = 1 ∨ s.eave.step = 2) → t0 + 2000000 ≤ s.now →
    completes .eaveReleaseDwell s fun t =>
    t.eave.step = s.eave.step - 1 ∧ t.eave.sensors = s.eave.sensors ∧ s.changesOnly [.mode, .eave, .logs, .events, .mgmt, .freeCtr] t) ∧
  (∀ (t0 : Nat) (s : State), s.eave.coolSince = some t0 → s.now < t0 + 2000000 → exec .eaveReleaseDwell s = .next s) ∧
  (∀ s : State, s.eave.step = 1 → s.eave.step1Hot = true → s.eave.allRead = true → s.eave.step1At + 12000000 ≤ s.now →
    completes .step1SixtySecondExpiry s fun t =>
    t.eave.step = 2 ∧ t.mode = (if s.mode = .active then .constrained else s.mode) ∧
    s.changesOnly [.mode, .eave, .logs, .events, .mgmt, .freeCtr] t) ∧
  (∀ s : State, s.now < s.eave.step1At + 12000000 → exec .step1SixtySecondExpiry s = .next s) ∧
  (∀ (g : GroupId) (s : State), s.fwRuns = true → s.eave.step = 3 → s.eave.gov < 1680 → s.eave.parkedBy false = [] →
    nextGroup s = some g → completes .groupPark s fun t =>
    t.eave.parked = s.eave.parked ++ [(g, false)] ∧ t.eave.parkAt = s.now ∧
    (∀ b n, b / 4 = g.val → 1 ≤ n → n ≤ 7 → (t.beam (8 * b + n)).trLock = false) ∧
    (∀ b, b / 4 = g.val → t.beam (8 * b) = s.beam (8 * b)) ∧ (∀ b, b / 4 ≠ g.val → t.bay b = s.bay b) ∧
    t.mode = s.mode ∧ s.changesOnly [.eave, .bays, .beams, .logs, .events] t) ∧
  (∀ s : State, s.fwRuns = true → s.eave.step = 3 → 1680 ≤ s.eave.gov → completes .groupPark s fun t =>
    (∀ g : GroupId, t.eave.parked.any (fun p => p.1 == g) = true) ∧ s.changesOnly [.eave, .bays, .beams, .logs, .events] t) ∧
  (∀ (g : GroupId) (s : State), s.fwRuns = true → s.eave.step = 3 → 1664 ≤ s.eave.gov → s.eave.parkedBy false ≠ [] →
    s.eave.parkAt + 1000000 ≤ s.now → nextGroup s = some g → completes .groupParkRepeat s fun t =>
    t.eave.parked = s.eave.parked ++ [(g, false)] ∧ s.changesOnly [.eave, .bays, .beams, .logs, .events] t) ∧
  (∀ s : State, s.now < s.eave.parkAt + 1000000 → exec .groupParkRepeat s = .next s) ∧
  (∀ (g : GroupId) (s : State), s.fwRuns = true → capParkDue s = true → nextGroup s = some g → completes .capParkTimer s fun t =>
    t.eave.parked = s.eave.parked ++ [(g, true)] ∧ s.changesOnly [.eave, .bays, .beams, .logs, .events] t) ∧
  (∀ s : State, capParkDue s = false → exec .capParkTimer s = .next s) ∧
  (∀ (g : GroupId) (u : Nat) (s : State), s.fwRuns = true → s.eave.unparkSince = some u → u + 2000000 ≤ s.now →
    (s.eave.parkedBy false).getLast? = some g → s.eave.step ≠ 3 → completes .groupUnpark s fun t =>
    t.eave.parked = s.eave.parked.filter (fun p => p.1 != g) ∧ t.eave.unparkSince = some s.now ∧
    t.eave.step = s.eave.step ∧ t.mode = s.mode ∧ s.changesOnly [.eave, .beams, .logs, .events] t) ∧
  (∀ s : State, s.eave.parked = [] → exec .groupUnpark s = .next s)

/-! ## The machine as a whole -/

/-- A step takes the command at the front of the queue and runs it on the state whose queue is the rest; on an empty queue
the block idles, which is the model's choice (log 1). The table gives its rows no bits: no word spells a command. -/
def Obligations.StepRunsTheFrontCommandOnTheRestOfTheQueue : Prop :=
  (∀ (c : Instr) (rest : List Instr) (s : State), s.pending = c :: rest → step s = exec c { s with pending := rest }) ∧
  (∀ (c : Instr) (s : State), step { s with pending := c :: s.pending } = exec c s) ∧
  (∀ s : State, s.pending = [] → step s = .next s) ∧
  (∀ n w : Nat, decodeTableWord n w = none ∧ ∀ s : State, s.withFetchWord n w = s)

/-- Every command answers a next state in every state: none ends in a fault or in a refusal. -/
def Obligations.EveryCommandAnswersANextState : Prop :=
  ∀ (c : Instr) (s : State), ∃ t, exec c s = .next t

/-- Reset: RESET mode with PD0 alone on, no frame, command, course, key or session, DRAM in canonical form reading 0
everywhere, and the bounds of the stores (R203, R403, R427, R467, R479). The value of unwritten DRAM is the model's choice
(log 18). -/
def Obligations.ResetStandsInItsInvariants : Prop :=
  State.reset.mode = .reset ∧ State.reset.pending = [] ∧ State.reset.aon.stitch = 0 ∧ State.reset.eave.bucket = 0 ∧
  State.reset.resetCause = 0 ∧ State.reset.domainsFit ∧ State.reset.mem.wf = true ∧ (∀ a, State.reset.mem.readByte a = 0) ∧
  State.reset.courses = [] ∧ State.reset.tags = [] ∧ State.reset.sec.sessions = [] ∧ State.reset.ring.tapped = false ∧
  State.reset.Bounded

/-- Every command keeps DRAM in its canonical form: addresses strictly rising, and no byte listed that reads as an unlisted
one does. Where the manual leaves a point open, it follows the model's choice of log 18 and 134. -/
def Obligations.MemoryStaysInItsCanonicalForm : Prop :=
  ∀ s t : State, s.mem.wf = true → step s = .next t → t.mem.wf = true

/-- The mode changes only as R400's table has it: after a step it is the mode before, or one that the table reaches from it,
with ACTIVE passed on the way to CONSTRAINED (R399, R400). -/
def Obligations.ModesChangeOnlyAlongTheTable : Prop :=
  ∀ s t : State, step s = .next t → t.mode = s.mode ∨ modeStep s.mode t.mode = true

/-- The power domains follow the mode: where the domains that are on are those of the mode, they are so after every step
(R464). -/
def Obligations.DomainsFollowTheMode : Prop :=
  ∀ s t : State, s.domainsFit → step s = .next t → t.domainsFit

/-! ## The lanes of a Welt link -/

/-- What the scrambler sends the descrambler of the same polynomial gives back, with the same 58 bits after it; a frame of an
uplink type, of that type's length, comes out of the receiver as it went in, whatever the scrambler held; the CRC of a sealed
frame holds, and a segment is a start block, a 40-byte header and 200 stream blocks of eight bytes (R210 to R212, R218,
R220). The zeros that fill a frame's last data block are the model's choice (log 163). -/
def Obligations.LaneBlocksSurviveCodingAndReceiver : Prop :=
  (∀ (h : BitVec 58) (w : Long), laneBits h (laneScramble h w).1 = (w, (laneScramble h w).2)) ∧
  (∀ (h : BitVec 58) (x : LaneBlock), x.bytes.length = 8 →
    wordBytes (laneBits h (x.coded h).1.word).1 = x.bytes ∧ (x.coded h).1.head = (if x.control then 2 else 1)) ∧
  (∀ (h : BitVec 58) (l : List Byte), 0 < l.length → uplinkLen (byteAt l 0).toNat = l.length →
    receiveBlocks h (codeBlocks h (frameBlocks l)).1 = (some l, (codeBlocks h (frameBlocks l)).2)) ∧
  (∀ (h : BitVec 58) (x : LaneWord) (f : Option (Nat × Nat × List Byte)) (d : Option (List Byte)), x.head ≠ 1 → x.head ≠ 2 →
    (LaneRx.take ⟨h, f, d⟩ x).frame = f ∧ (LaneRx.take ⟨h, f, d⟩ x).done = d) ∧
  (∀ l : List Byte, weltCrc (weltSeal l) = true) ∧
  (∀ (gates : List (List (Bool × Nat))) (sw : Option (Nat × Nat)), gates.length = 4 →
    (segmentHeader gates sw).length = 40 ∧ weltCrc (segmentHeader gates sw) = true) ∧
  (∀ (n k : Nat) (w : Bool) (beams : List (List (Option Bool))) (open0 : List Bool) (sw : Option (Nat × Nat)),
    (segmentBlocks n k w beams open0 sw).length = 206 ∧ (segmentBlocks n k w beams open0 sw).head? = some (segmentStart n k w)) ∧
  (∀ (open0 : Bool) (cells : List (Option Bool)),
    (gateChanges open0 cells).2 = ((cells.map (·.isSome)).getLast?).getD open0)
end

