-- ==== Sys2Proof/Laws/Bytes.lean ====
section
/-! SUPPORT. Bytes and link frames: a number's bytes read back as it, and a sealed frame passes its check. -/

namespace Sys2Proof.Laws

open Sys2Proof Sys2Proof.Machine

/-- A number's big-endian bytes read back as it (R8). -/
theorem beNat_beBytes : ∀ n v : Nat, v < 256 ^ n → beNat (beBytes n v) = v := by
  intro n v h
  simp only [beNat, beBytes, List.reverse_reverse]
  induction n generalizing v with
  | zero => simp [leBytes, leNat]; omega
  | succ n ih =>
    simp only [leBytes, leNat]
    rw [ih _ (by rw [Nat.pow_succ] at h; omega)]
    simp [byteOf]
    omega

theorem beBytes_length (n v : Nat) : (beBytes n v).length = n := by
  simp only [beBytes, List.length_reverse]
  induction n generalizing v with
  | zero => rfl
  | succ n ih => simp [leBytes, ih]

/-- A sealed link frame passes its check (R212). -/
theorem weltCrc_weltSeal (l : List Byte) : weltCrc (weltSeal l) = true := by
  have h : crc32c l < 256 ^ 4 := by unfold crc32c; exact BitVec.isLt _
  simp [weltCrc, weltSeal, beBytes_length, beNat_beBytes 4 _ h]

theorem leNat_lt : ∀ l : List Byte, leNat l < 256 ^ l.length
  | [] => by simp [leNat]
  | b :: r => by
    have h := leNat_lt r
    have hb : b.toNat < 256 := b.isLt
    simp only [leNat, List.length_cons, pow_succ]
    omega
/-- Bytes come back from the number that they stand for. -/
theorem leBytes_leNat : ∀ l : List Byte, leBytes l.length (leNat l) = l
  | [] => rfl
  | b :: r => by
    have hb : b.toNat < 256 := b.isLt
    have h1 : (b.toNat + 256 * leNat r) / 256 = leNat r := by omega
    simp only [List.length_cons, leBytes, leNat, h1, leBytes_leNat r]
    congr 1
    apply BitVec.eq_of_toNat_eq
    simp only [byteOf, BitVec.toNat_ofNat]
    omega

end Sys2Proof.Laws
end

