-- ==== Sys2Proof/Laws/Lanes.lean ====
section
/-! SUPPORT. The descrambler of a lane undoes its scrambler, and a block comes back (R210). -/

namespace Sys2Proof.Laws

open Sys2Proof Sys2Proof.Machine

theorem laneMask (i : Nat) : (0x7FFFFFFFFF#64).getLsbD i = decide (i < 39) := by
  have h : ∀ j : Fin 64, (0x7FFFFFFFFF#64).getLsbD j.val = decide (j.val < 39) := by decide
  by_cases hi : i < 64
  · exact h ⟨i, hi⟩
  · rw [BitVec.getLsbD_of_ge _ _ (by omega)]; simp; omega

/-- What the scrambler sends, the descrambler gives back from the same 58 bits (R210). -/
theorem laneBits_laneScramble (h : BitVec 58) (w : Long) : (laneBits h (laneScramble h w).1).1 = w := by
  apply BitVec.eq_of_getLsbD_eq
  intro i hi
  simp only [laneBits, laneScramble, BitVec.getLsbD_xor, BitVec.getLsbD_or, BitVec.getLsbD_and, BitVec.truncate_eq_setWidth,
    BitVec.getLsbD_setWidth, BitVec.getLsbD_ushiftRight, BitVec.getLsbD_shiftLeft, BitVec.getLsbD_not, laneMask]
  have e0 : i < 122 := by omega
  have e1 : 19 + i < 122 := by omega
  by_cases a : i < 39
  · have e2 : i < 58 := by omega
    have e3 : 19 + i < 58 := by omega
    simp only [hi, e0, e1, a, e2, e3, decide_true, Bool.not_true, Bool.and_false, Bool.false_and, Bool.or_false, Bool.true_and, Bool.and_true]
    generalize w.getLsbD i = p; generalize h.getLsbD (19 + i) = q; generalize h.getLsbD i = r
    cases p <;> cases q <;> cases r <;> rfl
  · have e3 : ¬ 19 + i < 58 := by omega
    have e4 : 19 + i - 58 < 39 := by omega
    have e5 : 19 + i - 58 < 64 := by omega
    have e6 : 19 + i - 58 < 122 := by omega
    simp only [hi, e0, e1, a, e3, e4, e5, e6, decide_true, decide_false, Bool.not_true, Bool.not_false, Bool.and_false,
      Bool.or_false, Bool.true_and, Bool.and_true, Bool.false_or]
    have key : ∀ w a b : Bool, (((w ^^ a) ^^ b) ^^ a ^^ b) = w := by decide
    by_cases c : i < 58
    · simp only [c, decide_true, Bool.not_true, Bool.false_and, Bool.or_false]
      exact key _ _ _
    · have c1 : i - 58 < 39 := by omega
      have c2 : i - 58 < 64 := by omega
      have c3 : i - 58 < 122 := by omega
      simp only [c, c1, c2, c3, decide_true, decide_false, Bool.not_true, Bool.not_false, Bool.true_and, Bool.and_true, Bool.and_false,
        Bool.or_false]
      exact key _ _ _

/-- A block of eight bytes comes out of the descrambler as it went into the scrambler (R210). -/
theorem laneBits_coded (h : BitVec 58) (x : LaneBlock) (hl : x.bytes.length = 8) :
    wordBytes (laneBits h (x.coded h).1.word).1 = x.bytes := by
  have h1 : (x.coded h).1.word = (laneScramble h (blockWord x.bytes)).1 := rfl
  have h2 : x.bytes.take 8 = x.bytes := by rw [← hl]; exact List.take_length
  have h3 := leNat_lt x.bytes
  rw [h1, laneBits_laneScramble]
  unfold wordBytes blockWord
  rw [h2, BitVec.toNat_ofNat, Nat.mod_eq_of_lt (by rw [hl] at h3; exact h3), ← hl]
  exact leBytes_leNat _

end Sys2Proof.Laws
end

