-- ==== Sys2Proof/Laws/Table.lean ====
section
/-! SUPPORT. The laws of the finite tables: reading after writing, and that writing keeps the canonical form. -/

namespace Sys2Proof.Laws

open Sys2Proof

variable {β : Type}

@[simp] theorem Tbl_get_nil (d : β) (k : Nat) : Tbl.get d [] k = d := rfl

/-- Erasing an index leaves its default there. -/
theorem Tbl_get_erase_same (d : β) (t : Tbl β) (k : Nat) : Tbl.get d (Tbl.erase t k) k = d := by
  induction t with
  | nil => rfl
  | cons p r ih =>
    obtain ⟨i, v⟩ := p
    by_cases h : i = k
    · simp [Tbl.erase, h, ih]
    · simp [Tbl.erase, h, Tbl.get, ih]

/-- Erasing an index leaves the others. -/
theorem Tbl_get_erase_other (d : β) (t : Tbl β) {k n : Nat} (hn : n ≠ k) :
    Tbl.get d (Tbl.erase t k) n = Tbl.get d t n := by
  induction t with
  | nil => rfl
  | cons p r ih =>
    obtain ⟨i, v⟩ := p
    by_cases h : i = k
    · subst h
      simp [Tbl.erase, Tbl.get, ih, Ne.symm hn]
    · by_cases hi : i = n
      · subst hi; simp [Tbl.erase, h, Tbl.get]
      · simp [Tbl.erase, h, Tbl.get, hi, ih]

/-- An index inserted where none of it stands. -/
theorem Tbl_get_insert (d : β) (t : Tbl β) (k : Nat) (v : β) (n : Nat) (h : Tbl.erase t k = t) :
    Tbl.get d (Tbl.insert t k v) n = if n = k then v else Tbl.get d t n := by
  induction t with
  | nil =>
    by_cases hn : n = k
    · simp [Tbl.insert, Tbl.get, hn]
    · simp [Tbl.insert, Tbl.get, hn, Ne.symm hn]
  | cons p r ih =>
    obtain ⟨i, w⟩ := p
    have hik : i ≠ k := by
      rintro rfl
      have hlen : ∀ (l : Tbl β) (m : Nat), (Tbl.erase l m).length ≤ l.length := by
        intro l m
        induction l with
        | nil => simp [Tbl.erase]
        | cons q l ihl =>
          obtain ⟨a, b⟩ := q
          by_cases ha : a = m <;> simp [Tbl.erase, ha] <;> omega
      have h1 : (Tbl.erase r i).length = r.length + 1 := by
        have := congrArg List.length h
        simpa [Tbl.erase] using this
      have := hlen r i
      omega
    have hr : Tbl.erase r k = r := by simpa [Tbl.erase, hik] using h
    by_cases hlt : k < i
    · by_cases hn : n = k
      · subst hn; simp [Tbl.insert, hlt, Tbl.get]
      · simp [Tbl.insert, hlt, Tbl.get, hn, Ne.symm hn]
    · by_cases hi : i = n
      · subst hi; simp [Tbl.insert, hlt, Tbl.get, hik]
      · simp [Tbl.insert, hlt, Tbl.get, hi, ih hr]

/-- Erasing twice erases once. -/
@[simp] theorem Tbl_erase_erase (t : Tbl β) (k : Nat) : Tbl.erase (Tbl.erase t k) k = Tbl.erase t k := by
  induction t with
  | nil => rfl
  | cons p r ih =>
    obtain ⟨i, v⟩ := p
    by_cases h : i = k <;> simp [Tbl.erase, h, ih]

/-- Above a smaller bound. -/
theorem Tbl_above_mono {a b : Nat} {t : Tbl β} (hab : a ≤ b) (h : Tbl.above b t = true) : Tbl.above a t = true := by
  cases t with
  | nil => rfl
  | cons p r => obtain ⟨i, v⟩ := p; simp only [Tbl.above, decide_eq_true_eq] at *; omega

/-- Inserting keeps a lower bound. -/
theorem Tbl_above_insert {a : Nat} (t : Tbl β) (k : Nat) (v : β) (h : Tbl.above a t = true) (hk : a < k) :
    Tbl.above a (Tbl.insert t k v) = true := by
  cases t with
  | nil => simpa [Tbl.insert, Tbl.above] using hk
  | cons p r =>
    obtain ⟨i, w⟩ := p
    have hai : a < i := by simpa [Tbl.above] using h
    by_cases hlt : k < i <;> simp [Tbl.insert, hlt, Tbl.above, hk, hai]

/-- No entry of an erased index remains. -/
theorem Tbl_erase_absent (t : Tbl β) (k : Nat) : ∀ e ∈ Tbl.erase t k, e.1 ≠ k := by
  induction t with
  | nil => simp [Tbl.erase]
  | cons p r ih =>
    obtain ⟨i, v⟩ := p
    by_cases h : i = k
    · simpa [Tbl.erase, h] using ih
    · intro e he
      simp only [Tbl.erase, h, if_false, List.mem_cons] at he
      rcases he with rfl | he
      · exact h
      · exact ih e he

variable [DecidableEq β]

/-- A read after a write, at any index. -/
theorem Tbl_get_set (d : β) (t : Tbl β) (k n : Nat) (v : β) :
    Tbl.get d (Tbl.set d t k v) n = if n = k then v else Tbl.get d t n := by
  unfold Tbl.set
  by_cases hv : v = d
  · by_cases hn : n = k
    · subst hn; simp [hv, Tbl_get_erase_same]
    · simp [hv, hn, Tbl_get_erase_other d t hn]
  · rw [if_neg hv, Tbl_get_insert d _ k v n (Tbl_erase_erase t k)]
    by_cases hn : n = k
    · simp [hn]
    · simp [hn, Tbl_get_erase_other d t hn]

@[simp] theorem Tbl_get_set_same (d : β) (t : Tbl β) (k : Nat) (v : β) : Tbl.get d (Tbl.set d t k v) k = v := by
  simp [Tbl_get_set]

theorem Tbl_get_set_other (d : β) (t : Tbl β) {k n : Nat} (v : β) (h : n ≠ k) :
    Tbl.get d (Tbl.set d t k v) n = Tbl.get d t n := by simp [Tbl_get_set, h]

@[simp] theorem Tbl_get_upd_same (d : β) (t : Tbl β) (k : Nat) (f : β → β) :
    Tbl.get d (Tbl.upd d t k f) k = f (Tbl.get d t k) := by simp [Tbl.upd]

theorem Tbl_get_upd_other (d : β) (t : Tbl β) {k n : Nat} (f : β → β) (h : n ≠ k) :
    Tbl.get d (Tbl.upd d t k f) n = Tbl.get d t n := by simp [Tbl.upd, Tbl_get_set, h]

/-- What a canonical table's head and tail satisfy. -/
theorem Tbl_wf_cons (d : β) (i : Nat) (v : β) (r : Tbl β) :
    Tbl.wf d ((i, v) :: r) = true ↔ v ≠ d ∧ Tbl.above i r = true ∧ Tbl.wf d r = true := by
  simp [Tbl.wf, and_assoc]

/-- Erasing keeps a bound. -/
theorem Tbl_above_erase {a : Nat} (d : β) (t : Tbl β) (k : Nat) (hw : Tbl.wf d t = true) (h : Tbl.above a t = true) :
    Tbl.above a (Tbl.erase t k) = true := by
  induction t generalizing a with
  | nil => rfl
  | cons p r ih =>
    obtain ⟨i, v⟩ := p
    obtain ⟨-, ha, hr⟩ := (Tbl_wf_cons d i v r).1 hw
    have hai : a < i := by simpa [Tbl.above] using h
    by_cases hk : i = k
    · simpa [Tbl.erase, hk] using ih hr (Tbl_above_mono (Nat.le_of_lt hai) ha)
    · simpa [Tbl.erase, hk, Tbl.above] using hai

/-- Erasing keeps the canonical form. -/
theorem Tbl_wf_erase (d : β) (t : Tbl β) (k : Nat) (hw : Tbl.wf d t = true) : Tbl.wf d (Tbl.erase t k) = true := by
  induction t with
  | nil => rfl
  | cons p r ih =>
    obtain ⟨i, v⟩ := p
    obtain ⟨hv, ha, hr⟩ := (Tbl_wf_cons d i v r).1 hw
    by_cases hk : i = k
    · simpa [Tbl.erase, hk] using ih hr
    · simp only [Tbl.erase, hk, if_false]
      exact (Tbl_wf_cons d i v _).2 ⟨hv, Tbl_above_erase d r k hr ha, ih hr⟩

/-- Inserting an absent index keeps the canonical form. -/
theorem Tbl_wf_insert (d : β) (t : Tbl β) (k : Nat) (v : β) (hv : v ≠ d) (hw : Tbl.wf d t = true)
    (hk : ∀ e ∈ t, e.1 ≠ k) : Tbl.wf d (Tbl.insert t k v) = true := by
  induction t with
  | nil => simp [Tbl.insert, Tbl.wf, hv, Tbl.above]
  | cons p r ih =>
    obtain ⟨i, w⟩ := p
    obtain ⟨hw', ha, hr⟩ := (Tbl_wf_cons d i w r).1 hw
    by_cases hlt : k < i
    · simp only [Tbl.insert, hlt, if_true]
      exact (Tbl_wf_cons d k v _).2 ⟨hv, by simpa [Tbl.above] using hlt, hw⟩
    · have hne : i ≠ k := hk (i, w) (by simp)
      simp only [Tbl.insert, hlt, if_false]
      exact (Tbl_wf_cons d i w _).2 ⟨hw', Tbl_above_insert r k v ha (by omega),
        ih hr (fun e he => hk e (by simp [he]))⟩

/-- Writing keeps the canonical form. -/
theorem Tbl_wf_set (d : β) (t : Tbl β) (k : Nat) (v : β) (hw : Tbl.wf d t = true) :
    Tbl.wf d (Tbl.set d t k v) = true := by
  unfold Tbl.set
  by_cases hv : v = d
  · simpa [hv] using Tbl_wf_erase d t k hw
  · rw [if_neg hv]
    exact Tbl_wf_insert d _ k v hv (Tbl_wf_erase d t k hw) (Tbl_erase_absent t k)

/-- Updating keeps the canonical form. -/
theorem Tbl_wf_upd (d : β) (t : Tbl β) (k : Nat) (f : β → β) (hw : Tbl.wf d t = true) :
    Tbl.wf d (Tbl.upd d t k f) = true := Tbl_wf_set d t k _ hw

end Sys2Proof.Laws
end

