-- ==== Sys2Proof/Laws/State.lean ====
section
/-! SUPPORT. The small lemmas of State: for every named update, the fields it leaves, true by `rfl`, and what the update's
own part reads afterwards; and the algebra of frames. -/

namespace Sys2Proof.Laws

open Sys2Proof Sys2Proof.Machine

/-! ## What an update leaves -/

@[simp] theorem setBay_mode (s : State) (b : Nat) (v : Bay) : (s.setBay b v).mode = s.mode := rfl
@[simp] theorem setBay_aon (s : State) (b : Nat) (v : Bay) : (s.setBay b v).aon = s.aon := rfl
@[simp] theorem setBay_mgmt (s : State) (b : Nat) (v : Bay) : (s.setBay b v).mgmt = s.mgmt := rfl
@[simp] theorem setBay_eave (s : State) (b : Nat) (v : Bay) : (s.setBay b v).eave = s.eave := rfl
@[simp] theorem setBay_pat (s : State) (b : Nat) (v : Bay) : (s.setBay b v).pat = s.pat := rfl
@[simp] theorem setBay_logs (s : State) (b : Nat) (v : Bay) : (s.setBay b v).logs = s.logs := rfl
@[simp] theorem setBay_events (s : State) (b : Nat) (v : Bay) : (s.setBay b v).events = s.events := rfl
@[simp] theorem setBay_adminQ (s : State) (b : Nat) (v : Bay) : (s.setBay b v).adminQ = s.adminQ := rfl
@[simp] theorem setBay_qps (s : State) (b : Nat) (v : Bay) : (s.setBay b v).qps = s.qps := rfl
@[simp] theorem setBay_lastQp (s : State) (b : Nat) (v : Bay) : (s.setBay b v).lastQp = s.lastQp := rfl
@[simp] theorem setBay_turns (s : State) (b : Nat) (v : Bay) : (s.setBay b v).turns = s.turns := rfl
@[simp] theorem setBay_tags (s : State) (b : Nat) (v : Bay) : (s.setBay b v).tags = s.tags := rfl
@[simp] theorem setBay_orders (s : State) (b : Nat) (v : Bay) : (s.setBay b v).orders = s.orders := rfl
@[simp] theorem setBay_sec (s : State) (b : Nat) (v : Bay) : (s.setBay b v).sec = s.sec := rfl
@[simp] theorem setBay_ring (s : State) (b : Nat) (v : Bay) : (s.setBay b v).ring = s.ring := rfl
@[simp] theorem setBay_girth (s : State) (b : Nat) (v : Bay) : (s.setBay b v).girth = s.girth := rfl
@[simp] theorem setBay_beams (s : State) (b : Nat) (v : Bay) : (s.setBay b v).beams = s.beams := rfl
@[simp] theorem setBay_buses (s : State) (b : Nat) (v : Bay) : (s.setBay b v).buses = s.buses := rfl
@[simp] theorem setBay_recov (s : State) (b : Nat) (v : Bay) : (s.setBay b v).recov = s.recov := rfl
@[simp] theorem setBay_courses (s : State) (b : Nat) (v : Bay) : (s.setBay b v).courses = s.courses := rfl
@[simp] theorem setBay_nextHandle (s : State) (b : Nat) (v : Bay) : (s.setBay b v).nextHandle = s.nextHandle := rfl
@[simp] theorem setBay_mem (s : State) (b : Nat) (v : Bay) : (s.setBay b v).mem = s.mem := rfl
@[simp] theorem setBay_freeCtr (s : State) (b : Nat) (v : Bay) : (s.setBay b v).freeCtr = s.freeCtr := rfl
@[simp] theorem setBay_readData (s : State) (b : Nat) (v : Bay) : (s.setBay b v).readData = s.readData := rfl
@[simp] theorem setBay_sent (s : State) (b : Nat) (v : Bay) : (s.setBay b v).sent = s.sent := rfl
@[simp] theorem setBay_pending (s : State) (b : Nat) (v : Bay) : (s.setBay b v).pending = s.pending := rfl

@[simp] theorem modBay_mode (s : State) (b : Nat) (f : Bay → Bay) : (s.modBay b f).mode = s.mode := rfl
@[simp] theorem modBay_aon (s : State) (b : Nat) (f : Bay → Bay) : (s.modBay b f).aon = s.aon := rfl
@[simp] theorem modBay_mgmt (s : State) (b : Nat) (f : Bay → Bay) : (s.modBay b f).mgmt = s.mgmt := rfl
@[simp] theorem modBay_eave (s : State) (b : Nat) (f : Bay → Bay) : (s.modBay b f).eave = s.eave := rfl
@[simp] theorem modBay_pat (s : State) (b : Nat) (f : Bay → Bay) : (s.modBay b f).pat = s.pat := rfl
@[simp] theorem modBay_logs (s : State) (b : Nat) (f : Bay → Bay) : (s.modBay b f).logs = s.logs := rfl
@[simp] theorem modBay_events (s : State) (b : Nat) (f : Bay → Bay) : (s.modBay b f).events = s.events := rfl
@[simp] theorem modBay_adminQ (s : State) (b : Nat) (f : Bay → Bay) : (s.modBay b f).adminQ = s.adminQ := rfl
@[simp] theorem modBay_qps (s : State) (b : Nat) (f : Bay → Bay) : (s.modBay b f).qps = s.qps := rfl
@[simp] theorem modBay_lastQp (s : State) (b : Nat) (f : Bay → Bay) : (s.modBay b f).lastQp = s.lastQp := rfl
@[simp] theorem modBay_turns (s : State) (b : Nat) (f : Bay → Bay) : (s.modBay b f).turns = s.turns := rfl
@[simp] theorem modBay_tags (s : State) (b : Nat) (f : Bay → Bay) : (s.modBay b f).tags = s.tags := rfl
@[simp] theorem modBay_orders (s : State) (b : Nat) (f : Bay → Bay) : (s.modBay b f).orders = s.orders := rfl
@[simp] theorem modBay_sec (s : State) (b : Nat) (f : Bay → Bay) : (s.modBay b f).sec = s.sec := rfl
@[simp] theorem modBay_ring (s : State) (b : Nat) (f : Bay → Bay) : (s.modBay b f).ring = s.ring := rfl
@[simp] theorem modBay_girth (s : State) (b : Nat) (f : Bay → Bay) : (s.modBay b f).girth = s.girth := rfl
@[simp] theorem modBay_beams (s : State) (b : Nat) (f : Bay → Bay) : (s.modBay b f).beams = s.beams := rfl
@[simp] theorem modBay_buses (s : State) (b : Nat) (f : Bay → Bay) : (s.modBay b f).buses = s.buses := rfl
@[simp] theorem modBay_recov (s : State) (b : Nat) (f : Bay → Bay) : (s.modBay b f).recov = s.recov := rfl
@[simp] theorem modBay_courses (s : State) (b : Nat) (f : Bay → Bay) : (s.modBay b f).courses = s.courses := rfl
@[simp] theorem modBay_nextHandle (s : State) (b : Nat) (f : Bay → Bay) : (s.modBay b f).nextHandle = s.nextHandle := rfl
@[simp] theorem modBay_mem (s : State) (b : Nat) (f : Bay → Bay) : (s.modBay b f).mem = s.mem := rfl
@[simp] theorem modBay_freeCtr (s : State) (b : Nat) (f : Bay → Bay) : (s.modBay b f).freeCtr = s.freeCtr := rfl
@[simp] theorem modBay_readData (s : State) (b : Nat) (f : Bay → Bay) : (s.modBay b f).readData = s.readData := rfl
@[simp] theorem modBay_sent (s : State) (b : Nat) (f : Bay → Bay) : (s.modBay b f).sent = s.sent := rfl
@[simp] theorem modBay_pending (s : State) (b : Nat) (f : Bay → Bay) : (s.modBay b f).pending = s.pending := rfl

@[simp] theorem modBeam_mode (s : State) (g : Nat) (f : Beam → Beam) : (s.modBeam g f).mode = s.mode := rfl
@[simp] theorem modBeam_aon (s : State) (g : Nat) (f : Beam → Beam) : (s.modBeam g f).aon = s.aon := rfl
@[simp] theorem modBeam_mgmt (s : State) (g : Nat) (f : Beam → Beam) : (s.modBeam g f).mgmt = s.mgmt := rfl
@[simp] theorem modBeam_eave (s : State) (g : Nat) (f : Beam → Beam) : (s.modBeam g f).eave = s.eave := rfl
@[simp] theorem modBeam_pat (s : State) (g : Nat) (f : Beam → Beam) : (s.modBeam g f).pat = s.pat := rfl
@[simp] theorem modBeam_logs (s : State) (g : Nat) (f : Beam → Beam) : (s.modBeam g f).logs = s.logs := rfl
@[simp] theorem modBeam_events (s : State) (g : Nat) (f : Beam → Beam) : (s.modBeam g f).events = s.events := rfl
@[simp] theorem modBeam_adminQ (s : State) (g : Nat) (f : Beam → Beam) : (s.modBeam g f).adminQ = s.adminQ := rfl
@[simp] theorem modBeam_qps (s : State) (g : Nat) (f : Beam → Beam) : (s.modBeam g f).qps = s.qps := rfl
@[simp] theorem modBeam_lastQp (s : State) (g : Nat) (f : Beam → Beam) : (s.modBeam g f).lastQp = s.lastQp := rfl
@[simp] theorem modBeam_turns (s : State) (g : Nat) (f : Beam → Beam) : (s.modBeam g f).turns = s.turns := rfl
@[simp] theorem modBeam_tags (s : State) (g : Nat) (f : Beam → Beam) : (s.modBeam g f).tags = s.tags := rfl
@[simp] theorem modBeam_orders (s : State) (g : Nat) (f : Beam → Beam) : (s.modBeam g f).orders = s.orders := rfl
@[simp] theorem modBeam_sec (s : State) (g : Nat) (f : Beam → Beam) : (s.modBeam g f).sec = s.sec := rfl
@[simp] theorem modBeam_ring (s : State) (g : Nat) (f : Beam → Beam) : (s.modBeam g f).ring = s.ring := rfl
@[simp] theorem modBeam_girth (s : State) (g : Nat) (f : Beam → Beam) : (s.modBeam g f).girth = s.girth := rfl
@[simp] theorem modBeam_bays (s : State) (g : Nat) (f : Beam → Beam) : (s.modBeam g f).bays = s.bays := rfl
@[simp] theorem modBeam_buses (s : State) (g : Nat) (f : Beam → Beam) : (s.modBeam g f).buses = s.buses := rfl
@[simp] theorem modBeam_recov (s : State) (g : Nat) (f : Beam → Beam) : (s.modBeam g f).recov = s.recov := rfl
@[simp] theorem modBeam_courses (s : State) (g : Nat) (f : Beam → Beam) : (s.modBeam g f).courses = s.courses := rfl
@[simp] theorem modBeam_nextHandle (s : State) (g : Nat) (f : Beam → Beam) : (s.modBeam g f).nextHandle = s.nextHandle := rfl
@[simp] theorem modBeam_mem (s : State) (g : Nat) (f : Beam → Beam) : (s.modBeam g f).mem = s.mem := rfl
@[simp] theorem modBeam_freeCtr (s : State) (g : Nat) (f : Beam → Beam) : (s.modBeam g f).freeCtr = s.freeCtr := rfl
@[simp] theorem modBeam_readData (s : State) (g : Nat) (f : Beam → Beam) : (s.modBeam g f).readData = s.readData := rfl
@[simp] theorem modBeam_sent (s : State) (g : Nat) (f : Beam → Beam) : (s.modBeam g f).sent = s.sent := rfl
@[simp] theorem modBeam_pending (s : State) (g : Nat) (f : Beam → Beam) : (s.modBeam g f).pending = s.pending := rfl

@[simp] theorem modBus_mode (s : State) (g : Nat) (f : Bus → Bus) : (s.modBus g f).mode = s.mode := rfl
@[simp] theorem modBus_aon (s : State) (g : Nat) (f : Bus → Bus) : (s.modBus g f).aon = s.aon := rfl
@[simp] theorem modBus_mgmt (s : State) (g : Nat) (f : Bus → Bus) : (s.modBus g f).mgmt = s.mgmt := rfl
@[simp] theorem modBus_eave (s : State) (g : Nat) (f : Bus → Bus) : (s.modBus g f).eave = s.eave := rfl
@[simp] theorem modBus_pat (s : State) (g : Nat) (f : Bus → Bus) : (s.modBus g f).pat = s.pat := rfl
@[simp] theorem modBus_logs (s : State) (g : Nat) (f : Bus → Bus) : (s.modBus g f).logs = s.logs := rfl
@[simp] theorem modBus_events (s : State) (g : Nat) (f : Bus → Bus) : (s.modBus g f).events = s.events := rfl
@[simp] theorem modBus_adminQ (s : State) (g : Nat) (f : Bus → Bus) : (s.modBus g f).adminQ = s.adminQ := rfl
@[simp] theorem modBus_qps (s : State) (g : Nat) (f : Bus → Bus) : (s.modBus g f).qps = s.qps := rfl
@[simp] theorem modBus_lastQp (s : State) (g : Nat) (f : Bus → Bus) : (s.modBus g f).lastQp = s.lastQp := rfl
@[simp] theorem modBus_turns (s : State) (g : Nat) (f : Bus → Bus) : (s.modBus g f).turns = s.turns := rfl
@[simp] theorem modBus_tags (s : State) (g : Nat) (f : Bus → Bus) : (s.modBus g f).tags = s.tags := rfl
@[simp] theorem modBus_orders (s : State) (g : Nat) (f : Bus → Bus) : (s.modBus g f).orders = s.orders := rfl
@[simp] theorem modBus_sec (s : State) (g : Nat) (f : Bus → Bus) : (s.modBus g f).sec = s.sec := rfl
@[simp] theorem modBus_ring (s : State) (g : Nat) (f : Bus → Bus) : (s.modBus g f).ring = s.ring := rfl
@[simp] theorem modBus_girth (s : State) (g : Nat) (f : Bus → Bus) : (s.modBus g f).girth = s.girth := rfl
@[simp] theorem modBus_bays (s : State) (g : Nat) (f : Bus → Bus) : (s.modBus g f).bays = s.bays := rfl
@[simp] theorem modBus_beams (s : State) (g : Nat) (f : Bus → Bus) : (s.modBus g f).beams = s.beams := rfl
@[simp] theorem modBus_recov (s : State) (g : Nat) (f : Bus → Bus) : (s.modBus g f).recov = s.recov := rfl
@[simp] theorem modBus_courses (s : State) (g : Nat) (f : Bus → Bus) : (s.modBus g f).courses = s.courses := rfl
@[simp] theorem modBus_nextHandle (s : State) (g : Nat) (f : Bus → Bus) : (s.modBus g f).nextHandle = s.nextHandle := rfl
@[simp] theorem modBus_mem (s : State) (g : Nat) (f : Bus → Bus) : (s.modBus g f).mem = s.mem := rfl
@[simp] theorem modBus_freeCtr (s : State) (g : Nat) (f : Bus → Bus) : (s.modBus g f).freeCtr = s.freeCtr := rfl
@[simp] theorem modBus_readData (s : State) (g : Nat) (f : Bus → Bus) : (s.modBus g f).readData = s.readData := rfl
@[simp] theorem modBus_sent (s : State) (g : Nat) (f : Bus → Bus) : (s.modBus g f).sent = s.sent := rfl
@[simp] theorem modBus_pending (s : State) (g : Nat) (f : Bus → Bus) : (s.modBus g f).pending = s.pending := rfl

@[simp] theorem modSlot_mode (s : State) (i : Nat) (f : GSlot → GSlot) : (s.modSlot i f).mode = s.mode := rfl
@[simp] theorem modSlot_aon (s : State) (i : Nat) (f : GSlot → GSlot) : (s.modSlot i f).aon = s.aon := rfl
@[simp] theorem modSlot_mgmt (s : State) (i : Nat) (f : GSlot → GSlot) : (s.modSlot i f).mgmt = s.mgmt := rfl
@[simp] theorem modSlot_eave (s : State) (i : Nat) (f : GSlot → GSlot) : (s.modSlot i f).eave = s.eave := rfl
@[simp] theorem modSlot_pat (s : State) (i : Nat) (f : GSlot → GSlot) : (s.modSlot i f).pat = s.pat := rfl
@[simp] theorem modSlot_logs (s : State) (i : Nat) (f : GSlot → GSlot) : (s.modSlot i f).logs = s.logs := rfl
@[simp] theorem modSlot_events (s : State) (i : Nat) (f : GSlot → GSlot) : (s.modSlot i f).events = s.events := rfl
@[simp] theorem modSlot_adminQ (s : State) (i : Nat) (f : GSlot → GSlot) : (s.modSlot i f).adminQ = s.adminQ := rfl
@[simp] theorem modSlot_qps (s : State) (i : Nat) (f : GSlot → GSlot) : (s.modSlot i f).qps = s.qps := rfl
@[simp] theorem modSlot_lastQp (s : State) (i : Nat) (f : GSlot → GSlot) : (s.modSlot i f).lastQp = s.lastQp := rfl
@[simp] theorem modSlot_turns (s : State) (i : Nat) (f : GSlot → GSlot) : (s.modSlot i f).turns = s.turns := rfl
@[simp] theorem modSlot_tags (s : State) (i : Nat) (f : GSlot → GSlot) : (s.modSlot i f).tags = s.tags := rfl
@[simp] theorem modSlot_orders (s : State) (i : Nat) (f : GSlot → GSlot) : (s.modSlot i f).orders = s.orders := rfl
@[simp] theorem modSlot_sec (s : State) (i : Nat) (f : GSlot → GSlot) : (s.modSlot i f).sec = s.sec := rfl
@[simp] theorem modSlot_ring (s : State) (i : Nat) (f : GSlot → GSlot) : (s.modSlot i f).ring = s.ring := rfl
@[simp] theorem modSlot_bays (s : State) (i : Nat) (f : GSlot → GSlot) : (s.modSlot i f).bays = s.bays := rfl
@[simp] theorem modSlot_beams (s : State) (i : Nat) (f : GSlot → GSlot) : (s.modSlot i f).beams = s.beams := rfl
@[simp] theorem modSlot_buses (s : State) (i : Nat) (f : GSlot → GSlot) : (s.modSlot i f).buses = s.buses := rfl
@[simp] theorem modSlot_recov (s : State) (i : Nat) (f : GSlot → GSlot) : (s.modSlot i f).recov = s.recov := rfl
@[simp] theorem modSlot_courses (s : State) (i : Nat) (f : GSlot → GSlot) : (s.modSlot i f).courses = s.courses := rfl
@[simp] theorem modSlot_nextHandle (s : State) (i : Nat) (f : GSlot → GSlot) : (s.modSlot i f).nextHandle = s.nextHandle := rfl
@[simp] theorem modSlot_mem (s : State) (i : Nat) (f : GSlot → GSlot) : (s.modSlot i f).mem = s.mem := rfl
@[simp] theorem modSlot_freeCtr (s : State) (i : Nat) (f : GSlot → GSlot) : (s.modSlot i f).freeCtr = s.freeCtr := rfl
@[simp] theorem modSlot_readData (s : State) (i : Nat) (f : GSlot → GSlot) : (s.modSlot i f).readData = s.readData := rfl
@[simp] theorem modSlot_sent (s : State) (i : Nat) (f : GSlot → GSlot) : (s.modSlot i f).sent = s.sent := rfl
@[simp] theorem modSlot_pending (s : State) (i : Nat) (f : GSlot → GSlot) : (s.modSlot i f).pending = s.pending := rfl

@[simp] theorem modQp_mode (s : State) (q : QpId) (f : Qp → Qp) : (s.modQp q f).mode = s.mode := rfl
@[simp] theorem modQp_aon (s : State) (q : QpId) (f : Qp → Qp) : (s.modQp q f).aon = s.aon := rfl
@[simp] theorem modQp_mgmt (s : State) (q : QpId) (f : Qp → Qp) : (s.modQp q f).mgmt = s.mgmt := rfl
@[simp] theorem modQp_eave (s : State) (q : QpId) (f : Qp → Qp) : (s.modQp q f).eave = s.eave := rfl
@[simp] theorem modQp_pat (s : State) (q : QpId) (f : Qp → Qp) : (s.modQp q f).pat = s.pat := rfl
@[simp] theorem modQp_logs (s : State) (q : QpId) (f : Qp → Qp) : (s.modQp q f).logs = s.logs := rfl
@[simp] theorem modQp_events (s : State) (q : QpId) (f : Qp → Qp) : (s.modQp q f).events = s.events := rfl
@[simp] theorem modQp_adminQ (s : State) (q : QpId) (f : Qp → Qp) : (s.modQp q f).adminQ = s.adminQ := rfl
@[simp] theorem modQp_lastQp (s : State) (q : QpId) (f : Qp → Qp) : (s.modQp q f).lastQp = s.lastQp := rfl
@[simp] theorem modQp_turns (s : State) (q : QpId) (f : Qp → Qp) : (s.modQp q f).turns = s.turns := rfl
@[simp] theorem modQp_tags (s : State) (q : QpId) (f : Qp → Qp) : (s.modQp q f).tags = s.tags := rfl
@[simp] theorem modQp_orders (s : State) (q : QpId) (f : Qp → Qp) : (s.modQp q f).orders = s.orders := rfl
@[simp] theorem modQp_sec (s : State) (q : QpId) (f : Qp → Qp) : (s.modQp q f).sec = s.sec := rfl
@[simp] theorem modQp_ring (s : State) (q : QpId) (f : Qp → Qp) : (s.modQp q f).ring = s.ring := rfl
@[simp] theorem modQp_girth (s : State) (q : QpId) (f : Qp → Qp) : (s.modQp q f).girth = s.girth := rfl
@[simp] theorem modQp_bays (s : State) (q : QpId) (f : Qp → Qp) : (s.modQp q f).bays = s.bays := rfl
@[simp] theorem modQp_beams (s : State) (q : QpId) (f : Qp → Qp) : (s.modQp q f).beams = s.beams := rfl
@[simp] theorem modQp_buses (s : State) (q : QpId) (f : Qp → Qp) : (s.modQp q f).buses = s.buses := rfl
@[simp] theorem modQp_recov (s : State) (q : QpId) (f : Qp → Qp) : (s.modQp q f).recov = s.recov := rfl
@[simp] theorem modQp_courses (s : State) (q : QpId) (f : Qp → Qp) : (s.modQp q f).courses = s.courses := rfl
@[simp] theorem modQp_nextHandle (s : State) (q : QpId) (f : Qp → Qp) : (s.modQp q f).nextHandle = s.nextHandle := rfl
@[simp] theorem modQp_mem (s : State) (q : QpId) (f : Qp → Qp) : (s.modQp q f).mem = s.mem := rfl
@[simp] theorem modQp_freeCtr (s : State) (q : QpId) (f : Qp → Qp) : (s.modQp q f).freeCtr = s.freeCtr := rfl
@[simp] theorem modQp_readData (s : State) (q : QpId) (f : Qp → Qp) : (s.modQp q f).readData = s.readData := rfl
@[simp] theorem modQp_sent (s : State) (q : QpId) (f : Qp → Qp) : (s.modQp q f).sent = s.sent := rfl
@[simp] theorem modQp_pending (s : State) (q : QpId) (f : Qp → Qp) : (s.modQp q f).pending = s.pending := rfl

@[simp] theorem send_mode (s : State) (o : Output) : (s.send o).mode = s.mode := rfl
@[simp] theorem send_aon (s : State) (o : Output) : (s.send o).aon = s.aon := rfl
@[simp] theorem send_mgmt (s : State) (o : Output) : (s.send o).mgmt = s.mgmt := rfl
@[simp] theorem send_eave (s : State) (o : Output) : (s.send o).eave = s.eave := rfl
@[simp] theorem send_pat (s : State) (o : Output) : (s.send o).pat = s.pat := rfl
@[simp] theorem send_logs (s : State) (o : Output) : (s.send o).logs = s.logs := rfl
@[simp] theorem send_events (s : State) (o : Output) : (s.send o).events = s.events := rfl
@[simp] theorem send_adminQ (s : State) (o : Output) : (s.send o).adminQ = s.adminQ := rfl
@[simp] theorem send_qps (s : State) (o : Output) : (s.send o).qps = s.qps := rfl
@[simp] theorem send_lastQp (s : State) (o : Output) : (s.send o).lastQp = s.lastQp := rfl
@[simp] theorem send_turns (s : State) (o : Output) : (s.send o).turns = s.turns := rfl
@[simp] theorem send_tags (s : State) (o : Output) : (s.send o).tags = s.tags := rfl
@[simp] theorem send_orders (s : State) (o : Output) : (s.send o).orders = s.orders := rfl
@[simp] theorem send_sec (s : State) (o : Output) : (s.send o).sec = s.sec := rfl
@[simp] theorem send_ring (s : State) (o : Output) : (s.send o).ring = s.ring := rfl
@[simp] theorem send_girth (s : State) (o : Output) : (s.send o).girth = s.girth := rfl
@[simp] theorem send_bays (s : State) (o : Output) : (s.send o).bays = s.bays := rfl
@[simp] theorem send_beams (s : State) (o : Output) : (s.send o).beams = s.beams := rfl
@[simp] theorem send_buses (s : State) (o : Output) : (s.send o).buses = s.buses := rfl
@[simp] theorem send_recov (s : State) (o : Output) : (s.send o).recov = s.recov := rfl
@[simp] theorem send_courses (s : State) (o : Output) : (s.send o).courses = s.courses := rfl
@[simp] theorem send_nextHandle (s : State) (o : Output) : (s.send o).nextHandle = s.nextHandle := rfl
@[simp] theorem send_mem (s : State) (o : Output) : (s.send o).mem = s.mem := rfl
@[simp] theorem send_freeCtr (s : State) (o : Output) : (s.send o).freeCtr = s.freeCtr := rfl
@[simp] theorem send_readData (s : State) (o : Output) : (s.send o).readData = s.readData := rfl
@[simp] theorem send_pending (s : State) (o : Output) : (s.send o).pending = s.pending := rfl

@[simp] theorem modDisc_mode (s : State) (b : Nat) (f : Disc → Disc) : (s.modDisc b f).mode = s.mode := rfl
@[simp] theorem modDisc_aon (s : State) (b : Nat) (f : Disc → Disc) : (s.modDisc b f).aon = s.aon := rfl
@[simp] theorem modDisc_mgmt (s : State) (b : Nat) (f : Disc → Disc) : (s.modDisc b f).mgmt = s.mgmt := rfl
@[simp] theorem modDisc_eave (s : State) (b : Nat) (f : Disc → Disc) : (s.modDisc b f).eave = s.eave := rfl
@[simp] theorem modDisc_pat (s : State) (b : Nat) (f : Disc → Disc) : (s.modDisc b f).pat = s.pat := rfl
@[simp] theorem modDisc_logs (s : State) (b : Nat) (f : Disc → Disc) : (s.modDisc b f).logs = s.logs := rfl
@[simp] theorem modDisc_events (s : State) (b : Nat) (f : Disc → Disc) : (s.modDisc b f).events = s.events := rfl
@[simp] theorem modDisc_adminQ (s : State) (b : Nat) (f : Disc → Disc) : (s.modDisc b f).adminQ = s.adminQ := rfl
@[simp] theorem modDisc_qps (s : State) (b : Nat) (f : Disc → Disc) : (s.modDisc b f).qps = s.qps := rfl
@[simp] theorem modDisc_lastQp (s : State) (b : Nat) (f : Disc → Disc) : (s.modDisc b f).lastQp = s.lastQp := rfl
@[simp] theorem modDisc_turns (s : State) (b : Nat) (f : Disc → Disc) : (s.modDisc b f).turns = s.turns := rfl
@[simp] theorem modDisc_tags (s : State) (b : Nat) (f : Disc → Disc) : (s.modDisc b f).tags = s.tags := rfl
@[simp] theorem modDisc_orders (s : State) (b : Nat) (f : Disc → Disc) : (s.modDisc b f).orders = s.orders := rfl
@[simp] theorem modDisc_sec (s : State) (b : Nat) (f : Disc → Disc) : (s.modDisc b f).sec = s.sec := rfl
@[simp] theorem modDisc_ring (s : State) (b : Nat) (f : Disc → Disc) : (s.modDisc b f).ring = s.ring := rfl
@[simp] theorem modDisc_girth (s : State) (b : Nat) (f : Disc → Disc) : (s.modDisc b f).girth = s.girth := rfl
@[simp] theorem modDisc_beams (s : State) (b : Nat) (f : Disc → Disc) : (s.modDisc b f).beams = s.beams := rfl
@[simp] theorem modDisc_buses (s : State) (b : Nat) (f : Disc → Disc) : (s.modDisc b f).buses = s.buses := rfl
@[simp] theorem modDisc_recov (s : State) (b : Nat) (f : Disc → Disc) : (s.modDisc b f).recov = s.recov := rfl
@[simp] theorem modDisc_courses (s : State) (b : Nat) (f : Disc → Disc) : (s.modDisc b f).courses = s.courses := rfl
@[simp] theorem modDisc_nextHandle (s : State) (b : Nat) (f : Disc → Disc) : (s.modDisc b f).nextHandle = s.nextHandle := rfl
@[simp] theorem modDisc_mem (s : State) (b : Nat) (f : Disc → Disc) : (s.modDisc b f).mem = s.mem := rfl
@[simp] theorem modDisc_freeCtr (s : State) (b : Nat) (f : Disc → Disc) : (s.modDisc b f).freeCtr = s.freeCtr := rfl
@[simp] theorem modDisc_readData (s : State) (b : Nat) (f : Disc → Disc) : (s.modDisc b f).readData = s.readData := rfl
@[simp] theorem modDisc_sent (s : State) (b : Nat) (f : Disc → Disc) : (s.modDisc b f).sent = s.sent := rfl
@[simp] theorem modDisc_pending (s : State) (b : Nat) (f : Disc → Disc) : (s.modDisc b f).pending = s.pending := rfl

@[simp] theorem modWrite_mode (s : State) (b : Nat) (f : WriteSess → WriteSess) : (s.modWrite b f).mode = s.mode := rfl
@[simp] theorem modWrite_aon (s : State) (b : Nat) (f : WriteSess → WriteSess) : (s.modWrite b f).aon = s.aon := rfl
@[simp] theorem modWrite_mgmt (s : State) (b : Nat) (f : WriteSess → WriteSess) : (s.modWrite b f).mgmt = s.mgmt := rfl
@[simp] theorem modWrite_eave (s : State) (b : Nat) (f : WriteSess → WriteSess) : (s.modWrite b f).eave = s.eave := rfl
@[simp] theorem modWrite_pat (s : State) (b : Nat) (f : WriteSess → WriteSess) : (s.modWrite b f).pat = s.pat := rfl
@[simp] theorem modWrite_logs (s : State) (b : Nat) (f : WriteSess → WriteSess) : (s.modWrite b f).logs = s.logs := rfl
@[simp] theorem modWrite_events (s : State) (b : Nat) (f : WriteSess → WriteSess) : (s.modWrite b f).events = s.events := rfl
@[simp] theorem modWrite_adminQ (s : State) (b : Nat) (f : WriteSess → WriteSess) : (s.modWrite b f).adminQ = s.adminQ := rfl
@[simp] theorem modWrite_qps (s : State) (b : Nat) (f : WriteSess → WriteSess) : (s.modWrite b f).qps = s.qps := rfl
@[simp] theorem modWrite_lastQp (s : State) (b : Nat) (f : WriteSess → WriteSess) : (s.modWrite b f).lastQp = s.lastQp := rfl
@[simp] theorem modWrite_turns (s : State) (b : Nat) (f : WriteSess → WriteSess) : (s.modWrite b f).turns = s.turns := rfl
@[simp] theorem modWrite_tags (s : State) (b : Nat) (f : WriteSess → WriteSess) : (s.modWrite b f).tags = s.tags := rfl
@[simp] theorem modWrite_orders (s : State) (b : Nat) (f : WriteSess → WriteSess) : (s.modWrite b f).orders = s.orders := rfl
@[simp] theorem modWrite_sec (s : State) (b : Nat) (f : WriteSess → WriteSess) : (s.modWrite b f).sec = s.sec := rfl
@[simp] theorem modWrite_ring (s : State) (b : Nat) (f : WriteSess → WriteSess) : (s.modWrite b f).ring = s.ring := rfl
@[simp] theorem modWrite_girth (s : State) (b : Nat) (f : WriteSess → WriteSess) : (s.modWrite b f).girth = s.girth := rfl
@[simp] theorem modWrite_beams (s : State) (b : Nat) (f : WriteSess → WriteSess) : (s.modWrite b f).beams = s.beams := rfl
@[simp] theorem modWrite_buses (s : State) (b : Nat) (f : WriteSess → WriteSess) : (s.modWrite b f).buses = s.buses := rfl
@[simp] theorem modWrite_recov (s : State) (b : Nat) (f : WriteSess → WriteSess) : (s.modWrite b f).recov = s.recov := rfl
@[simp] theorem modWrite_courses (s : State) (b : Nat) (f : WriteSess → WriteSess) : (s.modWrite b f).courses = s.courses := rfl
@[simp] theorem modWrite_nextHandle (s : State) (b : Nat) (f : WriteSess → WriteSess) : (s.modWrite b f).nextHandle = s.nextHandle := rfl
@[simp] theorem modWrite_mem (s : State) (b : Nat) (f : WriteSess → WriteSess) : (s.modWrite b f).mem = s.mem := rfl
@[simp] theorem modWrite_freeCtr (s : State) (b : Nat) (f : WriteSess → WriteSess) : (s.modWrite b f).freeCtr = s.freeCtr := rfl
@[simp] theorem modWrite_readData (s : State) (b : Nat) (f : WriteSess → WriteSess) : (s.modWrite b f).readData = s.readData := rfl
@[simp] theorem modWrite_sent (s : State) (b : Nat) (f : WriteSess → WriteSess) : (s.modWrite b f).sent = s.sent := rfl
@[simp] theorem modWrite_pending (s : State) (b : Nat) (f : WriteSess → WriteSess) : (s.modWrite b f).pending = s.pending := rfl

@[simp] theorem modChan_mode (s : State) (b : Nat) (f : Channel → Channel) : (s.modChan b f).mode = s.mode := rfl
@[simp] theorem modChan_aon (s : State) (b : Nat) (f : Channel → Channel) : (s.modChan b f).aon = s.aon := rfl
@[simp] theorem modChan_mgmt (s : State) (b : Nat) (f : Channel → Channel) : (s.modChan b f).mgmt = s.mgmt := rfl
@[simp] theorem modChan_eave (s : State) (b : Nat) (f : Channel → Channel) : (s.modChan b f).eave = s.eave := rfl
@[simp] theorem modChan_pat (s : State) (b : Nat) (f : Channel → Channel) : (s.modChan b f).pat = s.pat := rfl
@[simp] theorem modChan_logs (s : State) (b : Nat) (f : Channel → Channel) : (s.modChan b f).logs = s.logs := rfl
@[simp] theorem modChan_events (s : State) (b : Nat) (f : Channel → Channel) : (s.modChan b f).events = s.events := rfl
@[simp] theorem modChan_adminQ (s : State) (b : Nat) (f : Channel → Channel) : (s.modChan b f).adminQ = s.adminQ := rfl
@[simp] theorem modChan_qps (s : State) (b : Nat) (f : Channel → Channel) : (s.modChan b f).qps = s.qps := rfl
@[simp] theorem modChan_lastQp (s : State) (b : Nat) (f : Channel → Channel) : (s.modChan b f).lastQp = s.lastQp := rfl
@[simp] theorem modChan_turns (s : State) (b : Nat) (f : Channel → Channel) : (s.modChan b f).turns = s.turns := rfl
@[simp] theorem modChan_tags (s : State) (b : Nat) (f : Channel → Channel) : (s.modChan b f).tags = s.tags := rfl
@[simp] theorem modChan_orders (s : State) (b : Nat) (f : Channel → Channel) : (s.modChan b f).orders = s.orders := rfl
@[simp] theorem modChan_sec (s : State) (b : Nat) (f : Channel → Channel) : (s.modChan b f).sec = s.sec := rfl
@[simp] theorem modChan_ring (s : State) (b : Nat) (f : Channel → Channel) : (s.modChan b f).ring = s.ring := rfl
@[simp] theorem modChan_girth (s : State) (b : Nat) (f : Channel → Channel) : (s.modChan b f).girth = s.girth := rfl
@[simp] theorem modChan_beams (s : State) (b : Nat) (f : Channel → Channel) : (s.modChan b f).beams = s.beams := rfl
@[simp] theorem modChan_buses (s : State) (b : Nat) (f : Channel → Channel) : (s.modChan b f).buses = s.buses := rfl
@[simp] theorem modChan_recov (s : State) (b : Nat) (f : Channel → Channel) : (s.modChan b f).recov = s.recov := rfl
@[simp] theorem modChan_courses (s : State) (b : Nat) (f : Channel → Channel) : (s.modChan b f).courses = s.courses := rfl
@[simp] theorem modChan_nextHandle (s : State) (b : Nat) (f : Channel → Channel) : (s.modChan b f).nextHandle = s.nextHandle := rfl
@[simp] theorem modChan_mem (s : State) (b : Nat) (f : Channel → Channel) : (s.modChan b f).mem = s.mem := rfl
@[simp] theorem modChan_freeCtr (s : State) (b : Nat) (f : Channel → Channel) : (s.modChan b f).freeCtr = s.freeCtr := rfl
@[simp] theorem modChan_readData (s : State) (b : Nat) (f : Channel → Channel) : (s.modChan b f).readData = s.readData := rfl
@[simp] theorem modChan_sent (s : State) (b : Nat) (f : Channel → Channel) : (s.modChan b f).sent = s.sent := rfl
@[simp] theorem modChan_pending (s : State) (b : Nat) (f : Channel → Channel) : (s.modChan b f).pending = s.pending := rfl

@[simp] theorem modServo_mode (s : State) (b : Nat) (f : Servo → Servo) : (s.modServo b f).mode = s.mode := rfl
@[simp] theorem modServo_aon (s : State) (b : Nat) (f : Servo → Servo) : (s.modServo b f).aon = s.aon := rfl
@[simp] theorem modServo_mgmt (s : State) (b : Nat) (f : Servo → Servo) : (s.modServo b f).mgmt = s.mgmt := rfl
@[simp] theorem modServo_eave (s : State) (b : Nat) (f : Servo → Servo) : (s.modServo b f).eave = s.eave := rfl
@[simp] theorem modServo_pat (s : State) (b : Nat) (f : Servo → Servo) : (s.modServo b f).pat = s.pat := rfl
@[simp] theorem modServo_logs (s : State) (b : Nat) (f : Servo → Servo) : (s.modServo b f).logs = s.logs := rfl
@[simp] theorem modServo_events (s : State) (b : Nat) (f : Servo → Servo) : (s.modServo b f).events = s.events := rfl
@[simp] theorem modServo_adminQ (s : State) (b : Nat) (f : Servo → Servo) : (s.modServo b f).adminQ = s.adminQ := rfl
@[simp] theorem modServo_qps (s : State) (b : Nat) (f : Servo → Servo) : (s.modServo b f).qps = s.qps := rfl
@[simp] theorem modServo_lastQp (s : State) (b : Nat) (f : Servo → Servo) : (s.modServo b f).lastQp = s.lastQp := rfl
@[simp] theorem modServo_turns (s : State) (b : Nat) (f : Servo → Servo) : (s.modServo b f).turns = s.turns := rfl
@[simp] theorem modServo_tags (s : State) (b : Nat) (f : Servo → Servo) : (s.modServo b f).tags = s.tags := rfl
@[simp] theorem modServo_orders (s : State) (b : Nat) (f : Servo → Servo) : (s.modServo b f).orders = s.orders := rfl
@[simp] theorem modServo_sec (s : State) (b : Nat) (f : Servo → Servo) : (s.modServo b f).sec = s.sec := rfl
@[simp] theorem modServo_ring (s : State) (b : Nat) (f : Servo → Servo) : (s.modServo b f).ring = s.ring := rfl
@[simp] theorem modServo_girth (s : State) (b : Nat) (f : Servo → Servo) : (s.modServo b f).girth = s.girth := rfl
@[simp] theorem modServo_beams (s : State) (b : Nat) (f : Servo → Servo) : (s.modServo b f).beams = s.beams := rfl
@[simp] theorem modServo_buses (s : State) (b : Nat) (f : Servo → Servo) : (s.modServo b f).buses = s.buses := rfl
@[simp] theorem modServo_recov (s : State) (b : Nat) (f : Servo → Servo) : (s.modServo b f).recov = s.recov := rfl
@[simp] theorem modServo_courses (s : State) (b : Nat) (f : Servo → Servo) : (s.modServo b f).courses = s.courses := rfl
@[simp] theorem modServo_nextHandle (s : State) (b : Nat) (f : Servo → Servo) : (s.modServo b f).nextHandle = s.nextHandle := rfl
@[simp] theorem modServo_mem (s : State) (b : Nat) (f : Servo → Servo) : (s.modServo b f).mem = s.mem := rfl
@[simp] theorem modServo_freeCtr (s : State) (b : Nat) (f : Servo → Servo) : (s.modServo b f).freeCtr = s.freeCtr := rfl
@[simp] theorem modServo_readData (s : State) (b : Nat) (f : Servo → Servo) : (s.modServo b f).readData = s.readData := rfl
@[simp] theorem modServo_sent (s : State) (b : Nat) (f : Servo → Servo) : (s.modServo b f).sent = s.sent := rfl
@[simp] theorem modServo_pending (s : State) (b : Nat) (f : Servo → Servo) : (s.modServo b f).pending = s.pending := rfl

@[simp] theorem modSpin_mode (s : State) (b : Nat) (f : Spindle → Spindle) : (s.modSpin b f).mode = s.mode := rfl
@[simp] theorem modSpin_aon (s : State) (b : Nat) (f : Spindle → Spindle) : (s.modSpin b f).aon = s.aon := rfl
@[simp] theorem modSpin_mgmt (s : State) (b : Nat) (f : Spindle → Spindle) : (s.modSpin b f).mgmt = s.mgmt := rfl
@[simp] theorem modSpin_eave (s : State) (b : Nat) (f : Spindle → Spindle) : (s.modSpin b f).eave = s.eave := rfl
@[simp] theorem modSpin_pat (s : State) (b : Nat) (f : Spindle → Spindle) : (s.modSpin b f).pat = s.pat := rfl
@[simp] theorem modSpin_logs (s : State) (b : Nat) (f : Spindle → Spindle) : (s.modSpin b f).logs = s.logs := rfl
@[simp] theorem modSpin_events (s : State) (b : Nat) (f : Spindle → Spindle) : (s.modSpin b f).events = s.events := rfl
@[simp] theorem modSpin_adminQ (s : State) (b : Nat) (f : Spindle → Spindle) : (s.modSpin b f).adminQ = s.adminQ := rfl
@[simp] theorem modSpin_qps (s : State) (b : Nat) (f : Spindle → Spindle) : (s.modSpin b f).qps = s.qps := rfl
@[simp] theorem modSpin_lastQp (s : State) (b : Nat) (f : Spindle → Spindle) : (s.modSpin b f).lastQp = s.lastQp := rfl
@[simp] theorem modSpin_turns (s : State) (b : Nat) (f : Spindle → Spindle) : (s.modSpin b f).turns = s.turns := rfl
@[simp] theorem modSpin_tags (s : State) (b : Nat) (f : Spindle → Spindle) : (s.modSpin b f).tags = s.tags := rfl
@[simp] theorem modSpin_orders (s : State) (b : Nat) (f : Spindle → Spindle) : (s.modSpin b f).orders = s.orders := rfl
@[simp] theorem modSpin_sec (s : State) (b : Nat) (f : Spindle → Spindle) : (s.modSpin b f).sec = s.sec := rfl
@[simp] theorem modSpin_ring (s : State) (b : Nat) (f : Spindle → Spindle) : (s.modSpin b f).ring = s.ring := rfl
@[simp] theorem modSpin_girth (s : State) (b : Nat) (f : Spindle → Spindle) : (s.modSpin b f).girth = s.girth := rfl
@[simp] theorem modSpin_beams (s : State) (b : Nat) (f : Spindle → Spindle) : (s.modSpin b f).beams = s.beams := rfl
@[simp] theorem modSpin_buses (s : State) (b : Nat) (f : Spindle → Spindle) : (s.modSpin b f).buses = s.buses := rfl
@[simp] theorem modSpin_recov (s : State) (b : Nat) (f : Spindle → Spindle) : (s.modSpin b f).recov = s.recov := rfl
@[simp] theorem modSpin_courses (s : State) (b : Nat) (f : Spindle → Spindle) : (s.modSpin b f).courses = s.courses := rfl
@[simp] theorem modSpin_nextHandle (s : State) (b : Nat) (f : Spindle → Spindle) : (s.modSpin b f).nextHandle = s.nextHandle := rfl
@[simp] theorem modSpin_mem (s : State) (b : Nat) (f : Spindle → Spindle) : (s.modSpin b f).mem = s.mem := rfl
@[simp] theorem modSpin_freeCtr (s : State) (b : Nat) (f : Spindle → Spindle) : (s.modSpin b f).freeCtr = s.freeCtr := rfl
@[simp] theorem modSpin_readData (s : State) (b : Nat) (f : Spindle → Spindle) : (s.modSpin b f).readData = s.readData := rfl
@[simp] theorem modSpin_sent (s : State) (b : Nat) (f : Spindle → Spindle) : (s.modSpin b f).sent = s.sent := rfl
@[simp] theorem modSpin_pending (s : State) (b : Nat) (f : Spindle → Spindle) : (s.modSpin b f).pending = s.pending := rfl

@[simp] theorem modSled_mode (s : State) (b : Nat) (f : Sled → Sled) : (s.modSled b f).mode = s.mode := rfl
@[simp] theorem modSled_aon (s : State) (b : Nat) (f : Sled → Sled) : (s.modSled b f).aon = s.aon := rfl
@[simp] theorem modSled_mgmt (s : State) (b : Nat) (f : Sled → Sled) : (s.modSled b f).mgmt = s.mgmt := rfl
@[simp] theorem modSled_eave (s : State) (b : Nat) (f : Sled → Sled) : (s.modSled b f).eave = s.eave := rfl
@[simp] theorem modSled_pat (s : State) (b : Nat) (f : Sled → Sled) : (s.modSled b f).pat = s.pat := rfl
@[simp] theorem modSled_logs (s : State) (b : Nat) (f : Sled → Sled) : (s.modSled b f).logs = s.logs := rfl
@[simp] theorem modSled_events (s : State) (b : Nat) (f : Sled → Sled) : (s.modSled b f).events = s.events := rfl
@[simp] theorem modSled_adminQ (s : State) (b : Nat) (f : Sled → Sled) : (s.modSled b f).adminQ = s.adminQ := rfl
@[simp] theorem modSled_qps (s : State) (b : Nat) (f : Sled → Sled) : (s.modSled b f).qps = s.qps := rfl
@[simp] theorem modSled_lastQp (s : State) (b : Nat) (f : Sled → Sled) : (s.modSled b f).lastQp = s.lastQp := rfl
@[simp] theorem modSled_turns (s : State) (b : Nat) (f : Sled → Sled) : (s.modSled b f).turns = s.turns := rfl
@[simp] theorem modSled_tags (s : State) (b : Nat) (f : Sled → Sled) : (s.modSled b f).tags = s.tags := rfl
@[simp] theorem modSled_orders (s : State) (b : Nat) (f : Sled → Sled) : (s.modSled b f).orders = s.orders := rfl
@[simp] theorem modSled_sec (s : State) (b : Nat) (f : Sled → Sled) : (s.modSled b f).sec = s.sec := rfl
@[simp] theorem modSled_ring (s : State) (b : Nat) (f : Sled → Sled) : (s.modSled b f).ring = s.ring := rfl
@[simp] theorem modSled_girth (s : State) (b : Nat) (f : Sled → Sled) : (s.modSled b f).girth = s.girth := rfl
@[simp] theorem modSled_beams (s : State) (b : Nat) (f : Sled → Sled) : (s.modSled b f).beams = s.beams := rfl
@[simp] theorem modSled_buses (s : State) (b : Nat) (f : Sled → Sled) : (s.modSled b f).buses = s.buses := rfl
@[simp] theorem modSled_recov (s : State) (b : Nat) (f : Sled → Sled) : (s.modSled b f).recov = s.recov := rfl
@[simp] theorem modSled_courses (s : State) (b : Nat) (f : Sled → Sled) : (s.modSled b f).courses = s.courses := rfl
@[simp] theorem modSled_nextHandle (s : State) (b : Nat) (f : Sled → Sled) : (s.modSled b f).nextHandle = s.nextHandle := rfl
@[simp] theorem modSled_mem (s : State) (b : Nat) (f : Sled → Sled) : (s.modSled b f).mem = s.mem := rfl
@[simp] theorem modSled_freeCtr (s : State) (b : Nat) (f : Sled → Sled) : (s.modSled b f).freeCtr = s.freeCtr := rfl
@[simp] theorem modSled_readData (s : State) (b : Nat) (f : Sled → Sled) : (s.modSled b f).readData = s.readData := rfl
@[simp] theorem modSled_sent (s : State) (b : Nat) (f : Sled → Sled) : (s.modSled b f).sent = s.sent := rfl
@[simp] theorem modSled_pending (s : State) (b : Nat) (f : Sled → Sled) : (s.modSled b f).pending = s.pending := rfl

@[simp] theorem modWelt_mode (s : State) (b : Nat) (f : Welt → Welt) : (s.modWelt b f).mode = s.mode := rfl
@[simp] theorem modWelt_aon (s : State) (b : Nat) (f : Welt → Welt) : (s.modWelt b f).aon = s.aon := rfl
@[simp] theorem modWelt_mgmt (s : State) (b : Nat) (f : Welt → Welt) : (s.modWelt b f).mgmt = s.mgmt := rfl
@[simp] theorem modWelt_eave (s : State) (b : Nat) (f : Welt → Welt) : (s.modWelt b f).eave = s.eave := rfl
@[simp] theorem modWelt_pat (s : State) (b : Nat) (f : Welt → Welt) : (s.modWelt b f).pat = s.pat := rfl
@[simp] theorem modWelt_logs (s : State) (b : Nat) (f : Welt → Welt) : (s.modWelt b f).logs = s.logs := rfl
@[simp] theorem modWelt_events (s : State) (b : Nat) (f : Welt → Welt) : (s.modWelt b f).events = s.events := rfl
@[simp] theorem modWelt_adminQ (s : State) (b : Nat) (f : Welt → Welt) : (s.modWelt b f).adminQ = s.adminQ := rfl
@[simp] theorem modWelt_qps (s : State) (b : Nat) (f : Welt → Welt) : (s.modWelt b f).qps = s.qps := rfl
@[simp] theorem modWelt_lastQp (s : State) (b : Nat) (f : Welt → Welt) : (s.modWelt b f).lastQp = s.lastQp := rfl
@[simp] theorem modWelt_turns (s : State) (b : Nat) (f : Welt → Welt) : (s.modWelt b f).turns = s.turns := rfl
@[simp] theorem modWelt_tags (s : State) (b : Nat) (f : Welt → Welt) : (s.modWelt b f).tags = s.tags := rfl
@[simp] theorem modWelt_orders (s : State) (b : Nat) (f : Welt → Welt) : (s.modWelt b f).orders = s.orders := rfl
@[simp] theorem modWelt_sec (s : State) (b : Nat) (f : Welt → Welt) : (s.modWelt b f).sec = s.sec := rfl
@[simp] theorem modWelt_ring (s : State) (b : Nat) (f : Welt → Welt) : (s.modWelt b f).ring = s.ring := rfl
@[simp] theorem modWelt_girth (s : State) (b : Nat) (f : Welt → Welt) : (s.modWelt b f).girth = s.girth := rfl
@[simp] theorem modWelt_beams (s : State) (b : Nat) (f : Welt → Welt) : (s.modWelt b f).beams = s.beams := rfl
@[simp] theorem modWelt_buses (s : State) (b : Nat) (f : Welt → Welt) : (s.modWelt b f).buses = s.buses := rfl
@[simp] theorem modWelt_recov (s : State) (b : Nat) (f : Welt → Welt) : (s.modWelt b f).recov = s.recov := rfl
@[simp] theorem modWelt_courses (s : State) (b : Nat) (f : Welt → Welt) : (s.modWelt b f).courses = s.courses := rfl
@[simp] theorem modWelt_nextHandle (s : State) (b : Nat) (f : Welt → Welt) : (s.modWelt b f).nextHandle = s.nextHandle := rfl
@[simp] theorem modWelt_mem (s : State) (b : Nat) (f : Welt → Welt) : (s.modWelt b f).mem = s.mem := rfl
@[simp] theorem modWelt_freeCtr (s : State) (b : Nat) (f : Welt → Welt) : (s.modWelt b f).freeCtr = s.freeCtr := rfl
@[simp] theorem modWelt_readData (s : State) (b : Nat) (f : Welt → Welt) : (s.modWelt b f).readData = s.readData := rfl
@[simp] theorem modWelt_sent (s : State) (b : Nat) (f : Welt → Welt) : (s.modWelt b f).sent = s.sent := rfl
@[simp] theorem modWelt_pending (s : State) (b : Nat) (f : Welt → Welt) : (s.modWelt b f).pending = s.pending := rfl

@[simp] theorem modCmd_mode (s : State) (q : QpId) (t : Nat) (f : Cmd → Cmd) : (s.modCmd q t f).mode = s.mode := rfl
@[simp] theorem modCmd_aon (s : State) (q : QpId) (t : Nat) (f : Cmd → Cmd) : (s.modCmd q t f).aon = s.aon := rfl
@[simp] theorem modCmd_mgmt (s : State) (q : QpId) (t : Nat) (f : Cmd → Cmd) : (s.modCmd q t f).mgmt = s.mgmt := rfl
@[simp] theorem modCmd_eave (s : State) (q : QpId) (t : Nat) (f : Cmd → Cmd) : (s.modCmd q t f).eave = s.eave := rfl
@[simp] theorem modCmd_pat (s : State) (q : QpId) (t : Nat) (f : Cmd → Cmd) : (s.modCmd q t f).pat = s.pat := rfl
@[simp] theorem modCmd_logs (s : State) (q : QpId) (t : Nat) (f : Cmd → Cmd) : (s.modCmd q t f).logs = s.logs := rfl
@[simp] theorem modCmd_events (s : State) (q : QpId) (t : Nat) (f : Cmd → Cmd) : (s.modCmd q t f).events = s.events := rfl
@[simp] theorem modCmd_adminQ (s : State) (q : QpId) (t : Nat) (f : Cmd → Cmd) : (s.modCmd q t f).adminQ = s.adminQ := rfl
@[simp] theorem modCmd_qps (s : State) (q : QpId) (t : Nat) (f : Cmd → Cmd) : (s.modCmd q t f).qps = s.qps := rfl
@[simp] theorem modCmd_lastQp (s : State) (q : QpId) (t : Nat) (f : Cmd → Cmd) : (s.modCmd q t f).lastQp = s.lastQp := rfl
@[simp] theorem modCmd_turns (s : State) (q : QpId) (t : Nat) (f : Cmd → Cmd) : (s.modCmd q t f).turns = s.turns := rfl
@[simp] theorem modCmd_orders (s : State) (q : QpId) (t : Nat) (f : Cmd → Cmd) : (s.modCmd q t f).orders = s.orders := rfl
@[simp] theorem modCmd_sec (s : State) (q : QpId) (t : Nat) (f : Cmd → Cmd) : (s.modCmd q t f).sec = s.sec := rfl
@[simp] theorem modCmd_ring (s : State) (q : QpId) (t : Nat) (f : Cmd → Cmd) : (s.modCmd q t f).ring = s.ring := rfl
@[simp] theorem modCmd_girth (s : State) (q : QpId) (t : Nat) (f : Cmd → Cmd) : (s.modCmd q t f).girth = s.girth := rfl
@[simp] theorem modCmd_bays (s : State) (q : QpId) (t : Nat) (f : Cmd → Cmd) : (s.modCmd q t f).bays = s.bays := rfl
@[simp] theorem modCmd_beams (s : State) (q : QpId) (t : Nat) (f : Cmd → Cmd) : (s.modCmd q t f).beams = s.beams := rfl
@[simp] theorem modCmd_buses (s : State) (q : QpId) (t : Nat) (f : Cmd → Cmd) : (s.modCmd q t f).buses = s.buses := rfl
@[simp] theorem modCmd_recov (s : State) (q : QpId) (t : Nat) (f : Cmd → Cmd) : (s.modCmd q t f).recov = s.recov := rfl
@[simp] theorem modCmd_courses (s : State) (q : QpId) (t : Nat) (f : Cmd → Cmd) : (s.modCmd q t f).courses = s.courses := rfl
@[simp] theorem modCmd_nextHandle (s : State) (q : QpId) (t : Nat) (f : Cmd → Cmd) : (s.modCmd q t f).nextHandle = s.nextHandle := rfl
@[simp] theorem modCmd_mem (s : State) (q : QpId) (t : Nat) (f : Cmd → Cmd) : (s.modCmd q t f).mem = s.mem := rfl
@[simp] theorem modCmd_freeCtr (s : State) (q : QpId) (t : Nat) (f : Cmd → Cmd) : (s.modCmd q t f).freeCtr = s.freeCtr := rfl
@[simp] theorem modCmd_readData (s : State) (q : QpId) (t : Nat) (f : Cmd → Cmd) : (s.modCmd q t f).readData = s.readData := rfl
@[simp] theorem modCmd_sent (s : State) (q : QpId) (t : Nat) (f : Cmd → Cmd) : (s.modCmd q t f).sent = s.sent := rfl
@[simp] theorem modCmd_pending (s : State) (q : QpId) (t : Nat) (f : Cmd → Cmd) : (s.modCmd q t f).pending = s.pending := rfl

@[simp] theorem dropCmd_mode (s : State) (q : QpId) (t : Nat) : (s.dropCmd q t).mode = s.mode := rfl
@[simp] theorem dropCmd_aon (s : State) (q : QpId) (t : Nat) : (s.dropCmd q t).aon = s.aon := rfl
@[simp] theorem dropCmd_mgmt (s : State) (q : QpId) (t : Nat) : (s.dropCmd q t).mgmt = s.mgmt := rfl
@[simp] theorem dropCmd_eave (s : State) (q : QpId) (t : Nat) : (s.dropCmd q t).eave = s.eave := rfl
@[simp] theorem dropCmd_pat (s : State) (q : QpId) (t : Nat) : (s.dropCmd q t).pat = s.pat := rfl
@[simp] theorem dropCmd_logs (s : State) (q : QpId) (t : Nat) : (s.dropCmd q t).logs = s.logs := rfl
@[simp] theorem dropCmd_events (s : State) (q : QpId) (t : Nat) : (s.dropCmd q t).events = s.events := rfl
@[simp] theorem dropCmd_adminQ (s : State) (q : QpId) (t : Nat) : (s.dropCmd q t).adminQ = s.adminQ := rfl
@[simp] theorem dropCmd_qps (s : State) (q : QpId) (t : Nat) : (s.dropCmd q t).qps = s.qps := rfl
@[simp] theorem dropCmd_lastQp (s : State) (q : QpId) (t : Nat) : (s.dropCmd q t).lastQp = s.lastQp := rfl
@[simp] theorem dropCmd_turns (s : State) (q : QpId) (t : Nat) : (s.dropCmd q t).turns = s.turns := rfl
@[simp] theorem dropCmd_orders (s : State) (q : QpId) (t : Nat) : (s.dropCmd q t).orders = s.orders := rfl
@[simp] theorem dropCmd_sec (s : State) (q : QpId) (t : Nat) : (s.dropCmd q t).sec = s.sec := rfl
@[simp] theorem dropCmd_ring (s : State) (q : QpId) (t : Nat) : (s.dropCmd q t).ring = s.ring := rfl
@[simp] theorem dropCmd_girth (s : State) (q : QpId) (t : Nat) : (s.dropCmd q t).girth = s.girth := rfl
@[simp] theorem dropCmd_bays (s : State) (q : QpId) (t : Nat) : (s.dropCmd q t).bays = s.bays := rfl
@[simp] theorem dropCmd_beams (s : State) (q : QpId) (t : Nat) : (s.dropCmd q t).beams = s.beams := rfl
@[simp] theorem dropCmd_buses (s : State) (q : QpId) (t : Nat) : (s.dropCmd q t).buses = s.buses := rfl
@[simp] theorem dropCmd_recov (s : State) (q : QpId) (t : Nat) : (s.dropCmd q t).recov = s.recov := rfl
@[simp] theorem dropCmd_courses (s : State) (q : QpId) (t : Nat) : (s.dropCmd q t).courses = s.courses := rfl
@[simp] theorem dropCmd_nextHandle (s : State) (q : QpId) (t : Nat) : (s.dropCmd q t).nextHandle = s.nextHandle := rfl
@[simp] theorem dropCmd_mem (s : State) (q : QpId) (t : Nat) : (s.dropCmd q t).mem = s.mem := rfl
@[simp] theorem dropCmd_freeCtr (s : State) (q : QpId) (t : Nat) : (s.dropCmd q t).freeCtr = s.freeCtr := rfl
@[simp] theorem dropCmd_readData (s : State) (q : QpId) (t : Nat) : (s.dropCmd q t).readData = s.readData := rfl
@[simp] theorem dropCmd_sent (s : State) (q : QpId) (t : Nat) : (s.dropCmd q t).sent = s.sent := rfl
@[simp] theorem dropCmd_pending (s : State) (q : QpId) (t : Nat) : (s.dropCmd q t).pending = s.pending := rfl

@[simp] theorem modCourse_mode (s : State) (h : Nat) (f : Course → Course) : (s.modCourse h f).mode = s.mode := rfl
@[simp] theorem modCourse_aon (s : State) (h : Nat) (f : Course → Course) : (s.modCourse h f).aon = s.aon := rfl
@[simp] theorem modCourse_mgmt (s : State) (h : Nat) (f : Course → Course) : (s.modCourse h f).mgmt = s.mgmt := rfl
@[simp] theorem modCourse_eave (s : State) (h : Nat) (f : Course → Course) : (s.modCourse h f).eave = s.eave := rfl
@[simp] theorem modCourse_pat (s : State) (h : Nat) (f : Course → Course) : (s.modCourse h f).pat = s.pat := rfl
@[simp] theorem modCourse_logs (s : State) (h : Nat) (f : Course → Course) : (s.modCourse h f).logs = s.logs := rfl
@[simp] theorem modCourse_events (s : State) (h : Nat) (f : Course → Course) : (s.modCourse h f).events = s.events := rfl
@[simp] theorem modCourse_adminQ (s : State) (h : Nat) (f : Course → Course) : (s.modCourse h f).adminQ = s.adminQ := rfl
@[simp] theorem modCourse_qps (s : State) (h : Nat) (f : Course → Course) : (s.modCourse h f).qps = s.qps := rfl
@[simp] theorem modCourse_lastQp (s : State) (h : Nat) (f : Course → Course) : (s.modCourse h f).lastQp = s.lastQp := rfl
@[simp] theorem modCourse_turns (s : State) (h : Nat) (f : Course → Course) : (s.modCourse h f).turns = s.turns := rfl
@[simp] theorem modCourse_tags (s : State) (h : Nat) (f : Course → Course) : (s.modCourse h f).tags = s.tags := rfl
@[simp] theorem modCourse_orders (s : State) (h : Nat) (f : Course → Course) : (s.modCourse h f).orders = s.orders := rfl
@[simp] theorem modCourse_sec (s : State) (h : Nat) (f : Course → Course) : (s.modCourse h f).sec = s.sec := rfl
@[simp] theorem modCourse_ring (s : State) (h : Nat) (f : Course → Course) : (s.modCourse h f).ring = s.ring := rfl
@[simp] theorem modCourse_girth (s : State) (h : Nat) (f : Course → Course) : (s.modCourse h f).girth = s.girth := rfl
@[simp] theorem modCourse_bays (s : State) (h : Nat) (f : Course → Course) : (s.modCourse h f).bays = s.bays := rfl
@[simp] theorem modCourse_beams (s : State) (h : Nat) (f : Course → Course) : (s.modCourse h f).beams = s.beams := rfl
@[simp] theorem modCourse_buses (s : State) (h : Nat) (f : Course → Course) : (s.modCourse h f).buses = s.buses := rfl
@[simp] theorem modCourse_recov (s : State) (h : Nat) (f : Course → Course) : (s.modCourse h f).recov = s.recov := rfl
@[simp] theorem modCourse_nextHandle (s : State) (h : Nat) (f : Course → Course) : (s.modCourse h f).nextHandle = s.nextHandle := rfl
@[simp] theorem modCourse_mem (s : State) (h : Nat) (f : Course → Course) : (s.modCourse h f).mem = s.mem := rfl
@[simp] theorem modCourse_freeCtr (s : State) (h : Nat) (f : Course → Course) : (s.modCourse h f).freeCtr = s.freeCtr := rfl
@[simp] theorem modCourse_readData (s : State) (h : Nat) (f : Course → Course) : (s.modCourse h f).readData = s.readData := rfl
@[simp] theorem modCourse_sent (s : State) (h : Nat) (f : Course → Course) : (s.modCourse h f).sent = s.sent := rfl
@[simp] theorem modCourse_pending (s : State) (h : Nat) (f : Course → Course) : (s.modCourse h f).pending = s.pending := rfl

@[simp] theorem powerOn_mode (s : State) (l : List Nat) : (s.powerOn l).mode = s.mode := rfl
@[simp] theorem powerOn_mgmt (s : State) (l : List Nat) : (s.powerOn l).mgmt = s.mgmt := rfl
@[simp] theorem powerOn_eave (s : State) (l : List Nat) : (s.powerOn l).eave = s.eave := rfl
@[simp] theorem powerOn_pat (s : State) (l : List Nat) : (s.powerOn l).pat = s.pat := rfl
@[simp] theorem powerOn_logs (s : State) (l : List Nat) : (s.powerOn l).logs = s.logs := rfl
@[simp] theorem powerOn_events (s : State) (l : List Nat) : (s.powerOn l).events = s.events := rfl
@[simp] theorem powerOn_adminQ (s : State) (l : List Nat) : (s.powerOn l).adminQ = s.adminQ := rfl
@[simp] theorem powerOn_qps (s : State) (l : List Nat) : (s.powerOn l).qps = s.qps := rfl
@[simp] theorem powerOn_lastQp (s : State) (l : List Nat) : (s.powerOn l).lastQp = s.lastQp := rfl
@[simp] theorem powerOn_turns (s : State) (l : List Nat) : (s.powerOn l).turns = s.turns := rfl
@[simp] theorem powerOn_tags (s : State) (l : List Nat) : (s.powerOn l).tags = s.tags := rfl
@[simp] theorem powerOn_orders (s : State) (l : List Nat) : (s.powerOn l).orders = s.orders := rfl
@[simp] theorem powerOn_sec (s : State) (l : List Nat) : (s.powerOn l).sec = s.sec := rfl
@[simp] theorem powerOn_ring (s : State) (l : List Nat) : (s.powerOn l).ring = s.ring := rfl
@[simp] theorem powerOn_girth (s : State) (l : List Nat) : (s.powerOn l).girth = s.girth := rfl
@[simp] theorem powerOn_bays (s : State) (l : List Nat) : (s.powerOn l).bays = s.bays := rfl
@[simp] theorem powerOn_beams (s : State) (l : List Nat) : (s.powerOn l).beams = s.beams := rfl
@[simp] theorem powerOn_buses (s : State) (l : List Nat) : (s.powerOn l).buses = s.buses := rfl
@[simp] theorem powerOn_recov (s : State) (l : List Nat) : (s.powerOn l).recov = s.recov := rfl
@[simp] theorem powerOn_courses (s : State) (l : List Nat) : (s.powerOn l).courses = s.courses := rfl
@[simp] theorem powerOn_nextHandle (s : State) (l : List Nat) : (s.powerOn l).nextHandle = s.nextHandle := rfl
@[simp] theorem powerOn_mem (s : State) (l : List Nat) : (s.powerOn l).mem = s.mem := rfl
@[simp] theorem powerOn_freeCtr (s : State) (l : List Nat) : (s.powerOn l).freeCtr = s.freeCtr := rfl
@[simp] theorem powerOn_readData (s : State) (l : List Nat) : (s.powerOn l).readData = s.readData := rfl
@[simp] theorem powerOn_sent (s : State) (l : List Nat) : (s.powerOn l).sent = s.sent := rfl
@[simp] theorem powerOn_pending (s : State) (l : List Nat) : (s.powerOn l).pending = s.pending := rfl

@[simp] theorem powerOff_mode (s : State) (l : List Nat) : (s.powerOff l).mode = s.mode := rfl
@[simp] theorem powerOff_mgmt (s : State) (l : List Nat) : (s.powerOff l).mgmt = s.mgmt := rfl
@[simp] theorem powerOff_eave (s : State) (l : List Nat) : (s.powerOff l).eave = s.eave := rfl
@[simp] theorem powerOff_pat (s : State) (l : List Nat) : (s.powerOff l).pat = s.pat := rfl
@[simp] theorem powerOff_logs (s : State) (l : List Nat) : (s.powerOff l).logs = s.logs := rfl
@[simp] theorem powerOff_events (s : State) (l : List Nat) : (s.powerOff l).events = s.events := rfl
@[simp] theorem powerOff_adminQ (s : State) (l : List Nat) : (s.powerOff l).adminQ = s.adminQ := rfl
@[simp] theorem powerOff_qps (s : State) (l : List Nat) : (s.powerOff l).qps = s.qps := rfl
@[simp] theorem powerOff_lastQp (s : State) (l : List Nat) : (s.powerOff l).lastQp = s.lastQp := rfl
@[simp] theorem powerOff_turns (s : State) (l : List Nat) : (s.powerOff l).turns = s.turns := rfl
@[simp] theorem powerOff_tags (s : State) (l : List Nat) : (s.powerOff l).tags = s.tags := rfl
@[simp] theorem powerOff_orders (s : State) (l : List Nat) : (s.powerOff l).orders = s.orders := rfl
@[simp] theorem powerOff_sec (s : State) (l : List Nat) : (s.powerOff l).sec = s.sec := rfl
@[simp] theorem powerOff_ring (s : State) (l : List Nat) : (s.powerOff l).ring = s.ring := rfl
@[simp] theorem powerOff_girth (s : State) (l : List Nat) : (s.powerOff l).girth = s.girth := rfl
@[simp] theorem powerOff_bays (s : State) (l : List Nat) : (s.powerOff l).bays = s.bays := rfl
@[simp] theorem powerOff_beams (s : State) (l : List Nat) : (s.powerOff l).beams = s.beams := rfl
@[simp] theorem powerOff_buses (s : State) (l : List Nat) : (s.powerOff l).buses = s.buses := rfl
@[simp] theorem powerOff_recov (s : State) (l : List Nat) : (s.powerOff l).recov = s.recov := rfl
@[simp] theorem powerOff_courses (s : State) (l : List Nat) : (s.powerOff l).courses = s.courses := rfl
@[simp] theorem powerOff_nextHandle (s : State) (l : List Nat) : (s.powerOff l).nextHandle = s.nextHandle := rfl
@[simp] theorem powerOff_mem (s : State) (l : List Nat) : (s.powerOff l).mem = s.mem := rfl
@[simp] theorem powerOff_freeCtr (s : State) (l : List Nat) : (s.powerOff l).freeCtr = s.freeCtr := rfl
@[simp] theorem powerOff_readData (s : State) (l : List Nat) : (s.powerOff l).readData = s.readData := rfl
@[simp] theorem powerOff_sent (s : State) (l : List Nat) : (s.powerOff l).sent = s.sent := rfl
@[simp] theorem powerOff_pending (s : State) (l : List Nat) : (s.powerOff l).pending = s.pending := rfl

@[simp] theorem forceSet_mode (s : State) (i g : Nat) : (s.forceSet i g).mode = s.mode := rfl
@[simp] theorem forceSet_aon (s : State) (i g : Nat) : (s.forceSet i g).aon = s.aon := rfl
@[simp] theorem forceSet_mgmt (s : State) (i g : Nat) : (s.forceSet i g).mgmt = s.mgmt := rfl
@[simp] theorem forceSet_eave (s : State) (i g : Nat) : (s.forceSet i g).eave = s.eave := rfl
@[simp] theorem forceSet_pat (s : State) (i g : Nat) : (s.forceSet i g).pat = s.pat := rfl
@[simp] theorem forceSet_logs (s : State) (i g : Nat) : (s.forceSet i g).logs = s.logs := rfl
@[simp] theorem forceSet_events (s : State) (i g : Nat) : (s.forceSet i g).events = s.events := rfl
@[simp] theorem forceSet_adminQ (s : State) (i g : Nat) : (s.forceSet i g).adminQ = s.adminQ := rfl
@[simp] theorem forceSet_qps (s : State) (i g : Nat) : (s.forceSet i g).qps = s.qps := rfl
@[simp] theorem forceSet_lastQp (s : State) (i g : Nat) : (s.forceSet i g).lastQp = s.lastQp := rfl
@[simp] theorem forceSet_turns (s : State) (i g : Nat) : (s.forceSet i g).turns = s.turns := rfl
@[simp] theorem forceSet_tags (s : State) (i g : Nat) : (s.forceSet i g).tags = s.tags := rfl
@[simp] theorem forceSet_orders (s : State) (i g : Nat) : (s.forceSet i g).orders = s.orders := rfl
@[simp] theorem forceSet_sec (s : State) (i g : Nat) : (s.forceSet i g).sec = s.sec := rfl
@[simp] theorem forceSet_ring (s : State) (i g : Nat) : (s.forceSet i g).ring = s.ring := rfl
@[simp] theorem forceSet_bays (s : State) (i g : Nat) : (s.forceSet i g).bays = s.bays := rfl
@[simp] theorem forceSet_beams (s : State) (i g : Nat) : (s.forceSet i g).beams = s.beams := rfl
@[simp] theorem forceSet_buses (s : State) (i g : Nat) : (s.forceSet i g).buses = s.buses := rfl
@[simp] theorem forceSet_recov (s : State) (i g : Nat) : (s.forceSet i g).recov = s.recov := rfl
@[simp] theorem forceSet_courses (s : State) (i g : Nat) : (s.forceSet i g).courses = s.courses := rfl
@[simp] theorem forceSet_nextHandle (s : State) (i g : Nat) : (s.forceSet i g).nextHandle = s.nextHandle := rfl
@[simp] theorem forceSet_mem (s : State) (i g : Nat) : (s.forceSet i g).mem = s.mem := rfl
@[simp] theorem forceSet_freeCtr (s : State) (i g : Nat) : (s.forceSet i g).freeCtr = s.freeCtr := rfl
@[simp] theorem forceSet_readData (s : State) (i g : Nat) : (s.forceSet i g).readData = s.readData := rfl
@[simp] theorem forceSet_sent (s : State) (i g : Nat) : (s.forceSet i g).sent = s.sent := rfl
@[simp] theorem forceSet_pending (s : State) (i g : Nat) : (s.forceSet i g).pending = s.pending := rfl

@[simp] theorem modMem_mode (s : State) (f : Memory → Memory) : (s.modMem f).mode = s.mode := rfl
@[simp] theorem modMem_aon (s : State) (f : Memory → Memory) : (s.modMem f).aon = s.aon := rfl
@[simp] theorem modMem_mgmt (s : State) (f : Memory → Memory) : (s.modMem f).mgmt = s.mgmt := rfl
@[simp] theorem modMem_eave (s : State) (f : Memory → Memory) : (s.modMem f).eave = s.eave := rfl
@[simp] theorem modMem_pat (s : State) (f : Memory → Memory) : (s.modMem f).pat = s.pat := rfl
@[simp] theorem modMem_logs (s : State) (f : Memory → Memory) : (s.modMem f).logs = s.logs := rfl
@[simp] theorem modMem_events (s : State) (f : Memory → Memory) : (s.modMem f).events = s.events := rfl
@[simp] theorem modMem_adminQ (s : State) (f : Memory → Memory) : (s.modMem f).adminQ = s.adminQ := rfl
@[simp] theorem modMem_qps (s : State) (f : Memory → Memory) : (s.modMem f).qps = s.qps := rfl
@[simp] theorem modMem_lastQp (s : State) (f : Memory → Memory) : (s.modMem f).lastQp = s.lastQp := rfl
@[simp] theorem modMem_turns (s : State) (f : Memory → Memory) : (s.modMem f).turns = s.turns := rfl
@[simp] theorem modMem_tags (s : State) (f : Memory → Memory) : (s.modMem f).tags = s.tags := rfl
@[simp] theorem modMem_orders (s : State) (f : Memory → Memory) : (s.modMem f).orders = s.orders := rfl
@[simp] theorem modMem_sec (s : State) (f : Memory → Memory) : (s.modMem f).sec = s.sec := rfl
@[simp] theorem modMem_ring (s : State) (f : Memory → Memory) : (s.modMem f).ring = s.ring := rfl
@[simp] theorem modMem_girth (s : State) (f : Memory → Memory) : (s.modMem f).girth = s.girth := rfl
@[simp] theorem modMem_bays (s : State) (f : Memory → Memory) : (s.modMem f).bays = s.bays := rfl
@[simp] theorem modMem_beams (s : State) (f : Memory → Memory) : (s.modMem f).beams = s.beams := rfl
@[simp] theorem modMem_buses (s : State) (f : Memory → Memory) : (s.modMem f).buses = s.buses := rfl
@[simp] theorem modMem_recov (s : State) (f : Memory → Memory) : (s.modMem f).recov = s.recov := rfl
@[simp] theorem modMem_courses (s : State) (f : Memory → Memory) : (s.modMem f).courses = s.courses := rfl
@[simp] theorem modMem_nextHandle (s : State) (f : Memory → Memory) : (s.modMem f).nextHandle = s.nextHandle := rfl
@[simp] theorem modMem_freeCtr (s : State) (f : Memory → Memory) : (s.modMem f).freeCtr = s.freeCtr := rfl
@[simp] theorem modMem_readData (s : State) (f : Memory → Memory) : (s.modMem f).readData = s.readData := rfl
@[simp] theorem modMem_sent (s : State) (f : Memory → Memory) : (s.modMem f).sent = s.sent := rfl
@[simp] theorem modMem_pending (s : State) (f : Memory → Memory) : (s.modMem f).pending = s.pending := rfl

/-! ## What an update's own part reads -/

@[simp] theorem setBay_bay (s : State) (b n : Nat) (v : Bay) :
    (s.setBay b v).bay n = if n = b then v else s.bay n := Tbl_get_set _ _ _ _ _
@[simp] theorem modBay_bay_same (s : State) (b : Nat) (f : Bay → Bay) : (s.modBay b f).bay b = f (s.bay b) := by
  simp [State.modBay]
theorem modBay_bay_other (s : State) {b n : Nat} (f : Bay → Bay) (h : n ≠ b) : (s.modBay b f).bay n = s.bay n := by
  simp [State.modBay, h]
@[simp] theorem modSpin_spin (s : State) (b : Nat) (f : Spindle → Spindle) :
    ((s.modSpin b f).bay b).spin = f (s.bay b).spin := by simp [State.modSpin]
@[simp] theorem modSled_sled (s : State) (b : Nat) (f : Sled → Sled) :
    ((s.modSled b f).bay b).sled = f (s.bay b).sled := by simp [State.modSled]
@[simp] theorem modServo_servo (s : State) (b : Nat) (f : Servo → Servo) :
    ((s.modServo b f).bay b).servo = f (s.bay b).servo := by simp [State.modServo]
@[simp] theorem modWelt_welt (s : State) (b : Nat) (f : Welt → Welt) :
    ((s.modWelt b f).bay b).welt = f (s.bay b).welt := by simp [State.modWelt]
@[simp] theorem modChan_chan (s : State) (b : Nat) (f : Channel → Channel) :
    ((s.modChan b f).bay b).chan = f (s.bay b).chan := by simp [State.modChan]
@[simp] theorem modDisc_disc (s : State) (b : Nat) (f : Disc → Disc) :
    ((s.modDisc b f).bay b).disc = (s.bay b).disc.map f := by simp [State.modDisc]
@[simp] theorem modWrite_write (s : State) (b : Nat) (f : WriteSess → WriteSess) :
    ((s.modWrite b f).bay b).write = (s.bay b).write.map f := by simp [State.modWrite]
@[simp] theorem modBeam_beam (s : State) (g : Nat) (f : Beam → Beam) : (s.modBeam g f).beam g = f (s.beam g) := by
  simp [State.modBeam, State.beam]
@[simp] theorem modBus_bus (s : State) (g : Nat) (f : Bus → Bus) : (s.modBus g f).bus g = f (s.bus g) := by
  simp [State.modBus, State.bus]
@[simp] theorem modSlot_slot (s : State) (i : Nat) (f : GSlot → GSlot) : (s.modSlot i f).slot i = f (s.slot i) := by
  simp [State.modSlot, State.slot]
@[simp] theorem modQp_qp (s : State) (q : QpId) (f : Qp → Qp) : (s.modQp q f).qp q = f (s.qp q) := by
  simp [State.modQp, State.qp]
@[simp] theorem send_sent (s : State) (o : Output) : (s.send o).sent = s.sent ++ [o] := rfl
@[simp] theorem fresh_value (s : State) : s.fresh.1 = Config.free s.freeCtr := rfl
@[simp] theorem fresh_state (s : State) : s.fresh.2 = { s with freeCtr := s.freeCtr + 1 } := rfl

/-! ## Frames -/

theorem changesOnly_refl (ps : List Part) (s : State) : s.changesOnly ps s := by
  intro p _; cases p <;> rfl

theorem changesOnly_mono {ps qs : List Part} {s t : State} (h : s.changesOnly ps t) (hs : ps ⊆ qs) :
    s.changesOnly qs t := fun p hp => h p (fun m => hp (hs m))

theorem changesOnly_trans {ps : List Part} {s t u : State} (h : s.changesOnly ps t) (g : t.changesOnly ps u) :
    s.changesOnly ps u := by
  intro p hp
  have h1 := h p hp
  have h2 := g p hp
  cases p <;> simp only [State.agrees] at * <;> exact h2.trans h1

theorem onlyBay_refl (b : Nat) (s : State) : s.onlyBay b s := fun _ _ => rfl

theorem onlyBay_trans {b : Nat} {s t u : State} (h : s.onlyBay b t) (g : t.onlyBay b u) : s.onlyBay b u :=
  fun n hn => (g n hn).trans (h n hn)

theorem modBay_onlyBay (s : State) (b : Nat) (f : Bay → Bay) : s.onlyBay b (s.modBay b f) :=
  fun _ hn => modBay_bay_other s f hn

theorem modBay_changesOnly (s : State) (b : Nat) (f : Bay → Bay) : s.changesOnly [.bays] (s.modBay b f) := by
  intro p hp; cases p <;> first | rfl | exact absurd (by simp) hp

/-- A command that completes with `P` completes with anything that `P` gives. -/
theorem completes_imp {c : Instr} {s : State} {P Q : State → Prop} (h : completes c s P) (hpq : ∀ t, P t → Q t) :
    completes c s Q := by
  obtain ⟨t, ht, hp⟩ := h
  exact ⟨t, ht, hpq t hp⟩

end Sys2Proof.Laws
end

