-- ==== Sys2Proof/Laws/Memory.lean ====
section
/-! SUPPORT. DRAM content: a byte read after a write, and that every memory operation keeps the canonical form. -/

namespace Sys2Proof.Laws

open Sys2Proof Sys2Proof.Machine

/-- A byte read after a byte was written. -/
@[simp] theorem readByte_writeByte (m : Memory) (a n : Nat) (v : Byte) :
    (m.writeByte a v).readByte n = if n = a then v else m.readByte n := Tbl_get_set _ _ _ _ _

theorem writeByte_wf (m : Memory) (a : Nat) (v : Byte) (h : m.wf = true) : (m.writeByte a v).wf = true :=
  Tbl_wf_set _ _ _ _ h

theorem writeBytes_wf (m : Memory) (a : Nat) (l : List Byte) (h : m.wf = true) : (m.writeBytes a l).wf = true := by
  induction l generalizing m a with
  | nil => exact h
  | cons v r ih => exact ih _ _ (writeByte_wf m a v h)

/-- Writing bytes leaves what lies outside them. -/
theorem readByte_writeBytes_outside (m : Memory) (a n : Nat) (l : List Byte) (h : n < a ∨ a + l.length ≤ n) :
    (m.writeBytes a l).readByte n = m.readByte n := by
  induction l generalizing m a with
  | nil => rfl
  | cons v r ih =>
    have hn : n ≠ a := by simp only [List.length_cons] at h; omega
    rw [Memory.writeBytes, ih _ _ (by simp only [List.length_cons] at h; omega), readByte_writeByte, if_neg hn]

/-- A line written whole keeps the canonical form. -/
theorem writeLine_wf (m : Memory) (line : Nat) (l : List Byte) (p : Bool) (h : m.wf = true) :
    (m.writeLine line l p).wf = true := writeBytes_wf m _ _ h

/-- A line written whole leaves the bytes of every other line. -/
theorem readByte_writeLine_other (m : Memory) (line n : Nat) (l : List Byte) (p : Bool) (h : n / 64 ≠ line) :
    (m.writeLine line l p).readByte n = m.readByte n := by
  have hl : (l.take 64).length ≤ 64 := by simp
  exact readByte_writeBytes_outside m _ n _ (by omega)

/-- The content after reset is canonical. -/
theorem reset_mem_wf : State.reset.mem.wf = true := rfl

end Sys2Proof.Laws
end

