-- ==== Sys2Proof/Laws/Ops.lean ====
section
/-! SUPPORT. What each shared operation can do, said once: the parts of the state it may change, and for the logs and the
event queue the bounds they keep. -/

namespace Sys2Proof.Laws

open Sys2Proof Sys2Proof.Machine

theorem changesOnly_ite {ps : List Part} {s t u : State} {c : Prop} [Decidable c] (h : s.changesOnly ps t)
    (g : s.changesOnly ps u) : s.changesOnly ps (if c then t else u) := by
  split
  · exact h
  · exact g

/-- A fold of steps that each change only listed parts. -/
theorem changesOnly_foldl {α : Type} {ps : List Part} (f : State → α → State)
    (h : ∀ (s : State) (a : α), s.changesOnly ps (f s a)) (l : List α) (s : State) : s.changesOnly ps (l.foldl f s) := by
  induction l generalizing s with
  | nil => exact changesOnly_refl ps s
  | cons a r ih => exact changesOnly_trans (h s a) (ih (f s a))

/-! ## Events and logs -/

theorem event_changesOnly (s : State) (c : Nat) (p : List Byte) : s.changesOnly [.events] (s.event c p) := by
  unfold State.event
  split
  · intro q hq; cases q <;> first | rfl | exact absurd (by simp) hq
  · exact changesOnly_refl _ s

theorem logFull_changesOnly (s : State) (d : Bool) (p i : Nat) : s.changesOnly [.events] (s.logFull d p i) := by
  unfold State.logFull
  split
  · exact event_changesOnly _ _ _
  · exact changesOnly_refl _ s

theorem withLogs_changesOnly (s : State) (l : Logs) : s.changesOnly [.logs] { s with logs := l } := by
  intro q hq; cases q <;> first | rfl | exact absurd (by simp) hq

theorem log_changesOnly (s : State) (pg : Page) (c b d : Nat) : s.changesOnly [.logs, .events] (s.log pg c b d) := by
  cases pg <;>
    exact changesOnly_trans (changesOnly_mono (withLogs_changesOnly s _) (by simp))
      (changesOnly_mono (logFull_changesOnly _ _ _ _) (by simp))

theorem fresh_changesOnly (s : State) : s.changesOnly [.freeCtr] s.fresh.2 := by
  intro q hq; cases q <;> first | rfl | exact absurd (by simp) hq

theorem logFree_changesOnly (s : State) (pg : Page) (c b : Nat) :
    s.changesOnly [.logs, .events, .freeCtr] (s.logFree pg c b) :=
  changesOnly_trans (changesOnly_mono (fresh_changesOnly s) (by simp)) (changesOnly_mono (log_changesOnly _ _ _ _ _) (by simp))

/-- An entry added keeps a page within its capacity. -/
theorem add_within {α : Type} (p : LogPage α) (cap : Nat) (e : α) (h : p.within cap) : (p.add cap e).1.within cap := by
  unfold LogPage.add
  split
  · simp only [LogPage.within, List.length_append, List.length_singleton]; omega
  · exact h

/-- Counting a repeat keeps the number of entries. -/
theorem bumpRepeat_length (n c b : Nat) (l es : List LogEntry) (h : bumpRepeat n c b l = some es) :
    es.length = l.length := by
  induction l generalizing es with
  | nil => simp [bumpRepeat] at h
  | cons e r ih =>
    simp only [bumpRepeat] at h
    split at h
    · cases h; rfl
    · obtain ⟨t, ht, rfl⟩ := Option.map_eq_some_iff.1 h
      simp [ih t ht]

/-- A note keeps a page within its 1,024 entries. -/
theorem note_within (p : LogPage LogEntry) (now c b d : Nat) (h : p.within 1024) : (p.note now c b d).1.within 1024 := by
  unfold LogPage.note
  split
  · rename_i es hes
    simpa [LogPage.within, bumpRepeat_length _ _ _ _ _ hes] using h
  · exact add_within p 1024 _ h

/-- An event posted keeps the share of the other events within 128 (R389). -/
theorem post_others (e : Events) (now c : Nat) (p : List Byte) (h : e.others ≤ 128) : (e.post now c p).others ≤ 128 := by
  unfold Events.post
  split
  · exact h
  · split
    · rename_i hc
      have h2 : List.filter (fun v : Event => !(v.code == 1 || v.code == 2)) [⟨c, now, p⟩] = [] := by
        rcases hc with rfl | rfl <;> rfl
      simpa only [Events.others, List.filter_append, h2, List.append_nil] using h
    · split
      · rename_i hlt
        simp only [Events.others, List.filter_append, List.length_append] at *
        have h1 : (List.filter (fun v : Event => !(v.code == 1 || v.code == 2)) [⟨c, now, p⟩]).length ≤ 1 := by
          exact List.length_filter_le _ _
        omega
      · exact h

/-! ## Completions -/

theorem queueFrame_changesOnly (s : State) (q : QpId) (f t : Nat) (b : List Byte) :
    s.changesOnly [.qps] (s.queueFrame q f t b) := by
  intro p hp; cases p <;> first | rfl | exact absurd (by simp) hp

theorem finish_changesOnly (s : State) (q : QpId) (t r st c a b : Nat) :
    s.changesOnly [.qps, .tags] (s.finish q t r st c a b) := by
  unfold State.finish
  intro p hp
  split <;> cases p <;> first | rfl | exact absurd (by simp) hp

theorem finishFree_changesOnly (s : State) (q : QpId) (t st c a : Nat) :
    s.changesOnly [.qps, .tags, .freeCtr] (s.finishFree q t st c a) :=
  changesOnly_trans (changesOnly_mono (fresh_changesOnly s) (by simp)) (changesOnly_mono (finish_changesOnly _ _ _ _ _ _ _ _) (by simp))

/-- A command that ends leaves the tag store: no command of its queue pair and tag remains (R360). -/
theorem finish_cmd_none (s : State) (q : QpId) (t r st c a b : Nat) : (s.finish q t r st c a b).cmd? q t = none := by
  have h : ∀ u : State, (u.dropCmd q t).cmd? q t = none := by
    intro u
    simp only [State.dropCmd, State.cmd?, List.find?_eq_none, List.mem_filter]
    rintro x ⟨-, hx⟩ hc
    simp [hc] at hx
  exact h _

/-! ## Modes and domains -/

theorem enterMode_changesOnly (s : State) (m : Mode) (c : Nat) :
    s.changesOnly [.mode, .mgmt, .events, .logs, .freeCtr] (s.enterMode m c) := by
  unfold State.enterMode
  split
  · intro p hp; cases p <;> first | rfl | exact absurd (by simp) hp
  · refine changesOnly_trans (t := { s with mode := m }) ?_ (changesOnly_trans
      (changesOnly_mono (event_changesOnly _ _ _) (by simp)) (changesOnly_mono (logFree_changesOnly _ _ _ _) (by simp)))
    intro p hp; cases p <;> first | rfl | exact absurd (by simp) hp

/-- The mode entered is the mode in force. -/
@[simp] theorem enterMode_mode (s : State) (m : Mode) (c : Nat) : (s.enterMode m c).mode = m := by
  unfold State.enterMode
  split
  · rfl
  · have h1 := logFree_changesOnly ((({ s with mode := m } : State)).modeEvent s.mode m c false) .device 0x0E01 0xFF .mode
      (by simp)
    have h2 := event_changesOnly ({ s with mode := m } : State) evModeChanged
      (beBytes 1 s.mode.code ++ beBytes 1 m.code ++ beBytes 1 c ++ beBytes 1 (bitNat false)) .mode (by simp)
    exact h1.trans h2

/-! ## Lasers and the stops of a run -/

theorem send_changesOnly (s : State) (o : Output) : s.changesOnly [.sent] (s.send o) := by
  intro p hp; cases p <;> first | rfl | exact absurd (by simp) hp

theorem sendLane_changesOnly (s : State) (b : BayId) (n : Fin 2) (l : List LaneBlock) :
    s.changesOnly [.sent, .bays] (s.sendLane b n l) :=
  changesOnly_trans (changesOnly_mono (modBay_changesOnly s b.val _) (by simp))
    (changesOnly_mono (send_changesOnly _ _) (by simp))

theorem urgent_changesOnly (s : State) (b c : Nat) : s.changesOnly [.sent, .bays] (s.urgent b c) := by
  unfold State.urgent
  split
  · exact changesOnly_refl _ s
  · split
    · exact changesOnly_trans (changesOnly_trans (sendLane_changesOnly s _ _ _) (sendLane_changesOnly _ _ _ _))
        (changesOnly_mono (modBay_changesOnly _ _ _) (by simp))
    · exact changesOnly_refl _ s

theorem lasersOff_changesOnly (s : State) (b : Nat) : s.changesOnly [.sent, .bays] (s.lasersOff b) :=
  changesOnly_trans (urgent_changesOnly s b ucLoff) (changesOnly_mono (modBay_changesOnly _ b _) (by simp))

theorem immediateStop_changesOnly (s : State) (b : Nat) : s.changesOnly [.bays] (s.immediateStop b) := by
  unfold State.immediateStop
  split
  · split
    · exact modBay_changesOnly _ _ _
    · split
      · exact modBay_changesOnly _ _ _
      · exact changesOnly_refl _ s
  · exact changesOnly_refl _ s

theorem boundaryStop_changesOnly (s : State) (b : Nat) : s.changesOnly [.bays] (s.boundaryStop b) := by
  unfold State.boundaryStop
  split
  · split
    · exact modBay_changesOnly _ _ _
    · exact changesOnly_refl _ s
  · exact changesOnly_refl _ s

theorem slotEndStop_changesOnly (s : State) (b : Nat) : s.changesOnly [.bays] (s.slotEndStop b) :=
  modBay_changesOnly _ _ _

theorem withRecov_changesOnly (s : State) (r : Recovery) : s.changesOnly [.recov] { s with recov := r } := by
  intro p hp; cases p <;> first | rfl | exact absurd (by simp) hp

theorem withPat_changesOnly (s : State) (q : Pattern) : s.changesOnly [.pat] { s with pat := q } := by
  intro p hp; cases p <;> first | rfl | exact absurd (by simp) hp

theorem pushJob_changesOnly (s : State) (j : LdpcJob) : s.changesOnly [.recov] (s.pushJob j) :=
  changesOnly_trans (withRecov_changesOnly s _) (withRecov_changesOnly _ _)

/-- The S7 sectors dropped change the ladders and the bay only. -/
theorem dropSeam_changesOnly (s : State) (b : Nat) : s.changesOnly [.recov, .bays] (s.dropSeam b) := by
  unfold State.dropSeam
  split
  · exact changesOnly_refl _ s
  · exact changesOnly_trans (changesOnly_mono (withRecov_changesOnly s _) (by simp))
      (changesOnly_mono (modBay_changesOnly _ b _) (by simp))

theorem dropOffsets_changesOnly (s : State) (b : Nat) : s.changesOnly [.bays, .pat] (s.dropOffsets b) := by
  have hb (u : State) (f : Bay → Bay) : u.changesOnly [.bays, .pat] (u.modBay b f) :=
    changesOnly_mono (modBay_changesOnly u b f) (by simp)
  exact changesOnly_trans (changesOnly_trans
    (changesOnly_ite (changesOnly_refl _ s) (changesOnly_mono (withPat_changesOnly s _) (by simp)))
    (changesOnly_ite (changesOnly_refl _ _) (hb _ _))) (hb _ _)

theorem endRun_changesOnly (s : State) (b : Nat) : s.changesOnly [.recov, .bays, .pat] (s.endRun b) :=
  changesOnly_trans (changesOnly_mono (dropSeam_changesOnly s b) (by simp))
    (changesOnly_trans (changesOnly_mono (dropOffsets_changesOnly _ b) (by simp))
      (changesOnly_mono (modBay_changesOnly _ b _) (by simp)))

theorem cutRun_changesOnly (s : State) (b : Nat) : s.changesOnly [.recov, .bays, .pat] (s.cutRun b) := by
  have hj : ∀ (u : State) (x : SeamSlot), u.changesOnly [.recov, .bays, .pat]
      (if x.report.outcome = .pending then u.sendSeam b x (x.part.map (· * 16384)) else u) := by
    intro u x
    split
    · exact changesOnly_mono (pushJob_changesOnly u _) (by simp)
    · exact changesOnly_refl _ u
  exact changesOnly_trans (changesOnly_foldl _ hj _ s)
    (changesOnly_trans (changesOnly_mono (modBay_changesOnly _ b _) (by simp)) (endRun_changesOnly _ b))

/-! ## HOLD and SAFE -/

/-- The parts that an entry to HOLD or SAFE may change. -/
abbrev safeParts : List Part := [.recov, .bays, .pat, .sent, .girth, .logs, .events, .freeCtr, .qps, .tags]

theorem modSlot_changesOnly (s : State) (i : Nat) (f : GSlot → GSlot) : s.changesOnly [.girth] (s.modSlot i f) := by
  intro p hp; cases p <;> first | rfl | exact absurd (by simp) hp

theorem dropOutputs_changesOnly (s : State) (b : Nat) (z : Bool) : s.changesOnly [.girth] (s.dropOutputs b z) :=
  changesOnly_trans (changesOnly_foldl _ (fun u i => modSlot_changesOnly u i _) _ s)
    (changesOnly_foldl _ (fun u i => modSlot_changesOnly u i _) _ _)

theorem failMount_changesOnly (s : State) (b r : Nat) : s.changesOnly safeParts (s.failMount b r) := by
  have hd : ∀ (u : State) (x : DiscReq) (n : Nat), u.changesOnly safeParts (discNeeded u x n) :=
    fun u x n => changesOnly_mono (event_changesOnly _ _ _) (by simp)
  have hb : ∀ (u : State) (f : Bay → Bay), u.changesOnly safeParts (u.modBay b f) :=
    fun u f => changesOnly_mono (modBay_changesOnly u b f) (by simp)
  have hf : ∀ (u : State) (q : QpId) (t st c a : Nat), u.changesOnly safeParts (u.finishFree q t st c a) :=
    fun u q t st c a => changesOnly_mono (finishFree_changesOnly _ _ _ _ _ _) (by simp)
  unfold State.failMount
  split
  · exact changesOnly_refl _ s
  · dsimp only
    split <;> split
    · exact changesOnly_trans (hb s _) (changesOnly_trans (hd _ _ _) (hf _ _ _ _ _ _))
    · exact changesOnly_trans (hb s _) (hd _ _ _)
    · exact changesOnly_trans (hb s _) (hf _ _ _ _ _ _)
    · exact hb s _

/-- The run ends, and the lasers go off. -/
theorem stopAll_changesOnly (s : State) (b : Nat) :
    s.changesOnly safeParts (((s.immediateStop b).cutRun b).lasersOff b) :=
  changesOnly_trans (changesOnly_mono (immediateStop_changesOnly s b) (by simp))
    (changesOnly_trans (changesOnly_mono (cutRun_changesOnly _ b) (by simp))
      (changesOnly_mono (lasersOff_changesOnly _ b) (by simp)))

theorem forceSet_changesOnly (s : State) (i g : Nat) : s.changesOnly safeParts (s.forceSet i g) :=
  changesOnly_mono (modSlot_changesOnly s i _) (by simp)

theorem safeEntry_changesOnly (s : State) (b c : Nat) : s.changesOnly safeParts (s.safeEntry b c) := by
  have h (f : Bay → Bay) : s.changesOnly safeParts (((((((s.immediateStop b).cutRun b).lasersOff b).failMount b 8).modBay b f
      ).forceSet (sledSlot b) 8).dropOutputs b true) :=
    changesOnly_trans (stopAll_changesOnly s b)
      (changesOnly_trans (failMount_changesOnly _ b 8)
        (changesOnly_trans (changesOnly_mono (modBay_changesOnly _ b _) (by simp))
          (changesOnly_trans (forceSet_changesOnly _ _ _) (changesOnly_mono (dropOutputs_changesOnly _ b true) (by simp)))))
  unfold State.safeEntry
  exact h _

theorem enterSafe_changesOnly (s : State) (b c : Nat) : s.changesOnly safeParts (s.enterSafe b c) := by
  unfold State.enterSafe
  split
  · exact changesOnly_refl _ s
  · exact changesOnly_trans (safeEntry_changesOnly s b c)
      (changesOnly_trans (changesOnly_mono (logFree_changesOnly _ _ _ _) (by simp))
        (changesOnly_mono (event_changesOnly _ _ _) (by simp)))

theorem enterHold_changesOnly (s : State) (b : Nat) : s.changesOnly safeParts (s.enterHold b) := by
  have h (f : Bay → Bay) : s.changesOnly safeParts
      ((((((s.immediateStop b).cutRun b).lasersOff b).modBay b f).forceSet (sledSlot b) 7).dropOutputs b false) :=
    changesOnly_trans (stopAll_changesOnly s b)
      (changesOnly_trans (changesOnly_mono (modBay_changesOnly _ b _) (by simp))
        (changesOnly_trans (forceSet_changesOnly _ _ _) (changesOnly_mono (dropOutputs_changesOnly _ b false) (by simp))))
  unfold State.enterHold
  split
  case h_6 => exact changesOnly_refl _ s
  all_goals
    dsimp only
    split
    · exact changesOnly_trans (h _) (enterSafe_changesOnly _ _ _)
    · exact h _

end Sys2Proof.Laws
end

