-- ==== Sys2Proof/Tests/Slice0.lean ====
section
/-! SUPPORT. The model's own tests: ill-formed commands that are refused, the manual's worked examples, a few single
commands, and for every statement that has hypotheses a concrete state and operands that meet them, clause by clause. -/

set_option maxRecDepth 20000
set_option Elab.async false

open Sys2Proof Sys2Proof.Machine Sys2Proof.Laws

/-! ## Small states -/

/-- All bays at standstill. -/
def testStill : Tbl Bay := allBays.map fun b => (b, { spin := { confirmed := true } })
/-- An admin command from gateway A with its payload complete, and the engine in a mode with it at the head. -/
def testAdmin (opcode flags : Nat) (args payload : List Byte) : AdminCmd :=
  { via := .ring .a, opcode := opcode, flags := flags, tag := 5, len := payload.length, rlen := 4096, args := args
    payload := payload, units := List.range ((payload.length + 4095) / 4096), at_ := 0 }
def testAt (m : Mode) (c : AdminCmd) : State := { State.reset with mode := m, adminQ := [c], ring := { tapped := true } }
/-- A data SQE and its command in the tag store. -/
def testSqe (opcode action : Nat) (args : List Byte) : DataSqe :=
  { (default : DataSqe) with opcode := opcode, action := action, name := 1, count := 1, handle := 1, tenant := 1, args := args }
def testCmd (x : DataSqe) : Cmd := { (default : Cmd) with q := .data 1, sqe := x }
/-- A disc of 2 layers, a course of 2 data discs and 1 parity disc on bays 0 to 2, and a write session. -/
def testDisc (id : Nat) : Disc :=
  { (default : Disc) with dtype := .plain, layers := 2, discId := id, hints := [default, default], append := [1, 0],
                          nextOpc := [0, 0], lastOpc := [0, 0], spareUsed := [0, 0] }
def testCourse : Course :=
  { (default : Course) with handle := 1, id := 1, d := 2, p := 1, dtype := .plain, layers := 2, bays := [0, 1, 2] }
def testSess (ph : SessPhase) : WriteSess := { handle := 1, seq := 1, phase := ph, layer := 0, start := 0, openedAt := 0 }
/-- A frame from one node to another on the East port, with its header check, and an engine that is tapped as node 7. -/
def testFrame (ftype dst src qp len : Nat) (body : List Byte) : Frame :=
  let f : Frame := { port := .east, pcp := 7, ver := 0x10, ftype := ftype, dst := dst, src := src, dir := false, retx := false
                     wrap := false, hops := 0, qp := qp, len := len, seq := 0, tag := 5, hcrc := 0, body := body, fcsOk := true }
  { f with hcrc := hcrcOf f }
def testRing : State :=
  { State.reset with mode := .active, aon := { power := 0xFFFFF }, ring := { tapped := true, node := 7 } }
/-- The tapped engine with one command, disc, course or open queue pair. -/
def testData (c : Cmd) : State := { testRing with tags := [c] }
def testQp (p : Qp) : State := { testRing with qps := [(1, { p with state := .opened, peer := 9, depth := 64 })] }
/-- A bay in SAFE that may restart, one with a member disc that may bind, and one in which a run may start. -/
def testSafe : Bay := { state := .safe, disc := some (testDisc 1), welt := { phase := .up }, spin := { confirmed := true } }
def testMember (id : Nat) : Bay := { state := .track, disc := some (testDisc id), servo := { registered := true, tracking := true } }
def testBay : Bay :=
  { state := .track, disc := some (testDisc 1), servo := { registered := true, tracking := true }, spin := { atSpeed := true }
    welt := { band := .ht0 } }
/-- An APPEND of two sectors under way, and a DATA frame with its first. -/
def testAppend : Cmd := { testCmd { testSqe 2 0 [] with tag := 5, count := 2 } with started := true }
def testUnit : Frame := testFrame 2 7 9 1 4104 (0 :: 0 :: 0 :: 0 :: 1 :: List.replicate 4099 0)
/-- The tile's report of a slot. -/
def testReport (a : SlotAddr) : SlotReport := { (default : SlotReport) with addr := a }
/-- A target block of which sector 0 stands in a state and at a step of its ladder. -/
def testBlock (ph : BlockPhase) (st : SecState) (step : Nat) : Block :=
  { (default : Block) with phase := ph, secs := [(0, { state := st, step := step, report := some (testReport ⟨.dataBand, 0, 0, 19520⟩) })] }
/-- The rows that two data discs' first block needs, hints that aim at no asymmetry, and 32 OPC answers that cross it. -/
def testRow : List BufSector := (List.range 56).map fun n => ⟨n, []⟩
def testHint : Hint := { (default : Hint) with startPower := 100 }
def testOpc : List (Option (Int × Int)) := (List.range 32).map fun i => some ((i : Int), -16)
/-- Training frames of a link, and an uplink frame of stitch 0. -/
def testEcho (token : Half) : List Byte := weltSeal ([0x83, 0] ++ beBytes 2 token.toNat ++ [0, 0, 0, 0])
def testIdentity (beams : Byte) : List Byte :=
  weltSeal ([0x82, 0x10, 0, 0, 0, 0, 0, beams, 0x03, 0xE8, 0, 0, 7] ++ List.replicate 15 0)
def testUplink : List Byte := weltSeal (0x81 :: List.replicate 123 0)
/-- One region of 64 KiB with the Purlin code, and the engine at step 3 of the governor. -/
def testMem : State := { State.reset with mem := { regions := [(0, { en := true, size := 2 })] } }
def testHot : State := { State.reset with mode := .active, eave := { step := 3 } }
/-- The write-strategy record of a session with nothing measured, and the address word of layer 0, spiral 0, unit 0. -/
def testRecord : List Byte := List.replicate 22 0 ++ List.replicate 7 16 ++ List.replicate 3 0
def testWord : BitVec 60 := 0xE1
/-- A job of the array with codewords held from before. -/
def testJob (a : SlotAddr) (held : List (Option (List Byte))) : LdpcJob :=
  { bay := 0, addr := a, report := testReport a, lsn := none, llr := List.replicate 4 none, held := held }
/-- A block whose first parity sector decodes, and the bytes of that sector: its LSN and T-PARITY. -/
def testParity : Block := { testBlock .reading .unread 0 with secs := [(28, { state := .decoding, report := some (testReport ⟨.dataBand, 0, 4, 19647⟩) })] }
def testParityBytes : List Byte := List.replicate 1024 0 ++ [0x40, 0, 0, 0, 0, 0, 0, 2] ++ List.replicate 3096 0


/-- An Echo carries its token (R213). -/
theorem test_echo_token (t : Half) : BitVec.ofNat 16 (beAt (testEcho t) 2 2) = t := by
  have h : beAt (testEcho t) 2 2 = beNat (beBytes 2 t.toNat) := by simp [testEcho, weltSeal, beAt, beBytes, leBytes]
  rw [h, beNat_beBytes 2 _ (by have := t.isLt; omega)]
  simp
/-- The receiver takes a start block and a data block of a coded frame, and so an Echo whatever its token (R210, R211). -/
theorem test_take_start (h : BitVec 58) (x : LaneBlock) (hl : x.bytes.length = 8) (hc : x.control = true) (h0 : byteAt x.bytes 0 = 0x2D) (d : Option (List Byte))
    (f : Option (Nat × Nat × List Byte)) :
    LaneRx.take ⟨h, f, d⟩ (x.coded h).1 = ⟨(x.coded h).2, some ((byteAt x.bytes 1).toNat, (byteAt x.bytes 2).toNat, []), d⟩ := by
  have h1 := laneBits_coded h x hl
  have h2 : (laneBits h (x.coded h).1.word).2 = (x.coded h).2 := rfl
  have h3 : (x.coded h).1.head = 2 := by simp [LaneBlock.coded, hc]
  simp only [LaneRx.take, h1, h2, h3, h0, if_true]
theorem test_take_data (h : BitVec 58) (x : LaneBlock) (hl : x.bytes.length = 8) (hc : x.control = false) (t n : Nat) (g) (d : Option (List Byte)) :
    LaneRx.take ⟨h, some (t, n, g), d⟩ (x.coded h).1 = if n ≤ 1 then ⟨(x.coded h).2, none, some ((g ++ x.bytes).take (uplinkLen t))⟩ else
      ⟨(x.coded h).2, some (t, n - 1, g ++ x.bytes), d⟩ := by
  have h1 := laneBits_coded h x hl
  have h2 : (laneBits h (x.coded h).1.word).2 = (x.coded h).2 := rfl
  have h3 : (x.coded h).1.head = 1 := by simp [LaneBlock.coded, hc]
  simp only [LaneRx.take, h1, h2, h3]
  rfl
theorem test_echo_bytes (t : Half) : ∃ a b c d e f : Byte, testEcho t = [0x83, 0, a, b, 0, 0, 0, 0, c, d, e, f] :=
  ⟨_, _, _, _, _, _, rfl⟩
theorem test_echo_received (t : Half) :
    (receiveBlocks 0 (codeBlocks 0 (frameBlocks (testEcho t))).1).1 = some (testEcho t) := by
  obtain ⟨a, b, c, d, e, f, h⟩ := test_echo_bytes t
  rw [h]
  have hb : frameBlocks [0x83, 0, a, b, 0, 0, 0, 0, c, d, e, f] =
    [frameStart 0x83 2, ⟨false, [0x83, 0, a, b, 0, 0, 0, 0]⟩, ⟨false, [c, d, e, f, 0, 0, 0, 0]⟩] := by
    simp [frameBlocks, dataBlocks, chunks, byteAt, zeros]
  rw [hb]
  simp only [codeBlocks, receiveBlocks, List.foldl]
  rw [test_take_start 0 (frameStart 0x83 2) rfl rfl rfl, test_take_data _ _ rfl rfl, if_neg (by decide),
    test_take_data _ _ rfl rfl, if_pos (by decide)]
  rfl

/-! ## Well-formed commands: each check refuses an ill-formed term -/

theorem test_wf_refuses_frames_and_tags :
    (Instr.cmd { testFrame 1 7 9 1 0 [] with pcp := 8 }).wf = false ∧ (Instr.data { testFrame 2 7 9 1 1 [] with len := 1 } []).wf = false
    ∧ (Instr.ack { testFrame 4 7 9 1 0 [] with hops := 65536 }).wf = false ∧ (Instr.heartbeat { testFrame 0x20 7 9 0 0 [] with dst := 256 }).wf = false
    ∧ (Instr.read (.data 0) 5).wf = false ∧ (Instr.read (.data 4096) 5).wf = false ∧ (Instr.flush (.data 1) 2048).wf = false
    ∧ (Instr.rtoExpiry (.data 4096)).wf = false ∧ (Instr.adminPayloadTimeout .a 2048).wf = false
    ∧ (Instr.getVersion (.tunnel .a 2048)).wf = false ∧ (Instr.getDigests (.tunnelSession .a 2048 0)).wf = false := by decide +kernel
theorem test_wf_refuses_images_and_carrier :
    (Instr.imageStart [] (List.replicate 16 0) ⟨List.replicate 512 0, []⟩ ⟨List.replicate 512 0, []⟩ true true true).wf = false
    ∧ (Instr.imageStart (List.replicate 16 0) (List.replicate 16 0) ⟨[], []⟩ ⟨List.replicate 512 0, []⟩ true true true).wf = false
    ∧ (Instr.claos 0 (List.replicate 63 0) []).wf = false := by decide +kernel
theorem test_wf_refuses_reserved_header_content :
    (Instr.cmd { testFrame 1 7 9 1 2 [0, 1] with rsv := { flags := 64 } }).wf = false
    ∧ (Instr.cmd { testFrame 1 7 9 1 2 [0, 1] with rsv := { bytes := [] } }).wf = false := by decide +kernel
/-- Slots with 0, 1 or 2 beams of given samples. -/
def testObs (bs : List BeamRaw) : SlotObs := { (default : SlotObs) with beams := bs }
theorem test_wf_refuses_observations :
    (Instr.stitchBoundary [default, default] {}).wf = false ∧ (Instr.stitchBoundary [] { issue0 := 10001 }).wf = false
    ∧ (Instr.stitchBoundary [] { accesses := [{ (default : MemAccess) with pa := 2 ^ 37 }] }).wf = false
    ∧ (Instr.uplinkStitchFrame 0 (List.replicate 513 default)).wf = false ∧ (Instr.echo 0 (List.replicate 513 default) 0).wf = false
    ∧ (Instr.identity 0 (List.replicate 513 default)).wf = false
    ∧ (Instr.sectorSlotRead 0 (testObs [default, default])).wf = false
    ∧ (Instr.sectorSlotRead 0 (testObs [{ (default : BeamRaw) with samples := [128] }])).wf = false
    ∧ (Instr.ldpcDecodeDone 0 ⟨.dataBand, 0, 0, 0⟩ ⟨[]⟩).wf = false
    ∧ (Instr.ldpcDecodeDone 0 ⟨.dataBand, 0, 0, 0⟩ ⟨List.replicate 4 (some ⟨[0], 1⟩)⟩).wf = false := by decide +kernel
theorem test_wf_refuses_runs_and_motors :
    (Instr.recoveryStepLimit 0 0 0 288).wf = false ∧ (Instr.recoveryStepLimit 0 0 (2 ^ 32) 0).wf = false
    ∧ (Instr.opcDone 0 [0, 0] []).wf = false ∧ (Instr.opcDone 0 [] (List.replicate 33 none)).wf = false
    ∧ (Instr.writeSlotEnd 0 0 101).wf = false ∧ (Instr.runResume 0 101 0).wf = false ∧ (Instr.runResume 0 0 3200).wf = false
    ∧ (Instr.registrationCheck 0 [(0, 0), (0, 0)] none).wf = false
    ∧ (Instr.spindleStart 0 [] (List.replicate 6 0)).wf = false ∧ (Instr.spindleStart 0 (List.replicate 6 0) []).wf = false
    ∧ (Instr.busRecovered 0 0 []).wf = false := by decide +kernel
theorem test_wf_refuses_memory_and_sensors :
    (Instr.dramCorrectedError .burnisher (2 ^ 37) []).wf = false ∧ (Instr.dramUncorrectable .burnisher 0 [1, 1]).wf = false
    ∧ (Instr.dramUnmapped .burnisher (2 ^ 37)).wf = false ∧ (Instr.burnisherRead [1, 1]).wf = false
    ∧ (Instr.cacheError (.l1d 0) .l1dParity 128 0).wf = false ∧ (Instr.cacheError .l2 .l2TagParity 0 16).wf = false
    ∧ (Instr.eaveSample [(0, 0), (0, 0)]).wf = false := by decide +kernel
theorem test_wf_accepts : (Instr.cmd (testFrame 1 7 9 1 2 [0, 1])).wf = true ∧ (Instr.read (.data 4095) 2047).wf = true
    ∧ (Instr.cacheError .l2 .l2TagParity 4095 15).wf = true := by decide +kernel

/-! ## The manual's worked examples, and the vectors of the standards that it names -/

/-- One LSN in two places (R8). -/
theorem test_lsn_in_two_places : beBytes 4 0x12345 = [0x00, 0x01, 0x23, 0x45] ∧ leBytes 4 0x12345 = [0x45, 0x23, 0x01, 0x00] := by
  decide +kernel
/-- The first 20 channel bits of a sector (R43 to R45). -/
theorem test_first_channel_bits :
    scrambler 24 (scramblerSeed 0x12345) = bitsOfBytes [0x79, 0x1F, 0x76]
    ∧ rl45Bits (List.zipWith Bool.xor (bitsOfBytes [0x3C, 0x00]) (scrambler 16 (scramblerSeed 0x12345)))
      = (bitsOfBytes [0x64, 0x8B, 0xC0]).take 20 := by decide +kernel
/-- A codeword of weight 12 (R71, R72). -/
theorem test_codeword_of_weight_12 :
    ((ldpcEncode (true :: List.replicate 8255 false)).zipIdx.filterMap fun e => if e.1 then some e.2 else none)
    = [0, 8583, 8591, 8599, 8926, 8934, 8942, 8943, 9270, 9271, 9278, 9286] := by decide +kernel
/-- Finding a slot on a blank plain disc (R29, R48). -/
theorem test_slot_address : psa 2 5 1000000 = 0x540F4240 ∧ gridRadius (1000000 * 47136) = 48377
    ∧ (1000000 * 47136) / 65536 = 719238 := by decide +kernel
/-- One parity column of a block: sector 27 holds 0x01 (R84, R85). -/
theorem test_thatch_column :
    (((List.replicate 27 [0] ++ [[1]] : List (List Byte))).foldl thatchStep (List.replicate 4 [0])) = [[0x0F], [0x36], [0x78], [0x40]] := by
  decide +kernel
/-- Placing sector 19 of block 1,000 (R87, R89). -/
theorem test_placing_a_sector :
    homeAddr .plain 2 1000 19 = 0x4C005C36 ∧ lsnOf .plain 2 1000 19 = 0x02006D73 ∧ scramblerSeed 0x02006D73 = 0x3729
    ∧ homeAddr .ridged 0 1000 19 = 0x18005DE2 ∧ lsnOf .ridged 0 1000 19 = 0x5DD3 ∧ scramblerSeed 0x5DD3 = 0x0789
    ∧ placement .ridged 1000 24 = (4, 3, 4127) ∧ lsnOf .ridged 0 1000 24 = 0x40000FA0 ∧ sectorAt .plain 3 4086 = some (1000, 19) := by
  decide +kernel
/-- A course of two data discs (R94, R96). -/
theorem test_course_of_two :
    cauchy 0 0 = 0x47 ∧ cauchy 0 1 = 0xA7 ∧ cauchy 1 0 = 0xA7 ∧ cauchy 1 1 = 0x47
    ∧ courseParity 0 [[0x12], [0x34]] = [0xD7] ∧ courseParity 1 [[0x12], [0x34]] = [0xFC]
    ∧ courseSolve 2 [(1, [0x34]), (2, [0xD7])] = some [[0x12], [0x34]]
    ∧ courseSolve 2 [(0, [0x12]), (3, [0xFC])] = some [[0x12], [0x34]] := by decide +kernel
/-- Locating a course sector (R95). -/
theorem test_course_sector :
    csnK .plain 5000000 = 12 ∧ csnDisc .plain 10 5000000 = 1 ∧ csnRow .plain 10 5000000 = 17857
    ∧ lsnOf .plain 0 17857 12 = 500008 ∧ placement .plain 17857 12 = (4, 1, 71481) := by decide +kernel
/-- Codes of small words (R434, R435). -/
theorem test_line_codes :
    purlinCheck 1 = 0x4599 ∧ purlinCheck 3 = 0x0B32 ∧ purlinVerdict (purlinCheck 2 ^^^ 0x0B32) = .fixed [15]
    ∧ battenCheck 0x80000003 = 0x6E ∧ battenVerdict (battenCheck 0x80000001 ^^^ 0x6E) = .fixed [1]
    ∧ battenVerdict (battenCheck 0x80000000 ^^^ 0x6E) = .bad ∧ battenVerdict (0x66 ^^^ 0x6E) = .fixed [35] := by decide +kernel
/-- One line through the map (R425). -/
theorem test_line_map : chanOf 0x12345680 = 0 ∧ whereOf 0 0x12345680 = 0 := by decide +kernel
/-- The speed curve and the words of the spindle (R279 to R281). -/
theorem test_spindle_reference :
    curveDefault 0 = 162975 ∧ curveDefault 41 = 101390 ∧ curveDefault 42 = 100464 ∧ curveDefault 63 = 84297
    ∧ curveAt State.reset 48377 = 101068 ∧ fineWord 640321 = -822 := by decide +kernel
/-- A truncated message with three clamps (R395 to R398): the report's entries. -/
theorem test_three_clamps :
    (applyTriples (fun _ _ v => v) {} 0 [(0x0804, 3, 3000), (0x0802, 3, 3500), (0x0406, 3, 40), (0x0611, 100, 2)] []).2
    = [⟨0x0802, 3, 3500, 3000, 3, 1⟩, ⟨0x0406, 3, 40, 32, 2, 2⟩, ⟨0x0611, 100, 2, 0, 1, 3⟩] := by decide +kernel
/-- A deadline across the wrap of STITCH32 (R205). -/
theorem test_half_range : newer32 0x00000100 0xFFFFFF00 = true ∧ newer32 0xFFFFFF00 0x00000100 = false := by decide +kernel
/-- AES-256 on the example of FIPS 197, and SHA-384 on that of FIPS 180. -/
theorem test_aes256 : aes256 ((List.range 32).map byteOf) ((List.range 16).map fun i => byteOf (0x11 * i))
    = [0x8E, 0xA2, 0xB7, 0xCA, 0x51, 0x67, 0x45, 0xBF, 0xEA, 0xFC, 0x49, 0x90, 0x4B, 0x49, 0x60, 0x89] := by decide +kernel
theorem test_sha384 : (sha384 [0x61, 0x62, 0x63]).take 8 = [0xCB, 0x00, 0x75, 0x3F, 0x45, 0xA3, 0x5E, 0x8B] := by decide +kernel

/-! ## Single commands -/

/-- What a command leaves of the state, as a Boolean. -/
def testAfter (c : Instr) (s : State) (p : State → Bool) : Bool :=
  match exec c s with
  | .next t => p t
  | _ => false

theorem test_stitch_lo_latches : testAfter .stitchLoRead { State.reset with aon := { stitch := 0x123456789 } }
    (fun t => t.readData == 0x23456789 && t.aon.stitchHi == 1) = true := by decide +kernel
theorem test_set_pattern_answers : testAfter .setPattern
    (testAt .active (testAdmin 0x42 0 [] [8, 2, 0, 3, 0, 0, 0x0D, 0xAC]))
    (fun t => t.adminQ.isEmpty && decide (t.pat.latest 0x0802 3 = 3500)) = true := by decide +kernel
theorem test_unit_row_of_the_table_has_no_bits : decodeTableWord 32 0 = none ∧ State.reset.withFetchWord 32 0 = State.reset := by
  exact ⟨rfl, rfl⟩
theorem test_step_takes_the_front : step { State.reset with pending := [.stitchLoRead, .atSpeed 0] }
    = exec .stitchLoRead { State.reset with pending := [.atSpeed 0] } := rfl
theorem test_bus_overvolt : testAfter (.busOvervolt 3 16500) { State.reset with aon := { power := 0xFFFFF } }
    (fun t => (t.bus 3).bridgesOff) = true := by decide +kernel
theorem test_off_track_ends_a_write : testAfter (.offTrack 0) { State.reset with bays := [(0, { testBay with state := .write, servo := { offCount := 1 } })] }
    (fun t => decide ((t.bay 0).state ≠ .write)) = true := by decide +kernel
theorem test_pd0_supply_lost_empties : testAfter .pd0SupplyLost testRing (fun t => decide (t.mode = .dark) && !t.aon.supply) = true := by
  decide +kernel

/-! ## The statements' hypotheses can be met: one witness for each clause, at a boundary of its ranges where it has one -/

theorem test_witness_PlainRegisterWritesFollowTheirAccess :
    (∃ (i : Fin 16) (s : State), (s.mem.region i).lock = true) ∧
    (∃ (i : Fin 16) (s : State), (s.mem.region i).lock = false) ∧
    (∃ (r : Reg), ((match r with | .trimWord _ | .rgnBase _ | .cmAddr _ => False | _ => True))) :=
  ⟨⟨0, { State.reset with mem := { regions := [(0, { lock := true })] } }, by decide +kernel⟩,
   ⟨0, State.reset, by decide +kernel⟩,
   ⟨.stitchLo, by decide +kernel⟩⟩

theorem test_witness_StitchRegistersReadOneConsistentTime :
    ∃ (r : Reg), r ∈ [Reg.stitchLo, .stitchHi, .spanPos] :=
  ⟨.stitchLo, by decide +kernel⟩

theorem test_witness_SupplyAndResetKeepOnlyWhatIsListed :
    (∃ (s : State), s.aon.supply = false) ∧
    (∃ (s : State), s.aon.supply = true ∧ s.mode ≠ .dark) ∧
    (∃ (s : State), s.aon.supply = true ∧ s.mode = .dark ∧ wakeOk s = true) ∧
    (∃ (s : State), s.mode = .safeStop ∧ s.mgmt.selfReset.isSome ∧ ((∀ b ∈ allBays, (s.bay b).still = true)) ∧
      (s.aon.recentResets s.now).length < 2) :=
  ⟨⟨{ State.reset with aon := { supply := false } }, by decide +kernel⟩,
   ⟨{ State.reset with aon := { supply := true } }, by decide +kernel⟩,
   ⟨{ State.reset with aon := { supply := true }, mode := .dark }, by decide +kernel⟩,
   ⟨{ State.reset with mode := .safeStop, mgmt := { selfReset := some 0 }, bays := testStill }, by decide +kernel⟩⟩

theorem test_witness_BootFollowsOnceTheConditionHolds :
    (∃ (s : State), s.mode = .reset ∧ s.aon.supply = true ∧ s.aon.badRails = [] ∧ s.aon.refSys = true ∧ s.aon.power = 1) ∧
    (∃ (r : Rail) (s : State), s.mode = .reset ∧ s.aon.supply = true ∧ s.aon.resetN = false ∧ s.aon.testEn = false ∧
      s.aon.refSys = true ∧ ((∀ x ∈ s.aon.badRails, x = r))) ∧
    (∃ (s : State), s.mode = .reset ∧ s.aon.supply = true ∧ s.aon.resetN = false ∧ s.aon.testEn = false ∧ s.aon.badRails = []) ∧
    (∃ (s : State), s.mode = .reset ∧ s.aon.resetN = true) :=
  ⟨⟨{ State.reset with mode := .reset, aon := { supply := true, badRails := [], refSys := true, power := 1 } },
     by decide +kernel⟩,
   ⟨.vhtr, { State.reset with mode := .reset, aon := { supply := true, resetN := false, testEn := false, refSys := true } },
     by decide +kernel⟩,
   ⟨{ State.reset with mode := .reset, aon := { supply := true, resetN := false, testEn := false, badRails := [] } },
     by decide +kernel⟩,
   ⟨{ State.reset with mode := .reset, aon := { resetN := true } }, by decide +kernel⟩⟩

theorem test_witness_BootTrainsAllocatesAndStartsTheImage :
    (∃ (ch : Fin 2) (s : State), inTraining s ch = true ∧ (s.mgmt.train ch).trained0 = true ∧ (s.mgmt.train ch).trained1 = true) ∧
    (∃ (ch : Fin 2) (s : State), inTraining s ch = true ∧ ((s.mgmt.train ch).trained0 && (s.mgmt.train ch).trained1) = false) ∧
    (∃ (ch : Fin 2) (s : State), inTraining s ch = true ∧ s.mgmt.tries ch = 0) ∧
    (∃ (ch : Fin 2) (s : State), inTraining s ch = true ∧ 0 < s.mgmt.tries ch) ∧
    (∃ (s : State), s.mode = .boot ∧ s.mgmt.noImage = false ∧ s.mgmt.trained0 = true ∧ s.mgmt.trained1 = true) :=
  ⟨⟨1, { State.reset with mode := .boot, mgmt := { trained0 := true }, mem := { ch1 := { state := .training } } },
     by decide +kernel⟩,
   ⟨0, { State.reset with mode := .boot, mem := { ch0 := { state := .training } } }, by decide +kernel⟩,
   ⟨0, { State.reset with mode := .boot, mem := { ch0 := { state := .training } } }, by decide +kernel⟩,
   ⟨0, { State.reset with mode := .boot, mgmt := { tries0 := 1 }, mem := { ch0 := { state := .training } } }, by decide +kernel⟩,
   ⟨{ State.reset with mode := .boot, mgmt := { noImage := false, trained0 := true, trained1 := true } }, by decide +kernel⟩⟩

theorem test_witness_WatchdogRestartsAndTheThirdLeadsToSelfReset :
    (∃ (s : State), s.fwRuns = true ∧ s.aon.kick0 + 100000 ≤ s.now ∧ s.aon.kick1 + 100000 ≤ s.now ∧
      (s.aon.restarts.filter (fun t => s.now < t + 120000000)).length < 2) ∧
    (∃ (s : State), s.fwRuns = true ∧ s.mode.onRing = true ∧ s.mode ≠ .safeStop ∧ s.aon.kick0 + 100000 ≤ s.now ∧
      s.aon.kick1 + 100000 ≤ s.now ∧ 2 ≤ (s.aon.restarts.filter (fun t => s.now < t + 120000000)).length) ∧
    (∃ (s : State), s.mgmt.restarting = true) ∧
    (∃ (s : State), s.mode = .safeStop ∧ s.mgmt.selfReset.isSome ∧ ((∀ b ∈ allBays, (s.bay b).still = true)) ∧
      2 ≤ (s.aon.recentResets s.now).length) :=
  ⟨⟨{ State.reset with mode := .active, aon := { stitch := 100000 } }, by decide +kernel⟩,
   ⟨{ State.reset with mode := .active, aon := { stitch := 100000, restarts := [0, 0] } }, by decide +kernel⟩,
   ⟨{ State.reset with mgmt := { restarting := true } }, by decide +kernel⟩,
   ⟨{ State.reset with mode := .safeStop, mgmt := { selfReset := some 0 }, bays := testStill, aon := { selfResets := [0, 0] } },
     by decide +kernel⟩⟩

theorem test_witness_AutomaticAndSidebandModeChanges :
    (∃ (t0 : Nat) (s : State), s.mode = .constrained ∧ s.constrainedCause = false ∧ s.mgmt.clearSince = some t0 ∧
      t0 + 200000 ≤ s.now) ∧
    (∃ (t0 : Nat) (s : State), s.mgmt.clearSince = some t0 ∧ s.now < t0 + 200000) ∧
    (∃ (s : State), s.mode = .quiesce ∧ s.fwRuns = true ∧ s.mgmt.drained = false ∧ s.tags = [] ∧ coursesClosed s = true ∧
      s.ring.tapped = true ∧ s.events.others < 128 ∧ s.events.enabled 3 = true) ∧
    (∃ (s : State), s.mode = .retire ∧ s.powered 18 = true ∧ ((∀ b ∈ allBays, (s.bay b).still = true))) ∧
    (∃ (s : State), s.aon.supply = true ∧ s.mode.onRing = true ∧ s.mode ≠ .safeStop) ∧
    (∃ (s : State), s.aon.supply = true ∧ s.mode.onRing = false) :=
  ⟨⟨0, { State.reset with mode := .constrained, mgmt := { clearSince := some 0 }, aon := { stitch := 200000 } },
     by decide +kernel⟩,
   ⟨0, { State.reset with mgmt := { clearSince := some 0 }, aon := { stitch := 199999 } }, by decide +kernel⟩,
   ⟨{ State.reset with mode := .quiesce, mgmt := { drained := false }, ring := { tapped := true }, events := { enable := 0x8 } },
     by decide +kernel⟩,
   ⟨{ State.reset with mode := .retire, aon := { power := 0xFFFFF }, bays := testStill }, by decide +kernel⟩,
   ⟨{ State.reset with aon := { supply := true }, mode := .active }, by decide +kernel⟩,
   ⟨{ State.reset with aon := { supply := true } }, by decide +kernel⟩⟩

theorem test_witness_QueriesAnswerAndCarrierCommandsQueue :
    (∃ (c : Byte) (s : State), s.aon.supply = true ∧ c.toNat ∉ [0x10, 0x11, 0x12, 0x13, 0x14, 0x15, 0x16, 0x30, 0x31, 0x32]) ∧
    (∃ (s : State), s.aon.supply = true ∧ s.mode = .dark) ∧
    (∃ (s : State), s.aon.supply = true ∧ s.mode.firmware = false) ∧
    (∃ (i : Byte) (sqe : List Byte) (p : List Byte) (s : State), s.aon.supply = true ∧ s.mode.firmware = true ∧ sqe.length = 64
      ∧ onCarrier (byteAt sqe 0).toNat = true ∧ (carrierCmd i sqe p s.now).tooLong = false) ∧
    (∃ (sqe : List Byte) (s : State), s.aon.supply = true ∧ s.mode.firmware = true ∧ sqe.length = 64 ∧
      onCarrier (byteAt sqe 0).toNat = false) :=
  ⟨⟨0, { State.reset with aon := { supply := true } }, by decide +kernel⟩,
   ⟨{ State.reset with aon := { supply := true }, mode := .dark }, by decide +kernel⟩,
   ⟨{ State.reset with aon := { supply := true } }, by decide +kernel⟩,
   ⟨0, (0x40 :: List.replicate 63 0), [], { State.reset with aon := { supply := true }, mode := .active }, by decide +kernel⟩,
   ⟨(List.replicate 64 0), { State.reset with aon := { supply := true }, mode := .active }, by decide +kernel⟩⟩

theorem test_witness_ControlCommandsAnswerAndSetTheEndpoint :
    (∃ (e : Byte) (s : State), s.aon.supply = true ∧ e ≠ 0 ∧ e ≠ 0xFF) ∧
    (∃ (c : Byte) (s : State), s.aon.supply = true ∧ (c.toNat = 0 ∨ 6 < c.toNat)) :=
  ⟨⟨1, { State.reset with aon := { supply := true } }, by decide +kernel⟩,
   ⟨0, { State.reset with aon := { supply := true } }, by decide +kernel⟩⟩

theorem test_witness_SpdmQueriesAnswerOverMctp :
    (∃ (v : SpdmVia) (s : State), s.fwRuns = true ∧ s.overMctp v ∧ s.sec.versionSet = true) ∧
    (∃ (v : SpdmVia) (s : State), s.fwRuns = true ∧ s.overMctp v ∧ s.sec.algorithmsSet = true) :=
  ⟨⟨.mctp, { State.reset with mode := .active, sec := { versionSet := true } },
     by repeat' (first | decide +kernel | constructor)⟩,
   ⟨.mctp, { State.reset with mode := .active, sec := { algorithmsSet := true } },
     by repeat' (first | decide +kernel | constructor)⟩⟩

theorem test_witness_SpdmSessionsOpenAndEndWithTheKeysKept :
    (∃ (v : SpdmVia) (s : State), s.fwRuns = true ∧ s.overMctp v ∧ s.sec.algorithmsSet = true ∧ s.sec.sessions.length < 4) ∧
    (∃ (v : SpdmVia) (s : State), s.fwRuns = true ∧ s.overMctp v ∧ s.sec.algorithmsSet = true ∧ 4 ≤ s.sec.sessions.length) ∧
    (∃ (v : SpdmVia) (sid : Word) (s : State), s.fwRuns = true ∧ s.overMctp v ∧ (s.spdmSession sid).isSome = true) ∧
    (∃ (v : SpdmVia) (sid : Word) (e : Session) (n : Nat) (s : State), s.fwRuns = true ∧ s.overMctp v ∧
      s.spdmSession sid = some e ∧ e.established = true ∧ 1 ≤ n ∧ n ≤ 3) ∧
    (∃ (v : SpdmVia) (c : Byte) (s : State), s.fwRuns = true ∧ s.overMctp v ∧ spdmKnown c.toNat = false) :=
  ⟨⟨.mctp, { State.reset with mode := .active, sec := { algorithmsSet := true } },
     by repeat' (first | decide +kernel | constructor)⟩,
   ⟨.mctp,
     { State.reset with mode := .active, sec := { algorithmsSet := true, sessions := [default, default, default, default] } },
     by repeat' (first | decide +kernel | constructor)⟩,
   ⟨.mctp, 0, { State.reset with mode := .active, sec := { sessions := [default] } },
     by repeat' (first | decide +kernel | constructor)⟩,
   ⟨.mctp, 0, { (default : Session) with established := true }, 3,
     { State.reset with mode := .active, sec := { sessions := [{ (default : Session) with established := true }] } },
     by repeat' (first | decide +kernel | constructor)⟩,
   ⟨.mctp, 0, { State.reset with mode := .active }, by repeat' (first | decide +kernel | constructor)⟩⟩

theorem test_witness_IdentifyAnswersTheRecord :
    ∃ (c : AdminCmd) (rest : List AdminCmd) (s : State), s.atHead c rest ∧ c.opcode = 0x40 :=
  ⟨(testAdmin 0x40 0 [] []), [], testAt .active (testAdmin 0x40 0 [] []), by repeat' (first | decide +kernel | constructor)⟩

theorem test_witness_LogsAndEventsAreReturned :
    (∃ (c : AdminCmd) (rest : List AdminCmd) (s : State), s.atHead c rest ∧ c.opcode = 0x41 ∧ c.flag0 = false ∧ c.arg 0 1 = 1 ∧
      c.arg 8 2 = 0) ∧
    (∃ (c : AdminCmd) (rest : List AdminCmd) (s : State), s.atHead c rest ∧ c.opcode = 0x41 ∧ c.flag0 = false ∧
      ((c.arg 0 1 = 0 ∨ 9 < c.arg 0 1))) ∧
    (∃ (c : AdminCmd) (rest : List AdminCmd) (s : State), s.atHead c rest ∧ c.opcode = 0x41 ∧ c.flag0 = true ∧ c.arg 0 1 = 1 ∧
      c.arg 4 4 = 0 ∧ c.arg 8 2 = 0) ∧
    (∃ (c : AdminCmd) (rest : List AdminCmd) (g : Gateway) (s : State), s.atHead c rest ∧ c.opcode = 0x4B ∧ c.flag0 = false ∧
      inT s = true ∧ c.via = .ring g ∧ s.events.arms.length < 16) ∧
    (∃ (c : AdminCmd) (rest : List AdminCmd) (g : Gateway) (s : State), s.atHead c rest ∧ c.opcode = 0x4B ∧ c.flag0 = false ∧
      inT s = true ∧ c.via = .ring g ∧ 16 ≤ s.events.arms.length) ∧
    (∃ (c : AdminCmd) (rest : List AdminCmd) (s : State), s.atHead c rest ∧ c.opcode = 0x4B ∧ c.flag0 = true ∧ inT s = true) ∧
    (∃ (e : Event) (es : List Event) (a : Arm) (as : List Arm) (s : State), s.fwRuns = true ∧ s.events.queue = e :: es ∧
      s.events.arms = a :: as ∧ s.events.lost = 0) :=
  ⟨⟨(testAdmin 0x41 0 [1] []), [], testAt .active (testAdmin 0x41 0 [1] []), by repeat' (first | decide +kernel | constructor)⟩,
   ⟨(testAdmin 0x41 0 [10] []), [], testAt .active (testAdmin 0x41 0 [10] []),
     by repeat' (first | decide +kernel | constructor)⟩,
   ⟨(testAdmin 0x41 1 [1] []), [], testAt .active (testAdmin 0x41 1 [1] []), by repeat' (first | decide +kernel | constructor)⟩,
   ⟨(testAdmin 0x4B 0 [] []), [], .a, testAt .active (testAdmin 0x4B 0 [] []),
     by repeat' (first | decide +kernel | constructor)⟩,
   ⟨(testAdmin 0x4B 0 [] []), [], .a,
     { testAt .active (testAdmin 0x4B 0 [] []) with events := { arms := List.replicate 16 ⟨.a, 5, 0⟩ } },
     by repeat' (first | decide +kernel | constructor)⟩,
   ⟨(testAdmin 0x4B 1 [] []), [], testAt .active (testAdmin 0x4B 1 [] []), by repeat' (first | decide +kernel | constructor)⟩,
   ⟨default, [], default, [],
     { State.reset with mode := .active, events := { queue := [default], arms := [default], lost := 0 } }, by decide +kernel⟩⟩

theorem test_witness_PatternAndCalibrationAreSetAndReadBack :
    (∃ (c : AdminCmd) (rest : List AdminCmd) (s : State), s.atHead c rest ∧ c.opcode = 0x42 ∧ c.len = 8 ∧ c.units = [0] ∧
      c.payload.length = 8) ∧
    (∃ (c : AdminCmd) (rest : List AdminCmd) (s : State), s.atHead c rest ∧ c.opcode = 0x43 ∧ c.arg 4 2 = 1) ∧
    (∃ (c : AdminCmd) (rest : List AdminCmd) (s : State), s.atHead c rest ∧ c.opcode = 0x44 ∧
      ((s.mode = .enrol ∨ s.mode = .service))) ∧
    (∃ (c : AdminCmd) (rest : List AdminCmd) (s : State), s.atHead c rest ∧ c.opcode = 0x44 ∧ s.mode ≠ .enrol ∧
      s.mode ≠ .service) ∧
    (∃ (c : AdminCmd) (rest : List AdminCmd) (s : State), s.atHead c rest ∧ c.opcode = 0x45) :=
  ⟨⟨(testAdmin 0x42 0 [] (List.replicate 8 0)), [], testAt .active (testAdmin 0x42 0 [] (List.replicate 8 0)),
     by repeat' (first | decide +kernel | constructor)⟩,
   ⟨(testAdmin 0x43 0 [0, 0, 0, 0, 0, 1] []), [], testAt .active (testAdmin 0x43 0 [0, 0, 0, 0, 0, 1] []),
     by repeat' (first | decide +kernel | constructor)⟩,
   ⟨(testAdmin 0x44 0 [] []), [], testAt .enrol (testAdmin 0x44 0 [] []), by repeat' (first | decide +kernel | constructor)⟩,
   ⟨(testAdmin 0x44 0 [] []), [], testAt .active (testAdmin 0x44 0 [] []), by repeat' (first | decide +kernel | constructor)⟩,
   ⟨(testAdmin 0x45 0 [] []), [], testAt .active (testAdmin 0x45 0 [] []), by repeat' (first | decide +kernel | constructor)⟩⟩

theorem test_witness_KeySlotsAreLoadedAndErased :
    (∃ (c : AdminCmd) (rest : List AdminCmd) (x : Session) (s : State), s.atHead c rest ∧ c.opcode = 0x46 ∧ inService s = true ∧
      c.len = 68 ∧ s.sec.sessions.find? (fun e => e.established && e.sid.toNat == beAt c.payload 0 4) = some x) ∧
    (∃ (c : AdminCmd) (rest : List AdminCmd) (s : State), s.atHead c rest ∧ c.opcode = 0x46 ∧ inService s = true ∧ c.len = 68 ∧
      s.sec.sessions.find? (fun e => e.established && e.sid.toNat == beAt c.payload 0 4) = none) ∧
    (∃ (c : AdminCmd) (rest : List AdminCmd) (s : State), s.atHead c rest ∧ c.opcode = 0x47 ∧ c.flag0 = false ∧ c.arg 0 1 ≠ 0) ∧
    (∃ (c : AdminCmd) (rest : List AdminCmd) (s : State), s.atHead c rest ∧ c.opcode = 0x47 ∧ c.flag0 = true) :=
  ⟨⟨(testAdmin 0x46 0 [1] (List.replicate 68 0)), [], { (default : Session) with established := true },
     { testAt .standby (testAdmin 0x46 0 [1] (List.replicate 68 0)) with sec := { sessions := [{ (default : Session) with established := true }] } },
     by repeat' (first | decide +kernel | constructor)⟩,
   ⟨(testAdmin 0x46 0 [1] (List.replicate 68 0)), [], testAt .standby (testAdmin 0x46 0 [1] (List.replicate 68 0)),
     by repeat' (first | decide +kernel | constructor)⟩,
   ⟨(testAdmin 0x47 0 [1] []), [], testAt .active (testAdmin 0x47 0 [1] []), by repeat' (first | decide +kernel | constructor)⟩,
   ⟨(testAdmin 0x47 1 [] []), [], testAt .active (testAdmin 0x47 1 [] []), by repeat' (first | decide +kernel | constructor)⟩⟩

theorem test_witness_ModeRequestFollowsTheTransitionTable :
    (∃ (c : AdminCmd) (rest : List AdminCmd) (s : State), s.atHead c rest ∧ c.opcode = 0x48 ∧ 11 < c.arg 0 1) ∧
    (∃ (c : AdminCmd) (rest : List AdminCmd) (m : Mode) (s : State), s.atHead c rest ∧ c.opcode = 0x48 ∧ c.arg 0 1 = m.code ∧
      m ∉ requestTable s.mode ∧ s.mgmt.selfReset = none) ∧
    (∃ (c : AdminCmd) (rest : List AdminCmd) (m : Mode) (s : State), s.atHead c rest ∧ c.opcode = 0x48 ∧ c.arg 0 1 = m.code ∧
      s.mgmt.selfReset.isSome = true) ∧
    (∃ (c : AdminCmd) (rest : List AdminCmd) (m : Mode) (s : State), s.atHead c rest ∧ c.opcode = 0x48 ∧ c.arg 0 1 = m.code ∧
      m ∈ requestTable s.mode ∧ s.mgmt.selfReset = none ∧ s.mode ≠ .quiesce ∧ s.mode ≠ .safeStop ∧ m ≠ .retire) ∧
    (∃ (c : AdminCmd) (rest : List AdminCmd) (s : State), s.atHead c rest ∧ c.opcode = 0x48 ∧ c.arg 0 1 = 11 ∧ s.mode = .standby
      ∧ s.mgmt.selfReset = none ∧ s.courses ≠ []) ∧
    (∃ (c : AdminCmd) (rest : List AdminCmd) (m : Mode) (s : State), s.atHead c rest ∧ c.opcode = 0x48 ∧ c.arg 0 1 = m.code ∧
      s.mgmt.selfReset = none ∧ s.mode = .quiesce ∧ s.mgmt.drained = false ∧ m ∈ [Mode.standby, .service, .retire]) ∧
    (∃ (c : AdminCmd) (rest : List AdminCmd) (s : State), s.atHead c rest ∧ c.opcode = 0x48 ∧ c.arg 0 1 = 5 ∧ s.mode = .safeStop
      ∧ s.mgmt.selfReset = none) :=
  ⟨⟨(testAdmin 0x48 0 [12] []), [], testAt .active (testAdmin 0x48 0 [12] []),
     by repeat' (first | decide +kernel | constructor)⟩,
   ⟨(testAdmin 0x48 0 [5] []), [], .standby, testAt .active (testAdmin 0x48 0 [5] []),
     by repeat' (first | decide +kernel | constructor)⟩,
   ⟨(testAdmin 0x48 0 [5] []), [], .standby, { testAt .active (testAdmin 0x48 0 [5] []) with mgmt := { selfReset := some 0 } },
     by repeat' (first | decide +kernel | constructor)⟩,
   ⟨(testAdmin 0x48 0 [6] []), [], .active, testAt .standby (testAdmin 0x48 0 [6] []),
     by repeat' (first | decide +kernel | constructor)⟩,
   ⟨(testAdmin 0x48 0 [11] []), [], { testAt .standby (testAdmin 0x48 0 [11] []) with courses := [testCourse] },
     by repeat' (first | decide +kernel | constructor)⟩,
   ⟨(testAdmin 0x48 0 [5] []), [], .standby, testAt .quiesce (testAdmin 0x48 0 [5] []),
     by repeat' (first | decide +kernel | constructor)⟩,
   ⟨(testAdmin 0x48 0 [5] []), [], testAt .safeStop (testAdmin 0x48 0 [5] []),
     by repeat' (first | decide +kernel | constructor)⟩⟩

theorem test_witness_QueuePairsAreCreatedAndDeleted :
    (∃ (c : AdminCmd) (rest : List AdminCmd) (g : Gateway) (s : State), s.atHead c rest ∧ c.opcode = 0x49 ∧ inT s = true ∧
      c.via = .ring g ∧ 1 ≤ c.arg 0 2 ∧ c.arg 0 2 ≤ 4095 ∧ c.arg 2 1 ≤ 3 ∧ 4 ≤ c.arg 3 1 ∧ c.arg 3 1 ≤ 12 ∧
      (s.qp (.data (c.arg 0 2))).state = .free ∧ entriesUsed s + 2 ^ c.arg 3 1 ≤ 1048576) ∧
    (∃ (c : AdminCmd) (rest : List AdminCmd) (g : Gateway) (s : State), s.atHead c rest ∧ c.opcode = 0x49 ∧ inT s = true ∧
      c.via = .ring g ∧ 1 ≤ c.arg 0 2 ∧ c.arg 0 2 ≤ 4095 ∧ c.arg 2 1 ≤ 3 ∧ 4 ≤ c.arg 3 1 ∧ c.arg 3 1 ≤ 12 ∧
      (s.qp (.data (c.arg 0 2))).state ≠ .free) ∧
    (∃ (c : AdminCmd) (rest : List AdminCmd) (s : State), s.atHead c rest ∧ c.opcode = 0x4A ∧ inT s = true ∧ 1 ≤ c.arg 0 2 ∧
      c.arg 0 2 ≤ 4095 ∧ (((s.qp (.data (c.arg 0 2))).state = .opened ∨ (s.qp (.data (c.arg 0 2))).state = .unreachable))) ∧
    (∃ (c : AdminCmd) (rest : List AdminCmd) (s : State), s.atHead c rest ∧ c.opcode = 0x4A ∧ inT s = true ∧ 1 ≤ c.arg 0 2 ∧
      c.arg 0 2 ≤ 4095 ∧ (((s.qp (.data (c.arg 0 2))).state = .free ∨ (s.qp (.data (c.arg 0 2))).state = .deleting))) :=
  ⟨⟨(testAdmin 0x49 0 [0x0F, 0xFF, 3, 12] []), [], .a, testAt .active (testAdmin 0x49 0 [0x0F, 0xFF, 3, 12] []),
     by repeat' (first | decide +kernel | constructor)⟩,
   ⟨(testAdmin 0x49 0 [0, 1, 0, 4] []), [], .a,
     { testAt .active (testAdmin 0x49 0 [0, 1, 0, 4] []) with qps := [(1, { state := .opened })] },
     by repeat' (first | decide +kernel | constructor)⟩,
   ⟨(testAdmin 0x4A 0 [0, 1] []), [],
     { testAt .active (testAdmin 0x4A 0 [0, 1] []) with qps := [(1, { state := .unreachable })] },
     by repeat' (first | decide +kernel | constructor)⟩,
   ⟨(testAdmin 0x4A 0 [0, 1] []), [], testAt .active (testAdmin 0x4A 0 [0, 1] []),
     by repeat' (first | decide +kernel | constructor)⟩⟩

theorem test_witness_FirmwareIsStagedActivatedAndCommitted :
    (∃ (c : AdminCmd) (rest : List AdminCmd) (s : State), s.atHead c rest ∧ c.opcode = 0x4C ∧ inT s = true) ∧
    (∃ (c : AdminCmd) (rest : List AdminCmd) (s : State), s.atHead c rest ∧ c.opcode = 0x4D ∧ c.arg 0 1 = 0 ∧ inLive s = true ∧
      s.mgmt.staged = none) ∧
    (∃ (c : AdminCmd) (rest : List AdminCmd) (g : Staged) (s : State), s.atHead c rest ∧ c.opcode = 0x4D ∧ c.arg 0 1 = 0 ∧
      inLive s = true ∧ s.mgmt.staged = some g) ∧
    (∃ (c : AdminCmd) (rest : List AdminCmd) (s : State), s.atHead c rest ∧ c.opcode = 0x4D ∧ c.arg 0 1 = 1 ∧ s.mgmt.slot = 2) ∧
    (∃ (c : AdminCmd) (rest : List AdminCmd) (s : State), s.atHead c rest ∧ c.opcode = 0x4D ∧ c.arg 0 1 = 1 ∧ s.mgmt.slot ≠ 2) :=
  ⟨⟨(testAdmin 0x4C 0 [] []), [], testAt .active (testAdmin 0x4C 0 [] []), by repeat' (first | decide +kernel | constructor)⟩,
   ⟨(testAdmin 0x4D 0 [0] []), [], testAt .active (testAdmin 0x4D 0 [0] []), by repeat' (first | decide +kernel | constructor)⟩,
   ⟨(testAdmin 0x4D 0 [0] []), [], ⟨3, List.replicate 16 0, 0x0302, []⟩,
     { testAt .active (testAdmin 0x4D 0 [0] []) with mgmt := { staged := some ⟨3, List.replicate 16 0, 0x0302, []⟩ } },
     by repeat' (first | decide +kernel | constructor)⟩,
   ⟨(testAdmin 0x4D 0 [1] []), [], { testAt .active (testAdmin 0x4D 0 [1] []) with mgmt := { slot := 2 } },
     by repeat' (first | decide +kernel | constructor)⟩,
   ⟨(testAdmin 0x4D 0 [1] []), [], testAt .active (testAdmin 0x4D 0 [1] []), by repeat' (first | decide +kernel | constructor)⟩⟩

theorem test_witness_BayControlActsOnItsTarget :
    (∃ (c : AdminCmd) (rest : List AdminCmd) (b : BayId) (s : State), s.atHead c rest ∧ c.opcode = 0x4F ∧ c.arg 0 1 = 0 ∧
      c.arg 1 1 = b.val ∧ inBays s = true ∧ (s.bay b).welt.enabled = true) ∧
    (∃ (c : AdminCmd) (rest : List AdminCmd) (b : BayId) (s : State), s.atHead c rest ∧ c.opcode = 0x4F ∧ c.arg 0 1 = 1 ∧
      c.arg 1 1 = b.val ∧ inBays s = true ∧ (s.bay b).state ≠ .safe) ∧
    (∃ (c : AdminCmd) (rest : List AdminCmd) (b : BayId) (s : State), s.atHead c rest ∧ c.opcode = 0x4F ∧ c.arg 0 1 = 1 ∧
      c.arg 1 1 = b.val ∧ inBays s = true ∧ mayRestart s b = true) ∧
    (∃ (c : AdminCmd) (rest : List AdminCmd) (g : GroupId) (s : State), s.atHead c rest ∧ c.opcode = 0x4F ∧ c.arg 0 1 = 2 ∧
      c.arg 1 1 = g.val ∧ inBays s = true) ∧
    (∃ (c : AdminCmd) (rest : List AdminCmd) (b : BayId) (s : State), s.atHead c rest ∧ c.opcode = 0x4F ∧ c.arg 0 1 = 3 ∧
      c.arg 1 1 = b.val ∧ inBays s = true) ∧
    (∃ (c : AdminCmd) (rest : List AdminCmd) (b : BayId) (s : State), s.atHead c rest ∧ c.opcode = 0x4F ∧ c.arg 0 1 = 4 ∧
      c.arg 1 1 = b.val ∧ inBays s = true) ∧
    (∃ (c : AdminCmd) (rest : List AdminCmd) (b : BayId) (s : State), s.atHead c rest ∧ c.opcode = 0x4F ∧ c.arg 0 1 = 5 ∧
      c.arg 1 1 = b.val ∧ inBays s = true) :=
  ⟨⟨(testAdmin 0x4F 0 [0, 15] []), [], 15, testAt .standby (testAdmin 0x4F 0 [0, 15] []),
     by repeat' (first | decide +kernel | constructor)⟩,
   ⟨(testAdmin 0x4F 0 [1, 15] []), [], 15, testAt .standby (testAdmin 0x4F 0 [1, 15] []),
     by repeat' (first | decide +kernel | constructor)⟩,
   ⟨(testAdmin 0x4F 0 [1, 0] []), [], 0, { testAt .active (testAdmin 0x4F 0 [1, 0] []) with bays := [(0, testSafe)] },
     by repeat' (first | decide +kernel | constructor)⟩,
   ⟨(testAdmin 0x4F 0 [2, 3] []), [], 3, testAt .standby (testAdmin 0x4F 0 [2, 3] []),
     by repeat' (first | decide +kernel | constructor)⟩,
   ⟨(testAdmin 0x4F 0 [3, 15] []), [], 15, testAt .standby (testAdmin 0x4F 0 [3, 15] []),
     by repeat' (first | decide +kernel | constructor)⟩,
   ⟨(testAdmin 0x4F 0 [4, 15] []), [], 15, testAt .standby (testAdmin 0x4F 0 [4, 15] []),
     by repeat' (first | decide +kernel | constructor)⟩,
   ⟨(testAdmin 0x4F 0 [5, 15] []), [], 15, testAt .standby (testAdmin 0x4F 0 [5, 15] []),
     by repeat' (first | decide +kernel | constructor)⟩⟩

theorem test_witness_AdminEndsCarryOneCqe :
    (∃ (c : AdminCmd) (rest : List AdminCmd) (g : Gateway) (s : State), s.atHead c rest ∧ c.via = .ring g ∧
      ((c.opcode < 0x40 ∨ 0x4F < c.opcode))) ∧
    (∃ (c : AdminCmd) (rest : List AdminCmd) (g : Gateway) (s : State), s.atHead c rest ∧ c.via = .ring g ∧ c.opcode = 0x4E ∧
      byteAt c.payload 0 = 0x12 ∧ byteAt c.payload 1 = 0x84 ∧ 8 ≤ c.rlen) ∧
    (∃ (c : AdminCmd) (rest : List AdminCmd) (g : Gateway) (s : State), s.fwRuns = true ∧ s.adminQ = c :: rest ∧ c.via = .ring g
      ∧ c.complete = false ∧ c.opcode ≠ 0x42 ∧ c.at_ + 200000 ≤ s.now ∧
      ((match s.ring.splice with | .waitingCal _ _ _ _ => False | _ => True))) :=
  ⟨⟨(testAdmin 0x50 0 [] []), [], .a, testAt .active (testAdmin 0x50 0 [] []),
     by repeat' (first | decide +kernel | constructor)⟩,
   ⟨(testAdmin 0x4E 0 [] [0x12, 0x84]), [], .a, testAt .active (testAdmin 0x4E 0 [] [0x12, 0x84]),
     by repeat' (first | decide +kernel | constructor)⟩,
   ⟨{ testAdmin 0x44 0 [] [] with len := 1200 }, [], .a,
     { testAt .active { testAdmin 0x44 0 [] [] with len := 1200 } with aon := { stitch := 200000 } },
     by repeat' (first | decide +kernel | constructor)⟩⟩

theorem test_witness_SubmissionEntriesAreTakenAndExpire :
    (∃ (n : Nat) (u : State) (e : RingEntry) (rest : List RingEntry) (s : State), pickQp s = some (.data n, u) ∧
      (s.qp (.data n)).sq = e :: rest) ∧
    (∃ (g : Gateway) (e : RingEntry) (rest : List RingEntry) (s : State), adminNext s = some (.admin g) ∧
      (s.qp (.admin g)).sq = e :: rest) ∧
    (∃ (s : State), pickQp s = none) ∧
    (∃ (q : QpId) (tag : Nat) (c : Cmd) (s : State), s.cmd? q tag = some c ∧ c.deadline ≤ s.now) ∧
    (∃ (q : QpId) (tag : Nat) (c : Cmd) (s : State), s.cmd? q tag = some c ∧ s.now < c.deadline) ∧
    (∃ (n : Nat) (tag : Nat) (c : Cmd) (s : State), s.cmd? (.data n) tag = some c ∧ c.sqe.kind = .none ∧
      (s.qp (.data n)).state ≠ .deleting) :=
  ⟨⟨1, { testQp { sq := [⟨List.replicate 64 0, 0, 5000⟩] } with lastQp := [(0, 1)] }, ⟨List.replicate 64 0, 0, 5000⟩, [],
     testQp { sq := [⟨List.replicate 64 0, 0, 5000⟩] }, by decide +kernel⟩,
   ⟨.b, ⟨List.replicate 64 0, 0, 5000⟩, [],
     { testRing with qps := [(4096, { state := .opened, sq := [⟨List.replicate 64 0, 0, 5000⟩] })] }, by decide +kernel⟩,
   ⟨State.reset, by decide +kernel⟩,
   ⟨(.data 1), 0, (testCmd (testSqe 1 0 [])), testData (testCmd (testSqe 1 0 [])), by decide +kernel⟩,
   ⟨(.data 1), 0, { testCmd (testSqe 1 0 []) with deadline := 1 }, testData { testCmd (testSqe 1 0 []) with deadline := 1 },
     by decide +kernel⟩,
   ⟨1, 0, (testCmd (testSqe 8 0 [])), testData (testCmd (testSqe 8 0 [])), by decide +kernel⟩⟩

theorem test_witness_ReadsNameTheirSectorsAndDeliverInOrder :
    (∃ (vr : Bool) (q : QpId) (tag : Nat) (c : Cmd) (s : State), s.toRun q tag (if vr then .verify else .read) c ∧
      c.sqe.csn = false ∧ bayOfDisc s c.sqe.name = none) ∧
    (∃ (vr : Bool) (q : QpId) (tag : Nat) (c : Cmd) (b : BayId) (d : Disc) (s : State),
      s.toRun q tag (if vr then .verify else .read) c ∧ c.sqe.csn = false ∧ bayOfDisc s c.sqe.name = some b ∧
      (s.bay b.val).disc = some d ∧ lsnData d.dtype d.layers (c.sqe.addr + c.sqe.count - 1) = none) ∧
    (∃ (q : QpId) (tag : Nat) (l : Nat) (n : Nat) (k : Nat) (n2 : Nat) (k2 : Nat) (c : Cmd) (b : BayId) (d : Disc) (s : State),
      s.toRun q tag .read c ∧ c.sqe.csn = false ∧ bayOfDisc s c.sqe.name = some b ∧ (s.bay b.val).disc = some d ∧
      lsnData d.dtype d.layers c.sqe.addr = some (l, n, k) ∧ lsnData d.dtype d.layers (c.sqe.addr + c.sqe.count - 1) = some (l,
      n2, k2) ∧ n2 < d.append.getD l 0 ∧ s.recov.blocks = []) ∧
    (∃ (q : QpId) (tag : Nat) (l : Nat) (n : Nat) (k : Nat) (n2 : Nat) (k2 : Nat) (c : Cmd) (b : BayId) (d : Disc) (s : State),
      s.toRun q tag .verify c ∧ c.sqe.csn = false ∧ bayOfDisc s c.sqe.name = some b ∧ (s.bay b.val).disc = some d ∧
      lsnData d.dtype d.layers c.sqe.addr = some (l, n, k) ∧ lsnData d.dtype d.layers (c.sqe.addr + c.sqe.count - 1) = some (l,
      n2, k2) ∧ n2 < d.append.getD l 0 ∧ s.recov.blocks = []) ∧
    (∃ (n : Nat) (tag : Nat) (c : Cmd) (x : CmdSector) (s : State), s.cmd? (.data n) tag = some c ∧ c.started = true ∧
      c.sqe.kind = .read ∧ c.sectors[c.next]? = some x ∧ x.outcome.isAccepted = true ∧
      (s.qp (.data n)).dataCredit = dataInFlight (s.qp (.data n)) + 1) ∧
    (∃ (n : Nat) (tag : Nat) (c : Cmd) (x : CmdSector) (s : State), s.cmd? (.data n) tag = some c ∧ c.started = true ∧
      c.sqe.kind = .read ∧ c.sectors[c.next]? = some x ∧ x.outcome = .pending) ∧
    (∃ (n : Nat) (tag : Nat) (c : Cmd) (s : State), s.cmd? (.data n) tag = some c ∧ c.started = true ∧ c.sqe.kind = .verify ∧
      c.sectors.length ≤ c.next) :=
  ⟨⟨true, (.data 1), 0, (testCmd (testSqe 3 0 [])), testData (testCmd (testSqe 3 0 [])),
     by repeat' (first | decide +kernel | constructor)⟩,
   ⟨false, (.data 1), 0, (testCmd { testSqe 1 0 [] with addr := 0x2000000 }), 0, (testDisc 1),
     { testData (testCmd { testSqe 1 0 [] with addr := 0x2000000 }) with bays := [(0, { disc := some (testDisc 1) })] },
     by repeat' (first | decide +kernel | constructor)⟩,
   ⟨(.data 1), 0, 0, 0, 0, 0, 0, (testCmd (testSqe 1 0 [])), 0, (testDisc 1),
     { testData (testCmd (testSqe 1 0 [])) with bays := [(0, { disc := some (testDisc 1) })] },
     by repeat' (first | decide +kernel | constructor)⟩,
   ⟨(.data 1), 0, 0, 0, 0, 0, 0, (testCmd (testSqe 3 0 [])), 0, (testDisc 1),
     { testData (testCmd (testSqe 3 0 [])) with bays := [(0, { disc := some (testDisc 1) })] },
     by repeat' (first | decide +kernel | constructor)⟩,
   ⟨1, 0, { testCmd (testSqe 1 0 []) with started := true, sectors := [⟨none, 0, 0, 0, 0, 0, .accepted 0, false, []⟩] }, ⟨none,
     0, 0, 0, 0, 0, .accepted 0, false, []⟩,
     { testQp { dataCredit := 1 } with tags := [{ testCmd (testSqe 1 0 []) with started := true, sectors := [⟨none, 0, 0, 0, 0, 0, .accepted 0, false, []⟩] }] },
     by decide +kernel⟩,
   ⟨1, 0, { testCmd (testSqe 1 0 []) with started := true, sectors := [⟨none, 0, 0, 0, 0, 0, .pending, false, []⟩] }, ⟨none, 0,
     0, 0, 0, 0, .pending, false, []⟩,
     testData { testCmd (testSqe 1 0 []) with started := true, sectors := [⟨none, 0, 0, 0, 0, 0, .pending, false, []⟩] },
     by decide +kernel⟩,
   ⟨1, 0, { testCmd (testSqe 3 0 []) with started := true }, testData { testCmd (testSqe 3 0 []) with started := true },
     by decide +kernel⟩⟩

theorem test_witness_AppendsAreCheckedAgainstTheirCourse :
    (∃ (q : QpId) (tag : Nat) (c : Cmd) (s : State), s.toRun q tag .append c ∧ openCourse? s c.sqe.handle = none) ∧
    (∃ (q : QpId) (tag : Nat) (c : Cmd) (k : Course) (s : State), s.toRun q tag .append c ∧ openCourse? s c.sqe.handle = some k) :=
  ⟨⟨(.data 1), 0, (testCmd (testSqe 2 0 [])), testData (testCmd (testSqe 2 0 [])),
     by repeat' (first | decide +kernel | constructor)⟩,
   ⟨(.data 1), 0, (testCmd (testSqe 2 0 [])), testCourse, { testData (testCmd (testSqe 2 0 [])) with courses := [testCourse] },
     by repeat' (first | decide +kernel | constructor)⟩⟩

theorem test_witness_ClosesWaitForWhatIsNotDurable :
    (∃ (q : QpId) (tag : Nat) (c : Cmd) (s : State), s.toRun q tag .sealing c ∧ openCourse? s c.sqe.handle = none) ∧
    (∃ (q : QpId) (tag : Nat) (c : Cmd) (k : Course) (s : State), s.toRun q tag .flush c ∧ openCourse? s c.sqe.handle = some k ∧
      ((k.stopped = true ∨ k.full = true)) ∧ k.allCommitted = false) ∧
    (∃ (q : QpId) (tag : Nat) (c : Cmd) (k : Course) (s : State), s.toRun q tag .releaseCourse c ∧
      openCourse? s c.sqe.handle = some k ∧ k.stopped = true) ∧
    (∃ (q : QpId) (tag : Nat) (c : Cmd) (k : Course) (s : State), s.toRun q tag .releaseCourse c ∧
      openCourse? s c.sqe.handle = some k ∧ k.stopped = false ∧ k.full = false ∧ k.allCommitted = false) ∧
    (∃ (q : QpId) (tag : Nat) (c : Cmd) (k : Course) (s : State), s.toRun q tag .flush c ∧ openCourse? s c.sqe.handle = some k ∧
      k.allCommitted = true) ∧
    (∃ (q : QpId) (tag : Nat) (c : Cmd) (k : Course) (s : State), s.toRun q tag .sealing c ∧ openCourse? s c.sqe.handle = some k
      ∧ k.stopped = false ∧ k.allCommitted = true ∧ membersClosed s k = true) ∧
    (∃ (q : QpId) (tag : Nat) (c : Cmd) (k : Course) (s : State), s.toRun q tag .sealing c ∧ openCourse? s c.sqe.handle = some k
      ∧ k.stopped = false ∧ k.allCommitted = true ∧ membersClosed s k = false) ∧
    (∃ (q : QpId) (tag : Nat) (c : Cmd) (k : Course) (s : State), s.toRun q tag .sealing c ∧ openCourse? s c.sqe.handle = some k
      ∧ k.stopped = true ∧ k.allCommitted = true) :=
  ⟨⟨(.data 1), 0, (testCmd (testSqe 5 0 [])), testData (testCmd (testSqe 5 0 [])),
     by repeat' (first | decide +kernel | constructor)⟩,
   ⟨(.data 1), 0, (testCmd (testSqe 4 0 [])), { testCourse with full := true, nextCsn := 1 },
     { testData (testCmd (testSqe 4 0 [])) with courses := [{ testCourse with full := true, nextCsn := 1 }] },
     by repeat' (first | decide +kernel | constructor)⟩,
   ⟨(.data 1), 0, (testCmd (testSqe 7 1 [])), { testCourse with stopped := true },
     { testData (testCmd (testSqe 7 1 [])) with courses := [{ testCourse with stopped := true }] },
     by repeat' (first | decide +kernel | constructor)⟩,
   ⟨(.data 1), 0, (testCmd (testSqe 7 1 [])), { testCourse with nextCsn := 1 },
     { testData (testCmd (testSqe 7 1 [])) with courses := [{ testCourse with nextCsn := 1 }] },
     by repeat' (first | decide +kernel | constructor)⟩,
   ⟨(.data 1), 0, (testCmd (testSqe 4 0 [])), testCourse, { testData (testCmd (testSqe 4 0 [])) with courses := [testCourse] },
     by repeat' (first | decide +kernel | constructor)⟩,
   ⟨(.data 1), 0, (testCmd (testSqe 5 0 [])), testCourse,
     { testData (testCmd (testSqe 5 0 [])) with courses := [testCourse], bays := [(0, { disc := (some { testDisc 1 with sealed := true }) }), (1, { disc := (some { testDisc 1 with sealed := true }) }), (2, { disc := (some { testDisc 1 with sealed := true }) })] },
     by repeat' (first | decide +kernel | constructor)⟩,
   ⟨(.data 1), 0, (testCmd (testSqe 5 0 [])), testCourse, { testData (testCmd (testSqe 5 0 [])) with courses := [testCourse] },
     by repeat' (first | decide +kernel | constructor)⟩,
   ⟨(.data 1), 0, (testCmd (testSqe 5 0 [])), { testCourse with stopped := true },
     { testData (testCmd (testSqe 5 0 [])) with courses := [{ testCourse with stopped := true }] },
     by repeat' (first | decide +kernel | constructor)⟩⟩

theorem test_witness_MountsAndReleasesMoveTheirBay :
    (∃ (q : QpId) (tag : Nat) (c : Cmd) (s : State), s.toRun q tag .load c ∧ (((s.bay c.sqe.bay).state ≠ .empty ∧
      (s.bay c.sqe.bay).state ≠ .loaded ∨ (s.bay c.sqe.bay).mount.isSome = true))) ∧
    (∃ (q : QpId) (tag : Nat) (c : Cmd) (s : State), s.toRun q tag .load c ∧ (s.bay c.sqe.bay).state = .empty ∧
      (s.bay c.sqe.bay).disc = none ∧ (s.bay c.sqe.bay).mount = none ∧ (s.bay c.sqe.bay).outOfService = false ∧
      (s.bay c.sqe.bay).present = false ∧ c.sqe.request = 0 ∧ ((∀ r ∈ s.recov.requests, r.id ≠ 0))) ∧
    (∃ (q : QpId) (tag : Nat) (c : Cmd) (s : State), s.toRun q tag .load c ∧
      (((s.bay c.sqe.bay).state = .empty ∨ (s.bay c.sqe.bay).state = .loaded)) ∧ (s.bay c.sqe.bay).disc = none ∧
      (s.bay c.sqe.bay).mount = none ∧ (s.bay c.sqe.bay).outOfService = false ∧ (s.bay c.sqe.bay).present = true) ∧
    (∃ (q : QpId) (tag : Nat) (c : Cmd) (r : DiscReq) (s : State), s.toRun q tag .unavailable c ∧
      s.recov.requests.find? (fun r => r.id == c.sqe.request && !r.answered) = some r ∧ s.tapped = true) ∧
    (∃ (q : QpId) (tag : Nat) (c : Cmd) (s : State), s.toRun q tag .unavailable c ∧
      s.recov.requests.find? (fun r => r.id == c.sqe.request && !r.answered) = none) ∧
    (∃ (q : QpId) (tag : Nat) (c : Cmd) (s : State), s.toRun q tag .releaseBay c ∧ liveDisc s c.sqe.bay = none) ∧
    (∃ (q : QpId) (tag : Nat) (c : Cmd) (d : Disc) (s : State), s.toRun q tag .releaseBay c ∧ liveDisc s c.sqe.bay = some d ∧
      s.courseOfBay c.sqe.bay = none ∧ (s.bay c.sqe.bay).still = false) ∧
    (∃ (q : QpId) (tag : Nat) (c : Cmd) (d : Disc) (k : Course) (s : State), s.toRun q tag .releaseBay c ∧
      liveDisc s c.sqe.bay = some d ∧ s.courseOfBay c.sqe.bay = some k ∧ c.sqe.forced = false ∧
      k.committed < k.nextCsn / max 1 k.rowSize) :=
  ⟨⟨(.data 1), 0, (testCmd (testSqe 6 0 [])), { testData (testCmd (testSqe 6 0 [])) with bays := [(0, { state := .track })] },
     by repeat' (first | decide +kernel | constructor)⟩,
   ⟨(.data 1), 0, (testCmd (testSqe 6 0 [])), { testData (testCmd (testSqe 6 0 [])) with bays := [(0, { state := .empty })] },
     by repeat' (first | decide +kernel | constructor)⟩,
   ⟨(.data 1), 0, (testCmd (testSqe 6 0 [])),
     { testData (testCmd (testSqe 6 0 [])) with bays := [(0, { state := .loaded, discPin := true })] },
     by repeat' (first | decide +kernel | constructor)⟩,
   ⟨(.data 1), 0, (testCmd (testSqe 6 0 [0, 1, 2])), { (default : DiscReq) with id := 1 },
     { testData (testCmd (testSqe 6 0 [0, 1, 2])) with recov := { requests := [{ (default : DiscReq) with id := 1 }] } },
     by repeat' (first | decide +kernel | constructor)⟩,
   ⟨(.data 1), 0, (testCmd (testSqe 6 0 [0, 1, 2])), testData (testCmd (testSqe 6 0 [0, 1, 2])),
     by repeat' (first | decide +kernel | constructor)⟩,
   ⟨(.data 1), 0, (testCmd (testSqe 7 0 [])), testData (testCmd (testSqe 7 0 [])),
     by repeat' (first | decide +kernel | constructor)⟩,
   ⟨(.data 1), 0, (testCmd (testSqe 7 0 [])), (testDisc 1),
     { testData (testCmd (testSqe 7 0 [])) with bays := [(0, { disc := some (testDisc 1) })] },
     by repeat' (first | decide +kernel | constructor)⟩,
   ⟨(.data 1), 0, (testCmd (testSqe 7 0 [])), (testDisc 1), { testCourse with nextCsn := 1024 },
     { testData (testCmd (testSqe 7 0 [])) with bays := [(0, { disc := some (testDisc 1) })], courses := [{ testCourse with nextCsn := 1024 }] },
     by repeat' (first | decide +kernel | constructor)⟩⟩

theorem test_witness_CoursesOpenWhereTheirChecksHold :
    (∃ (q : QpId) (tag : Nat) (c : Cmd) (s : State), s.toRun q tag .opening c ∧ c.sqe.openD < 2) ∧
    (∃ (q : QpId) (tag : Nat) (j : Nat) (st : Nat) (c : Cmd) (s : State), s.toRun q tag .opening c ∧
      openFault s c.sqe = some (st, some j)) ∧
    (∃ (q : QpId) (tag : Nat) (c : Cmd) (s : State), s.toRun q tag .opening c ∧ 2 ≤ c.sqe.openD ∧ c.sqe.openD ≤ 14 ∧
      1 ≤ c.sqe.openP ∧ c.sqe.openP ≤ 4 ∧ c.sqe.openD + c.sqe.openP ≤ 16 ∧ c.sqe.memberBays.Nodup ∧
      8 ≤ (s.courses.filter (fun k => !k.stopped)).length) ∧
    (∃ (q : QpId) (tag : Nat) (c : Cmd) (s : State), s.toRun q tag .opening c ∧ openFault s c.sqe = none ∧ ((∀ k ∈ s.courses,
      k.handle ≠ 0x10000 + c.order))) :=
  ⟨⟨(.data 1), 0, (testCmd (testSqe 6 1 [1, 1])), testData (testCmd (testSqe 6 1 [1, 1])),
     by repeat' (first | decide +kernel | constructor)⟩,
   ⟨(.data 1), 0, 0, stNotMounted, (testCmd (testSqe 6 1 [2, 1, 0, 0, 0, 0, 0, 0, 0, 0, 0, 0, 0, 0, 2, 0x10])),
     testData (testCmd (testSqe 6 1 [2, 1, 0, 0, 0, 0, 0, 0, 0, 0, 0, 0, 0, 0, 2, 0x10])),
     by repeat' (first | decide +kernel | constructor)⟩,
   ⟨(.data 1), 0, (testCmd (testSqe 6 1 [2, 1, 0, 0, 0, 0, 0, 0, 0, 0, 0, 0, 0, 0, 2, 0x10])),
     { testData (testCmd (testSqe 6 1 [2, 1, 0, 0, 0, 0, 0, 0, 0, 0, 0, 0, 0, 0, 2, 0x10])) with courses := List.replicate 8 testCourse },
     by repeat' (first | decide +kernel | constructor)⟩,
   ⟨(.data 1), 0, (testCmd (testSqe 6 1 [2, 1, 0, 0, 0, 0, 0, 0, 0, 0, 0, 0, 0, 0, 2, 0x10])),
     { testData (testCmd (testSqe 6 1 [2, 1, 0, 0, 0, 0, 0, 0, 0, 0, 0, 0, 0, 0, 2, 0x10])) with bays := [(0, testMember 1), (1, testMember 2), (2, testMember 3)] },
     by repeat' (first | decide +kernel | constructor)⟩⟩

theorem test_witness_CommandFramesAreStoredInSequence :
    (∃ (f : Frame) (q : QpId) (s : State), s.takes f ∧ s.stores ∧ f.ftype = 1 ∧ frameQp f = some q ∧ reaches s f q = true ∧
      (s.qp q).state = .opened ∧ f.seq = (s.qp q).rxNext ∧ 1 ≤ beAt f.body 0 2 ∧ beAt f.body 0 2 ≤ 128 ∧
      f.len = 8 + 64 * beAt f.body 0 2 ∧ beAt f.body 0 2 ≤ cmdCredit s q) ∧
    (∃ (f : Frame) (q : QpId) (s : State), s.takes f ∧ s.stores ∧ f.ftype = 1 ∧ frameQp f = some q ∧ reaches s f q = true ∧
      (s.qp q).state = .opened ∧ f.seq = (s.qp q).rxNext ∧
      ((beAt f.body 0 2 = 0 ∨ 128 < beAt f.body 0 2 ∨ f.len ≠ 8 + 64 * beAt f.body 0 2))) ∧
    (∃ (f : Frame) (q : QpId) (s : State), s.takes f ∧ s.stores ∧ f.ftype = 1 ∧ frameQp f = some q ∧ reaches s f q = true ∧
      (s.qp q).state = .opened ∧ f.seq = (s.qp q).rxNext ∧ 1 ≤ beAt f.body 0 2 ∧ beAt f.body 0 2 ≤ 128 ∧
      f.len = 8 + 64 * beAt f.body 0 2 ∧ cmdCredit s q < beAt f.body 0 2) ∧
    (∃ (f : Frame) (q : QpId) (s : State), s.takes f ∧ s.stores ∧ f.ftype = 1 ∧ frameQp f = some q ∧ reaches s f q = true ∧
      (s.qp q).state = .opened ∧ f.seq ≠ (s.qp q).rxNext) ∧
    (∃ (f : Frame) (q : QpId) (s : State), s.takes f ∧ s.stores ∧ f.ftype = 1 ∧ frameQp f = some q ∧ reaches s f q = false) ∧
    (∃ (f : Frame) (n : Nat) (e : RingEntry), cmdEntries f n 0 = [e] ∧ beAt f.body 0 2 = 1 ∧ f.body.length = 72) ∧
    (∃ (f : Frame) (s : State), s.takes f ∧ f.ftype = 1 ∧ (s.chan 0).retraining = true ∧
      ingestBytes s + wireSize f.len ≤ 1048576) ∧
    (∃ (f : Frame) (s : State), s.takes f ∧ f.ftype = 3) :=
  ⟨⟨(testFrame 1 7 9 1 72 [0, 1]), (.data 1), testQp {}, by repeat' (first | decide +kernel | constructor)⟩,
   ⟨(testFrame 1 7 9 1 72 [0, 0]), (.data 1), testQp {}, by repeat' (first | decide +kernel | constructor)⟩,
   ⟨(testFrame 1 7 9 1 72 [0, 1]), (.data 1), testQp { occupied := 64 }, by repeat' (first | decide +kernel | constructor)⟩,
   ⟨(testFrame 1 7 9 1 72 [0, 1]), (.data 1), testQp { rxNext := 1 }, by repeat' (first | decide +kernel | constructor)⟩,
   ⟨(testFrame 1 7 8 1 72 [0, 1]), (.data 1), testQp {}, by repeat' (first | decide +kernel | constructor)⟩,
   ⟨(testFrame 1 7 9 1 72 (0 :: 1 :: List.replicate 70 0)), 0,
     ((cmdEntries (testFrame 1 7 9 1 72 (0 :: 1 :: List.replicate 70 0)) 0 0).headD default), by decide +kernel⟩,
   ⟨(testFrame 1 7 9 1 72 [0, 1]), { testQp {} with mem := { ch0 := { state := .quick } } },
     by repeat' (first | decide +kernel | constructor)⟩,
   ⟨(testFrame 3 7 9 1 0 []), testQp {}, by repeat' (first | decide +kernel | constructor)⟩⟩

theorem test_witness_DataFramesReachTheirCommands :
    (∃ (f : Frame) (g : Gateway) (s : State), s.takes f ∧ s.stores ∧ f.ftype = 2 ∧ frameQp f = some (.admin g) ∧
      reaches s f (.admin g) = true ∧ (s.qp (.admin g)).state = .opened ∧ f.seq = (s.qp (.admin g)).rxNext ∧
      (s.qp (.admin g)).dataIn + (dataSectorsOf f).length ≤ (s.qp (.admin g)).granted ∧
      s.adminQ.any (fun c => c.via == .ring g && c.tag == f.tag % 2048) = true) ∧
    (∃ (f : Frame) (q : QpId) (s : State), s.takes f ∧ s.stores ∧ f.ftype = 2 ∧ frameQp f = some q ∧ reaches s f q = true ∧
      (s.qp q).state = .opened ∧ f.seq = (s.qp q).rxNext ∧ (s.qp q).granted < (s.qp q).dataIn + (dataSectorsOf f).length) ∧
    (∃ (f : Frame) (n : Nat) (s : State), s.takes f ∧ s.stores ∧ f.ftype = 2 ∧ frameQp f = some (.data n) ∧
      reaches s f (.data n) = true ∧ (s.qp (.data n)).state = .opened ∧ f.seq = (s.qp (.data n)).rxNext ∧
      (s.qp (.data n)).dataIn + (dataSectorsOf f).length ≤ (s.qp (.data n)).granted ∧ s.cmd? (.data n) (f.tag % 2048) = none ∧
      tagWaits s (.data n) (f.tag % 2048) = false) ∧
    (∃ (f : Frame) (n : Nat) (x : Nat) (i : Nat) (u : List Byte) (c : Cmd) (k : Course) (b : BayId) (w : WriteSess) (d : Disc) (s : State),
      s.takes f ∧ s.stores ∧ f.ftype = 2 ∧ frameQp f = some (.data n) ∧ reaches s f (.data n) = true ∧
      (s.qp (.data n)).state = .opened ∧ f.seq = (s.qp (.data n)).rxNext ∧ dataSectorsOf f = [(x, u)] ∧
      (s.qp (.data n)).dataIn + 1 ≤ (s.qp (.data n)).granted ∧ s.cmd? (.data n) (f.tag % 2048) = some c ∧ c.sqe.opcode = 2 ∧
      c.started = true ∧ 1 ≤ bufferRoom s ∧ x < c.sqe.count ∧ c.csn = none ∧ c.taken = [] ∧ 2 ≤ c.sqe.count ∧
      s.course? c.sqe.handle = some k ∧ k.sealed = false ∧ k.full = false ∧ w.phase ≠ .waitTemp ∧ c.sqe.count ≤ k.left ∧
      i = csnDisc k.dtype k.d (k.nextCsn + x) ∧ k.bays[i]? = some b ∧ (s.bay b.val).write = some w ∧
      (s.bay b.val).disc = some d) :=
  ⟨⟨(testFrame 2 7 253 0 8 []), .a, { testRing with qps := [(0, { state := .opened })], adminQ := [testAdmin 0x42 0 [] []] },
     by repeat' (first | decide +kernel | constructor)⟩,
   ⟨(testFrame 2 7 9 1 4104 (0 :: 0 :: 0 :: 0 :: 1 :: List.replicate 4099 0)), (.data 1), testQp {},
     by repeat' (first | decide +kernel | constructor)⟩,
   ⟨(testFrame 2 7 9 1 4104 (0 :: 0 :: 0 :: 0 :: 1 :: List.replicate 4099 0)), 1, testQp { granted := 1 },
     by repeat' (first | decide +kernel | constructor)⟩,
   ⟨testUnit, 1, 0, 0, (List.replicate 4096 0), testAppend, testCourse, 0, (testSess .ready), (testDisc 1),
     { testQp { granted := 1 } with tags := [testAppend], courses := [testCourse], bays := [(0, { testBay with write := some (testSess .ready) })] },
     by repeat' (first | decide +kernel | constructor)⟩⟩

theorem test_witness_WindowsAdvanceLaunchAndTimeOut :
    (∃ (f : Frame) (q : QpId) (s : State), s.takes f ∧ f.ftype = 4 ∧ frameQp f = some q ∧ reaches s f q = true ∧
      (s.qp q).state = .opened ∧ byteAt f.body 0 = 0 ∧
      (newer32 (match (s.qp q).unacked with | g :: _ => g.seq | [] => (s.qp q).txNext) f.seq = false) ∧
      newer32 f.seq (s.qp q).txNext = false) ∧
    (∃ (f : Frame) (q : QpId) (s : State), s.takes f ∧ f.ftype = 4 ∧ frameQp f = some q ∧ reaches s f q = true ∧
      (s.qp q).state = .opened ∧ byteAt f.body 0 = 0 ∧ newer32 f.seq (s.qp q).txNext = true) ∧
    (∃ (f : Frame) (q : QpId) (s : State), s.takes f ∧ f.ftype = 4 ∧ frameQp f = some q ∧ reaches s f q = true ∧
      (s.qp q).state = .opened ∧ byteAt f.body 0 = 1 ∧
      (newer32 (match (s.qp q).unacked with | g :: _ => g.seq | [] => (s.qp q).txNext) f.seq = false) ∧
      newer32 f.seq (s.qp q).txNext = false) ∧
    (∃ (q : QpId) (f : TxFrame) (rest : List TxFrame) (p : Port) (s : State), (s.qp q).txWait = f :: rest ∧ s.tapped = true ∧
      (s.qp q).state = .opened ∧ (s.qp q).unacked.length < s.pnat 0x0102 0 ∧
      retxBytes s + wireSize f.body.length ≤ s.pnat 0x0107 0 * 1048576 ∧ direction s f.dst = some p) ∧
    (∃ (q : QpId) (s : State), s.pnat 0x0102 0 ≤ (s.qp q).unacked.length) ∧
    (∃ (q : QpId) (s : State), (s.qp q).state = .opened ∧ (s.qp q).unacked ≠ [] ∧ (s.qp q).timeouts + 1 < s.pnat 0x0101 0 ∧
      (s.qp q).waitFrom + s.pnat 0x0100 0 * min 8 (2 ^ (s.qp q).timeouts) / 5 ≤ s.now) ∧
    (∃ (q : QpId) (s : State), (s.qp q).state = .opened ∧ (s.qp q).unacked ≠ [] ∧ s.pnat 0x0101 0 ≤ (s.qp q).timeouts + 1 ∧
      (s.qp q).waitFrom + s.pnat 0x0100 0 * min 8 (2 ^ (s.qp q).timeouts) / 5 ≤ s.now) ∧
    (∃ (q : QpId) (s : State), s.tapped = true ∧ 0 < (s.qp q).rxUnacked ∧ (s.qp q).rxFirstAt + s.pnat 0x0104 0 / 5 ≤ s.now) ∧
    (∃ (n : Nat) (s : State), (s.qp (.data n)).state = .unreachable ∧
      (s.qp (.data n)).lostAt + 200000 * s.pnat 0x0204 0 ≤ s.now) ∧
    (∃ (q : QpId) (s : State), (s.qp q).state = .deleting ∧ ((∀ c ∈ s.tags, c.q ≠ q))) ∧
    (∃ (q : QpId) (c : Cmd) (s : State), (s.qp q).state = .deleting ∧ c ∈ s.tags ∧ c.q = q) :=
  ⟨⟨(testFrame 4 7 9 1 8 [0]), (.data 1), testQp {}, by repeat' (first | decide +kernel | constructor)⟩,
   ⟨{ testFrame 4 7 9 1 8 [0] with seq := 1, hcrc := hcrcOf { testFrame 4 7 9 1 8 [0] with seq := 1 } }, (.data 1), testQp {},
     by repeat' (first | decide +kernel | constructor)⟩,
   ⟨(testFrame 4 7 9 1 8 [1]), (.data 1), testQp {}, by repeat' (first | decide +kernel | constructor)⟩,
   ⟨(.data 1), { (default : TxFrame) with dst := 9 }, [], .east, testQp { txWait := [{ (default : TxFrame) with dst := 9 }] },
     by decide +kernel⟩,
   ⟨(.data 1), { State.reset with qps := [(1, { unacked := List.replicate 256 default })] }, by decide +kernel⟩,
   ⟨(.data 1), { testQp { unacked := [default], timeouts := 6 } with aon := { stitch := 800 } }, by decide +kernel⟩,
   ⟨(.data 1), { testQp { unacked := [default], timeouts := 7 } with aon := { stitch := 800 } }, by decide +kernel⟩,
   ⟨(.data 1), { testQp { rxUnacked := 1 } with aon := { stitch := 2 } }, by decide +kernel⟩,
   ⟨1, { State.reset with qps := [(1, { state := .unreachable })], aon := { stitch := 12000000 } }, by decide +kernel⟩,
   ⟨(.data 1), { State.reset with qps := [(1, { state := .deleting })] }, by decide +kernel⟩,
   ⟨(.data 1), (testCmd (testSqe 1 0 [])),
     { State.reset with qps := [(1, { state := .deleting })], tags := [testCmd (testSqe 1 0 [])] }, by decide +kernel⟩⟩

theorem test_witness_FramesPassWithTheirHopsCounted :
    (∃ (f : Frame) (s : State), s.passes f ∧ f.hops + 1 < 512 ∧ (s.port f.port.other).turns f.pcp = false ∧
      (s.port f.port.other).clear f.pcp = true) ∧
    (∃ (f : Frame) (s : State), s.passes f ∧ f.hops + 1 < 512 ∧ f.fcsOk = true ∧ f.wrap = false ∧
      (s.port f.port.other).turns f.pcp = true ∧ (s.port f.port).turns f.pcp = false ∧ (s.port f.port).clear f.pcp = true) ∧
    (∃ (f : Frame) (s : State), s.passes f ∧ f.fcsOk = true ∧ ((512 ≤ f.hops + 1 ∨ f.wrap = true ∧
      (s.port f.port.other).turns f.pcp = true))) ∧
    (∃ (f : Frame) (s : State), frameVerdict s f = .dropped) ∧
    (∃ (f : Frame) (s : State), frameVerdict s f = .silent) ∧
    (∃ (f : Frame) (s : State), frameVerdict s f = .good ∧ f.src = s.ring.node ∧ f.ftype ≠ 0x20 ∧ f.ftype ≠ 0x23 ∧
      f.ftype ≠ 0x24) ∧
    (∃ (f : Frame) (s : State), s.takes f ∧ knownType f.ftype = false) ∧
    (∃ (f : Frame) (s : State), s.passes f ∧ knownType f.ftype = false) :=
  ⟨⟨{ testFrame 1 9 8 1 0 [] with hops := 510 },
     { testRing with ring := { tapped := true, node := 7, east := { pcs := true, elsOk := true }, west := { pcs := true, elsOk := true } } },
     by repeat' (first | decide +kernel | constructor)⟩,
   ⟨(testFrame 1 9 8 1 0 []),
     { testRing with ring := { tapped := true, node := 7, east := { pcs := true, elsOk := true }, west := { wrapped := true } } },
     by repeat' (first | decide +kernel | constructor)⟩,
   ⟨{ testFrame 1 9 8 1 0 [] with hops := 511 }, testRing, by repeat' (first | decide +kernel | constructor)⟩,
   ⟨{ testFrame 1 9 8 1 0 [] with ver := 0 }, testRing, by decide +kernel⟩,
   ⟨(testFrame 1 9 8 1 0 []), State.reset, by decide +kernel⟩,
   ⟨(testFrame 1 9 7 1 0 []), testRing, by decide +kernel⟩,
   ⟨(testFrame 5 7 9 1 0 []), testRing, by repeat' (first | decide +kernel | constructor)⟩,
   ⟨(testFrame 5 9 8 1 0 []), testRing, by repeat' (first | decide +kernel | constructor)⟩⟩

theorem test_witness_MapsCutAndFaultsUntap :
    (∃ (f : Frame) (s : State), frameVerdict s f = .good ∧ f.fcsOk = true ∧ f.dst = 255 ∧ f.ftype = 0x21 ∧ f.src ≠ s.ring.node ∧
      s.ring.node ≠ 255 ∧ firstCopy s f = true ∧ mapAccepted s f (parseMap f.body) = true) ∧
    (∃ (f : Frame) (s : State), frameVerdict s f = .good ∧ f.fcsOk = true ∧ f.dst = 255 ∧ f.ftype = 0x21 ∧ f.src ≠ s.ring.node ∧
      s.ring.node ≠ 255 ∧ ((firstCopy s f = false ∨ mapAccepted s f (parseMap f.body) = false))) ∧
    (∃ (p : Port) (s : State), s.tapped = true ∧ (s.port p).cut = true ∧ (s.port p).quiet = false ∧ (s.port p).p3.transit = [] ∧
      (s.port p).p3.own = [] ∧ (s.port p).p6.transit = [] ∧ (s.port p).p6.own = []) ∧
    (∃ (p : Port) (s : State), (((s.port p).cut = false ∨ (s.port p).p3.transit ≠ []))) ∧
    (∃ (s : State), s.tapped = true) ∧
    (∃ (p : Port) (s : State), s.tapped = true ∧ s.powered p.domain = true) ∧
    (∃ (s : State), s.tapped = false) :=
  ⟨⟨(testFrame 0x21 255 253 0 9 [0, 0, 0, 1, 1, 0, 0, 0, 7]), testRing, by decide +kernel⟩,
   ⟨(testFrame 0x21 255 9 0 9 [0, 0, 0, 1, 1, 0, 0, 0, 7]), testRing, by decide +kernel⟩,
   ⟨.east,
     { State.reset with ring := { tapped := true, east := { cut := true, quiet := false, p3 := { transit := [], own := [] }, p6 := { transit := [], own := [] } } } },
     by decide +kernel⟩,
   ⟨.east, State.reset, by decide +kernel⟩,
   ⟨{ State.reset with ring := { tapped := true } }, by decide +kernel⟩,
   ⟨.east, { State.reset with ring := { tapped := true }, aon := { power := 0xFFFFF } }, by decide +kernel⟩,
   ⟨State.reset, by decide +kernel⟩⟩

theorem test_witness_HeartbeatsWrapAndUnwrapPorts :
    (∃ (f : Frame) (s : State), frameVerdict s f = .good ∧ f.fcsOk = true ∧ f.ftype = 0x20 ∧
      (byteAt f.body 0).toNat = f.port.other.index) ∧
    (∃ (f : Frame) (s : State), frameVerdict s f = .good ∧ f.fcsOk = true ∧ f.ftype = 0x20 ∧
      (byteAt f.body 0).toNat ≠ f.port.other.index) ∧
    (∃ (p : Port) (s : State), s.tapped = true ∧ 3 ≤ (s.port p).misses ∧ (s.port p).wrapped = false) ∧
    (∃ (p : Port) (s : State), (s.port p).misses < 3) ∧
    (∃ (p : Port) (s : State), s.powered p.domain = true) :=
  ⟨⟨(testFrame 0x20 7 9 0 1 [1]), testRing, by decide +kernel⟩,
   ⟨(testFrame 0x20 7 9 0 1 [0]), testRing, by decide +kernel⟩,
   ⟨.east, { State.reset with ring := { tapped := true, east := { misses := 3 } } }, by decide +kernel⟩,
   ⟨.east, State.reset, by decide +kernel⟩,
   ⟨.east, { State.reset with aon := { power := 0xFFFFF } }, by decide +kernel⟩⟩

theorem test_witness_PfcPausesAndItsStormsDrop :
    (∃ (w : Half) (s : State), s.powered 4 = true ∧ w ≠ 0) ∧
    (∃ (p : Port) (pr : Prio) (s : State), s.powered 4 = true ∧ ((s.port p).prio pr.pcp).paused = true ∧
      ((s.port p).prio pr.pcp).pauseEnds ≤ s.now) ∧
    (∃ (p : Port) (pr : Prio) (s : State), s.now < ((s.port p).prio pr.pcp).pauseEnds) ∧
    (∃ (p : Port) (pr : Prio) (s : State), s.powered 4 = true ∧ ((s.port p).prio pr.pcp).xoff = true ∧
      ((s.port p).prio pr.pcp).xoffAt + 4 ≤ s.now) ∧
    (∃ (p : Port) (pr : Prio) (s : State), s.now < ((s.port p).prio pr.pcp).xoffAt + 4) ∧
    (∃ (p : Port) (pr : Prio) (s : State), s.powered 4 = true ∧ ((s.port p).prio pr.pcp).paused = true ∧
      ((s.port p).prio pr.pcp).storm = false ∧ ((s.port p).prio pr.pcp).pausedSince + 200 * s.pnat 0x0106 0 ≤ s.now) ∧
    (∃ (p : Port) (pr : Prio) (f : Frame) (rest : List Frame) (s : State), s.powered 4 = true ∧
      ((s.port p).prio pr.pcp).storm = true ∧ ((s.port p).prio pr.pcp).dropAt + 2 ≤ s.now ∧
      ((s.port p).prio pr.pcp).transit = f :: rest) ∧
    (∃ (p : Port) (pr : Prio) (s : State), ((s.port p).prio pr.pcp).storm = true ∧ ((s.port p).prio pr.pcp).paused = false ∧
      ((s.port p).prio pr.pcp).freeSince + 200 ≤ s.now) :=
  ⟨⟨1, { State.reset with aon := { power := 0xFFFFF } }, by decide +kernel⟩,
   ⟨.east, .p3,
     { State.reset with aon := { power := 0xFFFFF, stitch := 1 }, ring := { east := { p3 := { paused := true, pauseEnds := 1 } } } },
     by decide +kernel⟩,
   ⟨.east, .p3, { State.reset with aon := { power := 0xFFFFF, stitch := 0 }, ring := { east := { p3 := { pauseEnds := 1 } } } },
     by decide +kernel⟩,
   ⟨.east, .p3, { State.reset with aon := { power := 0xFFFFF, stitch := 4 }, ring := { east := { p3 := { xoff := true } } } },
     by decide +kernel⟩,
   ⟨.east, .p3,
     { State.reset with aon := { power := 0xFFFFF }, ring := { east := { p3 := { storm := true, paused := true, transit := [default] } } } },
     by decide +kernel⟩,
   ⟨.east, .p3,
     { State.reset with aon := { power := 0xFFFFF, stitch := 2000 }, ring := { east := { p3 := { paused := true } } } },
     by decide +kernel⟩,
   ⟨.east, .p3, default, [],
     { State.reset with aon := { power := 0xFFFFF, stitch := 2 }, ring := { east := { p3 := { storm := true, paused := true, transit := [default] } } } },
     by decide +kernel⟩,
   ⟨.east, .p3,
     { State.reset with aon := { power := 0xFFFFF, stitch := 200 }, ring := { east := { p3 := { storm := true } } } },
     by decide +kernel⟩⟩

theorem test_witness_SplicesCrossAndUncrossTheSwitches :
    (∃ (s : State), s.aon.supply = true ∧ ((∀ c ∈ s.adminQ, c.opcode ≠ 0x44))) ∧
    (∃ (i : Byte) (a : Nat) (s : State), s.ring.splice = .training i a ∧ s.ring.tapped = true ∧ a + 4000 ≤ s.now ∧
      (s.ring.east.linkUp && s.ring.west.linkUp) = false) ∧
    (∃ (f : Frame) (s : State), frameVerdict s f = .good ∧ f.fcsOk = true ∧ f.ftype = 0x23 ∧ f.dst = 255 ∧ f.src = s.ring.node ∧
      beAt f.body 0 4 ≠ s.ring.nonce.toNat ∧ firstCopy s f = true) ∧
    (∃ (f : Frame) (i : Byte) (a : Nat) (s : State), frameVerdict s f = .good ∧ f.fcsOk = true ∧ f.ftype = 0x24 ∧ f.dst = 255 ∧
      f.src = s.ring.node ∧ beAt f.body 0 4 = s.ring.nonce.toNat ∧ firstCopy s f = true ∧ s.ring.splice = .probing i a ∧
      s.now ≤ a + 400 ∧ s.ring.tapped = true) ∧
    (∃ (i : Byte) (a : Nat) (s : State), s.ring.splice = .probing i a ∧ s.mode = .enrol ∧ a + 400 ≤ s.now) :=
  ⟨⟨{ State.reset with aon := { supply := true } }, by decide +kernel⟩,
   ⟨0, 0, { State.reset with aon := { stitch := 4000 }, ring := { tapped := true, splice := .training 0 0 } },
     by decide +kernel⟩,
   ⟨(testFrame 0x23 255 7 0 8 [0, 0, 0, 1]), testRing, by decide +kernel⟩,
   ⟨(testFrame 0x24 255 7 0 8 []), 0, 0,
     { testRing with aon := { power := 0xFFFFF, stitch := 400 }, ring := { tapped := true, node := 7, splice := .probing 0 0 } },
     by decide +kernel⟩,
   ⟨0, 0, { State.reset with mode := .enrol, aon := { stitch := 400 }, ring := { splice := .probing 0 0 } }, by decide +kernel⟩⟩

theorem test_witness_TimeAdvancesAndGirthWindowsLaunch :
    (∃ (m : MemStitch) (s : State), s.aon.supply = true ∧ s.aon.refSys = true ∧ m.issue0 = 0 ∧ m.issue1 = 0 ∧ m.accesses = [] ∧
      s.mem.waiting = []) ∧
    (∃ (s : State), ((s.aon.supply = false ∨ s.aon.refSys = false))) ∧
    (∃ (s : State), s.aon.supply = true ∧ s.aon.refSys = true ∧ s.now % 200 = 0 ∧ s.ring.tapped = false ∧ s.mode = .enrol ∧
      s.ring.east.pcs = true ∧ s.ring.west.pcs = true ∧ s.ring.east.lockAt + 200 ≤ s.now ∧ s.ring.west.lockAt + 200 ≤ s.now) ∧
    (∃ (s : State), s.now % 200 ≠ 0) ∧
    (∃ (s : State), s.powered 17 = true ∧ s.girth.loaded = true ∧ s.girth.windowOpen = false) ∧
    (∃ (s : State), s.girth.windowOpen = true ∧ s.powered 19 = true) ∧
    (∃ (b : Nat) (s : State), (s.bay b).overrunDue = true ∧ (s.bay b).state = .track) :=
  ⟨⟨{}, { State.reset with aon := { supply := true, refSys := true }, mem := { waiting := [] } }, by decide +kernel⟩,
   ⟨{ State.reset with aon := { refSys := false } }, by decide +kernel⟩,
   ⟨{ State.reset with aon := { supply := true, refSys := true, stitch := 200 }, ring := { tapped := false, east := { pcs := true }, west := { pcs := true } }, mode := .enrol },
     by decide +kernel⟩,
   ⟨{ State.reset with aon := { stitch := 199 } }, by decide +kernel⟩,
   ⟨{ State.reset with aon := { power := 0xFFFFF }, girth := { loaded := true, windowOpen := false } }, by decide +kernel⟩,
   ⟨{ State.reset with girth := { windowOpen := true }, aon := { power := 0xFFFFF } }, by decide +kernel⟩,
   ⟨0, { State.reset with bays := [(0, { overrunDue := true, state := .track })] }, by decide +kernel⟩⟩

theorem test_witness_WeltLinksTrainAndCountMissingFrames :
    (∃ (b : BayId) (x : List LaneWord) (l : List Byte) (h : BitVec 58) (n : Nat) (s : State),
      receiveBlocks (s.bay b.val).welt.ulHist x = (some l, h) ∧ (s.bay b.val).welt.phase = .pinging ∧ l.length = 12 ∧
      byteAt l 0 = 0x83 ∧ weltCrc l = true ∧ n < (s.bay b.val).welt.pings ∧
      Config.pingToken b.val n = BitVec.ofNat 16 (beAt l 2 2) ∧ ((∀ e ∈ (s.bay b.val).welt.echoes,
      e.1 ≠ BitVec.ofNat 16 (beAt l 2 2))) ∧ (s.bay b.val).welt.echoes.length < 7) ∧
    (∃ (b : BayId) (x : List LaneWord) (l : List Byte) (h : BitVec 58) (s : State),
      receiveBlocks (s.bay b.val).welt.ulHist x = (some l, h) ∧ (s.bay b.val).welt.phase = .params ∧ l.length = 32 ∧
      byteAt l 0 = 0x82 ∧ weltCrc l = true ∧ beAt l 1 1 / 16 = 1 ∧ beAt l 7 1 = 8 ∧ beAt l 8 2 ≤ 1000 ∧ beAt l 12 1 % 8 = 7) ∧
    (∃ (b : BayId) (x : List LaneWord) (l : List Byte) (h : BitVec 58) (s : State),
      receiveBlocks (s.bay b.val).welt.ulHist x = (some l, h) ∧ (s.bay b.val).welt.phase = .params ∧ l.length = 32 ∧
      byteAt l 0 = 0x82 ∧ weltCrc l = true ∧ beAt l 7 1 ≠ 8 ∧ (s.bay b.val).welt.attempts + 1 < s.pnat 0x0682 b.val) ∧
    (∃ (b : BayId) (s : State), (s.bay b.val).welt.phase = .idle ∧ (s.bay b.val).welt.startedAt + 1000 ≤ s.now ∧
      s.pnat 0x0682 b.val ≤ (s.bay b.val).welt.attempts + 1) ∧
    (∃ (b : BayId) (s : State), s.now < (s.bay b.val).welt.startedAt + 1000) ∧
    (∃ (b : BayId) (x : List LaneWord) (l : List Byte) (h : BitVec 58) (s : State),
      receiveBlocks (s.bay b.val).welt.ulHist x = (some l, h) ∧ (s.bay b.val).welt.phase = .frames ∧ uplinkGood s l = true) ∧
    (∃ (b : BayId) (x : List LaneWord) (s : State),
      uplinkGood s ((receiveBlocks (s.bay b.val).welt.ulHist x).1.getD []) = false) ∧
    (∃ (b : BayId) (s : State), (s.bay b.val).welt.phase = .up ∧ (s.bay b.val).welt.missing = 0) ∧
    (∃ (b : BayId) (s : State), (s.bay b.val).welt.phase = .up ∧ (s.bay b.val).welt.missing = 1 ∧ (s.bay b.val).state = .track) ∧
    (∃ (b : BayId) (s : State), (s.bay b.val).welt.phase = .up ∧ (s.bay b.val).welt.missing = 7) :=
  ⟨⟨0, (codeBlocks 0 (frameBlocks (testEcho (Config.pingToken 0 0)))).1, (testEcho (Config.pingToken 0 0)),
     (receiveBlocks 0 (codeBlocks 0 (frameBlocks (testEcho (Config.pingToken 0 0)))).1).2, 0,
     { State.reset with bays := [(0, { welt := { phase := .pinging, pings := 1 } })] }, Prod.ext (test_echo_received _) rfl,
     rfl, rfl, rfl, weltCrc_weltSeal _, by decide, (test_echo_token _).symm, by simp [State.bay, Tbl.get], by decide⟩,
   ⟨0, (codeBlocks 0 (frameBlocks (testIdentity 8))).1, (testIdentity 8),
     (receiveBlocks 0 (codeBlocks 0 (frameBlocks (testIdentity 8))).1).2,
     { State.reset with bays := [(0, { welt := { phase := .params } })] }, by decide +kernel⟩,
   ⟨0, (codeBlocks 0 (frameBlocks (testIdentity 7))).1, (testIdentity 7),
     (receiveBlocks 0 (codeBlocks 0 (frameBlocks (testIdentity 7))).1).2,
     { State.reset with bays := [(0, { welt := { phase := .params } })] }, by decide +kernel⟩,
   ⟨0, { State.reset with aon := { stitch := 1000 }, bays := [(0, { welt := { phase := .idle, attempts := 3 } })] },
     by decide +kernel⟩,
   ⟨0, { State.reset with aon := { stitch := 999 } }, by decide +kernel⟩,
   ⟨0, (codeBlocks 0 (frameBlocks testUplink)).1, testUplink, (receiveBlocks 0 (codeBlocks 0 (frameBlocks testUplink)).1).2,
     { State.reset with bays := [(0, { welt := { phase := .frames } })] }, by decide +kernel⟩,
   ⟨0, [], State.reset, by decide +kernel⟩,
   ⟨0, { State.reset with bays := [(0, { welt := { phase := .up, missing := 0 } })] }, by decide +kernel⟩,
   ⟨0, { State.reset with bays := [(0, { welt := { phase := .up, missing := 1 }, state := .track })] }, by decide +kernel⟩,
   ⟨0, { State.reset with bays := [(0, { welt := { phase := .up, missing := 7 } })] }, by decide +kernel⟩⟩

theorem test_witness_RunsReadTheirSlotsAndEnd :
    (∃ (b : BayId) (s : State), (((s.bay b.val).servo.tracking = false ∨ ((s.bay b.val).state ≠ .track ∧
      (s.bay b.val).state ≠ .read ∧ (s.bay b.val).state ≠ .verify)))) ∧
    (∃ (b : BayId) (o : SlotObs) (r : Run) (s : State), (s.bay b.val).state = .read ∧ (s.bay b.val).servo.tracking = true ∧
      (s.bay b.val).chan.run = some r ∧ ((r.zone ≠ o.zone ∨ r.layer ≠ o.layer.val ∨ o.slot < r.first))) ∧
    (∃ (b : BayId) (o : SlotObs) (r : Run) (s : State), (s.bay b.val).state = .read ∧ (s.bay b.val).servo.tracking = true ∧
      (s.bay b.val).mount = none ∧ (s.bay b.val).dibCheck = false ∧ (s.bay b.val).write = none ∧ (s.bay b.val).chan.run = some r
      ∧ r.kind = .read ∧ r.aborted = true ∧ r.zone = o.zone ∧ r.layer = o.layer.val ∧ r.first ≤ o.slot) ∧
    (∃ (b : BayId) (s : State), (s.bay b.val).chan.fly = .unlocked ∧ 16 ≤ (s.bay b.val).chan.searchSlots) ∧
    (∃ (b : BayId) (s : State), (((s.bay b.val).chan.fly ≠ .unlocked ∨ (s.bay b.val).chan.searchSlots < 16))) ∧
    (∃ (b : BayId) (s : State), bayRidged (s.bay b.val) = true ∧ (s.bay b.val).chan.ridgeLock = false ∧
      (s.bay b.val).chan.ridgeCoasting = false) ∧
    (∃ (b : BayId) (s : State), (s.bay b.val).chan.run.isSome = true ∧ (s.bay b.val).chan.seamFound = false ∧
      (s.bay b.val).chan.seamFault = false ∧ seamReady (s.bay b.val).chan = true) ∧
    (∃ (b : BayId) (s : State),
      (((s.bay b.val).chan.run = none ∨ (s.bay b.val).chan.seamFound = true ∨ (s.bay b.val).chan.seamFault = true ∨ seamReady (s.bay b.val).chan = false))) ∧
    (∃ (b : BayId) (a : SlotAddr) (r : Retained) (s : State), heldSlot s b.val a = some r ∧ r.ended + 5 ≤ s.now ∧
      owed s b.val a = true ∧ (s.job? b.val a).isSome = true ∧
      ((s.bay b.val).chan.retry.any (fun e => e.addr == addrOf a)) = false ∧
      retryUsed (s.bay b.val).chan + (if a.spiral.val = 7 then 2 else 1) ≤ (s.bay b.val).chan.retrySlots) ∧
    (∃ (b : BayId) (a : SlotAddr) (r : Retained) (s : State), heldSlot s b.val a = some r ∧ r.ended + 5 ≤ s.now ∧
      owed s b.val a = true ∧ (s.job? b.val a).isSome = true ∧
      ((s.bay b.val).chan.retry.any (fun e => e.addr == addrOf a)) = false ∧
      (s.bay b.val).chan.retrySlots < retryUsed (s.bay b.val).chan + (if a.spiral.val = 7 then 2 else 1)) :=
  ⟨⟨0, State.reset, by decide +kernel⟩,
   ⟨0, default, { (default : Run) with zone := .dataBand },
     { State.reset with bays := [(0, { state := .read, servo := { tracking := true }, chan := { run := some { (default : Run) with zone := .dataBand } } })] },
     by decide +kernel⟩,
   ⟨0, { (default : SlotObs) with zone := .dataBand },
     { (default : Run) with kind := .read, zone := .dataBand, aborted := true },
     { State.reset with bays := [(0, { testBay with state := .read, chan := { run := some { (default : Run) with kind := .read, zone := .dataBand, aborted := true } } })] },
     by decide +kernel⟩,
   ⟨0, { State.reset with bays := [(0, { chan := { fly := .unlocked, searchSlots := 16 } })] }, by decide +kernel⟩,
   ⟨0, State.reset, by decide +kernel⟩,
   ⟨0,
     { State.reset with bays := [(0, { chan := { ridgeLock := false, ridgeCoasting := false }, disc := some { testDisc 1 with dtype := .ridged } })] },
     by decide +kernel⟩,
   ⟨0, { State.reset with bays := [(0, { chan := { run := some default, seam := [default], live := [⟨4000000, [], []⟩] } })] },
     by decide +kernel⟩,
   ⟨0, State.reset, by decide +kernel⟩,
   ⟨0, ⟨.dataBand, 0, 0, 19520⟩, { addr := ⟨.dataBand, 0, 0, 19520⟩, ended := 0, kept := default, llr := [] },
     { State.reset with aon := { stitch := 5 }, bays := [(0, { testBay with chan := { retrySlots := 1 } })], beams := [(0, { retained := some { addr := ⟨.dataBand, 0, 0, 19520⟩, ended := 0, kept := default, llr := [] } })], recov := { blocks := [testBlock .reading .decoding 0], ldpc := [testJob ⟨.dataBand, 0, 0, 19520⟩ []] } },
     by decide +kernel⟩,
   ⟨0, ⟨.dataBand, 0, 0, 19520⟩, { addr := ⟨.dataBand, 0, 0, 19520⟩, ended := 0, kept := default, llr := [] },
     { State.reset with aon := { stitch := 5 }, bays := [(0, { testBay with chan := { retrySlots := 0 } })], beams := [(0, { retained := some { addr := ⟨.dataBand, 0, 0, 19520⟩, ended := 0, kept := default, llr := [] } })], recov := { blocks := [testBlock .reading .decoding 0], ldpc := [testJob ⟨.dataBand, 0, 0, 19520⟩ []] } },
     by decide +kernel⟩⟩

theorem test_witness_TheLadderDecidesEverySectorOnce :
    (∃ (b : BayId) (a : SlotAddr) (r : DecodeReport) (j : LdpcJob) (l : Nat) (n : Nat) (k : Nat) (m : Bool) (x : Block) (c : SecRec) (s : State),
      s.job? b.val a = some j ∧ fitsJob (iterCap s b.val j) j r = true ∧ j.search = 0 ∧ slotUse s b.val a = .block l n k m ∧
      jobSector s b.val a = some (x, k, c) ∧ (decodedOf j r).all = true ∧
      accepts (expectedOf s x k m) (decodedOf j r).bytes = true) ∧
    (∃ (b : BayId) (a : SlotAddr) (r : DecodeReport) (j : LdpcJob) (l : Nat) (n : Nat) (k : Nat) (m : Bool) (x : Block) (c : SecRec) (s : State),
      s.job? b.val a = some j ∧ fitsJob (iterCap s b.val j) j r = true ∧ j.search = 0 ∧ slotUse s b.val a = .block l n k m ∧
      jobSector s b.val a = some (x, k, c) ∧
      (((decodedOf j r).all = false ∨ accepts (expectedOf s x k m) (decodedOf j r).bytes = false))) ∧
    (∃ (b : BayId) (a : SlotAddr) (r : DecodeReport) (s : State), ((∀ j,
      s.job? b.val a = some j → fitsJob (iterCap s b.val j) j r = false))) ∧
    (∃ (b : BayId) (l : Fin 6) (n : Nat) (x : Block) (s : State), s.block? b.val l.val n = some x ∧ s.fwRuns = true ∧
      x.phase = .thatch ∧ x.since + 200 ≤ s.now) ∧
    (∃ (b : BayId) (l : Fin 6) (n : Nat) (k : Nat) (x : Block) (s : State), s.block? b.val l.val n = some x ∧ s.fwRuns = true ∧
      x.phase = .sectors ∧ (x.sec k).state = .decoding ∧ (x.sec k).step = 2 ∧ (x.sec k).since + 80 ≤ s.now) ∧
    (∃ (b : BayId) (l : Fin 6) (n : Nat) (k : Nat) (x : Block) (s : State), s.block? b.val l.val n = some x ∧ s.fwRuns = true ∧
      x.phase = .sectors ∧ (x.sec k).state = .decoding ∧ (x.sec k).step = 3 ∧ (x.sec k).since + 400 ≤ s.now) ∧
    (∃ (b : BayId) (l : Fin 6) (n : Nat) (k : Nat) (x : Block) (s : State), s.block? b.val l.val n = some x ∧ x.phase = .sectors
      ∧ (((x.sec k).step = 2 ∧ s.now < (x.sec k).since + 80 ∨ (x.sec k).step = 3 ∧ s.now < (x.sec k).since + 400))) ∧
    (∃ (b : BayId) (l : Fin 6) (n : Nat) (st : Nat) (p : Nat) (a : Nat) (x : Block) (s : State), s.block? b.val l.val n = some x
      ∧ s.fwRuns = true ∧ x.phase = .reread st p ∧ x.resuming = false ∧ x.passAt = some a ∧ a + 10000 ≤ s.now) ∧
    (∃ (b : BayId) (l : Fin 6) (n : Nat) (course : Nat) (i : Nat) (x : Block) (r : Rebuild) (s : State),
      s.block? b.val l.val n = some x ∧ s.fwRuns = true ∧ x.phase = .course ∧ membership s b.val = some (course, i) ∧
      s.session? course = some r ∧ rowSpent s r (l.val * (bayType s b.val).blocks + n) = true) ∧
    (∃ (b : BayId) (l : Fin 6) (n : Nat) (x : Block) (out : List (Nat × List Byte)) (s : State), s.block? b.val l.val n = some x
      ∧ s.fwRuns = true ∧ x.phase = .thatch ∧ thatchSectors s x = some out) ∧
    (∃ (b : BayId) (l : Fin 6) (n : Nat) (x : Block) (s : State), s.block? b.val l.val n = some x ∧ s.fwRuns = true ∧
      x.phase = .thatch ∧ thatchSectors s x = none) ∧
    (∃ (b : BayId) (l : Fin 6) (n : Nat) (x : Block) (s : State), s.block? b.val l.val n = some x ∧ x.phase ≠ .thatch) ∧
    (∃ (b : BayId) (l : Fin 6) (n : Nat) (st : Nat) (p : Nat) (x : Block) (s : State), s.block? b.val l.val n = some x ∧
      s.fwRuns = true ∧ x.phase = .reread st p ∧ x.passAt.isSome = true ∧ (s.bay b.val).chan.run = none ∧ ((∀ e ∈ x.secs,
      e.2.state ≠ .decoding)) ∧ ((passLeft s x = [] ∨ canRead s b.val = false))) ∧
    (∃ (b : BayId) (l : Fin 6) (n : Nat) (k : Nat) (x : Block) (s : State), s.block? b.val l.val n = some x ∧ s.fwRuns = true ∧
      x.phase = .course ∧ courseOpen s b.val = false ∧ x.ruledOut = false ∧ k < (bayType s b.val).blockSectors ∧
      (x.sec k).state = .failed ∧ cmdWants s b.val l.val n k = true) ∧
    (∃ (b : BayId) (l : Fin 6) (n : Nat) (k : Nat) (course : Nat) (i : Nat) (x : Block) (r : Rebuild) (s : State),
      s.block? b.val l.val n = some x ∧ s.fwRuns = true ∧ x.phase = .course ∧ courseOpen s b.val = true ∧
      membership s b.val = some (course, i) ∧ s.session? course = some r ∧ k < (bayType s b.val).blockSectors ∧
      (x.sec k).state = .failed ∧ cmdWants s b.val l.val n k = true) ∧
    (∃ (b : BayId) (l : Fin 6) (n : Nat) (x : Block) (s : State), s.block? b.val l.val n = some x ∧
      ((x.phase ≠ .course ∨ courseOpen s b.val = false ∧ x.ruledOut = true))) :=
  ⟨⟨0, ⟨.dataBand, 0, 4, 19647⟩, ⟨List.replicate 4 none⟩, (testJob ⟨.dataBand, 0, 4,
     19647⟩ ((chunks 1032 4 testParityBytes).map some)), 0, 0, 28, false, testParity, (testParity.sec 28),
     { State.reset with bays := [(0, testBay)], recov := { blocks := [testParity], ldpc := [testJob ⟨.dataBand, 0, 4, 19647⟩ ((chunks 1032 4 testParityBytes).map some)] } },
     by decide +kernel⟩,
   ⟨0, ⟨.dataBand, 0, 0, 19520⟩, ⟨List.replicate 4 none⟩, (testJob ⟨.dataBand, 0, 0, 19520⟩ []), 0, 0, 0, false,
     (testBlock .reading .decoding 0), ((testBlock .reading .decoding 0).sec 0),
     { State.reset with bays := [(0, testBay)], recov := { blocks := [testBlock .reading .decoding 0], ldpc := [testJob ⟨.dataBand, 0, 0, 19520⟩ []] } },
     by decide +kernel⟩,
   ⟨0, ⟨.dataBand, 0, 0, 19520⟩, default,
     { State.reset with mode := .active, aon := { stitch := 200 }, bays := [(0, testBay)], recov := { blocks := [(testBlock .thatch .decoding 0)] } },
     by decide +kernel⟩,
   ⟨0, 0, 0, (testBlock .thatch .decoding 0),
     { State.reset with mode := .active, aon := { stitch := 200 }, bays := [(0, testBay)], recov := { blocks := [(testBlock .thatch .decoding 0)] } },
     by decide +kernel⟩,
   ⟨0, 0, 0, 0, (testBlock .sectors .decoding 2),
     { State.reset with mode := .active, aon := { stitch := 80 }, bays := [(0, testBay)], recov := { blocks := [(testBlock .sectors .decoding 2)] } },
     by decide +kernel⟩,
   ⟨0, 0, 0, 0, (testBlock .sectors .decoding 3),
     { State.reset with mode := .active, aon := { stitch := 400 }, bays := [(0, testBay)], recov := { blocks := [(testBlock .sectors .decoding 3)] } },
     by decide +kernel⟩,
   ⟨0, 0, 0, 0, (testBlock .sectors .decoding 2),
     { State.reset with mode := .active, aon := { stitch := 79 }, bays := [(0, testBay)], recov := { blocks := [(testBlock .sectors .decoding 2)] } },
     by decide +kernel⟩,
   ⟨0, 0, 0, 4, 1, 0, { testBlock (.reread 4 1) .failed 0 with passAt := some 0 },
     { State.reset with mode := .active, aon := { stitch := 10000 }, bays := [(0, testBay)], recov := { blocks := [{ testBlock (.reread 4 1) .failed 0 with passAt := some 0 }] } },
     by decide +kernel⟩,
   ⟨0, 0, 0, 7, 0, (testBlock .course .failed 0), { (default : Rebuild) with course := 7, d := 2, p := 1, readAt := [(0, 1)] },
     { State.reset with mode := .active, aon := { stitch := 4000 }, bays := [(0, { testBay with disc := some { testDisc 1 with binding := .member 7 0 2 1 0 } })], recov := { sessions := [{ (default : Rebuild) with course := 7, d := 2, p := 1, readAt := [(0, 1)] }], blocks := [(testBlock .course .failed 0)] } },
     by decide +kernel⟩,
   ⟨0, 0, 0, { (default : Block) with phase := .thatch, secs := (List.range 32).map fun k => (k, { state := .accepted }) }, [],
     { State.reset with mode := .active, aon := { stitch := 0 }, bays := [(0, testBay)], recov := { blocks := [{ (default : Block) with phase := .thatch, secs := (List.range 32).map fun k => (k, { state := .accepted }) }] } },
     by decide +kernel⟩,
   ⟨0, 0, 0, (testBlock .thatch .decoding 0),
     { State.reset with mode := .active, aon := { stitch := 0 }, bays := [(0, testBay)], recov := { blocks := [(testBlock .thatch .decoding 0)] } },
     by decide +kernel⟩,
   ⟨0, 0, 0, (testBlock .reading .decoding 0),
     { State.reset with mode := .active, aon := { stitch := 0 }, bays := [(0, testBay)], recov := { blocks := [(testBlock .reading .decoding 0)] } },
     by decide +kernel⟩,
   ⟨0, 0, 0, 4, 1, { testBlock (.reread 4 1) .accepted 0 with passAt := some 0 },
     { State.reset with mode := .active, aon := { stitch := 0 }, bays := [(0, { testBay with state := .hold })], recov := { blocks := [{ testBlock (.reread 4 1) .accepted 0 with passAt := some 0 }] } },
     by decide +kernel⟩,
   ⟨0, 0, 0, 0, (testBlock .course .failed 0),
     { State.reset with mode := .active, aon := { stitch := 0 }, bays := [(0, testBay)], tags := [{ testCmd (testSqe 1 0 []) with sectors := [⟨some 0, 0, 0, 0, 0, 0, .pending, false, []⟩] }], recov := { blocks := [(testBlock .course .failed 0)] } },
     by decide +kernel⟩,
   ⟨0, 0, 0, 0, 7, 0, (testBlock .course .failed 0),
     { (default : Rebuild) with course := 7, d := 2, p := 1, readAt := [(0, 1)] },
     { State.reset with mode := .active, aon := { stitch := 0 }, bays := [(0, { testBay with disc := some { testDisc 1 with binding := .member 7 0 2 1 0 } })], tags := [{ testCmd (testSqe 1 0 []) with sectors := [⟨some 0, 0, 0, 0, 0, 0, .pending, false, []⟩] }], recov := { sessions := [{ (default : Rebuild) with course := 7, d := 2, p := 1, readAt := [(0, 1)] }], blocks := [(testBlock .course .failed 0)] } },
     by decide +kernel⟩,
   ⟨0, 0, 0, (testBlock .reading .decoding 0),
     { State.reset with mode := .active, aon := { stitch := 0 }, bays := [(0, testBay)], recov := { blocks := [(testBlock .reading .decoding 0)] } },
     by decide +kernel⟩⟩

theorem test_witness_RebuildsSolveRowsAndCloseRequests :
    (∃ (i : Nat) (r : DiscReq) (s : State), s.recov.requests.find? (fun r => r.id == i) = some r ∧ r.answered = false ∧
      r.at_ + 200000 * r.wait ≤ s.now ∧ s.tapped = true) ∧
    (∃ (i : Nat) (r : DiscReq) (s : State), s.recov.requests.find? (fun r => r.id == i) = some r ∧
      ((r.answered = true ∨ s.now < r.at_ + 200000 * r.wait))) ∧
    (∃ (c : Long) (s : State), ((s.session? c.toNat = none ∨ s.fwRuns = false))) ∧
    (∃ (c : Long) (m : Nat) (i : Nat) (k : Nat) (o : Solved) (r : Rebuild) (s : State), s.fwRuns = true ∧
      (harvest s c.toNat m).session? c.toNat = some r ∧ r.batch.contains m = true ∧ rowSpent s r m = false ∧ ((i, k),
      o) ∈ solveAll r m (targets (harvest s c.toNat m) c.toNat m) ∧ o ≠ .waiting) ∧
    (∃ (r : Rebuild) (m : Nat) (i : Nat) (k : Nat) (ts : List (Nat × Nat)) (ks : List Nat), (r.candidates m ts ks).length < r.d
      ∧ (i, k) ∈ ts ∧ k ∈ ks) :=
  ⟨⟨1, { (default : DiscReq) with id := 1, wait := 1 },
     { State.reset with aon := { stitch := 200000 }, ring := { tapped := true }, recov := { requests := [{ (default : DiscReq) with id := 1, wait := 1 }] } },
     by decide +kernel⟩,
   ⟨1, { (default : DiscReq) with id := 1, wait := 1 },
     { State.reset with aon := { stitch := 199999 }, recov := { requests := [{ (default : DiscReq) with id := 1, wait := 1 }] } },
     by decide +kernel⟩,
   ⟨0, State.reset, by decide +kernel⟩,
   ⟨7, 0, 0, 0, .lost, { (default : Rebuild) with course := 7, d := 2, p := 1, lost := [1, 2], batch := [0] },
     { State.reset with mode := .active, bays := [(0, { testBay with disc := some { testDisc 1 with binding := .member 7 0 2 1 0 } })], tags := [{ testCmd (testSqe 1 0 []) with sectors := [⟨some 0, 0, 0, 0, 0, 0, .pending, false, []⟩] }], recov := { blocks := [testBlock .course .failed 0], sessions := [{ (default : Rebuild) with course := 7, d := 2, p := 1, lost := [1, 2], batch := [0] }] } },
     by decide +kernel⟩,
   ⟨{ (default : Rebuild) with d := 2, p := 1, lost := [1, 2] }, 0, 0, 0, [(0, 0)], [0], by decide +kernel⟩⟩

theorem test_witness_SessionsOpenMeasureAndStart :
    (∃ (b : BayId) (c : Course) (d : Disc) (s : State), s.courseOfBay b.val = some c ∧ (s.bay b.val).disc = some d ∧
      (s.bay b.val).write = none ∧ mayWrite s b.val = true ∧ sessionNeeded s c b.val = true ∧ (s.bay b.val).welt.band.level < 4
      ∧ Tbl.get 0 c.nextSeq (c.memberAt b.val) ≠ 0) ∧
    (∃ (b : BayId) (c : Course) (d : Disc) (s : State), s.courseOfBay b.val = some c ∧ (s.bay b.val).disc = some d ∧
      (s.bay b.val).write = none ∧ mayWrite s b.val = true ∧ sessionNeeded s c b.val = true ∧ 4 ≤ (s.bay b.val).welt.band.level) ∧
    (∃ (b : BayId) (c : Course) (s : State), s.courseOfBay b.val = some c ∧ sessionNeeded s c b.val = false) ∧
    (∃ (b : BayId) (w : WriteSess) (s : State), (s.bay b.val).write = some w ∧ w.phase = .blankScan ∧ 140 ≤ w.scanBlank ∧
      mayWrite s b.val = true) ∧
    (∃ (b : BayId) (w : WriteSess) (s : State), (s.bay b.val).write = some w ∧ w.scanBlank < 140) ∧
    (∃ (b : Nat) (n : Nat) (k : Nat) (p : SlotReport) (d : Disc) (w : WriteSess) (s : State), (s.bay b).disc = some d ∧
      (s.bay b).write = some w ∧ d.dtype.userStart ≤ p.addr.slot ∧
      sectorAt d.dtype p.addr.spiral.val (p.addr.slot - d.dtype.userStart) = some (n, k) ∧ w.start ≤ n ∧ p.outcome ≠ .blank) ∧
    (∃ (b : BayId) (u : Nat) (p : Int) (ps : List (Option (Int × Int))) (d : Disc) (w : WriteSess) (s : State),
      (s.bay b.val).disc = some d ∧ (s.bay b.val).write = some w ∧ w.phase = .opc ∧ mayWrite s b.val = true ∧ ((∀ c,
      s.courseOfBay b.val = some c → c.opening = none)) ∧ d.nextOpc.getD w.layer 0 ≤ u ∧ u < d.dtype.opcUnits ∧
      opcResult (if d.lastOpc.getD w.layer 0 = 0 then (d.hints.getD w.layer default).startPower else d.lastOpc.getD w.layer 0) (d.hints.getD w.layer default) ps = .found p) ∧
    (∃ (b : BayId) (f : Nat) (c : Course) (w : WriteSess) (s : State), s.courseOfBay b.val = some c ∧
      (s.bay b.val).write = some w ∧ w.phase = .ready ∧ w.resumeBy = none ∧ mayWrite s b.val = true ∧
      (s.bay b.val).welt.hotStop = false ∧ (s.bay b.val).welt.band.level < 4 ∧ readWaits s b.val = false ∧
      verifyDue s c b.val w = false ∧ w.boundary c.dtype < limitBlock s c b.val w ∧ recordReady s b.val w = true ∧
      approached s b.val c.dtype (w.nextSlot c.dtype) = true ∧ s.pnat 0x0514 0 ≤ f) ∧
    (∃ (b : BayId) (f : Nat) (c : Course) (w : WriteSess) (s : State), s.courseOfBay b.val = some c ∧
      (s.bay b.val).write = some w ∧ w.phase = .ready ∧ recordReady s b.val w = true ∧
      approached s b.val c.dtype (w.nextSlot c.dtype) = true ∧ f < s.pnat 0x0514 0) ∧
    (∃ (b : BayId) (c : Course) (w : WriteSess) (s : State), s.courseOfBay b.val = some c ∧ (s.bay b.val).write = some w ∧
      w.phase = .ready ∧ w.resumeBy = none ∧ mayWrite s b.val = true ∧ (s.bay b.val).welt.hotStop = false ∧
      (s.bay b.val).welt.band.level < 4 ∧ readWaits s b.val = false ∧ verifyDue s c b.val w = false ∧
      w.boundary c.dtype < limitBlock s c b.val w ∧ (s.bay b.val).welt.loadReg = none ∧
      (s.bay b.val).welt.loadRec ≠ strategy s b.val w) ∧
    (∃ (b : BayId) (c : Course) (w : WriteSess) (r : Nat) (s : State), s.courseOfBay b.val = some c ∧
      (s.bay b.val).write = some w ∧ ((w.phase = .ready ∧
      (s.bay b.val).welt.hotStop = true ∨ w.phase = .recording ∨ w.phase = .waitTemp ∧ 4 ≤ (s.bay b.val).welt.band.level)) ∧
      w.resumeBy = some r ∧ r ≤ s.now ∧ c.opening = none) ∧
    (∃ (b : BayId) (w : WriteSess) (s : State), (s.bay b.val).write = some w ∧ ((w.resumeBy = none ∨ w.phase = .ready ∧
      (s.bay b.val).welt.hotStop = false))) :=
  ⟨⟨0, { testCourse with sealed := true, nextSeq := [(0, 5)] }, (testDisc 1),
     { State.reset with mode := .active, courses := [{ testCourse with sealed := true, nextSeq := [(0, 5)] }], bays := [(0, { testBay with welt := { band := .ht3 } })] },
     by decide +kernel⟩,
   ⟨0, { testCourse with sealed := true }, (testDisc 1),
     { State.reset with mode := .active, courses := [{ testCourse with sealed := true }], bays := [(0, { testBay with welt := { band := .over70 } })] },
     by decide +kernel⟩,
   ⟨0, testCourse, { State.reset with mode := .active, courses := [testCourse], bays := [(0, testBay)] }, by decide +kernel⟩,
   ⟨0, { testSess .blankScan with scanBlank := 140 },
     { State.reset with mode := .active, courses := [testCourse], bays := [(0, { testBay with write := some { testSess .blankScan with scanBlank := 140 } })] },
     by decide +kernel⟩,
   ⟨0, default, { State.reset with bays := [(0, { write := some default })] }, by decide +kernel⟩,
   ⟨0, 0, 0, (testReport ⟨.dataBand, 0, 0, 19520⟩), (testDisc 1), (testSess .blankScan),
     { State.reset with mode := .active, courses := [testCourse], bays := [(0, { testBay with write := some (testSess .blankScan) })] },
     by decide +kernel⟩,
   ⟨0, 0, 100, testOpc, { testDisc 1 with hints := [testHint, testHint] }, (testSess .opc),
     { State.reset with mode := .active, courses := [testCourse], bays := [(0, { testBay with disc := some { testDisc 1 with hints := [testHint, testHint] }, write := some (testSess .opc) })] },
     by decide +kernel⟩,
   ⟨0, 90, { testCourse with buf := testRow }, (testSess .ready),
     { State.reset with mode := .active, courses := [{ testCourse with buf := testRow }], bays := [(0, { testBay with welt := { band := .ht0, loadRec := testRecord, active := some 0 }, write := some (testSess .ready) })] },
     by decide +kernel⟩,
   ⟨0, 89, testCourse, (testSess .ready),
     { State.reset with mode := .active, courses := [testCourse], bays := [(0, { testBay with welt := { band := .ht0, loadRec := testRecord, active := some 0 }, write := some (testSess .ready) })] },
     by decide +kernel⟩,
   ⟨0, { testCourse with buf := testRow }, (testSess .ready),
     { State.reset with mode := .active, courses := [{ testCourse with buf := testRow }], bays := [(0, { testBay with welt := { band := .ht0, loadRec := [] }, write := some (testSess .ready) })] },
     by decide +kernel⟩,
   ⟨0, testCourse, { testSess .ready with resumeBy := some 0 }, 0,
     { State.reset with mode := .active, courses := [testCourse], bays := [(0, { testBay with welt := { band := .ht0, hotStop := true }, write := some { testSess .ready with resumeBy := some 0 } })] },
     by decide +kernel⟩,
   ⟨0, default, { State.reset with bays := [(0, { write := some default })] }, by decide +kernel⟩⟩

theorem test_witness_RunsRecordSlotsAndAreVerified :
    (∃ (b : BayId) (s : State), (s.bay b.val).state ≠ .write) ∧
    (∃ (b : BayId) (m : Nat) (c : Course) (w : WriteSess) (s : State), s.courseOfBay b.val = some c ∧
      (s.bay b.val).write = some w ∧ (s.bay b.val).state = .write ∧ w.phase = .recording ∧ w.resumeBy = none ∧
      m < c.dtype.slotLen) ∧
    (∃ (b : BayId) (n : Nat) (d : Disc) (w : WriteSess) (s : State), (s.bay b.val).disc = some d ∧ (s.bay b.val).write = some w
      ∧ (s.bay b.val).state = .write ∧ w.phase = .draining n ∧ w.resumeBy = none ∧ 4 * n + 136 ≤ w.j) ∧
    (∃ (b : BayId) (c : Course) (w : WriteSess) (s : State), s.courseOfBay b.val = some c ∧ (s.bay b.val).write = some w ∧
      w.phase = .ready ∧ w.segment < w.boundary c.dtype ∧ w.boundary c.dtype = segmentEnd c.dtype w.segment ∧ s.fwRuns = true) ∧
    (∃ (b : BayId) (c : Course) (d : Disc) (w : WriteSess) (s : State), s.courseOfBay b.val = some c ∧
      (s.bay b.val).disc = some d ∧ (s.bay b.val).write = some w ∧ w.phase = .verifying ∧ (s.bay b.val).chan.run = none ∧
      verifyAddrs d.dtype w (w.boundary d.dtype) = [] ∧ w.toReplace = [] ∧ w.bad = [] ∧ s.fwRuns = true) ∧
    (∃ (b : BayId) (d : Disc) (w : WriteSess) (s : State), (s.bay b.val).disc = some d ∧ (s.bay b.val).write = some w ∧
      verifyAddrs d.dtype w (w.boundary d.dtype) ≠ []) ∧
    (∃ (b : BayId) (c : Course) (w : WriteSess) (h : Nat) (e : Nat) (k : Nat) (s : State), s.courseOfBay b.val = some c ∧
      (s.bay b.val).write = some w ∧ w.phase = .replacing ∧ mayWrite s b.val = true ∧ w.spares = [⟨h, e, k, .passed⟩]) ∧
    (∃ (b : BayId) (c : Course) (w : WriteSess) (h : Nat) (e : Nat) (k : Nat) (s : State), s.courseOfBay b.val = some c ∧
      (s.bay b.val).write = some w ∧ w.phase = .replacing ∧ mayWrite s b.val = true ∧ w.spares = [⟨h, e, k, .failed⟩] ∧
      w.took.getD 2 3 ≤ k + 1) ∧
    (∃ (b : BayId) (w : WriteSess) (x : SpareRec) (s : State), (s.bay b.val).write = some w ∧ x ∈ w.spares ∧
      ((x.state = .waiting ∨ x.state = .recorded))) :=
  ⟨⟨0, State.reset, by decide +kernel⟩,
   ⟨0, 0, testCourse, (testSess .recording),
     { State.reset with mode := .active, courses := [testCourse], bays := [(0, { testBay with write := some (testSess .recording), state := .write })] },
     by decide +kernel⟩,
   ⟨0, 0, (testDisc 1), { testSess (.draining 0) with j := 136 },
     { State.reset with mode := .active, courses := [testCourse], bays := [(0, { testBay with write := some { testSess (.draining 0) with j := 136 }, state := .write })] },
     by decide +kernel⟩,
   ⟨0, testCourse, { testSess .ready with j := 2344 },
     { State.reset with mode := .active, courses := [testCourse], bays := [(0, { testBay with write := some { testSess .ready with j := 2344 } })] },
     by decide +kernel⟩,
   ⟨0, testCourse, (testDisc 1), (testSess .verifying),
     { State.reset with mode := .active, courses := [testCourse], bays := [(0, { testBay with write := some (testSess .verifying) })] },
     by decide +kernel⟩,
   ⟨0, (testDisc 1), { testSess .ready with j := 4 },
     { State.reset with mode := .active, courses := [testCourse], bays := [(0, { testBay with write := some { testSess .ready with j := 4 } })] },
     by decide +kernel⟩,
   ⟨0, testCourse, { testSess .replacing with took := [8, 16, 3], spares := [⟨1, 2, 0, .passed⟩] }, 1, 2, 0,
     { State.reset with mode := .active, courses := [testCourse], bays := [(0, { testBay with write := some { testSess .replacing with took := [8, 16, 3], spares := [⟨1, 2, 0, .passed⟩] } })] },
     by decide +kernel⟩,
   ⟨0, testCourse, { testSess .replacing with took := [8, 16, 3], spares := [⟨1, 2, 2, .failed⟩] }, 1, 2, 2,
     { State.reset with mode := .active, courses := [testCourse], bays := [(0, { testBay with write := some { testSess .replacing with took := [8, 16, 3], spares := [⟨1, 2, 2, .failed⟩] } })] },
     by decide +kernel⟩,
   ⟨0, { testSess .replacing with took := [8, 16, 3], spares := [⟨1, 2, 0, .waiting⟩] }, ⟨1, 2, 0, .waiting⟩,
     { State.reset with mode := .active, courses := [testCourse], bays := [(0, { testBay with write := some { testSess .replacing with took := [8, 16, 3], spares := [⟨1, 2, 0, .waiting⟩] } })] },
     by decide +kernel⟩⟩

theorem test_witness_SessionsCloseWithTheirUpdates :
    (∃ (h : Nat) (c : Course) (s : State), s.course? h = some c ∧ s.now < c.lastData + 200000 * s.pnat 0x0515 0) ∧
    (∃ (h : Nat) (c : Course) (b : BayId) (s : State), s.course? h = some c ∧ c.lastData + 200000 * s.pnat 0x0515 0 ≤ s.now ∧
      s.fwRuns = true ∧ c.closing = none ∧ c.opening = none ∧ c.stopped = false ∧ b ∈ c.bays ∧ (s.bay b.val).write.isSome) ∧
    (∃ (h : Nat) (m : Nat) (c : Course) (b : BayId) (w : WriteSess) (s : State), s.course? h = some c ∧ c.closing = some m ∧
      s.fwRuns = true ∧ ((∀ x ∈ c.bays, parked s x.val = false ∧ atClose s c m x.val = true)) ∧ b ∈ c.bays ∧
      (s.bay b.val).write = some w ∧ w.recorded = true) ∧
    (∃ (h : Nat) (m : Nat) (c : Course) (b : BayId) (s : State), s.course? h = some c ∧ c.closing = some m ∧ b ∈ c.bays ∧
      parked s b.val = true) ∧
    (∃ (b : BayId) (c : Course) (d : Disc) (w : WriteSess) (s : State), s.courseOfBay b.val = some c ∧
      (s.bay b.val).disc = some d ∧ (s.bay b.val).write = some w ∧ w.phase = .updating ∧ mayWrite s b.val = true ∧
      d.nextUpdate < updateSlots d.issue) ∧
    (∃ (b : BayId) (c : Course) (d : Disc) (w : WriteSess) (s : State), s.courseOfBay b.val = some c ∧
      (s.bay b.val).disc = some d ∧ (s.bay b.val).write = some w ∧ w.phase = .updating ∧ mayWrite s b.val = true ∧
      d.nextUpdate + 1 < updateSlots d.issue ∧ c.opening = none) :=
  ⟨⟨1, testCourse, { State.reset with courses := [testCourse], aon := { stitch := 5999999 } }, by decide +kernel⟩,
   ⟨1, testCourse, 0,
     { State.reset with mode := .active, courses := [testCourse], bays := [(0, { testBay with write := some (testSess .ready) })], aon := { stitch := 6000000 } },
     by decide +kernel⟩,
   ⟨1, 0, { testCourse with closing := some 0, bays := [0] }, 0, { testSess .ready with recorded := true },
     { State.reset with mode := .active, courses := [{ testCourse with closing := some 0, bays := [0] }], bays := [(0, { testBay with write := some { testSess .ready with recorded := true } })] },
     by decide +kernel⟩,
   ⟨1, 0, { testCourse with closing := some 0 }, 0,
     { State.reset with mode := .active, courses := [{ testCourse with closing := some 0 }], bays := [(0, { testBay with write := some (testSess .ready) })], eave := { parked := [(0, false)] } },
     by decide +kernel⟩,
   ⟨0, testCourse, { testDisc 1 with nextUpdate := 511 }, (testSess .updating),
     { State.reset with mode := .active, courses := [testCourse], bays := [(0, { testBay with disc := some { testDisc 1 with nextUpdate := 511 }, write := some (testSess .updating) })] },
     by decide +kernel⟩,
   ⟨0, testCourse, { testDisc 1 with nextUpdate := 510 }, (testSess .updating),
     { State.reset with mode := .active, courses := [testCourse], bays := [(0, { testBay with disc := some { testDisc 1 with nextUpdate := 510 }, write := some (testSess .updating) })] },
     by decide +kernel⟩⟩

theorem test_witness_FocusIsAcquiredJumpedAndLost :
    (∃ (b : BayId) (s : State), (s.bay b.val).state = .focus ∧ (s.bay b.val).servo.sweeping = true ∧
      (s.bay b.val).servo.sweepAt + msec (acqVal s b.val 0x0641).toNat ≤ s.now ∧
      (s.bay b.val).servo.sweeps + 1 < (acqVal s b.val 0x0642).toNat) ∧
    (∃ (b : BayId) (s : State), (s.bay b.val).state = .focus ∧ (s.bay b.val).servo.sweeping = true ∧
      (s.bay b.val).servo.sweepAt + msec (acqVal s b.val 0x0641).toNat ≤ s.now ∧
      (acqVal s b.val 0x0642).toNat ≤ (s.bay b.val).servo.sweeps + 1 ∧ (s.bay b.val).mount = none) ∧
    (∃ (b : BayId) (r : Nat) (s : State), (s.bay b.val).state = .focus ∧ (s.bay b.val).servo.sweeping = true ∧
      (acqVal s b.val 0x0643).toNat * 32767 < r * 100) ∧
    (∃ (b : BayId) (r : Nat) (s : State), r * 100 ≤ (acqVal s b.val 0x0643).toNat * 32767) ∧
    (∃ (b : BayId) (s : State), (s.bay b.val).servo.jump = none ∧ (s.bay b.val).servo.focusSettling = true ∧
      64 ≤ (s.bay b.val).servo.settled) ∧
    (∃ (b : BayId) (j : Jump) (s : State), (s.bay b.val).servo.jump = some j ∧ j.captured = true ∧ j.dest = j.final ∧
      64 ≤ (s.bay b.val).servo.settled) ∧
    (∃ (b : BayId) (j : Jump) (s : State), (s.bay b.val).servo.jump = some j ∧ j.captured = false ∧ j.phase = 4 ∧
      s.now ≤ j.at_ + 160) ∧
    (∃ (b : BayId) (j : Jump) (s : State), (s.bay b.val).servo.jump = some j ∧ j.captured = false ∧ j.at_ + 160 ≤ s.now) ∧
    (∃ (b : BayId) (s : State), 8 ≤ (s.bay b.val).servo.lowSum ∧ (s.bay b.val).state = .read) ∧
    (∃ (b : BayId) (s : State), 8 ≤ (s.bay b.val).servo.lowSum ∧ (s.bay b.val).state = .write) ∧
    (∃ (b : BayId) (s : State), (s.bay b.val).servo.lowSum < 8) :=
  ⟨⟨0,
     { State.reset with aon := { stitch := 8000 }, bays := [(0, { state := .focus, servo := { sweeping := true, sweeps := 1 } })] },
     by decide +kernel⟩,
   ⟨0,
     { State.reset with aon := { stitch := 8000 }, bays := [(0, { state := .focus, servo := { sweeping := true, sweeps := 2 }, mount := none })] },
     by decide +kernel⟩,
   ⟨0, 3277, { State.reset with bays := [(0, { state := .focus, servo := { sweeping := true } })] }, by decide +kernel⟩,
   ⟨0, 0, State.reset, by decide +kernel⟩,
   ⟨0, { State.reset with bays := [(0, { servo := { jump := none, focusSettling := true, settled := 64 } })] },
     by decide +kernel⟩,
   ⟨0, { (default : Jump) with captured := true },
     { State.reset with bays := [(0, { servo := { jump := some { (default : Jump) with captured := true }, settled := 64 } })] },
     by decide +kernel⟩,
   ⟨0, { (default : Jump) with phase := 4 },
     { State.reset with aon := { stitch := 160 }, bays := [(0, { servo := { jump := some { (default : Jump) with phase := 4 } } })] },
     by decide +kernel⟩,
   ⟨0, default, { State.reset with aon := { stitch := 160 }, bays := [(0, { servo := { jump := some default } })] },
     by decide +kernel⟩,
   ⟨0, { State.reset with bays := [(0, { servo := { lowSum := 8 }, state := .read })] }, by decide +kernel⟩,
   ⟨0, { State.reset with bays := [(0, { servo := { lowSum := 8 }, state := .write })] }, by decide +kernel⟩,
   ⟨0, { State.reset with bays := [(0, { servo := { lowSum := 7 } })] }, by decide +kernel⟩⟩

theorem test_witness_TrackingRegistersJumpsAndSeeks :
    (∃ (b : BayId) (s : State), (s.bay b.val).servo.lowSum < 8 ∧ (s.bay b.val).state = .write ∧
      1 ≤ (s.bay b.val).servo.offCount) ∧
    (∃ (b : BayId) (s : State), (s.bay b.val).servo.lowSum < 8 ∧ (s.bay b.val).state = .read ∧ 2 ≤ (s.bay b.val).servo.offCount) ∧
    (∃ (b : BayId) (s : State), (s.bay b.val).servo.offCount = 0) ∧
    (∃ (b : BayId) (t0 : Nat) (s : State), (s.bay b.val).servo.trackAcq = some t0 ∧ t0 + 100 ≤ s.now ∧
      slowCrossing (s.bay b.val).servo (acqVal s b.val 0x0645).toNat = true) ∧
    (∃ (b : BayId) (t0 : Nat) (s : State), (s.bay b.val).servo.trackAcq = some t0 ∧
      ((s.now < t0 + 100 ∨ slowCrossing (s.bay b.val).servo (acqVal s b.val 0x0645).toNat = false))) ∧
    (∃ (b : BayId) (t0 : Nat) (s : State), (s.bay b.val).servo.trackAcq = some t0 ∧ t0 + 4000 ≤ s.now ∧
      (s.bay b.val).servo.regFails + 1 < s.pnat 0x064D b.val) ∧
    (∃ (b : BayId) (t0 : Nat) (s : State), (s.bay b.val).servo.trackAcq = some t0 ∧ t0 + 4000 ≤ s.now ∧
      s.pnat 0x064D b.val ≤ (s.bay b.val).servo.regFails + 1 ∧ (s.bay b.val).mount = none ∧ (s.bay b.val).state ≠ .safe) ∧
    (∃ (b : BayId) (n : BeamId) (w : BitVec 60) (s : State), (s.bay b.val).servo.tracking = true ∧
      (s.bay b.val).servo.trackSettling = false ∧ (s.bay b.val).servo.trackJump = none ∧ (s.bay b.val).servo.jump = none ∧
      (s.bay b.val).servo.seek = none ∧ bayRidged (s.bay b.val) = false ∧ awGood w = true ∧
      awLayer w = (s.bay b.val).servo.layer ∧ awSpiral w = n.val) ∧
    (∃ (b : BayId) (n : BeamId) (w : BitVec 60) (s : State), (s.bay b.val).servo.tracking = true ∧
      (s.bay b.val).servo.trackSettling = false ∧ (s.bay b.val).servo.trackJump = none ∧ (s.bay b.val).servo.jump = none ∧
      bayRidged (s.bay b.val) = false ∧ awGood w = true ∧ awLayer w = (s.bay b.val).servo.layer ∧ awSpiral w ≠ n.val ∧
      (s.bay b.val).servo.regFails + 1 < s.pnat 0x064D b.val) ∧
    (∃ (b : BayId) (j : TrackJump) (s : State), (s.bay b.val).servo.trackJump = some j ∧ s.now ≤ j.at_ + 72 + 2 * j.n.natAbs ∧
      j.phase = 3 ∧ 32 ≤ (s.bay b.val).servo.settled) ∧
    (∃ (b : BayId) (j : TrackJump) (s : State), (s.bay b.val).servo.trackJump = some j ∧ s.now ≤ j.at_ + 72 + 2 * j.n.natAbs ∧
      ((j.phase ≠ 3 ∨ (s.bay b.val).servo.settled < 32))) ∧
    (∃ (b : BayId) (j : TrackJump) (s : State), (s.bay b.val).servo.trackJump = some j ∧ j.at_ + 72 + 2 * j.n.natAbs < s.now ∧
      (s.bay b.val).servo.regFails + 1 < s.pnat 0x064D b.val) ∧
    (∃ (b : BayId) (s : State), (s.bay b.val).state = .track ∧ (s.bay b.val).chan.run = none ∧
      (s.bay b.val).servo.tracking = true ∧ (s.bay b.val).servo.seek = none ∧ (s.bay b.val).servo.trackJump = none ∧
      (s.bay b.val).servo.jump = none) ∧
    (∃ (b : BayId) (l : Fin 6) (g : Int) (s : State), s.fwRuns = true ∧ (s.bay b.val).state = .track ∧
      (s.bay b.val).chan.run = none ∧ (s.bay b.val).servo.tracking = true ∧ (s.bay b.val).servo.seek = none ∧
      l.val = (s.bay b.val).servo.layer ∧ turnsBetween (s.bay b.val).servo.parkGrid g - 1 ≠ 0 ∧
      (turnsBetween (s.bay b.val).servo.parkGrid g - 1).natAbs ≤ s.pnat 0x0648 b.val) ∧
    (∃ (b : BayId) (l : Fin 6) (s : State), s.fwRuns = true ∧ (s.bay b.val).state = .track ∧ (s.bay b.val).chan.run = none ∧
      (s.bay b.val).servo.tracking = true ∧ (s.bay b.val).servo.seek = none ∧ l.val ≠ (s.bay b.val).servo.layer) :=
  ⟨⟨0, { State.reset with bays := [(0, { servo := { lowSum := 7, offCount := 1 }, state := .write })] }, by decide +kernel⟩,
   ⟨0, { State.reset with bays := [(0, { servo := { lowSum := 7, offCount := 2 }, state := .read })] }, by decide +kernel⟩,
   ⟨0, { State.reset with bays := [(0, { servo := { offCount := 0 } })] }, by decide +kernel⟩,
   ⟨0, 0,
     { State.reset with aon := { stitch := 100 }, bays := [(0, { servo := { trackAcq := some 0, tePrev := -1, teNow := 1, teSpan := some (0, 1000000000000) } })] },
     by decide +kernel⟩,
   ⟨0, 0, { State.reset with bays := [(0, { servo := { trackAcq := some 0 } })] }, by decide +kernel⟩,
   ⟨0, 0, { State.reset with aon := { stitch := 4000 }, bays := [(0, { servo := { trackAcq := some 0 } })] }, by decide +kernel⟩,
   ⟨0, 0,
     { State.reset with aon := { stitch := 4000 }, bays := [(0, { servo := { trackAcq := some 0, regFails := 3 }, mount := none })] },
     by decide +kernel⟩,
   ⟨0, 0, testWord,
     { State.reset with bays := [(0, { servo := { tracking := true, trackSettling := false, trackJump := none, jump := none, seek := none, layer := 0 } })] },
     by decide +kernel⟩,
   ⟨0, 1, testWord,
     { State.reset with bays := [(0, { servo := { tracking := true, trackSettling := false, trackJump := none, jump := none } })] },
     by decide +kernel⟩,
   ⟨0, { n := 0, at_ := 0, phase := 3 },
     { State.reset with bays := [(0, { servo := { trackJump := some { n := 0, at_ := 0, phase := 3 }, settled := 32 } })] },
     by decide +kernel⟩,
   ⟨0, default, { State.reset with bays := [(0, { servo := { trackJump := some default } })] }, by decide +kernel⟩,
   ⟨0, { n := 0, at_ := 0 },
     { State.reset with aon := { stitch := 73 }, bays := [(0, { servo := { trackJump := some { n := 0, at_ := 0 } } })] },
     by decide +kernel⟩,
   ⟨0,
     { State.reset with bays := [(0, { state := .track, chan := { run := none }, servo := { tracking := true, seek := none, trackJump := none, jump := none } })] },
     by decide +kernel⟩,
   ⟨0, 0, 0,
     { State.reset with mode := .active, bays := [(0, { state := .track, chan := { run := none }, servo := { tracking := true, seek := none } })] },
     by decide +kernel⟩,
   ⟨0, 1, { State.reset with mode := .active, bays := [(0, { state := .track, servo := { tracking := true } })] },
     by decide +kernel⟩⟩

theorem test_witness_HoldSafeAndPresenceMoveTheBay :
    (∃ (b : BayId) (s : State), s.fwRuns = true ∧ (s.bay b.val).state = .hold ∧
      (s.bay b.val).holdAt + s.pnat 0x0649 b.val ≤ s.now ∧ (s.bay b.val).welt.phase = .up ∧ 16 ≤ (s.bay b.val).welt.good ∧
      parityDisabled s b.val = false ∧ (s.bay b.val).welt.uplink.holdLatch = true) ∧
    (∃ (b : BayId) (s : State), s.now < (s.bay b.val).holdAt + s.pnat 0x0649 b.val) ∧
    (∃ (b : BayId) (s : State), s.fwRuns = true ∧ (s.bay b.val).state = .hold ∧ (s.bay b.val).holdAt + 200000 ≤ s.now) ∧
    (∃ (b : BayId) (s : State), s.now < (s.bay b.val).holdAt + 200000) ∧
    (∃ (b : BayId) (s : State), s.fwRuns = true ∧ mayRestart s b.val = true ∧
      (recentStarts s b.val).length < s.pnat 0x064B b.val) ∧
    (∃ (b : BayId) (s : State), s.fwRuns = true ∧ (s.bay b.val).state = .safe ∧ (s.bay b.val).disc.isSome ∧
      (s.bay b.val).present = true ∧ (s.bay b.val).releasing = [] ∧ s.pnat 0x064B b.val ≤ (recentStarts s b.val).length) ∧
    (∃ (b : BayId) (s : State), s.powered 18 = true ∧ (s.bay b.val).state = .empty ∧ (s.bay b.val).still = true ∧
      (s.bay b.val).discPin = false ∧ (s.bay b.val).busyPin = false ∧ (s.bay b.val).disc = none ∧ (s.bay b.val).mount = none) ∧
    (∃ (b : BayId) (s : State), s.powered 18 = true ∧ (s.bay b.val).state = .track ∧ (s.bay b.val).spin.confirmed = true ∧
      (s.bay b.val).still = false ∧ (s.bay b.val).discPin = true ∧ (s.bay b.val).busyPin = false ∧ (s.bay b.val).mount = none ∧
      s.courseOfBay b.val = none) ∧
    (∃ (s : State), s.powered 18 = false) ∧
    (∃ (b : BayId) (s : State), s.powered 18 = true ∧ (s.bay b.val).state = .loaded ∧ (s.bay b.val).still = true ∧
      (s.bay b.val).present = true ∧ (s.bay b.val).mount = none) ∧
    (∃ (b : BayId) (s : State), s.fwRuns = true ∧ s.mode.data = true ∧ (s.bay b.val).state = .loaded ∧ (s.bay b.val).disc.isSome
      ∧ (s.bay b.val).outOfService = false ∧ (s.bay b.val).releasing = [] ∧ urgentWaits s b.val = true) ∧
    (∃ (b : BayId) (s : State), waitingSectors s b.val < s.pnat 0x070E b.val ∧ urgentWaits s b.val = false) ∧
    (∃ (b : BayId) (t0 : Nat) (s : State), s.fwRuns = true ∧ (s.bay b.val).spin.idleSince = some t0 ∧
      (s.bay b.val).state = .track ∧ (s.bay b.val).disc.isSome ∧ (s.bay b.val).mount = none ∧ hasDemand s b.val = false ∧
      t0 + 200000 * s.pnat 0x070F b.val ≤ s.now) ∧
    (∃ (b : BayId) (s : State), hasDemand s b.val = true) :=
  ⟨⟨0,
     { State.reset with mode := .active, aon := { stitch := 200 }, bays := [(0, { state := .hold, welt := { phase := .up, good := 16, uplink := { stat := 2 } } })] },
     by decide +kernel⟩,
   ⟨0, State.reset, by decide +kernel⟩,
   ⟨0, { State.reset with mode := .active, aon := { stitch := 200000 }, bays := [(0, { state := .hold })] }, by decide +kernel⟩,
   ⟨0, { State.reset with aon := { stitch := 199999 } }, by decide +kernel⟩,
   ⟨0, { State.reset with mode := .active, bays := [(0, testSafe)] }, by decide +kernel⟩,
   ⟨0,
     { State.reset with mode := .active, bays := [(0, { state := .safe, disc := some default, discPin := true, releasing := [], safeStarts := [0, 0, 0] })] },
     by decide +kernel⟩,
   ⟨0,
     { State.reset with aon := { power := 0xFFFFF }, bays := [(0, { state := .empty, spin := { confirmed := true }, discPin := false, busyPin := false, disc := none, mount := none })] },
     by decide +kernel⟩,
   ⟨0,
     { State.reset with aon := { power := 0xFFFFF }, bays := [(0, { state := .track, spin := { confirmed := true, rpm := 1000, state := .closed }, discPin := true, busyPin := false, mount := none })] },
     by decide +kernel⟩,
   ⟨State.reset, by decide +kernel⟩,
   ⟨0,
     { State.reset with aon := { power := 0xFFFFF }, bays := [(0, { state := .loaded, spin := { confirmed := true }, discPin := true, mount := none })] },
     by decide +kernel⟩,
   ⟨0,
     { State.reset with mode := .active, bays := [(0, { testBay with state := .loaded })], tags := [{ testCmd (testSqe 1 0 []) with sectors := [⟨some 0, 0, 0, 0, 0, 0, .pending, false, []⟩] }] },
     by decide +kernel⟩,
   ⟨0, State.reset, by decide +kernel⟩,
   ⟨0, 0,
     { State.reset with mode := .active, aon := { stitch := 24000000 }, bays := [(0, { spin := { idleSince := some 0 }, state := .track, disc := some default, mount := none })] },
     by decide +kernel⟩,
   ⟨0,
     { State.reset with tags := [{ testCmd (testSqe 1 0 []) with sectors := [⟨some 0, 0, 0, 0, 0, 0, .pending, false, []⟩] }] },
     by decide +kernel⟩⟩

theorem test_witness_SpindlesStartCatchAndStop :
    (∃ (b : BayId) (l : List Nat) (k : Nat) (s : State), s.powered 18 = true ∧ (s.bay b.val).state = .spinUp ∧
      (s.bus (groupOf b.val)).bridgesOff = false ∧ (s.bay b.val).still = true ∧ (s.bay b.val).spin.startsRow = 0 ∧
      detect l = some k) ∧
    (∃ (b : BayId) (l : List Nat) (m : List Nat) (s : State), s.powered 18 = true ∧ (s.bay b.val).state = .spinUp ∧
      (s.bus (groupOf b.val)).bridgesOff = false ∧ (s.bay b.val).still = true ∧ (s.bay b.val).spin.startsRow = 0 ∧
      detect l = none ∧ detect m = none ∧ 1 < s.pnat 0x0711 b.val) ∧
    (∃ (b : BayId) (s : State), (s.bay b.val).state ≠ .spinUp) ∧
    (∃ (b : BayId) (s : State), (s.bay b.val).spin.state = .ramp ∧
      (s.bay b.val).spin.rampAt + 200 * (s.bay b.val).spin.rampT ≤ s.now ∧ 64 ≤ (s.bay b.val).spin.good) ∧
    (∃ (b : BayId) (s : State), (s.bay b.val).spin.good < 64) ∧
    (∃ (b : BayId) (s : State), (s.bay b.val).spin.state = .ramp ∧
      (s.bay b.val).spin.rampAt + 200 * (s.bay b.val).spin.rampT + 200000 ≤ s.now ∧
      s.pnat 0x0711 b.val ≤ (s.bay b.val).spin.startsRow + 1 ∧ (s.bay b.val).mount = none ∧ (s.bay b.val).state ≠ .safe) ∧
    (∃ (b : BayId) (s : State), (s.bay b.val).state = .spinUp ∧ (s.bay b.val).still = true ∧ 0 < (s.bay b.val).spin.startsRow ∧
      (s.bay b.val).spin.stillAt + 40000 ≤ s.now) ∧
    (∃ (b : BayId) (c : RotorCause) (s : State), c ≠ .overspeed ∧
      (((s.bay b.val).spin.state = .closed ∨ (s.bay b.val).spin.state = .safeStop)) ∧ lossHolds (s.bay b.val).spin c = true ∧
      (((s.bay b.val).state = .read ∨ (s.bay b.val).state = .write))) ∧
    (∃ (b : BayId) (s : State), (s.bay b.val).spin.state = .closed ∧ 2 ≤ (s.bay b.val).spin.overs ∧ (s.bay b.val).state ≠ .safe) ∧
    (∃ (b : BayId) (c : RotorCause) (s : State), lossHolds (s.bay b.val).spin c = false) ∧
    (∃ (b : BayId) (r : Nat) (s : State), (s.bay b.val).spin.state = .catching ∧ s.now ≤ (s.bay b.val).spin.eventAt + 40000 ∧
      64 ≤ (s.bay b.val).spin.good ∧ 600 ≤ r) ∧
    (∃ (b : BayId) (r : Nat) (s : State), (s.bay b.val).spin.state = .catching ∧ r < 600 ∧ (s.bay b.val).state ≠ .safe) ∧
    (∃ (b : BayId) (s : State), (s.bay b.val).spin.state = .short ∧ (s.bay b.val).spin.eventAt + 50000 ≤ s.now ∧
      (s.bay b.val).state = .spinDown ∧ (s.bay b.val).releasing = []) ∧
    (∃ (b : BayId) (s : State), s.now < (s.bay b.val).spin.eventAt + 50000) ∧
    (∃ (b : BayId) (s : State), (s.bay b.val).spin.state = .short ∧ (s.bay b.val).spin.eventAt + 2000000 ≤ s.now ∧
      (s.bay b.val).state ≠ .safe) ∧
    (∃ (b : BayId) (s : State), (s.bay b.val).spin.state = .closed ∧ (s.bay b.val).spin.fine = true ∧
      16 ≤ (s.bay b.val).spin.fineCount) ∧
    (∃ (b : BayId) (s : State), (s.bay b.val).state = .safe ∧ (s.bay b.val).spin.state = .closed ∧
      (s.bay b.val).safeAt + 200000 * s.pnat 0x0710 b.val ≤ s.now) ∧
    (∃ (b : BayId) (s : State), s.powered 18 = true ∧ (s.bay b.val).spin.confirmed = false ∧ (s.bay b.val).state = .spinDown ∧
      (s.bay b.val).spin.state ≠ .short) :=
  ⟨⟨0, [100, 97, 97, 97, 97, 97], 0,
     { State.reset with aon := { power := 0xFFFFF }, bays := [(0, { state := .spinUp, spin := { confirmed := true, startsRow := 0 } })] },
     by decide +kernel⟩,
   ⟨0, [], [],
     { State.reset with aon := { power := 0xFFFFF }, bays := [(0, { state := .spinUp, spin := { confirmed := true, startsRow := 0 } })] },
     by decide +kernel⟩,
   ⟨0, State.reset, by decide +kernel⟩,
   ⟨0, { State.reset with aon := { stitch := 80000 }, bays := [(0, { spin := { state := .ramp, good := 64 } })] },
     by decide +kernel⟩,
   ⟨0, { State.reset with bays := [(0, { spin := { good := 63 } })] }, by decide +kernel⟩,
   ⟨0, { State.reset with aon := { stitch := 280000 }, bays := [(0, { spin := { state := .ramp, startsRow := 2 } })] },
     by decide +kernel⟩,
   ⟨0,
     { State.reset with aon := { stitch := 40000 }, bays := [(0, { state := .spinUp, spin := { confirmed := true, startsRow := 1 } })] },
     by decide +kernel⟩,
   ⟨0, .residual, { State.reset with bays := [(0, { state := .read, spin := { state := .closed, badRes := 8 } })] },
     by decide +kernel⟩,
   ⟨0, { State.reset with bays := [(0, { spin := { state := .closed, overs := 2 } })] }, by decide +kernel⟩,
   ⟨0, .residual, State.reset, by decide +kernel⟩,
   ⟨0, 600, { State.reset with aon := { stitch := 40000 }, bays := [(0, { spin := { state := .catching, good := 64 } })] },
     by decide +kernel⟩,
   ⟨0, 0, { State.reset with bays := [(0, { spin := { state := .catching } })] }, by decide +kernel⟩,
   ⟨0,
     { State.reset with aon := { stitch := 50000 }, bays := [(0, { spin := { state := .short }, state := .spinDown, releasing := [] })] },
     by decide +kernel⟩,
   ⟨0, { State.reset with aon := { stitch := 49999 } }, by decide +kernel⟩,
   ⟨0, { State.reset with aon := { stitch := 2000000 }, bays := [(0, { spin := { state := .short } })] }, by decide +kernel⟩,
   ⟨0, { State.reset with bays := [(0, { spin := { state := .closed, fine := true, fineCount := 16 } })] }, by decide +kernel⟩,
   ⟨0, { State.reset with aon := { stitch := 2000000 }, bays := [(0, { state := .safe, spin := { state := .closed } })] },
     by decide +kernel⟩,
   ⟨0, { State.reset with aon := { power := 0xFFFFF }, bays := [(0, { spin := { confirmed := false }, state := .spinDown })] },
     by decide +kernel⟩⟩

theorem test_witness_MotorBusActsAtItsThresholds :
    (∃ (g : GroupId) (v : Nat) (s : State), s.powered 18 = true ∧ 16500 ≤ v ∧ (s.bus g.val).offOver = false) ∧
    (∃ (v : Nat), v < 16500) ∧
    (∃ (g : GroupId) (v : Nat) (s : State), s.powered 18 = true ∧ v ≤ 9500 ∧ (s.bus g.val).offUnder = false) ∧
    (∃ (v : Nat), 9500 < v) ∧
    (∃ (g : GroupId) (v : Nat) (s : State), s.powered 18 = true ∧ (s.bus g.val).bridgesOff = true ∧ v ≤ 13200 ∧
      (((s.bus g.val).offUnder = true → 11200 ≤ v))) ∧
    (∃ (g : GroupId) (v : Nat) (s : State), s.powered 18 = true ∧ (s.bus g.val).bridgesOff = true ∧ (s.bus g.val).offOver = true
      ∧ 13200 < v) ∧
    (∃ (g : GroupId) (s : State), (s.bus g.val).chopOn = true ∧ (s.bus g.val).chopFault = false ∧
      (s.bus g.val).chopAt + 400 < s.now ∧ (s.bus g.val).chopAtMv < (s.bus g.val).mv + 100) ∧
    (∃ (g : GroupId) (s : State), s.now ≤ (s.bus g.val).chopAt + 400) ∧
    (∃ (g : GatePair), (g.high && g.low) = false) :=
  ⟨⟨0, 16500, { State.reset with aon := { power := 0xFFFFF }, buses := [(0, { offOver := false })] }, by decide +kernel⟩,
   ⟨16499, by decide +kernel⟩,
   ⟨0, 9500, { State.reset with aon := { power := 0xFFFFF }, buses := [(0, { offUnder := false })] }, by decide +kernel⟩,
   ⟨9501, by decide +kernel⟩,
   ⟨0, 13200, { State.reset with aon := { power := 0xFFFFF }, buses := [(0, { bridgesOff := true, offUnder := true })] },
     by decide +kernel⟩,
   ⟨0, 13201, { State.reset with aon := { power := 0xFFFFF }, buses := [(0, { bridgesOff := true, offOver := true })] },
     by decide +kernel⟩,
   ⟨0,
     { State.reset with aon := { stitch := 401 }, buses := [(0, { chopOn := true, chopFault := false, mv := 17000, chopAtMv := 17099 })] },
     by decide +kernel⟩,
   ⟨0, State.reset, by decide +kernel⟩,
   ⟨default, by decide +kernel⟩⟩

theorem test_witness_SledsMoveHomeAndStop :
    (∃ (b : BayId) (s : State), sledDriven s b.val = true ∧ (s.bay b.val).sled.homed = true ∧ (s.bay b.val).sled.state = .rest ∧
      (s.bay b.val).state = .track) ∧
    (∃ (b : BayId) (s : State), (s.bay b.val).sled.state = .move ∧ (s.bay b.val).sled.speed = 0 ∧
      (s.bay b.val).sled.wait = false ∧ (s.bay b.val).sled.target = some (s.bay b.val).sled.pos ∧
      (s.bay b.val).servo.seek = none) ∧
    (∃ (b : BayId) (s : State), (s.bay b.val).sled.target ≠ some (s.bay b.val).sled.pos) ∧
    (∃ (b : BayId) (s : State), 8 ≤ (s.bay b.val).sled.stallCount ∧ (s.bay b.val).sled.homePhase = .none ∧
      (s.bay b.val).state ≠ .safe) ∧
    (∃ (b : BayId) (s : State), 4000 < (s.bay b.val).sled.satCount ∧ (s.bay b.val).servo.tracking = true ∧
      (s.bay b.val).sled.softLim = true ∧ (s.bay b.val).state ≠ .safe) ∧
    (∃ (b : BayId) (s : State), (s.bay b.val).sled.softLim = false) ∧
    (∃ (b : BayId) (s : State), sledDriven s b.val = true ∧ (s.bay b.val).state = .spinUp ∧ (s.bay b.val).sled.homed = false ∧
      (s.bay b.val).sled.state = .notHomed) ∧
    (∃ (b : BayId) (s : State), sledDriven s b.val = false) ∧
    (∃ (b : BayId) (s : State), (s.bay b.val).sled.state = .homing ∧ (s.bay b.val).sled.homePhase = .search ∧
      (s.bay b.val).sled.homeSw = true) ∧
    (∃ (b : BayId) (s : State), (s.bay b.val).sled.homeSw = false) ∧
    (∃ (b : BayId) (s : State), (s.bay b.val).sled.state = .homing ∧ (s.bay b.val).sled.homePhase = .backOff ∧
      16 ≤ (s.bay b.val).sled.inactive ∧ (s.bay b.val).sled.next = none ∧ (s.bay b.val).state ≠ .spinUp) ∧
    (∃ (b : BayId) (s : State), (s.bay b.val).sled.state = .homing ∧ (s.bay b.val).sled.homePhase = .backOff ∧
      16 ≤ (s.bay b.val).sled.inactive ∧ (s.bay b.val).sled.next = none ∧ (s.bay b.val).state = .spinUp) ∧
    (∃ (b : BayId) (s : State), (s.bay b.val).sled.inactive < 16) ∧
    (∃ (b : BayId) (s : State), (s.bay b.val).sled.state = .homing ∧ (s.bay b.val).sled.homePhase = .search ∧
      5600 * 256 ≤ posGap (s.bay b.val).sled.searchFrom (s.bay b.val).sled.pos ∧ (s.bay b.val).state ≠ .safe) ∧
    (∃ (b : BayId) (s : State), s.powered 18 = true ∧ (s.bay b.val).sled.state ≠ .homing ∧ (s.bay b.val).sled.speed ≠ 0 ∧
      (s.bay b.val).sled.outward = true ∧ (s.bay b.val).sled.limitSw = true ∧ (s.bay b.val).state ≠ .safe) ∧
    (∃ (b : BayId) (s : State), s.powered 18 = true ∧ (s.bay b.val).sled.state ≠ .homing ∧ (s.bay b.val).sled.speed ≠ 0 ∧
      (s.bay b.val).sled.outward = false ∧ (s.bay b.val).sled.homeSw = true ∧ (s.bay b.val).state ≠ .safe) ∧
    (∃ (b : BayId) (s : State), (((s.bay b.val).sled.outward = false ∨ (s.bay b.val).sled.limitSw = false))) ∧
    (∃ (b : BayId) (s : State), s.powered 18 = true ∧ (s.bay b.val).sled.state = .rest ∧
      (s.bay b.val).sled.restAt + 200 * s.pnat 0x0810 b.val ≤ s.now) ∧
    (∃ (cmd : Int) (off : Int) (hyst : Nat) (slow : Bool) (c : Chopper) (e : Nat × Int), c.mode ≠ .off ∧
      (chopStep cmd hyst off slow c e).mode ≠ c.mode) :=
  ⟨⟨0,
     { State.reset with aon := { power := 0xFFFFF }, bays := [(0, { state := .track, spin := { confirmed := true }, sled := { homed := true, state := .rest } })] },
     by decide +kernel⟩,
   ⟨0,
     { State.reset with bays := [(0, { sled := { state := .move, speed := 0, wait := false, target := some 0 }, servo := { seek := none } })] },
     by decide +kernel⟩,
   ⟨0, State.reset, by decide +kernel⟩,
   ⟨0, { State.reset with bays := [(0, { sled := { stallCount := 8, homePhase := .none } })] }, by decide +kernel⟩,
   ⟨0, { State.reset with bays := [(0, { sled := { satCount := 4001, softLim := true }, servo := { tracking := true } })] },
     by decide +kernel⟩,
   ⟨0, { State.reset with bays := [(0, { sled := { softLim := false } })] }, by decide +kernel⟩,
   ⟨0,
     { State.reset with aon := { power := 0xFFFFF }, bays := [(0, { state := .spinUp, spin := { confirmed := true }, sled := { state := .notHomed } })] },
     by decide +kernel⟩,
   ⟨0, State.reset, by decide +kernel⟩,
   ⟨0, { State.reset with bays := [(0, { sled := { state := .homing, homePhase := .search, homeSw := true } })] },
     by decide +kernel⟩,
   ⟨0, { State.reset with bays := [(0, { sled := { homeSw := false } })] }, by decide +kernel⟩,
   ⟨0,
     { State.reset with bays := [(0, { sled := { state := .homing, homePhase := .backOff, inactive := 16, next := none } })] },
     by decide +kernel⟩,
   ⟨0,
     { State.reset with bays := [(0, { sled := { state := .homing, homePhase := .backOff, inactive := 16, next := none, pos := 1433600 }, state := .spinUp })] },
     by decide +kernel⟩,
   ⟨0, { State.reset with bays := [(0, { sled := { inactive := 15 } })] }, by decide +kernel⟩,
   ⟨0,
     { State.reset with aon := { power := 0xFFFFF, stitch := 0 }, bays := [(0, { state := .track, sled := { state := .homing, homePhase := .search, searchFrom := 0, pos := 1433600 } })] },
     by decide +kernel⟩,
   ⟨0,
     { State.reset with aon := { power := 0xFFFFF, stitch := 0 }, bays := [(0, { state := .track, sled := { state := .move, speed := 1, outward := true, limitSw := true } })] },
     by decide +kernel⟩,
   ⟨0,
     { State.reset with aon := { power := 0xFFFFF, stitch := 0 }, bays := [(0, { state := .track, sled := { state := .move, speed := 1, homeSw := true } })] },
     by decide +kernel⟩,
   ⟨0, State.reset, by decide +kernel⟩,
   ⟨0,
     { State.reset with aon := { power := 0xFFFFF, stitch := 20000 }, bays := [(0, { state := .track, sled := { state := .rest } })] },
     by decide +kernel⟩,
   ⟨0, 0, 0, false, { mode := .drive }, (500, 1000), by decide +kernel⟩⟩

theorem test_witness_DramRequestsErrorsAndRefresh :
    (∃ (c : Fin 2) (i : Nat) (r : DramReq) (s : State), (s.chan c.val).queue.find? (fun r => r.id == i) = some r ∧
      (s.chan c.val).state = .up ∧ r.at_ + 10 ≤ s.now ∧ r.timeouts < 2 ∧ (s.chan c.val).rowTimeouts < 2) ∧
    (∃ (c : Fin 2) (i : Nat) (r : DramReq) (s : State), (s.chan c.val).queue.find? (fun r => r.id == i) = some r ∧
      (s.chan c.val).state = .up ∧ r.at_ + 10 ≤ s.now ∧ r.timeouts < 2 ∧ (s.chan c.val).rowTimeouts = 2) ∧
    (∃ (c : Fin 2) (s : State), (s.chan c.val).state ≠ .up) ∧
    (∃ (c : Fin 2) (s : State), (s.chan c.val).retraining = true ∧ s.ring.ingest = []) ∧
    (∃ (c : Fin 2) (s : State), (s.chan c.val).retraining = true ∧ ((∀ k, k < 2 → k ≠ c.val → (s.chan k).retraining = false))) ∧
    (∃ (c : Fin 2) (s : State), (s.chan c.val).state = .quick) ∧
    (∃ (c : Fin 2) (s : State), (s.chan c.val).state = .full ∧ s.mode.onRing = true ∧ s.mode ≠ .safeStop) ∧
    (∃ (c : Fin 2) (s : State), (s.chan c.val).retraining = false) ∧
    (∃ (k : Client) (a : Nat) (l : List Nat) (s : State), sramWord k = none ∧ (s.mem.regionOf a).isSome ∧
      readOf s.mem (battenAt s.mem a) (a / 64) l = .corrected ∧ (checkLine (battenAt s.mem a) l).residual = [] ∧
      ((∀ r ∈ (s.chan (chanOf (64 * (a / 64)))).queue, r.write = true → r.line ≠ a / 64))) ∧
    (∃ (k : Client) (a : Nat) (l : List Nat) (s : State), sramWord k = none ∧ (s.mem.regionOf a).isSome ∧ k ≠ .burnisher ∧
      k ≠ .merge ∧ readOf s.mem (battenAt s.mem a) (a / 64) l = .uncorrectable) ∧
    (∃ (k : Client) (w : Nat) (l : List Nat), sramWord k = some w ∧ sramVerdict l = .bad) ∧
    (∃ (a : Nat) (l : List Nat) (r : DramReq) (s : State), (s.mem.regionOf a).isSome ∧
      readOf s.mem (battenAt s.mem a) (a / 64) l = .uncorrectable ∧
      (s.chan (chanOf (64 * (a / 64)))).queue.find? (fun r => r.line == a / 64 && r.merges) = some r) ∧
    (∃ (h : Nat) (k : Course) (s : State), s.course? h = some k) ∧
    (∃ (a : Nat) (s : State), s.mem.regionOf a = none) ∧
    (∃ (n : Nat) (s : State), nextLine s.mem s.mem.burnLine = some n ∧ s.mgmt.trained0 = true ∧ s.mgmt.trained1 = true ∧
      burnPaused s n = false ∧ readOf s.mem (battenAt s.mem (64 * n)) n [] = .clean) ∧
    (∃ (l : List Nat) (n : Nat) (s : State), nextLine s.mem s.mem.burnLine = some n ∧ s.mgmt.trained0 = true ∧
      s.mgmt.trained1 = true ∧ burnPaused s n = false ∧ readOf s.mem (battenAt s.mem (64 * n)) n l = .uncorrectable) ∧
    (∃ (n : Nat) (s : State), nextLine s.mem s.mem.burnLine = some n ∧ burnPaused s n = true) ∧
    (∃ (cfg : Nat) (d : DramChan) (r : DramReq), d.pick cfg = some r) :=
  ⟨⟨0, 1, { id := 1, line := 0, write := false, cls := 0, at_ := 0, classAt := 0, timeouts := 1, client := .burnisher },
     { State.reset with aon := { stitch := 10 }, mem := { ch0 := { state := .up, rowTimeouts := 1, queue := [{ id := 1, line := 0, write := false, cls := 0, at_ := 0, classAt := 0, timeouts := 1, client := .burnisher }] } } },
     by decide +kernel⟩,
   ⟨0, 1, { id := 1, line := 0, write := false, cls := 0, at_ := 0, classAt := 0, timeouts := 1, client := .burnisher },
     { State.reset with aon := { stitch := 10 }, mem := { ch0 := { state := .up, rowTimeouts := 2, queue := [{ id := 1, line := 0, write := false, cls := 0, at_ := 0, classAt := 0, timeouts := 1, client := .burnisher }] } } },
     by decide +kernel⟩,
   ⟨0, State.reset, by decide +kernel⟩,
   ⟨0, { State.reset with mem := { ch0 := { state := .full } } }, by decide +kernel⟩,
   ⟨0, { State.reset with mem := { ch0 := { state := .quick } } }, by decide +kernel⟩,
   ⟨0, { State.reset with mem := { ch0 := { state := .quick } } }, by decide +kernel⟩,
   ⟨0, { State.reset with mode := .active, mem := { ch0 := { state := .full } } }, by decide +kernel⟩,
   ⟨0, testMem, by decide +kernel⟩,
   ⟨.retransmission (.data 1) 0 true, 0, [20], testMem, by decide +kernel⟩,
   ⟨.feeder 0 0 0, 0, [20, 21, 22], testMem, by decide +kernel⟩,
   ⟨.ingest 5, (0x10 * 2 ^ 56 + 5), [20, 21, 22], by decide +kernel⟩,
   ⟨0, [20, 21, 22],
     { id := 1, line := 0, write := true, cls := 0, at_ := 0, classAt := 0, timeouts := 0, client := .merge, data := [1] },
     { testMem with mem := { testMem.mem with ch0 := { queue := [{ id := 1, line := 0, write := true, cls := 0, at_ := 0, classAt := 0, timeouts := 0, client := .merge, data := [1] }] } } },
     by decide +kernel⟩,
   ⟨1, testCourse, { State.reset with courses := [testCourse] }, by decide +kernel⟩,
   ⟨0, State.reset, by decide +kernel⟩,
   ⟨0, { testMem with mgmt := { trained0 := true, trained1 := true } }, by decide +kernel⟩,
   ⟨[20, 21, 22], 0, { testMem with mgmt := { trained0 := true, trained1 := true } }, by decide +kernel⟩,
   ⟨0, { testMem with eave := { step := 2 } }, by decide +kernel⟩,
   ⟨0,
     { queue := [{ id := 1, line := 0, write := false, cls := 0, at_ := 0, classAt := 0, timeouts := 1, client := .burnisher }] },
     { id := 1, line := 0, write := false, cls := 0, at_ := 0, classAt := 0, timeouts := 1, client := .burnisher },
     by decide +kernel⟩⟩

theorem test_witness_CacheMaintenanceAndErrors :
    (∃ (w : Word) (l : CacheLine) (s : State), s.powered 1 = true ∧ w.toNat.testBit 6 = true ∧ bitsOf w.toNat 5 4 = 3 ∧
      s.mem.l2.en = true ∧ bitsOf w.toNat 31 28 < 16 ∧ bitsOf w.toNat 27 16 < 4096 ∧
      Tbl.get none s.mem.l2.lines (bitsOf w.toNat 27 16 * 16 + bitsOf w.toNat 31 28) = some l ∧ l.dirty = true ∧
      s.mem.l1d0.en = false ∧ s.mem.l1d1.en = false) ∧
    (∃ (w : Word) (s : State), s.powered 1 = true ∧ w.toNat.testBit 6 = true ∧ bitsOf w.toNat 5 4 = 2 ∧
      128 ≤ bitsOf w.toNat 27 16) ∧
    (∃ (w : Word) (s : State), s.powered 1 = true ∧ bitsOf w.toNat 5 4 = 0) ∧
    (∃ (k : Cache) (s : State), (s.cache k).walking = true) ∧
    (∃ (k : Cache) (s : State), (s.cache k).walking = false) ∧
    (∃ (c : Fin 2) (x : Nat) (y : Nat) (l : CacheLine) (s : State), s.powered 1 = true ∧ s.mode.firmware = true ∧ x < 128 ∧
      y < 4 ∧ Tbl.get none (s.cache (.l1d c)).lines (x * 4 + y) = some l ∧ l.dirty = true ∧
      (s.aon.restarts.filter (fun t => s.now < t + 120000000)).length < 2) ∧
    (∃ (x : Nat) (y : Nat) (n : Nat) (s : State), s.powered 1 = true ∧ x < 4096 ∧ y < 16 ∧ n < 72) ∧
    (∃ (x : Nat) (y : Nat) (e : List Nat) (l : CacheLine) (s : State), s.powered 1 = true ∧ x < 4096 ∧ y < 16 ∧
      l2Verdict e = .bad ∧ Tbl.get none s.mem.l2.lines (x * 16 + y) = some l ∧ l.dirty = false) ∧
    (∃ (k : Cache) (x : Nat) (y : Nat), ((cacheSets k ≤ x ∨ cacheWays k ≤ y))) :=
  ⟨⟨0xFFFF0070, ⟨0, true, false, List.replicate 64 0⟩,
     { State.reset with aon := { power := 0xFFFFF }, mem := { l2 := { en := true, lines := [(65535, some ⟨0, true, false, List.replicate 64 0⟩)] } } },
     by decide +kernel⟩,
   ⟨0x00800060, { State.reset with aon := { power := 0xFFFFF } }, by decide +kernel⟩,
   ⟨0, { State.reset with aon := { power := 0xFFFFF } }, by decide +kernel⟩,
   ⟨.l2, { State.reset with mem := { l2 := { walking := true } } }, by decide +kernel⟩,
   ⟨.l2, State.reset, by decide +kernel⟩,
   ⟨0, 127, 3, ⟨0, true, false, List.replicate 64 0⟩,
     { State.reset with aon := { power := 0xFFFFF }, mode := .active, mem := { l1d0 := { lines := [(511, some ⟨0, true, false, List.replicate 64 0⟩)] } } },
     by decide +kernel⟩,
   ⟨0, 0, 0, { State.reset with aon := { power := 0xFFFFF } }, by decide +kernel⟩,
   ⟨127, 3, [20, 21], ⟨0, false, false, List.replicate 64 0⟩,
     { State.reset with aon := { power := 0xFFFFF }, mode := .active, mem := { l2 := { lines := [(2035, some ⟨0, false, false, List.replicate 64 0⟩)] } } },
     by decide +kernel⟩,
   ⟨.l2, 4096, 0, by decide +kernel⟩⟩

theorem test_witness_EaveStepsAndParksGroups :
    (∃ (s : State), s.aon.supply = false) ∧
    (∃ (l : List (Fin 16 × Int)) (i : Nat) (s : State), s.aon.supply = true ∧ s.mode ≠ .dark ∧
      tripped (takeReadings s l).eave = some i) ∧
    (∃ (l : List (Fin 16 × Int)) (s : State), s.aon.supply = true ∧ tripped (takeReadings s l).eave = none ∧
      (noteSample (takeReadings s l)).eave.step < stepAsked (noteSample (takeReadings s l))) ∧
    (∃ (l : List (Fin 16 × Int)) (s : State), s.aon.supply = true ∧ tripped (takeReadings s l).eave = none ∧ s.eave.step = 0 ∧
      stepAsked (noteSample (takeReadings s l)) = 0) ∧
    (∃ (t0 : Nat) (s : State), s.eave.coolSince = some t0 ∧ ((s.eave.step = 1 ∨ s.eave.step = 2)) ∧ t0 + 2000000 ≤ s.now) ∧
    (∃ (t0 : Nat) (s : State), s.eave.coolSince = some t0 ∧ s.now < t0 + 2000000) ∧
    (∃ (s : State), s.eave.step = 1 ∧ s.eave.step1Hot = true ∧ s.eave.allRead = true ∧ s.eave.step1At + 12000000 ≤ s.now) ∧
    (∃ (s : State), s.now < s.eave.step1At + 12000000) ∧
    (∃ (g : GroupId) (s : State), s.fwRuns = true ∧ s.eave.step = 3 ∧ s.eave.gov < 1680 ∧ s.eave.parkedBy false = [] ∧
      nextGroup s = some g) ∧
    (∃ (s : State), s.fwRuns = true ∧ s.eave.step = 3 ∧ 1680 ≤ s.eave.gov) ∧
    (∃ (g : GroupId) (s : State), s.fwRuns = true ∧ s.eave.step = 3 ∧ 1664 ≤ s.eave.gov ∧ s.eave.parkedBy false ≠ [] ∧
      s.eave.parkAt + 1000000 ≤ s.now ∧ nextGroup s = some g) ∧
    (∃ (s : State), s.now < s.eave.parkAt + 1000000) ∧
    (∃ (g : GroupId) (s : State), s.fwRuns = true ∧ capParkDue s = true ∧ nextGroup s = some g) ∧
    (∃ (s : State), capParkDue s = false) ∧
    (∃ (g : GroupId) (u : Nat) (s : State), s.fwRuns = true ∧ s.eave.unparkSince = some u ∧ u + 2000000 ≤ s.now ∧
      (s.eave.parkedBy false).getLast? = some g ∧ s.eave.step ≠ 3) ∧
    (∃ (s : State), s.eave.parked = []) :=
  ⟨⟨{ State.reset with aon := { supply := false } }, by decide +kernel⟩,
   ⟨[(0, 1840)], 0, { State.reset with eave := { sensors := [(0, { valid := true, tj := 1840, raw := 1840, trips := 1 })] } },
     by decide +kernel⟩,
   ⟨[], { State.reset with aon := { supply := true } }, by decide +kernel⟩,
   ⟨[(0, 1001)],
     { State.reset with eave := { sensors := (List.range 16).map fun i => (i, { valid := true, tj := 1000, raw := 1000 }) } },
     by decide +kernel⟩,
   ⟨0, { State.reset with eave := { coolSince := some 0, step := 2 }, aon := { stitch := 2000000 } }, by decide +kernel⟩,
   ⟨0, { State.reset with eave := { coolSince := some 0 }, aon := { stitch := 1999999 } }, by decide +kernel⟩,
   ⟨{ State.reset with aon := { stitch := 12000000 }, eave := { step := 1, step1Hot := true, sensors := (List.range 16).map fun i => (i, { valid := true }) } },
     by decide +kernel⟩,
   ⟨{ State.reset with aon := { stitch := 11999999 } }, by decide +kernel⟩,
   ⟨3, testHot, by decide +kernel⟩,
   ⟨{ testHot with eave := { step := 3, tmax := 1680 } }, by decide +kernel⟩,
   ⟨2, { testHot with aon := { stitch := 1000000 }, eave := { step := 3, tmax := 1664, parked := [(3, false)] } },
     by decide +kernel⟩,
   ⟨{ State.reset with aon := { stitch := 999999 } }, by decide +kernel⟩,
   ⟨3, { testHot with eave := { capOn := true, capSpans := 200 } }, by decide +kernel⟩,
   ⟨State.reset, by decide +kernel⟩,
   ⟨0, 0,
     { State.reset with mode := .active, eave := { unparkSince := some 0, parked := [(0, false)] }, aon := { stitch := 2000000 } },
     by decide +kernel⟩,
   ⟨{ State.reset with eave := { parked := [] } }, by decide +kernel⟩⟩

theorem test_witness_StepRunsTheFrontCommandOnTheRestOfTheQueue :
    (∃ (c : Instr) (rest : List Instr) (s : State), s.pending = c :: rest) ∧
    (∃ (s : State), s.pending = []) :=
  ⟨⟨.stitchLoRead, [], { State.reset with pending := [.stitchLoRead] }, by decide +kernel⟩,
   ⟨State.reset, by decide +kernel⟩⟩

theorem test_witness_MemoryStaysInItsCanonicalForm :
    ∃ (s : State) (t : State), s.mem.wf = true ∧ step s = .next t :=
  ⟨{ State.reset with pending := [.stitchLoRead] }, State.reset, by decide, rfl⟩

theorem test_witness_ModesChangeOnlyAlongTheTable :
    ∃ (s : State) (t : State), step s = .next t :=
  ⟨{ State.reset with pending := [.stitchLoRead] }, State.reset, rfl⟩

theorem test_witness_DomainsFollowTheMode :
    ∃ (s : State) (t : State), s.domainsFit ∧ step s = .next t :=
  ⟨{ State.reset with pending := [.stitchLoRead] }, State.reset, by simp [State.domainsFit, State.reset, domainMasks], rfl⟩

theorem test_witness_LaneBlocksSurviveCodingAndReceiver :
    (∃ (x : LaneBlock), x.bytes.length = 8) ∧
    (∃ (l : List Byte), 0 < l.length ∧ uplinkLen (byteAt l 0).toNat = l.length) ∧
    (∃ (x : LaneWord), x.head ≠ 1 ∧ x.head ≠ 2) ∧
    (∃ (gates : List (List (Bool × Nat))), gates.length = 4) :=
  ⟨⟨idleBlock, by decide +kernel⟩,
   ⟨(testEcho 0), by decide +kernel⟩,
   ⟨default, by decide +kernel⟩,
   ⟨[[], [], [], []], by decide +kernel⟩⟩
end

section
/-! SUPPORT. Frames of single-field updates, and what the updates of ports, channels and caches read. -/

namespace Sys2Proof.Proofs

open Sys2Proof Sys2Proof.Machine Sys2Proof.Laws

/-! ## One field changes -/

theorem changesOnly_of_agrees {ps : List Part} {s t : State} (h : ∀ p, p ∈ ps ∨ s.agrees t p) : s.changesOnly ps t :=
  fun p hp => (h p).resolve_left hp

theorem withReadData_changesOnly (s : State) (v : Word) : s.changesOnly [.readData] { s with readData := v } :=
  changesOnly_of_agrees (by rintro ⟨⟩ <;> simp [State.agrees])

theorem withGirth_changesOnly (s : State) (v : Girth) : s.changesOnly [.girth] { s with girth := v } :=
  changesOnly_of_agrees (by rintro ⟨⟩ <;> simp [State.agrees])

theorem withRing_changesOnly (s : State) (v : Ring) : s.changesOnly [.ring] { s with ring := v } :=
  changesOnly_of_agrees (by rintro ⟨⟩ <;> simp [State.agrees])

theorem withMem_changesOnly (s : State) (v : Memory) : s.changesOnly [.mem] { s with mem := v } :=
  changesOnly_of_agrees (by rintro ⟨⟩ <;> simp [State.agrees])

theorem withBeams_changesOnly (s : State) (v : Tbl Beam) : s.changesOnly [.beams] { s with beams := v } :=
  changesOnly_of_agrees (by rintro ⟨⟩ <;> simp [State.agrees])

theorem withBuses_changesOnly (s : State) (v : Tbl Bus) : s.changesOnly [.buses] { s with buses := v } :=
  changesOnly_of_agrees (by rintro ⟨⟩ <;> simp [State.agrees])

/-- A register read (R9) and then an update of the parts `ps`. -/
theorem reads_then_changesOnly {ps : List Part} {s t : State} {v : Nat} (h : (s.reads v).changesOnly ps t) :
    s.changesOnly (ps ++ [.readData]) t :=
  changesOnly_trans (changesOnly_mono (withReadData_changesOnly s _) (by simp)) (changesOnly_mono h (by simp))

/-! ## Beams, buses and bays at one index -/

theorem modBeam_changesOnly (s : State) (g : Nat) (f : Beam → Beam) : s.changesOnly [.beams] (s.modBeam g f) :=
  withBeams_changesOnly s _

theorem modBeam_beam_other (s : State) {g k : Nat} (f : Beam → Beam) (h : k ≠ g) : (s.modBeam g f).beam k = s.beam k :=
  Tbl_get_upd_other _ _ f h

theorem modBus_changesOnly (s : State) (g : Nat) (f : Bus → Bus) : s.changesOnly [.buses] (s.modBus g f) :=
  withBuses_changesOnly s _

theorem modBus_bus_other (s : State) {g k : Nat} (f : Bus → Bus) (h : k ≠ g) : (s.modBus g f).bus k = s.bus k :=
  Tbl_get_upd_other _ _ f h

theorem modSlot_slot_other (s : State) {i k : Nat} (f : GSlot → GSlot) (h : k ≠ i) : (s.modSlot i f).slot k = s.slot k :=
  Tbl_get_upd_other _ _ f h

theorem modSpin_spin_frame (s : State) (b : Nat) (f : Spindle → Spindle) :
    (s.bay b).changesOnly [.spin] ((s.modSpin b f).bay b) := by
  rintro ⟨⟩ hp <;> simp_all [State.modSpin, Bay.agrees]

theorem modSled_sled_frame (s : State) (b : Nat) (f : Sled → Sled) :
    (s.bay b).changesOnly [.sled] ((s.modSled b f).bay b) := by
  rintro ⟨⟩ hp <;> simp_all [State.modSled, Bay.agrees]

/-! ## Ports -/

@[simp] theorem modPort_port_same (s : State) (p : Port) (f : PortState → PortState) :
    (s.modPort p f).port p = f (s.port p) := by cases p <;> rfl

theorem modPort_port_other (s : State) {p q : Port} (f : PortState → PortState) (h : q ≠ p) :
    (s.modPort p f).port q = s.port q := by
  cases p with
  | east => cases q with
    | east => exact absurd rfl h
    | west => rfl
  | west => cases q with
    | east => rfl
    | west => exact absurd rfl h

theorem modPort_changesOnly (s : State) (p : Port) (f : PortState → PortState) : s.changesOnly [.ring] (s.modPort p f) := by
  cases p
  · exact withRing_changesOnly s _
  · exact withRing_changesOnly s _

/-! ## Memory: channels, caches and regions -/

theorem modMem_changesOnly (s : State) (f : Memory → Memory) : s.changesOnly [.mem] (s.modMem f) :=
  withMem_changesOnly s _

@[simp] theorem modChanD_chan (s : State) (c : Nat) (f : DramChan → DramChan) : (s.modChanD c f).chan c = f (s.chan c) := by
  by_cases h : c = 0 <;> simp [State.modChanD, State.chan, h]

@[simp] theorem modChanD_readByte (s : State) (c : Nat) (f : DramChan → DramChan) :
    (s.modChanD c f).mem.readByte = s.mem.readByte := by
  unfold State.modChanD
  split <;> rfl

theorem modChanD_changesOnly (s : State) (c : Nat) (f : DramChan → DramChan) : s.changesOnly [.mem] (s.modChanD c f) :=
  changesOnly_ite (withMem_changesOnly s _) (withMem_changesOnly s _)

@[simp] theorem modCache_cache (s : State) (k : Cache) (f : CacheState → CacheState) :
    (s.modCache k f).cache k = f (s.cache k) := by
  cases k with
  | l1i c => by_cases h : c.val = 0 <;> simp [State.modCache, State.cache, State.modMem, h]
  | l1d c => by_cases h : c.val = 0 <;> simp [State.modCache, State.cache, State.modMem, h]
  | l2 => rfl

@[simp] theorem modCache_readByte (s : State) (k : Cache) (f : CacheState → CacheState) :
    (s.modCache k f).mem.readByte = s.mem.readByte := by
  unfold State.modCache
  split
  · split <;> rfl
  · split <;> rfl
  · rfl

theorem modCache_changesOnly (s : State) (k : Cache) (f : CacheState → CacheState) :
    s.changesOnly [.mem] (s.modCache k f) := by
  cases k with
  | l1i c => exact changesOnly_ite (modMem_changesOnly s _) (modMem_changesOnly s _)
  | l1d c => exact changesOnly_ite (modMem_changesOnly s _) (modMem_changesOnly s _)
  | l2 => exact modMem_changesOnly s _

theorem region_set (m : Memory) (i k : Nat) (r : Region) :
    ({ m with regions := Tbl.set {} m.regions i r } : Memory).region k = if k = i then r else m.region k :=
  Tbl_get_set _ _ _ _ _

end Sys2Proof.Proofs
end

section
/-! SUPPORT. Registers: the fields of the status words, and the statements about reads that clear, bits that a written 1
clears, and plain writes (R9, R10). -/

namespace Sys2Proof.Proofs

open Sys2Proof Sys2Proof.Machine Sys2Proof.Laws

/-! ## What a read returns -/

@[simp] theorem reads_readData (s : State) (v : Nat) : (s.reads v).readData = BitVec.ofNat 32 v := rfl

@[simp] theorem modPort_readData (s : State) (p : Port) (f : PortState → PortState) :
    (s.modPort p f).readData = s.readData := by cases p <;> rfl
@[simp] theorem modChanD_readData (s : State) (c : Nat) (f : DramChan → DramChan) :
    (s.modChanD c f).readData = s.readData := by unfold State.modChanD; split <;> rfl
theorem modCache_readData (s : State) (k : Cache) (f : CacheState → CacheState) :
    (s.modCache k f).readData = s.readData := modCache_changesOnly s k f .readData (by simp)

/-! ## The fields of the words -/

theorem bitNat_le_one (b : Bool) : bitNat b ≤ 1 := by cases b <;> decide

/-- A word's field as a register read returns it. -/
theorem bitsOf_word (v hi lo : Nat) : bitsOf (BitVec.ofNat 32 v).toNat hi lo = v % 2 ^ 32 / 2 ^ lo % 2 ^ (hi + 1 - lo) := by
  simp [bitsOf]

theorem fly_code_le (f : Fly) : f.code ≤ 2 := by cases f <;> decide
theorem spinState_code_le (x : SpinState) : x.code ≤ 8 := by cases x <;> decide
theorem dramState_code_le (x : DramState) : x.code ≤ 5 := by cases x <;> decide

theorem channelWord_lost (s : State) (g : Nat) :
    bitsOf (BitVec.ofNat 32 (channelWord s g)).toNat 15 8 = min 255 (s.beam g).lost := by
  have hfly := fly_code_le (s.bay (g / 8)).chan.fly
  have h31 := bitNat_le_one (!(s.beam g).loaded)
  have h30 := bitNat_le_one (s.bay (g / 8)).chan.seamFault
  have h29 := bitNat_le_one (s.bay (g / 8)).chan.ridgeLock
  have h28 := bitNat_le_one (s.beam g).retryFull
  have h25 := bitNat_le_one (s.beam g).trLock
  have h24 := bitNat_le_one (s.beam g).defect
  rw [bitsOf_word]
  simp only [channelWord]
  omega

theorem girthStat_fields (g : Girth) :
    bitsOf (BitVec.ofNat 32 g.stat).toNat 31 16 = min 0xFFFF g.overruns ∧
    bitsOf (BitVec.ofNat 32 g.stat).toNat 15 8 = min 0xFF g.parity := by
  simp only [bitsOf_word, Girth.stat]
  omega

theorem spindleStat_fields (p : Spindle) :
    bitsOf (BitVec.ofNat 32 p.stat).toNat 23 20 = min 15 p.starts ∧
    bitsOf (BitVec.ofNat 32 p.stat).toNat 31 28 = p.state.code := by
  have hcode := spinState_code_le p.state
  have h27 := bitNat_le_one p.fine
  have h26 := bitNat_le_one p.atSpeed
  have h25 := bitNat_le_one p.lost
  have h24 := bitNat_le_one p.regenInh
  simp only [bitsOf_word, Spindle.stat]
  omega

theorem busStat_fields (b : Bus) :
    bitsOf (BitVec.ofNat 32 b.stat).toNat 23 16 = min 255 b.events ∧
    bitsOf (BitVec.ofNat 32 b.stat).toNat 15 0 = b.mv % 65536 := by
  have h31 := bitNat_le_one b.chopFault
  have h30 := bitNat_le_one b.chopOn
  have h29 := bitNat_le_one b.regenInh
  have h28 := bitNat_le_one b.bridgesOff
  have h27 := bitNat_le_one b.limited
  simp only [bitsOf_word, Bus.stat]
  omega

theorem portStat_fields (x : PortState) :
    bitsOf (BitVec.ofNat 32 x.stat).toNat 15 8 = min 255 x.fecUncorr ∧
    bitsOf (BitVec.ofNat 32 x.stat).toNat 23 16 = x.neighbour % 256 := by
  have h31 := bitNat_le_one x.elsOk
  have h30 := bitNat_le_one x.pcs
  have h29 := bitNat_le_one x.linkUp
  have h28 := bitNat_le_one x.wrapped
  have h27 := bitNat_le_one x.p3.paused
  have h26 := bitNat_le_one x.p6.paused
  have h25 := bitNat_le_one x.stormFlag
  have h24 := bitNat_le_one x.nbChange
  simp only [bitsOf_word, PortState.stat]
  omega

theorem portDrop_fields (x : PortState) :
    bitsOf (BitVec.ofNat 32 x.drop).toNat 31 16 = min 0xFFFF x.fcsBad ∧
    bitsOf (BitVec.ofNat 32 x.drop).toNat 15 0 = min 0xFFFF x.dropped := by
  simp only [bitsOf_word, PortState.drop]
  omega

theorem dramStat_fields (s : State) (c : Nat) :
    bitsOf (BitVec.ofNat 32 (dramStat s c)).toNat 15 8 = min 255 (s.chan c).ce ∧
    bitsOf (BitVec.ofNat 32 (dramStat s c)).toNat 7 4 = min 15 (s.chan c).timeouts ∧
    bitsOf (BitVec.ofNat 32 (dramStat s c)).toNat 3 0 = min 15 (s.chan c).retrains := by
  have hcode := dramState_code_le (s.chan c).state
  have h27 := bitNat_le_one (s.chan c).hot
  have h26 := bitNat_le_one (panicWaits s c)
  simp only [bitsOf_word, dramStat]
  omega

theorem burnStat_passes (s : State) :
    bitsOf (BitVec.ofNat 32 (burnStat s)).toNat 23 16 = min 255 s.mem.burnPasses := by
  have h31 := bitNat_le_one s.mem.burnRunning
  have h30 := bitNat_le_one (burnPaused s s.mem.burnLine)
  simp only [bitsOf_word, burnStat]
  generalize (if linesAll s.mem = 0 then 0 else linesBelow s.mem s.mem.burnLine * 65536 / linesAll s.mem) = done
  omega

theorem cacheStat_fields (c : CacheState) :
    bitsOf (BitVec.ofNat 32 c.stat).toNat 15 8 = min 255 c.par ∧
    bitsOf (BitVec.ofNat 32 c.stat).toNat 7 0 = min 255 c.fatal := by
  have h31 := bitNat_le_one c.en
  have h30 := bitNat_le_one c.invDone
  have h29 := bitNat_le_one c.err
  simp only [bitsOf_word, CacheState.stat]
  omega

/-! ## Reads that clear -/

/-- A field of what a register read returned is the field of the word read. -/
theorem field_of_readData {t : State} {v hi lo n : Nat} (hv : t.readData = BitVec.ofNat 32 v)
    (h : bitsOf (BitVec.ofNat 32 v).toNat hi lo = n) : bitsOf t.readData.toNat hi lo = n := hv ▸ h

/-! What a read does that returns `v` and then updates one place. The word `v` is any number here: what it is in a clause
plays no part in the frame. -/

theorem read_modBeam {c : Instr} {s : State} {v g : Nat} {f : Beam → Beam}
    (h : exec c s = .next ((s.reads v).modBeam g f)) : completes c s fun t =>
      t.readData = BitVec.ofNat 32 v ∧ t.beam g = f (s.beam g) ∧ (∀ k, k ≠ g → t.beam k = s.beam k) ∧
      s.changesOnly [.beams, .readData] t :=
  ⟨_, h, rfl, modBeam_beam _ _ _, fun _ hk => modBeam_beam_other _ _ hk, reads_then_changesOnly (modBeam_changesOnly _ _ _)⟩

theorem read_modSpin {c : Instr} {s : State} {v b : Nat} {f : Spindle → Spindle}
    (h : exec c s = .next ((s.reads v).modSpin b f)) : completes c s fun t =>
      t.readData = BitVec.ofNat 32 v ∧ (t.bay b).spin = f (s.bay b).spin ∧ (s.bay b).changesOnly [.spin] (t.bay b) ∧
      s.onlyBay b t ∧ s.changesOnly [.bays, .readData] t :=
  ⟨_, h, rfl, modSpin_spin _ _ _, modSpin_spin_frame (s.reads v) b f, modBay_onlyBay (s.reads v) b _,
    reads_then_changesOnly (modBay_changesOnly _ _ _)⟩

theorem read_modBus {c : Instr} {s : State} {v g : Nat} {f : Bus → Bus}
    (h : exec c s = .next ((s.reads v).modBus g f)) : completes c s fun t =>
      t.readData = BitVec.ofNat 32 v ∧ t.bus g = f (s.bus g) ∧ (∀ k, k ≠ g → t.bus k = s.bus k) ∧
      s.changesOnly [.buses, .readData] t :=
  ⟨_, h, rfl, modBus_bus _ _ _, fun _ hk => modBus_bus_other _ _ hk, reads_then_changesOnly (modBus_changesOnly _ _ _)⟩

theorem read_modPort {c : Instr} {s : State} {v : Nat} {p : Port} {f : PortState → PortState}
    (h : exec c s = .next ((s.reads v).modPort p f)) : completes c s fun t =>
      t.readData = BitVec.ofNat 32 v ∧ t.port p = f (s.port p) ∧ (∀ q, q ≠ p → t.port q = s.port q) ∧
      s.changesOnly [.ring, .readData] t :=
  ⟨_, h, modPort_readData _ _ _, modPort_port_same _ _ _, fun _ hq => modPort_port_other _ _ hq,
    reads_then_changesOnly (modPort_changesOnly _ _ _)⟩

theorem read_modChanD {c : Instr} {s : State} {v ch : Nat} {f : DramChan → DramChan}
    (h : exec c s = .next ((s.reads v).modChanD ch f)) : completes c s fun t =>
      t.readData = BitVec.ofNat 32 v ∧ t.chan ch = f (s.chan ch) ∧ t.mem.readByte = s.mem.readByte ∧
      s.changesOnly [.mem, .readData] t :=
  ⟨_, h, modChanD_readData _ _ _, modChanD_chan _ _ _, modChanD_readByte _ _ _,
    reads_then_changesOnly (modChanD_changesOnly _ _ _)⟩

theorem read_modMem {c : Instr} {s : State} {v : Nat} {f : Memory → Memory}
    (h : exec c s = .next ((s.reads v).modMem f)) : completes c s fun t =>
      t.readData = BitVec.ofNat 32 v ∧ t.mem = f s.mem ∧ s.changesOnly [.mem, .readData] t :=
  ⟨_, h, rfl, rfl, reads_then_changesOnly (modMem_changesOnly _ _)⟩

theorem read_modCache {c : Instr} {s : State} {v : Nat} {k : Cache} {f : CacheState → CacheState}
    (h : exec c s = .next ((s.reads v).modCache k f)) : completes c s fun t =>
      t.readData = BitVec.ofNat 32 v ∧ t.cache k = f (s.cache k) ∧ t.mem.readByte = s.mem.readByte ∧
      s.changesOnly [.mem, .readData] t :=
  ⟨_, h, modCache_readData _ _ _, modCache_cache _ _ _, modCache_readByte _ _ _,
    reads_then_changesOnly (modCache_changesOnly _ _ _)⟩

/-- Settles O1: each read returns the word with the counts as they stood, and sets them to what R10 leaves at one place. -/
theorem countReadsReturnOldValueThenClear : Obligations.CountReadsReturnOldValueThenClear := by
  unfold Obligations.CountReadsReturnOldValueThenClear
  refine ⟨?channel, ?girthStat, ?girthLoad, ?spin, ?bus, ?port, ?drop, ?dram, ?burnish, ?cache⟩
  case channel =>
    intro g n s
    refine completes_imp (read_modBeam (v := channelWord s g) rfl) fun t ⟨hread, hbeam, hother, hframe⟩ => ?_
    exact ⟨field_of_readData hread (channelWord_lost s g), by rw [hbeam, rcCount], hother, hframe⟩
  case girthStat =>
    intro o p s
    obtain ⟨hover, hparity⟩ := girthStat_fields s.girth
    exact ⟨_, rfl, field_of_readData rfl hover, field_of_readData rfl hparity, rfl,
      reads_then_changesOnly (withGirth_changesOnly (s.reads s.girth.stat) _)⟩
  case girthLoad =>
    refine fun n s => ⟨_, rfl, ?_, rfl, reads_then_changesOnly (withGirth_changesOnly (s.reads s.girth.load) _)⟩
    simp only [reads_readData, BitVec.toNat_ofNat, Girth.load]
    omega
  case spin =>
    intro b n s
    refine completes_imp (read_modSpin (v := (s.bay b).spin.stat) rfl) fun t ⟨hread, hspin, hbay, hother, hframe⟩ => ?_
    obtain ⟨hstarts, hstate⟩ := spindleStat_fields (s.bay b).spin
    exact ⟨field_of_readData hread hstarts, field_of_readData hread hstate, by rw [hspin, rcCount], hbay, hother, hframe⟩
  case bus =>
    intro g n s
    refine completes_imp (read_modBus (v := (s.bus g).stat) rfl) fun t ⟨hread, hbus, hother, hframe⟩ => ?_
    obtain ⟨hevents, hmv⟩ := busStat_fields (s.bus g)
    exact ⟨field_of_readData hread hevents, field_of_readData hread hmv, by rw [hbus, rcCount], hother, hframe⟩
  case port =>
    intro p n s
    refine completes_imp (read_modPort (v := (s.port p).stat) rfl) fun t ⟨hread, hport, hother, hframe⟩ => ?_
    obtain ⟨hfec, hneighbour⟩ := portStat_fields (s.port p)
    exact ⟨field_of_readData hread hfec, field_of_readData hread hneighbour, by rw [hport, rcCount], hother, hframe⟩
  case drop =>
    intro p f d s
    refine completes_imp (read_modPort (v := (s.port p).drop) rfl) fun t ⟨hread, hport, hother, hframe⟩ => ?_
    obtain ⟨hbad, hdropped⟩ := portDrop_fields (s.port p)
    exact ⟨field_of_readData hread hbad, field_of_readData hread hdropped, by rw [hport, rcCount, rcCount], hother, hframe⟩
  case dram =>
    intro ch a b c s
    refine completes_imp (read_modChanD (v := dramStat s ch) rfl) fun t ⟨hread, hchan, hbytes, hframe⟩ => ?_
    obtain ⟨hce, htimeouts, hretrains⟩ := dramStat_fields s ch
    exact ⟨field_of_readData hread hce, field_of_readData hread htimeouts, field_of_readData hread hretrains,
      by rw [hchan, rcCount, rcCount, rcCount], hbytes, hframe⟩
  case burnish =>
    intro n s
    refine completes_imp (read_modMem (v := burnStat s) rfl) fun t ⟨hread, hmem, hframe⟩ => ?_
    exact ⟨field_of_readData hread (burnStat_passes s), by rw [hmem, rcCount], hframe⟩
  case cache =>
    intro k a b s
    refine completes_imp (read_modCache (v := (s.cache k).stat) rfl) fun t ⟨hread, hcache, hbytes, hframe⟩ => ?_
    obtain ⟨hpar, hfatal⟩ := cacheStat_fields (s.cache k)
    exact ⟨field_of_readData hread hpar, field_of_readData hread hfatal, by rw [hcache, rcCount, rcCount], hbytes, hframe⟩

/-! ## Bits that a written 1 clears -/

/-- R10's rule in the order in which the statement has it. -/
theorem w1c_eq (bit written event : Bool) : w1c bit written event = (event || (bit && !written)) := Bool.or_comm _ _

/-- Settles O2: every such write is R10's rule at its bit, and the frame of the update at one place. -/
theorem writeOneClearsUnlessSetInTheSameCycle : Obligations.WriteOneClearsUnlessSetInTheSameCycle := by
  unfold Obligations.WriteOneClearsUnlessSetInTheSameCycle
  simp only [← w1c_eq]
  refine ⟨?channel, ?girthOvr, ?slot, ?spin, ?sled, ?port, ?cache⟩
  case channel =>
    exact fun g w e s => ⟨_, rfl, modBeam_beam _ _ _, fun _ hk => modBeam_beam_other _ _ hk, modBeam_changesOnly _ _ _⟩
  case girthOvr =>
    refine fun w e s => ⟨_, rfl, fun n hn => ?_, rfl, withGirth_changesOnly _ _⟩
    simp [w1c, hn]
  case slot =>
    exact fun i w a u s => ⟨_, rfl, modSlot_slot _ _ _, fun _ hk => modSlot_slot_other _ _ hk, modSlot_changesOnly _ _ _⟩
  case spin =>
    exact fun b w e s => ⟨_, rfl, modSpin_spin _ _ _, modSpin_spin_frame s b _, modBay_onlyBay s b _, modBay_changesOnly s b _⟩
  case sled =>
    exact fun b w e s => ⟨_, rfl, modSled_sled _ _ _, modSled_sled_frame s b _, modBay_onlyBay s b _, modBay_changesOnly s b _⟩
  case port =>
    exact fun p w a n s => ⟨_, rfl, modPort_port_same _ _ _, fun _ hq => modPort_port_other _ _ hq, modPort_changesOnly _ _ _⟩
  case cache =>
    exact fun k w e s => ⟨_, rfl, modCache_cache _ _ _, modCache_readByte _ _ _, modCache_changesOnly _ _ _⟩

/-! ## Plain writes -/

theorem bitsOf_zero (v hi : Nat) : bitsOf v hi 0 = v % 2 ^ (hi + 1) := by simp [bitsOf]

theorem exec_rgnCtrlWrite (i : Fin 16) (w : Word) (s : State) : exec (.rgnCtrlWrite i w) s = execRgnCtrlWrite i w s := rfl
theorem exec_registerWrite (r : Reg) (w : Word) (s : State) : exec (.registerWrite r w) s = execRegisterWrite r w s := rfl

/-- A write to RGN_CTRL of an unlocked descriptor (R432). -/
theorem exec_rgnCtrlWrite_unlocked {i : Fin 16} {s : State} (w : Word) (h : (s.mem.region i).lock = false) :
    exec (.rgnCtrlWrite i w) s = .next (s.modMem fun m =>
      { m with
        regions := Tbl.set {} m.regions i
          { s.mem.region i with en := w.getLsbD 31, lock := w.getLsbD 30, cache := w.getLsbD 29, code := w.getLsbD 28
                                size := bitsOf w.toNat 15 0 } }) := by
  simp only [exec_rgnCtrlWrite, execRgnCtrlWrite, h, Bool.false_eq_true, if_false]

/-- A write to RGN_BASE of an unlocked descriptor (R432). -/
theorem exec_rgnBaseWrite_unlocked {i : Fin 16} {s : State} (w : Word) (h : (s.mem.region i).lock = false) :
    exec (.registerWrite (.rgnBase i) w) s = .next (s.modMem fun m =>
      { m with regions := Tbl.set {} m.regions i { s.mem.region i with base := bitsOf w.toNat 15 0 } }) := by
  simp only [exec_registerWrite, execRegisterWrite, h, Bool.false_eq_true, if_false]

/-- CM_ADDR takes 31 bits (R453). -/
theorem cmAddr_mask (w : Word) : (w &&& 0x7FFFFFFF#32).toNat = w.toNat % 2 ^ 31 := by
  rw [BitVec.toNat_and]
  exact Nat.and_two_pow_sub_one_eq_mod w.toNat 31

/-- Settles O3: a locked descriptor refuses, an unlocked one takes its fields, and every read-only register ignores. -/
theorem plainRegisterWritesFollowTheirAccess : Obligations.PlainRegisterWritesFollowTheirAccess := by
  unfold Obligations.PlainRegisterWritesFollowTheirAccess
  refine ⟨?locked, ?ctrl, ?base, ?cmAddr, ?trim, ?readOnly⟩
  case locked =>
    intro i w s h
    constructor
    · simp [exec_rgnCtrlWrite, execRgnCtrlWrite, h]
    · simp [exec_registerWrite, execRegisterWrite, h]
  case ctrl =>
    intro i w s h
    refine ⟨_, exec_rgnCtrlWrite_unlocked w h, ?_, fun k hk => ?_, rfl, modMem_changesOnly _ _⟩
    · simp [State.modMem, region_set, bitsOf_zero]
    · simp [State.modMem, region_set, hk]
  case base =>
    intro i w s h
    refine ⟨_, exec_rgnBaseWrite_unlocked w h, ?_, fun k hk => ?_, modMem_changesOnly _ _⟩
    · simp [State.modMem, region_set, bitsOf_zero]
    · simp [State.modMem, region_set, hk]
  case cmAddr =>
    intro c w s
    refine ⟨_, rfl, ?_, modMem_changesOnly _ _⟩
    by_cases hc : c.val = 0
    · simpa [State.modMem, hc] using cmAddr_mask w
    · simpa [State.modMem, hc] using cmAddr_mask w
  case trim =>
    exact fun g w s => ⟨_, rfl, by simp [bitsOf], withPat_changesOnly _ _⟩
  case readOnly =>
    intro r w s hr
    cases r with
    | trimWord _ | rgnBase _ | cmAddr _ => exact hr.elim
    | _ => rfl

end Sys2Proof.Proofs
end

section
/-! SUPPORT. Receiving a sequenced frame: what the ring's operations leave, the cases of the expected sequence number, and the
statement about CMD frames (R328 to R330, R338, R355, R363, R429). -/

namespace Sys2Proof.Proofs

open Sys2Proof Sys2Proof.Machine Sys2Proof.Laws

/-! ## Frames of the ring's operations -/

theorem withQps_changesOnly (s : State) (v : Tbl Qp) : s.changesOnly [.qps] { s with qps := v } :=
  changesOnly_of_agrees (by rintro ⟨⟩ <;> simp [State.agrees])

theorem modQp_changesOnly (s : State) (q : QpId) (f : Qp → Qp) : s.changesOnly [.qps] (s.modQp q f) :=
  withQps_changesOnly s _

/-- Queue pairs stand where their table stands. -/
theorem qp_eq_of_qps_eq {s t : State} (h : t.qps = s.qps) (q : QpId) : t.qp q = s.qp q := by
  rw [State.qp, State.qp, h]

theorem qp_eq_of_changesOnly {ps : List Part} {s t : State} (h : s.changesOnly ps t) (hq : Part.qps ∉ ps) (q : QpId) :
    t.qp q = s.qp q := qp_eq_of_qps_eq (h .qps hq) q

theorem modPrio_changesOnly (s : State) (p : Port) (n : Nat) (f : PrioState → PrioState) :
    s.changesOnly [.ring] (s.modPrio p n f) := modPort_changesOnly s p _

theorem ownEgress_changesOnly (s : State) (p : Port) (f : TxFrame) : s.changesOnly [.ring, .sent] (ownEgress s p f) :=
  changesOnly_ite (changesOnly_mono (send_changesOnly s _) (by simp)) (changesOnly_mono (modPrio_changesOnly s _ _ _) (by simp))

theorem ringDrop_changesOnly (s : State) (p : Port) : s.changesOnly [.ring] (s.ringDrop p) := modPort_changesOnly s p _

theorem ownLeave_changesOnly (s : State) (p : Port) (f : TxFrame) : s.changesOnly [.ring, .sent] (ownLeave s p f) :=
  changesOnly_ite
    (changesOnly_ite (changesOnly_refl _ s) (ownEgress_changesOnly s p f))
    (changesOnly_ite
      (changesOnly_ite (changesOnly_mono (ringDrop_changesOnly s p) (by simp)) (ownEgress_changesOnly s _ _))
      (ownEgress_changesOnly s p f))

theorem originate_changesOnly {s t : State} {f : TxFrame} (h : originate s f = some t) : s.changesOnly [.ring, .sent] t := by
  obtain ⟨p, -, rfl⟩ := Option.map_eq_some_iff.1 h
  exact ownLeave_changesOnly s p f

/-- An acknowledgement renews the credit of its queue pair, and sends at most a frame. -/
theorem sendAck_after_modQp (s : State) (q : QpId) (nak : Bool) :
    (s.modQp q fun p => { p with rxUnacked := 0, granted := dataGrant s q, dataIn := 0 }).changesOnly [.ring, .sent]
      (sendAck s q nak) := by
  unfold sendAck
  dsimp only
  split
  case h_1 t ht => exact originate_changesOnly ht
  case h_2 => exact changesOnly_refl _ _

theorem sendAck_changesOnly (s : State) (q : QpId) (nak : Bool) : s.changesOnly [.qps, .ring, .sent] (sendAck s q nak) :=
  changesOnly_trans (changesOnly_mono (modQp_changesOnly s q _) (by simp))
    (changesOnly_mono (sendAck_after_modQp s q nak) (by simp))

theorem sendAck_qp (s : State) (q : QpId) (nak : Bool) :
    (sendAck s q nak).qp q = { s.qp q with rxUnacked := 0, granted := dataGrant s q, dataIn := 0 } := by
  rw [qp_eq_of_changesOnly (sendAck_after_modQp s q nak) (by simp), modQp_qp]

theorem pfcCheck_changesOnly (s : State) (p : Port) (pr : Prio) : s.changesOnly [.ring, .sent] (pfcCheck s p pr) := by
  have hsend (f : PrioState → PrioState) (o : Output) : s.changesOnly [.ring, .sent] ((s.modPrio p pr.pcp f).send o) :=
    changesOnly_trans (changesOnly_mono (modPrio_changesOnly s p _ f) (by simp))
      (changesOnly_mono (send_changesOnly _ o) (by simp))
  exact changesOnly_ite (hsend _ _) (changesOnly_ite (hsend _ _) (changesOnly_refl _ s))

theorem pfcAll_changesOnly (s : State) : s.changesOnly [.ring, .sent] (pfcAll s) :=
  changesOnly_trans (changesOnly_trans (changesOnly_trans (pfcCheck_changesOnly s _ _) (pfcCheck_changesOnly _ _ _))
    (pfcCheck_changesOnly _ _ _)) (pfcCheck_changesOnly _ _ _)

@[simp] theorem modPort_ingest (s : State) (p : Port) (f : PortState → PortState) :
    (s.modPort p f).ring.ingest = s.ring.ingest := by cases p <;> rfl

@[simp] theorem pfcCheck_ingest (s : State) (p : Port) (pr : Prio) : (pfcCheck s p pr).ring.ingest = s.ring.ingest := by
  unfold pfcCheck
  dsimp only
  split
  · simp [State.modPrio]
  · split
    · simp [State.modPrio]
    · rfl

@[simp] theorem pfcAll_ingest (s : State) : (pfcAll s).ring.ingest = s.ring.ingest := by simp [pfcAll]

/-! ## What a received frame teaches -/

theorem learn_changesOnly (s : State) (f : Frame) : s.changesOnly [.ring] (learn s f) :=
  changesOnly_ite (changesOnly_refl _ s) (withRing_changesOnly s _)

theorem learn_ingestLost (s : State) (f : Frame) : (learn s f).ring.ingestLost = s.ring.ingestLost := by
  unfold learn; split <;> rfl
theorem learn_ingest (s : State) (f : Frame) : (learn s f).ring.ingest = s.ring.ingest := by
  unfold learn; split <;> rfl
theorem learn_qp (s : State) (f : Frame) (q : QpId) : (learn s f).qp q = s.qp q :=
  qp_eq_of_changesOnly (learn_changesOnly s f) (by simp) q
theorem learn_chan (s : State) (f : Frame) (c : Nat) : (learn s f).chan c = s.chan c := by
  rw [State.chan, State.chan, learn_changesOnly s f .mem (by simp)]
theorem learn_now (s : State) (f : Frame) : (learn s f).now = s.now := by
  rw [State.now, State.now, learn_changesOnly s f .aon (by simp)]
theorem learn_pnat (s : State) (f : Frame) (id i : Nat) : (learn s f).pnat id i = s.pnat id i := by
  rw [State.pnat, State.pnat, learn_changesOnly s f .pat (by simp)]
theorem learn_qpClass (s : State) (f : Frame) (q : QpId) : qpClass (learn s f) q = qpClass s q := by
  cases q <;> simp [qpClass, learn_qp]
theorem learn_peerOf (s : State) (f : Frame) (q : QpId) : (learn s f).peerOf q = s.peerOf q := by
  cases q <;> simp [State.peerOf, learn_qp]
theorem learn_reaches (s : State) (f g : Frame) (q : QpId) : reaches (learn s f) g q = reaches s g q := by
  rw [reaches, reaches, learn_qp, learn_peerOf]
theorem learn_cmdCredit (s : State) (f : Frame) (q : QpId) : cmdCredit (learn s f) q = cmdCredit s q := by
  cases q <;> simp [cmdCredit, State.depth, learn_qp]
theorem learn_ingestBytes (s : State) (f : Frame) : ingestBytes (learn s f) = ingestBytes s := by
  simp only [ingestBytes, learn_ingest]

/-! ## Receipt (R330, R429) -/

/-- A frame addressed to the engine is processed once its port is learned. -/
theorem receive_of_takes {s : State} {f : Frame} (h : s.takes f) (ht : f.ftype ≠ 0x20) (take : State → State) :
    receive s f take = take (learn s f) := by
  obtain ⟨hgood, hmine, hother, hfcs⟩ := h
  have hnode : s.ring.node ≠ f.src := Ne.symm hother
  simp [receive, hgood, ht, hmine, hother, hfcs]

theorem exec_cmd_of_takes {s : State} {f : Frame} (h : s.takes f) (ht : f.ftype = 1) :
    exec (.cmd f) s = .next (sequenced (learn s f) f [] (storeCmd f)) := by
  have hexec : exec (.cmd f) s = execCmd f s := rfl
  rw [hexec, execCmd, if_neg (by simp [ht]), receive_of_takes h (by simp [ht])]

/-- With no channel retraining the frame is looked at at once. -/
theorem exec_cmd_of_stores {s : State} {f : Frame} (h : s.takes f) (hs : s.stores) (ht : f.ftype = 1) :
    exec (.cmd f) s = .next (sequencedNow (learn s f) f (storeCmd f)) := by
  rw [exec_cmd_of_takes h ht, sequenced, if_pos (by simp [learn_chan, hs.east, hs.west])]

/-! ## The expected number, and others (R338) -/

section
variable {s : State} {f : Frame} {q : QpId} {store : QpId → State → Option State}

theorem sequencedNow_of_foreign (hq : frameQp f = some q) (hr : reaches s f q = false) :
    sequencedNow s f store = s.ringDrop f.port := by
  simp [sequencedNow, hq, hr]

/-- The fields of a queue pair that an accepted frame changes: the next number, and what is not yet acknowledged. -/
def acceptNext (now : Nat) (x : Word) (p : Qp) : Qp :=
  { p with rxNext := x + 1, rxUnacked := p.rxUnacked + 1, rxFirstAt := if p.rxUnacked = 0 then now else p.rxFirstAt }

variable (hq : frameQp f = some q) (hr : reaches s f q = true) (ho : (s.qp q).state = .opened)
include hq hr ho

theorem sequencedNow_of_stored {t : State} (hl : s.ring.ingestLost = false) (hseq : f.seq = (s.qp q).rxNext)
    (hstore : store q s = some t) :
    sequencedNow s f store =
      let u := t.modQp q (acceptNext s.now f.seq)
      if s.pnat 0x0103 0 ≤ (u.qp q).rxUnacked then sendAck u q false else u := by
  simp [sequencedNow, hq, hr, reopen, ho, hseq, hl, hstore]
  rfl

/-- An accepted frame: what the store did stands, and the next number is expected. -/
theorem sequencedNow_of_stored_qp {t : State} (hl : s.ring.ingestLost = false) (hseq : f.seq = (s.qp q).rxNext)
    (hstore : store q s = some t) :
    ((sequencedNow s f store).qp q).sq = (t.qp q).sq ∧ ((sequencedNow s f store).qp q).occupied = (t.qp q).occupied ∧
    ((sequencedNow s f store).qp q).rxNext = f.seq + 1 ∧ t.changesOnly [.qps, .ring, .sent] (sequencedNow s f store) := by
  have hu : t.changesOnly [.qps, .ring, .sent] (t.modQp q (acceptNext s.now f.seq)) :=
    changesOnly_mono (modQp_changesOnly t q _) (by simp)
  rw [sequencedNow_of_stored hq hr ho hl hseq hstore]
  dsimp only
  split
  · exact ⟨by simp [sendAck_qp, acceptNext], by simp [sendAck_qp, acceptNext], by simp [sendAck_qp, acceptNext],
      changesOnly_trans hu (sendAck_changesOnly _ _ _)⟩
  · exact ⟨by simp [acceptNext], by simp [acceptNext], by simp [acceptNext], hu⟩

theorem sequencedNow_of_unstorable (hl : s.ring.ingestLost = false) (hseq : f.seq = (s.qp q).rxNext)
    (hstore : store q s = none) : sequencedNow s f store = s := by
  simp [sequencedNow, hq, hr, reopen, ho, hseq, hl, hstore]
  simp [← hl]

/-- A frame of another number stores nothing: an older one is acknowledged again, a newer one makes one NAK. -/
theorem sequencedNow_of_other (hseq : f.seq ≠ (s.qp q).rxNext) :
    ((sequencedNow s f store).qp q).sq = (s.qp q).sq ∧ ((sequencedNow s f store).qp q).rxNext = (s.qp q).rxNext ∧
    ((sequencedNow s f store).qp q).nakFor = (if newer32 (s.qp q).rxNext f.seq then (s.qp q).nakFor else some (s.qp q).rxNext) ∧
    s.changesOnly [.qps, .ring, .sent] (sequencedNow s f store) := by
  have hnow : sequencedNow s f store =
      if newer32 (s.qp q).rxNext f.seq then sendAck s q false
      else if (s.qp q).nakFor = some (s.qp q).rxNext then s
      else sendAck (s.modQp q fun p => { p with nakFor := some (s.qp q).rxNext }) q true := by
    simp [sequencedNow, hq, hr, reopen, ho, hseq]
  rw [hnow]
  split
  · exact ⟨by simp [sendAck_qp], by simp [sendAck_qp], by simp [sendAck_qp], sendAck_changesOnly _ _ _⟩
  · split
    case isTrue hnak => exact ⟨rfl, rfl, hnak, changesOnly_refl _ s⟩
    case isFalse =>
      exact ⟨by simp [sendAck_qp], by simp [sendAck_qp], by simp [sendAck_qp],
        changesOnly_trans (changesOnly_mono (modQp_changesOnly s q _) (by simp)) (sendAck_changesOnly _ _ _)⟩

end

/-! ## What a CMD frame stores (R363) -/

/-- The number of entries that a CMD frame states, in its range and as long as the frame. -/
def cmdWellFormed (f : Frame) : Prop := 1 ≤ beAt f.body 0 2 ∧ beAt f.body 0 2 ≤ 128 ∧ f.len = 8 + 64 * beAt f.body 0 2

theorem storeCmd_of_malformed {f : Frame} (h : ¬ cmdWellFormed f) (q : QpId) (s : State) :
    storeCmd f q s = some ((s.ringDrop f.port).log .device 0x0105 0xFF (qpNumber q)) := by
  have hbad : beAt f.body 0 2 = 0 ∨ 128 < beAt f.body 0 2 ∨ f.len ≠ 8 + 64 * beAt f.body 0 2 := by
    unfold cmdWellFormed at h
    omega
  simp only [storeCmd, if_pos hbad]

theorem storeCmd_of_wellFormed {f : Frame} {q : QpId} {s : State} (h : cmdWellFormed f) (ho : (s.qp q).state = .opened) :
    storeCmd f q s = if cmdCredit s q < beAt f.body 0 2 then none else
      some (s.modQp q fun p => { p with sq := p.sq ++ cmdEntries f s.now (s.pnat 0x0200 (qpClass s q))
                                        occupied := p.occupied + beAt f.body 0 2 }) := by
  obtain ⟨hpos, hmax, hlen⟩ := h
  have hgood : ¬ (beAt f.body 0 2 = 0 ∨ 128 < beAt f.body 0 2 ∨ f.len ≠ 8 + 64 * beAt f.body 0 2) := by omega
  simp only [storeCmd, if_neg hgood, ho, reduceCtorEq, if_false]

/-! ## Entries stand turned in the ring, and come back (R355) -/

theorem turnFields_nil (ws : List Nat) : turnFields ws [] = [] := by
  induction ws with
  | nil => rfl
  | cons n r ih => simp [turnFields, ih]

/-- Turning the fields twice gives the bytes back, also where the bytes end within a field. -/
theorem turnFields_turnFields (ws : List Nat) (l : List Byte) : turnFields ws (turnFields ws l) = l := by
  induction ws generalizing l with
  | nil => rfl
  | cons n r ih =>
    by_cases h : n ≤ l.length
    · have hlen : ((l.take n).reverse).length = n := by simp [h]
      simp only [turnFields, List.take_left' hlen, List.drop_left' hlen, List.reverse_reverse, ih, List.take_append_drop]
    · have hshort : l.length ≤ n := by omega
      have hrev : l.reverse.length ≤ n := by simpa using hshort
      simp only [turnFields, List.drop_eq_nil_of_le hshort, List.take_of_length_le hshort, turnFields_nil, List.append_nil,
        List.drop_eq_nil_of_le hrev, List.take_of_length_le hrev, List.reverse_reverse]

theorem byteAt_append_left (a x : List Byte) (k : Nat) : byteAt (a ++ x) (a.length + k) = byteAt x k := by
  simp [byteAt, List.getElem?_append_right]

/-- A byte that is a field of its own, behind the fields `ws`, stands where it stood. -/
theorem byteAt_turnFields (ws vs : List Nat) (l : List Byte) (h : ws.sum ≤ l.length) :
    byteAt (turnFields (ws ++ 1 :: vs) l) ws.sum = byteAt l ws.sum := by
  induction ws generalizing l with
  | nil =>
    cases l with
    | nil => simp [turnFields_nil]
    | cons b r => simp [turnFields, byteAt]
  | cons n r ih =>
    simp only [List.sum_cons] at h ⊢
    have htake : (l.take n).length = n := by simp; omega
    calc byteAt ((l.take n).reverse ++ turnFields (r ++ 1 :: vs) (l.drop n)) (n + r.sum)
        = byteAt (turnFields (r ++ 1 :: vs) (l.drop n)) r.sum := by
          simpa [htake] using byteAt_append_left (l.take n).reverse (turnFields (r ++ 1 :: vs) (l.drop n)) r.sum
      _ = byteAt (l.drop n) r.sum := ih (l.drop n) (by simp; omega)
      _ = byteAt (l.take n ++ l.drop n) (n + r.sum) := by
          simpa [htake] using (byteAt_append_left (l.take n) (l.drop n) r.sum).symm
      _ = byteAt l (n + r.sum) := by rw [List.take_append_drop]

/-- OPCODE is the first byte in both forms. -/
theorem byteAt_zero_turnSqe (l : List Byte) : byteAt (turnSqe l) 0 = byteAt l 0 := by
  obtain ⟨vs, hw⟩ : ∃ vs, sqeWidths (byteAt l 0).toNat (byteAt l 28).toNat = 1 :: vs := by
    unfold sqeWidths
    split <;> exact ⟨_, rfl⟩
  rw [turnSqe, hw]
  exact byteAt_turnFields [] vs l (Nat.zero_le _)

/-- Either form tells the widths: ACTION matters only in a data SQE, where it is byte 28 in both. -/
theorem sqeWidths_turnSqe (l : List Byte) (h : 28 ≤ l.length) :
    sqeWidths (byteAt (turnSqe l) 0).toNat (byteAt (turnSqe l) 28).toNat = sqeWidths (byteAt l 0).toNat (byteAt l 28).toNat := by
  rw [byteAt_zero_turnSqe]
  by_cases hop : (byteAt l 0).toNat < 0x40
  · have haction : byteAt (turnSqe l) 28 = byteAt l 28 := by
      have hw : sqeWidths (byteAt l 0).toNat (byteAt l 28).toNat =
          [1, 1, 2, 4, 8, 4, 2, 2, 1, 1, 2] ++ 1 :: ([3] ++ argWidths (byteAt l 0).toNat (byteAt l 28).toNat) := by
        simp [sqeWidths, hop]
      rw [turnSqe, hw]
      exact byteAt_turnFields [1, 1, 2, 4, 8, 4, 2, 2, 1, 1, 2] _ l h
    rw [haction]
  · have hfree (a b : Nat) : argWidths (byteAt l 0).toNat a = argWidths (byteAt l 0).toNat b := by
      unfold argWidths
      split
      case h_3 h6 => omega
      all_goals rfl
    rw [sqeWidths, sqeWidths, hfree]

/-- The ring turns its entries back (R355). -/
theorem turnSqe_turnSqe (l : List Byte) (h : 28 ≤ l.length) : turnSqe (turnSqe l) = l := by
  rw [turnSqe, sqeWidths_turnSqe l h, turnSqe, turnFields_turnFields]

/-- A CMD frame with one entry: what the ring gives back is what the frame brought. -/
theorem cmdEntries_one {f : Frame} {n : Nat} {e : RingEntry} (h : cmdEntries f n 0 = [e]) (hone : beAt f.body 0 2 = 1)
    (hlen : f.body.length = 72) : e.received = f.body.drop 8 := by
  have hbody : (f.body.drop 8).length = 64 := by simp [hlen]
  have hne : (f.body.drop 8).isEmpty = false := by
    rw [List.isEmpty_eq_false_iff]
    exact List.ne_nil_of_length_pos (by omega)
  have htake : (f.body.drop 8).take 64 = f.body.drop 8 := List.take_of_length_le (by omega)
  simp only [cmdEntries, hone, chunks, hne, htake, hbody, zeros, Bool.false_eq_true, if_false, List.map_cons, List.map_nil,
    Nat.sub_self, List.replicate_zero, List.append_nil, List.cons.injEq, and_true] at h
  rw [← h, RingEntry.received, turnSqe_turnSqe _ (by omega)]

/-! ## The statement -/

/-- Settles O29: by the sequence number, the form of the frame and its credit; a frame that stores nothing leaves what
`learn` leaves. -/
theorem commandFramesAreStoredInSequence : Obligations.CommandFramesAreStoredInSequence := by
  unfold Obligations.CommandFramesAreStoredInSequence
  refine ⟨?stored, ?malformed, ?noCredit, ?other, ?foreign, ?turned, ?ingest, ?cpl⟩
  case stored =>
    intro f q s ht hs hty hq hr ho hseq hpos hmax hlen hcredit
    have hstore : storeCmd f q (learn s f) = some _ :=
      (storeCmd_of_wellFormed ⟨hpos, hmax, hlen⟩ (by rw [learn_qp, ho])).trans (if_neg (by rw [learn_cmdCredit]; omega))
    obtain ⟨hsq, hocc, hnext, hframe⟩ := sequencedNow_of_stored_qp hq (by rw [learn_reaches, hr]) (by rw [learn_qp, ho])
      (by rw [learn_ingestLost, hs.whole]) (by rw [learn_qp, hseq]) hstore
    refine ⟨_, exec_cmd_of_stores ht hs hty, ?_, ?_, hnext, ?_⟩
    · rw [hsq, modQp_qp, learn_qp, learn_now, learn_pnat, learn_qpClass]
    · rw [hocc, modQp_qp, learn_qp]
    · exact changesOnly_trans (changesOnly_mono (learn_changesOnly s f) (by simp))
        (changesOnly_trans (changesOnly_mono (modQp_changesOnly _ q _) (by simp)) hframe)
  case malformed =>
    intro f q s ht hs hty hq hr ho hseq hbad
    have hstore := storeCmd_of_malformed (f := f) (by unfold cmdWellFormed; omega) q (learn s f)
    obtain ⟨hsq, -, hnext, hframe⟩ := sequencedNow_of_stored_qp hq (by rw [learn_reaches, hr]) (by rw [learn_qp, ho])
      (by rw [learn_ingestLost, hs.whole]) (by rw [learn_qp, hseq]) hstore
    have hlog := log_changesOnly ((learn s f).ringDrop f.port) .device 0x0105 0xFF (qpNumber q)
    have hdrop := ringDrop_changesOnly (learn s f) f.port
    refine ⟨_, exec_cmd_of_stores ht hs hty, ?_, hnext, ?_⟩
    · rw [hsq, qp_eq_of_changesOnly hlog (by simp), qp_eq_of_changesOnly hdrop (by simp), learn_qp]
    · exact changesOnly_trans (changesOnly_mono (learn_changesOnly s f) (by simp))
        (changesOnly_trans (changesOnly_mono hdrop (by simp))
          (changesOnly_trans (changesOnly_mono hlog (by simp)) (changesOnly_mono hframe (by simp))))
  case noCredit =>
    intro f q s ht hs hty hq hr ho hseq hpos hmax hlen hcredit
    have hstore : storeCmd f q (learn s f) = none :=
      (storeCmd_of_wellFormed ⟨hpos, hmax, hlen⟩ (by rw [learn_qp, ho])).trans (if_pos (by rw [learn_cmdCredit]; exact hcredit))
    refine ⟨_, exec_cmd_of_stores ht hs hty, ?_⟩
    exact sequencedNow_of_unstorable hq (by rw [learn_reaches, hr]) (by rw [learn_qp, ho])
      (by rw [learn_ingestLost, hs.whole]) (by rw [learn_qp, hseq]) hstore
  case other =>
    intro f q s ht hs hty hq hr ho hseq
    obtain ⟨hsq, hnext, hnak, hframe⟩ := sequencedNow_of_other (s := learn s f) (store := storeCmd f) hq (by rw [learn_reaches, hr])
      (by rw [learn_qp, ho]) (by rw [learn_qp]; exact hseq)
    refine ⟨_, exec_cmd_of_stores ht hs hty, by rw [hsq, learn_qp], by rw [hnext, learn_qp], by rw [hnak, learn_qp], ?_⟩
    exact changesOnly_trans (changesOnly_mono (learn_changesOnly s f) (by simp)) hframe
  case foreign =>
    intro f q s ht hs hty hq hr
    exact ⟨_, exec_cmd_of_stores ht hs hty, sequencedNow_of_foreign hq (by rw [learn_reaches, hr])⟩
  case turned => exact fun f n e h hone hlen => cmdEntries_one h hone hlen
  case ingest =>
    intro f s ht hty hre hroom
    have hheld : sequenced (learn s f) f [] (storeCmd f) = pfcAll (ingestLevel
        { learn s f with ring := { (learn s f).ring with ingest := (learn s f).ring.ingest ++ [(f, [])] } }) := by
      rw [sequenced, if_neg (by simp [learn_chan, hre]), if_neg (by rw [learn_ingestBytes]; omega)]
    refine ⟨_, exec_cmd_of_takes ht hty, ?_, ?_⟩
    · rw [hheld, pfcAll_ingest, ← learn_ingest s f]
      rfl
    · rw [hheld]
      exact changesOnly_trans (changesOnly_mono (learn_changesOnly s f) (by simp))
        (changesOnly_trans (changesOnly_mono (withRing_changesOnly _ _) (by simp))
          (changesOnly_trans (changesOnly_mono (withRing_changesOnly _ _) (by simp)) (pfcAll_changesOnly _)))
  case cpl =>
    intro f s ht hty
    have hexec : exec (.cpl f) s = execCpl f s := rfl
    refine ⟨_, ?_, rfl⟩
    rw [hexec, execCpl, if_neg (by simp [hty]), receive_of_takes ht (by simp [hty])]

end Sys2Proof.Proofs
end

section
/-! SUPPORT. The head of core 0's queue and what its completion leaves, and the statement about admin commands that are
undefined, tunnelled, or left without their payload (R384 to R387, R415). -/

namespace Sys2Proof.Proofs

open Sys2Proof Sys2Proof.Machine Sys2Proof.Laws

/-! ## Completions on QP 0 -/

theorem sendResponse_changesOnly (s : State) (g : Gateway) (tag : Nat) (l : List Byte) :
    s.changesOnly [.qps] (sendResponse s g tag l) :=
  changesOnly_foldl _ (fun u _ => queueFrame_changesOnly u _ _ _ _) _ s

theorem adminFinish_changesOnly (s : State) (c : AdminCmd) (st cf a16 hi : Nat) (l : List Byte) :
    s.changesOnly [.qps, .sent] (adminFinish s c st cf a16 hi l) := by
  unfold adminFinish
  split
  · exact changesOnly_mono (changesOnly_trans (sendResponse_changesOnly _ _ _ _) (queueFrame_changesOnly _ _ _ _ _)) (by simp)
  · exact changesOnly_mono (send_changesOnly _ _) (by simp)

/-- The frames that wait on a queue pair after one more. -/
theorem queueFrame_txWait (s : State) (q : QpId) (ty tag : Nat) (body : List Byte) :
    ((s.queueFrame q ty tag body).qp q).txWait =
      (s.qp q).txWait ++ [⟨ty, qpPcp q, s.peerOf q, qpNumber q, 0, tag, false, body, false⟩] := by
  simp [State.queueFrame]

/-- A completion without a response is one CPL frame with one CQE. -/
theorem adminFinish_ring_nil {c : AdminCmd} {g : Gateway} (hvia : c.via = .ring g) (s : State) (st cf a16 hi : Nat) :
    adminFinish s c st cf a16 hi [] = s.postCqe (.admin g) c.tag 0 st cf a16 (hi * 2 ^ 32) := by
  simp [adminFinish, hvia, sendResponse, chunks]

/-- A response of one unit is one DATA frame before the CQE (R384). -/
theorem adminFinish_ring_unit {c : AdminCmd} {g : Gateway} (hvia : c.via = .ring g) (s : State) (st cf a16 hi : Nat)
    {l : List Byte} (hpos : l ≠ []) (hfit : l.length ≤ c.rlen) (hunit : l.length ≤ 4096) :
    adminFinish s c st cf a16 hi l = (s.queueFrame (.admin g) 2 c.tag (dataBody 0 [(l ++ zeros 4096).take 4096])).postCqe
      (.admin g) c.tag 0 st cf a16 (hi * 2 ^ 32 + l.length) := by
  have hdiv : l.length / 8192 = 0 := by omega
  have h1 : l.take 8192 = l := List.take_of_length_le (by omega)
  have h2 : l.take 4096 = l := List.take_of_length_le hunit
  simp [adminFinish, hvia, sendResponse, chunks, hpos, List.take_of_length_le hfit, hdiv, h1, h2, hunit]

/-- The bytes of a unit stand in its DATA frame behind the eight bytes of INDEX and count (R339). -/
theorem dataBody_unit (index : Nat) {l : List Byte} (h : l.length ≤ 4096) :
    ((dataBody index [(l ++ zeros 4096).take 4096]).drop 8).take l.length = l := by
  have hhead : (beBytes 4 index ++ beBytes 1 1 ++ zeros 3).length = 8 := by simp [beBytes_length, zeros]
  have hdrop : (dataBody index [(l ++ zeros 4096).take 4096]).drop 8 = (l ++ zeros 4096).take 4096 := by
    simp only [dataBody, List.length_singleton, List.flatten_singleton, List.drop_left' hhead]
  rw [hdrop, List.take_take, Nat.min_eq_left h, List.take_left]

/-! ## The head of core 0's queue (R387) -/

/-- No RING_TAP waits: what goes on after a CAL_LOAD is nothing. -/
theorem afterCal_of_not_waiting {s : State} (h : ∀ i n q x, s.ring.splice ≠ .waitingCal i n q x) : afterCal s = s := by
  unfold afterCal
  split
  case h_1 i n q x heq => exact absurd heq (h i n q x)
  case h_2 => rfl

theorem atHead_not_waiting {s : State} {c : AdminCmd} {rest : List AdminCmd} (h : s.atHead c rest) :
    ∀ i n q x, s.ring.splice ≠ .waitingCal i n q x := by
  intro i n q x heq
  have hno := h.noTap
  rw [heq] at hno
  exact hno

/-- Core 0 runs the meaning of the command at the head of its queue, where that meaning leaves the splice alone. -/
theorem adminRun_of_atHead {s : State} {c : AdminCmd} {rest : List AdminCmd} {mine : AdminCmd → Bool} {modes : State → Bool}
    {f : AdminCmd → State → State} (h : s.atHead c rest) (hmine : mine c = true) (hmodes : modes s = true)
    (hring : (f c (s.taken rest)).ring = s.ring) : adminRun mine modes f s = .next (f c (s.taken rest)) := by
  have hshort : c.short = false := by simp [AdminCmd.short, h.whole]
  have hafter : afterCal (f c (s.taken rest)) = f c (s.taken rest) :=
    afterCal_of_not_waiting (by rw [hring]; exact atHead_not_waiting h)
  rw [← hafter]
  simp [adminRun, h.queue, h.runs, hmine, h.complete, hmodes, hshort, State.taken]

theorem inF_of_fwRuns {s : State} (h : s.fwRuns = true) : inF s = true := by
  simp only [State.fwRuns, Bool.and_eq_true] at h
  exact h.1

/-- A completion leaves the ring. -/
theorem adminFinish_ring (s : State) (c : AdminCmd) (st cf a16 hi : Nat) (l : List Byte) :
    (adminFinish s c st cf a16 hi l).ring = s.ring := adminFinish_changesOnly s c st cf a16 hi l .ring (by simp)

theorem taken_changesOnly (s : State) (rest : List AdminCmd) : s.changesOnly [.adminQ, .aon] (s.taken rest) :=
  changesOnly_of_agrees (by rintro ⟨⟩ <;> simp [State.agrees, State.taken])

/-! ## The statement -/

theorem exec_adminUndefinedOpcode {s : State} {c : AdminCmd} {rest : List AdminCmd} (h : s.atHead c rest)
    (hop : c.opcode < 0x40 ∨ 0x4F < c.opcode) :
    exec .adminUndefinedOpcode s = .next (adminFinish (s.taken rest) c 0x11 0 0 0 []) :=
  adminRun_of_atHead (mine := undefinedAdmin) (modes := fun _ => true) (f := fun c t => adminEnd t c stOutOfRange) h
    (by simp [undefinedAdmin, hop]) rfl (adminFinish_ring _ _ _ _ _ _ _)

/-- GET_VERSION in a tunnel is answered by the eight bytes of VERSION (DSP0274). -/
theorem exec_spdmTunnel_getVersion {s : State} {c : AdminCmd} {rest : List AdminCmd} (h : s.atHead c rest)
    (hop : c.opcode = 0x4E) (h0 : byteAt c.payload 0 = 0x12) (h1 : byteAt c.payload 1 = 0x84) :
    exec .spdmTunnel s = .next (adminFinish
      { s.taken rest with sec := { s.sec with versionSet := true, algorithmsSet := false } } c 0x00 0 0 0
      [0x12, 0x04, 0, 0, 0, 1, 0x00, 0x12]) := by
  have hmessage (t : State) : spdmMessage c.payload t = spdmVersion t := by simp [spdmMessage, h1]
  have hrun := adminRun_of_atHead (mine := fun c => isOp 0x4E c && plainSpdm c.payload) (modes := inF)
    (f := fun c t => adminFinish (spdmMessage c.payload t).1 c stSuccess 0 0 0
      ([0x12, (spdmMessage c.payload t).2.1] ++ (spdmMessage c.payload t).2.2)) h (by simp [isOp, hop, plainSpdm, h0])
    (inF_of_fwRuns h.runs) (by rw [adminFinish_ring, hmessage]; rfl)
  simp only [hmessage] at hrun
  exact hrun

/-- A payload that has not come within 1 s (R385). -/
theorem exec_adminPayloadTimeout {s : State} {c : AdminCmd} {rest : List AdminCmd} {g : Gateway} (hruns : s.fwRuns = true)
    (hqueue : s.adminQ = c :: rest) (hvia : c.via = .ring g) (hpart : c.complete = false) (hop : c.opcode ≠ 0x42)
    (hlate : c.at_ + 200000 ≤ s.now) (hsplice : ∀ i n q x, s.ring.splice ≠ .waitingCal i n q x) :
    exec (.adminPayloadTimeout g c.tag) s = .next (adminFinish (s.taken rest) c 0x20 0 0 0 []) := by
  have hexec : exec (.adminPayloadTimeout g c.tag) s = execAdminPayloadTimeout g c.tag s := rfl
  have hdue : ¬ s.now < c.at_ + secs 1 := by simp only [secs]; omega
  have hafter : afterCal (adminFinish (s.taken rest) c 0x20 0 0 0 []) = adminFinish (s.taken rest) c 0x20 0 0 0 [] :=
    afterCal_of_not_waiting (by rw [adminFinish_ring]; exact hsplice)
  rw [hexec, ← hafter]
  simp [execAdminPayloadTimeout, hqueue, hruns, hvia, hpart, hdue, hop, State.taken, adminEnd, stTruncated]

/-- Settles O22: each ends in `adminFinish`, which is one CPL frame on QP 0, after one DATA frame where there is a response. -/
theorem adminEndsCarryOneCqe : Obligations.AdminEndsCarryOneCqe := by
  unfold Obligations.AdminEndsCarryOneCqe
  refine ⟨?undefined, ?tunnel, ?timeout⟩
  case undefined =>
    intro c rest g s h hvia hop
    refine ⟨_, exec_adminUndefinedOpcode h hop, ?_⟩
    rw [adminFinish_ring_nil hvia]
    refine ⟨rfl, queueFrame_txWait _ _ _ _ _, ?_⟩
    exact changesOnly_trans (changesOnly_mono (taken_changesOnly s rest) (by simp))
      (changesOnly_mono (queueFrame_changesOnly _ _ _ _ _) (by simp))
  case tunnel =>
    intro c rest g s h hvia hop h0 h1 hroom
    refine ⟨_, exec_spdmTunnel_getVersion h hop h0 h1, ?_⟩
    rw [adminFinish_ring_unit hvia (l := [0x12, 0x04, 0, 0, 0, 1, 0x00, 0x12]) _ _ _ _ _ (by simp) hroom (by simp)]
    refine ⟨rfl, rfl, ⟨2, 6, gwNode g, 0, 0, c.tag, false,
      dataBody 0 [([0x12, 0x04, 0, 0, 0, 1, 0x00, 0x12] ++ zeros 4096).take 4096], false⟩, ?_, rfl, ?_⟩
    · rw [State.postCqe, queueFrame_txWait, queueFrame_txWait, List.append_assoc]
      rfl
    · exact dataBody_unit 0 (l := [0x12, 0x04, 0, 0, 0, 1, 0x00, 0x12]) (by simp)
  case timeout =>
    intro c rest g s hruns hqueue hvia hpart hop hlate hsplice
    refine ⟨_, exec_adminPayloadTimeout hruns hqueue hvia hpart hop hlate fun i n q x heq => ?_, rfl⟩
    rw [heq] at hsplice
    exact hsplice

end Sys2Proof.Proofs
end

section
/-! SUPPORT. What a change of mode may touch, and the statement about MODE_REQUEST (R399 to R401, R464, R465). -/

namespace Sys2Proof.Proofs

open Sys2Proof Sys2Proof.Machine Sys2Proof.Laws

/-! ## Frames of a change of mode -/

/-- The parts that a requested change of mode may touch: not the ring, nor core 0's queue. -/
abbrev modeParts : List Part :=
  [.mode, .aon, .mgmt, .eave, .pat, .logs, .events, .qps, .tags, .girth, .bays, .buses, .recov, .courses, .freeCtr, .sent]

theorem withAon_changesOnly (s : State) (v : Aon) : s.changesOnly [.aon] { s with aon := v } :=
  changesOnly_of_agrees (by rintro ⟨⟩ <;> simp [State.agrees])

theorem withMgmt_changesOnly (s : State) (v : Mgmt) : s.changesOnly [.mgmt] { s with mgmt := v } :=
  changesOnly_of_agrees (by rintro ⟨⟩ <;> simp [State.agrees])

theorem withEave_changesOnly (s : State) (v : Eave) : s.changesOnly [.eave] { s with eave := v } :=
  changesOnly_of_agrees (by rintro ⟨⟩ <;> simp [State.agrees])

theorem withCourses_changesOnly (s : State) (v : List Course) : s.changesOnly [.courses] { s with courses := v } :=
  changesOnly_of_agrees (by rintro ⟨⟩ <;> simp [State.agrees])

theorem modCourse_changesOnly (s : State) (h : Nat) (f : Course → Course) : s.changesOnly [.courses] (s.modCourse h f) :=
  withCourses_changesOnly s _

theorem powerOn_changesOnly (s : State) (l : List Nat) : s.changesOnly [.aon] (s.powerOn l) := withAon_changesOnly s _
theorem powerOff_changesOnly (s : State) (l : List Nat) : s.changesOnly [.aon] (s.powerOff l) := withAon_changesOnly s _

theorem girthLoad_changesOnly (s : State) : s.changesOnly [.girth] (girthLoad s) :=
  changesOnly_trans (withGirth_changesOnly s _) (changesOnly_foldl _ (fun u _ => modSlot_changesOnly u _ _) _ _)

theorem startTraining_changesOnly (s : State) (b : Nat) : s.changesOnly [.bays] (startTraining s b) :=
  modBay_changesOnly s b _

theorem motionUp_changesOnly (s : State) : s.changesOnly [.aon, .girth, .bays] s.motionUp := by
  have hlink (u : State) (b : Nat) : u.changesOnly [.bays]
      (if u.pval 0x0680 b = 1 then startTraining (u.modWelt b fun w => { w with attempts := 0, enabled := true }) b
        else u.modWelt b fun w => { w with enabled := false }) :=
    changesOnly_ite (changesOnly_trans (modBay_changesOnly u b _) (startTraining_changesOnly _ b)) (modBay_changesOnly u b _)
  exact changesOnly_ite (changesOnly_refl _ s)
    (changesOnly_trans (changesOnly_mono (powerOn_changesOnly s _) (by simp))
      (changesOnly_trans (changesOnly_mono (girthLoad_changesOnly _) (by simp))
        (changesOnly_mono (changesOnly_foldl _ hlink _ _) (by simp))))

theorem withGirthBuses_changesOnly (s : State) (v : Girth) (w : Tbl Bus) :
    s.changesOnly [.girth, .buses] { s with girth := v, buses := w } :=
  changesOnly_of_agrees (by rintro ⟨⟩ <;> simp [State.agrees])

theorem motionDown_changesOnly (s : State) : s.changesOnly [.aon, .girth, .buses, .bays] s.motionDown := by
  have hpd := powerOff_changesOnly s (pds 17 19)
  have hgirth := withGirthBuses_changesOnly (s.powerOff (pds 17 19)) {} []
  have hbays (f : State → Nat → Bay → Bay) (u : State) : u.changesOnly [.bays] (allBays.foldl (fun a b => a.modBay b (f a b)) u) :=
    changesOnly_foldl _ (fun a b => modBay_changesOnly a b _) _ u
  unfold State.motionDown
  exact changesOnly_trans (changesOnly_mono hpd (by simp)) (changesOnly_trans (changesOnly_mono hgirth (by simp))
    (changesOnly_mono (hbays _ _) (by simp)))

theorem constrain_changesOnly (s : State) : s.changesOnly [.mode, .mgmt, .events, .logs, .freeCtr] s.constrain := by
  have hclear (v : Mgmt) : s.changesOnly [.mode, .mgmt, .events, .logs, .freeCtr] { s with mgmt := v } :=
    changesOnly_mono (withMgmt_changesOnly s v) (by simp)
  exact changesOnly_ite
    (changesOnly_ite (changesOnly_trans (hclear _) (enterMode_changesOnly _ _ _)) (hclear _))
    (changesOnly_ite (hclear _) (changesOnly_refl _ s))

/-! ## Courses that stop, and bays that go down -/

theorem endWait_changesOnly (s : State) (w : CloseWait) (st n : Nat) : s.changesOnly [.qps, .tags] (s.endWait w st n) := by
  unfold State.endWait
  split
  · exact changesOnly_refl _ s
  · exact finish_changesOnly _ _ _ _ _ _ _ _

theorem abortAppends_changesOnly (s : State) (h : Nat) : s.changesOnly [.qps, .tags, .freeCtr] (s.abortAppends h) := by
  refine changesOnly_foldl _ (fun u c => ?_) _ s
  split
  · exact changesOnly_mono (finish_changesOnly _ _ _ _ _ _ _ _) (by simp)
  · exact finishFree_changesOnly _ _ _ _ _ _

theorem stopCourse_changesOnly (s : State) (h : Nat) (e : CourseEnd) :
    s.changesOnly [.qps, .tags, .freeCtr, .bays, .courses] (s.stopCourse h e) := by
  have hwaits (l : List CloseWait) (st n : Nat) :
      s.changesOnly [.qps, .tags, .freeCtr, .bays, .courses] (l.foldl (fun u w => u.endWait w st n) s) :=
    changesOnly_mono (changesOnly_foldl _ (fun u w => endWait_changesOnly u w st n) l s) (by simp)
  have hopening (u : State) (q : QpId) (t a : Nat) : u.changesOnly [.qps, .tags, .freeCtr, .bays, .courses]
      (if (u.cmd? q t).isSome then u.fresh.2.finishFree q t stAborted 0 a else u) :=
    changesOnly_ite (changesOnly_trans (changesOnly_mono (fresh_changesOnly u) (by simp))
      (changesOnly_mono (finishFree_changesOnly _ _ _ _ _ _) (by simp))) (changesOnly_refl _ u)
  have habort (u : State) : u.changesOnly [.qps, .tags, .freeCtr, .bays, .courses] (if e = .full then u else u.abortAppends h) :=
    changesOnly_ite (changesOnly_refl _ u) (changesOnly_mono (abortAppends_changesOnly u h) (by simp))
  have hbays (l : List BayId) (f : Bay → Bay) (u : State) : u.changesOnly [.qps, .tags, .freeCtr, .bays, .courses]
      (l.foldl (fun a b => a.modBay b.val f) u) :=
    changesOnly_mono (changesOnly_foldl _ (fun a (b : BayId) => modBay_changesOnly a b.val f) l u) (by simp)
  have hcourses (u : State) (l : List Course) : u.changesOnly [.qps, .tags, .freeCtr, .bays, .courses] { u with courses := l } :=
    changesOnly_mono (withCourses_changesOnly u l) (by simp)
  unfold State.stopCourse
  split
  · exact changesOnly_refl _ s
  next c hc =>
    rcases ho : c.opening with _ | ⟨q, t⟩
    · exact changesOnly_trans (hwaits _ _ _) (changesOnly_trans (habort _) (changesOnly_trans (hbays _ _ _) (hcourses _ _)))
    · exact changesOnly_trans (hwaits _ _ _) (changesOnly_trans (hopening _ q t _)
        (changesOnly_trans (habort _) (changesOnly_trans (hbays _ _ _) (hcourses _ _))))

theorem stopCourses_changesOnly (s : State) : s.changesOnly modeParts s.stopCourses :=
  changesOnly_foldl _ (fun u (c : Course) => changesOnly_mono (stopCourse_changesOnly u c.handle .stopped) (by simp)) _ s

theorem safeAll_changesOnly (s : State) : s.changesOnly modeParts s.safeAll :=
  changesOnly_foldl _ (fun u b => changesOnly_ite (changesOnly_refl _ u)
    (changesOnly_trans (changesOnly_mono (enterSafe_changesOnly u b _) (by simp))
      (changesOnly_mono (modBay_changesOnly _ b _) (by simp)))) _ s

theorem enterSafeStop_changesOnly (s : State) (c : Nat) : s.changesOnly modeParts (s.enterSafeStop c) :=
  changesOnly_trans (stopCourses_changesOnly s) (changesOnly_trans (safeAll_changesOnly _)
    (changesOnly_trans (changesOnly_mono (powerOff_changesOnly _ _) (by simp))
      (changesOnly_trans (changesOnly_mono (motionUp_changesOnly _) (by simp))
        (changesOnly_mono (enterMode_changesOnly _ _ _) (by simp)))))

theorem enterSpindown_changesOnly (s : State) (b : Nat) : s.changesOnly [.recov, .bays, .pat] (s.enterSpindown b) := by
  have hbay (u : State) (f : Bay → Bay) : u.changesOnly [.recov, .bays, .pat] (u.modBay b f) :=
    changesOnly_mono (modBay_changesOnly u b f) (by simp)
  unfold State.enterSpindown
  exact changesOnly_trans (endRun_changesOnly s b) (changesOnly_trans (hbay _ _) (hbay _ _))

theorem retireBay_changesOnly (s : State) (b : Nat) : s.changesOnly modeParts (retireBay s b) := by
  unfold retireBay
  split
  case h_4 => exact changesOnly_mono (enterSpindown_changesOnly s b) (by simp)
  all_goals exact changesOnly_refl _ s

theorem noteClose_changesOnly (s : State) (h : Nat) (i : Bool) : s.changesOnly [.courses] (noteClose s h i) := by
  unfold noteClose
  split
  · exact changesOnly_refl _ s
  · exact changesOnly_ite (changesOnly_refl _ s) (changesOnly_ite (changesOnly_refl _ s) (modCourse_changesOnly _ _ _))

theorem quiesceWork_changesOnly (s : State) : s.changesOnly [.mgmt, .courses] (quiesceWork s) :=
  changesOnly_trans (changesOnly_mono (withMgmt_changesOnly s _) (by simp))
    (changesOnly_foldl _ (fun u (c : Course) => changesOnly_mono (noteClose_changesOnly u c.handle false) (by simp)) _ _)

/-! ## The mode gone to -/

theorem goMode_changesOnly (s : State) (m : Mode) (c : Nat) : s.changesOnly modeParts (goMode s m c) := by
  have henter (u : State) (n : Mode) : u.changesOnly modeParts (u.enterMode n c) :=
    changesOnly_mono (enterMode_changesOnly u n c) (by simp)
  have hoff (u : State) (l : List Nat) : u.changesOnly modeParts (u.powerOff l) :=
    changesOnly_mono (powerOff_changesOnly u l) (by simp)
  have hon (u : State) (l : List Nat) : u.changesOnly modeParts (u.powerOn l) :=
    changesOnly_mono (powerOn_changesOnly u l) (by simp)
  have hretire (l : List Nat) : s.changesOnly modeParts (l.foldl retireBay s) := changesOnly_foldl _ retireBay_changesOnly l s
  have hup (u : State) : u.changesOnly modeParts u.motionUp := changesOnly_mono (motionUp_changesOnly u) (by simp)
  have hdown (u : State) : u.changesOnly modeParts u.motionDown := changesOnly_mono (motionDown_changesOnly u) (by simp)
  have hwork (u : State) : u.changesOnly modeParts (quiesceWork u) := changesOnly_mono (quiesceWork_changesOnly u) (by simp)
  have hconstrain (u : State) : u.changesOnly modeParts u.constrain := changesOnly_mono (constrain_changesOnly u) (by simp)
  unfold goMode
  cases m with
  | standby => exact changesOnly_trans (changesOnly_ite (changesOnly_trans (hup _) (hon _ _)) (hon _ _)) (henter _ _)
  | transit => exact changesOnly_trans (changesOnly_trans (hoff _ _) (hdown _)) (henter _ _)
  | retire => exact changesOnly_trans (hretire _) (henter _ _)
  | quiesce => exact changesOnly_trans (henter _ _) (hwork _)
  | safeStop => exact enterSafeStop_changesOnly s c
  | active => exact changesOnly_trans (henter _ _) (hconstrain _)
  | dark | reset | boot | enrol | constrained | service => exact henter s _

/-- A cause of CONSTRAINED turns ACTIVE into it (R399). -/
theorem constrain_mode_of_active {s : State} (h : s.mode = .active) : s.constrain.mode = .active ∨ s.constrain.mode = .constrained := by
  unfold State.constrain
  split
  · right
    simp [h]
  · left
    simp [h]

theorem goMode_mode (s : State) (m : Mode) (c : Nat) (h : m ≠ .active) : (goMode s m c).mode = m := by
  unfold goMode
  cases m with
  | active => exact absurd rfl h
  | quiesce => exact (quiesceWork_changesOnly (s.enterMode .quiesce c) .mode (by simp)).trans (enterMode_mode _ _ _)
  | safeStop => simp only [State.enterSafeStop, enterMode_mode]
  | _ => simp only [enterMode_mode]

theorem goMode_mode_or (s : State) (m : Mode) (c : Nat) :
    (goMode s m c).mode = m ∨ m = .active ∧ (goMode s m c).mode = .constrained := by
  by_cases h : m = .active
  · subst h
    exact (constrain_mode_of_active (enterMode_mode s .active c)).imp_right (⟨rfl, ·⟩)
  · exact Or.inl (goMode_mode s m c h)

/-! ## Leaving step 4 (R473) -/

theorem thermLog_changesOnly (s : State) (k x g : Nat) : s.changesOnly [.logs, .events] (s.thermLog k x g) :=
  changesOnly_ite (changesOnly_trans (changesOnly_mono (withLogs_changesOnly s _) (by simp))
    (changesOnly_mono (logFull_changesOnly _ _ _ _) (by simp))) (changesOnly_refl _ s)

theorem eaveEvent_changesOnly (s : State) : s.changesOnly [.events, .eave] (eaveEvent s) :=
  changesOnly_trans (changesOnly_mono (event_changesOnly s _ _) (by simp)) (changesOnly_mono (withEave_changesOnly _ _) (by simp))

theorem setStep_changesOnly (s : State) (n : Nat) : s.changesOnly modeParts (setStep s n) := by
  have heave (e : Eave) : s.changesOnly modeParts { s with eave := e } := changesOnly_mono (withEave_changesOnly s e) (by simp)
  have htherm (u : State) (x : Nat) : u.changesOnly modeParts (eaveEvent (u.thermLog 1 x 0xFF)) :=
    changesOnly_trans (changesOnly_mono (thermLog_changesOnly u 1 x 0xFF) (by simp))
      (changesOnly_mono (eaveEvent_changesOnly _) (by simp))
  have hmode (u : State) : u.changesOnly modeParts
      (if n ≠ 4 then u.constrain else if u.mode = .safeStop then u else u.enterSafeStop mcEave) :=
    changesOnly_ite (changesOnly_mono (constrain_changesOnly u) (by simp))
      (changesOnly_ite (changesOnly_refl _ u) (enterSafeStop_changesOnly u _))
  unfold setStep
  exact changesOnly_trans (heave _) (changesOnly_trans (htherm _ _) (hmode _))

theorem releaseCritical_changesOnly (s : State) : s.changesOnly modeParts (releaseCritical s) :=
  changesOnly_ite (setStep_changesOnly s _) (changesOnly_refl _ s)

/-! ## MODE_REQUEST -/

theorem modeOf_code (m : Mode) : modeOf m.code = some m := by cases m <;> rfl

theorem modeOf_above {n : Nat} (h : 11 < n) : modeOf n = none := List.getElem?_eq_none (by simp; omega)

theorem modeRequest_changesOnly (c : AdminCmd) (s : State) : s.changesOnly modeParts (modeRequest c s) := by
  have hend (st : Nat) : s.changesOnly modeParts (adminEnd s c st) :=
    changesOnly_mono (adminFinish_changesOnly s c st 0 0 0 []) (by simp)
  unfold modeRequest
  split
  · exact hend _
  · exact changesOnly_ite (hend _) (changesOnly_ite (hend _) (changesOnly_ite (hend _) (changesOnly_ite (hend _)
      (changesOnly_ite (hend _) (changesOnly_trans (hend _)
        (changesOnly_trans (releaseCritical_changesOnly _) (goMode_changesOnly _ _ _)))))))

theorem exec_modeRequest {s : State} {c : AdminCmd} {rest : List AdminCmd} (h : s.atHead c rest) (hop : c.opcode = 0x48) :
    exec .modeRequest s = .next (modeRequest c (s.taken rest)) :=
  adminRun_of_atHead h (by simp [isOp, hop]) (inF_of_fwRuns h.runs) (modeRequest_changesOnly c (s.taken rest) .ring (by simp))

section
variable {s : State} {c : AdminCmd} {m : Mode}

theorem modeRequest_undefined (hm : 11 < c.arg 0 1) : modeRequest c s = adminEnd s c stOutOfRange := by
  simp [modeRequest, modeOf_above hm]

variable (hm : c.arg 0 1 = m.code)
include hm

theorem modeRequest_selfReset (hr : s.mgmt.selfReset.isSome = true) : modeRequest c s = adminEnd s c stBusy := by
  simp [modeRequest, hm, modeOf_code, hr]

variable (hr : s.mgmt.selfReset = none)
include hr

theorem modeRequest_notListed (ht : m ∉ requestTable s.mode) : modeRequest c s = adminEnd s c stBadTransition := by
  simp [modeRequest, hm, modeOf_code, hr, ht]

variable (ht : m ∈ requestTable s.mode)
include ht

theorem modeRequest_notDrained (hq : s.mode = .quiesce) (hd : s.mgmt.drained = false) (ha : m ≠ .active)
    (hs : m ≠ .safeStop) : modeRequest c s = adminEnd s c stBadTransition := by
  rw [hq] at ht
  simp [modeRequest, hm, modeOf_code, hr, ht, hq, hd, ha, hs]

theorem modeRequest_safeStopHolds (hq : s.mode = .safeStop) (hh : safeStopHolds s = true) :
    modeRequest c s = adminEnd s c stBadTransition := by
  rw [hq] at ht
  simp [modeRequest, hm, modeOf_code, hr, ht, hq, hh]

theorem modeRequest_courseOpen (hq : s.mode ≠ .quiesce) (hss : s.mode ≠ .safeStop) (hmr : m = .retire)
    (hc : s.courses ≠ []) : modeRequest c s = adminEnd s c stBusy := by
  subst hmr
  simp [modeRequest, hm, modeOf_code, hr, ht, hq, hss, hc]

theorem modeRequest_made (hq : s.mode ≠ .quiesce) (hh : ¬ (s.mode = .safeStop ∧ safeStopHolds s = true)) (hmr : m ≠ .retire) :
    modeRequest c s = goMode (releaseCritical (adminEnd s c stSuccess)) m mcRequest := by
  simp [modeRequest, hm, modeOf_code, hr, ht, hq, hh, hmr]

end

/-- Settles O18: the request is judged along `modeRequest`, and `goMode` ends in the mode asked for. -/
theorem modeRequestFollowsTheTransitionTable : Obligations.ModeRequestFollowsTheTransitionTable := by
  unfold Obligations.ModeRequestFollowsTheTransitionTable
  refine ⟨?undefined, ?notListed, ?selfReset, ?made, ?courseOpen, ?notDrained, ?safeStop⟩
  case undefined =>
    exact fun c rest s h hop hm => ⟨_, exec_modeRequest h hop, modeRequest_undefined hm⟩
  case notListed =>
    exact fun c rest m s h hop hm ht hr => ⟨_, exec_modeRequest h hop, modeRequest_notListed hm hr ht⟩
  case selfReset =>
    exact fun c rest m s h hop hm hr => ⟨_, exec_modeRequest h hop, modeRequest_selfReset hm hr⟩
  case made =>
    intro c rest m s h hop hm ht hr hq hss hmr
    refine ⟨_, exec_modeRequest h hop, ?_, modeRequest_changesOnly c (s.taken rest) .adminQ (by simp)⟩
    rw [modeRequest_made (s := s.taken rest) hm hr ht hq (fun hh => hss hh.1) hmr]
    exact goMode_mode_or _ _ _
  case courseOpen =>
    intro c rest s h hop hm hst hr hc
    have ht : Mode.retire ∈ requestTable s.mode := by rw [hst]; decide
    exact ⟨_, exec_modeRequest h hop, modeRequest_courseOpen (m := .retire) hm hr ht (by simp [State.taken, hst]) (by simp [State.taken, hst]) rfl hc⟩
  case notDrained =>
    intro c rest m s h hop hm hr hq hd hto
    have ht : m ∈ requestTable s.mode := by
      rw [hq]
      revert hto
      cases m <;> decide
    have hta : m ≠ .active ∧ m ≠ .safeStop := by
      revert hto
      cases m <;> decide
    exact ⟨_, exec_modeRequest h hop, modeRequest_notDrained hm hr ht hq hd hta.1 hta.2⟩
  case safeStop =>
    intro c rest s h hop hm hq hr
    have ht : Mode.standby ∈ requestTable s.mode := by rw [hq]; decide
    refine ⟨_, exec_modeRequest h hop, ?_⟩
    split
    case isTrue hh => exact modeRequest_safeStopHolds (m := .standby) hm hr ht hq hh
    case isFalse hh =>
      rw [modeRequest_made (s := s.taken rest) (m := .standby) hm hr ht (by simp [State.taken, hq]) (fun hb => hh hb.2) (by decide)]
      exact goMode_mode _ _ _ (by decide)

end Sys2Proof.Proofs
end

section
/-! SUPPORT. What the rebuild sessions and the target blocks may touch as they are brought up to date (R151 to R167). -/

namespace Sys2Proof.Proofs

open Sys2Proof Sys2Proof.Machine Sys2Proof.Laws

/-- The parts that the sessions may touch: recovery, its events and log, and the retry stores of the bays. -/
abbrev sessionParts : List Part := [.recov, .events, .logs, .freeCtr, .bays]

/-! ## Target blocks, sessions and their rows -/

theorem ensureBlock_changesOnly (s : State) (b : BayId) (l n : Nat) : s.changesOnly [.recov] (s.ensureBlock b l n) :=
  changesOnly_ite (changesOnly_refl _ s) (withRecov_changesOnly s _)

theorem modSession_changesOnly (s : State) (c : Nat) (f : Rebuild → Rebuild) : s.changesOnly [.recov] (s.modSession c f) :=
  withRecov_changesOnly s _

theorem openSession_changesOnly (s : State) (c : Nat) : s.changesOnly [.recov] (openSession s c) := by
  unfold openSession
  refine changesOnly_ite (changesOnly_refl _ s) ?_
  split
  · exact changesOnly_refl _ s
  · exact withRecov_changesOnly s _

theorem joinRow_changesOnly (s : State) (c m : Nat) : s.changesOnly [.recov] (joinRow s c m) := modSession_changesOnly s c _

theorem joinAligned_changesOnly (s : State) (c : Course) (m : Nat) : s.changesOnly [.recov] (joinAligned s c m) :=
  changesOnly_trans (joinRow_changesOnly s c.id m) (modSession_changesOnly _ _ _)

theorem admitAbsent_changesOnly (s : State) : s.changesOnly [.recov] (admitAbsent s) := by
  have hopened (u : State) (course : Nat) (f : State → Nat → State) (hf : ∀ v m, State.changesOnly [.recov] v (f v m))
      (rows : List Nat) : u.changesOnly [.recov] (rows.foldl f (openSession u course)) :=
    changesOnly_trans (openSession_changesOnly u course) (changesOnly_foldl f hf rows _)
  unfold admitAbsent
  refine changesOnly_trans (changesOnly_foldl _ (fun u (c : Course) => ?_) _ s)
    (changesOnly_foldl _ (fun u (course : Nat) => ?_) _ _)
  · split
    · exact changesOnly_refl _ u
    · exact hopened u c.id _ (fun v m => joinAligned_changesOnly v c m) _
  · exact changesOnly_ite (changesOnly_refl _ u) (hopened u course _ (fun v m => joinRow_changesOnly v course m) _)

/-! ## The recovery log and the requests -/

theorem recLog_changesOnly (s : State) (e : RecEntry) : s.changesOnly [.logs, .events] (recLog s e) :=
  changesOnly_trans (changesOnly_mono (withLogs_changesOnly s _) (by simp)) (changesOnly_mono (logFull_changesOnly _ _ _ _) (by simp))

theorem enterLog_changesOnly (s : State) (e : RecEntry) : s.changesOnly [.logs, .events, .freeCtr] (enterLog s e) :=
  changesOnly_trans (changesOnly_mono (fresh_changesOnly s) (by simp)) (changesOnly_mono (recLog_changesOnly _ _) (by simp))

theorem discDone_changesOnly (s : State) (r : DiscReq) (code : Nat) : s.changesOnly [.recov, .events] (discDone s r code) :=
  changesOnly_trans (changesOnly_mono (withRecov_changesOnly s _) (by simp)) (changesOnly_mono (event_changesOnly _ _ _) (by simp))

theorem askFor_changesOnly (s : State) (r : Rebuild) (i : Nat) : s.changesOnly [.recov, .events] (askFor s r i) :=
  changesOnly_trans (changesOnly_mono (withRecov_changesOnly s _) (by simp)) (changesOnly_mono (event_changesOnly _ _ _) (by simp))

theorem refreshRequests_changesOnly (s : State) (c : Nat) : s.changesOnly [.recov] (refreshRequests s c) := by
  unfold refreshRequests
  split
  · exact changesOnly_refl _ s
  · exact withRecov_changesOnly s _

/-! ## A session goes on, and ends -/

theorem harvest_changesOnly (s : State) (c m : Nat) : s.changesOnly [.recov] (harvest s c m) := by
  unfold harvest
  split
  · exact changesOnly_refl _ s
  refine changesOnly_foldl _ (fun u i => ?_) _ s
  split
  · exact changesOnly_refl _ u
  refine changesOnly_foldl _ (fun v k => ?_) _ u
  split
  · exact changesOnly_refl _ v
  refine changesOnly_ite (changesOnly_refl _ v) ?_
  split
  · exact changesOnly_trans (modSession_changesOnly v c _) (withRecov_changesOnly _ _)
  · exact modSession_changesOnly v c _
  · exact changesOnly_refl _ v

theorem gather_changesOnly (c m : Nat) (ks l : List Nat) (s : State) :
    s.changesOnly [.recov, .events] (gather c m ks l s) := by
  induction l generalizing s with
  | nil => exact changesOnly_refl _ s
  | cons i rest ih =>
    rw [gather]
    split
    · exact changesOnly_refl _ s
    refine changesOnly_ite (ih s) ?_
    split
    · exact changesOnly_trans (changesOnly_mono (ensureBlock_changesOnly s _ _ _) (by simp)) (ih _)
    · exact changesOnly_ite (ih s) (changesOnly_ite (changesOnly_trans (askFor_changesOnly s _ i) (ih _)) (changesOnly_refl _ s))

theorem advanceRow_changesOnly (s : State) (c m : Nat) : s.changesOnly [.recov, .events] (advanceRow s c m) := by
  have hharvest : s.changesOnly [.recov, .events] (harvest s c m) := changesOnly_mono (harvest_changesOnly s c m) (by simp)
  unfold advanceRow
  dsimp only
  split
  · exact hharvest
  · exact changesOnly_trans hharvest (changesOnly_trans (changesOnly_foldl _ (fun u ks => gather_changesOnly c m ks _ u) _ _)
      (changesOnly_mono (modSession_changesOnly _ c _) (by simp)))

theorem logEntered_changesOnly {ps : List Part} (hrecov : Part.recov ∈ ps) (s : State) (c : Nat) (t : DiscType)
    (log : State → Nat → Nat → Nat → State) (hlog : ∀ u m i k, State.changesOnly ps u (log u m i k)) :
    s.changesOnly ps (logEntered s c t log) := by
  unfold logEntered
  split
  · exact changesOnly_refl _ s
  · exact changesOnly_trans (changesOnly_foldl _ (fun u (e : Nat × Nat × Nat) => hlog u e.1 e.2.1 e.2.2) _ s)
      (changesOnly_mono (modSession_changesOnly _ c _) (by simp [hrecov]))

theorem advanceSession_changesOnly (s : State) (c : Nat) : s.changesOnly sessionParts (advanceSession s c) := by
  have hlog (u : State) (t : DiscType) : u.changesOnly sessionParts
      (logEntered u c t fun a m i k => enterLog a (step7Entry a c m i k 0 7 t)) :=
    logEntered_changesOnly (by simp) u c t _ fun v m i k => changesOnly_mono (enterLog_changesOnly v _) (by simp)
  have hask (u : State) (r : Rebuild) (i : Nat) (p : Prop) [Decidable p] :
      u.changesOnly sessionParts (if p then u else askFor u r i) :=
    changesOnly_ite (changesOnly_refl _ u) (changesOnly_mono (askFor_changesOnly u r i) (by simp))
  have hsession (u : State) (f : Rebuild → Rebuild) : u.changesOnly sessionParts (u.modSession c f) :=
    changesOnly_mono (modSession_changesOnly u c f) (by simp)
  have hrows (rows : List Nat) (u : State) :
      u.changesOnly sessionParts (rows.foldl (fun a m => advanceRow a c m) u) :=
    changesOnly_foldl _ (fun v m => changesOnly_mono (advanceRow_changesOnly v c m) (by simp)) rows u
  have hrefresh (u : State) : u.changesOnly sessionParts (refreshRequests u c) :=
    changesOnly_mono (refreshRequests_changesOnly u c) (by simp)
  unfold advanceSession
  split
  · exact changesOnly_refl _ s
  next r hr =>
    exact changesOnly_trans (hlog s _) (changesOnly_trans (changesOnly_foldl _ (fun u i => hask u r i _) _ _)
      (changesOnly_trans (hsession _ _) (changesOnly_trans (hrows _ _) (hrefresh _))))

theorem closeSession_changesOnly (s : State) (c : Nat) : s.changesOnly [.recov, .events] (closeSession s c) := by
  have hdone (l : List DiscReq) (u : State) :
      u.changesOnly [.recov, .events] (l.foldl (fun a q => discDone a q q.doneCode) u) :=
    changesOnly_foldl _ (fun v q => discDone_changesOnly v q _) l u
  have hrecov (u : State) (r : Recovery) : u.changesOnly [.recov, .events] { u with recov := r } :=
    changesOnly_mono (withRecov_changesOnly u r) (by simp)
  unfold closeSession
  split
  · exact changesOnly_refl _ s
  refine changesOnly_ite (changesOnly_trans (hrecov s _) (hdone _ _)) ?_
  dsimp only
  split
  · exact hrecov s _
  · exact changesOnly_trans (hrecov s _) (hdone _ _)

theorem pruneBlocks_changesOnly (s : State) : s.changesOnly [.recov, .bays] (pruneBlocks s) :=
  changesOnly_trans (changesOnly_mono (withRecov_changesOnly s _) (by simp))
    (changesOnly_foldl _ (fun u _ => changesOnly_mono (modBay_changesOnly u _ _) (by simp)) _ _)

theorem sessionsStep_changesOnly (s : State) : s.changesOnly sessionParts (sessionsStep s) := by
  have hadmit (u : State) : u.changesOnly sessionParts (admitAbsent u) := changesOnly_mono (admitAbsent_changesOnly u) (by simp)
  have hadvance (l : List Nat) (u : State) : u.changesOnly sessionParts (l.foldl advanceSession u) :=
    changesOnly_foldl _ advanceSession_changesOnly l u
  have hclose (l : List Nat) (u : State) : u.changesOnly sessionParts (l.foldl closeSession u) :=
    changesOnly_foldl _ (fun v c => changesOnly_mono (closeSession_changesOnly v c) (by simp)) l u
  have hprune (u : State) : u.changesOnly sessionParts (pruneBlocks u) := changesOnly_mono (pruneBlocks_changesOnly u) (by simp)
  unfold sessionsStep
  exact changesOnly_trans (hadmit _) (changesOnly_trans (hadvance _ _) (changesOnly_trans (hclose _ _) (hprune _)))

/-- Runs that nothing needs any more are marked, and nothing else (R125). -/
theorem abortRuns_changesOnly (s t : State) : t.changesOnly [.bays] (abortRuns s t) := by
  refine changesOnly_foldl _ (fun u b => ?_) _ t
  dsimp only
  split
  · exact changesOnly_ite (modBay_changesOnly u b _) (changesOnly_refl _ u)
  · exact changesOnly_refl _ u

theorem giveUpAppend_changesOnly (s : State) (c : Cmd) : s.changesOnly [.courses] (s.giveUpAppend c) := by
  unfold State.giveUpAppend
  split
  · exact changesOnly_refl _ s
  · exact modCourse_changesOnly s _ _

end Sys2Proof.Proofs
end

section
/-! SUPPORT. Taking submission entries into the tag store, deadlines, and the statement about them (R353 to R367, R384). -/

namespace Sys2Proof.Proofs

open Sys2Proof Sys2Proof.Machine Sys2Proof.Laws

/-! ## The tag store -/

theorem withTags_changesOnly (s : State) (o : Nat) (l : List Cmd) :
    s.changesOnly [.orders, .tags] { s with orders := o, tags := l } :=
  changesOnly_of_agrees (by rintro ⟨⟩ <;> simp [State.agrees])

theorem withTurns_changesOnly (s : State) (l t : Tbl Nat) :
    s.changesOnly [.lastQp, .turns] { s with lastQp := l, turns := t } :=
  changesOnly_of_agrees (by rintro ⟨⟩ <;> simp [State.agrees])

theorem withAdminQ_changesOnly (s : State) (l : List AdminCmd) : s.changesOnly [.adminQ] { s with adminQ := l } :=
  changesOnly_of_agrees (by rintro ⟨⟩ <;> simp [State.agrees])

theorem cmd?_eq_of_tags_eq {s t : State} (h : t.tags = s.tags) (q : QpId) (tag : Nat) : t.cmd? q tag = s.cmd? q tag := by
  rw [State.cmd?, State.cmd?, h]

/-- A command found in the tag store has the queue pair and the tag it was sought by. -/
theorem cmd?_key {s : State} {q : QpId} {tag : Nat} {c : Cmd} (h : s.cmd? q tag = some c) : c.q = q ∧ c.sqe.tag = tag := by
  simpa using List.find?_some h

/-- A command that ends leaves the other commands, and adds none (R360). -/
theorem finish_tags_subset (s : State) (q : QpId) (tag r st c a b : Nat) : (s.finish q tag r st c a b).tags ⊆ s.tags := by
  have hdrop (u : State) (h : u.tags = s.tags) : (u.dropCmd q tag).tags ⊆ s.tags :=
    h ▸ List.filter_subset_self _
  refine hdrop _ ?_
  split <;> rfl

/-- The frames that wait on a queue pair that is not being deleted, once a command of it has ended (R353, R360). -/
theorem finish_txWait (s : State) {q : QpId} (h : (s.qp q).state ≠ .deleting) (tag r st c a b : Nat) :
    ((s.finish q tag r st c a b).qp q).txWait = (s.qp q).txWait ++ [⟨3, qpPcp q, s.peerOf q, qpNumber q, 0, tag, false,
      beBytes 2 1 ++ zeros 6 ++ cqeBytes tag r st c a b, false⟩] := by
  rw [State.finish, if_neg h]
  exact queueFrame_txWait s q 3 tag _

/-! ## The queue pair whose turn it is (R365) -/

/-- QP 0 alone is QP 0's turn. -/
theorem adminNext_ne_data (s : State) (n : Nat) : adminNext s ≠ some (.data n) := by
  unfold adminNext
  dsimp only
  split
  · split <;> simp
  · simp
  · simp
  · simp

/-- The turn of a data queue pair is noted, and nothing else. -/
theorem pickQp_data_changesOnly {s u : State} {n : Nat} (h : pickQp s = some (.data n, u)) :
    s.changesOnly [.lastQp, .turns] u := by
  have hserve (c : Nat) (t : Tbl Nat) (hs : (nextInTurn (Tbl.get 0 s.lastQp c) (classQps s c)).map (fun i =>
      (qpOfIndex i, { s with lastQp := Tbl.set 0 s.lastQp c i, turns := t })) = some (.data n, u)) :
      s.changesOnly [.lastQp, .turns] u := by
    obtain ⟨i, -, hi⟩ := Option.map_eq_some_iff.1 hs
    rw [← (Prod.mk.inj hi).2]
    exact withTurns_changesOnly s _ _
  unfold pickQp at h
  split at h
  next q hq => exact absurd (hq.trans (congrArg some (Prod.mk.inj (Option.some.inj h)).1)) (adminNext_ne_data s n)
  next =>
    dsimp only at h
    split at h
    · exact hserve 0 _ h
    · split at h
      next c t _ => exact hserve c t h
      next => exact absurd h (by simp)

theorem pickQp_of_adminNext {s : State} {q : QpId} (h : adminNext s = some q) : pickQp s = some (q, s) := by
  simp [pickQp, h]

/-! ## Taking (R354, R360, R367, R384) -/

theorem earlyAux_changesOnly (s : State) (x : DataSqe) : s.changesOnly [.freeCtr] (earlyAux s x).2 := by
  unfold earlyAux
  split
  case h_1 | h_2 | h_3 | h_4 => exact changesOnly_refl _ s
  case h_5 => exact fresh_changesOnly s

theorem refuseSqe_changesOnly (s : State) (q : QpId) (x : DataSqe) (st : Nat) :
    s.changesOnly [.qps, .freeCtr] (refuseSqe s q x st) :=
  changesOnly_trans (changesOnly_mono (earlyAux_changesOnly s x) (by simp))
    (changesOnly_mono (queueFrame_changesOnly _ _ _ _ _) (by simp))

theorem endEarly_changesOnly (s : State) (c : Cmd) (st : Nat) : s.changesOnly [.qps, .tags, .freeCtr] (endEarly s c st) :=
  changesOnly_trans (changesOnly_mono (earlyAux_changesOnly s c.sqe) (by simp))
    (changesOnly_mono (finish_changesOnly _ _ _ _ _ _ _ _) (by simp))

/-- A refused entry leaves its queue pair's ring and the count of its slots. -/
theorem refuseSqe_ring (s : State) (q : QpId) (x : DataSqe) (st : Nat) :
    ((refuseSqe s q x st).qp q).sq = (s.qp q).sq ∧ ((refuseSqe s q x st).qp q).occupied = (s.qp q).occupied := by
  have hqp := qp_eq_of_changesOnly (earlyAux_changesOnly s x) (by simp) q
  unfold refuseSqe State.postCqe State.queueFrame
  dsimp only
  rw [modQp_qp, hqp]
  exact ⟨rfl, rfl⟩

/-- What a data SQE does to the tag store as it is taken: with a tag in use, in a mode that takes no data, or past its deadline
it takes no slot, and otherwise it enters with the next order. -/
def EntersTagStore (s : State) (q : QpId) (e : RingEntry) (t : State) : Prop :=
  if (s.cmd? q (parseSqe e.received).tag).isSome ∨ s.mode.data = false ∨ deadlineOf e (parseSqe e.received) ≤ s.now then
    t.tags = s.tags ∧ t.orders = s.orders
  else t.orders = s.orders + 1 ∧ ∃ c : Cmd, t.tags = s.tags ++ [c] ∧ c.q = q ∧ c.sqe = parseSqe e.received ∧
    c.started = false ∧ c.order = s.orders ∧ c.at_ = e.at_ ∧ c.deadline = deadlineOf e (parseSqe e.received)

/-- It reads the tag store, the mode and the time. -/
theorem entersTagStore_of_changesOnly {ps : List Part} {s u t : State} {q : QpId} {e : RingEntry} (hu : s.changesOnly ps u)
    (htags : Part.tags ∉ ps) (horders : Part.orders ∉ ps) (hmode : Part.mode ∉ ps) (haon : Part.aon ∉ ps)
    (h : EntersTagStore u q e t) : EntersTagStore s q e t := by
  have h1 : u.tags = s.tags := hu .tags htags
  have h2 : u.orders = s.orders := hu .orders horders
  have h3 : u.mode = s.mode := hu .mode hmode
  have h4 : u.now = s.now := congrArg (fun a : Aon => a.stitch.toNat) (hu .aon haon)
  unfold EntersTagStore at h
  rwa [cmd?_eq_of_tags_eq h1, h1, h2, h3, h4] at h

/-- A data SQE taken from its queue pair's ring. -/
structure TakenData (s : State) (q : QpId) (e : RingEntry) (t : State) : Prop where
  sq : (t.qp q).sq = (s.qp q).sq
  occupied : (t.qp q).occupied = (s.qp q).occupied
  slot : EntersTagStore s q e t
  frame : s.changesOnly [.qps, .tags, .orders, .freeCtr] t

theorem takeData_taken (s : State) (q : QpId) (e : RingEntry) : TakenData s q e (takeData s q e) := by
  have hrefuse (st : Nat) (h : (s.cmd? q (parseSqe e.received).tag).isSome ∨ s.mode.data = false ∨
      deadlineOf e (parseSqe e.received) ≤ s.now) : TakenData s q e (refuseSqe s q (parseSqe e.received) st) := by
    obtain ⟨hsq, hocc⟩ := refuseSqe_ring s q (parseSqe e.received) st
    have hframe := refuseSqe_changesOnly s q (parseSqe e.received) st
    refine ⟨hsq, hocc, ?_, changesOnly_mono hframe (by simp)⟩
    rw [EntersTagStore, if_pos h]
    exact ⟨hframe .tags (by simp), hframe .orders (by simp)⟩
  unfold takeData
  dsimp only
  split
  next htag => exact hrefuse _ (.inl htag)
  next htag =>
    split
    next hmode => exact hrefuse _ (.inr (.inl hmode))
    next hmode =>
      split
      next hlate => exact hrefuse _ (.inr (.inr hlate))
      next hlate =>
        refine ⟨rfl, rfl, ?_, changesOnly_mono (withTags_changesOnly s _ _) (by simp)⟩
        rw [EntersTagStore, if_neg (by simp only [not_or]; exact ⟨htag, hmode, hlate⟩)]
        exact ⟨rfl, _, rfl, rfl, rfl, rfl, rfl, rfl, rfl⟩

/-- The taking of an entry, seen from before its turn was noted and its ring was shortened. -/
theorem takenData_of_turn {s u t : State} {q : QpId} {e : RingEntry} {rest : List RingEntry}
    (hu : s.changesOnly [.lastQp, .turns] u) (ht : TakenData (u.modQp q fun p => { p with sq := rest }) q e t) :
    (t.qp q).sq = rest ∧ (t.qp q).occupied = (s.qp q).occupied ∧ EntersTagStore s q e t ∧
      s.changesOnly [.qps, .tags, .orders, .lastQp, .turns, .freeCtr] t := by
  obtain ⟨hsq, hocc, hslot, hframe⟩ := ht
  have hv : s.changesOnly [.qps, .lastQp, .turns] (u.modQp q fun p => { p with sq := rest }) :=
    changesOnly_trans (changesOnly_mono hu (by simp)) (changesOnly_mono (modQp_changesOnly u q _) (by simp))
  rw [modQp_qp] at hsq hocc
  rw [qp_eq_of_changesOnly hu (by simp)] at hocc
  exact ⟨hsq, hocc, entersTagStore_of_changesOnly hv (by simp) (by simp) (by simp) (by simp) hslot,
    changesOnly_trans (changesOnly_mono hv (by simp)) (changesOnly_mono hframe (by simp))⟩

theorem exec_sqeTake_data {s u : State} {n : Nat} {e : RingEntry} {rest : List RingEntry}
    (hpick : pickQp s = some (.data n, u)) (hsq : (s.qp (.data n)).sq = e :: rest) :
    exec .sqeTake s = .next (takeData (u.modQp (.data n) fun p => { p with sq := rest }) (.data n) e) := by
  have hexec : exec .sqeTake s = execSqeTake s := rfl
  have hring : (u.qp (.data n)).sq = e :: rest := by
    rw [qp_eq_of_changesOnly (pickQp_data_changesOnly hpick) (by simp), hsq]
  simp [hexec, execSqeTake, hpick, hring]

theorem exec_sqeTake_admin {s : State} {g : Gateway} {e : RingEntry} {rest : List RingEntry}
    (hnext : adminNext s = some (.admin g)) (hsq : (s.qp (.admin g)).sq = e :: rest) :
    exec .sqeTake s = .next (takeAdmin (s.modQp (.admin g) fun p => { p with sq := rest }) g e) := by
  have hexec : exec .sqeTake s = execSqeTake s := rfl
  simp [hexec, execSqeTake, pickQp_of_adminNext hnext, hsq]

/-- An admin SQE refused as it is taken: one CPL frame on its instance of QP 0, and its entry gone (R384). -/
theorem admin_postCqe_after_take (s : State) (g : Gateway) (rest : List RingEntry) (tag st : Nat) :
    let t := (s.modQp (.admin g) fun p => { p with sq := rest }).postCqe (.admin g) tag 0 st 0 0 0
    (t.qp (.admin g)).sq = rest ∧ t.adminQ = s.adminQ ∧ (t.qp (.admin g)).txWait = (s.qp (.admin g)).txWait ++
      [⟨3, 6, gwNode g, 0, 0, tag, false, beBytes 2 1 ++ zeros 6 ++ cqeBytes tag 0 st 0 0 0, false⟩] ∧
    s.changesOnly [.qps, .adminQ] t := by
  refine ⟨by simp [State.postCqe, State.queueFrame], rfl, ?_, ?_⟩
  · rw [State.postCqe, queueFrame_txWait, modQp_qp]
    rfl
  · exact changesOnly_mono (changesOnly_trans (modQp_changesOnly s _ _) (queueFrame_changesOnly _ _ _ _ _)) (by simp)

/-! ## Deadlines (R156, R367, R373) -/

/-- What the passing of a deadline leaves: the command's slot is free, no slot is new, and the mode, the keys, DRAM and the
pattern stand. -/
structure Expired (s : State) (q : QpId) (tag : Nat) (t : State) : Prop where
  ended : t.cmd? q tag = none
  tags : t.tags ⊆ s.tags
  frame : s.changesOnly (.qps :: .tags :: .courses :: sessionParts) t

theorem finish_expired (s : State) (q : QpId) (tag r st c a b : Nat) : Expired s q tag (s.finish q tag r st c a b) where
  ended := finish_cmd_none s q tag r st c a b
  tags := finish_tags_subset s q tag r st c a b
  frame := changesOnly_mono (finish_changesOnly s q tag r st c a b) (by simp)

/-- Before or after a command ends, parts other than the tag store may change. -/
theorem Expired.before {s u t : State} {q : QpId} {tag : Nat} {ps : List Part} (hs : s.changesOnly ps u)
    (hps : ps ⊆ .courses :: sessionParts) (h : Expired u q tag t) : Expired s q tag t where
  ended := h.ended
  tags := (show u.tags = s.tags from hs .tags fun m => absurd (hps m) (by simp)) ▸ h.tags
  frame := changesOnly_trans (changesOnly_mono hs fun p hp => by simp [hps hp]) h.frame

theorem Expired.after {s u t : State} {q : QpId} {tag : Nat} (h : Expired s q tag u) (hu : u.changesOnly sessionParts t) :
    Expired s q tag t where
  ended := (cmd?_eq_of_tags_eq (hu .tags (by simp)) q tag).trans h.ended
  tags := (show t.tags = u.tags from hu .tags (by simp)) ▸ h.tags
  frame := changesOnly_trans h.frame (changesOnly_mono hu (by simp))

theorem finishFree_expired (s : State) (q : QpId) (tag st c a : Nat) : Expired s q tag (s.finishFree q tag st c a) :=
  (finish_expired _ q tag 0 st c a _).before (fresh_changesOnly s) (by simp)

theorem expire_expired (s : State) (c : Cmd) : Expired s c.q c.sqe.tag (expire s c) := by
  have hread : Expired s c.q c.sqe.tag (abortRuns s (sessionsStep (endRead s c stDeadline))) :=
    ((finish_expired s c.q c.sqe.tag _ _ _ _ _).after (sessionsStep_changesOnly _)).after
      (changesOnly_mono (abortRuns_changesOnly s _) (by simp))
  have happend (u : State) (h : s.changesOnly [.courses] u) (first : Nat) :
      Expired s c.q c.sqe.tag (u.finish c.q c.sqe.tag 0 stDeadline 0 c.taken.length first) :=
    (finish_expired u _ _ _ _ _ _ _).before h (by simp)
  have hnever (u : State) (h : s.changesOnly [.courses] u) : Expired s c.q c.sqe.tag (u.finishFree c.q c.sqe.tag stDeadline 0 0) :=
    (finishFree_expired u _ _ _ _ _).before h (by simp)
  unfold expire
  dsimp only
  split
  case h_1 | h_2 => exact hread
  case h_3 =>
    split
    · exact happend _ (giveUpAppend_changesOnly s c) _
    · exact hnever _ (giveUpAppend_changesOnly s c)
  case h_4 | h_5 | h_6 =>
    split
    · exact finish_expired s _ _ _ _ _ _ _
    · exact finishFree_expired s _ _ _ _ _
  case h_7 | h_8 => exact finish_expired s _ _ _ _ _ _ _
  case h_9 => exact finishFree_expired s _ _ _ _ _

theorem exec_deadlineExpiry_passed {s : State} {q : QpId} {tag : Nat} {c : Cmd} (hc : s.cmd? q tag = some c)
    (hdue : c.deadline ≤ s.now) : exec (.deadlineExpiry q tag) s = .next (expire s c) := by
  have hexec : exec (.deadlineExpiry q tag) s = execDeadlineExpiry q tag s := rfl
  simp [hexec, execDeadlineExpiry, hc, hdue]

theorem exec_deadlineExpiry_early {s : State} {q : QpId} {tag : Nat} {c : Cmd} (hc : s.cmd? q tag = some c)
    (hearly : s.now < c.deadline) : exec (.deadlineExpiry q tag) s = .next s := by
  have hexec : exec (.deadlineExpiry q tag) s = execDeadlineExpiry q tag s := rfl
  simp [hexec, execDeadlineExpiry, hc, Nat.not_le.2 hearly]

/-! ## Undefined opcodes (R12, R354) -/

theorem exec_dataUndefinedOpcode {s : State} {q : QpId} {tag : Nat} {c : Cmd} (hc : s.cmd? q tag = some c)
    (hkind : c.sqe.kind = .none) : exec (.dataUndefinedOpcode q tag) s = .next (endEarly s c stOutOfRange) := by
  have hexec : exec (.dataUndefinedOpcode q tag) s = execDataUndefinedOpcode q tag s := rfl
  simp [hexec, execDataUndefinedOpcode, hc, hkind]

/-- A data command that ends before it runs: one CPL frame with its status, where the queue pair is not being deleted. -/
theorem endEarly_txWait (s : State) {n : Nat} {c : Cmd} (hq : c.q = .data n) (h : (s.qp (.data n)).state ≠ .deleting) (st : Nat) :
    ((endEarly s c st).qp (.data n)).txWait = (s.qp (.data n)).txWait ++ [⟨3, 3, (s.qp (.data n)).peer, n, 0, c.sqe.tag, false,
      beBytes 2 1 ++ zeros 6 ++ cqeBytes c.sqe.tag 0 st 0 0 (earlyAux s c.sqe).1, false⟩] := by
  have hqp := qp_eq_of_changesOnly (earlyAux_changesOnly s c.sqe) (by simp) (.data n)
  unfold endEarly
  dsimp only
  rw [hq, finish_txWait _ (by rw [hqp]; exact h), State.peerOf, hqp]
  rfl

/-! ## The statement -/

/-- Settles O23: a data SQE by the cases of `takeData`, an admin SQE by those of `takeAdmin`, and a deadline by what the end of
a command and the rebuild sessions may touch. -/
theorem submissionEntriesAreTakenAndExpire : Obligations.SubmissionEntriesAreTakenAndExpire := by
  unfold Obligations.SubmissionEntriesAreTakenAndExpire
  refine ⟨?data, ?admin, ?idle, ?passed, ?early, ?undefinedOp⟩
  case data =>
    intro n u e rest s hpick hsq
    exact ⟨_, exec_sqeTake_data hpick hsq, takenData_of_turn (pickQp_data_changesOnly hpick) (takeData_taken _ _ e)⟩
  case admin =>
    intro g e rest s hnext hsq
    refine ⟨_, exec_sqeTake_admin hnext hsq, ?_⟩
    have hused (tag : Nat) : adminTagUsed (s.modQp (.admin g) fun p => { p with sq := rest }) g tag = adminTagUsed s g tag := rfl
    have hrefused := admin_postCqe_after_take s g rest (parseAdmin (.ring g) e.received e.at_).tag
    unfold takeAdmin
    dsimp only
    rw [hused]
    split
    next =>
      obtain ⟨hring, hqueue, hframe, honly⟩ := hrefused stDupTag
      exact ⟨hring, ⟨hqueue, hframe⟩, honly⟩
    next =>
      split
      next =>
        obtain ⟨hring, hqueue, hframe, honly⟩ := hrefused stOutOfRange
        exact ⟨hring, ⟨hqueue, hframe⟩, honly⟩
      next =>
        refine ⟨by rw [qp_eq_of_changesOnly (withAdminQ_changesOnly _ _) (by simp), modQp_qp], rfl, ?_⟩
        exact changesOnly_trans (changesOnly_mono (modQp_changesOnly s _ _) (by simp))
          (changesOnly_mono (withAdminQ_changesOnly _ _) (by simp))
  case idle =>
    intro s hnone
    have hexec : exec .sqeTake s = execSqeTake s := rfl
    simp [hexec, execSqeTake, hnone]
  case passed =>
    intro q tag c s hc hdue
    obtain ⟨hq, htag⟩ := cmd?_key hc
    obtain ⟨hended, htags, hframe⟩ := expire_expired s c
    rw [hq, htag] at hended
    exact ⟨_, exec_deadlineExpiry_passed hc hdue, hended, fun x hx => htags hx, hframe .mode (by simp), hframe .sec (by simp),
      hframe .mem (by simp), hframe .pat (by simp)⟩
  case early =>
    intro q tag c s hc hearly
    exact exec_deadlineExpiry_early hc hearly
  case undefinedOp =>
    intro n tag c s hc hkind hstate
    obtain ⟨hq, htag⟩ := cmd?_key hc
    subst htag
    refine ⟨_, exec_dataUndefinedOpcode hc hkind, ?_, endEarly_changesOnly s c _, _, endEarly_txWait s hq hstate _⟩
    rw [endEarly, hq]
    exact finish_cmd_none _ _ _ _ _ _ _ _

end Sys2Proof.Proofs
end

section
/-! SUPPORT. Frames of one bay, what a run of sends adds, and the courses found after an update. -/

namespace Sys2Proof.Proofs

open Sys2Proof Sys2Proof.Machine Sys2Proof.Laws

/-! ## Frames of one bay -/

theorem bay_changesOnly_of_agrees {ps : List BayPart} {x y : Bay} (h : ∀ p, p ∈ ps ∨ x.agrees y p) : x.changesOnly ps y :=
  fun p hp => (h p).resolve_left hp

theorem bay_changesOnly_refl (ps : List BayPart) (x : Bay) : x.changesOnly ps x :=
  bay_changesOnly_of_agrees (by rintro ⟨⟩ <;> simp [Bay.agrees])

theorem bay_changesOnly_trans {ps : List BayPart} {x y z : Bay} (h : x.changesOnly ps y) (g : y.changesOnly ps z) :
    x.changesOnly ps z := by
  intro p hp
  have hxy := h p hp
  have hyz := g p hp
  cases p <;> simp_all [Bay.agrees]

theorem withWrite_changesOnly (y : Bay) (v : Option WriteSess) : y.changesOnly [.write] { y with write := v } :=
  bay_changesOnly_of_agrees (by rintro ⟨⟩ <;> simp [Bay.agrees])

theorem withDisc_changesOnly (y : Bay) (v : Option Disc) : y.changesOnly [.disc] { y with disc := v } :=
  bay_changesOnly_of_agrees (by rintro ⟨⟩ <;> simp [Bay.agrees])

theorem withWelt_changesOnly (y : Bay) (v : Welt) : y.changesOnly [.welt] { y with welt := v } :=
  bay_changesOnly_of_agrees (by rintro ⟨⟩ <;> simp [Bay.agrees])

theorem withChan_changesOnly (y : Bay) (v : Channel) : y.changesOnly [.chan] { y with chan := v } :=
  bay_changesOnly_of_agrees (by rintro ⟨⟩ <;> simp [Bay.agrees])

/-- In every bay nothing changes outside the listed parts. -/
def EveryBay (ps : List BayPart) (s t : State) : Prop := ∀ n, (s.bay n).changesOnly ps (t.bay n)

theorem bay_eq_of_bays_eq {s t : State} (h : t.bays = s.bays) (n : Nat) : t.bay n = s.bay n := by
  rw [State.bay, State.bay, h]

theorem onlyBay_of_bays_eq {s t : State} (b : Nat) (h : t.bays = s.bays) : s.onlyBay b t := fun n _ => bay_eq_of_bays_eq h n

theorem everyBay_of_bays_eq {s t : State} (ps : List BayPart) (h : t.bays = s.bays) : EveryBay ps s t :=
  fun n => bay_eq_of_bays_eq h n ▸ bay_changesOnly_refl ps _

theorem everyBay_trans {ps : List BayPart} {s t u : State} (h : EveryBay ps s t) (g : EveryBay ps t u) : EveryBay ps s u :=
  fun n => bay_changesOnly_trans (h n) (g n)

theorem everyBay_foldl {α : Type} {ps : List BayPart} (f : State → α → State) (h : ∀ s a, EveryBay ps s (f s a)) (l : List α)
    (s : State) : EveryBay ps s (l.foldl f s) := by
  induction l generalizing s with
  | nil => exact everyBay_of_bays_eq ps rfl
  | cons a r ih => exact everyBay_trans (h s a) (ih (f s a))

theorem modBay_everyBay {ps : List BayPart} (s : State) (b : Nat) {f : Bay → Bay} (h : ∀ y : Bay, y.changesOnly ps (f y)) :
    EveryBay ps s (s.modBay b f) := by
  intro n
  by_cases hn : n = b
  · subst hn
    simpa using h (s.bay n)
  · rw [modBay_bay_other s f hn]
    exact bay_changesOnly_refl ps _

theorem modDisc_everyBay (s : State) (b : Nat) (f : Disc → Disc) : EveryBay [.disc] s (s.modDisc b f) :=
  modBay_everyBay s b fun y => withDisc_changesOnly y _

theorem modWrite_everyBay (s : State) (b : Nat) (f : WriteSess → WriteSess) : EveryBay [.write] s (s.modWrite b f) :=
  modBay_everyBay s b fun y => withWrite_changesOnly y _

theorem modWelt_everyBay (s : State) (b : Nat) (f : Welt → Welt) : EveryBay [.welt] s (s.modWelt b f) :=
  modBay_everyBay s b fun y => withWelt_changesOnly y _

/-! ## The sessions leave every bay but for its retry store (R156) -/

theorem advanceSession_bays (s : State) (c : Nat) : (advanceSession s c).bays = s.bays := by
  have hlog (u : State) (t : DiscType) : u.changesOnly [.recov, .events, .logs, .freeCtr]
      (logEntered u c t fun a m i k => enterLog a (step7Entry a c m i k 0 7 t)) :=
    logEntered_changesOnly (by simp) u c t _ fun v m i k => changesOnly_mono (enterLog_changesOnly v _) (by simp)
  have hask (u : State) (r : Rebuild) (i : Nat) (p : Prop) [Decidable p] :
      u.changesOnly [.recov, .events] (if p then u else askFor u r i) :=
    changesOnly_ite (changesOnly_refl _ u) (askFor_changesOnly u r i)
  have hrows (rows : List Nat) (u : State) : u.changesOnly [.recov, .events] (rows.foldl (fun a m => advanceRow a c m) u) :=
    changesOnly_foldl _ (fun v m => advanceRow_changesOnly v c m) rows u
  unfold advanceSession
  split
  · rfl
  next r hr =>
    dsimp only
    exact (refreshRequests_changesOnly _ c .bays (by simp)).trans ((hrows _ _ .bays (by simp)).trans
      ((modSession_changesOnly _ c _ .bays (by simp)).trans
        ((changesOnly_foldl _ (fun u i => hask u r i _) _ _ .bays (by simp)).trans (hlog s _ .bays (by simp)))))

theorem sessionsStep_everyBay (s : State) : EveryBay [.chan] s (sessionsStep s) := by
  have hadvance (l : List Nat) (u : State) : EveryBay [.chan] u (l.foldl advanceSession u) :=
    everyBay_foldl _ (fun v c => everyBay_of_bays_eq _ (advanceSession_bays v c)) l u
  have hclose (l : List Nat) (u : State) : EveryBay [.chan] u (l.foldl closeSession u) :=
    everyBay_foldl _ (fun v c => everyBay_of_bays_eq _ (closeSession_changesOnly v c .bays (by simp))) l u
  have hprune (u : State) : EveryBay [.chan] u (pruneBlocks u) :=
    everyBay_foldl _ (fun v x => modBay_everyBay v _ fun y => withChan_changesOnly y _) _ _
  unfold sessionsStep
  exact everyBay_trans (everyBay_of_bays_eq _ (admitAbsent_changesOnly s .bays (by simp)))
    (everyBay_trans (hadvance _ _) (everyBay_trans (hclose _ _) (hprune _)))

/-! ## What a run of sends adds -/

theorem withSent_changesOnly (s : State) (l : List Output) : s.changesOnly [.sent] { s with sent := l } :=
  changesOnly_of_agrees (by rintro ⟨⟩ <;> simp [State.agrees])

theorem foldl_send_eq {α : Type} (f : α → Output) (l : List α) (s : State) :
    l.foldl (fun a x => a.send (f x)) s = { s with sent := s.sent ++ l.map f } := by
  induction l generalizing s with
  | nil => simp
  | cons x r ih =>
    rw [List.foldl_cons, ih]
    simp [State.send]

/-! ## Courses after an update -/

theorem course?_modCourse (s : State) (h g : Nat) {f : Course → Course} (hf : ∀ c, (f c).handle = c.handle) :
    (s.modCourse h f).course? g = (s.course? g).map fun c => if c.handle = h then f c else c := by
  have hkey (c : Course) : (if c.handle = h then f c else c).handle = c.handle := by split <;> simp [hf]
  simp [State.course?, State.modCourse, List.find?_map, hkey]

theorem courseOfBay_eq_of_courses_eq {s t : State} (h : t.courses = s.courses) (b : Nat) : t.courseOfBay b = s.courseOfBay b := by
  rw [State.courseOfBay, State.courseOfBay, h]

/-- A course found by its handle bears it. -/
theorem course?_handle {s : State} {h : Nat} {c : Course} (hc : s.course? h = some c) : c.handle = h := by
  simpa using List.find?_some hc

/-- A course that stops leaves no course of its handle that goes on (R199). -/
theorem stopCourse_stopped (s : State) (h : Nat) : ∀ k ∈ (s.stopCourse h .stopped).courses, k.handle = h → k.stopped = true := by
  intro k hk hkh
  unfold State.stopCourse at hk
  split at hk
  next hnone => exact absurd hkh (by simpa using List.find?_eq_none.1 hnone k hk)
  next c hc =>
    dsimp only at hk
    split at hk
    · simp [hkh] at hk
    · obtain ⟨x, -, hx⟩ := List.mem_map.1 hk
      split at hx
      · simp [← hx]
      next hne => exact absurd (hx ▸ hkh) hne

end Sys2Proof.Proofs
end

section
/-! SUPPORT. Opening, measuring and starting a write session, and the statement about it (R54, R56, R171 to R182, R194, R199). -/

namespace Sys2Proof.Proofs

open Sys2Proof Sys2Proof.Machine Sys2Proof.Laws

/-! ## Opening (R171, R172, R182, R194) -/

/-- The session that SESSION_OPEN opens at a disc's append point, with its write sequence, its phase and its limit. -/
def newSession (s : State) (c : Course) (d : Disc) (seq : Nat) (phase : SessPhase) (limit : Option Nat) : WriteSess :=
  { handle := c.handle, seq := seq, phase := phase, layer := (sessionStart d).1, start := (sessionStart d).2
    j := d.dtype.firstIndex (sessionStart d).2, low := (sessionStart d).2, segment := (sessionStart d).2, openedAt := s.now
    resumeBy := limit, segs := s.pnat 0x0510 0, took := segmentTake s, nextOpc := d.nextOpc.getD (sessionStart d).1 0 }

/-- What a session does first: the binding of its disc, the blank scan, or nothing where no block is left. -/
def openPhase (d : Disc) : SessPhase :=
  if d.binding = .unbound ∨ d.dibDue = true then .binding
  else if (sessionStart d).2 < d.dtype.blocks then .blankScan else .ready

/-- The session is open with the write sequence drawn for it, which its course then holds no longer (R194). -/
def openedOn (s : State) (b : BayId) (c : Course) (d : Disc) (seq : Nat) : State :=
  (s.modBay b.val fun y =>
    { y with write := some (newSession s c d seq (openPhase d) none)
             disc := y.disc.map fun d => { d with usedSeqs := addNew d.usedSeqs [seq] } }).modCourse c.handle
    fun k => { k with nextSeq := Tbl.set 0 k.nextSeq (c.memberAt b.val) 0 }

/-- The disc that a session opens on, once an unbound disc is bound. -/
def openedAndBound (s : State) (b : BayId) (c : Course) (d : Disc) (seq : Nat) : State :=
  if d.binding = .unbound then bindDisc (openedOn s b c d seq) b c seq else openedOn s b c d seq

section
variable {b : BayId} {c : Course} {d : Disc} {s : State} (hcourse : s.courseOfBay b.val = some c)
include hcourse

theorem exec_sessionOpen_notNeeded (dr : List Word) (hneed : sessionNeeded s c b.val = false) :
    exec (.sessionOpen b dr) s = .next s := by
  have hexec : exec (.sessionOpen b dr) s = execSessionOpen b dr s := rfl
  rw [hexec, execSessionOpen, hcourse]
  split
  · simp_all
  · rfl

variable (hdisc : (s.bay b.val).disc = some d) (hwrite : (s.bay b.val).write = none) (hmay : mayWrite s b.val = true)
  (hneed : sessionNeeded s c b.val = true)
include hdisc hwrite hmay hneed

theorem exec_sessionOpen_hot (dr : List Word) (hband : 4 ≤ (s.bay b.val).welt.band.level) :
    exec (.sessionOpen b dr) s =
      .next (s.modBay b.val fun y => { y with write := some (newSession s c d 0 .waitTemp (some s.resumeLimit)) }) := by
  have hexec : exec (.sessionOpen b dr) s = execSessionOpen b dr s := rfl
  simp [hexec, execSessionOpen, hcourse, hdisc, hwrite, hmay, hneed, hband, newSession]

theorem exec_sessionOpen_opens (dr : List Word) {seq : Nat} (hband : (s.bay b.val).welt.band.level < 4)
    (hseq : Tbl.get 0 c.nextSeq (c.memberAt b.val) = seq) (hdrawn : seq ≠ 0) :
    exec (.sessionOpen b dr) s = .next (sessionsStep (fillMissing (openedAndBound s b c d seq) c.handle)) := by
  have hexec : exec (.sessionOpen b dr) s = execSessionOpen b dr s := rfl
  have hphase : (if (decide (d.binding ≠ .unbound) && !d.dibDue) = true then
      if (sessionStart d).2 < d.dtype.blocks then SessPhase.blankScan else .ready else .binding) = openPhase d := by
    unfold openPhase
    by_cases hb : d.binding = .unbound
    · simp [hb]
    · by_cases hd : d.dibDue = true
      · simp [hd]
      · simp [hb, hd]
  have hdraw : (if seq ≠ 0 then some seq else drawSeq d [] dr) = some seq := if_pos hdrawn
  rw [hexec, execSessionOpen, hcourse, hdisc]
  simp only [hwrite, hmay, hneed, hseq, hdraw, Nat.not_le.2 hband, hphase, reduceCtorEq, or_self, if_false]
  rfl

end

/-! ## Binding (R53, R54, R56) -/

/-- The 28 recorded-DIB copies that bind a disc. -/
def dibCopies (b : BayId) (c : Course) (d : Disc) (seq : Nat) : List Output :=
  (List.range 28).map fun n => .recordSystem b ⟨.leadIn, 0, Fin.ofNat 8 (dibSpiral n), dibSlot true n⟩
    ((slotCells d.dtype (systemSector (lsnRecorded n) seq (d.dib c.id (c.memberAt b.val) c.d c.p seq).bytes) 64).map some)

theorem bindDisc_of_disc {s : State} {b : BayId} {d : Disc} (h : (s.bay b.val).disc = some d) (c : Course) (seq : Nat) :
    bindDisc s b c seq = ({ s with sent := s.sent ++ dibCopies b c d seq } : State).modDisc b.val
      fun d => { d with binding := .member c.id (c.memberAt b.val) c.d c.p seq, dibDue := true } := by
  unfold bindDisc
  rw [h]
  dsimp only
  rw [foldl_send_eq]
  rfl

theorem fillMissing_changesOnly (s : State) (h : Nat) : s.changesOnly [.courses] (fillMissing s h) := by
  unfold fillMissing
  split
  · exact changesOnly_refl _ s
  · refine changesOnly_foldl _ (fun u n => ?_) _ s
    dsimp only
    split
    · exact changesOnly_refl _ u
    · exact modCourse_changesOnly u h _

section
variable {s : State} {b : BayId} {c : Course} {d : Disc} {seq : Nat}

theorem openedOn_changesOnly : s.changesOnly [.bays, .courses] (openedOn s b c d seq) :=
  changesOnly_trans (changesOnly_mono (modBay_changesOnly s b.val _) (by simp))
    (changesOnly_mono (modCourse_changesOnly _ _ _) (by simp))

theorem openedOn_bay : (openedOn s b c d seq).bay b.val = { s.bay b.val with
    write := some (newSession s c d seq (openPhase d) none)
    disc := (s.bay b.val).disc.map fun d => { d with usedSeqs := addNew d.usedSeqs [seq] } } := by
  have hbays : (openedOn s b c d seq).bays = (s.modBay b.val fun y =>
      { y with write := some (newSession s c d seq (openPhase d) none)
               disc := y.disc.map fun d => { d with usedSeqs := addNew d.usedSeqs [seq] } }).bays := rfl
  rw [bay_eq_of_bays_eq hbays, modBay_bay_same]

theorem openedOn_write :
    ((openedOn s b c d seq).bay b.val).write = some (newSession s c d seq (openPhase d) none) := by
  rw [openedOn_bay]

theorem fillMissing_sessionsStep_everyBay (s : State) (h : Nat) : EveryBay [.chan] s (sessionsStep (fillMissing s h)) :=
  everyBay_trans (everyBay_of_bays_eq _ (fillMissing_changesOnly s h .bays (by simp))) (sessionsStep_everyBay _)

theorem fillMissing_sessionsStep_changesOnly (s : State) (h : Nat) :
    s.changesOnly (.courses :: sessionParts) (sessionsStep (fillMissing s h)) :=
  changesOnly_trans (changesOnly_mono (fillMissing_changesOnly s h) (by simp))
    (changesOnly_mono (sessionsStep_changesOnly _) (by simp))

variable (hdisc : (s.bay b.val).disc = some d)
include hdisc

theorem openedAndBound_unbound (hb : d.binding = .unbound) : openedAndBound s b c d seq =
    ({ openedOn s b c d seq with sent := s.sent ++ dibCopies b c d seq } : State).modDisc b.val
      fun d => { d with binding := .member c.id (c.memberAt b.val) c.d c.p seq, dibDue := true } := by
  rw [openedAndBound, if_pos hb, bindDisc_of_disc (d := { d with usedSeqs := addNew d.usedSeqs [seq] }) (by simp [openedOn_bay, hdisc])]
  rfl

theorem openedAndBound_write :
    ((openedAndBound s b c d seq).bay b.val).write = some (newSession s c d seq (openPhase d) none) := by
  by_cases hb : d.binding = .unbound
  · rw [openedAndBound_unbound hdisc hb]
    exact (modDisc_everyBay _ b.val _ b.val .write (by simp)).trans (openedOn_write (s := s))
  · rw [openedAndBound, if_neg hb, openedOn_write]

theorem openedAndBound_disc (hb : d.binding = .unbound) : ((openedAndBound s b c d seq).bay b.val).disc = some { d with
    usedSeqs := addNew d.usedSeqs [seq], binding := .member c.id (c.memberAt b.val) c.d c.p seq, dibDue := true } := by
  have hopened : ((openedOn s b c d seq).bay b.val).disc = some { d with usedSeqs := addNew d.usedSeqs [seq] } := by
    simp [openedOn_bay, hdisc]
  rw [openedAndBound_unbound hdisc hb, modDisc_disc]
  exact congrArg (Option.map _) hopened

theorem openedAndBound_sent :
    (openedAndBound s b c d seq).sent = s.sent ++ if d.binding = .unbound then dibCopies b c d seq else [] := by
  by_cases hb : d.binding = .unbound
  · rw [openedAndBound_unbound hdisc hb, if_pos hb]
    rfl
  · rw [openedAndBound, if_neg hb, if_neg hb, List.append_nil]
    rfl

theorem openedAndBound_changesOnly : s.changesOnly [.bays, .courses, .sent] (openedAndBound s b c d seq) := by
  have hopened : s.changesOnly [.bays, .courses, .sent] (openedOn s b c d seq) := changesOnly_mono openedOn_changesOnly (by simp)
  by_cases hb : d.binding = .unbound
  · rw [openedAndBound_unbound hdisc hb]
    exact changesOnly_trans hopened (changesOnly_trans (changesOnly_mono (withSent_changesOnly _ _) (by simp))
      (changesOnly_mono (modBay_changesOnly _ _ _) (by simp)))
  · rwa [openedAndBound, if_neg hb]

end

/-! ## The blank scan (R62, R172) -/

theorem exec_blankScanDone {b : BayId} {w : WriteSess} {s : State} (hwrite : (s.bay b.val).write = some w)
    (hphase : w.phase = .blankScan) (hblank : 140 ≤ w.scanBlank) (hmay : mayWrite s b.val = true) :
    exec (.blankScanDone b) s = .next (s.modWrite b.val fun w => { w with phase := .opc }) := by
  have hexec : exec (.blankScanDone b) s = execBlankScanDone b s := rfl
  simp [hexec, execBlankScanDone, hwrite, hphase, hmay, Nat.not_lt.2 hblank]

theorem exec_blankScanDone_early {b : BayId} {w : WriteSess} {s : State} (hwrite : (s.bay b.val).write = some w)
    (hblank : w.scanBlank < 140) : exec (.blankScanDone b) s = .next s := by
  have hexec : exec (.blankScanDone b) s = execBlankScanDone b s := rfl
  simp [hexec, execBlankScanDone, hwrite, hblank]

/-! ## OPC (R177, R178) -/

/-- The power from which OPC starts on a layer: the last one found, or the hint's where there is none. -/
def opcStart (d : Disc) (l : Nat) : Nat :=
  if d.lastOpc.getD l 0 = 0 then (d.hints.getD l default).startPower else d.lastOpc.getD l 0

/-- The session is ready with a power, and the next unit is noted. -/
def opcSet (s : State) (b : BayId) (p : Int) (u : Nat) : State :=
  s.modWrite b.val fun w =>
    { w with phase := .ready, opcPower := p.toNat, opcBand := min 3 (s.bay b.val).welt.band.level, nextOpc := u }

/-- The 32 slots of an OPC unit, each at its power. -/
def opcRecording (s : State) (b : BayId) (d : Disc) (l u : Nat) : List Output :=
  (List.range 32).map fun (i : Nat) => .recordOpc b l u i
    (strategyAt s b.val l (roundDiv (opcStep (opcStart d l) (d.hints.getD l default) i) 200).toNat) (opcBits d.dtype i)

theorem opcSet_changesOnly (s : State) (b : BayId) (p : Int) (u : Nat) : s.changesOnly [.bays] (opcSet s b p u) :=
  modBay_changesOnly s b.val _

theorem opcSet_write {s : State} {b : BayId} {w : WriteSess} (h : (s.bay b.val).write = some w) (p : Int) (u : Nat) :
    ((opcSet s b p u).bay b.val).write = some
      { w with phase := .ready, opcPower := p.toNat, opcBand := min 3 (s.bay b.val).welt.band.level, nextOpc := u } := by
  rw [opcSet, modWrite_write, h]
  rfl

theorem opcSet_onlyBay (s : State) (b : BayId) (p : Int) (u : Nat) : s.onlyBay b.val (opcSet s b p u) := modBay_onlyBay s b.val _

/-- No open of a course waits for the bay's OPC. -/
theorem notOpening_of_courses_eq {s t : State} {b : Nat} {c : Course} {p : Prop} (h : t.courses = s.courses)
    (hopening : ∀ c, s.courseOfBay b = some c → c.opening = none) (hc : t.courseOfBay b = some c) :
    ¬ (c.opening.isSome = true ∧ p) := by
  rw [courseOfBay_eq_of_courses_eq h] at hc
  simp [hopening c hc]

section
variable {b : BayId} {d : Disc} {w : WriteSess} {s : State} (hdisc : (s.bay b.val).disc = some d)
  (hwrite : (s.bay b.val).write = some w) (hphase : w.phase = .opc) (hmay : mayWrite s b.val = true)
  (hopening : ∀ c, s.courseOfBay b.val = some c → c.opening = none)
include hdisc hwrite hphase hmay hopening

theorem exec_opcDone_noUnit (ps : List (Option (Int × Int))) : exec (.opcDone b [] ps) s =
    .next ((opcSet s b (opcStart d w.layer) (d.nextOpc.getD w.layer 0)).bayLogFree b.val 0x0503) := by
  have hexec : exec (.opcDone b [] ps) s = execOpcDone b [] ps s := rfl
  have hcourses : ((opcSet s b (opcStart d w.layer) (d.nextOpc.getD w.layer 0)).bayLogFree b.val 0x0503).courses = s.courses :=
    logFree_changesOnly _ _ _ _ .courses (by simp)
  rw [hexec, execOpcDone, hdisc, hwrite]
  simp only [hphase, hmay, List.filter_nil, ne_eq, not_true, reduceCtorEq, or_self, if_false]
  split
  next c hc => exact congrArg Host.Outcome.next (if_neg (notOpening_of_courses_eq hcourses hopening hc))
  next => rfl

theorem exec_opcDone_found {u : Nat} {p : Int} {ps : List (Option (Int × Int))} (hnext : d.nextOpc.getD w.layer 0 ≤ u)
    (hunits : u < d.dtype.opcUnits)
    (hfound : opcResult (opcStart d w.layer) (d.hints.getD w.layer default) ps = .found p) :
    exec (.opcDone b [u] ps) s =
      .next { opcSet s b p (u + 1) with sent := s.sent ++ opcRecording s b d w.layer u } := by
  have hexec : exec (.opcDone b [u] ps) s = execOpcDone b [u] ps s := rfl
  have hfits : [u].filter (fun u => decide (d.nextOpc.getD w.layer 0 ≤ u ∧ u < d.dtype.opcUnits)) = [u] := by
    simp only [List.filter_cons, hnext, hunits, and_self, decide_true, if_true, List.filter_nil]
  rw [hexec, execOpcDone, hdisc, hwrite]
  simp only [hphase, hmay, hfits, List.foldl_nil, ne_eq, not_true, reduceCtorEq, or_self, if_false]
  rw [opcStart] at hfound
  rw [foldl_send_eq, hfound]
  dsimp only
  split
  next c hc => exact congrArg Host.Outcome.next (if_neg (notOpening_of_courses_eq (s := s) rfl hopening hc))
  next => rfl

end

/-! ## A run starts (R176, R179, R182) -/

theorem blockRecord_write {s : State} {b : Nat} {w : WriteSess} (h : (s.bay b).write = some w) :
    ∃ r, ((blockRecord s b).bay b).write = some { w with record := r } := by
  unfold blockRecord
  dsimp only
  split
  · refine ⟨(s.bay b).welt.loadRec, ?_⟩
    rw [modWrite_write, State.modWelt, modBay_bay_same]
    exact congrArg (Option.map _) h
  · exact ⟨w.record, h⟩

theorem blockRecord_changesOnly (s : State) (b : Nat) : s.changesOnly [.bays] (blockRecord s b) := by
  unfold blockRecord
  dsimp only
  split
  · exact changesOnly_trans (modBay_changesOnly s b _) (modBay_changesOnly _ b _)
  · exact changesOnly_refl _ s

theorem blockRecord_onlyBay (s : State) (b : Nat) : s.onlyBay b (blockRecord s b) := by
  unfold blockRecord
  dsimp only
  split
  · exact onlyBay_trans (modBay_onlyBay s b _) (modBay_onlyBay _ b _)
  · exact onlyBay_refl b s

/-- What the run has to say before its first slot: the missing sectors filled, the stream begun, the record in use. -/
def runPrepared (s : State) (b : BayId) (c : Course) (offset : Nat) : State :=
  blockRecord (beginStream (fillMissing s c.handle) b.val offset) b.val

/-- A run starts from a block boundary. -/
def startRun (s : State) (b : BayId) (c : Course) (fifoPct offset : Nat) : State :=
  (runPrepared s b c offset).modBay b.val fun y =>
    { y with state := .write
             write := y.write.map fun v =>
               { v with phase := resumedPhase s c b.val v, low := if v.phase = .ready then v.boundary c.dtype else v.low
                        resumeBy := none, slotStop := false, slotErr := 0, panic := if 50 ≤ fifoPct then false else v.panic } }

section
variable {b : BayId} {c : Course} {w : WriteSess} {s : State} (hwrite : (s.bay b.val).write = some w)

theorem runPrepared_changesOnly (o : Nat) : s.changesOnly [.bays, .courses] (runPrepared s b c o) :=
  changesOnly_trans (changesOnly_mono (fillMissing_changesOnly s c.handle) (by simp))
    (changesOnly_trans (changesOnly_mono (modBay_changesOnly _ b.val _) (by simp))
      (changesOnly_mono (blockRecord_changesOnly _ b.val) (by simp)))

theorem runPrepared_onlyBay (o : Nat) : s.onlyBay b.val (runPrepared s b c o) :=
  onlyBay_trans (onlyBay_of_bays_eq _ (fillMissing_changesOnly s c.handle .bays (by simp)))
    (onlyBay_trans (modBay_onlyBay _ b.val _) (blockRecord_onlyBay _ b.val))

include hwrite in
theorem runPrepared_write (o : Nat) : ∃ r, ((runPrepared s b c o).bay b.val).write = some { w with record := r } := by
  have hfilled : ((fillMissing s c.handle).bay b.val).write = some w := by
    rw [bay_eq_of_bays_eq (fillMissing_changesOnly s c.handle .bays (by simp)), hwrite]
  have hbegun : ((beginStream (fillMissing s c.handle) b.val o).bay b.val).write = some w := by
    rw [beginStream, State.modWelt, modBay_bay_same, hfilled]
  exact blockRecord_write hbegun

variable (hcourse : s.courseOfBay b.val = some c)
include hwrite hcourse

theorem exec_runResume_fifoLow {f : Nat} (o : Nat) (hready : recordReady s b.val w = true)
    (happroached : approached s b.val c.dtype (w.nextSlot c.dtype) = true) (hfifo : f < s.pnat 0x0514 0) :
    exec (.runResume b f o) s = .next s := by
  have hexec : exec (.runResume b f o) s = execRunResume b f o s := rfl
  rw [hexec, execRunResume, hcourse, hwrite]
  simp [hready, happroached, hfifo]

variable (hphase : w.phase = .ready) (hresume : w.resumeBy = none) (hmay : mayWrite s b.val = true) (hhot : (s.bay b.val).welt.hotStop = false)
  (hband : (s.bay b.val).welt.band.level < 4) (hreads : readWaits s b.val = false) (hverify : verifyDue s c b.val w = false)
  (hleft : w.boundary c.dtype < limitBlock s c b.val w)
include hphase hresume hmay hhot hband hreads hverify hleft

theorem exec_runResume_starts {f : Nat} (o : Nat) (hready : recordReady s b.val w = true)
    (happroached : approached s b.val c.dtype (w.nextSlot c.dtype) = true) (hfifo : s.pnat 0x0514 0 ≤ f) :
    exec (.runResume b f o) s = .next (startRun s b c f o) := by
  have hexec : exec (.runResume b f o) s = execRunResume b f o s := rfl
  rw [hexec, execRunResume, hcourse, hwrite]
  simp only [WriteSess.mayGo, hphase, hresume, hmay, hhot, Nat.not_le.2 hband, hreads, hverify, Nat.not_le.2 hleft, hready,
    happroached, Nat.not_lt.2 hfifo, Bool.true_eq_false, Bool.false_eq_true, reduceCtorEq, and_false, or_self, if_false,
    true_or, decide_true, Bool.or_true, if_true]
  rfl

theorem exec_runResume_notReady (f o : Nat) (hready : recordReady s b.val w = false) :
    exec (.runResume b f o) s = .next (keepRecord s b.val) := by
  have hexec : exec (.runResume b f o) s = execRunResume b f o s := rfl
  rw [hexec, execRunResume, hcourse, hwrite]
  simp [WriteSess.mayGo, hphase, hresume, hmay, hhot, Nat.not_le.2 hband, hreads, hverify, Nat.not_le.2 hleft, hready]

end

theorem startRun_write {b : BayId} {c : Course} {w : WriteSess} {s : State} (hwrite : (s.bay b.val).write = some w)
    (hphase : w.phase = .ready) (f o : Nat) : ∃ v : WriteSess, ((startRun s b c f o).bay b.val).write = some v ∧
      v.phase = .recording ∧ v.resumeBy = none ∧ v.j = w.j ∧ v.low = w.boundary c.dtype ∧ v.bad = w.bad := by
  obtain ⟨r, hr⟩ := runPrepared_write (c := c) hwrite o
  rw [startRun, modBay_bay_same, hr]
  exact ⟨_, rfl, by simp [resumedPhase, hphase], rfl, rfl, by simp [hphase, WriteSess.boundary], rfl⟩

/-! ## The record that a run waits for (R183, R221) -/

theorem wantRecord_loads {s : State} {b : Nat} {r : List Byte} (hreg : (s.bay b).welt.loadReg = none)
    (hrec : (s.bay b).welt.loadRec ≠ r) : ∃ x, wantRecord s b r = s.modWelt b fun v => { v with loadReg := some x, loadRec := r } := by
  unfold wantRecord
  exact ⟨_, if_neg (by simp [hreg, hrec])⟩

theorem keepRecord_of_write {s : State} {b : Nat} {w : WriteSess} (h : (s.bay b).write = some w) :
    keepRecord s b = wantRecord s b (strategy s b w) := by
  rw [keepRecord, h]

/-! ## A wait beyond RESUME_MAX (R176, R182, R199) -/

theorem exec_resumeMaxExpiry_stops {b : BayId} {c : Course} {w : WriteSess} {r : Nat} {s : State}
    (hcourse : s.courseOfBay b.val = some c) (hwrite : (s.bay b.val).write = some w)
    (hwaits : w.phase = .ready ∧ (s.bay b.val).welt.hotStop = true ∨ w.phase = .recording ∨
      w.phase = .waitTemp ∧ 4 ≤ (s.bay b.val).welt.band.level)
    (hresume : w.resumeBy = some r) (hlate : r ≤ s.now) (hopening : c.opening = none) :
    exec (.resumeMaxExpiry b) s = .next (s.stopCourse c.handle .stopped) := by
  have hexec : exec (.resumeMaxExpiry b) s = execResumeMaxExpiry b s := rfl
  rw [hexec, execResumeMaxExpiry, hcourse, hwrite]
  rcases hwaits with ⟨hphase, hhot⟩ | hphase | ⟨hphase, hband⟩
  · simp [hphase, hhot, hresume, Nat.not_lt.2 hlate, hopening]
  · simp [hphase, hresume, Nat.not_lt.2 hlate, hopening]
  · simp [hphase, Nat.not_lt.2 hband, hresume, Nat.not_lt.2 hlate, hopening]

theorem exec_resumeMaxExpiry_well {b : BayId} {w : WriteSess} {s : State} (hwrite : (s.bay b.val).write = some w)
    (hwell : w.resumeBy = none ∨ w.phase = .ready ∧ (s.bay b.val).welt.hotStop = false) :
    exec (.resumeMaxExpiry b) s = .next s := by
  have hexec : exec (.resumeMaxExpiry b) s = execResumeMaxExpiry b s := rfl
  rw [hexec, execResumeMaxExpiry, hwrite]
  cases s.courseOfBay b.val with
  | none => rfl
  | some c =>
    rcases hwell with hresume | ⟨hphase, hhot⟩
    · simp [hresume]
    · simp [hphase, hhot]

/-! ## The statement -/

/-- Settles O42: each event by the branch that its conditions select; what it writes to the session stands, since the sessions of
recovery that follow an opening touch no bay but for its retry store. -/
theorem sessionsOpenMeasureAndStart : Obligations.SessionsOpenMeasureAndStart := by
  unfold Obligations.SessionsOpenMeasureAndStart
  refine ⟨?opens, ?hot, ?notNeeded, ?blank, ?scanning, ?defective, ?noUnit, ?found, ?starts, ?fifoLow, ?loads, ?stops, ?well⟩
  case opens =>
    intro b dr c d s hcourse hdisc hwrite hmay hneed hband hdrawn
    refine ⟨_, exec_sessionOpen_opens hcourse hdisc hwrite hmay hneed dr hband rfl hdrawn, ?_⟩
    have hbay := fillMissing_sessionsStep_everyBay (openedAndBound s b c d (Tbl.get 0 c.nextSeq (c.memberAt b.val))) c.handle b.val
    have hframe := fillMissing_sessionsStep_changesOnly (openedAndBound s b c d (Tbl.get 0 c.nextSeq (c.memberAt b.val))) c.handle
    refine ⟨⟨_, (hbay .write (by simp)).trans (openedAndBound_write hdisc), rfl, rfl, rfl, rfl, rfl, rfl⟩, ?_, ?_, ?_⟩
    · exact fun hb => ⟨_, (hbay .disc (by simp)).trans (openedAndBound_disc hdisc hb), rfl⟩
    · exact (hframe .sent (by simp)).trans (openedAndBound_sent hdisc)
    · exact changesOnly_trans (changesOnly_mono (openedAndBound_changesOnly hdisc) (by simp)) (changesOnly_mono hframe (by simp))
  case hot =>
    intro b dr c d s hcourse hdisc hwrite hmay hneed hband
    refine ⟨_, exec_sessionOpen_hot hcourse hdisc hwrite hmay hneed dr hband, ?_, ?_, modBay_onlyBay s _ _, modBay_changesOnly s _ _⟩
    · rw [modBay_bay_same]
      exact ⟨_, rfl, rfl, rfl, rfl⟩
    · exact modBay_everyBay s b.val (fun y => withWrite_changesOnly y _) b.val
  case notNeeded =>
    exact fun b dr c s hcourse hneed => exec_sessionOpen_notNeeded hcourse dr hneed
  case blank =>
    intro b w s hwrite hphase hblank hmay
    refine ⟨_, exec_blankScanDone hwrite hphase hblank hmay, ?_, modWrite_everyBay s _ _ _, modBay_onlyBay s _ _, modBay_changesOnly s _ _⟩
    rw [modWrite_write, hwrite]
    rfl
  case scanning =>
    exact fun b w s hwrite hblank => exec_blankScanDone_early hwrite hblank
  case defective =>
    intro b n k p d w s hdisc hwrite hslot hsector hstart hused
    simp [scanTake, hdisc, hwrite, hsector, hstart, hslot, hused]
  case noUnit =>
    intro b ps d w s hdisc hwrite hphase hmay hopening
    refine ⟨_, exec_opcDone_noUnit hdisc hwrite hphase hmay hopening ps, ?_⟩
    have hlogged := logFree_changesOnly (opcSet s b (opcStart d w.layer) (d.nextOpc.getD w.layer 0)) (.bay b.val) 0x0503 b.val
    have hbays := hlogged .bays (by simp)
    have hwritten := (congrArg Bay.write (bay_eq_of_bays_eq hbays b.val)).trans (opcSet_write hwrite _ _)
    exact ⟨⟨_, hwritten, rfl, rfl, Int.toNat_natCast _⟩, hlogged .sent (by simp),
      onlyBay_trans (opcSet_onlyBay s b _ _) (onlyBay_of_bays_eq _ hbays)⟩
  case found =>
    intro b u p ps d w s hdisc hwrite hphase hmay hopening hnext hunits hfound
    have hset := opcSet_changesOnly s b p (u + 1)
    exact ⟨_, exec_opcDone_found hdisc hwrite hphase hmay hopening hnext hunits hfound, ⟨_, opcSet_write hwrite p (u + 1), rfl, rfl, rfl⟩,
      rfl, onlyBay_trans (opcSet_onlyBay s b p (u + 1)) (onlyBay_of_bays_eq _ rfl),
      changesOnly_trans (changesOnly_mono hset (by simp)) (changesOnly_mono (withSent_changesOnly _ _) (by simp))⟩
  case starts =>
    intro b f o c w s hcourse hwrite hphase hresume hmay hhot hband hreads hverify hleft hready happroached hfifo
    refine ⟨_, exec_runResume_starts hwrite hcourse hphase hresume hmay hhot hband hreads hverify hleft o hready happroached hfifo,
      ?_, startRun_write hwrite hphase f o, onlyBay_trans (runPrepared_onlyBay o) (modBay_onlyBay _ _ _),
      changesOnly_trans (runPrepared_changesOnly o) (changesOnly_mono (modBay_changesOnly _ _ _) (by simp))⟩
    rw [startRun, modBay_bay_same]
  case fifoLow =>
    exact fun b f o c w s hcourse hwrite _ hready happroached hfifo => exec_runResume_fifoLow hwrite hcourse o hready happroached hfifo
  case loads =>
    intro b f o c w s hcourse hwrite hphase hresume hmay hhot hband hreads hverify hleft hreg hrec
    have hready : recordReady s b.val w = false := by simp [recordReady, hrec]
    obtain ⟨x, hloads⟩ := wantRecord_loads hreg hrec
    refine ⟨_, exec_runResume_notReady hwrite hcourse hphase hresume hmay hhot hband hreads hverify hleft f o hready, ?_⟩
    rw [keepRecord_of_write hwrite, hloads]
    exact ⟨by rw [modWelt_welt], by rw [modWelt_welt]; rfl, modWelt_everyBay s _ _ _, modBay_onlyBay s _ _, modBay_changesOnly s _ _⟩
  case stops =>
    intro b c w r s hcourse hwrite hwaits hresume hlate hopening
    have hframe := stopCourse_changesOnly s c.handle .stopped
    exact ⟨_, exec_resumeMaxExpiry_stops hcourse hwrite hwaits hresume hlate hopening, stopCourse_stopped s c.handle,
      hframe .mode (by simp), changesOnly_mono hframe (by simp)⟩
  case well =>
    exact fun b w s hwrite hwell => exec_resumeMaxExpiry_well hwrite hwell

end Sys2Proof.Proofs
end

section
/-! SUPPORT. The statement about write runs, which fails where two courses bear one handle (R187, R190). -/

namespace Sys2Proof.Proofs

open Sys2Proof Sys2Proof.Machine Sys2Proof.Laws

/-- A session on a plain disc, ready at the end of its first verify segment: 586 blocks, 2,344 indices (R174, R187). -/
def sessionAtSegmentEnd : WriteSess :=
  { handle := 1, seq := 1, phase := .ready, layer := 0, start := 0, j := 2344, openedAt := 0 }

/-- An open course of plain discs whose one member is bay 0. -/
def plainCourse : Course :=
  { handle := 1, id := 1, d := 1, p := 0, dtype := .plain, layers := 1, bays := [0], nextCsn := 0, buf := [], nextSeq := []
    committed := 0, stopped := false, full := false, sealed := false, waits := [], lastData := 0, opening := none, missing := []
    closing := none }

/-- An engine whose course list holds, before the plain course, a stopped course of ridged discs under the same handle. -/
def sharedHandle : State :=
  { State.reset with
    mode := .active
    courses := [{ plainCourse with dtype := .ridged, bays := [], stopped := true }, plainCourse]
    bays := [(0, { write := some sessionAtSegmentEnd })] }

/-- VERIFY_SEGMENT_END judges the segment by the course that it finds under the session's handle: a segment of ridged discs, of
683 blocks, has not ended, and the session stays as it is. -/
theorem exec_verifySegmentEnd_sharedHandle : exec (.verifySegmentEnd 0) sharedHandle = .next sharedHandle := by
  rfl

/-- Refutes O43: where two courses bear one handle, a session at the end of its verify segment is not verified, because the
event looks the course up by the handle and finds the other one. The statement does not ask that handles differ. -/
theorem not_runsRecordSlotsAndAreVerified : ¬ Obligations.RunsRecordSlotsAndAreVerified := by
  unfold Obligations.RunsRecordSlotsAndAreVerified
  rintro ⟨-, -, -, -, hverify, -⟩
  obtain ⟨t, hexec, ⟨v, hwrite, hphase, -⟩, -⟩ := hverify 0 plainCourse sessionAtSegmentEnd sharedHandle rfl rfl rfl (by decide) rfl rfl
  rw [exec_verifySegmentEnd_sharedHandle] at hexec
  cases hexec
  cases hwrite
  exact absurd hphase (by decide)

end Sys2Proof.Proofs
end

section
/-! SUPPORT. What the end of a close may touch: commands that waited end, bays are released, and courses open, go on or stop
(R190 to R199, R377, R378). -/

namespace Sys2Proof.Proofs

open Sys2Proof Sys2Proof.Machine Sys2Proof.Laws

/-- The parts that the end of a close may touch: nothing is sent at a pin, and no pin, register or mode changes. -/
abbrev closeParts : List Part :=
  [.qps, .tags, .freeCtr, .bays, .courses, .nextHandle, .recov, .events, .logs, .pat]

theorem withNextHandle_changesOnly (s : State) (n : Nat) : s.changesOnly [.nextHandle] { s with nextHandle := n } :=
  changesOnly_of_agrees (by rintro ⟨⟩ <;> simp [State.agrees])

/-! ## A bay is released (R378) -/

theorem endRead_changesOnly (s : State) (c : Cmd) (st : Nat) : s.changesOnly [.qps, .tags] (endRead s c st) :=
  finish_changesOnly _ _ _ _ _ _ _ _

theorem toLoaded_changesOnly (s : State) (b : Nat) : s.changesOnly [.bays] (toLoaded s b) := modBay_changesOnly s b _

theorem endReleases_changesOnly (s : State) (b : Nat) : s.changesOnly [.qps, .tags, .bays] (endReleases s b) := by
  have hend (u : State) (r : QpId × Nat) :
      u.changesOnly [.qps, .tags, .bays] (if (u.cmd? r.1 r.2).isSome then u.finish r.1 r.2 0 stSuccess 0 0 0 else u) :=
    changesOnly_ite (changesOnly_mono (finish_changesOnly _ _ _ _ _ _ _ _) (by simp)) (changesOnly_refl _ u)
  unfold endReleases
  exact changesOnly_ite (changesOnly_refl _ s)
    (changesOnly_trans (changesOnly_mono (modBay_changesOnly s b _) (by simp)) (changesOnly_foldl _ hend _ _))

theorem settleBay_changesOnly (s : State) (b : Nat) : s.changesOnly [.qps, .tags, .bays] (settleBay s b) := by
  have hloaded (u : State) : u.changesOnly [.qps, .tags, .bays] (toLoaded u b) := changesOnly_mono (toLoaded_changesOnly u b) (by simp)
  have hreleased := endReleases_changesOnly s b
  unfold settleBay
  refine changesOnly_ite (changesOnly_refl _ s) ?_
  split
  · exact changesOnly_trans hreleased (hloaded _)
  · exact changesOnly_ite hreleased (changesOnly_ite (changesOnly_trans hreleased (hloaded _))
      (changesOnly_ite (changesOnly_trans hreleased (hloaded _)) hreleased))
  · exact changesOnly_ite (hloaded s) (changesOnly_refl _ s)
  · exact changesOnly_ite (changesOnly_mono (modBay_changesOnly s b _) (by simp)) (hloaded s)
  · exact changesOnly_refl _ s

theorem abortDisc_changesOnly (s : State) (b : Nat) : s.changesOnly closeParts (abortDisc s b) := by
  have hreads (l : List Cmd) : s.changesOnly closeParts (l.foldl (fun a c => endRead a c stAborted) s) :=
    changesOnly_foldl _ (fun u c => changesOnly_mono (endRead_changesOnly u c _) (by simp)) l s
  have hrows (l : List Nat) (u : State) (c : Nat) (f : State → Nat → Rebuild → Rebuild) :
      u.changesOnly closeParts (l.foldl (fun a m => a.modSession c (f a m)) u) :=
    changesOnly_foldl _ (fun v m => changesOnly_mono (modSession_changesOnly v c _) (by simp)) l u
  have hend (u : State) (r : Recovery) : u.changesOnly closeParts (abortRuns s (sessionsStep { u with recov := r })) :=
    changesOnly_trans (changesOnly_mono (withRecov_changesOnly u r) (by simp))
      (changesOnly_trans (changesOnly_mono (sessionsStep_changesOnly _) (by simp))
        (changesOnly_mono (abortRuns_changesOnly s _) (by simp)))
  unfold abortDisc
  refine changesOnly_trans ?_ (hend _ _)
  split
  · exact hreads _
  · split
    · exact hreads _
    · exact changesOnly_trans (hreads _) (hrows _ _ _ _)

theorem goRelease_changesOnly (s : State) (b : Nat) (q : QpId) (tag : Nat) : s.changesOnly closeParts (goRelease s b q tag) := by
  have hdown (u : State) : u.changesOnly closeParts
      (if (u.bay b).state = .safe ∨ (u.bay b).state = .spinDown then u else u.enterSpindown b) :=
    changesOnly_ite (changesOnly_refl _ u) (changesOnly_mono (enterSpindown_changesOnly u b) (by simp))
  unfold goRelease
  exact changesOnly_trans (abortDisc_changesOnly s b) (changesOnly_trans (changesOnly_mono (modBay_changesOnly _ b _) (by simp))
    (changesOnly_trans (hdown _) (changesOnly_mono (settleBay_changesOnly _ b) (by simp))))

/-! ## A course is freed, ready, or not opened (R377) -/

theorem freeCourse_changesOnly (s : State) (h : Nat) : s.changesOnly closeParts (freeCourse s h) := by
  have hbays (l : List BayId) (u : State) :
      u.changesOnly closeParts (l.foldl (fun (a : State) (b : BayId) => a.modBay b.val fun y => { y with write := none }) u) :=
    changesOnly_foldl _ (fun v (b : BayId) => changesOnly_mono (modBay_changesOnly v b.val _) (by simp)) l u
  unfold freeCourse
  refine changesOnly_trans (changesOnly_mono (abortAppends_changesOnly s h) (by simp)) ?_
  refine changesOnly_trans ?_ (changesOnly_mono (withCourses_changesOnly _ _) (by simp))
  split
  · exact hbays _ _
  · exact changesOnly_refl _ _

theorem openDone_changesOnly (s : State) (h : Nat) : s.changesOnly closeParts (openDone s h) := by
  have hmembers (l : List BayId) (u : State) (f : WriteSess → WriteSess) (g : Disc → Disc) :
      u.changesOnly closeParts (l.foldl (fun a (b : BayId) => (a.modWrite b.val f).modDisc b.val g) u) :=
    changesOnly_foldl _ (fun v (b : BayId) => changesOnly_mono
      (changesOnly_trans (modBay_changesOnly v b.val _) (modBay_changesOnly _ b.val _)) (by simp)) l u
  have hcourse (f : Course → Course) : s.changesOnly closeParts (s.modCourse h f) :=
    changesOnly_mono (modCourse_changesOnly s h f) (by simp)
  have hended (u : State) (n : Nat) (q : QpId) (tag st c : Nat) :
      u.changesOnly closeParts (({ u with nextHandle := n } : State).finish q tag 0 st 0 c 0) :=
    changesOnly_trans (changesOnly_mono (withNextHandle_changesOnly u n) (by simp))
      (changesOnly_mono (finish_changesOnly _ _ _ _ _ _ _ _) (by simp))
  unfold openDone
  split
  · exact changesOnly_refl _ s
  split
  · exact changesOnly_refl _ s
  exact changesOnly_ite (freeCourse_changesOnly s h)
    (changesOnly_trans (hcourse _) (changesOnly_trans (hmembers _ _ _ _) (hended _ _ _ _ _ _)))

theorem openFails_changesOnly (s : State) (h st i : Nat) : s.changesOnly closeParts (openFails s h st i) := by
  unfold openFails
  split
  · exact changesOnly_refl _ s
  refine changesOnly_trans ?_ (freeCourse_changesOnly _ h)
  split
  · exact changesOnly_ite (changesOnly_mono (finish_changesOnly _ _ _ _ _ _ _ _) (by simp)) (changesOnly_refl _ s)
  · exact changesOnly_refl _ s

/-! ## The end of a close (R190, R193, R196) -/

theorem endClose_changesOnly (s : State) (c : Course) (w : CloseWait) : s.changesOnly closeParts (endClose s c w) := by
  unfold endClose
  split
  · exact changesOnly_trans (freeCourse_changesOnly s _) (goRelease_changesOnly _ _ _ _)
  · have hend : s.changesOnly closeParts
        (if (s.cmd? w.q w.tag).isSome then s.finish w.q w.tag 0 stSuccess 0 0 noneLost else s) :=
      changesOnly_ite (changesOnly_mono (finish_changesOnly _ _ _ _ _ _ _ _) (by simp)) (changesOnly_refl _ s)
    exact changesOnly_ite (changesOnly_trans hend (freeCourse_changesOnly _ _)) hend

theorem closeEnds_changesOnly (s : State) (h : Nat) : s.changesOnly closeParts (closeEnds s h) := by
  have hcourse (u : State) (f : Course → Course) : u.changesOnly closeParts (u.modCourse h f) :=
    changesOnly_mono (modCourse_changesOnly u h f) (by simp)
  have hended (f g : Course → Course) (c : Course) (l : List CloseWait) :
      s.changesOnly closeParts (l.foldl (fun a w => endClose a c w) ((s.modCourse h f).modCourse h g)) :=
    changesOnly_trans (hcourse s f) (changesOnly_trans (hcourse _ g) (changesOnly_foldl _ (fun v w => endClose_changesOnly v c w) l _))
  unfold closeEnds
  split
  · exact changesOnly_refl _ s
  refine changesOnly_ite (changesOnly_refl _ s) (changesOnly_ite ?_ ?_)
  · exact changesOnly_ite (changesOnly_trans (hcourse s _) (openDone_changesOnly _ h)) (hcourse s _)
  · exact changesOnly_ite (changesOnly_trans (hended _ _ _ _) (changesOnly_mono (stopCourse_changesOnly _ h .full) (by simp)))
      (hended _ _ _ _)

theorem memberClosed_changesOnly (s : State) (b h : Nat) : s.changesOnly closeParts (memberClosed s b h) := by
  unfold memberClosed
  exact changesOnly_trans (changesOnly_mono (modBay_changesOnly s b _) (by simp))
    (changesOnly_trans (closeEnds_changesOnly _ h) (changesOnly_mono (sessionsStep_changesOnly _) (by simp)))

theorem memberFull_changesOnly (s : State) (b h : Nat) : s.changesOnly closeParts (memberFull s b h) := by
  unfold memberFull
  exact changesOnly_trans (changesOnly_mono (modBay_changesOnly s b _) (by simp)) (memberClosed_changesOnly _ b h)

theorem cannotCommit_changesOnly (s : State) (b : Nat) (c : Course) : s.changesOnly closeParts (cannotCommit s b c) := by
  have hlogged : s.changesOnly closeParts (s.logFree .mount 0x0504 b) := changesOnly_mono (logFree_changesOnly s _ _ _) (by simp)
  exact changesOnly_trans hlogged (changesOnly_ite
    (changesOnly_trans (openFails_changesOnly _ _ _ _) (changesOnly_mono (sessionsStep_changesOnly _) (by simp)))
    (changesOnly_mono (stopCourse_changesOnly _ _ .stopped) (by simp)))

end Sys2Proof.Proofs
end

section
/-! SUPPORT. The close of write sessions and their updates, and the statement about it (R59, R190 to R192, R199). -/

namespace Sys2Proof.Proofs

open Sys2Proof Sys2Proof.Machine Sys2Proof.Laws

/-! ## The close is due (R190) -/

theorem noteClose_of_closing {s : State} {h m : Nat} {c : Course} (hc : s.course? h = some c) (hclosing : c.closing = some m)
    (idle : Bool) : noteClose s h idle = s := by
  simp [noteClose, hc, hclosing]

theorem le_foldl_max (l : List Nat) (a : Nat) : a ≤ l.foldl max a := by
  induction l generalizing a with
  | nil => exact Nat.le_refl a
  | cons x r ih => exact Nat.le_trans (Nat.le_max_left a x) (ih _)

/-- The rows that a course's open sessions are bound for. -/
def boundRows (s : State) (c : Course) : List Nat :=
  c.bays.filterMap fun b => (s.bay b.val).write.map fun w => w.base c.dtype + limitBlock s c b.val w

theorem boundRows_isEmpty {s : State} {c : Course} {b : BayId} (hb : b ∈ c.bays) (hwrite : (s.bay b.val).write.isSome) :
    (boundRows s c).isEmpty = false := by
  obtain ⟨w, hw⟩ := Option.isSome_iff_exists.1 hwrite
  rw [List.isEmpty_eq_false_iff_exists_mem]
  exact ⟨_, List.mem_filterMap.2 ⟨b, hb, by rw [hw]; rfl⟩⟩

/-- A close that idleness asks for is bound for the furthest of these rows, or for the rows committed. -/
theorem noteClose_idle {s : State} {h : Nat} {c : Course} (hc : s.course? h = some c) (hclosing : c.closing = none)
    (hopening : c.opening = none) (hstopped : c.stopped = false) (hbound : (boundRows s c).isEmpty = false) :
    noteClose s h true = s.modCourse h fun k => { k with closing := some ((boundRows s c).foldl max k.committed) } := by
  unfold noteClose
  rw [hc]
  rw [boundRows] at hbound
  simp only [hclosing, hopening, hstopped, hbound, Bool.or_true, Option.isSome_none, Bool.false_eq_true, Bool.true_eq_false, or_self,
    if_false]
  rfl

theorem course?_modCourse_same {s : State} {h : Nat} {c : Course} (hc : s.course? h = some c) {f : Course → Course}
    (hf : ∀ c, (f c).handle = c.handle) : (s.modCourse h f).course? h = some (f c) := by
  rw [course?_modCourse s h h hf, hc, Option.map_some, if_pos (course?_handle hc)]

theorem exec_sessionIdleExpiry_early {h : Nat} {c : Course} {s : State} (hc : s.course? h = some c)
    (hearly : s.now < c.lastData + 200000 * s.pnat 0x0515 0) : exec (.sessionIdleExpiry h) s = .next s := by
  have hexec : exec (.sessionIdleExpiry h) s = execSessionIdleExpiry h s := rfl
  simp [hexec, execSessionIdleExpiry, hc, secs, Nat.not_le.2 hearly]

theorem exec_sessionIdleExpiry_passed {h : Nat} {c : Course} {s : State} (hc : s.course? h = some c)
    (hpassed : c.lastData + 200000 * s.pnat 0x0515 0 ≤ s.now) (hruns : s.fwRuns = true) :
    exec (.sessionIdleExpiry h) s = .next (noteClose s h true) := by
  have hexec : exec (.sessionIdleExpiry h) s = execSessionIdleExpiry h s := rfl
  simp [hexec, execSessionIdleExpiry, hc, secs, hpassed, hruns]

/-! ## The members close together (R190) -/

/-- A session's updates are planned: the first of them comes next, with a SEALED update where the course is sealed and ends here. -/
structure PlansUpdates (c : Course) (m : Nat) (v : WriteSess) : Prop where
  phase : v.phase = .updating
  tries : v.updateTries = 0
  sealing : v.sealDue = (c.sealed && decide (c.rowsBegun ≤ m))

theorem closeMember_changesOnly (s : State) (c : Course) (m : Nat) (b : BayId) : s.changesOnly [.bays, .courses] (closeMember s c m b) := by
  unfold closeMember
  split
  · exact changesOnly_ite (changesOnly_mono (modBay_changesOnly s b.val _) (by simp))
      (changesOnly_trans (changesOnly_mono (modBay_changesOnly s b.val _) (by simp))
        (changesOnly_mono (modCourse_changesOnly _ _ _) (by simp)))
  · exact changesOnly_refl _ s

theorem closeMember_onlyBay (s : State) (c : Course) (m : Nat) (b : BayId) : s.onlyBay b.val (closeMember s c m b) := by
  unfold closeMember
  split
  · dsimp only
    split
    · exact modBay_onlyBay s b.val _
    · exact onlyBay_trans (modBay_onlyBay s b.val _) (onlyBay_of_bays_eq _ (modCourse_changesOnly _ _ _ .bays (by simp)))
  · exact onlyBay_refl _ s

theorem course?_modCourse_bays {s : State} {h : Nat} {k : Course} (hk : s.course? h = some k) (g : Nat) {f : Course → Course}
    (hf : ∀ c, (f c).handle = c.handle) (hbays : ∀ c, (f c).bays = c.bays) :
    ∃ k', (s.modCourse g f).course? h = some k' ∧ k'.bays = k.bays := by
  refine ⟨if k.handle = g then f k else k, by rw [course?_modCourse s g h hf, hk]; rfl, ?_⟩
  split
  · exact hbays k
  · rfl

/-- A member's close leaves every course its handle and its members. -/
theorem closeMember_course? {s : State} {c k : Course} {h : Nat} (hk : s.course? h = some k) (m : Nat) (b : BayId) :
    ∃ k', (closeMember s c m b).course? h = some k' ∧ k'.bays = k.bays := by
  unfold closeMember
  split
  · dsimp only
    split
    · exact ⟨k, hk, rfl⟩
    · exact course?_modCourse_bays (by exact hk) c.handle (fun _ => rfl) (fun _ => rfl)
  · exact ⟨k, hk, rfl⟩

/-- A session whose updates are planned for its rows below m. -/
def plannedSession (c : Course) (m : Nat) (d : Disc) (w v : WriteSess) : WriteSess :=
  { v with phase := .updating, todo := (planUpdates d w (min c.dtype.blocks (m - w.base c.dtype))).1
           restate := (planUpdates d w (min c.dtype.blocks (m - w.base c.dtype))).2.getD 0
           restating := (planUpdates d w (min c.dtype.blocks (m - w.base c.dtype))).2.isSome
           sealDue := c.sealed && decide (c.rowsBegun ≤ m), contentDone := !(w.recorded || !w.entries.isEmpty)
           updateTries := 0 }

theorem closeMember_eq_of_recorded {s : State} {b : BayId} {w : WriteSess} {d : Disc} (hwrite : (s.bay b.val).write = some w)
    (hdisc : (s.bay b.val).disc = some d) (hrecorded : w.recorded = true) (c : Course) (m : Nat) :
    closeMember s c m b = s.modWrite b.val (plannedSession c m d w) := by
  unfold closeMember
  rw [hwrite, hdisc]
  exact if_pos (.inl (by rw [hrecorded]; rfl))

theorem closeMember_recorded {s : State} {b : BayId} {w : WriteSess} {d : Disc} (hwrite : (s.bay b.val).write = some w)
    (hdisc : (s.bay b.val).disc = some d) (hrecorded : w.recorded = true) (c : Course) (m : Nat) :
    ∃ v : WriteSess, ((closeMember s c m b).bay b.val).write = some v ∧ ((closeMember s c m b).bay b.val).disc = some d ∧
      v.seq = w.seq ∧ v.recorded = true ∧ PlansUpdates c m v := by
  rw [closeMember_eq_of_recorded hwrite hdisc hrecorded]
  refine ⟨plannedSession c m d w w, ?_, ?_, rfl, hrecorded, ⟨rfl, rfl, rfl⟩⟩
  · rw [modWrite_write, hwrite]
    rfl
  · exact ((modWrite_everyBay s b.val _) b.val .disc (by simp)).trans hdisc

/-- The close of a course's members, one after the other. -/
def closeMembers (s : State) (c : Course) (m : Nat) (l : List BayId) : State := l.foldl (fun a b => closeMember a c m b) s

theorem closeMembers_changesOnly (s : State) (c : Course) (m : Nat) (l : List BayId) :
    s.changesOnly [.bays, .courses] (closeMembers s c m l) :=
  changesOnly_foldl _ (fun u b => closeMember_changesOnly u c m b) l s

theorem closeMembers_course? {s : State} {c k : Course} {h : Nat} (hk : s.course? h = some k) (m : Nat) (l : List BayId) :
    ∃ k', (closeMembers s c m l).course? h = some k' ∧ k'.bays = k.bays := by
  induction l generalizing s k with
  | nil => exact ⟨k, hk, rfl⟩
  | cons x r ih =>
    obtain ⟨k', hk', hbays⟩ := closeMember_course? (c := c) hk m x
    obtain ⟨k'', hk'', hbays'⟩ := ih hk'
    exact ⟨k'', hk'', hbays'.trans hbays⟩

/-- A session that has recorded is planned when its member's turn comes, and stays so while the others close. -/
theorem closeMembers_recorded {s : State} {b : BayId} {w : WriteSess} {d : Disc} {c : Course} {m : Nat} {l : List BayId}
    (hwrite : (s.bay b.val).write = some w) (hdisc : (s.bay b.val).disc = some d) (hrecorded : w.recorded = true)
    (hplan : b ∈ l ∨ PlansUpdates c m w) :
    ∃ v : WriteSess, ((closeMembers s c m l).bay b.val).write = some v ∧ v.seq = w.seq ∧ PlansUpdates c m v := by
  induction l generalizing s w with
  | nil => exact ⟨w, hwrite, rfl, hplan.resolve_left (by simp)⟩
  | cons x r ih =>
    by_cases hx : x = b
    · subst hx
      obtain ⟨v, hv, hd, hseq, hrec, hplans⟩ := closeMember_recorded hwrite hdisc hrecorded c m
      obtain ⟨u, hu, huseq, huplans⟩ := ih hv hd hrec (.inr hplans)
      exact ⟨u, hu, huseq.trans hseq, huplans⟩
    · have hbay := closeMember_onlyBay s c m x b.val (fun hb => hx (Fin.ext hb.symm))
      refine ih (hbay ▸ hwrite) (hbay ▸ hdisc) hrecorded (hplan.imp_left fun hb => ?_)
      exact (List.mem_cons.1 hb).resolve_left (Ne.symm hx)

/-- While a member's updates are still to come, the close has not ended. -/
theorem closeEnds_of_updating {s : State} {h : Nat} {c : Course} {b : BayId} {w : WriteSess} (hc : s.course? h = some c) (hb : b ∈ c.bays)
    (hwrite : (s.bay b.val).write = some w) (hphase : w.phase = .updating) : closeEnds s h = s := by
  unfold closeEnds
  rw [hc]
  exact if_pos (List.any_eq_true.2 ⟨b, hb, by simp [hwrite, hphase]⟩)

theorem exec_sessionClose_closes {h m : Nat} {c : Course} {s : State} (hc : s.course? h = some c) (hclosing : c.closing = some m)
    (hruns : s.fwRuns = true) (hready : ∀ x ∈ c.bays, parked s x.val = false ∧ atClose s c m x.val = true) :
    exec (.sessionClose h) s = .next (closeEnds (closeMembers s c m c.bays) h) := by
  have hexec : exec (.sessionClose h) s = execSessionClose h s := rfl
  have hparked : c.bays.any (fun b => parked s b.val) = false := by
    simpa using fun x hx => (hready x hx).1
  have hall : c.bays.all (fun b => atClose s c m b.val) = true := List.all_eq_true.2 fun x hx => (hready x hx).2
  rw [hexec, execSessionClose, noteClose_of_closing hc hclosing, hc]
  simp [hclosing, hruns, hparked, hall]
  rfl

theorem exec_sessionClose_parked {h m : Nat} {c : Course} {b : BayId} {s : State} (hc : s.course? h = some c)
    (hclosing : c.closing = some m) (hb : b ∈ c.bays) (hparked : parked s b.val = true) : exec (.sessionClose h) s = .next s := by
  have hexec : exec (.sessionClose h) s = execSessionClose h s := rfl
  have hany : c.bays.any (fun b => parked s b.val) = true := List.any_eq_true.2 ⟨b, hb, hparked⟩
  rw [hexec, execSessionClose, noteClose_of_closing hc hclosing, hc]
  simp [hclosing, hany]

/-- A member at the close has its disc. -/
theorem disc_of_atClose {s : State} {c : Course} {m b : Nat} (h : atClose s c m b = true) : ∃ d, (s.bay b).disc = some d := by
  unfold atClose at h
  split at h
  next hd => exact ⟨_, hd⟩
  next hd => exact ⟨_, hd⟩
  next => exact absurd h (by simp)

/-! ## The updates (R59, R191, R192) -/

/-- The update that a member records next in a close. -/
def memberUpdate (c : Course) (d : Disc) (w : WriteSess) : DmaUpdate :=
  (nextContent d w (min d.dtype.blocks ((c.closing.getD c.committed) - w.base d.dtype))).1

theorem memberUpdate_entries (c : Course) (d : Disc) (w : WriteSess) : (memberUpdate c d w).entries.length ≤ 2032 := by
  unfold memberUpdate nextContent
  rw [List.length_map]
  exact List.length_take_le _ _

/-- Both copies of an update, part by part. -/
def updateCopies (b : BayId) (t : DiscType) (u : DmaUpdate) : List Output :=
  [false, true].flatMap fun copyB => (List.range 4).map fun p =>
    .recordSystem b ⟨.leadOut, 0, Fin.ofNat 8 (1 + p), dmaSlot copyB u.number⟩ (linked (decide (0 < u.number)) false
      (slotCells t (systemSector (lsnUpdate u.number p) u.seq ((u.bytes.drop (4096 * p)).take 4096)) 64))

theorem recordUpdate_eq (s : State) (b : BayId) (t : DiscType) (u : DmaUpdate) :
    recordUpdate s b t u = { s with sent := s.sent ++ updateCopies b t u } := by
  simp only [recordUpdate, List.foldl_cons, List.foldl_nil, foldl_send_eq, updateCopies, List.flatMap_cons, List.flatMap_nil,
    List.append_nil, List.append_assoc]

/-- What follows an update of which neither copy is valid: its number is spent, and a second failure of the same content
stops the course (R192). -/
def updateSpent (s : State) (b : BayId) (c : Course) (d : Disc) (w : WriteSess) : State :=
  let u := (recordUpdate s b d.dtype (memberUpdate c d w)).modDisc b.val fun d => { d with nextUpdate := d.nextUpdate + 1 }
  if 2 ≤ w.updateTries + 1 then cannotCommit u b.val c else u.modWrite b.val fun w => { w with updateTries := w.updateTries + 1 }

theorem updateSpent_first {s : State} {b : BayId} {d : Disc} {w : WriteSess} (hdisc : (s.bay b.val).disc = some d)
    (hwrite : (s.bay b.val).write = some w) (c : Course) (htries : w.updateTries = 0) :
    ((updateSpent s b c d w).bay b.val).disc = some { d with nextUpdate := d.nextUpdate + 1 } ∧
      ((updateSpent s b c d w).bay b.val).write = some { w with updateTries := 1 } := by
  have hbays : (recordUpdate s b d.dtype (memberUpdate c d w)).bay b.val = s.bay b.val :=
    bay_eq_of_bays_eq (by rw [recordUpdate_eq]) b.val
  rw [updateSpent, if_neg (by omega)]
  constructor
  · rw [(modWrite_everyBay _ b.val _) b.val .disc (by simp), modDisc_disc, hbays, hdisc]
    rfl
  · rw [modWrite_write, (modDisc_everyBay _ b.val _) b.val .write (by simp), hbays, hwrite, Option.map_some, htries]

theorem updateSpent_second {s : State} {b : BayId} {c : Course} {d : Disc} {w : WriteSess} (hopening : c.opening = none)
    (htries : 1 ≤ w.updateTries) : ∀ k ∈ (updateSpent s b c d w).courses, k.handle = c.handle → k.stopped = true := by
  rw [updateSpent, if_pos (by omega), cannotCommit, hopening]
  exact stopCourse_stopped _ c.handle

section
variable {b : BayId} {c : Course} {d : Disc} {w : WriteSess} {s : State} (hcourse : s.courseOfBay b.val = some c)
  (hdisc : (s.bay b.val).disc = some d) (hwrite : (s.bay b.val).write = some w) (hphase : w.phase = .updating)
  (hmay : mayWrite s b.val = true)
include hcourse hdisc hwrite hphase hmay

/-- A blank number is recorded; what follows sends nothing more. -/
theorem exec_dmaUpdateReadback_records (x y : Bool) (hnumber : d.nextUpdate < updateSlots d.issue) :
    completes (.dmaUpdateReadback b true x y) s fun t => (recordUpdate s b d.dtype (memberUpdate c d w)).changesOnly closeParts t := by
  have hexec : exec (.dmaUpdateReadback b true x y) s = execDmaUpdateReadback b true x y s := rfl
  have hbay (u : State) (f : Bay → Bay) : u.changesOnly closeParts (u.modBay b.val f) :=
    changesOnly_mono (modBay_changesOnly u b.val f) (by simp)
  unfold completes
  rw [hexec, execDmaUpdateReadback, hcourse, hdisc, hwrite]
  simp only [hphase, hmay, Nat.not_le.2 hnumber, ne_eq, not_true, Bool.true_eq_false, or_self, if_false]
  split
  · exact ⟨_, rfl, changesOnly_trans (hbay _ _) (changesOnly_trans (hbay _ _)
      (changesOnly_ite (memberClosed_changesOnly _ b.val c.handle) (changesOnly_refl _ _)))⟩
  · exact ⟨_, rfl, changesOnly_trans (hbay _ _) (changesOnly_ite (memberFull_changesOnly _ b.val c.handle)
      (changesOnly_ite (cannotCommit_changesOnly _ b.val c) (hbay _ _)))⟩

theorem exec_dmaUpdateReadback_notBlank (x y : Bool) (hnumber : d.nextUpdate + 1 < updateSlots d.issue) :
    exec (.dmaUpdateReadback b false x y) s = .next (s.modDisc b.val fun d => { d with nextUpdate := d.nextUpdate + 1 }) := by
  have hexec : exec (.dmaUpdateReadback b false x y) s = execDmaUpdateReadback b false x y s := rfl
  rw [hexec, execDmaUpdateReadback, hcourse, hdisc, hwrite]
  simp [hphase, hmay, Nat.not_le.2 hnumber, Nat.not_le.2 (Nat.lt_of_succ_lt hnumber)]

theorem exec_dmaUpdateReadback_notValid (hnumber : d.nextUpdate + 1 < updateSlots d.issue) :
    exec (.dmaUpdateReadback b true false false) s = .next (updateSpent s b c d w) := by
  have hexec : exec (.dmaUpdateReadback b true false false) s = execDmaUpdateReadback b true false false s := rfl
  rw [hexec, execDmaUpdateReadback, hcourse, hdisc, hwrite]
  simp only [hphase, hmay, Nat.not_le.2 hnumber, Nat.not_le.2 (Nat.lt_of_succ_lt hnumber), ne_eq, not_true, Bool.true_eq_false, or_self,
    Bool.false_eq_true, decide_false, if_false]
  rfl

end

/-- Settles O44, clause by clause: the close is due, the members close together, and their updates are recorded or spent. -/
theorem sessionsCloseWithTheirUpdates : Obligations.SessionsCloseWithTheirUpdates := by
  unfold Obligations.SessionsCloseWithTheirUpdates
  refine ⟨fun h c s hc hearly => exec_sessionIdleExpiry_early hc hearly, ?idle, ?close,
    fun h m c b s hc hclosing hb hparked => exec_sessionClose_parked hc hclosing hb hparked, ?recorded, ?notBlank, ?notValid⟩
  case idle =>
    intro h c b s hc hpassed hruns hclosing hopening hstopped hb hwrite
    have hdue := noteClose_idle hc hclosing hopening hstopped (boundRows_isEmpty hb hwrite)
    refine ⟨_, exec_sessionIdleExpiry_passed hc hpassed hruns, ?_, noteClose_changesOnly s h true⟩
    exact hdue ▸ ⟨_, _, course?_modCourse_same hc fun _ => rfl, rfl, le_foldl_max _ _, rfl⟩
  case close =>
    intro h m c b w s hc hclosing hruns hready hb hwrite hrecorded
    obtain ⟨d, hdisc⟩ := disc_of_atClose (hready b hb).2
    obtain ⟨v, hv, hseq, hplans⟩ := closeMembers_recorded hwrite hdisc hrecorded (.inl hb) (c := c) (m := m)
    obtain ⟨k, hk, hbays⟩ := closeMembers_course? (c := c) hc m c.bays
    have hends := closeEnds_of_updating hk (hbays ▸ hb) hv hplans.phase
    refine ⟨_, (exec_sessionClose_closes hc hclosing hruns hready).trans (by rw [hends]), ?_, closeMembers_changesOnly s c m c.bays⟩
    exact ⟨v, hv, hplans.phase, hseq, hplans.tries, hplans.sealing⟩
  case recorded =>
    intro b x y c d w s hcourse hdisc hwrite hphase hmay hnumber
    obtain ⟨t, ht, hframe⟩ := exec_dmaUpdateReadback_records hcourse hdisc hwrite hphase hmay x y hnumber
    refine ⟨t, ht, memberUpdate c d w, [], ?_, rfl, rfl, rfl, memberUpdate_entries c d w⟩
    rw [List.append_nil]
    exact (hframe .sent (by simp)).trans (by rw [recordUpdate_eq]; rfl)
  case notBlank =>
    intro b x y c d w s hcourse hdisc hwrite hphase hmay hnumber
    refine ⟨_, exec_dmaUpdateReadback_notBlank hcourse hdisc hwrite hphase hmay x y hnumber, ?_, ?_, modBay_onlyBay s b.val _,
      modBay_changesOnly s b.val _⟩
    · rw [modDisc_disc, hdisc]
      rfl
    · exact ((modDisc_everyBay s b.val _) b.val .write (by simp)).trans hwrite
  case notValid =>
    intro b c d w s hcourse hdisc hwrite hphase hmay hnumber hopening
    exact ⟨_, exec_dmaUpdateReadback_notValid hcourse hdisc hwrite hphase hmay hnumber, updateSpent_first hdisc hwrite c,
      updateSpent_second hopening⟩

end Sys2Proof.Proofs
end

section
/-! SUPPORT. The statement about MOUNT and RELEASE, which fails where two courses bear one handle (R378). -/

namespace Sys2Proof.Proofs

open Sys2Proof Sys2Proof.Machine Sys2Proof.Laws

/-- RELEASE of bay 0 on queue pair 1, taken and not yet run. -/
def releaseOfBay : Cmd := { (default : Cmd) with q := .data 1, sqe := { (default : DataSqe) with opcode := opRelease } }

/-- The plain course with one row of 28 CSNs appended and not committed. -/
def rowAppended : Course := { plainCourse with nextCsn := 28 }

/-- An engine with a disc in bay 0, a member of the course with its row appended; behind that course the list holds a stopped one
without a row under the same handle. -/
def releaseOnSharedHandle : State :=
  { State.reset with
    mode := .active
    tags := [releaseOfBay]
    bays := [(0, { disc := some default })]
    courses := [rowAppended, { plainCourse with stopped := true }] }

/-- RELEASE names the bay in both courses, and each waits for the rows that its own next CSN has filled: one, and none. -/
theorem exec_release_sharedHandle : ∃ t, exec (.release (.data 1) 0) releaseOnSharedHandle = .next t ∧
    t.courses.map (fun k => k.waits.map (·.upTo)) = [[1], [0]] :=
  ⟨_, rfl, by decide⟩

theorem releaseOfBay_toRun : releaseOnSharedHandle.toRun (.data 1) 0 .releaseBay releaseOfBay where
  found := rfl
  fresh := rfl
  kind := rfl
  serves := rfl
  range := rfl

/-- Refutes O27 in its last clause: of every course under the handle the statement says that it waits for the rows of the course
whose member the bay holds, and the model has each of them wait for its own. The statement does not ask that handles differ. -/
theorem not_mountsAndReleasesMoveTheirBay : ¬ Obligations.MountsAndReleasesMoveTheirBay := by
  unfold Obligations.MountsAndReleasesMoveTheirBay
  rintro ⟨-, -, -, -, -, -, -, hwaits⟩
  obtain ⟨t, hexec, hcourses, -⟩ := hwaits (.data 1) 0 releaseOfBay default rowAppended releaseOnSharedHandle releaseOfBay_toRun
    rfl rfl rfl (by decide)
  obtain ⟨u, hu, hupTo⟩ := exec_release_sharedHandle
  cases hexec.symm.trans hu
  rw [hcourses] at hupTo
  exact absurd hupTo (by decide)

end Sys2Proof.Proofs
end

section
/-! SUPPORT. What a read run survives: steps that touch of its bay the read channel alone, and there leave the run (R125). -/

namespace Sys2Proof.Proofs

open Sys2Proof Sys2Proof.Machine Sys2Proof.Laws

/-- From `s` to `t` the run of bay `b` goes on, no more of the bay changes than its read channel, no other bay changes, and of
the engine the listed parts alone. -/
structure KeepsRun (ps : List Part) (b : Nat) (s t : State) : Prop where
  run : (t.bay b).chan.run = (s.bay b).chan.run
  bay : (s.bay b).changesOnly [.chan] (t.bay b)
  others : s.onlyBay b t
  frame : s.changesOnly ps t

/-- The parts that a slot outside a run may touch, and those that a slot of a run may touch. -/
abbrev slotParts : List Part := [.bays, .beams, .logs, .events, .freeCtr]
abbrev runParts : List Part := .recov :: slotParts

section
variable {ps qs : List Part} {b : Nat} {s t u : State}

theorem keepsRun_of_bays_eq (h : t.bays = s.bays) (hf : s.changesOnly ps t) : KeepsRun ps b s t where
  run := by rw [bay_eq_of_bays_eq h]
  bay := everyBay_of_bays_eq _ h b
  others := onlyBay_of_bays_eq b h
  frame := hf

/-- A step that leaves the bays. -/
theorem keepsRun_of_changesOnly (h : s.changesOnly qs t) (hb : Part.bays ∉ qs) (hs : qs ⊆ ps) : KeepsRun ps b s t :=
  keepsRun_of_bays_eq (h .bays hb) (changesOnly_mono h hs)

theorem keepsRun_refl (ps : List Part) (b : Nat) (s : State) : KeepsRun ps b s s := keepsRun_of_bays_eq rfl (changesOnly_refl ps s)

theorem keepsRun_trans (h : KeepsRun ps b s t) (g : KeepsRun ps b t u) : KeepsRun ps b s u where
  run := g.run.trans h.run
  bay := bay_changesOnly_trans h.bay g.bay
  others := onlyBay_trans h.others g.others
  frame := changesOnly_trans h.frame g.frame

theorem keepsRun_mono (h : KeepsRun ps b s t) (hs : ps ⊆ qs) : KeepsRun qs b s t := { h with frame := changesOnly_mono h.frame hs }

theorem keepsRun_ite {p : Prop} [Decidable p] (h : p → KeepsRun ps b s t) (g : ¬p → KeepsRun ps b s u) :
    KeepsRun ps b s (if p then t else u) := by
  split
  next hp => exact h hp
  next hp => exact g hp

/-- Steps one after the other, each from a state that the run has come to. -/
theorem keepsRun_foldl {α : Type} {f : State → α → State} (h : ∀ v a, KeepsRun ps b s v → KeepsRun ps b v (f v a)) (l : List α) :
    KeepsRun ps b s (l.foldl f s) := by
  have hfrom (l : List α) (v : State) (hv : KeepsRun ps b s v) : KeepsRun ps b s (l.foldl f v) := by
    induction l generalizing v with
    | nil => exact hv
    | cons a r ih => exact ih _ (keepsRun_trans hv (h v a hv))
  exact hfrom l s (keepsRun_refl ps b s)

theorem modChan_keepsRun {f : Channel → Channel} (hf : (f (s.bay b).chan).run = (s.bay b).chan.run) :
    KeepsRun [.bays] b s (s.modChan b f) where
  run := by rw [modChan_chan, hf]
  bay := by rw [State.modChan, modBay_bay_same]; exact withChan_changesOnly _ _
  others := modBay_onlyBay s b _
  frame := modBay_changesOnly s b _

theorem modBeam_keepsRun (s : State) (b g : Nat) (f : Beam → Beam) : KeepsRun [.beams] b s (s.modBeam g f) :=
  keepsRun_of_changesOnly (modBeam_changesOnly s g f) (by simp) (by simp)

theorem bayLogFree_keepsRun (s : State) (b n code : Nat) : KeepsRun [.logs, .events, .freeCtr] b s (s.bayLogFree n code) :=
  keepsRun_of_changesOnly (logFree_changesOnly s _ _ _) (by simp) (by simp)

end

/-! ## The beams and the flywheel over a slot (R100 to R120) -/

theorem layerChange_keepsRun (s : State) (b layer : Nat) : KeepsRun slotParts b s (layerChange s b layer) := by
  unfold layerChange
  refine keepsRun_ite (fun _ => keepsRun_refl _ b s) fun _ => ?_
  exact keepsRun_trans (keepsRun_mono (modChan_keepsRun rfl) (by simp))
    (keepsRun_foldl (fun v n _ => keepsRun_mono (modBeam_keepsRun v b _ _) (by simp)) _)

theorem timingOut_keepsRun (s : State) (b : Nat) (e : Int) : KeepsRun slotParts b s (timingOut s b e) :=
  keepsRun_ite (fun _ => keepsRun_refl _ b s) fun _ => keepsRun_trans (keepsRun_mono (modChan_keepsRun rfl) (by simp))
    (keepsRun_mono (bayLogFree_keepsRun _ b b _) (by simp))

@[simp] theorem anchor_run (t : DiscType) (z : Zone) (slot : Nat) (c : Channel) : (c.anchor t z slot).run = c.run := by
  unfold Channel.anchor
  dsimp only
  split <;> rfl

@[simp] theorem ridgeEdge_run (n m : Nat) (flagged : Bool) (e : Int) (c : Channel) : (ridgeEdge n m flagged e c).run = c.run := by
  unfold ridgeEdge
  split <;> rfl

theorem foldl_run {α : Type} {f : Channel → α → Channel} (h : ∀ c a, (f c a).run = c.run) (l : List α) (c : Channel) :
    (l.foldl f c).run = c.run := by
  induction l generalizing c with
  | nil => rfl
  | cons a r ih => exact (ih _).trans (h c a)

@[simp] theorem ridgeAfter_run (s : State) (b : Nat) (t : DiscType) (o : SlotObs) (flags : List Bool) (c : Channel) :
    (ridgeAfter s b t o flags c).run = c.run := by
  unfold ridgeAfter
  split
  · rfl
  · exact foldl_run (fun d e => ridgeEdge_run _ _ _ _ d) _ c

@[simp] theorem flyAfter_run (t : DiscType) (m : Nat) (unlocked : Bool) (pos : Int) (found median : Option Int) (c : Channel) :
    (flyAfter t m unlocked pos found median c).run = c.run := by
  unfold flyAfter
  dsimp only
  split
  · split <;> rfl
  · split
    · rfl
    · split <;> rfl

@[simp] theorem trackSeam_run (t : Taps) (x : SeamSlot) (c : Channel) : (trackSeam t x c).run = c.run := by
  refine foldl_run (fun d v => ?_) _ c
  split <;> rfl

theorem settleUnsettled_keepsRun (s : State) (b : Nat) (xs : List BeamRead) : KeepsRun slotParts b s (settleUnsettled s xs).2 := by
  have hfresh : KeepsRun slotParts b s s.fresh.2 := keepsRun_of_changesOnly (fresh_changesOnly s) (by simp) (by simp)
  unfold settleUnsettled
  dsimp only
  split
  · exact keepsRun_refl _ b s
  · split <;> exact hfresh

theorem logCases_keepsRun (s : State) (b : Nat) (xs : List BeamRead) : KeepsRun slotParts b s (logCases s b xs) := by
  refine keepsRun_foldl (fun v x _ => ?_) xs
  split
  case h_5 => exact keepsRun_refl _ b v
  all_goals exact keepsRun_mono (bayLogFree_keepsRun v b b _) (by simp)

theorem seamFaults_keepsRun (s : State) (b : Nat) : KeepsRun slotParts b s (seamFaults s b) :=
  keepsRun_ite (fun _ => keepsRun_refl _ b s) fun _ => keepsRun_trans (keepsRun_mono (modChan_keepsRun rfl) (by simp))
    (keepsRun_trans (keepsRun_mono (modBeam_keepsRun _ b _ _) (by simp)) (keepsRun_mono (bayLogFree_keepsRun _ b b _) (by simp)))

theorem beamAdapts_keepsRun (s : State) (b n : Nat) (t : DiscType) (layer : Nat) (obs : List BeamObs) (blank : List Nat)
    (levels ys : List Int) (x : BeamRead) : KeepsRun slotParts b s (beamAdapts s n t layer obs blank levels ys x) :=
  keepsRun_ite (fun _ => keepsRun_mono (modBeam_keepsRun s b _ _) (by simp)) fun _ => keepsRun_refl _ b s

/-! ## The retry store (R132 to R134) -/

theorem dropRetry_keepsRun (s : State) (b a : Nat) : KeepsRun [.bays] b s (dropRetry s b a) := modChan_keepsRun rfl

theorem copyRetry_keepsRun (s : State) (b : Nat) (a : SlotAddr) (auto : Bool) : KeepsRun slotParts b s (copyRetry s b a auto) := by
  unfold copyRetry
  dsimp only
  split
  · exact keepsRun_refl _ b s
  refine keepsRun_ite (fun _ => keepsRun_refl _ b s) fun _ =>
    keepsRun_ite (fun _ => keepsRun_mono (modChan_keepsRun rfl) (by simp)) fun _ => ?_
  have hfull (f : Beam → Beam) : KeepsRun slotParts b s (s.modBeam (8 * b + a.spiral.val) f) :=
    keepsRun_mono (modBeam_keepsRun s b _ _) (by simp)
  have hnoted (u : State) : KeepsRun slotParts b u (u.modChan b fun c => { c with retryFullRun := true }) :=
    keepsRun_mono (modChan_keepsRun rfl) (by simp)
  have hlogged (u : State) : KeepsRun slotParts b u (u.bayLog b 0x0403 (addrOf a)) :=
    keepsRun_of_changesOnly (log_changesOnly u _ _ _ _) (by simp) (by simp)
  refine keepsRun_ite (fun _ => hfull _) fun _ => ?_
  exact keepsRun_trans (hfull _) (keepsRun_trans (hnoted _) (hlogged _))

theorem copyAtEnd_keepsRun (s : State) (b : Nat) (p : SlotReport) (m : Nat) : KeepsRun slotParts b s (copyAtEnd s b p m) :=
  keepsRun_ite (fun _ => copyRetry_keepsRun s b _ _) fun _ => keepsRun_refl _ b s

end Sys2Proof.Proofs
end

section
/-! SUPPORT. What a first decode that fails may touch: the recovery ladder, its log, and the retry store of its bay
(R140 to R157). -/

namespace Sys2Proof.Proofs

open Sys2Proof Sys2Proof.Machine Sys2Proof.Laws

/-- The parts that a ladder may touch, but for the retry store. -/
abbrev ladderParts : List Part := [.recov, .logs, .events, .freeCtr]

theorem modBlock_changesOnly (s : State) (b l n : Nat) (f : Block → Block) : s.changesOnly [.recov] (s.modBlock b l n f) :=
  withRecov_changesOnly s _

theorem modBlock_ladder (s : State) (b l n : Nat) (f : Block → Block) : s.changesOnly ladderParts (s.modBlock b l n f) :=
  changesOnly_mono (modBlock_changesOnly s b l n f) (by simp)

/-! ## From one step to the next (R142 to R149) -/

theorem passOver_changesOnly (s : State) (b l n k step : Nat) : s.changesOnly ladderParts (passOver s b l n k step) := by
  have hblock (f : Block → Block) : s.changesOnly ladderParts (s.modBlock b l n f) := modBlock_ladder s b l n f
  unfold passOver
  dsimp only
  split
  · exact changesOnly_trans (hblock _) (changesOnly_mono (recLog_changesOnly _ _) (by simp))
  · exact hblock _

theorem passOverBlock_changesOnly (s : State) (b l n step : Nat) : s.changesOnly ladderParts (passOverBlock s b l n step) := by
  unfold passOverBlock
  split
  · exact changesOnly_foldl _ (fun u k => passOver_changesOnly u b l n k step) _ s
  · exact changesOnly_refl _ s

theorem enterBlock_changesOnly (s : State) (b l n step : Nat) : s.changesOnly ladderParts (enterBlock s b l n step) := by
  unfold enterBlock
  split
  · exact changesOnly_foldl _ (fun u _ => changesOnly_mono (enterLog_changesOnly u _) (by simp)) _ s
  · exact changesOnly_refl _ s

theorem toCourse_changesOnly (s : State) (b l n : Nat) : s.changesOnly ladderParts (toCourse s b l n) := modBlock_ladder s b l n _

theorem ruleOut_changesOnly (s : State) (b l n : Nat) : s.changesOnly ladderParts (ruleOut s b l n) := modBlock_ladder s b l n _

theorem waitPass_changesOnly (s : State) (b l n st p : Nat) (r : Bool) : s.changesOnly ladderParts (waitPass s b l n st p r) := by
  have hentered : s.changesOnly ladderParts (match s.block? b l n with
      | some x => if (match x.phase with | .reread v _ => v == st | _ => false) then s else enterBlock s b l n st
      | none => s) := by
    split
    · exact changesOnly_ite (changesOnly_refl _ s) (enterBlock_changesOnly s b l n st)
    · exact changesOnly_refl _ s
  exact changesOnly_trans hentered (modBlock_ladder _ b l n _)

theorem toStep6_changesOnly (fuel : Nat) (s : State) (b l n p : Nat) : s.changesOnly ladderParts (toStep6 fuel s b l n p) := by
  have hgone (u : State) : u.changesOnly ladderParts (toCourse (passOverBlock u b l n 6) b l n) :=
    changesOnly_trans (passOverBlock_changesOnly u b l n 6) (toCourse_changesOnly _ b l n)
  have hruled (u : State) : u.changesOnly ladderParts (toCourse (ruleOut u b l n) b l n) :=
    changesOnly_trans (ruleOut_changesOnly u b l n) (toCourse_changesOnly _ b l n)
  induction fuel generalizing p with
  | zero => exact toCourse_changesOnly s b l n
  | succ fuel ih =>
    rw [toStep6]
    split
    · exact changesOnly_refl _ s
    refine changesOnly_ite (toCourse_changesOnly s b l n) (changesOnly_ite ?_ (changesOnly_ite (hgone s)
      (changesOnly_ite (hruled s) (changesOnly_ite (ih (p + 1)) (waitPass_changesOnly s b l n 6 p false)))))
    exact changesOnly_ite (waitPass_changesOnly s b l n 6 p true)
      (changesOnly_trans (passOverBlock_changesOnly s b l n 6) (hruled _))

theorem toStep5_changesOnly (s : State) (b l n p : Nat) : s.changesOnly ladderParts (toStep5 s b l n p) := by
  have hsix (u : State) : u.changesOnly ladderParts (toStep6 2 u b l n 1) := toStep6_changesOnly 2 u b l n 1
  have hruled (u : State) : u.changesOnly ladderParts (toStep6 2 (ruleOut u b l n) b l n 1) :=
    changesOnly_trans (ruleOut_changesOnly u b l n) (hsix _)
  unfold toStep5
  split
  · exact changesOnly_refl _ s
  refine changesOnly_ite (hsix s) (changesOnly_ite ?_ (changesOnly_ite (hruled s) (waitPass_changesOnly s b l n 5 p false)))
  exact changesOnly_ite (waitPass_changesOnly s b l n 5 p true)
    (changesOnly_trans (passOverBlock_changesOnly s b l n 5) (hruled _))

theorem blockComplete_changesOnly (s : State) (b l n : Nat) : s.changesOnly ladderParts (blockComplete s b l n) := by
  have hblock (f : Block → Block) : s.changesOnly ladderParts (s.modBlock b l n f) := modBlock_ladder s b l n f
  have hlate (f : Block → Block) : s.changesOnly ladderParts (toStep5 ((ruleOut s b l n).modBlock b l n f) b l n 1) :=
    changesOnly_trans (ruleOut_changesOnly s b l n) (changesOnly_trans (modBlock_ladder _ b l n f) (toStep5_changesOnly _ b l n 1))
  unfold blockComplete
  split
  · exact changesOnly_refl _ s
  refine changesOnly_ite (changesOnly_ite (hblock _) (changesOnly_refl _ s)) ?_
  split
  case h_3 => exact changesOnly_refl _ s
  all_goals exact changesOnly_ite (hblock _) (changesOnly_ite (hlate _) (hblock _))

/-! ## Steps 1 to 3 (R144 to R146) -/

theorem nextDecode_changesOnly {s t : State} {b l n k : Nat} {x : Block} {kept : Kept} {j : LdpcJob}
    (h : nextDecode s b l n k x kept = some (t, j)) : s.changesOnly [.recov] t := by
  have hcount {f : Block → Block} {d : LdpcJob} (hs : some (s.modBlock b l n f, d) = some (t, j)) : s.changesOnly [.recov] t := by
    cases hs
    exact modBlock_changesOnly s b l n f
  unfold nextDecode at h
  dsimp only at h
  split at h
  · cases h
  split at h
  · split at h
    · cases h
    · exact hcount h
  · split at h
    · cases h
    · exact hcount h
  · split at h
    · cases h
    split at h
    · cases h
    · exact hcount h

/-- Of the decodes of a step, whether one is sent or all are spent. -/
theorem runStep_changesOnly (fuel : Nat) (s : State) (b l n k : Nat) :
    (∀ t, (runStep fuel s b l n k).1 = some t → s.changesOnly [.recov] t) ∧ s.changesOnly [.recov] (runStep fuel s b l n k).2 := by
  induction fuel generalizing s with
  | zero => exact ⟨by simp [runStep], changesOnly_refl _ s⟩
  | succ fuel ih =>
    rw [runStep]
    split
    case h_2 => exact ⟨by simp, changesOnly_refl _ s⟩
    split
    · exact ⟨by simp, changesOnly_refl _ s⟩
    next s1 j hnext =>
      have hs1 := nextDecode_changesOnly hnext
      split
      · have hs2 := changesOnly_trans hs1 (modBlock_changesOnly s1 b l n fun x =>
          x.modSec k fun r => { r with carried := max r.carried r.step })
        exact ⟨fun t h => by cases h; exact changesOnly_trans hs2 (pushJob_changesOnly _ j), hs2⟩
      · obtain ⟨hsent, hspent⟩ := ih s1
        exact ⟨fun t h => changesOnly_trans hs1 (hsent t h), changesOnly_trans hs1 hspent⟩

theorem sectorFailed_keepsRun (s : State) (b l n k : Nat) : KeepsRun runParts b s (sectorFailed s b l n k) := by
  have hblock (f : Block → Block) : KeepsRun runParts b s (s.modBlock b l n f) :=
    keepsRun_of_changesOnly (modBlock_changesOnly s b l n f) (by simp) (by simp)
  have hjob (u : State) (a : SlotAddr) : KeepsRun runParts b u (u.dropJob b a) :=
    keepsRun_of_changesOnly (withRecov_changesOnly u _) (by simp) (by simp)
  have hended (u : State) (a : Nat) : KeepsRun runParts b u (blockComplete (dropRetry u b a) b l n) :=
    keepsRun_trans (keepsRun_mono (dropRetry_keepsRun u b a) (by simp))
      (keepsRun_of_changesOnly (blockComplete_changesOnly _ b l n) (by simp) (by simp))
  unfold sectorFailed
  dsimp only
  split
  · exact keepsRun_trans (hblock _) (keepsRun_trans (hjob _ _) (hended _ _))
  · exact keepsRun_trans (hblock _) (hended _ _)

theorem sectorStep_keepsRun (fuel : Nat) (s : State) (b l n k step : Nat) : KeepsRun runParts b s (sectorStep fuel s b l n k step) := by
  induction fuel generalizing s step with
  | zero => exact sectorFailed_keepsRun s b l n k
  | succ fuel ih =>
    unfold sectorStep
    split
    · exact keepsRun_refl _ b s
    dsimp only
    refine keepsRun_ite (fun _ => sectorFailed_keepsRun s b l n k) fun _ => keepsRun_ite (fun _ => ih s _) fun _ => ?_
    refine keepsRun_ite (fun _ => keepsRun_trans ?_ (ih _ _)) fun _ => keepsRun_ite (fun _ => ih s _) fun _ => ?_
    · exact keepsRun_of_changesOnly (passOver_changesOnly s b l n k step) (by simp) (by simp)
    have hbegun : s.changesOnly [.recov] (beginStep s b l n k step) := modBlock_changesOnly s b l n _
    obtain ⟨hsent, hspent⟩ := runStep_changesOnly 80 (beginStep s b l n k step) b l n k
    split
    next t ht => exact keepsRun_of_changesOnly (changesOnly_trans hbegun (hsent t ht)) (by simp) (by simp)
    next => exact keepsRun_trans (keepsRun_of_changesOnly (changesOnly_trans hbegun hspent) (by simp) (by simp)) (ih _ _)

theorem firstFailed_keepsRun (s : State) (b l n k : Nat) (deferred : Bool) : KeepsRun runParts b s (firstFailed s b l n k deferred) := by
  have hlogged (e : RecEntry) : KeepsRun runParts b s (recLog s e) :=
    keepsRun_of_changesOnly (recLog_changesOnly s e) (by simp) (by simp)
  have hblock (f : Block → Block) : KeepsRun runParts b s (s.modBlock b l n f) :=
    keepsRun_of_changesOnly (modBlock_changesOnly s b l n f) (by simp) (by simp)
  unfold firstFailed
  split
  · exact keepsRun_refl _ b s
  refine keepsRun_ite (fun _ => keepsRun_trans (hlogged _) (sectorFailed_keepsRun _ b l n k)) fun _ => ?_
  exact keepsRun_ite (fun _ => keepsRun_trans (hblock _) (sectorStep_keepsRun 4 _ b l n k 1))
    fun _ => keepsRun_trans (hblock _) (sectorStep_keepsRun 3 _ b l n k 2)

end Sys2Proof.Proofs
end

section
/-! SUPPORT. A slot under the heads of a bay, in a run and outside one, and the end of an aborted run (R109 to R135). -/

namespace Sys2Proof.Proofs

open Sys2Proof Sys2Proof.Machine Sys2Proof.Laws

/-! ## A bay that reads no system sector (R52, R171) -/

/-- No mount, check of a disc or write session wants anything of the bay. -/
structure Unclaimed (y : Bay) : Prop where
  mount : y.mount = none
  check : y.dibCheck = false
  write : y.write = none

theorem sysNeed_of_unclaimed {y : Bay} (h : Unclaimed y) : sysNeed y = none := by
  simp [sysNeed, h.mount, h.check, h.write]

theorem Unclaimed.kept {ps : List Part} {b : Nat} {s t : State} (h : Unclaimed (s.bay b)) (hk : KeepsRun ps b s t) :
    Unclaimed (t.bay b) where
  mount := (hk.bay .mount (by simp)).trans h.mount
  check := (hk.bay .dibCheck (by simp)).trans h.check
  write := (hk.bay .write (by simp)).trans h.write

theorem sysTake_of_unclaimed {s : State} {b : BayId} (h : Unclaimed (s.bay b.val)) (z : Zone) (l p n : Nat) (e : Nat × Nat) (r : SysRead) :
    sysTake s b z l p n e r = s := by
  simp [sysTake, sysNeed_of_unclaimed h]

/-- Without a write session there is nothing to change of it. -/
theorem modWrite_keepsRun {s : State} {b : Nat} (h : (s.bay b).write = none) (f : WriteSess → WriteSess) :
    KeepsRun [.bays] b s (s.modWrite b f) := by
  have hbay : (s.modWrite b f).bay b = s.bay b := by
    rw [State.modWrite, modBay_bay_same, h, Option.map_none, ← h]
  exact ⟨by rw [hbay], hbay ▸ bay_changesOnly_refl _ _, modBay_onlyBay s b _, modBay_changesOnly s b _⟩

/-! ## What becomes of a sector (R92, R117, R131, R133, R135) -/

theorem noteUnreadable_keepsRun (s : State) (b : Nat) (a : SlotAddr) : KeepsRun [.bays] b s (noteUnreadable s b a) :=
  modChan_keepsRun rfl

theorem pushJob_keepsRun (s : State) (b : Nat) (j : LdpcJob) : KeepsRun runParts b s (s.pushJob j) :=
  keepsRun_of_changesOnly (pushJob_changesOnly s j) (by simp) (by simp)

theorem noteSearched_keepsRun (s : State) (b : Nat) (a : SlotAddr) (n : Nat) : KeepsRun runParts b s (noteSearched s b a n) := by
  unfold noteSearched
  split
  · exact keepsRun_of_changesOnly (modBlock_changesOnly s b _ _ _) (by simp) (by simp)
  · exact keepsRun_refl _ b s

theorem blockSeen_keepsRun (s : State) (b : Nat) (p : SlotReport) : KeepsRun runParts b s (blockSeen s b p) := by
  unfold blockSeen
  split
  · split
    · exact keepsRun_ite (fun _ => keepsRun_of_changesOnly (modBlock_changesOnly s b _ _ _) (by simp) (by simp))
        fun _ => keepsRun_refl _ b s
    · exact keepsRun_refl _ b s
  · exact keepsRun_refl _ b s

section
variable {s : State} {b : BayId} (h : Unclaimed (s.bay b.val))
include h

theorem judge_keepsRun (a : Nat) (pass : Bool) : KeepsRun runParts b.val s (judge s b.val a pass) := by
  have hdropped := dropRetry_keepsRun s b.val a
  exact keepsRun_mono (keepsRun_trans hdropped (modWrite_keepsRun (h.kept hdropped).write _)) (by simp)

theorem judgeSpare_keepsRun (home a : Nat) (pass : Bool) : KeepsRun runParts b.val s (judgeSpare s b.val home a pass) := by
  have hdropped := dropRetry_keepsRun s b.val a
  exact keepsRun_mono (keepsRun_trans hdropped (modWrite_keepsRun (h.kept hdropped).write _)) (by simp)

theorem notDecoded_keepsRun (p : SlotReport) : KeepsRun runParts b.val s (notDecoded s b p) := by
  have hnoted : KeepsRun runParts b.val s (noteUnreadable s b.val p.addr) :=
    keepsRun_mono (noteUnreadable_keepsRun s b.val p.addr) (by simp)
  have hu := h.kept hnoted
  unfold notDecoded
  dsimp only
  split
  · have hdropped : KeepsRun runParts b.val _ (dropRetry (noteUnreadable s b.val p.addr) b.val (addrOf p.addr)) :=
      keepsRun_mono (dropRetry_keepsRun _ b.val _) (by simp)
    rw [sysTake_of_unclaimed (hu.kept hdropped)]
    exact keepsRun_trans hnoted hdropped
  · exact keepsRun_trans hnoted (judge_keepsRun hu _ _)
  · exact keepsRun_trans hnoted (judgeSpare_keepsRun hu _ _ _)
  · exact keepsRun_ite (fun _ => keepsRun_trans hnoted (firstFailed_keepsRun _ b.val _ _ _ _)) fun _ => hnoted
  · exact hnoted

theorem sendSector_keepsRun (took : List Nat) (p : SlotReport) (lsn : Option Nat) (ls : List Int) (mask : List Bool) :
    KeepsRun runParts b.val s (sendSector s b took p lsn ls mask) := by
  have hsearched := noteSearched_keepsRun s b.val p.addr 9
  unfold sendSector
  dsimp only
  refine keepsRun_ite (fun _ => ?_) fun _ => ?_
  · split
    · exact pushJob_keepsRun s b.val _
    · exact keepsRun_trans hsearched (notDecoded_keepsRun (h.kept hsearched) _)
  · split
    · exact keepsRun_ite (fun _ => pushJob_keepsRun s b.val _) fun _ => notDecoded_keepsRun h p
    · rw [sysTake_of_unclaimed h, ite_self]
      exact keepsRun_refl _ b.val s

theorem slotEnds_keepsRun (took : List Nat) (p : SlotReport) (lsn : Option Nat) (ls : List Int) (mask : List Bool) :
    KeepsRun runParts b.val s (slotEnds s b took p lsn ls mask) := by
  have hcopied : KeepsRun runParts b.val s
      (if slotUse s b.val p.addr = .nothing then s else copyAtEnd s b.val p (took.getD 1 1024)) :=
    keepsRun_ite (fun _ => keepsRun_refl _ b.val s) fun _ => keepsRun_mono (copyAtEnd_keepsRun s b.val p _) (by simp)
  have hu := h.kept hcopied
  unfold slotEnds
  exact keepsRun_ite (fun _ => keepsRun_trans hcopied (sendSector_keepsRun hu took p lsn ls mask))
    fun _ => keepsRun_trans hcopied (notDecoded_keepsRun hu p)

theorem seamEnds_keepsRun (t : DiscType) (x : SeamSlot) : KeepsRun runParts b.val s (seamEnds b t s x) := by
  have hbeam (u : State) (g : Nat) (f : Beam → Beam) : KeepsRun runParts b.val u (u.modBeam g f) :=
    keepsRun_mono (modBeam_keepsRun u b.val g f) (by simp)
  have hfault (u : State) : KeepsRun runParts b.val u (seamFaults u b.val) := keepsRun_mono (seamFaults_keepsRun u b.val) (by simp)
  have htracked (y : Taps) : KeepsRun runParts b.val s (s.modChan b.val (trackSeam y x)) :=
    keepsRun_mono (modChan_keepsRun (trackSeam_run _ _ _)) (by simp)
  unfold seamEnds
  extract_lets g p layer c s0 s1 taps base s2 ls s3
  have h1 : KeepsRun runParts b.val s s1 := keepsRun_ite (fun _ => keepsRun_refl _ b.val s) fun _ =>
    keepsRun_trans (htracked _) (keepsRun_ite (fun _ => hfault _) fun _ => keepsRun_refl _ b.val _)
  have h2 : KeepsRun runParts b.val s1 s2 := keepsRun_ite (fun _ => hbeam s1 g _) fun _ => keepsRun_refl _ b.val s1
  have h3 : KeepsRun runParts b.val s2 s3 := keepsRun_ite (fun _ => hbeam s2 g _) fun _ => keepsRun_refl _ b.val s2
  have h123 := keepsRun_trans h1 (keepsRun_trans h2 h3)
  exact keepsRun_trans h123 (slotEnds_keepsRun (h.kept h123) x.took p x.lsn ls x.mask)

theorem seamSlot_keepsRun (t : DiscType) : KeepsRun runParts b.val s (seamSlot s b t) := by
  have hleft : KeepsRun runParts b.val s (s.modChan b.val fun c => { c with seam := c.seam.filter (fun x => !x.complete) }) :=
    keepsRun_mono (modChan_keepsRun rfl) (by simp)
  exact keepsRun_trans hleft (keepsRun_foldl (fun _ x hv => seamEnds_keepsRun ((h.kept hleft).kept hv) t x) _)

theorem beamEnds_keepsRun (need slot : Nat) (e : BeamRead × SlotReport × List Int) :
    KeepsRun runParts b.val s (beamEnds b need slot s e) := by
  have hkept (f : Beam → Beam) : KeepsRun runParts b.val s (s.modBeam (8 * b.val + e.1.obs.beam) f) :=
    keepsRun_mono (modBeam_keepsRun s b.val _ f) (by simp)
  unfold beamEnds
  exact keepsRun_ite (fun _ => hkept _) fun _ => keepsRun_trans (hkept _) (slotEnds_keepsRun (h.kept (hkept _)) _ _ _ _ _)

end

/-! ## The slot as a whole (R103 to R135) -/

/-- A bay that has left TRACK begins no run. -/
theorem runHere_of_not_track {s : State} {b : Nat} (h : (s.bay b).state ≠ .track) (o : SlotObs) : runHere s b o = s := by
  have htype : findType s b o = s := by
    unfold findType
    dsimp only
    split
    · refine if_neg fun hc => ?_
      obtain ⟨-, htrack, -⟩ := hc
      exact h htrack
    · rfl
  have hmay : mayRun s b = false := by simp [mayRun, h]
  rw [runHere, htype]
  exact if_pos hmay

/-- What a slot does before its sectors are judged keeps the run. Outside a run that is all of it; in one its sectors are then decoded
or given up, and the run goes on or ends. -/
theorem slotPasses_cases {ps : List Part} (hps : slotParts ⊆ ps) {b : BayId} {o : SlotObs} {s : State}
    (hin : inRun s b.val o.zone o.layer.val o.slot = true → runParts ⊆ ps ∧ Unclaimed (s.bay b.val)) :
    ∃ (u : State) (rs : List SlotReport), KeepsRun ps b.val s u ∧ slotPasses s b o =
      if inRun s b.val o.zone o.layer.val o.slot = false then u
      else settleRun (sessionsStep (scanSlot u b.val o.slot rs)) b.val o.slot := by
  have hslot {v w : State} (h : KeepsRun slotParts b.val v w) : KeepsRun ps b.val v w := keepsRun_mono h hps
  have hchan {v : State} {f : Channel → Channel} (hf : (f (v.bay b.val).chan).run = (v.bay b.val).chan.run) :
      KeepsRun ps b.val v (v.modChan b.val f) := hslot (keepsRun_mono (modChan_keepsRun hf) (by simp))
  have hbeam (v : State) (g : Nat) (f : Beam → Beam) : KeepsRun ps b.val v (v.modBeam g f) :=
    hslot (keepsRun_mono (modBeam_keepsRun v b.val g f) (by simp))
  have hrefl (v : State) : KeepsRun ps b.val v v := keepsRun_refl ps b.val v
  unfold slotPasses
  extract_lets n t layer inside s1 obs rtol awl c1 reset search data found s2 ridge ref isBlank timing sv xs s3 c3 median fly start
    blank s4 s5 reps s6 b0 taps entry s7 c7 levels outs s8 s9 clean s10 need s11
  have h1 : KeepsRun ps b.val s s1 := keepsRun_trans (hslot (layerChange_keepsRun s _ layer))
    (keepsRun_trans (hslot (timingOut_keepsRun _ _ o.rateErr)) (hchan (anchor_run _ _ _ _)))
  have h2 : KeepsRun ps b.val s1 s2 := hchan (ridgeAfter_run _ _ _ _ _ _)
  have h3 : KeepsRun ps b.val s2 s3 :=
    keepsRun_trans (hslot (settleUnsettled_keepsRun s2 _ _)) (hslot (logCases_keepsRun _ _ xs))
  have hfly : fly.run = c3.run := by
    dsimp only [fly]
    split
    · rfl
    · exact flyAfter_run _ _ _ _ _ _ c3
  have h4 : KeepsRun ps b.val s3 s4 := hchan hfly
  have h5 : KeepsRun ps b.val s4 s5 := keepsRun_ite (fun _ => hslot (seamFaults_keepsRun s4 _)) fun _ => hrefl s4
  have h6 : KeepsRun ps b.val s5 s6 := keepsRun_trans
    (keepsRun_ite (fun hi => keepsRun_foldl (fun v e _ => keepsRun_mono (blockSeen_keepsRun v _ e.2) (hin hi).1) reps) fun _ => hrefl s5)
    (hchan rfl)
  have h7 : KeepsRun ps b.val s6 s7 := keepsRun_ite (fun _ => hrefl s6) fun _ => hchan (by dsimp only; split <;> rfl)
  have h8 : KeepsRun ps b.val s7 s8 := keepsRun_foldl (fun v x _ => hbeam v _ _) obs
  have h9 : KeepsRun ps b.val s8 s9 := keepsRun_ite (fun _ => hrefl s8) fun _ =>
    keepsRun_foldl (fun v e _ => hslot (beamAdapts_keepsRun v _ _ t layer obs blank levels e.2.2 e.1)) outs
  have h10 : KeepsRun ps b.val s9 s10 := keepsRun_ite (fun _ => keepsRun_foldl (fun v x _ => hbeam v _ _) xs) fun _ => hrefl s9
  have hread : KeepsRun ps b.val s s10 := keepsRun_trans h1 (keepsRun_trans h2 (keepsRun_trans h3 (keepsRun_trans h4
    (keepsRun_trans h5 (keepsRun_trans h6 (keepsRun_trans h7 (keepsRun_trans h8 (keepsRun_trans h9 h10))))))))
  by_cases hi : inRun s b.val o.zone o.layer.val o.slot = false
  · exact ⟨s10, [], hread, (if_pos hi).trans (if_pos hi).symm⟩
  · obtain ⟨hparts, hunclaimed⟩ := hin (by simpa using hi)
    have h11 : KeepsRun ps b.val s10 s11 := keepsRun_foldl
      (fun v e hv => keepsRun_mono (beamEnds_keepsRun ((hunclaimed.kept hread).kept hv) need o.slot e) hparts) _
    have hended := keepsRun_trans hread h11
    exact ⟨seamSlot s11 b t, reps.map (·.2), keepsRun_trans hended (keepsRun_mono (seamSlot_keepsRun (hunclaimed.kept hended) t) hparts),
      by rw [if_neg hi, if_neg hi]⟩

end Sys2Proof.Proofs
end

section
/-! SUPPORT. The end of a run, the other events of the read channel, and the statement about them (R107, R114, R115, R123, R125,
R133). -/

namespace Sys2Proof.Proofs

open Sys2Proof Sys2Proof.Machine Sys2Proof.Laws

/-! ## Frames of every bay as a run ends (R125) -/

theorem everyBay_mono {ps qs : List BayPart} {s t : State} (h : EveryBay ps s t) (hs : ps ⊆ qs) : EveryBay qs s t :=
  fun n p hp => h n p fun m => hp (hs m)

theorem withServo_changesOnly (y : Bay) (v : Servo) : y.changesOnly [.servo] { y with servo := v } :=
  bay_changesOnly_of_agrees (by rintro ⟨⟩ <;> simp [Bay.agrees])

theorem modChan_everyBay (s : State) (b : Nat) (f : Channel → Channel) : EveryBay [.chan] s (s.modChan b f) :=
  modBay_everyBay s b fun y => withChan_changesOnly y _

theorem modServo_everyBay (s : State) (b : Nat) (f : Servo → Servo) : EveryBay [.servo] s (s.modServo b f) :=
  modBay_everyBay s b fun y => withServo_changesOnly y _

theorem dropSeam_everyBay (s : State) (b : Nat) : EveryBay [.chan] s (s.dropSeam b) := by
  unfold State.dropSeam
  split
  · exact everyBay_of_bays_eq _ rfl
  · exact everyBay_trans (everyBay_of_bays_eq _ rfl) (modChan_everyBay _ b _)

theorem dropOffsets_everyBay (s : State) (b : Nat) : EveryBay [.servo, .welt] s (s.dropOffsets b) := by
  have hpat (p : Pattern) (c : Prop) [Decidable c] : EveryBay [.servo, .welt] s (if c then s else { s with pat := p }) := by
    split <;> exact everyBay_of_bays_eq _ rfl
  have hpower (u : State) (c : Prop) [Decidable c] (f : Welt → Welt) : EveryBay [.servo, .welt] u (if c then u else u.modWelt b f) := by
    split
    · exact everyBay_of_bays_eq _ rfl
    · exact everyBay_mono (modWelt_everyBay u b f) (by simp)
  exact everyBay_trans (hpat _ _) (everyBay_trans (hpower _ _ _) (everyBay_mono (modServo_everyBay _ b _) (by simp)))

theorem endRun_everyBay (s : State) (b : Nat) : EveryBay [.chan, .servo, .welt] s (s.endRun b) :=
  everyBay_trans (everyBay_mono (dropSeam_everyBay s b) (by simp))
    (everyBay_trans (everyBay_mono (dropOffsets_everyBay _ b) (by simp)) (everyBay_mono (modChan_everyBay _ b _) (by simp)))

/-! ## A run ends (R125) -/

/-- Another kind of run than the blank scan counts no blank slots. -/
theorem scanSlot_of_run {s : State} {b : Nat} {r : Run} (hrun : (s.bay b).chan.run = some r) (hkind : r.kind ≠ .blankScan) (slot : Nat)
    (rs : List SlotReport) : scanSlot s b slot rs = s := by
  simp [scanSlot, hrun, hkind]

/-- In every bay the run is the same. -/
def SameRuns (s t : State) : Prop := ∀ n, (t.bay n).chan.run = (s.bay n).chan.run

theorem sameRuns_of_bays_eq {s t : State} (h : t.bays = s.bays) : SameRuns s t := fun n => by rw [bay_eq_of_bays_eq h]

theorem sameRuns_trans {s t u : State} (h : SameRuns s t) (g : SameRuns t u) : SameRuns s u := fun n => (g n).trans (h n)

theorem sameRuns_foldl {α : Type} (f : State → α → State) (h : ∀ s a, SameRuns s (f s a)) (l : List α) (s : State) :
    SameRuns s (l.foldl f s) := by
  induction l generalizing s with
  | nil => exact sameRuns_of_bays_eq rfl
  | cons a r ih => exact sameRuns_trans (h s a) (ih (f s a))

theorem modChan_sameRuns (s : State) (b : Nat) {f : Channel → Channel} (hf : ∀ c, (f c).run = c.run) : SameRuns s (s.modChan b f) := by
  intro n
  by_cases hn : n = b
  · subst hn
    rw [modChan_chan, hf]
  · rw [State.modChan, modBay_bay_other s _ hn]

/-- The sessions give up retry store entries, and leave the runs as they are. -/
theorem sessionsStep_sameRuns (s : State) : SameRuns s (sessionsStep s) := by
  have hadvance (l : List Nat) (u : State) : SameRuns u (l.foldl advanceSession u) :=
    sameRuns_foldl _ (fun v c => sameRuns_of_bays_eq (advanceSession_bays v c)) l u
  have hclose (l : List Nat) (u : State) : SameRuns u (l.foldl closeSession u) :=
    sameRuns_foldl _ (fun v c => sameRuns_of_bays_eq (closeSession_changesOnly v c .bays (by simp))) l u
  have hprune (u : State) : SameRuns u (pruneBlocks u) :=
    sameRuns_trans (sameRuns_of_bays_eq rfl) (sameRuns_foldl _ (fun v x => modChan_sameRuns v _ (by intro c; rfl)) _ _)
  unfold sessionsStep
  exact sameRuns_trans (sameRuns_of_bays_eq (admitAbsent_changesOnly s .bays (by simp)))
    (sameRuns_trans (hadvance _ _) (sameRuns_trans (hclose _ _) (hprune _)))

theorem endRun_run (s : State) (b : Nat) : ((s.endRun b).bay b).chan.run = none := by
  rw [State.endRun, modChan_chan]

/-- An aborted run over target blocks ends with the slot, and its bay is in TRACK again. -/
theorem settleRun_aborted {s : State} {b : Nat} {r : Run} (hrun : (s.bay b).chan.run = some r) (hkind : r.kind = .read)
    (haborted : r.aborted = true) (hstate : (s.bay b).state = .read) (slot : Nat) :
    ((settleRun s b slot).bay b).chan.run = none ∧ ((settleRun s b slot).bay b).state = .track ∧
    s.changesOnly [.recov, .bays, .pat] (settleRun s b slot) := by
  have hseen : s.changesOnly [.recov, .bays, .pat] (s.modChan b fun c => { c with run := some { r with at_ := slot } }) :=
    changesOnly_mono (modBay_changesOnly s b _) (by simp)
  have hbay : ((s.modChan b fun c => { c with run := some { r with at_ := slot } }).bay b).state = .read := by
    rw [State.modChan, modBay_bay_same, hstate]
  unfold settleRun
  rw [hrun]
  dsimp only
  generalize s.modChan b _ = v at hseen hbay ⊢
  rw [if_pos (.inl haborted), hkind]
  dsimp only
  have hended := endRun_changesOnly v b
  have hnone := endRun_run v b
  have hread : ((v.endRun b).bay b).state = .read := (endRun_everyBay v b b .state (by simp)).trans hbay
  generalize v.endRun b = w at hended hnone hread ⊢
  refine ⟨?_, ?_, changesOnly_trans hseen (changesOnly_trans hended (changesOnly_mono (modBay_changesOnly w b _) (by simp)))⟩
  · rw [modBay_bay_same]
    exact hnone
  · rw [modBay_bay_same, hread]

/-! ## A slot (R114, R125) -/

theorem exec_sectorSlotRead_closed {b : BayId} {s : State} (o : SlotObs) (h : (s.bay b.val).servo.tracking = false ∨
    ((s.bay b.val).state ≠ .track ∧ (s.bay b.val).state ≠ .read ∧ (s.bay b.val).state ≠ .verify)) :
    exec (.sectorSlotRead b o) s = .next s := by
  have hexec : exec (.sectorSlotRead b o) s = execSectorSlotRead b o s := rfl
  rw [hexec, execSectorSlotRead]
  exact if_pos (h.imp_right fun hs => by simp [hs])

/-- In READ a slot passes, and it begins no run. -/
theorem exec_sectorSlotRead_read {b : BayId} {s : State} (o : SlotObs) (hstate : (s.bay b.val).state = .read)
    (htracking : (s.bay b.val).servo.tracking = true) : exec (.sectorSlotRead b o) s = .next (slotPasses s b o) := by
  have hexec : exec (.sectorSlotRead b o) s = execSectorSlotRead b o s := rfl
  have hhere : runHere s b.val o = s := runHere_of_not_track (by simp [hstate]) o
  rw [hexec, execSectorSlotRead, hhere]
  exact if_neg (by simp [hstate, htracking])

theorem slotPasses_outside {b : BayId} {o : SlotObs} {s : State} (h : inRun s b.val o.zone o.layer.val o.slot = false) :
    KeepsRun slotParts b.val s (slotPasses s b o) := by
  obtain ⟨u, rs, hu, heq⟩ := slotPasses_cases (List.Subset.refl slotParts) (b := b) (o := o) (s := s) fun hin => by simp [h] at hin
  rwa [heq, if_pos h]

/-- A slot of an aborted run over target blocks, in a bay of which nothing else is wanted. -/
theorem slotPasses_aborted {b : BayId} {o : SlotObs} {r : Run} {s : State} (hin : inRun s b.val o.zone o.layer.val o.slot = true)
    (hu : Unclaimed (s.bay b.val)) (hstate : (s.bay b.val).state = .read) (hrun : (s.bay b.val).chan.run = some r)
    (hkind : r.kind = .read) (haborted : r.aborted = true) :
    ((slotPasses s b o).bay b.val).chan.run = none ∧ ((slotPasses s b o).bay b.val).state = .track ∧
    s.changesOnly (.pat :: runParts) (slotPasses s b o) := by
  obtain ⟨u, rs, hkept, heq⟩ := slotPasses_cases (ps := runParts) (by simp) fun _ => ⟨List.Subset.refl runParts, hu⟩
  rw [heq, if_neg (by simp [hin]), scanSlot_of_run (hkept.run.trans hrun) (by simp [hkind])]
  have hrun' := (sessionsStep_sameRuns u b.val).trans (hkept.run.trans hrun)
  have hstate' : ((sessionsStep u).bay b.val).state = .read :=
    (sessionsStep_everyBay u b.val .state (by simp)).trans ((hkept.bay .state (by simp)).trans hstate)
  have hframe := sessionsStep_changesOnly u
  generalize sessionsStep u = v at hrun' hstate' hframe ⊢
  obtain ⟨hnone, htrack, hended⟩ := settleRun_aborted hrun' hkind haborted hstate' o.slot
  exact ⟨hnone, htrack, changesOnly_trans (changesOnly_mono hkept.frame (by simp))
    (changesOnly_trans (changesOnly_mono hframe (by simp)) (changesOnly_mono hended (by simp)))⟩

/-! ## NO_SYNC and the ridge (R107, R115) -/

/-- An update of the read channel touches no more of its bay, and no other bay. -/
theorem modChan_frame (s : State) (b : Nat) (f : Channel → Channel) : (s.bay b).changesOnly [.chan] ((s.modChan b f).bay b) ∧
    s.onlyBay b (s.modChan b f) ∧ s.changesOnly [.bays] (s.modChan b f) :=
  ⟨modChan_everyBay s b f b, modBay_onlyBay s b _, modBay_changesOnly s b _⟩

/-- The search begins anew, and registration is to be checked. -/
def searchedAnew (s : State) (b : Nat) : State :=
  (s.modChan b fun c => { c with searchSlots := 0 }).modServo b fun v => { v with registered := false }

theorem searchedAnew_bay (s : State) (b : Nat) : ((searchedAnew s b).bay b).chan = { (s.bay b).chan with searchSlots := 0 } ∧
    ((searchedAnew s b).bay b).servo.registered = false ∧ (s.bay b).changesOnly [.chan, .servo] ((searchedAnew s b).bay b) := by
  refine ⟨?_, ?_, everyBay_trans (everyBay_mono (modChan_everyBay s b _) (by simp)) (everyBay_mono (modServo_everyBay _ b _) (by simp)) b⟩
  · rw [searchedAnew, State.modServo, modBay_bay_same, modChan_chan]
  · rw [searchedAnew, modServo_servo]

theorem exec_noSync_searched {b : BayId} {s : State} (hfly : (s.bay b.val).chan.fly = .unlocked)
    (hslots : 16 ≤ (s.bay b.val).chan.searchSlots) : exec (.noSync b) s =
      .next ((searchedAnew s b.val).bayLogFree b.val 0x0401) := by
  have hexec : exec (.noSync b) s = execNoSync b s := rfl
  rw [hexec, execNoSync]
  exact if_pos ⟨hfly, hslots⟩

theorem exec_noSync_searching {b : BayId} {s : State} (h : (s.bay b.val).chan.fly ≠ .unlocked ∨ (s.bay b.val).chan.searchSlots < 16) :
    exec (.noSync b) s = .next s := by
  have hexec : exec (.noSync b) s = execNoSync b s := rfl
  rw [hexec, execNoSync]
  refine if_neg fun hc => ?_
  obtain ⟨hfly, hslots⟩ := hc
  exact h.elim (fun hn => hn hfly) (by omega)

/-- Where the PLL has not coasted too long, or is not locked, there is nothing to change. -/
theorem exec_ridgeCoastExpiry (b : BayId) (s : State) : exec (.ridgeCoastExpiry b) s =
    .next (if (s.bay b.val).chan.ridgeLock = true ∧ (s.bay b.val).chan.ridgeOver = true then
      s.modChan b.val fun c => { c with ridgeLock := false } else s) := by
  have hexec : exec (.ridgeCoastExpiry b) s = execRidgeCoastExpiry b s := rfl
  rw [hexec, execRidgeCoastExpiry]
  split <;> rfl

theorem foldl_modBeam_beam_other {b g : Nat} (f : Nat → Beam → Beam) {l : List Nat} (h : ∀ n ∈ l, g ≠ 8 * b + n) (s : State) :
    (l.foldl (fun a n => a.modBeam (8 * b + n) (f n)) s).beam g = s.beam g := by
  induction l generalizing s with
  | nil => rfl
  | cons n r ih =>
    obtain ⟨hn, hr⟩ := List.forall_mem_cons.1 h
    exact (ih hr _).trans (modBeam_beam_other s (f n) hn)

theorem foldl_modBeam_beam {b n : Nat} (f : Nat → Beam → Beam) {l : List Nat} (hl : l.Nodup) (hn : n ∈ l) (s : State) :
    (l.foldl (fun a m => a.modBeam (8 * b + m) (f m)) s).beam (8 * b + n) = f n (s.beam (8 * b + n)) := by
  induction l generalizing s with
  | nil => exact absurd hn (by simp)
  | cons m r ih =>
    obtain ⟨hm, hr⟩ := List.nodup_cons.1 hl
    rw [List.foldl_cons]
    rcases List.mem_cons.1 hn with rfl | hnr
    · rw [foldl_modBeam_beam_other f (fun x hx h => hm (by have := Nat.add_left_cancel h; exact this ▸ hx)) _, modBeam_beam]
    · have hne : n ≠ m := fun h => hm (h ▸ hnr)
      rw [ih hr hnr, modBeam_beam_other s (f m) (by omega)]

/-- The beams of the data spirals, each back on ridge timing. -/
def dataBeamsLocked (s : State) (b : Nat) : State :=
  [1, 2, 3, 4, 5, 6, 7].foldl (fun a n => a.modBeam (8 * b + n) fun m => { m with trLock := true }) s

theorem exec_ridgeRelock {b : BayId} {s : State} (hridged : bayRidged (s.bay b.val) = true) (hlock : (s.bay b.val).chan.ridgeLock = false)
    (hcoasting : (s.bay b.val).chan.ridgeCoasting = false) : exec (.ridgeRelock b) s =
      .next (dataBeamsLocked (s.modChan b.val fun c => { c with ridgeLock := true, ridgeOver := false, ridgeCoast := 0 }) b.val) := by
  have hexec : exec (.ridgeRelock b) s = execRidgeRelock b s := rfl
  rw [hexec, execRidgeRelock]
  exact if_pos ⟨hridged, hlock, hcoasting⟩

theorem dataBeamsLocked_beam (s : State) (b : Nat) {n : Nat} (h1 : 1 ≤ n) (h7 : n ≤ 7) :
    ((dataBeamsLocked s b).beam (8 * b + n)).trLock = true := by
  have hmem : n ∈ [1, 2, 3, 4, 5, 6, 7] := by
    simp
    omega
  rw [dataBeamsLocked, foldl_modBeam_beam (fun _ m => { m with trLock := true }) (by decide) hmem]

theorem dataBeamsLocked_changesOnly (s : State) (b : Nat) : s.changesOnly [.beams] (dataBeamsLocked s b) :=
  changesOnly_foldl _ (fun u _ => modBeam_changesOnly u _ _) _ s

/-! ## The seam (R121, R123) -/

/-- The offset found is taken, and tracked from there. -/
def seamOffset (s : State) (b : Nat) (c : Channel) : Channel :=
  { c with seamFound := true, seamDelta := 64 * (seamPeakOf (s.bay b).chan).1, seamPeak := 64 * (seamPeakOf (s.bay b).chan).1 }
def seamTaken (s : State) (b : Nat) : State := s.modChan b (seamOffset s b)

theorem exec_seamOffsetSearch_ready {b : BayId} {s : State} (hrun : (s.bay b.val).chan.run.isSome = true)
    (hfound : (s.bay b.val).chan.seamFound = false) (hfault : (s.bay b.val).chan.seamFault = false)
    (hready : seamReady (s.bay b.val).chan = true) : exec (.seamOffsetSearch b) s =
      .next (if (seamPeakOf (s.bay b.val).chan).2 < Config.seamThreshold ∨ seamTooLong ((seamTaken s b.val).bay b.val).chan = true then
        seamFaults (seamTaken s b.val) b.val else seamTaken s b.val) := by
  have hexec : exec (.seamOffsetSearch b) s = execSeamOffsetSearch b s := rfl
  rw [hexec, execSeamOffsetSearch]
  refine if_neg fun hc => ?_
  simp [hfound, hfault, hready, Option.isNone_iff_eq_none] at hc
  simp [hc] at hrun

theorem exec_seamOffsetSearch_notDue {b : BayId} {s : State} (h : (s.bay b.val).chan.run = none ∨ (s.bay b.val).chan.seamFound = true ∨
    (s.bay b.val).chan.seamFault = true ∨ seamReady (s.bay b.val).chan = false) : exec (.seamOffsetSearch b) s = .next s := by
  have hexec : exec (.seamOffsetSearch b) s = execSeamOffsetSearch b s := rfl
  rw [hexec, execSeamOffsetSearch]
  exact if_pos (h.imp_left fun hn => by rw [hn]; rfl)

/-- A first fault of a run: S7 goes on with set 3. -/
theorem seamFaults_first {s : State} {b : Nat} (h : (s.bay b).chan.seamFault = false) :
    ((seamFaults s b).bay b).chan.seamFault = true ∧ ((seamFaults s b).beam (8 * b + 7)).eq = 3 := by
  have hlogged (u : State) : u.changesOnly [.logs, .events, .freeCtr] (u.bayLogFree b 0x0402) := logFree_changesOnly u _ _ _
  rw [seamFaults, if_neg (by simp [h])]
  constructor
  · rw [bay_eq_of_bays_eq (hlogged _ .bays (by simp)), bay_eq_of_bays_eq (modBeam_changesOnly _ _ _ .bays (by simp)), modChan_chan]
  · rw [State.beam, show State.beams _ = _ from hlogged _ .beams (by simp)]
    exact congrArg Beam.eq (modBeam_beam _ _ _)

/-! ## The retry store (R132 to R134) -/

/-- The sector's retained samples are given up. -/
def retryFull (s : State) (b : Nat) (a : SlotAddr) : State :=
  s.modBeam (8 * b + a.spiral.val) fun m => { m with retryFull := true, retained := none }

/-- The run reports it, once. -/
def retryFullNoted (s : State) (b : Nat) (a : SlotAddr) : State :=
  if (s.bay b).chan.retryFullRun = true then retryFull s b a
  else ((retryFull s b a).modChan b fun c => { c with retryFullRun := true }).bayLog b 0x0403 (addrOf a)

theorem retryFullNoted_spec (s : State) (b : Nat) (a : SlotAddr) :
    (((retryFullNoted s b a).beam (8 * b + a.spiral.val)).retryFull = true ∧
      ((retryFullNoted s b a).beam (8 * b + a.spiral.val)).retained = none) ∧
    ((retryFullNoted s b a).bay b).chan.retry = (s.bay b).chan.retry ∧ s.onlyBay b (retryFullNoted s b a) ∧
    s.changesOnly [.bays, .beams, .logs, .events] (retryFullNoted s b a) := by
  have hgiven : s.changesOnly [.beams] (retryFull s b a) := modBeam_changesOnly s _ _
  have hbeam : ((retryFull s b a).beam (8 * b + a.spiral.val)).retryFull = true ∧
      ((retryFull s b a).beam (8 * b + a.spiral.val)).retained = none := by simp [retryFull]
  have hbays : (retryFull s b a).bays = s.bays := hgiven .bays (by simp)
  unfold retryFullNoted
  generalize retryFull s b a = u at hgiven hbeam hbays ⊢
  split
  · exact ⟨hbeam, by rw [bay_eq_of_bays_eq hbays], onlyBay_of_bays_eq b hbays, changesOnly_mono hgiven (by simp)⟩
  · have hchan := modChan_chan u b fun c => { c with retryFullRun := true }
    obtain ⟨-, hothers, hframe⟩ := modChan_frame u b fun c => { c with retryFullRun := true }
    generalize u.modChan b _ = v at hchan hothers hframe ⊢
    have hlogged : v.changesOnly [.logs, .events] (v.bayLog b 0x0403 (addrOf a)) := log_changesOnly v _ _ _ _
    generalize v.bayLog b 0x0403 (addrOf a) = w at hlogged ⊢
    have hwv : w.bays = v.bays := hlogged .bays (by simp)
    have hwu : w.beams = u.beams := (hlogged .beams (by simp)).trans (hframe .beams (by simp))
    refine ⟨?_, ?_, onlyBay_trans (onlyBay_of_bays_eq b hbays) (onlyBay_trans hothers (onlyBay_of_bays_eq b hwv)),
      changesOnly_trans (changesOnly_mono hgiven (by simp)) (changesOnly_trans (changesOnly_mono hframe (by simp))
        (changesOnly_mono hlogged (by simp)))⟩
    · rwa [State.beam, hwu]
    · rw [bay_eq_of_bays_eq hwv, hchan, bay_eq_of_bays_eq hbays]

section
variable {b : BayId} {a : SlotAddr} {r : Retained} {s : State} (hheld : heldSlot s b.val a = some r) (hlate : r.ended + 5 ≤ s.now)
  (howed : owed s b.val a = true) (hjob : (s.job? b.val a).isSome = true)
include hheld hlate howed hjob

theorem exec_retryStoreCopy : exec (.retryStoreCopy b a) s = .next (copyRetry s b.val a true) := by
  have hexec : exec (.retryStoreCopy b a) s = execRetryStoreCopy b a s := rfl
  simp [hexec, execRetryStoreCopy, hheld, hlate, howed, hjob]

end

section
variable {b : Nat} {a : SlotAddr} {r : Retained} {s : State} (hheld : heldSlot s b a = some r)
  (hnew : ((s.bay b).chan.retry.any (fun e => e.addr == addrOf a)) = false)
include hheld hnew

theorem copyRetry_room (auto : Bool)
    (hroom : retryUsed (s.bay b).chan + (if a.spiral.val = 7 then 2 else 1) ≤ (s.bay b).chan.retrySlots) :
    copyRetry s b a auto = s.modChan b fun c => { c with retry := c.retry ++ [⟨addrOf a, r.kept, auto⟩] } := by
  simp [copyRetry, hheld, hnew, hroom]

theorem copyRetry_full (auto : Bool)
    (hfull : (s.bay b).chan.retrySlots < retryUsed (s.bay b).chan + (if a.spiral.val = 7 then 2 else 1)) :
    copyRetry s b a auto = retryFullNoted s b a := by
  rw [copyRetry, hheld]
  dsimp only
  rw [if_neg (by simp [hnew]), if_neg (by omega)]
  rfl

end

/-! ## The statement -/

/-- Settles O39, clause by clause: a slot by `slotPasses_cases`, outside a run and in an aborted one, and each other event of the read
channel by what it sets. -/
theorem runsReadTheirSlotsAndEnd : Obligations.RunsReadTheirSlotsAndEnd := by
  unfold Obligations.RunsReadTheirSlotsAndEnd
  refine ⟨fun b o s => exec_sectorSlotRead_closed o, ?outside, ?aborted, ?noSync, fun b s => exec_noSync_searching, ?coast, ?relock, ?seam,
    fun b s => exec_seamOffsetSearch_notDue, ?room, ?full⟩
  case outside =>
    intro b o r s hstate htracking hrun hplace
    have hin : inRun s b.val o.zone o.layer.val o.slot = false := by
      rw [inRun, hrun]
      refine decide_eq_false fun hc => ?_
      obtain ⟨hzone, hlayer, hfirst⟩ := hc
      exact hplace.elim (fun h => h hzone) fun h => h.elim (fun h => h hlayer) (by omega)
    have hkept := slotPasses_outside hin
    exact ⟨_, exec_sectorSlotRead_read o hstate htracking, hkept.run.trans hrun, hkept.bay, hkept.others, hkept.frame⟩
  case aborted =>
    intro b o r s hstate htracking hmount hcheck hwrite hrun hkind haborted hzone hlayer hfirst
    have hin : inRun s b.val o.zone o.layer.val o.slot = true := by
      rw [inRun, hrun]
      exact decide_eq_true ⟨hzone, hlayer, hfirst⟩
    obtain ⟨hnone, htrack, hframe⟩ := slotPasses_aborted hin ⟨hmount, hcheck, hwrite⟩ hstate hrun hkind haborted
    exact ⟨_, exec_sectorSlotRead_read o hstate htracking, hnone, htrack, hframe .mode (by simp), hframe .courses (by simp),
      hframe .sec (by simp)⟩
  case noSync =>
    intro b s hfly hslots
    obtain ⟨hchan, hservo, hbay⟩ := searchedAnew_bay s b.val
    have hbays : s.changesOnly [.bays] (searchedAnew s b.val) := changesOnly_trans (modBay_changesOnly s _ _) (modBay_changesOnly _ _ _)
    have hothers : s.onlyBay b.val (searchedAnew s b.val) := onlyBay_trans (modBay_onlyBay s _ _) (modBay_onlyBay _ _ _)
    have hlogged := bayLogFree_keepsRun (searchedAnew s b.val) b.val b.val 0x0401
    have hsame := bay_eq_of_bays_eq (hlogged.frame .bays (by simp)) b.val
    refine ⟨_, exec_noSync_searched hfly hslots, ?_, ?_, ?_, onlyBay_trans hothers hlogged.others,
      changesOnly_trans (changesOnly_mono hbays (by simp)) (changesOnly_mono hlogged.frame (by simp))⟩
    · rw [hsame, hchan]
    · rw [hsame, hservo]
    · rwa [hsame]
  case coast =>
    intro b s
    refine ⟨_, exec_ridgeCoastExpiry b s, ?_⟩
    split
    next h =>
      have hlost : ((s.bay b.val).chan.ridgeLock && !(s.bay b.val).chan.ridgeOver) = false := by simp [h]
      exact ⟨by rw [modChan_chan, hlost], modChan_frame s b.val _⟩
    next h =>
      refine ⟨?_, bay_changesOnly_refl _ _, onlyBay_refl _ s, changesOnly_refl _ s⟩
      rcases hlock : (s.bay b.val).chan.ridgeLock with _ | _
      · exact congrArg (fun v => { (s.bay b.val).chan with ridgeLock := v }) hlock
      · have hover : (s.bay b.val).chan.ridgeOver = false := by simpa [hlock] using h
        rw [hover]
        exact congrArg (fun v => { (s.bay b.val).chan with ridgeLock := v }) hlock
  case relock =>
    intro b s hridged hlock hcoasting
    obtain ⟨-, hothers, hframe⟩ := modChan_frame s b.val fun c => { c with ridgeLock := true, ridgeOver := false, ridgeCoast := 0 }
    have hexec := exec_ridgeRelock hridged hlock hcoasting
    have hchan := modChan_chan s b.val fun c => { c with ridgeLock := true, ridgeOver := false, ridgeCoast := 0 }
    generalize s.modChan b.val _ = u at hothers hframe hexec hchan
    have hbeams := dataBeamsLocked_changesOnly u b.val
    refine ⟨_, hexec, ?_, fun n h1 h7 => dataBeamsLocked_beam u b.val h1 h7,
      onlyBay_trans hothers (onlyBay_of_bays_eq _ (hbeams .bays (by simp))),
      changesOnly_trans (changesOnly_mono hframe (by simp)) (changesOnly_mono hbeams (by simp))⟩
    rw [bay_eq_of_bays_eq (hbeams .bays (by simp)), hchan]
  case seam =>
    intro b s hrun hfound hfault hready
    have htaken := modChan_chan s b.val (seamOffset s b.val)
    obtain ⟨-, hothers, hframe⟩ := modChan_frame s b.val (seamOffset s b.val)
    have hexec := exec_seamOffsetSearch_ready hrun hfound hfault hready
    rw [seamTaken, htaken] at hexec
    generalize s.modChan b.val _ = u at htaken hothers hframe hexec
    have hfaults := seamFaults_keepsRun u b.val
    obtain ⟨hfault', heq⟩ := seamFaults_first (s := u) (b := b.val) (by rw [htaken]; exact hfault)
    refine ⟨_, hexec, ?_⟩
    split
    next h =>
      exact (if_pos h).mpr ⟨hfault', heq, onlyBay_trans hothers hfaults.others,
        changesOnly_trans (changesOnly_mono hframe (by simp)) hfaults.frame⟩
    next h =>
      exact (if_neg h).mpr ⟨htaken, hothers, hframe⟩
  case room =>
    intro b a r s hheld hlate howed hjob hnew hroom
    refine ⟨_, exec_retryStoreCopy hheld hlate howed hjob, ?_⟩
    rw [copyRetry_room hheld hnew true hroom]
    exact ⟨modChan_chan s b.val _, modChan_frame s b.val _⟩
  case full =>
    intro b a r s hheld hlate howed hjob hnew hfull
    refine ⟨_, exec_retryStoreCopy hheld hlate howed hjob, ?_⟩
    rw [copyRetry_full hheld hnew true hfull]
    obtain ⟨⟨hfull', hretained⟩, hretry, hothers, hframe⟩ := retryFullNoted_spec s b.val a
    exact ⟨hfull', hretained, hretry, hothers, hframe⟩

end Sys2Proof.Proofs
end

section
/-! SUPPORT. The outcomes of sectors for the commands that wait for them: what a settlement decides, and that it stands (R92, R151,
R368). -/

namespace Sys2Proof.Proofs

open Sys2Proof Sys2Proof.Machine Sys2Proof.Laws

/-! ## A decided sector stays as it is -/

theorem keepsDecided_of_tags_eq {s t : State} (h : t.tags = s.tags) : s.keepsDecided t :=
  ⟨by rw [h], fun _ c hc => ⟨c, by rw [h, hc], rfl, rfl, fun _ _ hx _ => hx⟩⟩

theorem keepsDecided_of_changesOnly {ps : List Part} {s t : State} (h : s.changesOnly ps t) (hp : Part.tags ∉ ps) : s.keepsDecided t :=
  keepsDecided_of_tags_eq (h .tags hp)

theorem keepsDecided_trans {s t u : State} (h : s.keepsDecided t) (g : t.keepsDecided u) : s.keepsDecided u := by
  obtain ⟨hlen, hkeep⟩ := h
  obtain ⟨glen, gkeep⟩ := g
  refine ⟨glen.trans hlen, fun i c hc => ?_⟩
  obtain ⟨d, hd, hq, hsqe, hsecs⟩ := hkeep i c hc
  obtain ⟨e, he, gq, gsqe, gsecs⟩ := gkeep i d hd
  exact ⟨e, he, gq.trans hq, gsqe.trans hsqe, fun j x hx hne => gsecs j x (hsecs j x hx hne) hne⟩

theorem cmdWants_iff {s : State} {b l n k : Nat} : cmdWants s b l n k = true ↔
    ∃ c ∈ s.tags, ∃ x ∈ c.sectors, x.outcome = .pending ∧ x.on b l n k = true := by
  simp [cmdWants]

/-- From `s` to `t` no command begins to wait for a sector of a disc. -/
def WantsNoMore (s t : State) : Prop := ∀ b l n k, cmdWants t b l n k = true → cmdWants s b l n k = true

theorem wantsNoMore_of_tags_eq {s t : State} (h : t.tags = s.tags) : WantsNoMore s t := by
  intro b l n k ht
  rwa [cmdWants, ← h]

theorem wantsNoMore_trans {s t u : State} (h : WantsNoMore s t) (g : WantsNoMore t u) : WantsNoMore s u :=
  fun b l n k hu => h b l n k (g b l n k hu)

/-- A sector that no command waits for stays so. -/
theorem WantsNoMore.settled {s t : State} {b l n k : Nat} (h : WantsNoMore s t) (hs : cmdWants s b l n k = false) :
    cmdWants t b l n k = false :=
  Bool.eq_false_iff.2 fun ht => Bool.eq_false_iff.1 hs (h b l n k ht)

/-! ## A settlement -/

section
variable (s : State) (carried : Nat) (p : Cmd → CmdSector → Bool) (f : Cmd → CmdSector → CmdSector)

theorem settle_changesOnly : s.changesOnly [.tags] (settle s carried p f) :=
  changesOnly_of_agrees (by rintro ⟨⟩ <;> simp [State.agrees, settle])

theorem settle_keepsDecided : s.keepsDecided (settle s carried p f) := by
  refine ⟨by simp [settle], fun i c hc => ?_⟩
  refine ⟨_, by rw [settle, List.getElem?_map, hc, Option.map_some], ?_⟩
  dsimp only
  split
  · refine ⟨rfl, rfl, fun j x hx hne => ?_⟩
    simp [hx, hne]
  · exact ⟨rfl, rfl, fun j x hx _ => hx⟩

variable {s carried p f}

/-- A sector that still waits after a settlement waited before, and is not one that it names. -/
theorem mem_settle_pending (hf : ∀ c x, (f c x).outcome ≠ .pending) {d : Cmd} {x : CmdSector} (hd : d ∈ (settle s carried p f).tags)
    (hx : x ∈ d.sectors) (hpending : x.outcome = .pending) : ∃ c ∈ s.tags, x ∈ c.sectors ∧ p c x = false := by
  obtain ⟨c, hc, rfl⟩ := List.mem_map.1 hd
  refine ⟨c, hc, ?_⟩
  split at hx
  · obtain ⟨y, hy, rfl⟩ := List.mem_map.1 hx
    split at hpending
    next => exact absurd hpending (hf c y)
    next hno =>
      rw [if_neg hno]
      exact ⟨hy, by simpa [hpending] using hno⟩
  next hno =>
    refine ⟨hx, ?_⟩
    by_contra hp
    exact hno (List.any_eq_true.2 ⟨x, hx, by simpa [hpending] using hp⟩)

theorem settle_wantsNoMore (hf : ∀ c x, (f c x).outcome ≠ .pending) : WantsNoMore s (settle s carried p f) := by
  intro b l n k ht
  obtain ⟨d, hd, x, hx, hpending, hon⟩ := cmdWants_iff.1 ht
  obtain ⟨c, hc, hxc, -⟩ := mem_settle_pending hf hd hx hpending
  exact cmdWants_iff.2 ⟨c, hc, x, hxc, hpending, hon⟩

/-- The sectors that a settlement names wait no more. -/
theorem cmdWants_settle {b l n k : Nat} (hp : ∀ c x, x.on b l n k = true → p c x = true) (hf : ∀ c x, (f c x).outcome ≠ .pending) :
    cmdWants (settle s carried p f) b l n k = false := by
  refine Bool.eq_false_iff.2 fun ht => ?_
  obtain ⟨d, hd, x, hx, hpending, hon⟩ := cmdWants_iff.1 ht
  obtain ⟨c, -, -, hno⟩ := mem_settle_pending hf hd hx hpending
  exact Bool.false_ne_true (hno.symm.trans (hp c x hon))

end

/-! ## What an accepted sector is to a command (R92, R151) -/

/-- An accepted sector decides the outcome. -/
theorem sectorOut_outcome (s : State) (id : Option Nat) (bytes : List Byte) (depth : Nat) (c : Cmd) (x : CmdSector) :
    (sectorOut s id bytes depth c x).outcome ≠ .pending := by
  unfold sectorOut
  dsimp only
  split
  · simp
  · split <;> simp

end Sys2Proof.Proofs
end

section
/-! SUPPORT. The target blocks: what an update of a block does to its records, and what the ladder keeps of their sectors on its way from
one step to the next (R141 to R149). -/

namespace Sys2Proof.Proofs

open Sys2Proof Sys2Proof.Machine Sys2Proof.Laws

/-! ## The records of a block -/

/-- The records of a block among the target blocks; `block?` finds the first of them. -/
def recordsAt (s : State) (b l n : Nat) : List Block := s.recov.blocks.filter (·.at b l n)

theorem block?_eq_head (s : State) (b l n : Nat) : s.block? b l n = (recordsAt s b l n).head? := (List.head?_filter ..).symm

theorem block?_mem {s : State} {b l n : Nat} {x : Block} (h : s.block? b l n = some x) : x ∈ recordsAt s b l n :=
  List.mem_of_mem_head? (by rw [← block?_eq_head, h]; rfl)

theorem recordsAt_of_blocks_eq {s t : State} (h : t.recov.blocks = s.recov.blocks) (b l n : Nat) :
    recordsAt t b l n = recordsAt s b l n := by rw [recordsAt, recordsAt, h]

theorem block?_of_blocks_eq {s t : State} (h : t.recov.blocks = s.recov.blocks) (b l n : Nat) : t.block? b l n = s.block? b l n := by
  rw [State.block?, State.block?, h]

section
variable {s : State} {b l n : Nat} {f : Block → Block}

/-- An update that leaves a block in its place updates each of its records. -/
theorem recordsAt_modBlock (hf : ∀ y, (f y).at b l n = y.at b l n) :
    recordsAt (s.modBlock b l n f) b l n = (recordsAt s b l n).map f := by
  have hsame : (fun y : Block => y.at b l n) ∘ (fun y => if y.at b l n then f y else y) = fun y => y.at b l n := by
    funext y
    rw [Function.comp_apply]
    split
    · exact hf y
    · rfl
  rw [recordsAt, recordsAt, State.modBlock, List.filter_map, hsame]
  exact List.map_congr_left fun y hy => if_pos (List.mem_filter.1 hy).2

theorem block?_modBlock (hf : ∀ y, (f y).at b l n = y.at b l n) : (s.modBlock b l n f).block? b l n = (s.block? b l n).map f := by
  rw [block?_eq_head, block?_eq_head, recordsAt_modBlock hf, List.head?_map]

theorem isSome_modBlock (hf : ∀ y, (f y).at b l n = y.at b l n) (hx : (s.block? b l n).isSome = true) :
    ((s.modBlock b l n f).block? b l n).isSome = true := by rwa [block?_modBlock hf, Option.isSome_map]

theorem forall_recordsAt_modBlock {P : Block → Prop} (hf : ∀ y, (f y).at b l n = y.at b l n)
    (hP : ∀ y ∈ recordsAt s b l n, P (f y)) : ∀ z ∈ recordsAt (s.modBlock b l n f) b l n, P z := by
  rw [recordsAt_modBlock hf]
  exact List.forall_mem_map.2 hP

end

theorem sec_modSec (x : Block) (k j : Nat) (f : SecRec → SecRec) : (x.modSec k f).sec j = if j = k then f (x.sec k) else x.sec j :=
  Tbl_get_set _ _ _ _ _

@[simp] theorem sec_modSec_same (x : Block) (k : Nat) (f : SecRec → SecRec) : (x.modSec k f).sec k = f (x.sec k) :=
  Tbl_get_upd_same _ _ _ _

/-- A map over a table's entries that keeps their places keeps what it keeps of each value. -/
theorem Tbl_get_map_keeps {β γ : Type} (d : β) (o : β → γ) {g : Nat × β → Nat × β} (hk : ∀ e, (g e).1 = e.1)
    (ho : ∀ e, o (g e).2 = o e.2) (t : Tbl β) (k : Nat) : o (Tbl.get d (t.map g) k) = o (Tbl.get d t k) := by
  induction t with
  | nil => rfl
  | cons e r ih =>
    obtain ⟨i, v⟩ := e
    have hcons : Tbl.get d (((i, v) :: r).map g) k = if i = k then (g (i, v)).2 else Tbl.get d (r.map g) k := by
      rw [List.map_cons, Tbl.get, hk]
    rw [hcons, Tbl.get]
    split
    · exact ho (i, v)
    · exact ih

/-! ## Steps that leave the sectors where they stand -/

/-- Where a sector stands: its state, and the step that it has come to. -/
def secPlace (r : SecRec) : SecState × Nat := (r.state, r.step)

/-- From `s` to `t` a target block stays one, and its sectors stand where they stood. -/
structure KeepsSectors (b l n : Nat) (s t : State) : Prop where
  stands : (s.block? b l n).isSome = true → (t.block? b l n).isSome = true
  same : ∀ z ∈ recordsAt t b l n, ∃ y ∈ recordsAt s b l n, ∀ k, secPlace (z.sec k) = secPlace (y.sec k)

section
variable {b l n : Nat} {s t u : State}

theorem keepsSectors_of_blocks_eq (h : t.recov.blocks = s.recov.blocks) : KeepsSectors b l n s t where
  stands hs := by rwa [block?_of_blocks_eq h]
  same z hz := ⟨z, by rwa [← recordsAt_of_blocks_eq h], fun _ => rfl⟩

theorem keepsSectors_refl (b l n : Nat) (s : State) : KeepsSectors b l n s s := keepsSectors_of_blocks_eq rfl

theorem keepsSectors_of_changesOnly {ps : List Part} (h : s.changesOnly ps t) (hp : Part.recov ∉ ps) : KeepsSectors b l n s t :=
  keepsSectors_of_blocks_eq (congrArg Recovery.blocks (h .recov hp))

theorem keepsSectors_trans (h : KeepsSectors b l n s t) (g : KeepsSectors b l n t u) : KeepsSectors b l n s u where
  stands hs := g.stands (h.stands hs)
  same z hz := by
    obtain ⟨y, hy, hzy⟩ := g.same z hz
    obtain ⟨x, hx, hyx⟩ := h.same y hy
    exact ⟨x, hx, fun k => (hzy k).trans (hyx k)⟩

theorem keepsSectors_ite {p : Prop} [Decidable p] (h : p → KeepsSectors b l n s t) (g : ¬p → KeepsSectors b l n s u) :
    KeepsSectors b l n s (if p then t else u) := by
  split
  next hp => exact h hp
  next hp => exact g hp

theorem keepsSectors_foldl {α : Type} (f : State → α → State) (h : ∀ v a, KeepsSectors b l n v (f v a)) (r : List α) (s : State) :
    KeepsSectors b l n s (r.foldl f s) := by
  induction r generalizing s with
  | nil => exact keepsSectors_refl b l n s
  | cons a r ih => exact keepsSectors_trans (h s a) (ih _)

theorem modBlock_keepsSectors {f : Block → Block} (hf : ∀ y, (f y).at b l n = y.at b l n)
    (hsec : ∀ y k, secPlace ((f y).sec k) = secPlace (y.sec k)) : KeepsSectors b l n s (s.modBlock b l n f) where
  stands := isSome_modBlock hf
  same := forall_recordsAt_modBlock hf fun y hy => ⟨y, hy, hsec y⟩

/-- An update of one sector that leaves it where it stands. -/
theorem modSec_keepsSectors (k : Nat) {f : SecRec → SecRec} (hf : ∀ r, secPlace (f r) = secPlace r) :
    KeepsSectors b l n s (s.modBlock b l n fun y => y.modSec k f) := by
  refine modBlock_keepsSectors (fun _ => rfl) fun y j => ?_
  rw [sec_modSec]
  split
  next h => rw [hf, h]
  next => rfl

/-- What held of each record's sector still holds. -/
theorem KeepsSectors.forall_place (h : KeepsSectors b l n s t) {k : Nat} {P : SecState × Nat → Prop}
    (hs : ∀ y ∈ recordsAt s b l n, P (secPlace (y.sec k))) : ∀ z ∈ recordsAt t b l n, P (secPlace (z.sec k)) := by
  intro z hz
  obtain ⟨y, hy, hzy⟩ := h.same z hz
  exact hzy k ▸ hs y hy

end

/-! ## Steps 5 to 7 (R148, R149, R155, R157) -/

theorem passOver_keepsSectors (s : State) (b l n k step : Nat) : KeepsSectors b l n s (passOver s b l n k step) := by
  have hmarked : KeepsSectors b l n s (s.modBlock b l n fun x =>
      x.modSec k fun r => { r with passedOver := r.passedOver ||| (1 <<< (step - 1)) }) :=
    modSec_keepsSectors k fun _ => rfl
  unfold passOver
  dsimp only
  split
  · exact keepsSectors_trans hmarked (keepsSectors_of_changesOnly (recLog_changesOnly _ _) (by simp))
  · exact hmarked

theorem passOverBlock_keepsSectors (s : State) (b l n step : Nat) : KeepsSectors b l n s (passOverBlock s b l n step) := by
  unfold passOverBlock
  split
  · exact keepsSectors_foldl _ (fun v k => passOver_keepsSectors v b l n k step) _ s
  · exact keepsSectors_refl b l n s

theorem enterBlock_keepsSectors (s : State) (b l n step : Nat) : KeepsSectors b l n s (enterBlock s b l n step) := by
  unfold enterBlock
  split
  · exact keepsSectors_foldl _ (fun v _ => keepsSectors_of_changesOnly (enterLog_changesOnly v _) (by simp)) _ s
  · exact keepsSectors_refl b l n s

theorem toCourse_keepsSectors (s : State) (b l n : Nat) : KeepsSectors b l n s (toCourse s b l n) :=
  modBlock_keepsSectors (fun _ => rfl) fun _ _ => rfl

theorem ruleOut_keepsSectors (s : State) (b l n : Nat) : KeepsSectors b l n s (ruleOut s b l n) :=
  modBlock_keepsSectors (fun _ => rfl) fun _ _ => rfl

/-- The state in which a pass of step `st` begins to wait: its sectors are entered in the log (R154). -/
def passEntered (s : State) (b l n st : Nat) : State :=
  match s.block? b l n with
  | some x => if (match x.phase with | .reread v _ => v == st | _ => false) then s else enterBlock s b l n st
  | none => s

theorem waitPass_eq (s : State) (b l n st p : Nat) (resuming : Bool) : waitPass s b l n st p resuming =
    (passEntered s b l n st).modBlock b l n fun x =>
      { x with phase := .reread st p, since := if resuming then x.passAt.getD s.now else s.now, passAt := none, resuming := resuming
               secs := x.secs.map (fun (e : Nat × SecRec) => (e.1, { e.2 with passRead := false })) } := rfl

theorem waitPass_keepsSectors (s : State) (b l n st p : Nat) (r : Bool) : KeepsSectors b l n s (waitPass s b l n st p r) := by
  have hentered : KeepsSectors b l n s (passEntered s b l n st) := by
    unfold passEntered
    split
    · exact keepsSectors_ite (fun _ => keepsSectors_refl b l n s) fun _ => enterBlock_keepsSectors s b l n st
    · exact keepsSectors_refl b l n s
  rw [waitPass_eq]
  exact keepsSectors_trans hentered (modBlock_keepsSectors (fun _ => rfl) fun y k =>
    Tbl_get_map_keeps (g := fun e => (e.1, { e.2 with passRead := false })) ({} : SecRec) secPlace (fun _ => rfl) (fun _ => rfl) y.secs k)

theorem toStep6_keepsSectors (fuel : Nat) (s : State) (b l n p : Nat) : KeepsSectors b l n s (toStep6 fuel s b l n p) := by
  have hcourse (u : State) : KeepsSectors b l n u (toCourse u b l n) := toCourse_keepsSectors u b l n
  have hpassed : KeepsSectors b l n s (passOverBlock s b l n 6) := passOverBlock_keepsSectors s b l n 6
  have hruled (u : State) : KeepsSectors b l n u (toCourse (ruleOut u b l n) b l n) :=
    keepsSectors_trans (ruleOut_keepsSectors u b l n) (hcourse _)
  induction fuel generalizing p with
  | zero => exact hcourse s
  | succ fuel ih =>
    rw [toStep6]
    split
    · exact keepsSectors_refl b l n s
    refine keepsSectors_ite (fun _ => hcourse s) fun _ => keepsSectors_ite (fun _ => ?_) fun _ => ?_
    · exact keepsSectors_ite (fun _ => waitPass_keepsSectors s b l n 6 p true) fun _ => keepsSectors_trans hpassed (hruled _)
    refine keepsSectors_ite (fun _ => keepsSectors_trans hpassed (hcourse _)) fun _ => keepsSectors_ite (fun _ => hruled s) fun _ => ?_
    exact keepsSectors_ite (fun _ => ih (p + 1)) fun _ => waitPass_keepsSectors s b l n 6 p false

theorem toStep5_keepsSectors (s : State) (b l n p : Nat) : KeepsSectors b l n s (toStep5 s b l n p) := by
  have hsix (u : State) : KeepsSectors b l n u (toStep6 2 u b l n 1) := toStep6_keepsSectors 2 u b l n 1
  have hruled (u : State) : KeepsSectors b l n u (toStep6 2 (ruleOut u b l n) b l n 1) :=
    keepsSectors_trans (ruleOut_keepsSectors u b l n) (hsix _)
  unfold toStep5
  split
  · exact keepsSectors_refl b l n s
  refine keepsSectors_ite (fun _ => hsix s) fun _ => keepsSectors_ite (fun _ => ?_) fun _ => ?_
  · exact keepsSectors_ite (fun _ => waitPass_keepsSectors s b l n 5 p true)
      fun _ => keepsSectors_trans (passOverBlock_keepsSectors s b l n 5) (hruled _)
  · exact keepsSectors_ite (fun _ => hruled s) fun _ => waitPass_keepsSectors s b l n 5 p false

theorem toCourse_phase (s : State) (b l n : Nat) : ∀ y ∈ recordsAt (toCourse s b l n) b l n, y.phase = .course :=
  forall_recordsAt_modBlock (fun _ => rfl) fun _ _ => rfl

theorem waitPass_phase (s : State) (b l n st p : Nat) (r : Bool) :
    ∀ y ∈ recordsAt (waitPass s b l n st p r) b l n, y.phase = .reread st p :=
  waitPass_eq s b l n st p r ▸ forall_recordsAt_modBlock (fun _ => rfl) fun _ _ => rfl

/-- Phases that a ladder bound for pass `p` of step 6 may come to: that pass or a later one, or step 7. -/
def fromStep6 (p : Nat) (v : BlockPhase) : Prop := v = .course ∨ ∃ q, p ≤ q ∧ v = .reread 6 q

/-- Phases that a ladder bound for pass `p` of step 5 may come to: that pass, or what follows step 5. -/
def fromStep5 (p : Nat) (v : BlockPhase) : Prop := v = .reread 5 p ∨ fromStep6 1 v

theorem fromStep5_ne_thatch {p : Nat} {v : BlockPhase} (h : fromStep5 p v) : v ≠ .thatch := by
  rcases h with rfl | rfl | ⟨q, -, rfl⟩
  · simp
  · simp
  · simp

theorem toStep6_phase (fuel : Nat) {s : State} {b l n : Nat} (hx : (s.block? b l n).isSome = true) (p : Nat) :
    ∀ y ∈ recordsAt (toStep6 fuel s b l n p) b l n, fromStep6 p y.phase := by
  have hcourse (u : State) (p : Nat) : ∀ y ∈ recordsAt (toCourse u b l n) b l n, fromStep6 p y.phase :=
    fun y hy => .inl (toCourse_phase u b l n y hy)
  have hwait (p : Nat) (r : Bool) : ∀ y ∈ recordsAt (waitPass s b l n 6 p r) b l n, fromStep6 p y.phase :=
    fun y hy => .inr ⟨p, Nat.le_refl p, waitPass_phase s b l n 6 p r y hy⟩
  induction fuel generalizing p with
  | zero => exact hcourse s p
  | succ fuel ih =>
    rw [toStep6]
    split
    next hnone => simp [hnone] at hx
    split_ifs
    · exact hcourse s p
    · exact hwait p true
    · exact hcourse _ p
    · exact hcourse _ p
    · exact hcourse _ p
    · exact fun y hy => (ih (p + 1) y hy).imp_right fun ⟨q, hq, hy⟩ => ⟨q, Nat.le_of_succ_le hq, hy⟩
    · exact hwait p false

theorem toStep5_phase {s : State} {b l n : Nat} (hx : (s.block? b l n).isSome = true) (p : Nat) :
    ∀ y ∈ recordsAt (toStep5 s b l n p) b l n, fromStep5 p y.phase := by
  have hwait (r : Bool) : ∀ y ∈ recordsAt (waitPass s b l n 5 p r) b l n, fromStep5 p y.phase :=
    fun y hy => .inl (waitPass_phase s b l n 5 p r y hy)
  have hsix (u : State) (hu : KeepsSectors b l n s u) : ∀ y ∈ recordsAt (toStep6 2 u b l n 1) b l n, fromStep5 p y.phase :=
    fun y hy => .inr (toStep6_phase 2 (hu.stands hx) 1 y hy)
  have hruled (u : State) (hu : KeepsSectors b l n s u) : KeepsSectors b l n s (ruleOut u b l n) :=
    keepsSectors_trans hu (ruleOut_keepsSectors u b l n)
  unfold toStep5
  split
  next hnone => simp [hnone] at hx
  split_ifs
  · exact hsix s (keepsSectors_refl b l n s)
  · exact hwait true
  · exact hsix _ (hruled _ (passOverBlock_keepsSectors s b l n 5))
  · exact hsix _ (hruled s (keepsSectors_refl b l n s))
  · exact hwait false

end Sys2Proof.Proofs
end

section
/-! SUPPORT. Steps 1 to 3 of the ladder: a decode leaves the sectors where they stand, and a step that reaches its limit ends
(R142 to R146). -/

namespace Sys2Proof.Proofs

open Sys2Proof Sys2Proof.Machine Sys2Proof.Laws

theorem blockComplete_keepsSectors (s : State) (b l n : Nat) : KeepsSectors b l n s (blockComplete s b l n) := by
  have hphase (f : Block → Block) (hf : ∀ y, (f y).at b l n = y.at b l n) (hsec : ∀ y k, (f y).sec k = y.sec k) :
      KeepsSectors b l n s (s.modBlock b l n f) := modBlock_keepsSectors hf fun y k => by rw [hsec]
  have hlate (m : Block → Nat) :
      KeepsSectors b l n s (toStep5 ((ruleOut s b l n).modBlock b l n fun x => { x with erasures := m x }) b l n 1) :=
    keepsSectors_trans (ruleOut_keepsSectors s b l n)
      (keepsSectors_trans (modBlock_keepsSectors (by intro y; rfl) (by intro y k; rfl)) (toStep5_keepsSectors _ b l n 1))
  have hstay : KeepsSectors b l n s s := keepsSectors_refl b l n s
  unfold blockComplete
  split
  · exact hstay
  refine keepsSectors_ite (fun _ => keepsSectors_ite (fun _ => hphase _ (fun _ => rfl) fun _ _ => rfl) fun _ => hstay) fun _ => ?_
  split
  case h_3 => exact hstay
  all_goals exact keepsSectors_ite (fun _ => hphase _ (fun _ => rfl) fun _ _ => rfl) fun _ =>
    keepsSectors_ite (fun _ => hlate _) fun _ => hphase _ (fun _ => rfl) fun _ _ => rfl

/-! ## Decodes (R144 to R146) -/

theorem nextDecode_keepsSectors {s t : State} {b l n k : Nat} {x : Block} {kept : Kept} {j : LdpcJob}
    (h : nextDecode s b l n k x kept = some (t, j)) : KeepsSectors b l n s t := by
  have hcount {f : SecRec → SecRec} {d : LdpcJob} (hf : ∀ r, secPlace (f r) = secPlace r)
      (hs : some (s.modBlock b l n fun x => x.modSec k f, d) = some (t, j)) : KeepsSectors b l n s t := by
    cases hs
    exact modSec_keepsSectors k hf
  unfold nextDecode at h
  dsimp only at h
  split at h
  · cases h
  split at h
  · split at h
    · cases h
    · exact hcount (by intro r; rfl) h
  · split at h
    · cases h
    · exact hcount (by intro r; rfl) h
  · split at h
    · cases h
    split at h
    · cases h
    · exact hcount (by intro r; rfl) h

/-- Whether a decode of a step is sent or all are spent, the sectors stand where they stood. -/
theorem runStep_keepsSectors (fuel : Nat) (s : State) (b l n k : Nat) :
    (∀ t, (runStep fuel s b l n k).1 = some t → KeepsSectors b l n s t) ∧ KeepsSectors b l n s (runStep fuel s b l n k).2 := by
  induction fuel generalizing s with
  | zero => exact ⟨by simp [runStep], keepsSectors_refl b l n s⟩
  | succ fuel ih =>
    rw [runStep]
    split
    case h_2 => exact ⟨by simp, keepsSectors_refl b l n s⟩
    split
    · exact ⟨by simp, keepsSectors_refl b l n s⟩
    next s1 j hnext =>
      have hs1 := nextDecode_keepsSectors hnext
      split
      · have hs2 : KeepsSectors b l n s (s1.modBlock b l n fun x => x.modSec k fun r => { r with carried := max r.carried r.step }) :=
          keepsSectors_trans hs1 (modSec_keepsSectors k fun _ => rfl)
        exact ⟨fun t h => by cases h; exact keepsSectors_trans hs2 (keepsSectors_of_blocks_eq rfl), hs2⟩
      · obtain ⟨hsent, hspent⟩ := ih s1
        exact ⟨fun t h => keepsSectors_trans hs1 (hsent t h), keepsSectors_trans hs1 hspent⟩

/-! ## The end of steps 1 to 3 (R142, R143) -/

/-- A sector that ends steps 1 to 3 is marked failed, and where the sectors then stand, they stay. -/
theorem sectorFailed_keepsSectors (s : State) (b l n k : Nat) :
    KeepsSectors b l n (s.modBlock b l n fun x => x.modSec k fun r => { r with state := .failed }) (sectorFailed s b l n k) := by
  have hended (u : State) (a : Nat) : KeepsSectors b l n u (blockComplete (dropRetry u b a) b l n) :=
    keepsSectors_trans (keepsSectors_of_blocks_eq (t := dropRetry u b a) rfl) (blockComplete_keepsSectors _ b l n)
  have hjob (u : State) (a : SlotAddr) : KeepsSectors b l n u (u.dropJob b a) := keepsSectors_of_blocks_eq rfl
  unfold sectorFailed
  dsimp only
  split
  · exact keepsSectors_trans (hjob _ _) (hended _ _)
  · exact hended _ _

theorem sectorFailed_spec {s : State} {b l n : Nat} (hx : (s.block? b l n).isSome = true) (k : Nat) :
    ((sectorFailed s b l n k).block? b l n).isSome = true ∧
    ∀ y ∈ recordsAt (sectorFailed s b l n k) b l n, (y.sec k).state = .failed := by
  have hkept := sectorFailed_keepsSectors s b l n k
  refine ⟨hkept.stands (isSome_modBlock (by intro y; rfl) hx), ?_⟩
  exact hkept.forall_place (P := fun v => v.1 = .failed) (forall_recordsAt_modBlock (fun _ => rfl) fun y _ => by simp [secPlace])

/-- Past step 3 a sector ends its steps. -/
theorem sectorStep_past {s : State} {b l n : Nat} (hx : (s.block? b l n).isSome = true) (fuel k : Nat) {step : Nat} (hstep : 3 < step) :
    sectorStep fuel s b l n k step = sectorFailed s b l n k := by
  obtain ⟨x, hx⟩ := Option.isSome_iff_exists.1 hx
  cases fuel with
  | zero => rfl
  | succ fuel =>
    unfold sectorStep
    simp [hx, hstep]

/-- Step 3 is begun, or the sector ends its steps. -/
theorem sectorStep_three {s : State} {b l n : Nat} (hx : (s.block? b l n).isSome = true) (fuel k : Nat) :
    ((sectorStep (fuel + 1) s b l n k 3).block? b l n).isSome = true ∧
    ∀ y ∈ recordsAt (sectorStep (fuel + 1) s b l n k 3) b l n, (y.sec k).state ≠ .decoding ∨ (y.sec k).step = 3 := by
  have hpast {u : State} (hu : (u.block? b l n).isSome = true) : ((sectorStep fuel u b l n k 4).block? b l n).isSome = true ∧
      ∀ y ∈ recordsAt (sectorStep fuel u b l n k 4) b l n, (y.sec k).state ≠ .decoding ∨ (y.sec k).step = 3 := by
    rw [sectorStep_past hu fuel k (by decide)]
    obtain ⟨hstands, hfailed⟩ := sectorFailed_spec hu k
    exact ⟨hstands, fun y hy => .inl (by simp [hfailed y hy])⟩
  have hbegun : ((beginStep s b l n k 3).block? b l n).isSome = true :=
    isSome_modBlock (by intro y; rfl) hx
  have hthree : ∀ y ∈ recordsAt (beginStep s b l n k 3) b l n, (secPlace (y.sec k)).2 = 3 :=
    forall_recordsAt_modBlock (by intro y; rfl) fun y _ => by simp [secPlace]
  obtain ⟨hsent, hspent⟩ := runStep_keepsSectors 80 (beginStep s b l n k 3) b l n k
  unfold sectorStep
  split
  next hnone => simp [hnone] at hx
  dsimp only
  rw [if_neg (by decide)]
  split_ifs
  · exact hpast hx
  · exact hpast ((passOver_keepsSectors s b l n k 3).stands hx)
  · exact hpast hx
  split
  next t ht => exact ⟨(hsent t ht).stands hbegun, fun y hy => .inr ((hsent t ht).forall_place (P := fun v => v.2 = 3) hthree y hy)⟩
  next => exact hpast (hspent.stands hbegun)

end Sys2Proof.Proofs
end

section
/-! SUPPORT. Sectors of a block accepted or lost: what that decides for the commands, and where step 4 and a re-read pass lead
(R86, R140, R143, R147 to R151, R158). -/

namespace Sys2Proof.Proofs

open Sys2Proof Sys2Proof.Machine Sys2Proof.Laws

/-- The parts that a step may touch that decides sectors of a block. -/
abbrev decideParts : List Part := [.recov, .tags, .logs, .events, .freeCtr, .bays]

/-- From `s` to `t` sectors of commands are at most decided, the block at a place stays a target, and no more than the parts above
change. -/
structure Decides (b l n : Nat) (s t : State) : Prop where
  decided : s.keepsDecided t
  wants : WantsNoMore s t
  stands : (s.block? b l n).isSome = true → (t.block? b l n).isSome = true
  frame : s.changesOnly decideParts t

section
variable {b l n : Nat} {s t u : State}

/-- A step that leaves the commands. -/
theorem decides_of_changesOnly {ps : List Part} (h : s.changesOnly ps t) (htags : Part.tags ∉ ps) (hs : ps ⊆ decideParts)
    (hstands : (s.block? b l n).isSome = true → (t.block? b l n).isSome = true) : Decides b l n s t where
  decided := keepsDecided_of_changesOnly h htags
  wants := wantsNoMore_of_tags_eq (h .tags htags)
  stands := hstands
  frame := changesOnly_mono h hs

theorem decides_refl (b l n : Nat) (s : State) : Decides b l n s s :=
  decides_of_changesOnly (changesOnly_refl [] s) (by simp) (by simp) id

theorem decides_trans (h : Decides b l n s t) (g : Decides b l n t u) : Decides b l n s u where
  decided := keepsDecided_trans h.decided g.decided
  wants := wantsNoMore_trans h.wants g.wants
  stands hs := g.stands (h.stands hs)
  frame := changesOnly_trans h.frame g.frame

theorem decides_foldl {α : Type} (f : State → α → State) (h : ∀ v a, Decides b l n v (f v a)) (r : List α) (s : State) :
    Decides b l n s (r.foldl f s) := by
  induction r generalizing s with
  | nil => exact decides_refl b l n s
  | cons a r ih => exact decides_trans (h s a) (ih _)

/-- Of a run of steps that each decide a sector, every one is decided in the end. -/
theorem cmdWants_foldl {α : Type} (f : State → α → State) (key : α → Nat) (h : ∀ v a, Decides b l n v (f v a))
    (hkey : ∀ v a, (v.block? b l n).isSome = true → cmdWants (f v a) b l n (key a) = false) (r : List α)
    (hs : (s.block? b l n).isSome = true) : ∀ a ∈ r, cmdWants (r.foldl f s) b l n (key a) = false := by
  induction r generalizing s with
  | nil => simp
  | cons a r ih =>
    intro c hc
    rcases List.mem_cons.1 hc with rfl | hc
    · exact (decides_foldl f h r _).wants.settled (hkey s c hs)
    · exact ih ((h s a).stands hs) c hc

/-- Decided sectors of commands leave the blocks. -/
theorem settle_decides {carried : Nat} {p : Cmd → CmdSector → Bool} {f : Cmd → CmdSector → CmdSector}
    (hf : ∀ c x, (f c x).outcome ≠ .pending) : Decides b l n s (settle s carried p f) where
  decided := settle_keepsDecided s carried p f
  wants := settle_wantsNoMore hf
  stands hs := hs
  frame := changesOnly_mono (settle_changesOnly s carried p f) (by simp)

end

/-! ## A sector is accepted, or lost (R140, R151, R158) -/

theorem noteRecovered_changesOnly (s : State) (b l n k depth : Nat) :
    s.changesOnly [.recov, .logs, .events] (noteRecovered s b l n k depth) := by
  unfold noteRecovered
  refine changesOnly_ite (changesOnly_refl _ s) (changesOnly_ite (changesOnly_mono (withRecov_changesOnly s _) (by simp)) ?_)
  split
  · exact changesOnly_mono (recLog_changesOnly s _) (by simp)
  · exact changesOnly_refl _ s

theorem noteRecovered_blocks (s : State) (b l n k depth : Nat) : (noteRecovered s b l n k depth).recov.blocks = s.recov.blocks := by
  unfold noteRecovered
  split_ifs
  · rfl
  · rfl
  · split
    · exact congrArg Recovery.blocks (recLog_changesOnly s _ .recov (by simp))
    · rfl

/-- An accepted sector is noted in its block, and then delivered. -/
theorem acceptSector_delivers (s : State) (b l n k depth : Nat) (bytes : List Byte) : ∃ u carried,
    Decides b l n s u ∧ acceptSector s b l n k depth bytes = deliver u b l n k bytes depth carried := by
  refine ⟨_, _, ?_, rfl⟩
  have hnoted (v : State) : Decides b l n v (noteRecovered v b l n k depth) :=
    decides_of_changesOnly (noteRecovered_changesOnly v b l n k depth) (by simp) (by simp)
      fun h => by rwa [block?_of_blocks_eq (noteRecovered_blocks v b l n k depth)]
  have hdropped (v : State) (a : Nat) : Decides b l n v (dropRetry v b a) :=
    decides_of_changesOnly (modBay_changesOnly v b _) (by simp) (by simp) id
  exact decides_trans (decides_of_changesOnly (modBlock_changesOnly s b l n _) (by simp) (by simp)
    (isSome_modBlock (by intro y; rfl))) (decides_trans (hdropped _ _) (hnoted _))

theorem acceptSector_decides (s : State) (b l n k depth : Nat) (bytes : List Byte) :
    Decides b l n s (acceptSector s b l n k depth bytes) := by
  obtain ⟨u, carried, hu, heq⟩ := acceptSector_delivers s b l n k depth bytes
  rw [heq]
  exact decides_trans hu (settle_decides (sectorOut_outcome _ _ _ _))

theorem cmdWants_acceptSector (s : State) (b l n k depth : Nat) (bytes : List Byte) :
    cmdWants (acceptSector s b l n k depth bytes) b l n k = false := by
  obtain ⟨u, carried, -, heq⟩ := acceptSector_delivers s b l n k depth bytes
  rw [heq]
  exact cmdWants_settle (fun _ _ h => h) (sectorOut_outcome _ _ _ _)

/-- What `loseSector` notes of a sector in its block. -/
theorem loseMarked_decides (s : State) (b l n k : Nat) : Decides b l n s
    ((passOver s b l n k 7).modBlock b l n fun x => x.modSec k fun r => { r with state := .lost, depth := 8 }) :=
  decides_trans (decides_of_changesOnly (passOver_changesOnly s b l n k 7) (by simp) (by simp) (passOver_keepsSectors s b l n k 7).stands)
    (decides_of_changesOnly (modBlock_changesOnly _ b l n _) (by simp) (by simp) (isSome_modBlock (by intro y; rfl)))

theorem loseSector_decides (s : State) (b l n k : Nat) : Decides b l n s (loseSector s b l n k) := by
  have hlogged (u : State) (e : RecEntry) : Decides b l n u (recLog u e) :=
    decides_of_changesOnly (recLog_changesOnly u e) (by simp) (by simp)
      (keepsSectors_of_changesOnly (recLog_changesOnly u e) (by simp)).stands
  unfold loseSector
  dsimp only
  split
  · exact loseMarked_decides s b l n k
  · exact decides_trans (loseMarked_decides s b l n k) (decides_trans (hlogged _ _) (settle_decides (by simp)))

theorem cmdWants_loseSector {s : State} {b l n : Nat} (hx : (s.block? b l n).isSome = true) (k : Nat) :
    cmdWants (loseSector s b l n k) b l n k = false := by
  have hmarked := (loseMarked_decides s b l n k).stands hx
  unfold loseSector
  dsimp only
  split
  next hnone => simp [hnone] at hmarked
  next => exact cmdWants_settle (fun _ _ h => h) (by simp)

/-! ## Step 4 (R86, R147, R150) -/

theorem thatchSectors_of_bays_eq {s t : State} (h : t.bays = s.bays) (x : Block) : thatchSectors t x = thatchSectors s x := by
  have hbays : thatchSectors t x = thatchSectors { s with bays := t.bays } x := rfl
  rw [hbays, h]

/-- The state in which step `st` has been made for a block: for its erased sectors, whose number the block notes (R153). -/
def thatchMade (s : State) (b l n st : Nat) : State :=
  (carriedOut s b l n st).modBlock b l n fun x => { x with erasures := (erasedOf s x).length }

theorem thatchMade_changesOnly (s : State) (b l n st : Nat) : s.changesOnly [.recov] (thatchMade s b l n st) :=
  changesOnly_trans (modBlock_changesOnly s b l n _) (modBlock_changesOnly _ b l n _)

theorem thatchMade_stands {s : State} {b l n : Nat} (hx : (s.block? b l n).isSome = true) (st : Nat) :
    ((thatchMade s b l n st).block? b l n).isSome = true :=
  isSome_modBlock (by intro y; rfl) (isSome_modBlock (by intro y; rfl) hx)

section
variable {s : State} {b l n : Nat} {x : Block}

/-- Step 4 that rebuilds the block's erased sectors accepts them, and the block is done. -/
theorem thatchStep4_of_some (hx : s.block? b l n = some x) {out : List (Nat × List Byte)} (hout : thatchSectors s x = some out)
    (st p : Nat) : thatchStep4 s b l n st p =
      (out.foldl (fun a e => acceptSector a b l n e.1 st e.2) (thatchMade s b l n st)).modBlock b l n fun x =>
        { x with phase := .done, since := s.now, passAt := none } := by
  have hmade := (thatchSectors_of_bays_eq (thatchMade_changesOnly s b l n st .bays (by simp)) x).trans hout
  unfold thatchMade at hmade ⊢
  simp only [thatchStep4, hx, hmade]

/-- Step 4 that does not rebuild them leads on: to step 5, or from a pass to the next. -/
theorem thatchStep4_of_none (hx : s.block? b l n = some x) (hout : thatchSectors s x = none) (st p : Nat) :
    thatchStep4 s b l n st p = if st = 4 then toStep5 (thatchMade s b l n st) b l n 1 else nextPass (thatchMade s b l n st) b l n st p := by
  have hmade := (thatchSectors_of_bays_eq (thatchMade_changesOnly s b l n st .bays (by simp)) x).trans hout
  unfold thatchMade at hmade ⊢
  simp only [thatchStep4, hx, hmade]

end

theorem nextPass_changesOnly (s : State) (b l n st p : Nat) : s.changesOnly ladderParts (nextPass s b l n st p) :=
  changesOnly_ite (toStep5_changesOnly s b l n _) (toStep6_changesOnly 2 s b l n _)

theorem nextPass_keepsSectors (s : State) (b l n st p : Nat) : KeepsSectors b l n s (nextPass s b l n st p) :=
  keepsSectors_ite (fun _ => toStep5_keepsSectors s b l n _) fun _ => toStep6_keepsSectors 2 s b l n _

/-- After a pass the ladder is not in that pass any more. -/
theorem nextPass_phase {s : State} {b l n : Nat} (hx : (s.block? b l n).isSome = true) (st p : Nat) :
    ∀ y ∈ recordsAt (nextPass s b l n st p) b l n, y.phase ≠ .reread st p := by
  unfold nextPass
  split
  next hst =>
    subst hst
    intro y hy
    rcases toStep5_phase hx (p + 1) y hy with h | h | ⟨q, -, h⟩ <;> simp [h]
  next hst =>
    intro y hy
    rcases toStep6_phase 2 hx (p + 1) y hy with h | ⟨q, hq, h⟩
    · simp [h]
    · simp only [h, ne_eq, BlockPhase.reread.injEq, not_and]
      omega

/-- Where step 4 leads: the block is done, or goes on to a pass that it has not made. -/
theorem thatchStep4_phase {s : State} {b l n : Nat} {x : Block} (hx : s.block? b l n = some x) (st p : Nat) :
    ∀ y ∈ recordsAt (thatchStep4 s b l n st p) b l n, y.phase ≠ .reread st p := by
  have hmade := thatchMade_stands (s := s) (b := b) (l := l) (n := n) (by simp [hx]) st
  cases hout : thatchSectors s x with
  | some out =>
    rw [thatchStep4_of_some hx hout]
    exact forall_recordsAt_modBlock (by intro y; rfl) (by simp)
  | none =>
    rw [thatchStep4_of_none hx hout]
    split
    next hst =>
      subst hst
      intro y hy
      rcases toStep5_phase hmade 1 y hy with h | h | ⟨q, -, h⟩ <;> simp [h]
    next => exact nextPass_phase hmade st p

theorem thatchStep4_decides (s : State) (b l n st p : Nat) : Decides b l n s (thatchStep4 s b l n st p) := by
  cases hx : s.block? b l n with
  | none =>
    rw [thatchStep4, hx]
    exact decides_refl b l n s
  | some x =>
    have hmade : Decides b l n s (thatchMade s b l n st) :=
      decides_of_changesOnly (thatchMade_changesOnly s b l n st) (by simp) (by simp) fun h => thatchMade_stands h st
    have hladder {u v : State} (hf : u.changesOnly ladderParts v) (hk : KeepsSectors b l n u v) : Decides b l n u v :=
      decides_of_changesOnly hf (by simp) (by simp) hk.stands
    cases hout : thatchSectors s x with
    | some out =>
      rw [thatchStep4_of_some hx hout]
      have haccepted (u : State) : Decides b l n u (out.foldl (fun a e => acceptSector a b l n e.1 st e.2) u) :=
        decides_foldl _ (fun v (e : Nat × List Byte) => acceptSector_decides v b l n e.1 st e.2) out u
      exact decides_trans hmade (decides_trans (haccepted _)
        (decides_of_changesOnly (modBlock_changesOnly _ b l n _) (by simp) (by simp) (isSome_modBlock (by intro y; rfl))))
    | none =>
      rw [thatchStep4_of_none hx hout]
      refine decides_trans hmade ?_
      split
      · exact hladder (toStep5_changesOnly _ b l n 1) (toStep5_keepsSectors _ b l n 1)
      · exact hladder (nextPass_changesOnly _ b l n st p) (nextPass_keepsSectors _ b l n st p)

/-- The sectors that step 4 rebuilds wait for no command any more, and their block is done. -/
theorem thatchStep4_rebuilds {s : State} {b l n : Nat} {x : Block} (hx : s.block? b l n = some x) {out : List (Nat × List Byte)}
    (hout : thatchSectors s x = some out) (st p : Nat) :
    (∀ e ∈ out, cmdWants (thatchStep4 s b l n st p) b l n e.1 = false) ∧
    ∀ y ∈ recordsAt (thatchStep4 s b l n st p) b l n, y.phase = .done := by
  rw [thatchStep4_of_some hx hout]
  refine ⟨?_, forall_recordsAt_modBlock (by intro y; rfl) (by simp)⟩
  exact cmdWants_foldl _ (fun e : Nat × List Byte => e.1) (fun v e => acceptSector_decides v b l n e.1 st e.2)
    (fun v e _ => cmdWants_acceptSector v b l n e.1 st e.2) out (thatchMade_stands (by simp [hx]) st)

/-! ## The end of a pass (R148 to R150, R157) -/

/-- The state in which the run of a pass is over. -/
def passStopped (s : State) (b l n : Nat) : State :=
  match (s.bay b).chan.run with
  | some r =>
    if r.kind = .reread ∧ r.layer = l ∧ r.block = n then
      (s.endRun b).modBay b fun y => { y with state := if y.state = .read then .track else y.state }
    else s
  | none => s

/-- The state in which a pass has given up what is still being decoded. -/
def passGivenUp (s : State) (b l n : Nat) : State :=
  s.modBlock b l n fun x =>
    { x with secs := x.secs.map (fun (e : Nat × SecRec) => if e.2.state = .decoding then (e.1, { e.2 with state := .failed }) else e) }

/-- What a pass then comes to: the block is done, or makes step 4 again. -/
def passTried (s : State) (b l n st p : Nat) : State :=
  match s.block? b l n with
  | none => s
  | some x =>
    if (erasedOf s x).isEmpty then s.modBlock b l n fun x => { x with phase := .done, passAt := none }
    else thatchStep4 s b l n st p

theorem passEnd_eq (s : State) (b l n st p : Nat) : passEnd s b l n st p =
    passTried (passGivenUp (passStopped s b l n) b l n) b l n st p := rfl

theorem passStopped_of_idle {s : State} {b : Nat} (hrun : (s.bay b).chan.run = none) (l n : Nat) : passStopped s b l n = s := by
  simp [passStopped, hrun]

theorem passStopped_changesOnly (s : State) (b l n : Nat) : s.changesOnly [.recov, .bays, .pat] (passStopped s b l n) := by
  unfold passStopped
  split
  · exact changesOnly_ite (changesOnly_trans (endRun_changesOnly s b) (changesOnly_mono (modBay_changesOnly _ b _) (by simp)))
      (changesOnly_refl _ s)
  · exact changesOnly_refl _ s

/-- S7 sectors that are dropped leave the blocks in their places. -/
theorem dropSeam_stands {s : State} {b l n : Nat} (hx : (s.block? b l n).isSome = true) (v : Nat) :
    ((s.dropSeam v).block? b l n).isSome = true := by
  unfold State.dropSeam
  split
  · exact hx
  next xs _ =>
    obtain ⟨x, hx⟩ := Option.isSome_iff_exists.1 hx
    refine List.find?_isSome.2 ⟨_, List.mem_map_of_mem (List.mem_of_find?_eq_some hx), ?_⟩
    have hat := List.find?_some hx
    split
    · exact hat
    · exact hat

theorem endRun_recov (s : State) (v : Nat) : (s.endRun v).recov = (s.dropSeam v).recov := by
  rw [State.endRun, State.modChan, modBay_recov]
  exact dropOffsets_changesOnly (s.dropSeam v) v .recov (by simp)

theorem passStopped_stands {s : State} {b l n : Nat} (hx : (s.block? b l n).isSome = true) :
    ((passStopped s b l n).block? b l n).isSome = true := by
  have hended : ((s.endRun b).block? b l n).isSome = true := by
    rw [block?_of_blocks_eq (congrArg Recovery.blocks (endRun_recov s b))]
    exact dropSeam_stands hx b
  unfold passStopped
  generalize s.endRun b = w at hended ⊢
  split
  · split
    · exact hended
    · exact hx
  · exact hx

theorem passGivenUp_decides (s : State) (b l n : Nat) : Decides b l n s (passGivenUp s b l n) :=
  decides_of_changesOnly (modBlock_changesOnly s b l n _) (by simp) (by simp) (isSome_modBlock (by intro y; rfl))

theorem passTried_decides (s : State) (b l n st p : Nat) : Decides b l n s (passTried s b l n st p) := by
  unfold passTried
  split
  · exact decides_refl b l n s
  · split
    · exact decides_of_changesOnly (modBlock_changesOnly s b l n _) (by simp) (by simp) (isSome_modBlock (by intro y; rfl))
    · exact thatchStep4_decides s b l n st p

theorem passTried_phase {s : State} {b l n : Nat} (hx : (s.block? b l n).isSome = true) (st p : Nat) :
    ∀ y ∈ recordsAt (passTried s b l n st p) b l n, y.phase ≠ .reread st p := by
  unfold passTried
  split
  next hnone => simp [hnone] at hx
  next x hx =>
    split
    · exact forall_recordsAt_modBlock (by intro y; rfl) (by simp)
    · exact thatchStep4_phase hx st p

/-- The end of a pass decides sectors at most, once its run is over, and leads the ladder out of that pass. -/
theorem passEnd_decides (s : State) (b l n st p : Nat) : Decides b l n (passStopped s b l n) (passEnd s b l n st p) :=
  passEnd_eq s b l n st p ▸ decides_trans (passGivenUp_decides _ b l n) (passTried_decides _ b l n st p)

theorem passEnd_phase {s : State} {b l n : Nat} (hx : (s.block? b l n).isSome = true) (st p : Nat) :
    ∀ y ∈ recordsAt (passEnd s b l n st p) b l n, y.phase ≠ .reread st p :=
  passEnd_eq s b l n st p ▸ passTried_phase ((passGivenUp_decides _ b l n).stands (passStopped_stands hx)) st p

end Sys2Proof.Proofs
end

section
/-! SUPPORT. What the sessions keep as they are brought up to date: a block stands as it stood or is given up, and a row for which a
sector waits at step 7 stays in its session (R156, R158, R163). -/

namespace Sys2Proof.Proofs

open Sys2Proof Sys2Proof.Machine Sys2Proof.Laws

/-- A session is open on a course, and a row is one of its rows. -/
def HasRow (c m : Nat) (s : State) : Prop := ∃ r, s.session? c = some r ∧ m ∈ r.rows

theorem hasRow_of_sessions_eq {s t : State} (h : t.recov.sessions = s.recov.sessions) {c m : Nat} (hs : HasRow c m s) : HasRow c m t := by
  rwa [HasRow, State.session?, h]

theorem session?_modSession (s : State) (c g : Nat) {f : Rebuild → Rebuild} (hf : ∀ r, (f r).course = r.course) :
    (s.modSession c f).session? g = (s.session? g).map fun r => if r.course = c then f r else r := by
  have hkey (r : Rebuild) : (if r.course = c then f r else r).course = r.course := by split <;> simp [hf]
  simp [State.session?, State.modSession, List.find?_map, hkey]

/-- An update of a course's session under which the row stays. -/
theorem hasRow_modSession {s : State} {c m : Nat} (g : Nat) {f : Rebuild → Rebuild} (hf : ∀ r, (f r).course = r.course)
    (hrow : ∀ r, s.session? c = some r → m ∈ r.rows → r.course = g → m ∈ (f r).rows) (h : HasRow c m s) :
    HasRow c m (s.modSession g f) := by
  obtain ⟨r, hr, hm⟩ := h
  refine ⟨if r.course = g then f r else r, by rw [session?_modSession s g c hf, hr]; rfl, ?_⟩
  split
  next hg => exact hrow r hr hm hg
  next => exact hm

/-! ## Sessions that go on -/

/-- From `s` to `t` every target block stands as it stood, and every session keeps its rows. -/
structure GoesOn (s t : State) : Prop where
  records : ∀ b l n, (s.block? b l n).isSome = true → recordsAt t b l n = recordsAt s b l n
  rows : ∀ c m, HasRow c m s → HasRow c m t

section
variable {s t u : State}

theorem goesOn_of_recov_eq (hb : t.recov.blocks = s.recov.blocks) (hs : t.recov.sessions = s.recov.sessions) : GoesOn s t where
  records b l n _ := recordsAt_of_blocks_eq hb b l n
  rows _ _ h := hasRow_of_sessions_eq hs h

theorem goesOn_of_changesOnly {ps : List Part} (h : s.changesOnly ps t) (hp : Part.recov ∉ ps) : GoesOn s t :=
  goesOn_of_recov_eq (congrArg Recovery.blocks (h .recov hp)) (congrArg Recovery.sessions (h .recov hp))

theorem goesOn_refl (s : State) : GoesOn s s := goesOn_of_recov_eq rfl rfl

theorem GoesOn.block? (h : GoesOn s t) {b l n : Nat} {x : Block} (hx : s.block? b l n = some x) : t.block? b l n = some x := by
  rw [block?_eq_head, h.records b l n (by simp [hx]), ← block?_eq_head, hx]

theorem goesOn_trans (h : GoesOn s t) (g : GoesOn t u) : GoesOn s u where
  records b l n hs := by
    obtain ⟨x, hx⟩ := Option.isSome_iff_exists.1 hs
    rw [g.records b l n (by simp [h.block? hx]), h.records b l n hs]
  rows c m hs := g.rows c m (h.rows c m hs)

theorem goesOn_ite {p : Prop} [Decidable p] (h : p → GoesOn s t) (g : ¬p → GoesOn s u) : GoesOn s (if p then t else u) := by
  split
  next hp => exact h hp
  next hp => exact g hp

theorem goesOn_foldl {α : Type} (f : State → α → State) (h : ∀ v a, GoesOn v (f v a)) (l : List α) (s : State) :
    GoesOn s (l.foldl f s) := by
  induction l generalizing s with
  | nil => exact goesOn_refl s
  | cons a r ih => exact goesOn_trans (h s a) (ih _)

end

/-- An update of a session that keeps its rows, or adds some. -/
theorem modSession_goesOn (s : State) (c : Nat) {f : Rebuild → Rebuild} (hf : ∀ r, (f r).course = r.course)
    (hrows : ∀ r, r.rows ⊆ (f r).rows) : GoesOn s (s.modSession c f) where
  records b l n _ := recordsAt_of_blocks_eq rfl b l n
  rows _ _ h := hasRow_modSession c hf (fun r _ hm _ => hrows r hm) h

theorem ensureBlock_goesOn (s : State) (b : BayId) (l n : Nat) : GoesOn s (s.ensureBlock b l n) := by
  unfold State.ensureBlock
  split
  · exact goesOn_refl s
  next hnone =>
    refine ⟨fun v i j hs => ?_, fun _ _ h => hasRow_of_sessions_eq rfl h⟩
    have hother : ¬(b.val = v ∧ l = i ∧ n = j) := by
      rintro ⟨rfl, rfl, rfl⟩
      exact hnone hs
    simpa [recordsAt, Block.at, and_assoc] using hother

theorem openSession_goesOn (s : State) (c : Nat) : GoesOn s (openSession s c) := by
  unfold openSession
  refine goesOn_ite (fun _ => goesOn_refl s) fun _ => ?_
  split
  · exact goesOn_refl s
  · refine ⟨fun b l n _ => recordsAt_of_blocks_eq rfl b l n, fun g m ⟨r, hr, hm⟩ => ⟨r, ?_, hm⟩⟩
    rw [State.session?] at hr ⊢
    rw [List.find?_append, hr]
    rfl

/-- The row that joins a course's session is one of its rows. -/
theorem joinRow_hasRow {s : State} {c : Nat} {r : Rebuild} (hr : s.session? c = some r) (m : Nat) : HasRow c m (joinRow s c m) := by
  have hcourse : r.course = c := by simpa using List.find?_some hr
  refine ⟨_, by rw [joinRow, session?_modSession s c c (by intro r; rfl), hr]; rfl, ?_⟩
  dsimp only
  rw [if_pos hcourse]
  dsimp only
  split
  next h => exact List.contains_iff_mem.1 h
  next => simp

theorem joinRow_goesOn (s : State) (c m : Nat) : GoesOn s (joinRow s c m) := by
  refine modSession_goesOn s c (fun _ => rfl) fun r => ?_
  dsimp only
  split
  · exact List.Subset.refl _
  · exact List.subset_append_left _ _

theorem joinAligned_goesOn (s : State) (c : Course) (m : Nat) : GoesOn s (joinAligned s c m) :=
  goesOn_trans (joinRow_goesOn s c.id m) (modSession_goesOn _ _ (fun _ => rfl) fun _ => List.Subset.refl _)

theorem admitAbsent_goesOn (s : State) : GoesOn s (admitAbsent s) := by
  have hopened (u : State) (course : Nat) (f : State → Nat → State) (hf : ∀ v m, GoesOn v (f v m)) (rows : List Nat) :
      GoesOn u (rows.foldl f (openSession u course)) := goesOn_trans (openSession_goesOn u course) (goesOn_foldl f hf rows _)
  unfold admitAbsent
  refine goesOn_trans (goesOn_foldl _ (fun u (c : Course) => ?_) _ s) (goesOn_foldl _ (fun u (course : Nat) => ?_) _ _)
  · split
    · exact goesOn_refl u
    · exact hopened u c.id _ (fun v m => joinAligned_goesOn v c m) _
  · exact goesOn_ite (fun _ => goesOn_refl u) fun _ => hopened u course _ (fun v m => joinRow_goesOn v course m) _

theorem event_goesOn {s t : State} (hb : t.recov.blocks = s.recov.blocks) (hs : t.recov.sessions = s.recov.sessions) (code : Nat)
    (p : List Byte) : GoesOn s (t.event code p) :=
  goesOn_trans (goesOn_of_recov_eq hb hs) (goesOn_of_changesOnly (event_changesOnly t code p) (by simp))

theorem askFor_goesOn (s : State) (r : Rebuild) (i : Nat) : GoesOn s (askFor s r i) := by
  unfold askFor discNeeded
  exact event_goesOn (by rfl) (by rfl) _ _

theorem refreshRequests_goesOn (s : State) (c : Nat) : GoesOn s (refreshRequests s c) := by
  unfold refreshRequests
  split
  · exact goesOn_refl s
  · exact goesOn_of_recov_eq rfl rfl

theorem harvest_goesOn (s : State) (c m : Nat) : GoesOn s (harvest s c m) := by
  have hsession (u : State) (f : Rebuild → Rebuild) (hf : ∀ r, (f r).course = r.course) (hrows : ∀ r, (f r).rows = r.rows) :
      GoesOn u (u.modSession c f) := modSession_goesOn u c hf fun r => (hrows r).symm ▸ List.Subset.refl _
  unfold harvest
  split
  · exact goesOn_refl s
  refine goesOn_foldl _ (fun u i => ?_) _ s
  split
  · exact goesOn_refl u
  refine goesOn_foldl _ (fun v k => ?_) _ u
  split
  · exact goesOn_refl v
  refine goesOn_ite (fun _ => goesOn_refl v) fun _ => ?_
  split
  · exact goesOn_trans (hsession v _ (by intro r; rfl) (by intro r; rfl)) (goesOn_of_recov_eq rfl rfl)
  · exact hsession v _ (by intro r; rfl) (by intro r; rfl)
  · exact goesOn_refl v

theorem gather_goesOn (c m : Nat) (ks l : List Nat) (s : State) : GoesOn s (gather c m ks l s) := by
  induction l generalizing s with
  | nil => exact goesOn_refl s
  | cons i rest ih =>
    rw [gather]
    split
    · exact goesOn_refl s
    refine goesOn_ite (fun _ => ih s) fun _ => ?_
    split
    · exact goesOn_trans (ensureBlock_goesOn s _ _ _) (ih _)
    · exact goesOn_ite (fun _ => ih s) fun _ => goesOn_ite (fun _ => goesOn_trans (askFor_goesOn s _ i) (ih _)) fun _ => goesOn_refl s

theorem advanceRow_goesOn (s : State) (c m : Nat) : GoesOn s (advanceRow s c m) := by
  unfold advanceRow
  dsimp only
  split
  · exact harvest_goesOn s c m
  · exact goesOn_trans (harvest_goesOn s c m) (goesOn_trans (goesOn_foldl _ (fun u ks => gather_goesOn c m ks _ u) _ _)
      (modSession_goesOn _ c (by intro r; rfl) (by intro r; exact List.Subset.refl _)))

theorem logEntered_goesOn (s : State) (c : Nat) (t : DiscType) (log : State → Nat → Nat → Nat → State)
    (hlog : ∀ u m i k, GoesOn u (log u m i k)) : GoesOn s (logEntered s c t log) := by
  unfold logEntered
  split
  · exact goesOn_refl s
  · exact goesOn_trans (goesOn_foldl _ (fun u (e : Nat × Nat × Nat) => hlog u e.1 e.2.1 e.2.2) _ s)
      (modSession_goesOn _ c (by intro r; rfl) (by intro r; exact List.Subset.refl _))

theorem advanceSession_goesOn (s : State) (c : Nat) : GoesOn s (advanceSession s c) := by
  have hlog (u : State) (t : DiscType) : GoesOn u (logEntered u c t fun a m i k => enterLog a (step7Entry a c m i k 0 7 t)) :=
    logEntered_goesOn u c t _ fun v m i k => goesOn_of_changesOnly (enterLog_changesOnly v _) (by simp)
  have hask (u : State) (r : Rebuild) (i : Nat) (p : Prop) [Decidable p] : GoesOn u (if p then u else askFor u r i) :=
    goesOn_ite (fun _ => goesOn_refl u) fun _ => askFor_goesOn u r i
  have hsession (u : State) (rows : List Nat) : GoesOn u (u.modSession c fun r => { r with batch := rows }) :=
    modSession_goesOn u c (fun _ => rfl) fun _ => List.Subset.refl _
  have hrows (rows : List Nat) (u : State) : GoesOn u (rows.foldl (fun a m => advanceRow a c m) u) :=
    goesOn_foldl _ (fun v m => advanceRow_goesOn v c m) rows u
  unfold advanceSession
  split
  · exact goesOn_refl s
  next r hr =>
    exact goesOn_trans (hlog s _) (goesOn_trans (goesOn_foldl _ (fun u i => hask u r i _) _ _)
      (goesOn_trans (hsession _ _) (goesOn_trans (hrows _ _) (refreshRequests_goesOn _ c))))

/-! ## Sessions that close (R163, R167) -/

theorem discDone_goesOn (s : State) (q : DiscReq) (code : Nat) : GoesOn s (discDone s q code) := by
  unfold discDone
  exact event_goesOn (by rfl) (by rfl) _ _

theorem closeRequests_goesOn (s : State) (l : List DiscReq) : GoesOn s (l.foldl (fun a q => discDone a q q.doneCode) s) :=
  goesOn_foldl _ (fun u q => discDone_goesOn u q _) l s

/-- The state without the session of a course. -/
def withoutSession (s : State) (c : Nat) : State :=
  { s with recov := { s.recov with sessions := s.recov.sessions.filter (fun x => x.course != c) } }

/-- The state in which the session of a course keeps the listed rows, and holds sectors of these alone. -/
def withRows (s : State) (c : Nat) (rows : List Nat) : State :=
  s.modSession c fun r => { r with rows := rows, held := r.held.filter (fun e => rows.contains e.1) }

/-- What the close of a session can do: nothing where none is open, end it where nothing waits for its rows, or keep those for which
something waits; and it closes requests. -/
theorem closeSession_cases (s : State) (c : Nat) : closeSession s c = s ∨ ∃ (r : Rebuild) (l : List DiscReq), s.session? c = some r ∧
    ((∀ m ∈ r.rows, targets s c m = []) ∧ closeSession s c = l.foldl (fun a q => discDone a q q.doneCode) (withoutSession s c) ∨
      closeSession s c = l.foldl (fun a q => discDone a q q.doneCode)
        (withRows s c (r.rows.filter fun m => !(targets s c m).isEmpty))) := by
  cases hr : s.session? c with
  | none => exact .inl (by rw [closeSession, hr])
  | some r =>
    right
    rw [closeSession, hr]
    dsimp only
    split
    next h => exact ⟨r, _, rfl, .inl ⟨by simpa using h.1, rfl⟩⟩
    next =>
      split
      next => exact ⟨r, [], rfl, .inr rfl⟩
      next => exact ⟨r, _, rfl, .inr rfl⟩

/-- As sessions close, the target blocks stand as they stood. -/
theorem closeSession_records (s : State) (c : Nat) {b l n : Nat} (hx : (s.block? b l n).isSome = true) :
    recordsAt (closeSession s c) b l n = recordsAt s b l n := by
  rcases closeSession_cases s c with h | ⟨r, q, -, ⟨-, h⟩ | h⟩
  · rw [h]
  · rw [h]
    exact (closeRequests_goesOn (withoutSession s c) q).records b l n hx
  · rw [h]
    exact (closeRequests_goesOn (withRows s c _) q).records b l n hx

/-- A row for which something waits stays in its session. -/
theorem closeSession_hasRow {s : State} {c m : Nat} (h : HasRow c m s) (hwaits : targets s c m ≠ []) (g : Nat) :
    HasRow c m (closeSession s g) := by
  obtain ⟨r, hr, hm⟩ := h
  rcases closeSession_cases s g with heq | ⟨v, q, hv, ⟨hnone, heq⟩ | heq⟩
  · rw [heq]
    exact ⟨r, hr, hm⟩
  · rw [heq]
    refine (closeRequests_goesOn _ q).rows c m ⟨r, ?_, hm⟩
    have hne : c ≠ g := by
      rintro rfl
      cases hr.symm.trans hv
      exact hwaits (hnone m hm)
    rw [State.session?] at hr ⊢
    rw [withoutSession, List.find?_filter, ← hr]
    congr 1
    funext x
    by_cases hx : x.course = c <;> simp [hx, hne]
  · rw [heq]
    refine (closeRequests_goesOn _ q).rows c m (hasRow_modSession g (by intro r; rfl) ?_ ⟨r, hr, hm⟩)
    intro w hw hmw hg
    have hgc : g = c := by
      rw [← hg]
      simpa using List.find?_some hw
    subst hgc
    cases hw.symm.trans hv
    exact List.mem_filter.2 ⟨hmw, by simpa using hwaits⟩

/-! ## The sessions as a whole -/

theorem pruneBlocks_recov (s : State) : ∃ need : Block → Bool,
    (pruneBlocks s).recov = { s.recov with blocks := s.recov.blocks.filter need } := by
  have hdropped (u : State) (r : List Block) (f : State → Block → Channel → Channel) :
      (r.foldl (fun a x => a.modChan x.bay.val (f a x)) u).recov = u.recov :=
    List.foldlRecOn (motive := fun v : State => v.recov = u.recov) r _ rfl fun v hv x _ => hv
  exact ⟨_, hdropped _ _ _⟩

/-- A sector of a mounted member waits at step 7 of its course. -/
structure WaitsAtStep7 (b l n k course i : Nat) (s : State) : Prop where
  wants : cmdWants s b l n k = true
  block : ∃ x, s.block? b l n = some x ∧ x.phase = .course ∧ (x.sec k).state = .failed
  member : membership s b = some (course, i)

theorem WaitsAtStep7.targets_ne {b l n k course i : Nat} {s : State} (h : WaitsAtStep7 b l n k course i s) :
    targets s course (l * (bayType s b).blocks + n) ≠ [] := by
  obtain ⟨hwants, ⟨x, hx, hphase, hstate⟩, hmember⟩ := h
  obtain ⟨d, hd, y, hy, hpending, hon⟩ := cmdWants_iff.1 hwants
  obtain ⟨v, hbay, rfl, rfl, rfl, rfl⟩ : ∃ v : BayId, y.bay = some v ∧ v.val = b ∧ y.layer = l ∧ y.block = n ∧ y.k = k := by
    cases hbay : y.bay with
    | none => simp [CmdSector.on, hbay] at hon
    | some v => simpa [CmdSector.on, hbay, and_assoc] using hon
  have hstep : atStep7 s d y = some (course, y.layer * (bayType s v.val).blocks + y.block, i) := by
    simp [atStep7, hpending, hbay, hx, hmember, hphase, hstate]
  have hmem : (i, y.k) ∈ targets s course (y.layer * (bayType s v.val).blocks + y.block) :=
    List.mem_eraseDups.2 (List.mem_append_right _ (List.mem_flatMap.2 ⟨d, hd, List.mem_filterMap.2 ⟨y, hy, by simp [hstep]⟩⟩))
  exact List.ne_nil_of_mem hmem

/-- It goes on waiting as long as the commands, the bays and the blocks stand. -/
theorem WaitsAtStep7.of_eq {b l n k course i : Nat} {s t : State} (h : WaitsAtStep7 b l n k course i s) (htags : t.tags = s.tags)
    (hbays : t.bays = s.bays) (hblock : recordsAt t b l n = recordsAt s b l n) : WaitsAtStep7 b l n k course i t where
  wants := by rw [cmdWants, htags]; exact h.wants
  block := by rw [block?_eq_head, hblock, ← block?_eq_head]; exact h.block
  member := by rw [membership, bay_eq_of_bays_eq hbays]; exact h.member

/-- The state in which every session has gone on, and the one in which those that have ended are closed. -/
def sessionsAdvanced (s : State) : State :=
  ((admitAbsent s).recov.sessions.map (·.course)).foldl advanceSession (admitAbsent s)
def sessionsClosed (s : State) : State :=
  ((sessionsAdvanced s).recov.sessions.map (·.course)).foldl closeSession (sessionsAdvanced s)

theorem sessionsStep_eq (s : State) : sessionsStep s = pruneBlocks (sessionsClosed s) := rfl

theorem sessionsAdvanced_goesOn (s : State) : GoesOn s (sessionsAdvanced s) :=
  goesOn_trans (admitAbsent_goesOn s) (goesOn_foldl _ advanceSession_goesOn _ _)

theorem sessionsClosed_records {s : State} {b l n : Nat} (hx : (s.block? b l n).isSome = true) :
    recordsAt (sessionsClosed s) b l n = recordsAt s b l n := by
  refine List.foldlRecOn (motive := fun v => recordsAt v b l n = recordsAt s b l n) _ _
    ((sessionsAdvanced_goesOn s).records b l n hx) fun v hv c _ => ?_
  refine (closeSession_records v c ?_).trans hv
  rwa [block?_eq_head, hv, ← block?_eq_head]

/-- A target block stands, once the sessions are brought up to date, as it stood before, or is given up. -/
theorem sessionsStep_block? {s : State} {b l n : Nat} (hx : (s.block? b l n).isSome = true) {y : Block}
    (hy : (sessionsStep s).block? b l n = some y) : y ∈ recordsAt s b l n := by
  obtain ⟨need, hneed⟩ := pruneBlocks_recov (sessionsClosed s)
  have hmem := block?_mem hy
  rw [sessionsStep_eq, recordsAt, hneed] at hmem
  obtain ⟨hfiltered, hat⟩ := List.mem_filter.1 hmem
  rw [← sessionsClosed_records hx]
  exact List.mem_filter.2 ⟨(List.mem_filter.1 hfiltered).1, hat⟩

/-- A row for which a sector waits at step 7 stays in its session as the sessions are brought up to date. -/
theorem sessionsStep_hasRow {s : State} {b l n k course i : Nat} (h : WaitsAtStep7 b l n k course i s)
    (hrow : HasRow course (l * (bayType s b).blocks + n) s) : HasRow course (l * (bayType s b).blocks + n) (sessionsStep s) := by
  have hx : (s.block? b l n).isSome = true := by
    obtain ⟨x, hx, -⟩ := h.block
    simp [hx]
  have hadvanced := sessionsAdvanced_goesOn s
  have hleaves : (sessionsAdvanced s).tags = s.tags ∧ (sessionsAdvanced s).bays = s.bays := by
    refine List.foldlRecOn (motive := fun v : State => v.tags = s.tags ∧ v.bays = s.bays) _ _
      ⟨admitAbsent_changesOnly s .tags (by simp), admitAbsent_changesOnly s .bays (by simp)⟩ fun v ⟨htags, hbays⟩ c _ => ?_
    exact ⟨(advanceSession_changesOnly v c .tags (by simp)).trans htags, (advanceSession_bays v c).trans hbays⟩
  have hclosed : WaitsAtStep7 b l n k course i (sessionsClosed s) ∧ (sessionsClosed s).bays = s.bays ∧
      HasRow course (l * (bayType s b).blocks + n) (sessionsClosed s) := by
    refine List.foldlRecOn (motive := fun v : State => WaitsAtStep7 b l n k course i v ∧ v.bays = s.bays ∧
      HasRow course (l * (bayType s b).blocks + n) v) _ _ ?_ fun v ⟨hw, hbays, hr⟩ c _ => ?_
    · exact ⟨h.of_eq hleaves.1 hleaves.2 (hadvanced.records b l n hx), hleaves.2, hadvanced.rows _ _ hrow⟩
    have hbays' := closeSession_changesOnly v c .bays (by simp)
    have hv : (v.block? b l n).isSome = true := by
      obtain ⟨x, hx, -⟩ := hw.block
      simp [hx]
    have htype : bayType v b = bayType s b := by rw [bayType, bayType, bay_eq_of_bays_eq hbays]
    refine ⟨hw.of_eq (closeSession_changesOnly v c .tags (by simp)) hbays' (closeSession_records v c hv), hbays'.trans hbays, ?_⟩
    exact closeSession_hasRow hr (htype ▸ hw.targets_ne) c
  obtain ⟨need, hneed⟩ := pruneBlocks_recov (sessionsClosed s)
  rw [sessionsStep_eq]
  exact hasRow_of_sessions_eq (by rw [hneed]) hclosed.2.2

end Sys2Proof.Proofs
end

section
/-! SUPPORT. The steps of the recovery ladder on a block, and the statement about them (R73, R92, R140 to R151, R158, R168). -/

namespace Sys2Proof.Proofs

open Sys2Proof Sys2Proof.Machine Sys2Proof.Laws

/-- A block found at a place bears it. -/
theorem block?_place {s : State} {b l n : Nat} {x : Block} (h : s.block? b l n = some x) :
    x.bay.val = b ∧ x.layer = l ∧ x.block = n := by
  have hat := List.find?_some h
  simpa [Block.at, and_assoc] using hat

/-! ## A report of the LDPC array (R73, R92, R140, R144 to R146) -/

theorem job?_addr {s : State} {b : Nat} {a : SlotAddr} {j : LdpcJob} (h : s.job? b a = some j) : j.addr = a := by
  have hfound := List.find?_some h
  simp only [Bool.and_eq_true, beq_iff_eq] at hfound
  exact hfound.2

/-- A report that fits no job of the array is not taken (R73). -/
theorem exec_ldpcDecodeDone_unfit {b : BayId} {a : SlotAddr} {r : DecodeReport} {s : State}
    (h : ∀ j, s.job? b.val a = some j → fitsJob (iterCap s b.val j) j r = false) : exec (.ldpcDecodeDone b a r) s = .next s := by
  have hexec : exec (.ldpcDecodeDone b a r) s = execLdpcDecodeDone b a r s := rfl
  rw [hexec, execLdpcDecodeDone]
  split
  · rfl
  next j hj => simp [h j hj]

/-- The state in which the report of a sector of a target block is taken: the array has given the sector up. -/
def reportTaken (s : State) (b : BayId) (j : LdpcJob) (r : DecodeReport) : State :=
  blockReport (s.dropJob b.val j.addr) b j (decodedOf j r) (iterCap s b.val j)

theorem exec_ldpcDecodeDone_block {b : BayId} {a : SlotAddr} {r : DecodeReport} {s : State} {j : LdpcJob} {l n k : Nat} {m : Bool}
    (hjob : s.job? b.val a = some j) (hfits : fitsJob (iterCap s b.val j) j r = true) (hsearch : j.search = 0)
    (huse : slotUse s b.val a = .block l n k m) : exec (.ldpcDecodeDone b a r) s = .next (sessionsStep (reportTaken s b j r)) := by
  have hexec : exec (.ldpcDecodeDone b a r) s = execLdpcDecodeDone b a r s := rfl
  obtain rfl := job?_addr hjob
  have huse' : slotUse (s.dropJob b.val j.addr) b.val j.addr = .block l n k m := huse
  rw [hexec, execLdpcDecodeDone, hjob]
  simp only [hfits, hsearch, sectorReported, huse']
  simp [reportTaken]

/-- A decode of steps 1 to 3 that fails touches what a ladder may touch. -/
theorem stepFailed_keepsRun (s : State) (b l n k : Nat) : KeepsRun runParts b s (stepFailed s b l n k) := by
  obtain ⟨hsent, hspent⟩ := runStep_changesOnly 80 s b l n k
  unfold stepFailed
  split
  · exact keepsRun_refl _ b s
  refine keepsRun_ite (fun _ => keepsRun_refl _ b s) fun _ => ?_
  dsimp only
  split
  next t ht => exact keepsRun_of_changesOnly (hsent t ht) (by simp) (by simp)
  next => exact keepsRun_trans (keepsRun_of_changesOnly hspent (by simp) (by simp)) (sectorStep_keepsRun 3 _ b l n k _)

section
variable {s : State} {b : BayId} {j : LdpcJob} {l n k : Nat} {m : Bool} {x : Block} {c : SecRec} {d : Decoded}

/-- A sector whose checks all hold is given to the commands. -/
theorem blockReport_accepts (huse : slotUse s b.val j.addr = .block l n k m) (hsec : jobSector s b.val j.addr = some (x, k, c))
    (hall : d.all = true) (hok : accepts (expectedOf s x k m) d.bytes = true) (cap : Nat) :
    cmdWants (blockReport s b j d cap) b.val l n k = false ∧ Decides b.val l n s (blockReport s b j d cap) := by
  have hmarked (f : Block → Block) (hf : ∀ y, (f y).at b.val l n = y.at b.val l n) :
      Decides b.val l n s (s.modBlock b.val l n f) :=
    decides_of_changesOnly (modBlock_changesOnly s b.val l n f) (by simp) (by simp) (isSome_modBlock hf)
  have henvelope (u : State) : Decides b.val l n u (noteEnvelope u b.val j.report) :=
    decides_of_changesOnly (modBay_changesOnly u b.val _) (by simp) (by simp) id
  have hcomplete (u : State) : Decides b.val l n u (blockComplete u b.val l n) :=
    decides_of_changesOnly (blockComplete_changesOnly u b.val l n) (by simp) (by simp) (blockComplete_keepsSectors u b.val l n).stands
  simp only [blockReport, huse, hsec, hall, hok, and_self, if_true]
  refine ⟨(hcomplete _).wants.settled (cmdWants_acceptSector _ b.val l n k _ _), ?_⟩
  exact decides_trans (hmarked _ (by intro y; rfl)) (decides_trans (henvelope _)
    (decides_trans (acceptSector_decides _ b.val l n k _ _) (hcomplete _)))

/-- Any other goes on to a decode of its step, or to the next step. -/
theorem blockReport_rejects (huse : slotUse s b.val j.addr = .block l n k m) (hsec : jobSector s b.val j.addr = some (x, k, c))
    (hno : d.all = false ∨ accepts (expectedOf s x k m) d.bytes = false) (cap : Nat) :
    s.changesOnly runParts (blockReport s b j d cap) := by
  have hmarked (f : Block → Block) : KeepsRun runParts b.val s (s.modBlock b.val l n f) :=
    keepsRun_of_changesOnly (modBlock_changesOnly s b.val l n f) (by simp) (by simp)
  have hfirst (u : State) (deferred : Bool) : KeepsRun runParts b.val u
      (firstFailed (copyRetry (noteUnreadable u b.val j.addr) b.val j.addr false) b.val l n k deferred) :=
    keepsRun_trans (keepsRun_mono (modChan_keepsRun rfl) (by simp))
      (keepsRun_trans (keepsRun_mono (copyRetry_keepsRun _ b.val _ _) (by simp)) (firstFailed_keepsRun _ b.val l n k deferred))
  have hpushed (u : State) (v : LdpcJob) : KeepsRun runParts b.val u (u.pushJob v) :=
    keepsRun_of_changesOnly (pushJob_changesOnly u v) (by simp) (by simp)
  have hfailed (u : State) : KeepsRun runParts b.val u (stepFailed u b.val l n k) := stepFailed_keepsRun u b.val l n k
  simp only [blockReport, huse, hsec]
  rw [if_neg fun h => hno.elim (Bool.eq_false_iff.1 · h.1) (Bool.eq_false_iff.1 · h.2)]
  generalize hu : s.modBlock b.val l n _ = u
  refine (keepsRun_trans (hu ▸ hmarked _ : KeepsRun runParts b.val s u) ?_).frame
  split
  · exact hfirst _ _
  split
  · split
    · split
      · exact hpushed _ _
      · exact hfailed _
    · exact hfailed _
  · exact hfailed _

end

/-! ## What stands once the sessions are brought up to date -/

section
variable {s u : State} {b l n : Nat}

theorem sessionsStep_forall {P : Block → Prop} (hx : (u.block? b l n).isSome = true) (h : ∀ y ∈ recordsAt u b l n, P y) :
    ∀ y, (sessionsStep u).block? b l n = some y → P y :=
  fun y hy => h y (sessionsStep_block? hx hy)

theorem sessionsStep_tags (s : State) : (sessionsStep s).tags = s.tags := sessionsStep_changesOnly s .tags (by simp)

/-- After a step of a ladder that leaves the commands. -/
theorem ladder_then_sessions (h : s.changesOnly ladderParts u) :
    (sessionsStep u).tags = s.tags ∧ s.changesOnly [.recov, .logs, .events, .freeCtr, .bays] (sessionsStep u) :=
  ⟨(sessionsStep_tags u).trans (h .tags (by simp)),
    changesOnly_trans (changesOnly_mono h (by simp)) (changesOnly_mono (sessionsStep_changesOnly u) (by simp))⟩

/-- Step 4 without a result leads to a later step, and decides nothing for a command (R143). -/
theorem thatchMade_leads_on (hx : (s.block? b l n).isSome = true) :
    (∀ y, (sessionsStep (toStep5 (thatchMade s b l n 4) b l n 1)).block? b l n = some y → y.phase ≠ .thatch) ∧
    (sessionsStep (toStep5 (thatchMade s b l n 4) b l n 1)).tags = s.tags ∧
    s.changesOnly [.recov, .logs, .events, .freeCtr, .bays] (sessionsStep (toStep5 (thatchMade s b l n 4) b l n 1)) := by
  have hmade := thatchMade_stands hx 4
  refine ⟨?_, ladder_then_sessions (changesOnly_trans (changesOnly_mono (thatchMade_changesOnly s b l n 4) (by simp))
    (toStep5_changesOnly _ b l n 1))⟩
  exact sessionsStep_forall ((toStep5_keepsSectors _ b l n 1).stands hmade) fun y hy =>
    fromStep5_ne_thatch (toStep5_phase hmade 1 y hy)

theorem decides_then_sessions (h : Decides b l n s u) :
    s.keepsDecided (sessionsStep u) ∧ s.changesOnly decideParts (sessionsStep u) :=
  ⟨keepsDecided_trans h.decided (keepsDecided_of_tags_eq (sessionsStep_tags u)),
    changesOnly_trans h.frame (changesOnly_mono (sessionsStep_changesOnly u) (by simp))⟩

end

/-! ## A step reaches its limit (R142) -/

section
variable {s : State} {b : BayId} {l : Fin 6} {n k : Nat} {x : Block}

theorem exec_limit_thatch (hx : s.block? b.val l.val n = some x) (hfw : s.fwRuns = true) (hphase : x.phase = .thatch)
    (hlate : x.since + 200 ≤ s.now) : exec (.recoveryStepLimit b l n k) s =
      .next (sessionsStep (toStep5 (thatchMade s b.val l.val n 4) b.val l.val n 1)) := by
  have hexec : exec (.recoveryStepLimit b l n k) s = execRecoveryStepLimit b l n k s := rfl
  rw [hexec, execRecoveryStepLimit]
  simp only [hx, hfw, hphase, hlate, if_true]
  rfl

theorem exec_limit_sectors (hx : s.block? b.val l.val n = some x) (hfw : s.fwRuns = true) (hphase : x.phase = .sectors)
    (hlate : sectorLimit s (x.sec k) = true) : exec (.recoveryStepLimit b l n k) s =
      .next (sessionsStep (sectorStep 3 s b.val l.val n k ((x.sec k).step + 1))) := by
  have hexec : exec (.recoveryStepLimit b l n k) s = execRecoveryStepLimit b l n k s := rfl
  rw [hexec, execRecoveryStepLimit]
  simp [hx, hfw, hphase, hlate]

theorem exec_limit_early (hx : s.block? b.val l.val n = some x) (hphase : x.phase = .sectors)
    (hearly : sectorLimit s (x.sec k) = false) : exec (.recoveryStepLimit b l n k) s = .next s := by
  have hexec : exec (.recoveryStepLimit b l n k) s = execRecoveryStepLimit b l n k s := rfl
  rw [hexec, execRecoveryStepLimit]
  simp [hx, hphase, hearly]

theorem exec_limit_reread {st p a : Nat} (hx : s.block? b.val l.val n = some x) (hfw : s.fwRuns = true)
    (hphase : x.phase = .reread st p) (hresuming : x.resuming = false) (hpass : x.passAt = some a) (hlate : a + 10000 ≤ s.now) :
    exec (.recoveryStepLimit b l n k) s = .next (sessionsStep (passEnd s b.val l.val n st p)) := by
  have hexec : exec (.recoveryStepLimit b l n k) s = execRecoveryStepLimit b l n k s := rfl
  rw [hexec, execRecoveryStepLimit]
  simp [hx, hfw, hphase, hresuming, hpass, hlate]

theorem exec_limit_course {course i : Nat} {r : Rebuild} (hx : s.block? b.val l.val n = some x) (hfw : s.fwRuns = true)
    (hphase : x.phase = .course) (hmember : membership s b.val = some (course, i)) (hsession : s.session? course = some r)
    (hspent : rowSpent s r (l.val * (bayType s b.val).blocks + n) = true) : exec (.recoveryStepLimit b l n k) s =
      .next (sessionsStep (s.modBlock b.val l.val n fun x => { x with phase := .done, ruledOut := true, since := s.now })) := by
  have hexec : exec (.recoveryStepLimit b l n k) s = execRecoveryStepLimit b l n k s := rfl
  rw [hexec, execRecoveryStepLimit]
  simp [hx, hfw, hphase, hmember, hsession, hspent]

/-! ## The Thatch decode, the end of a pass, and step 7 (R143, R147, R148, R158) -/

theorem exec_thatchDecode (hx : s.block? b.val l.val n = some x) (hfw : s.fwRuns = true) (hphase : x.phase = .thatch) :
    exec (.thatchDecode b l n) s = .next (sessionsStep (thatchStep4 s b.val l.val n 4 0)) := by
  have hexec : exec (.thatchDecode b l n) s = execThatchDecode b l n s := rfl
  rw [hexec, execThatchDecode]
  simp [hx, hfw, hphase]

theorem exec_thatchDecode_other (hx : s.block? b.val l.val n = some x) (hphase : x.phase ≠ .thatch) :
    exec (.thatchDecode b l n) s = .next s := by
  have hexec : exec (.thatchDecode b l n) s = execThatchDecode b l n s := rfl
  rw [hexec, execThatchDecode]
  simp [hx, hphase]

theorem exec_rereadPassDone {st p : Nat} (hx : s.block? b.val l.val n = some x) (hfw : s.fwRuns = true)
    (hphase : x.phase = .reread st p) (hpass : x.passAt.isSome = true) (hrun : (s.bay b.val).chan.run = none)
    (hdecided : ∀ e ∈ x.secs, e.2.state ≠ .decoding) (hread : passLeft s x = [] ∨ canRead s b.val = false) :
    exec (.rereadPassDone b l n) s = .next (sessionsStep (passEnd s b.val l.val n st p)) := by
  have hexec : exec (.rereadPassDone b l n) s = execRereadPassDone b l n s := rfl
  have hall : x.secs.all (fun e => decide (e.2.state ≠ .decoding)) = true := by simpa using fun a r h => hdecided (a, r) h
  rw [hexec, execRereadPassDone]
  simp only [hx, hrun, hphase, hfw, hpass, hall, List.isEmpty_iff, hread, true_and, if_true]

/-- A requested sector that has failed is one of those that step 7 is to decide. -/
theorem mem_openOf (hx : s.block? b.val l.val n = some x) (hk : k < (bayType s b.val).blockSectors) (hstate : (x.sec k).state = .failed)
    (hwants : cmdWants s b.val l.val n k = true) : k ∈ (openOf s x).filter fun k => cmdWants s b.val l.val n k := by
  obtain ⟨hbay, hlayer, hblock⟩ := block?_place hx
  simp [openOf, blockKs, wanted, hbay, hlayer, hblock, hk, hstate, hwants]

theorem exec_courseReconstruction_closed {ks : List Nat} (hx : s.block? b.val l.val n = some x) (hfw : s.fwRuns = true)
    (hphase : x.phase = .course) (hclosed : courseOpen s b.val = false) (hruled : x.ruledOut = false)
    (hks : (openOf s x).filter (fun k => cmdWants s b.val l.val n k) = ks) (hne : ks ≠ []) :
    exec (.courseReconstruction b l n) s = .next (sessionsStep (ks.foldl (fun a k => loseSector a b.val l.val n k) s)) := by
  have hexec : exec (.courseReconstruction b l n) s = execCourseReconstruction b l n s := rfl
  rw [hexec, execCourseReconstruction]
  simp only [hx, hks]
  simp [hfw, hphase, hclosed, hruled, hne]

theorem exec_courseReconstruction_open {ks : List Nat} {course i : Nat} {r : Rebuild} (hx : s.block? b.val l.val n = some x)
    (hfw : s.fwRuns = true) (hphase : x.phase = .course) (hopen : courseOpen s b.val = true)
    (hmember : membership s b.val = some (course, i)) (hsession : s.session? course = some r)
    (hks : (openOf s x).filter (fun k => cmdWants s b.val l.val n k) = ks) (hne : ks ≠ []) :
    exec (.courseReconstruction b l n) s =
      .next (sessionsStep (joinRow s course (l.val * (bayType s b.val).blocks + n))) := by
  have hexec : exec (.courseReconstruction b l n) s = execCourseReconstruction b l n s := rfl
  have hjoined : openSession s course = s := by simp [openSession, hsession]
  rw [hexec, execCourseReconstruction]
  simp only [hx, hks]
  simp [hfw, hphase, hopen, hne, hmember, hjoined]

theorem exec_courseReconstruction_waits (hx : s.block? b.val l.val n = some x)
    (h : x.phase ≠ .course ∨ courseOpen s b.val = false ∧ x.ruledOut = true) : exec (.courseReconstruction b l n) s = .next s := by
  have hexec : exec (.courseReconstruction b l n) s = execCourseReconstruction b l n s := rfl
  rw [hexec, execCourseReconstruction]
  simp only [hx]
  rcases h with hphase | ⟨hclosed, hruled⟩
  · simp [hphase]
  · simp [hclosed, hruled]

end

/-! ## The statement -/

/-- Settles O40, clause by clause: a report by what it gives the commands, each limit by the phase or the sector state that it leads to,
and step 7 by what it loses or by the row that joins its session. -/
theorem theLadderDecidesEverySectorOnce : Obligations.TheLadderDecidesEverySectorOnce := by
  unfold Obligations.TheLadderDecidesEverySectorOnce
  refine ⟨?accepted, ?rejected, ?unfit, ?thatchLimit, ?turboLimit, ?altLimit, ?early, ?passLimit, ?rowLimit, ?rebuilt, ?notRebuilt,
    ?noThatch, ?passDone, ?lost, ?joined, ?waits⟩
  case accepted =>
    intro b a r j l n k m x c s hjob hfits hsearch huse hsec hall hok
    have hexec := exec_ldpcDecodeDone_block hjob hfits hsearch huse
    obtain rfl := job?_addr hjob
    have hdropped : Decides b.val l n s (s.dropJob b.val j.addr) :=
      decides_of_changesOnly (withRecov_changesOnly s _) (by simp) (by simp) id
    obtain ⟨hsettled, hdecides⟩ := blockReport_accepts (s := s.dropJob b.val j.addr) huse hsec hall hok (iterCap s b.val j)
    obtain ⟨hdecided, hframe⟩ := decides_then_sessions (decides_trans hdropped hdecides)
    exact ⟨_, hexec, (wantsNoMore_of_tags_eq (sessionsStep_tags _)).settled hsettled, hdecided, hframe⟩
  case rejected =>
    intro b a r j l n k m x c s hjob hfits hsearch huse hsec hno
    have hexec := exec_ldpcDecodeDone_block hjob hfits hsearch huse
    obtain rfl := job?_addr hjob
    have hframe : s.changesOnly runParts (reportTaken s b j r) :=
      changesOnly_trans (changesOnly_mono (withRecov_changesOnly s _) (by simp))
        (blockReport_rejects (s := s.dropJob b.val j.addr) huse hsec hno (iterCap s b.val j))
    exact ⟨_, hexec, (sessionsStep_tags _).trans (hframe .tags (by simp)),
      changesOnly_trans (changesOnly_mono hframe (by simp)) (changesOnly_mono (sessionsStep_changesOnly _) (by simp))⟩
  case unfit => exact fun b a r s h => exec_ldpcDecodeDone_unfit h
  case thatchLimit =>
    intro b l n k x s hx hfw hphase hlate
    exact ⟨_, exec_limit_thatch hx hfw hphase hlate, thatchMade_leads_on (by simp [hx])⟩
  case turboLimit =>
    intro b l n k x s hx hfw hphase hstate hstep hlate
    obtain ⟨hstands, hplace⟩ := sectorStep_three (s := s) (b := b.val) (l := l.val) (n := n) (by simp [hx]) 2 k
    have hexec := exec_limit_sectors hx hfw hphase (k := k) (by simp [sectorLimit, hstate, hstep, hlate])
    rw [hstep] at hexec
    exact ⟨_, hexec, sessionsStep_forall hstands hplace,
      (sessionsStep_tags _).trans ((sectorStep_keepsRun 3 s b.val l.val n k 3).frame .tags (by simp))⟩
  case altLimit =>
    intro b l n k x s hx hfw hphase hstate hstep hlate
    have hx' : (s.block? b.val l.val n).isSome = true := by simp [hx]
    obtain ⟨hstands, hfailed⟩ := sectorFailed_spec hx' k
    have hexec := exec_limit_sectors hx hfw hphase (k := k) (by simp [sectorLimit, hstate, hstep, hlate])
    rw [hstep, sectorStep_past hx' 3 k (by decide)] at hexec
    exact ⟨_, hexec, sessionsStep_forall hstands fun y hy => by simp [hfailed y hy],
      (sessionsStep_tags _).trans ((sectorFailed_keepsRun s b.val l.val n k).frame .tags (by simp))⟩
  case early =>
    intro b l n k x s hx hphase hearly
    refine exec_limit_early hx hphase ?_
    rcases hearly with ⟨hstep, hearly⟩ | ⟨hstep, hearly⟩
    · simp [sectorLimit, hstep, hearly]
    · simp [sectorLimit, hstep, hearly]
  case passLimit =>
    intro b l n k st p a x s hx hfw hphase hresuming hpass hlate
    have hx' : (s.block? b.val l.val n).isSome = true := by simp [hx]
    have hstopped := passStopped_changesOnly s b.val l.val n
    have hdecides := passEnd_decides s b.val l.val n st p
    obtain ⟨hdecided, hframe⟩ := decides_then_sessions hdecides
    refine ⟨_, exec_limit_reread hx hfw hphase hresuming hpass hlate, ?_,
      keepsDecided_trans (keepsDecided_of_changesOnly hstopped (by simp)) hdecided,
      changesOnly_trans (changesOnly_mono hstopped (by simp)) (changesOnly_mono hframe (by simp))⟩
    exact sessionsStep_forall (hdecides.stands (passStopped_stands hx')) (passEnd_phase hx' st p)
  case rowLimit =>
    intro b l n k course i x r s hx hfw hphase hmember hsession hspent
    refine ⟨_, exec_limit_course hx hfw hphase hmember hsession hspent, ?_, ladder_then_sessions (modBlock_ladder s b.val l.val n _)⟩
    exact sessionsStep_forall (isSome_modBlock (by intro y; rfl) (by simp [hx])) (forall_recordsAt_modBlock (by intro y; rfl) (by simp))
  case rebuilt =>
    intro b l n x out s hx hfw hphase hout
    have hdecides := thatchStep4_decides s b.val l.val n 4 0
    obtain ⟨hsettled, hdone⟩ := thatchStep4_rebuilds hx hout 4 0
    exact ⟨_, exec_thatchDecode hx hfw hphase, fun e he => (wantsNoMore_of_tags_eq (sessionsStep_tags _)).settled (hsettled e he),
      sessionsStep_forall (hdecides.stands (by simp [hx])) hdone, decides_then_sessions hdecides⟩
  case notRebuilt =>
    intro b l n x s hx hfw hphase hout
    have hexec := exec_thatchDecode hx hfw hphase
    rw [thatchStep4_of_none hx hout, if_pos rfl] at hexec
    exact ⟨_, hexec, thatchMade_leads_on (by simp [hx])⟩
  case noThatch => exact fun b l n x s hx hphase => exec_thatchDecode_other hx hphase
  case passDone =>
    intro b l n st p x s hx hfw hphase hpass hrun hdecided hread
    have hx' : (s.block? b.val l.val n).isSome = true := by simp [hx]
    have hdecides := passEnd_decides s b.val l.val n st p
    rw [passStopped_of_idle hrun] at hdecides
    exact ⟨_, exec_rereadPassDone hx hfw hphase hpass hrun hdecided hread,
      sessionsStep_forall (hdecides.stands hx') (passEnd_phase hx' st p), decides_then_sessions hdecides⟩
  case lost =>
    intro b l n k x s hx hfw hphase hclosed hruled hk hstate hwants
    have hmem := mem_openOf hx hk hstate hwants
    generalize hks : (openOf s x).filter (fun k => cmdWants s b.val l.val n k) = ks at hmem
    have hexec := exec_courseReconstruction_closed hx hfw hphase hclosed hruled hks (List.ne_nil_of_mem hmem)
    have hdecides : Decides b.val l.val n s (ks.foldl (fun a k => loseSector a b.val l.val n k) s) :=
      decides_foldl _ (fun v k => loseSector_decides v b.val l.val n k) ks s
    have hsettled : cmdWants (ks.foldl (fun a k => loseSector a b.val l.val n k) s) b.val l.val n k = false :=
      cmdWants_foldl _ id (fun v k => loseSector_decides v b.val l.val n k) (fun v k hv => cmdWants_loseSector hv k) ks
        (by simp [hx]) k hmem
    exact ⟨_, hexec, (wantsNoMore_of_tags_eq (sessionsStep_tags _)).settled hsettled, decides_then_sessions hdecides⟩
  case joined =>
    intro b l n k course i x r s hx hfw hphase hopen hmember hsession hk hstate hwants
    have hmem := mem_openOf hx hk hstate hwants
    have hexec := exec_courseReconstruction_open hx hfw hphase hopen hmember hsession rfl (List.ne_nil_of_mem hmem)
    have hwaits : WaitsAtStep7 b.val l.val n k course i (joinRow s course (l.val * (bayType s b.val).blocks + n)) :=
      ⟨hwants, ⟨x, hx, hphase, hstate⟩, hmember⟩
    obtain ⟨r', hr', hrow⟩ := sessionsStep_hasRow hwaits (joinRow_hasRow hsession _)
    exact ⟨_, hexec, ⟨r', hr', List.contains_iff_mem.2 hrow⟩,
      ladder_then_sessions (changesOnly_mono (joinRow_changesOnly s course _) (by simp))⟩
  case waits => exact fun b l n x s hx h => exec_courseReconstruction_waits hx h

end Sys2Proof.Proofs
end

section
/-! SUPPORT. The statement about rebuilds, which fails where a block of a bay is recorded twice among the target blocks (R156, R161). -/

namespace Sys2Proof.Proofs

open Sys2Proof Sys2Proof.Machine Sys2Proof.Laws

/-- A command that waits for sector 40 of row 0 of member 0 of course 7, once without its disc and once on the disc in bay 0. -/
def waitsTwice : Cmd :=
  { (default : Cmd) with
    sqe := { (default : DataSqe) with name := 7 }
    sectors := [{ (default : CmdSector) with k := 40 }, { (default : CmdSector) with bay := some 0, k := 40 }] }

/-- A block whose sector 40 waits at step 7, and whose sector 0 is still being decoded. -/
def blockAtStep7 : Block :=
  { (default : Block) with phase := .course, secs := [(0, { state := .decoding, step := 1 }), (40, { state := .failed })] }

/-- The session of course 7, of one data disc, which is lost. -/
def memberlessSession : Rebuild :=
  { course := 7, d := 1, p := 0, dtype := .plain, rows := [0], lost := [0], lostRows := [], held := [], batch := [0] }

/-- An engine whose target blocks record block 0 of bay 0 twice, first as a block that has read nothing yet. The disc in the bay is the
lost member, about to be released. -/
def blockRecordedTwice : State :=
  { State.reset with
    mode := .active
    tags := [waitsTwice]
    bays := [(0, { disc := some { (default : Disc) with binding := .member 7 0 1 0 0 }, releasing := [default] })]
    recov := { blocks := [{ (default : Block) with phase := .reading }, blockAtStep7], sessions := [memberlessSession] } }

/-- The row's sector 40 is lost. Then the first record goes, because no sector below 32 of the block is wanted; the second stays,
because a decode of it runs; and by the second the command's other sector waits at step 7. -/
theorem exec_rowSolve_recordedTwice : ∃ t, exec (.rowSolve 7 0) blockRecordedTwice = .next t ∧
    ∃ d ∈ t.tags, ∃ x ∈ d.sectors, x.outcome = .pending ∧ isTarget t 7 0 0 40 d x = true :=
  ⟨_, rfl, by decide +kernel⟩

/-- Refutes O41 in its clause about the sectors of a solved row: where a block stands twice among the target blocks, the event drops its
first record in the end, and by the second one a sector of the row waits anew. The statement asks neither that a block stands once nor
that the number of a sector is below 32. -/
theorem not_rebuildsSolveRowsAndCloseRequests : ¬ Obligations.RebuildsSolveRowsAndCloseRequests := by
  unfold Obligations.RebuildsSolveRowsAndCloseRequests
  rintro ⟨-, -, -, -, hsolved, -⟩
  obtain ⟨t, hexec, hnone⟩ := hsolved 7 0 0 40 .lost memberlessSession blockRecordedTwice rfl (by decide) rfl (by decide) (by decide)
    (by decide)
  obtain ⟨u, hu, d, hd, x, hx, hpending, htarget⟩ := exec_rowSolve_recordedTwice
  cases hexec.symm.trans hu
  exact Bool.false_ne_true ((hnone d hd x hx hpending).symm.trans htarget)

end Sys2Proof.Proofs
end

section
/-! SUPPORT. Commands of the tag store as they start to run, FLUSH, SEAL and RELEASE of a course, and the statement about them
(R193, R196, R199, R358, R374, R378). -/

namespace Sys2Proof.Proofs

open Sys2Proof Sys2Proof.Machine Sys2Proof.Laws

/-! ## Commands and courses after an update -/

theorem modCmd_changesOnly (s : State) (q : QpId) (tag : Nat) (f : Cmd → Cmd) : s.changesOnly [.tags] (s.modCmd q tag f) :=
  changesOnly_of_agrees (by rintro ⟨⟩ <;> simp [State.agrees])

theorem cmd?_modCmd_same {s : State} {q : QpId} {tag : Nat} {c : Cmd} (hc : s.cmd? q tag = some c) {f : Cmd → Cmd}
    (hf : ∀ c, (f c).q = c.q ∧ (f c).sqe = c.sqe) : (s.modCmd q tag f).cmd? q tag = some (f c) := by
  have hkey : (fun c : Cmd => c.q == q && c.sqe.tag == tag) ∘ (fun c => if c.q == q && c.sqe.tag == tag then f c else c) =
      fun c => c.q == q && c.sqe.tag == tag := by
    funext c
    dsimp only [Function.comp_apply]
    split <;> simp [hf]
  have hfound : s.tags.find? (fun c => c.q == q && c.sqe.tag == tag) = some c := hc
  obtain ⟨hq, htag⟩ := cmd?_key hc
  rw [State.cmd?, State.modCmd, List.find?_map, hkey, hfound, Option.map_some, if_pos (by simp [hq, htag])]

theorem course?_eq_of_courses_eq {s t : State} (h : t.courses = s.courses) (g : Nat) : t.course? g = s.course? g := by
  rw [State.course?, State.course?, h]

/-- A course and a command updated together: each stands as its update has it. -/
theorem modCourse_modCmd_spec {s : State} {h : Nat} {k : Course} {q : QpId} {tag : Nat} {c : Cmd} (hk : s.course? h = some k)
    (hc : s.cmd? q tag = some c) {f : Course → Course} {g : Cmd → Cmd} (hf : ∀ k, (f k).handle = k.handle)
    (hg : ∀ c, (g c).q = c.q ∧ (g c).sqe = c.sqe) :
    ((s.modCourse h f).modCmd q tag g).course? h = some (f k) ∧ ((s.modCourse h f).modCmd q tag g).cmd? q tag = some (g c) ∧
    s.changesOnly [.tags, .courses] ((s.modCourse h f).modCmd q tag g) := by
  have hcourses := modCourse_changesOnly s h f
  have htags := modCmd_changesOnly (s.modCourse h f) q tag g
  refine ⟨?course, ?cmd, changesOnly_trans (changesOnly_mono hcourses (by simp)) (changesOnly_mono htags (by simp))⟩
  case course => rw [course?_eq_of_courses_eq (htags .courses (by simp)), course?_modCourse_same hk hf]
  case cmd => exact cmd?_modCmd_same (by rw [cmd?_eq_of_tags_eq (hcourses .tags (by simp)), hc]) hg

/-! ## A command starts to run -/

/-- A command that is about to run meets the meaning that its opcode and operands select (R357, R360). -/
theorem serve_of_toRun {s : State} {q : QpId} {tag : Nat} {k : SqeKind} {c : Cmd} (h : s.toRun q tag k c) (run : Cmd → State) :
    serve s q tag [k] run = run c := by
  obtain ⟨hfound, hfresh, hkind, hserves, hrange⟩ := h
  simp [serve, hfound, hfresh, hkind, hserves, hrange]

/-! ## Courses that are open, and freed -/

theorem openCourse?_course? {s : State} {h : Nat} {k : Course} (hk : openCourse? s h = some k) : s.course? h = some k := by
  obtain ⟨c, hc, hopen⟩ := Option.bind_eq_some_iff.1 hk
  split at hopen
  · exact hc.trans hopen
  · exact absurd hopen (by simp)

/-- An open course is found by the handle that it bears. -/
theorem openCourse?_own_handle {s : State} {h : Nat} {k : Course} (hk : openCourse? s h = some k) :
    s.course? k.handle = some k := by
  have hc := openCourse?_course? hk
  rwa [course?_handle hc]

theorem freeCourse_handle_ne (s : State) (h : Nat) : ∀ x ∈ (freeCourse s h).courses, x.handle ≠ h := by
  intro x hx
  simpa using (List.mem_filter.1 hx).2

/-- A course that is freed ends its APPENDs and the write sessions of its members, and nothing else (R378). -/
theorem freeCourse_ends_only (s : State) (h : Nat) :
    s.changesOnly [.courses, .tags, .qps, .bays, .freeCtr] (freeCourse s h) := by
  unfold freeCourse
  refine changesOnly_trans (changesOnly_mono (abortAppends_changesOnly s h) (by simp)) ?_
  refine changesOnly_trans ?_ (changesOnly_mono (withCourses_changesOnly _ _) (by simp))
  split
  · exact changesOnly_foldl _ (fun u (b : BayId) => changesOnly_mono (modBay_changesOnly u b.val _) (by simp)) _ _
  · exact changesOnly_refl _ _

/-- A RELEASE that frees its course: no course of the handle is left, nor the command (R378). -/
theorem finish_freeCourse_spec (s : State) (h : Nat) (q : QpId) (tag st aux : Nat) :
    (∀ x ∈ ((freeCourse s h).finish q tag 0 st 0 0 aux).courses, x.handle ≠ h) ∧
    ((freeCourse s h).finish q tag 0 st 0 0 aux).cmd? q tag = none ∧
    s.changesOnly [.courses, .tags, .qps, .bays, .freeCtr] ((freeCourse s h).finish q tag 0 st 0 0 aux) := by
  have hended := finish_changesOnly (freeCourse s h) q tag 0 st 0 0 aux
  refine ⟨?freed, finish_cmd_none _ _ _ _ _ _ _ _, changesOnly_trans (freeCourse_ends_only s h) (changesOnly_mono hended (by simp))⟩
  case freed =>
    rw [hended .courses (by simp)]
    exact freeCourse_handle_ne s h

/-! ## What a close command does (R374, R378) -/

theorem exec_flush {s : State} {q : QpId} {tag : Nat} {c : Cmd} (h : s.toRun q tag .flush c) :
    exec (.flush q tag) s = .next (closeCommand s c false false) :=
  congrArg Host.Outcome.next (serve_of_toRun h _)

theorem exec_seal {s : State} {q : QpId} {tag : Nat} {c : Cmd} (h : s.toRun q tag .sealing c) :
    exec (.seal q tag) s = .next (closeCommand s c true false) :=
  congrArg Host.Outcome.next (serve_of_toRun h _)

theorem exec_releaseCourse {s : State} {q : QpId} {tag : Nat} {c : Cmd} (h : s.toRun q tag .releaseCourse c) :
    exec (.releaseCourse q tag) s = .next (closeCommand s c false true) :=
  congrArg Host.Outcome.next (serve_of_toRun h _)

/-- The three close commands are one, told apart by whether it seals and whether it releases. -/
theorem exec_closing {q : QpId} {tag : Nat} {p : Instr × SqeKind}
    (hp : p ∈ [(Instr.flush q tag, SqeKind.flush), (Instr.seal q tag, .sealing), (Instr.releaseCourse q tag, .releaseCourse)])
    {s : State} {c : Cmd} (h : s.toRun q tag p.2 c) :
    exec p.1 s = .next (closeCommand s c (decide (p.2 = .sealing)) (decide (p.2 = .releaseCourse))) := by
  simp only [List.mem_cons, List.not_mem_nil, or_false] at hp
  obtain rfl | rfl | rfl := hp
  · exact exec_flush h
  · exact exec_seal h
  · exact exec_releaseCourse h

/-- Without a course a close command ends with nothing done, and its AUX64 is a free value (R358). -/
theorem closeCommand_none {s : State} {c : Cmd} (hk : openCourse? s c.sqe.handle = none)
    (hkind : c.sqe.kind ∈ [SqeKind.flush, .sealing, .releaseCourse]) (sealing release : Bool) :
    closeCommand s c sealing release =
      ({ s with freeCtr := s.freeCtr + 1 } : State).finish c.q c.sqe.tag 0 0x10 0 0 (Config.free s.freeCtr) := by
  have haux : earlyAux s c.sqe = s.fresh := by
    simp only [List.mem_cons, List.not_mem_nil, or_false] at hkind
    obtain h | h | h := hkind <;> simp [earlyAux, h]
  simp [closeCommand, hk, endEarly, haux, stNotMounted]

section
variable {s : State} {c : Cmd} {k : Course} (hk : openCourse? s c.sqe.handle = some k)
include hk

/-- A stopped course: the command ends at once, with success only where it has nothing left to wait for. -/
theorem closeCommand_of_stopped (hstopped : k.stopped = true) (sealing release : Bool) :
    closeCommand s c sealing release =
      if k.allCommitted ∧ (sealing = false ∨ membersClosed s k) then
        (if release then freeCourse s k.handle else s).finish c.q c.sqe.tag 0 0x00 0 0 0xFFFFFFFF
      else (if release then freeCourse s k.handle else s).finish c.q c.sqe.tag 0 0x14 0 0 k.notDurable := by
  simp [closeCommand, hk, hstopped, stSuccess, stAborted, noneLost]

/-- A full course with rows not committed: the command ends at once (R199). -/
theorem closeCommand_of_full (hstopped : k.stopped = false) (hfull : k.full = true) (hall : k.allCommitted = false)
    (sealing : Bool) : closeCommand s c sealing false = s.finish c.q c.sqe.tag 0 0x13 0 0 k.firstLost := by
  simp [closeCommand, hk, hstopped, hfull, hall, stSealedFull]

/-- A committed course that goes on: FLUSH, and SEAL where every member's disc is closed, end at once. -/
theorem closeCommand_of_done (hstopped : k.stopped = false) (hall : k.allCommitted = true) {sealing : Bool}
    (hclosed : sealing = false ∨ membersClosed s k = true) :
    closeCommand s c sealing false = (s.modCourse k.handle fun k => { k.pad with sealed := k.sealed || sealing }).finish
      c.q c.sqe.tag 0 0x00 0 0 0xFFFFFFFF := by
  have hdone : (!sealing || membersClosed s k) = true := by simpa using hclosed
  simp [closeCommand, hk, hstopped, hall, hdone, stSuccess, noneLost]

/-- Rows that are not committed, or for SEAL a member's disc that is not closed: the command waits for the close (R190, R196). -/
theorem closeCommand_of_waiting (hstopped : k.stopped = false) (hfull : k.full = true → k.allCommitted = true)
    {sealing : Bool} (hwait : k.allCommitted = false ∨ sealing = true ∧ membersClosed s k = false) (release : Bool) :
    closeCommand s c sealing release = waitClose (s.modCourse k.handle fun k => { k.pad with sealed := k.sealed || sealing }) c
      k.handle ⟨c.q, c.sqe.tag, k.rowsBegun, sealing, release, none⟩ := by
  have hlost : ¬ (k.full = true ∧ k.allCommitted = false) := by
    rintro ⟨hf, ha⟩
    simp [hfull hf] at ha
  have hdone : (k.allCommitted && (!sealing || membersClosed s k)) = false := by
    obtain ha | ⟨hsealing, hopen⟩ := hwait
    · simp [ha]
    · simp [hsealing, hopen]
  simp only [closeCommand, hk, hstopped, Bool.false_eq_true, if_false, if_neg hlost, hdone, Bool.false_and]

end

/-- A command that waits stands as started, and behind the others that wait for its course's close. -/
theorem waitClose_spec {s : State} {c : Cmd} {h : Nat} {k : Course} (hc : s.cmd? c.q c.sqe.tag = some c)
    (hk : s.course? h = some k) (w : CloseWait) :
    (waitClose s c h w).course? h = some { k with waits := k.waits ++ [w] } ∧
    (waitClose s c h w).cmd? c.q c.sqe.tag = some { c with started := true } ∧
    s.changesOnly [.tags, .courses] (waitClose s c h w) :=
  modCourse_modCmd_spec hk hc (f := fun k => { k with waits := k.waits ++ [w] }) (fun _ => rfl) (fun _ => ⟨rfl, rfl⟩)

/-- The partial row is padded, the course sealed where the command seals, and the command waits. -/
theorem waitClose_padded {s : State} {c : Cmd} {k : Course} (hc : s.cmd? c.q c.sqe.tag = some c) (hk : s.course? k.handle = some k)
    (sealing : Bool) (w : CloseWait) :
    let t := waitClose (s.modCourse k.handle fun k => { k.pad with sealed := k.sealed || sealing }) c k.handle w
    t.course? k.handle = some { k.pad with sealed := k.sealed || sealing, waits := k.waits ++ [w] } ∧
    t.cmd? c.q c.sqe.tag = some { c with started := true } ∧ s.changesOnly [.tags, .courses] t := by
  have hpad := modCourse_changesOnly s k.handle fun k => { k.pad with sealed := k.sealed || sealing }
  obtain ⟨hcourse, hcmd, hframe⟩ := waitClose_spec (c := c) (by rw [cmd?_eq_of_tags_eq (hpad .tags (by simp)), hc])
    (course?_modCourse_same hk (f := fun k => { k.pad with sealed := k.sealed || sealing }) (fun _ => rfl)) w
  exact ⟨hcourse, hcmd, changesOnly_trans (changesOnly_mono hpad (by simp)) hframe⟩

/-! ## The statement -/

/-- Settles O26, by what the course still waits for: the conditions of each clause select one end of `closeCommand`. -/
theorem closesWaitForWhatIsNotDurable : Obligations.ClosesWaitForWhatIsNotDurable := by
  unfold Obligations.ClosesWaitForWhatIsNotDurable
  refine ⟨?noCourse, ?lost, ?released, ?waits, ?flushed, ?sealed, ?closing, ?sealStopped⟩
  case noCourse =>
    intro q tag c s p hp h hk
    obtain ⟨rfl, rfl⟩ := cmd?_key h.found
    have hkind : c.sqe.kind ∈ [SqeKind.flush, .sealing, .releaseCourse] := by
      rw [h.kind]
      exact List.mem_map_of_mem (f := Prod.snd) hp
    exact ⟨_, exec_closing hp h, _, closeCommand_none hk hkind _ _⟩
  case lost =>
    intro q tag c k s p hp h hk hends hall
    obtain ⟨rfl, rfl⟩ := cmd?_key h.found
    have hrelease : decide (p.2 = .releaseCourse) = false := by
      simp only [List.mem_cons, List.not_mem_nil, or_false] at hp
      obtain rfl | rfl := hp <;> rfl
    refine ⟨_, exec_closing (List.mem_append_left [(Instr.releaseCourse c.q c.sqe.tag, SqeKind.releaseCourse)] hp) h, ?_⟩
    rw [hrelease]
    cases hstopped : k.stopped
    case true => simp [closeCommand_of_stopped hk hstopped, hall, Course.notDurable, Course.firstLost]
    case false => exact closeCommand_of_full hk hstopped (by simpa [hstopped] using hends) hall _
  case released =>
    intro q tag c k s h hk hstopped
    obtain ⟨rfl, rfl⟩ := cmd?_key h.found
    refine ⟨_, exec_releaseCourse h, ?_⟩
    rw [closeCommand_of_stopped hk hstopped]
    split
    · exact finish_freeCourse_spec s k.handle c.q c.sqe.tag _ _
    · exact finish_freeCourse_spec s k.handle c.q c.sqe.tag _ _
  case waits =>
    intro q tag c k s p hp h hk hstopped hfull hall
    obtain ⟨rfl, rfl⟩ := cmd?_key h.found
    refine ⟨_, exec_closing hp h, ?_⟩
    rw [closeCommand_of_waiting hk hstopped (by simp [hfull]) (.inl hall)]
    exact waitClose_padded h.found (openCourse?_own_handle hk) _ _
  case flushed =>
    intro q tag c k s h hk hall
    obtain ⟨rfl, rfl⟩ := cmd?_key h.found
    refine ⟨_, exec_flush h, ?_⟩
    cases hstopped : k.stopped
    case true => simp [closeCommand_of_stopped hk hstopped, hall]
    case false =>
      rw [closeCommand_of_done hk hstopped hall (.inl rfl)]
      simp only [Bool.or_false]
      rfl
  case sealed =>
    intro q tag c k s h hk hstopped hall hclosed
    obtain ⟨rfl, rfl⟩ := cmd?_key h.found
    refine ⟨_, exec_seal h, ?_⟩
    rw [closeCommand_of_done hk hstopped hall (.inr hclosed)]
    simp only [Bool.or_true]
  case closing =>
    intro q tag c k s h hk hstopped hall hopen
    obtain ⟨rfl, rfl⟩ := cmd?_key h.found
    refine ⟨_, exec_seal h, ?_⟩
    rw [closeCommand_of_waiting hk hstopped (fun _ => hall) (.inr ⟨rfl, hopen⟩)]
    simpa only [Bool.or_true] using waitClose_padded h.found (openCourse?_own_handle hk) true _
  case sealStopped =>
    intro q tag c k s h hk hstopped hall
    obtain ⟨rfl, rfl⟩ := cmd?_key h.found
    refine ⟨_, exec_seal h, ?_⟩
    simp [closeCommand_of_stopped hk hstopped, hall]

end Sys2Proof.Proofs
end

section
/-! SUPPORT. What a DATA frame brings: the units of an admin payload, the first sector of an APPEND, data for a tag that is not in
flight, and the statement about them (R193, R338, R361, R364, R372, R379, R384). -/

namespace Sys2Proof.Proofs

open Sys2Proof Sys2Proof.Machine Sys2Proof.Laws

/-! ## Receipt -/

theorem learn_adminQ (s : State) (f : Frame) : (learn s f).adminQ = s.adminQ := learn_changesOnly s f .adminQ (by simp)
theorem learn_cmd? (s : State) (f : Frame) (q : QpId) (tag : Nat) : (learn s f).cmd? q tag = s.cmd? q tag :=
  cmd?_eq_of_tags_eq (learn_changesOnly s f .tags (by simp)) q tag
theorem learn_bufferRoom (s : State) (f : Frame) : bufferRoom (learn s f) = bufferRoom s := by
  rw [bufferRoom, bufferRoom, learn_pnat, learn_changesOnly s f .courses (by simp)]
theorem learn_tagWaits (s : State) (f : Frame) (q : QpId) (tag : Nat) : tagWaits (learn s f) q tag = tagWaits s q tag := by
  rw [tagWaits, tagWaits, learn_qp]

/-- A DATA frame of the expected number is about to be stored: it is received while nothing holds it up, and its queue pair is
open (R329, R338, R352, R353). -/
structure DataArrives (s : State) (f : Frame) (q : QpId) : Prop where
  takes : s.takes f
  stores : s.stores
  data : f.ftype = 2
  pair : frameQp f = some q
  reach : reaches s f q = true
  opened : (s.qp q).state = .opened
  expected : f.seq = (s.qp q).rxNext

theorem exec_data_of_stores {s : State} {f : Frame} (h : s.takes f) (hs : s.stores) (ht : f.ftype = 2) (draws : List Word) :
    exec (.data f draws) s = .next (sequencedNow (learn s f) f (storeData f draws)) := by
  have hexec : exec (.data f draws) s = execData f draws s := rfl
  rw [hexec, execData, if_neg (by simp [ht]), receive_of_takes h (by simp [ht]), sequenced,
    if_pos (by simp [learn_chan, hs.east, hs.west])]

section
variable {s : State} {f : Frame} {q : QpId} (h : DataArrives s f q) (draws : List Word)
include h

/-- A frame that is stored: beyond what the store does, it changes queue pairs, the ring and the pins only. -/
theorem exec_data_stored {ps : List Part} {t : State} (hstore : storeData f draws q (learn s f) = some t)
    (hps : (learn s f).changesOnly ps t) :
    ∃ u, exec (.data f draws) s = .next u ∧ (u.qp q).rxNext = f.seq + 1 ∧ t.changesOnly [.qps, .ring, .sent] u ∧
      s.changesOnly (ps ++ [.qps, .ring, .sent]) u := by
  obtain ⟨htakes, hstores, hdata, hpair, hreach, hopened, hexpected⟩ := h
  obtain ⟨-, -, hnext, hframe⟩ := sequencedNow_of_stored_qp hpair (by rw [learn_reaches, hreach]) (by rw [learn_qp, hopened])
    (by rw [learn_ingestLost, hstores.whole]) (by rw [learn_qp, hexpected]) hstore
  exact ⟨_, exec_data_of_stores htakes hstores hdata draws, hnext, hframe,
    changesOnly_trans (changesOnly_mono (learn_changesOnly s f) (by simp))
      (changesOnly_trans (changesOnly_mono hps (List.subset_append_left _ _)) (changesOnly_mono hframe (List.subset_append_right _ _)))⟩

/-- A frame that cannot be stored: the host sends it again (R338). -/
theorem exec_data_unstorable (hstore : storeData f draws q (learn s f) = none) : exec (.data f draws) s = .next (learn s f) := by
  obtain ⟨htakes, hstores, hdata, hpair, hreach, hopened, hexpected⟩ := h
  rw [exec_data_of_stores htakes hstores hdata draws]
  exact congrArg Host.Outcome.next (sequencedNow_of_unstorable hpair (by rw [learn_reaches, hreach]) (by rw [learn_qp, hopened])
    (by rw [learn_ingestLost, hstores.whole]) (by rw [learn_qp, hexpected]) hstore)

end

/-! ## What a DATA frame stores (R361, R364, R379, R384) -/

/-- A DATA frame's sectors count against the credit granted. -/
def countData (s : State) (f : Frame) (q : QpId) : State :=
  s.modQp q fun p => { p with dataIn := p.dataIn + (dataSectorsOf f).length }

theorem countData_changesOnly (s : State) (f : Frame) (q : QpId) : s.changesOnly [.qps] (countData s f q) :=
  modQp_changesOnly s q _

theorem storeData_beyond_credit {s : State} {f : Frame} {q : QpId}
    (h : (s.qp q).granted < (s.qp q).dataIn + (dataSectorsOf f).length) (draws : List Word) : storeData f draws q s = none := by
  simp [storeData, h]

/-- Units for an admin command that waits for its payload. -/
theorem storeData_admin {s : State} {f : Frame} {g : Gateway}
    (hcredit : (s.qp (.admin g)).dataIn + (dataSectorsOf f).length ≤ (s.qp (.admin g)).granted)
    (hwaits : s.adminQ.any (fun c => c.via == .ring g && c.tag == f.tag % 2048) = true) (draws : List Word) :
    ∃ t, storeData f draws (.admin g) s = some t ∧
      t.adminQ = s.adminQ.map (fun c => if c.via == .ring g && c.tag == f.tag % 2048 then (dataSectorsOf f).foldl takeUnit c else c) ∧
      s.changesOnly [.adminQ, .qps] t := by
  refine ⟨_, ?stored, rfl, changesOnly_trans (changesOnly_mono (countData_changesOnly s f (.admin g)) (by simp))
    (changesOnly_mono (withAdminQ_changesOnly _ _) (by simp))⟩
  case stored =>
    rw [storeData]
    simp only [if_neg (Nat.not_lt.2 hcredit), hwaits, if_true]
    rfl

/-- Data for a tag that is neither in flight nor waiting: discarded and counted. -/
theorem storeData_no_command {s : State} {f : Frame} {n : Nat}
    (hcredit : (s.qp (.data n)).dataIn + (dataSectorsOf f).length ≤ (s.qp (.data n)).granted)
    (hnone : s.cmd? (.data n) (f.tag % 2048) = none) (hwaits : tagWaits s (.data n) (f.tag % 2048) = false) (draws : List Word) :
    ∃ t, storeData f draws (.data n) s = some t ∧ s.changesOnly [.qps, .ring] t := by
  refine ⟨(countData s f (.data n)).ringDrop f.port, ?stored,
    changesOnly_trans (changesOnly_mono (countData_changesOnly s f (.data n)) (by simp))
      (changesOnly_mono (ringDrop_changesOnly _ _) (by simp))⟩
  case stored =>
    rw [storeData]
    simp only [if_neg (Nat.not_lt.2 hcredit), hnone, hwaits, Bool.false_eq_true, if_false]
    rfl

/-- One sector for an APPEND that has started, with room in the write buffer. -/
theorem storeData_append {s : State} {f : Frame} {n : Nat} {c : Cmd} {x : Nat × List Byte} (hsectors : dataSectorsOf f = [x])
    (hcredit : (s.qp (.data n)).dataIn + 1 ≤ (s.qp (.data n)).granted) (hfound : s.cmd? (.data n) (f.tag % 2048) = some c)
    (hop : c.sqe.opcode = 2) (hstarted : c.started = true) (hroom : 1 ≤ bufferRoom s) (draws : List Word) :
    storeData f draws (.data n) s = takeSector f.port (.data n) (f.tag % 2048) draws (countData s f (.data n)) x := by
  have hone : (dataSectorsOf f).length = 1 := by simp [hsectors]
  rw [storeData, countData]
  simp only [hone, if_neg (Nat.not_lt.2 hcredit), hfound, hop, hstarted, if_neg (Nat.not_lt.2 hroom), ne_eq, not_true_eq_false,
    Bool.true_eq_false, if_false]
  rw [hsectors, foldStep]
  cases takeSector f.port (.data n) (f.tag % 2048) draws _ x with
  | none => rfl
  | some t => rfl

/-! ## The first sector of an APPEND (R193, R194, R372) -/

/-- At an APPEND's first sector its course gives it as many CSNs as it has sectors. -/
theorem assignRange_first {s : State} {c : Cmd} {k : Course} (hfound : s.cmd? c.q c.sqe.tag = some c) (hcsn : c.csn = none)
    (hk : s.course? c.sqe.handle = some k) (hsealed : k.sealed = false) (hfull : k.full = false) (hleft : c.sqe.count ≤ k.left) :
    ∃ t, assignRange s c = some (k.nextCsn, t) ∧
      t.course? c.sqe.handle = some { k with nextCsn := k.nextCsn + c.sqe.count } ∧
      t.cmd? c.q c.sqe.tag = some { c with csn := some k.nextCsn } ∧ s.changesOnly [.tags, .courses] t := by
  have hassigned : assignRange s c = some (k.nextCsn,
      (s.modCourse c.sqe.handle fun k => { k with nextCsn := k.nextCsn + c.sqe.count }).modCmd c.q c.sqe.tag
        fun c => { c with csn := some k.nextCsn }) := by
    simp [assignRange, hcsn, hk, hsealed, hfull, Nat.not_lt.2 hleft, course?_handle hk]
  exact ⟨_, hassigned, modCourse_modCmd_spec hk hfound (f := fun k => { k with nextCsn := k.nextCsn + c.sqe.count })
    (fun _ => rfl) (fun _ => ⟨rfl, rfl⟩)⟩

/-- A sector for a member whose session is open takes the session's write sequence. -/
theorem memberSeq_of_open {s : State} {k : Course} {i : Nat} {b : BayId} {w : WriteSess} (hb : k.bays[i]? = some b)
    (hw : (s.bay b.val).write = some w) (hphase : w.phase ≠ .waitTemp) (draws : List Word) :
    memberSeq s k i draws = some (w.seq, s) := by
  simp [memberSeq, hb, hw, openSeq, hphase]

/-- The bytes of a sector of a course in the write buffer: its user data with its address, tenant, write sequence and key. -/
def appendBytes (s : State) (k : Course) (d : Disc) (csn tenant seq key : Nat) (fill : Bool) (user : List Byte) : List Byte :=
  let m := csnRow k.dtype k.d csn
  encodeSector d.discId (lsnOf k.dtype (rowLayer k.dtype m) (rowBlock k.dtype m) (csnK k.dtype csn)) tenant seq
    (rowLayer k.dtype m) false fill (if key = 0 then none else some (key, Tbl.get [] s.sec.keys key)) ((user ++ zeros 4096).take 4096)

theorem appendBytes_eq_of_sec_eq {s t : State} (h : t.sec = s.sec) (k : Course) (d : Disc) (csn tenant seq key : Nat) (fill : Bool)
    (user : List Byte) : appendBytes t k d csn tenant seq key fill user = appendBytes s k d csn tenant seq key fill user := by
  simp only [appendBytes, h]

/-- A sector for a member whose session is open enters the write buffer, and nothing else changes. -/
theorem bufferSector_of_open {s : State} {h csn : Nat} {k : Course} {b : BayId} {w : WriteSess} {d : Disc}
    (hk : s.course? h = some k) (hb : k.bays[csnDisc k.dtype k.d csn]? = some b) (hw : (s.bay b.val).write = some w)
    (hphase : w.phase ≠ .waitTemp) (hd : (s.bay b.val).disc = some d) (tenant key : Nat) (fill : Bool) (draws : List Word)
    (user : List Byte) :
    ∃ t, bufferSector s h csn tenant key fill draws user = some t ∧
      t.course? h = some { k with buf := k.buf ++ [⟨csn, appendBytes s k d csn tenant w.seq key fill user⟩] } ∧
      s.changesOnly [.courses] t := by
  have hbuffered : bufferSector s h csn tenant key fill draws user =
      some (s.modCourse h fun c => { c with buf := c.buf ++ [⟨csn, appendBytes s k d csn tenant w.seq key fill user⟩] }) := by
    simp only [bufferSector, hk, memberSeq_of_open hb hw hphase, hb, Option.bind_some, hd]
    rfl
  exact ⟨_, hbuffered, course?_modCourse_same hk (fun _ => rfl), modCourse_changesOnly s h _⟩

/-- A sector taken that is not the last of its APPEND: the course notes when, and the command which. -/
theorem takeSector_of_buffered {s t u : State} {q : QpId} {tag first : Nat} {c : Cmd} {x : Nat × List Byte} {draws : List Word}
    (hfound : s.cmd? q tag = some c) (hx : x.1 < c.sqe.count) (hnew : c.taken.contains x.1 = false)
    (hrange : assignRange s c = some (first, t))
    (hbuffer : bufferSector t c.sqe.handle (first + x.1) c.sqe.tenant c.sqe.key false draws x.2 = some u)
    (hmore : c.taken.length + 1 ≠ c.sqe.count) (port : Port) :
    takeSector port q tag draws s x = some ((u.modCourse c.sqe.handle fun k => { k with lastData := u.now }).modCmd q tag
      fun c => { c with taken := c.taken ++ [x.1] }) := by
  simp only [takeSector, hfound, if_neg (Nat.not_le.2 hx), hnew, hrange, hbuffer, if_neg hmore, Bool.false_eq_true, if_false]

/-- An APPEND's first sector, of more than one: the range is assigned, and the sector stands in the write buffer at its place. -/
theorem takeSector_first {s : State} {q : QpId} {tag x : Nat} {c : Cmd} {k : Course} {b : BayId} {w : WriteSess} {d : Disc}
    (hfound : s.cmd? q tag = some c) (hcsn : c.csn = none) (htaken : c.taken = []) (hmore : 2 ≤ c.sqe.count)
    (hx : x < c.sqe.count) (hk : s.course? c.sqe.handle = some k) (hsealed : k.sealed = false) (hfull : k.full = false)
    (hleft : c.sqe.count ≤ k.left) (hb : k.bays[csnDisc k.dtype k.d (k.nextCsn + x)]? = some b)
    (hw : (s.bay b.val).write = some w) (hphase : w.phase ≠ .waitTemp) (hd : (s.bay b.val).disc = some d)
    (port : Port) (draws : List Word) (u : List Byte) :
    ∃ t, takeSector port q tag draws s (x, u) = some t ∧
      t.course? c.sqe.handle = some { k with
        nextCsn := k.nextCsn + c.sqe.count
        buf := k.buf ++ [⟨k.nextCsn + x, appendBytes s k d (k.nextCsn + x) c.sqe.tenant w.seq c.sqe.key false u⟩]
        lastData := s.now } ∧
      t.cmd? q tag = some { c with csn := some k.nextCsn, taken := [x] } ∧ s.changesOnly [.tags, .courses] t := by
  obtain ⟨rfl, rfl⟩ := cmd?_key hfound
  obtain ⟨t, hrange, hcourse, hcmd, hassigned⟩ := assignRange_first hfound hcsn hk hsealed hfull hleft
  have hbay : t.bay b.val = s.bay b.val := by rw [State.bay, State.bay, hassigned .bays (by simp)]
  obtain ⟨v, hbuffer, hbufferedCourse, hbuffered⟩ := bufferSector_of_open hcourse hb (by rw [hbay, hw]) hphase (by rw [hbay, hd])
    c.sqe.tenant c.sqe.key false draws u
  have hnow : v.now = s.now := by
    rw [State.now, State.now, hbuffered .aon (by simp), hassigned .aon (by simp)]
  have hbytes : appendBytes t { k with nextCsn := k.nextCsn + c.sqe.count } d (k.nextCsn + x) c.sqe.tenant w.seq c.sqe.key false u =
      appendBytes s k d (k.nextCsn + x) c.sqe.tenant w.seq c.sqe.key false u :=
    appendBytes_eq_of_sec_eq (hassigned .sec (by simp)) _ _ _ _ _ _ _ _
  obtain ⟨hnotedCourse, hnotedCmd, hnoted⟩ := modCourse_modCmd_spec (q := c.q) (tag := c.sqe.tag) hbufferedCourse
    (by rw [cmd?_eq_of_tags_eq (hbuffered .tags (by simp)), hcmd])
    (f := fun k => { k with lastData := v.now }) (g := fun c => { c with taken := c.taken ++ [x] }) (fun _ => rfl) (fun _ => ⟨rfl, rfl⟩)
  refine ⟨_, takeSector_of_buffered hfound hx (by simp [htaken]) hrange hbuffer (by simp [htaken]; omega) port, ?course, ?cmd,
    changesOnly_trans hassigned (changesOnly_trans (changesOnly_mono hbuffered (by simp)) hnoted)⟩
  case course => rw [hnotedCourse, hbytes, hnow]
  case cmd => rw [hnotedCmd, htaken, List.nil_append]

/-! ## The statement -/

/-- Settles O30: each clause by what `storeData` makes of the frame; what accepting it adds lies in queue pairs, ring and pins. -/
theorem dataFramesReachTheirCommands : Obligations.DataFramesReachTheirCommands := by
  unfold Obligations.DataFramesReachTheirCommands
  refine ⟨?admin, ?noCredit, ?noCommand, ?append⟩
  case admin =>
    intro f g dr s ht hs hty hq hr ho hseq hcredit hwaits
    obtain ⟨t, hstore, hqueue, hps⟩ := storeData_admin (s := learn s f) (by rw [learn_qp]; exact hcredit)
      (by rw [learn_adminQ]; exact hwaits) dr
    obtain ⟨u, hexec, hnext, hframe, hall⟩ := exec_data_stored ⟨ht, hs, hty, hq, hr, ho, hseq⟩ dr hstore hps
    refine ⟨u, hexec, ?_, hnext, changesOnly_mono hall (by simp)⟩
    rw [hframe .adminQ (by simp), hqueue, learn_adminQ]
  case noCredit =>
    intro f q dr s ht hs hty hq hr ho hseq hcredit
    have hstore := storeData_beyond_credit (s := learn s f) (by rw [learn_qp]; exact hcredit) dr
    exact ⟨_, exec_data_unstorable ⟨ht, hs, hty, hq, hr, ho, hseq⟩ dr hstore, rfl⟩
  case noCommand =>
    intro f n dr s ht hs hty hq hr ho hseq hcredit hnone hwaits
    obtain ⟨t, hstore, hps⟩ := storeData_no_command (s := learn s f) (by rw [learn_qp]; exact hcredit)
      (by rw [learn_cmd?]; exact hnone) (by rw [learn_tagWaits]; exact hwaits) dr
    obtain ⟨u, hexec, hnext, -, hall⟩ := exec_data_stored ⟨ht, hs, hty, hq, hr, ho, hseq⟩ dr hstore hps
    exact ⟨u, hexec, hnext, changesOnly_mono hall (by simp)⟩
  case append =>
    intro f n x i u c k b w d dr s ht hs hty hq hr ho hseq hsectors hcredit hfound hop hstarted hroom hx hcsn htaken hmore hk hsealed
      hfull hphase hleft hi hb hw hd
    subst hi
    have hcounted : s.changesOnly [.qps, .ring] (countData (learn s f) f (.data n)) :=
      changesOnly_trans (changesOnly_mono (learn_changesOnly s f) (by simp)) (changesOnly_mono (countData_changesOnly _ f _) (by simp))
    have hbay : (countData (learn s f) f (.data n)).bay b.val = s.bay b.val := by
      rw [State.bay, State.bay, hcounted .bays (by simp)]
    have hnow : (countData (learn s f) f (.data n)).now = s.now := by
      rw [State.now, State.now, hcounted .aon (by simp)]
    obtain ⟨t, htake, hcourse, hcmd, hps⟩ := takeSector_first
      (by rw [cmd?_eq_of_tags_eq (hcounted .tags (by simp)), hfound]) hcsn htaken hmore hx
      (by rw [course?_eq_of_courses_eq (hcounted .courses (by simp)), hk]) hsealed hfull hleft hb
      (by rw [hbay, hw]) hphase (by rw [hbay, hd]) f.port dr u
    have hstore := storeData_append (s := learn s f) hsectors (by rw [learn_qp]; exact hcredit) (by rw [learn_cmd?, hfound]) hop
      hstarted (by rw [learn_bufferRoom]; exact hroom) dr
    obtain ⟨v, hexec, hnext, hframe, hall⟩ := exec_data_stored ⟨ht, hs, hty, hq, hr, ho, hseq⟩ dr (hstore.trans htake)
      (ps := [.qps, .tags, .courses])
      (changesOnly_trans (changesOnly_mono (countData_changesOnly _ f _) (by simp)) (changesOnly_mono hps (by simp)))
    refine ⟨v, hexec, ?course, ?cmd, hnext, changesOnly_mono hall (by simp)⟩
    case course =>
      rw [course?_eq_of_courses_eq (hframe .courses (by simp)), hcourse, hnow, appendBytes_eq_of_sec_eq (hcounted .sec (by simp))]
      rfl
    case cmd => rw [cmd?_eq_of_tags_eq (hframe .tags (by simp)), hcmd]

end Sys2Proof.Proofs
end

section
/-! SUPPORT. Lane blocks: what a frame's blocks carry, what the receiver makes of them, and the statement about coding and
receiving them (R210 to R212, R218, R220). -/

namespace Sys2Proof.Proofs

open Sys2Proof Sys2Proof.Machine Sys2Proof.Laws

/-! ## One block (R210) -/

/-- The descrambler undoes the scrambler and keeps the same 58 bits. -/
theorem laneBits_laneScramble_eq (h : BitVec 58) (w : Long) : laneBits h (laneScramble h w).1 = (w, (laneScramble h w).2) :=
  Prod.ext (laneBits_laneScramble h w) rfl

/-- The 58 bits after a received block are those after the sent one. -/
theorem laneBits_coded_bits (h : BitVec 58) (x : LaneBlock) : (laneBits h (x.coded h).1.word).2 = (x.coded h).2 := rfl

theorem coded_head (h : BitVec 58) (x : LaneBlock) : (x.coded h).1.head = if x.control then 2 else 1 := rfl

/-! ## Data blocks (R211) -/

/-- Bytes cut into blocks: one for every eight bytes begun, each a data block of eight bytes, and the bytes in their order with
zeros after them. -/
theorem chunks_filled (k : Nat) (l : List Byte) (h : l.length ≤ 8 * k) :
    let d := (chunks 8 k l).map (fun c => LaneBlock.mk false (c ++ zeros (8 - c.length)))
    d.length = (l.length + 7) / 8 ∧ (∀ x ∈ d, x.control = false ∧ x.bytes.length = 8) ∧
      ∃ m, d.flatMap LaneBlock.bytes = l ++ zeros m := by
  induction k generalizing l with
  | zero =>
    obtain rfl : l = [] := List.eq_nil_of_length_eq_zero (by omega)
    exact ⟨rfl, by simp [chunks], 0, rfl⟩
  | succ k ih =>
    by_cases hl : l = []
    · subst hl
      exact ⟨rfl, by simp [chunks], 0, rfl⟩
    · obtain ⟨hcount, heach, m, hall⟩ := ih (l.drop 8) (by rw [List.length_drop]; omega)
      have hpos : 0 < l.length := List.length_pos_iff.2 hl
      have hcut : chunks 8 (k + 1) l = l.take 8 :: chunks 8 k (l.drop 8) := by simp [chunks, hl]
      simp only [hcut, List.map_cons, List.length_cons, List.forall_mem_cons, List.flatMap_cons]
      refine ⟨?_, ⟨⟨trivial, ?_⟩, heach⟩, ?_⟩
      · rw [hcount, List.length_drop]
        omega
      · simp only [List.length_append, List.length_take, zeros, List.length_replicate]
        omega
      · rcases Nat.lt_or_ge 8 l.length with hlong | hshort
        · exact ⟨m, by rw [hall]; simp [zeros, Nat.min_eq_left (Nat.le_of_lt hlong), ← List.append_assoc]⟩
        · have hdrop : l.drop 8 = [] := List.drop_eq_nil_of_le hshort
          have hnone : chunks 8 k (l.drop 8) = [] := by rw [hdrop]; cases k <;> rfl
          exact ⟨8 - l.length, by simp [hnone, List.take_of_length_le hshort]⟩

theorem dataBlocks_length (l : List Byte) : (dataBlocks l).length = (l.length + 7) / 8 :=
  (chunks_filled _ l (by omega)).1

theorem dataBlocks_each (l : List Byte) : ∀ x ∈ dataBlocks l, x.control = false ∧ x.bytes.length = 8 :=
  (chunks_filled _ l (by omega)).2.1

/-- The bytes of the data blocks begin with the bytes that they carry. -/
theorem dataBlocks_bytes (l : List Byte) : ((dataBlocks l).flatMap LaneBlock.bytes).take l.length = l := by
  obtain ⟨-, -, m, hall⟩ := chunks_filled (l.length / 8 + 1) l (by omega)
  rw [dataBlocks, hall, List.take_left]

/-! ## The receiver (R211) -/

/-- A start block opens a frame of its type with its number of data blocks. -/
theorem take_frameStart (h : BitVec 58) (f : Option (Nat × Nat × List Byte)) (d : Option (List Byte)) {t n : Nat} (ht : t < 256)
    (hn : n < 256) :
    LaneRx.take ⟨h, f, d⟩ ((frameStart t n).coded h).1 = ⟨((frameStart t n).coded h).2, some (t, n, []), d⟩ := by
  have hbytes : (frameStart t n).bytes = 0x2D :: byteOf t :: byteOf n :: zeros 5 := rfl
  have hword := laneBits_coded h (frameStart t n) rfl
  have hhead : ((frameStart t n).coded h).1.head = 2 := rfl
  simp only [LaneRx.take, hhead, hword, hbytes, laneBits_coded_bits]
  simp [byteAt, byteOf, Nat.mod_eq_of_lt ht, Nat.mod_eq_of_lt hn]

/-- A data block adds its bytes to the frame that comes in. -/
theorem take_data (h : BitVec 58) (t n : Nat) (got : List Byte) (d : Option (List Byte)) {x : LaneBlock}
    (hx : x.control = false ∧ x.bytes.length = 8) :
    LaneRx.take ⟨h, some (t, n, got), d⟩ (x.coded h).1 =
      if n ≤ 1 then ⟨(x.coded h).2, none, some ((got ++ x.bytes).take (uplinkLen t))⟩
      else ⟨(x.coded h).2, some (t, n - 1, got ++ x.bytes), d⟩ := by
  have hhead : (x.coded h).1.head = 1 := by simp [coded_head, hx.1]
  simp [LaneRx.take, hhead, laneBits_coded h x hx.2, laneBits_coded_bits]

/-- The data blocks of a frame, all of which are due, complete it. -/
theorem foldl_take_data (xs : List LaneBlock) (hne : xs ≠ []) (hx : ∀ x ∈ xs, x.control = false ∧ x.bytes.length = 8) (h : BitVec 58)
    (t : Nat) (got : List Byte) (d : Option (List Byte)) :
    (codeBlocks h xs).1.foldl LaneRx.take ⟨h, some (t, xs.length, got), d⟩ =
      ⟨(codeBlocks h xs).2, none, some ((got ++ xs.flatMap LaneBlock.bytes).take (uplinkLen t))⟩ := by
  induction xs generalizing h got with
  | nil => exact absurd rfl hne
  | cons x r ih =>
    obtain ⟨hfirst, hrest⟩ := List.forall_mem_cons.1 hx
    simp only [codeBlocks, List.foldl_cons, take_data h t _ got d hfirst]
    by_cases hr : r = []
    · subst hr
      simp [codeBlocks]
    · have hmore : ¬ (x :: r).length ≤ 1 := by
        have := List.length_pos_iff.2 hr
        simp only [List.length_cons]
        omega
      rw [if_neg hmore, List.length_cons, Nat.add_sub_cancel, ih hr hrest]
      simp

/-- A frame of an uplink type comes out of the receiver as it went in. -/
theorem receiveBlocks_frameBlocks (h : BitVec 58) {l : List Byte} (hpos : 0 < l.length) (hlen : uplinkLen (byteAt l 0).toNat = l.length) :
    receiveBlocks h (codeBlocks h (frameBlocks l)).1 = (some l, (codeBlocks h (frameBlocks l)).2) := by
  have hshort : l.length ≤ 128 := by
    rw [← hlen]
    unfold uplinkLen
    split_ifs <;> omega
  have hcount := dataBlocks_length l
  have hne : dataBlocks l ≠ [] := List.ne_nil_of_length_pos (by omega)
  simp only [receiveBlocks, frameBlocks, codeBlocks, List.foldl_cons,
    take_frameStart h none none (byteAt l 0).isLt (show (dataBlocks l).length < 256 by omega),
    foldl_take_data _ hne (dataBlocks_each l), List.nil_append, hlen, dataBlocks_bytes]

/-- A block with an invalid sync header leaves the frame that comes in. -/
theorem take_invalid (h : BitVec 58) {x : LaneWord} (f : Option (Nat × Nat × List Byte)) (d : Option (List Byte)) (h1 : x.head ≠ 1)
    (h2 : x.head ≠ 2) : LaneRx.take ⟨h, f, d⟩ x = ⟨(laneBits h x.word).2, f, d⟩ := by
  simp only [LaneRx.take, if_neg h1, if_neg h2]

/-! ## Segments (R218, R220) -/

theorem weltSeal_length (l : List Byte) : (weltSeal l).length = l.length + 4 := by simp [weltSeal, beBytes_length]

theorem gateBytes_length (es : List (Bool × Nat)) : (gateBytes es).length = 8 := by
  simp only [gateBytes, List.length_flatMap, beBytes_length, List.map_const', List.sum_replicate, List.length_append,
    List.length_replicate, List.length_map, List.length_take]
  simp

theorem segmentHeader_length {gates : List (List (Bool × Nat))} (hg : gates.length = 4) (sw : Option (Nat × Nat)) :
    (segmentHeader gates sw).length = 40 := by
  have hgates : (gates.flatMap gateBytes).length = 32 := by simp [List.length_flatMap, gateBytes_length, hg]
  unfold segmentHeader
  cases sw <;> simp [weltSeal_length, hgates, beBytes_length, zeros]

theorem segmentBlocks_length (n k : Nat) (w : Bool) (beams : List (List (Option Bool))) (open0 : List Bool) (sw : Option (Nat × Nat)) :
    (segmentBlocks n k w beams open0 sw).length = 206 := by
  simp [segmentBlocks, dataBlocks_length, segmentHeader_length, streamBlocks]

/-- One channel bit in `gateChanges`: a change of the gate is noted where the bit makes one. -/
def gateStep (a : List (Bool × Nat) × Bool) (e : Option Bool × Nat) : List (Bool × Nat) × Bool :=
  if e.1.isSome = a.2 then a else (a.1 ++ [(e.1.isSome, e.2)], e.1.isSome)

theorem gateStep_gate (a : List (Bool × Nat) × Bool) (e : Option Bool × Nat) : (gateStep a e).2 = e.1.isSome := by
  unfold gateStep
  split
  case isTrue h => exact h.symm
  case isFalse => rfl

theorem foldl_gateStep_gate (l : List (Option Bool × Nat)) (a : List (Bool × Nat) × Bool) :
    (l.foldl gateStep a).2 = ((l.map (·.1.isSome)).getLast?).getD a.2 := by
  induction l generalizing a with
  | nil => rfl
  | cons e r ih => rw [List.foldl_cons, ih, gateStep_gate, List.map_cons, List.getLast?_cons, Option.getD_some]

/-- The gate at a segment's end is that of the last channel bit. -/
theorem gateChanges_end (open0 : Bool) (cells : List (Option Bool)) :
    (gateChanges open0 cells).2 = ((cells.map (·.isSome)).getLast?).getD open0 := by
  have hcells : (cells.zipIdx.map (·.1.isSome)) = cells.map (·.isSome) :=
    calc cells.zipIdx.map (·.1.isSome) = (cells.zipIdx.map Prod.fst).map Option.isSome :=
          (List.map_map (f := Prod.fst) (g := Option.isSome)).symm
      _ = cells.map (·.isSome) := by rw [List.zipIdx_map_fst]
  have hfold : gateChanges open0 cells = cells.zipIdx.foldl gateStep ([], open0) := rfl
  rw [hfold, foldl_gateStep_gate, hcells]

/-- Settles O60: the descrambler undoes the scrambler block by block, and the receiver collects the data blocks of a frame by
induction on those still due. -/
theorem laneBlocksSurviveCodingAndReceiver : Obligations.LaneBlocksSurviveCodingAndReceiver := by
  unfold Obligations.LaneBlocksSurviveCodingAndReceiver
  refine ⟨laneBits_laneScramble_eq, fun h x hx => ⟨laneBits_coded h x hx, coded_head h x⟩,
    fun h l hpos hlen => receiveBlocks_frameBlocks h hpos hlen, fun h x f d h1 h2 => ?_, weltCrc_weltSeal,
    fun gates sw hg => ⟨segmentHeader_length hg sw, weltCrc_weltSeal _⟩,
    fun n k w beams open0 sw => ⟨segmentBlocks_length n k w beams open0 sw, rfl⟩, gateChanges_end⟩
  rw [take_invalid h f d h1 h2]
  exact ⟨rfl, rfl⟩

end Sys2Proof.Proofs
end

section
/-! SUPPORT. What entry to RESET keeps and what it discards, and the statements about supply, RESET and the state after it (R203,
R400, R403, R427, R462, R479). -/

namespace Sys2Proof.Proofs

open Sys2Proof Sys2Proof.Machine Sys2Proof.Laws

/-! ## Entry to RESET (R403, R479) -/

/-- Of a bay nothing but its pins stands. -/
theorem discard_bay (s : State) (m : Mode) (b : Nat) : ∃ y : Bay, (s.discard m).bay b = y.pins := by
  have hset (l : List Nat) : ∀ t : Tbl Bay, (∀ n, ∃ y : Bay, Tbl.get {} t n = y.pins) →
      ∀ n, ∃ y : Bay, Tbl.get {} (l.foldl (fun t b => Tbl.set {} t b (s.bay b).pins) t) n = y.pins := by
    induction l with
    | nil => exact fun t ht => ht
    | cons a r ih =>
      refine fun t ht => ih _ fun n => ?_
      rw [Tbl_get_set]
      split
      · exact ⟨s.bay a, rfl⟩
      · exact ht n
  exact hset allBays [] (fun _ => ⟨{}, rfl⟩) b

/-- Entry to RESET keeps what R403 lists, whatever else of the engine changed before it. -/
theorem enterReset_entersReset (s u : State) (hstitch : u.aon.stitch = s.aon.stitch) (hfuse : u.aon.fuseSvn = s.aon.fuseSvn)
    (hcause : u.aon.cause = s.aon.cause) (hbucket : u.eave.bucket = s.eave.bucket) (hpat : u.pat = s.pat) (c : Nat) :
    s.EntersReset (u.enterReset c) c := by
  obtain ⟨v, hv, hv'⟩ : ∃ v : State, u.enterReset c =
      { v.discard .reset with aon := (v.discard .reset).aon.withCause c } ∧ u.changesOnly [.sent] v :=
    ⟨if u.tapped then u.send (.switches false) else u, rfl,
      changesOnly_ite (send_changesOnly u _) (changesOnly_refl _ u)⟩
  have haon : v.aon = u.aon := hv' .aon (by simp)
  have heave : v.eave = u.eave := hv' .eave (by simp)
  have hvpat : v.pat = u.pat := hv' .pat (by simp)
  rw [hv]
  exact {
    mode := rfl
    stitch := (congrArg Aon.stitch haon).trans hstitch
    fuses := (congrArg Aon.fuseSvn haon).trans hfuse
    cause := rfl
    previous := (congrArg Aon.cause haon).trans hcause
    domains := rfl
    bucket := (congrArg Eave.bucket heave).trans hbucket
    pattern := by rw [← hpat, ← hvpat]; rfl
    keys := rfl
    queues := ⟨rfl, rfl, rfl⟩
    courses := rfl
    mounts := fun b => by
      obtain ⟨y, hy⟩ := discard_bay v .reset b
      have hbay : ({ v.discard .reset with aon := (v.discard .reset).aon.withCause c } : State).bay b = y.pins := hy
      rw [hbay]
      exact ⟨rfl, rfl, rfl, rfl⟩
    logs := ⟨rfl, rfl⟩
    ring := ⟨rfl, rfl, rfl⟩ }

/-- A change of the straps after the entry is none of what R403 lists. -/
theorem straps_entersReset {s t : State} {c : Nat} (h : s.EntersReset t c) (a : Fin 8) (d : Fin 4) :
    s.EntersReset (t.straps a d) c := { h with }

/-- What entry to RESET leaves of PD0. -/
theorem enterReset_aon (u : State) (c : Nat) : (u.enterReset c).aon =
    { u.aon with power := 1, restarts := [], eid := 0, kick0 := 0, kick1 := 0, prevCause := u.aon.cause, cause := c } := by
  unfold State.enterReset
  dsimp only
  split <;> rfl

theorem resetHeld_supplied {s : State} (hs : s.aon.supply = true) (hm : s.mode ≠ .dark) (c : Nat) : resetHeld s c = s.enterReset c := by
  simp [resetHeld, hs, hm]

/-- With no cause recorded and no self-reset counted, RESET_CAUSE reads 0. -/
theorem resetCause_eq_zero {s : State} (hcause : s.aon.cause = 0) (hprev : s.aon.prevCause = 0) (htrip : s.aon.tripSensor = 0)
    (hself : s.aon.selfResets = []) : s.resetCause = 0 := by
  simp [State.resetCause, Aon.recentResets, hcause, hprev, htrip, hself]

/-! ## The statement -/

/-- Settles O5: every entry is `enterReset` of a state in which what R403 lists stands. -/
theorem supplyAndResetKeepOnlyWhatIsListed : Obligations.SupplyAndResetKeepOnlyWhatIsListed := by
  unfold Obligations.SupplyAndResetKeepOnlyWhatIsListed
  refine ⟨?applied, ?lost, ?stays, ?unsupplied, ?asserted, ?rail, ?clock, ?mctp, ?wake, ?self⟩
  case applied =>
    intro a d s hs
    have hexec : exec (.pd0SupplyApplied a d) s = .next (({ s.discard .reset with aon := s.aon.cold, eave := {}, pat := {} }).straps a d) := by
      change execPd0SupplyApplied a d s = _
      simp [execPd0SupplyApplied, hs]
    refine ⟨_, hexec, rfl, rfl, rfl, rfl, rfl, resetCause_eq_zero rfl rfl rfl rfl, rfl, rfl, rfl, rfl⟩
  case lost =>
    intro s hs
    have hexec : exec .pd0SupplyLost s = .next { (if s.tapped then s.send (.switches false) else s).discard .dark with
        aon := { s.aon.cold with supply := false, power := 0 }, eave := {}, pat := {} } := by
      change execPd0SupplyLost s = _
      simp [execPd0SupplyLost, hs]
    exact ⟨_, hexec, rfl, rfl, rfl, rfl, rfl, rfl⟩
  case stays =>
    intro a d s hs
    change execPd0SupplyApplied a d s = _
    simp [execPd0SupplyApplied, hs]
  case unsupplied =>
    intro s hs
    change execPd0SupplyLost s = _
    simp [execPd0SupplyLost, hs]
  case asserted =>
    intro a d s hs hm
    let u : State := { s with aon := { s.aon with resetN := true } }
    have hexec : exec (.resetNAsserted a d) s = .next ((u.enterReset 1).straps a d) := by
      change execResetNAsserted a d s = _
      have hheld : resetHeld u 1 = u.enterReset 1 := resetHeld_supplied (s := u) hs hm 1
      rw [execResetNAsserted, if_neg (by simp [hs, hm]), ← hheld]
    refine ⟨_, hexec, straps_entersReset (enterReset_entersReset s u rfl rfl rfl rfl rfl 1) a d, ?_, rfl, rfl⟩
    simp [State.straps, enterReset_aon, u]
  case rail =>
    intro r s hs hm
    let u : State := { s with aon := { s.aon with badRails := r :: s.aon.badRails.filter (· != r) } }
    refine ⟨_, congrArg Host.Outcome.next (resetHeld_supplied (s := u) hs hm 4), enterReset_entersReset s u rfl rfl rfl rfl rfl 4, ?_⟩
    simp [enterReset_aon, u]
  case clock =>
    intro s hs hm
    let u : State := { s with aon := { s.aon with refSys := false } }
    refine ⟨_, congrArg Host.Outcome.next (resetHeld_supplied (s := u) hs hm 4), enterReset_entersReset s u rfl rfl rfl rfl rfl 4, ?_⟩
    simp [enterReset_aon, u]
  case mctp =>
    intro i s hs hm
    have hexec : exec (.reset i) s = .next ((mctpAnswer s 0x12 i 0 []).enterReset 2) := by
      change execReset i s = _
      simp [execReset, hs, hm]
    exact ⟨_, hexec, enterReset_entersReset s (mctpAnswer s 0x12 i 0 []) rfl rfl rfl rfl rfl 2⟩
  case wake =>
    intro i s hs hm hok
    let u : State := { mctpAnswer s 0x13 i 0 [] with aon := { s.aon with selfResets := [] } }
    have hexec : exec (.wake i) s = .next (u.enterReset 8) := by
      change execWake i s = _
      simp [execWake, hs, hm, hok, u]
    refine ⟨_, hexec, enterReset_entersReset s u rfl rfl rfl rfl rfl 8, ?_⟩
    simp [enterReset_aon, u]
  case self =>
    intro s hm hwait hstill hfew
    obtain ⟨t, ht⟩ := Option.isSome_iff_exists.1 hwait
    have hdue : allBays.all (fun b => (s.bay b).still) = true := List.all_eq_true.2 hstill
    have hthird : ¬ 3 ≤ (s.aon.recentResets s.now ++ [s.now]).length := by
      simp only [List.length_append, List.length_singleton]
      omega
    let u : State := { s with aon := { s.aon with selfResets := s.aon.recentResets s.now ++ [s.now] } }
    have hexec : exec .selfResetEntry s = .next (u.enterReset 3) := by
      have hnow : s.selfResetNow = u.enterReset 3 := if_neg hthird
      change execSelfResetEntry s = _
      simp [execSelfResetEntry, ht, hm, hdue, hnow]
    refine ⟨_, hexec, enterReset_entersReset s u rfl rfl rfl rfl rfl 3, ?_⟩
    simp [enterReset_aon, u]

/-- Settles O56: reset is a literal, and no store of it holds an entry. -/
theorem resetStandsInItsInvariants : Obligations.ResetStandsInItsInvariants := by
  unfold Obligations.ResetStandsInItsInvariants
  refine ⟨rfl, rfl, rfl, rfl, rfl, ?_, reset_mem_wf, fun _ => rfl, rfl, rfl, rfl, rfl, ?_⟩
  · simp [State.domainsFit, State.reset, domainMasks]
  · exact {
      device := by simp [State.reset, LogPage.within]
      mount := by simp [State.reset, LogPage.within]
      ring := by simp [State.reset, LogPage.within]
      bay := fun b => by simp [State.reset, LogPage.within]
      sessions := by simp [State.reset]
      events := by simp [State.reset, Events.others] }

end Sys2Proof.Proofs
end

section
/-! SUPPORT. What a bay keeps as its run stops: its link stands, its lasers stay off, its overruns stay counted, and no other bay
changes (R175, R222, R224, R269, R271). -/

namespace Sys2Proof.Proofs

open Sys2Proof Sys2Proof.Machine Sys2Proof.Laws

/-- A link stands where it stood in its training and its count of frames, and lasers that were off, or held, are still. -/
structure LinkStands (w v : Welt) : Prop where
  phase : v.phase = w.phase
  startedAt : v.startedAt = w.startedAt
  attempts : v.attempts = w.attempts
  good : v.good = w.good
  missing : v.missing = w.missing
  uplink : v.uplink = w.uplink
  dark : w.laserEn = false → v.laserEn = false
  held : w.hold = true → v.hold = true

theorem linkStands_refl (w : Welt) : LinkStands w w := ⟨rfl, rfl, rfl, rfl, rfl, rfl, id, id⟩

theorem linkStands_trans {w v u : Welt} (h : LinkStands w v) (g : LinkStands v u) : LinkStands w u where
  phase := g.phase.trans h.phase
  startedAt := g.startedAt.trans h.startedAt
  attempts := g.attempts.trans h.attempts
  good := g.good.trans h.good
  missing := g.missing.trans h.missing
  uplink := g.uplink.trans h.uplink
  dark := g.dark ∘ h.dark
  held := g.held ∘ h.held

/-- From `s` to `t` bay `b` keeps its link and its overruns, and no other bay changes. -/
structure StopsBay (b : Nat) (s t : State) : Prop where
  others : s.onlyBay b t
  overrunRow : (t.bay b).overrunRow = (s.bay b).overrunRow
  overrunDue : (t.bay b).overrunDue = (s.bay b).overrunDue
  link : LinkStands (s.bay b).welt (t.bay b).welt

section
variable {b : Nat} {s t u : State}

theorem stopsBay_of_bays_eq (h : t.bays = s.bays) : StopsBay b s t where
  others := onlyBay_of_bays_eq b h
  overrunRow := by rw [bay_eq_of_bays_eq h]
  overrunDue := by rw [bay_eq_of_bays_eq h]
  link := by rw [bay_eq_of_bays_eq h]; exact linkStands_refl _

theorem stopsBay_refl (b : Nat) (s : State) : StopsBay b s s := stopsBay_of_bays_eq rfl

theorem stopsBay_of_changesOnly {ps : List Part} (h : s.changesOnly ps t) (hb : Part.bays ∉ ps) : StopsBay b s t :=
  stopsBay_of_bays_eq (h .bays hb)

theorem stopsBay_trans (h : StopsBay b s t) (g : StopsBay b t u) : StopsBay b s u where
  others := onlyBay_trans h.others g.others
  overrunRow := g.overrunRow.trans h.overrunRow
  overrunDue := g.overrunDue.trans h.overrunDue
  link := linkStands_trans h.link g.link

theorem stopsBay_ite {p : Prop} [Decidable p] (h : StopsBay b s t) (g : StopsBay b s u) : StopsBay b s (if p then t else u) := by
  split
  · exact h
  · exact g

/-- An update of the bay that leaves its link and its overruns. -/
theorem modBay_stopsBay {f : Bay → Bay} (hrow : (f (s.bay b)).overrunRow = (s.bay b).overrunRow)
    (hdue : (f (s.bay b)).overrunDue = (s.bay b).overrunDue) (hlink : LinkStands (s.bay b).welt (f (s.bay b)).welt) :
    StopsBay b s (s.modBay b f) where
  others := modBay_onlyBay s b f
  overrunRow := by rw [modBay_bay_same, hrow]
  overrunDue := by rw [modBay_bay_same, hdue]
  link := by rw [modBay_bay_same]; exact hlink

/-- An update of a bay that leaves its link and its overruns in every bay. -/
def LeavesLink (f : Bay → Bay) : Prop :=
  ∀ y : Bay, (f y).overrunRow = y.overrunRow ∧ (f y).overrunDue = y.overrunDue ∧ (f y).welt = y.welt

theorem LeavesLink.stopsBay {f : Bay → Bay} (hf : LeavesLink f) (s : State) (b : Nat) : StopsBay b s (s.modBay b f) := by
  obtain ⟨hrow, hdue, hwelt⟩ := hf (s.bay b)
  exact modBay_stopsBay hrow hdue (hwelt ▸ linkStands_refl _)

theorem modWelt_stopsBay {f : Welt → Welt} (h : LinkStands (s.bay b).welt (f (s.bay b).welt)) : StopsBay b s (s.modWelt b f) :=
  modBay_stopsBay rfl rfl h

theorem modWrite_stopsBay (s : State) (b : Nat) (f : WriteSess → WriteSess) : StopsBay b s (s.modWrite b f) :=
  modBay_stopsBay rfl rfl (linkStands_refl _)

theorem modChan_stopsBay (s : State) (b : Nat) (f : Channel → Channel) : StopsBay b s (s.modChan b f) :=
  modBay_stopsBay rfl rfl (linkStands_refl _)

theorem modServo_stopsBay (s : State) (b : Nat) (f : Servo → Servo) : StopsBay b s (s.modServo b f) :=
  modBay_stopsBay rfl rfl (linkStands_refl _)

end

/-! ## The stops of a run (R125, R175, R222) -/

theorem immediateStop_stopsBay (s : State) (b : Nat) : StopsBay b s (s.immediateStop b) := by
  unfold State.immediateStop
  split
  · exact stopsBay_ite (modWrite_stopsBay s b _) (stopsBay_ite (modWrite_stopsBay s b _) (stopsBay_refl b s))
  · exact stopsBay_refl b s

theorem boundaryStop_stopsBay (s : State) (b : Nat) : StopsBay b s (s.boundaryStop b) := by
  unfold State.boundaryStop
  split
  · exact stopsBay_ite (modWrite_stopsBay s b _) (stopsBay_refl b s)
  · exact stopsBay_refl b s

theorem slotEndStop_stopsBay (s : State) (b : Nat) : StopsBay b s (s.slotEndStop b) := modWrite_stopsBay s b _

theorem sendLane_stopsBay (s : State) (b : BayId) (n : Fin 2) (l : List LaneBlock) : StopsBay b.val s (s.sendLane b n l) := by
  have hlane : LinkStands (s.bay b.val).welt (if n = 0 then
      { (s.bay b.val).welt with scr0 := (codeBlocks (if n = 0 then (s.bay b.val).welt.scr0 else (s.bay b.val).welt.scr1) l).2
                                sent0 := (s.bay b.val).welt.sent0 + l.length }
      else { (s.bay b.val).welt with scr1 := (codeBlocks (if n = 0 then (s.bay b.val).welt.scr0 else (s.bay b.val).welt.scr1) l).2
                                     sent1 := (s.bay b.val).welt.sent1 + l.length }) := by
    split <;> exact ⟨rfl, rfl, rfl, rfl, rfl, rfl, id, id⟩
  exact stopsBay_trans (modWelt_stopsBay hlane) (stopsBay_of_changesOnly (send_changesOnly _ _) (by simp))

theorem urgent_stopsBay (s : State) (b c : Nat) : StopsBay b s (s.urgent b c) := by
  unfold State.urgent
  split
  · exact stopsBay_refl b s
  · split
    case h_1 h _ =>
      exact stopsBay_trans (sendLane_stopsBay s ⟨b, h⟩ 0 _) (stopsBay_trans (sendLane_stopsBay _ ⟨b, h⟩ 1 _)
        (modWelt_stopsBay ⟨rfl, rfl, rfl, rfl, rfl, rfl, id, id⟩))
    · exact stopsBay_refl b s

theorem lasersOff_stopsBay (s : State) (b : Nat) : StopsBay b s (s.lasersOff b) :=
  stopsBay_trans (urgent_stopsBay s b ucLoff)
    (modWelt_stopsBay ⟨rfl, rfl, rfl, rfl, rfl, rfl, fun _ => rfl, fun _ => rfl⟩)

/-- With the lasers off, stitch frames carry HOLD = 1 and LASER_EN = 0. -/
theorem lasersOff_dark (s : State) (b : Nat) :
    ((s.lasersOff b).bay b).welt.laserEn = false ∧ ((s.lasersOff b).bay b).welt.hold = true := by
  rw [State.lasersOff, modWelt_welt]
  exact ⟨rfl, rfl⟩

theorem dropSeam_stopsBay (s : State) (b : Nat) : StopsBay b s (s.dropSeam b) := by
  unfold State.dropSeam
  split
  · exact stopsBay_refl b s
  · exact stopsBay_trans (stopsBay_of_changesOnly (withRecov_changesOnly s _) (by simp)) (modChan_stopsBay _ b _)

theorem dropOffsets_stopsBay (s : State) (b : Nat) : StopsBay b s (s.dropOffsets b) := by
  have hread (u : State) (p : Nat) : StopsBay b u (u.modWelt b fun w => { w with readPwr := p }) :=
    modWelt_stopsBay ⟨rfl, rfl, rfl, rfl, rfl, rfl, id, id⟩
  unfold State.dropOffsets
  exact stopsBay_trans (stopsBay_trans
    (stopsBay_ite (stopsBay_refl b s) (stopsBay_of_changesOnly (withPat_changesOnly s _) (by simp)))
    (stopsBay_ite (stopsBay_refl b _) (hread _ _))) (modServo_stopsBay _ b _)

theorem endRun_stopsBay (s : State) (b : Nat) : StopsBay b s (s.endRun b) :=
  stopsBay_trans (dropSeam_stopsBay s b) (stopsBay_trans (dropOffsets_stopsBay _ b) (modChan_stopsBay _ b _))

/-- S7 sectors that are still pending go to the LDPC array. -/
theorem sendSeams_changesOnly (s : State) (b : Nat) (l : List SeamSlot) : s.changesOnly [.recov]
    (l.foldl (fun a x => if x.report.outcome = .pending then a.sendSeam b x (x.part.map (· * 16384)) else a) s) :=
  changesOnly_foldl _ (fun u _ => changesOnly_ite (pushJob_changesOnly u _) (changesOnly_refl _ u)) l s

theorem cutRun_stopsBay (s : State) (b : Nat) : StopsBay b s (s.cutRun b) :=
  stopsBay_trans (stopsBay_of_changesOnly (sendSeams_changesOnly s b _) (by simp))
    (stopsBay_trans (modChan_stopsBay _ b _) (endRun_stopsBay _ b))

/-! ## HOLD and SAFE (R224, R269, R271) -/

theorem failMount_stopsBay (s : State) (b r : Nat) : StopsBay b s (s.failMount b r) := by
  unfold State.failMount
  split
  · exact stopsBay_refl b s
  next m hm =>
    have hreq (u : State) (o : Option DiscReq) : StopsBay b u (match o with | some r => discNeeded u r 4 | none => u) := by
      split
      · exact stopsBay_of_changesOnly (event_changesOnly u _ _) (by simp)
      · exact stopsBay_refl b u
    have hend (u : State) : StopsBay b u (if (u.cmd? m.q m.tag).isSome then u.finishFree m.q m.tag stMountFailed 0 r else u) :=
      stopsBay_ite (stopsBay_of_changesOnly (finishFree_changesOnly u _ _ _ _ _) (by simp)) (stopsBay_refl b u)
    exact stopsBay_trans (modBay_stopsBay rfl rfl (linkStands_refl _)) (stopsBay_trans (hreq _ _) (hend _))

theorem stopAll_stopsBay (s : State) (b : Nat) : StopsBay b s (((s.immediateStop b).cutRun b).lasersOff b) :=
  stopsBay_trans (immediateStop_stopsBay s b) (stopsBay_trans (cutRun_stopsBay _ b) (lasersOff_stopsBay _ b))

/-- Slots of the Girth engine that a bay's stop forces and drops leave every bay. -/
theorem forceSet_dropOutputs_bays (s : State) (i g b : Nat) (z : Bool) : ((s.forceSet i g).dropOutputs b z).bays = s.bays :=
  dropOutputs_changesOnly (s.forceSet i g) b z .bays (by simp)

theorem safeEntry_stopsBay (s : State) (b c : Nat) : StopsBay b s (s.safeEntry b c) := by
  have hsafe (f : Bay → Bay) (hf : LeavesLink f) : StopsBay b s
      ((((((((s.immediateStop b).cutRun b).lasersOff b).failMount b 8).modBay b f).forceSet (sledSlot b) 8).dropOutputs b true)) :=
    stopsBay_trans (stopAll_stopsBay s b) (stopsBay_trans (failMount_stopsBay _ b 8)
      (stopsBay_trans (hf.stopsBay _ b) (stopsBay_of_bays_eq (forceSet_dropOutputs_bays _ _ _ b true))))
  unfold State.safeEntry
  exact hsafe _ fun _ => ⟨rfl, rfl, rfl⟩

theorem safeEntry_state (s : State) (b c : Nat) : ((s.safeEntry b c).bay b).state = .safe := by
  unfold State.safeEntry
  rw [bay_eq_of_bays_eq (forceSet_dropOutputs_bays _ _ _ b true), modBay_bay_same]

/-- What is logged and reported of an entry to SAFE leaves every bay. -/
theorem safeReport_bays (s : State) (b c : Nat) (p : List Byte) : ((s.bayLogFree b c).event evBaySafe p).bays = s.bays :=
  (event_changesOnly _ _ _ .bays (by simp)).trans (logFree_changesOnly s _ _ _ .bays (by simp))

theorem enterSafe_stopsBay (s : State) (b c : Nat) : StopsBay b s (s.enterSafe b c) :=
  stopsBay_ite (stopsBay_refl b s)
    (stopsBay_trans (safeEntry_stopsBay s b c) (stopsBay_of_bays_eq (safeReport_bays _ b c _)))

@[simp] theorem enterSafe_state (s : State) (b c : Nat) : ((s.enterSafe b c).bay b).state = .safe := by
  unfold State.enterSafe
  split
  next h => exact h
  · rw [bay_eq_of_bays_eq (safeReport_bays _ b c _), safeEntry_state]

/-- What entry to HOLD makes of a bay, before it is known whether it is one entry too many (R269). -/
def holdEntry (s : State) (b : Nat) : State :=
  let t := ((s.immediateStop b).cutRun b).lasersOff b
  ((t.modBay b fun y =>
    { y with state := .hold, holdAt := t.now, servo := y.servo.abandon,
             holds := (t.bay b).holds.filter (fun h => t.now < h + secs 10) ++ [t.now] }).forceSet (sledSlot b) 7).dropOutputs b false

theorem enterHold_cases (s : State) (b : Nat) :
    s.enterHold b = s ∨ s.enterHold b = holdEntry s b ∨ s.enterHold b = (holdEntry s b).enterSafe b 0x060A := by
  unfold State.enterHold
  split
  case h_6 => exact Or.inl rfl
  all_goals exact Or.inr (ite_eq_or_eq _ _ _).symm

theorem enterHold_track_cases {s : State} {b : Nat} (h : (s.bay b).state = .track) :
    s.enterHold b = holdEntry s b ∨ s.enterHold b = (holdEntry s b).enterSafe b 0x060A := by
  unfold State.enterHold
  rw [h]
  exact (ite_eq_or_eq _ _ _).symm

theorem holdEntry_stopsBay (s : State) (b : Nat) : StopsBay b s (holdEntry s b) := by
  have hhold (f : Bay → Bay) (hf : LeavesLink f) :
      StopsBay b s ((((((s.immediateStop b).cutRun b).lasersOff b).modBay b f).forceSet (sledSlot b) 7).dropOutputs b false) :=
    stopsBay_trans (stopAll_stopsBay s b) (stopsBay_trans (hf.stopsBay _ b)
      (stopsBay_of_bays_eq (forceSet_dropOutputs_bays _ _ _ b false)))
  unfold holdEntry
  apply hhold
  exact fun _ => ⟨rfl, rfl, rfl⟩

/-- In HOLD the lasers are off. -/
theorem holdEntry_dark (s : State) (b : Nat) : ((holdEntry s b).bay b).state = .hold ∧
    ((holdEntry s b).bay b).welt.laserEn = false ∧ ((holdEntry s b).bay b).welt.hold = true := by
  unfold holdEntry
  dsimp only
  rw [bay_eq_of_bays_eq (forceSet_dropOutputs_bays _ _ _ b false), modBay_bay_same]
  obtain ⟨hlaser, hheld⟩ := lasersOff_dark ((s.immediateStop b).cutRun b) b
  dsimp only
  exact ⟨rfl, hlaser, hheld⟩

theorem enterHold_stopsBay (s : State) (b : Nat) : StopsBay b s (s.enterHold b) := by
  rcases enterHold_cases s b with h | h | h <;> rw [h]
  · exact stopsBay_refl b s
  · exact holdEntry_stopsBay s b
  · exact stopsBay_trans (holdEntry_stopsBay s b) (enterSafe_stopsBay _ b _)

/-- A bay in TRACK enters HOLD, or SAFE where that is one entry too many, with its lasers off. -/
theorem enterHold_of_track {s : State} {b : Nat} (h : (s.bay b).state = .track) :
    (((s.enterHold b).bay b).state = .hold ∨ ((s.enterHold b).bay b).state = .safe) ∧
      ((s.enterHold b).bay b).welt.laserEn = false ∧ ((s.enterHold b).bay b).welt.hold = true := by
  obtain ⟨hstate, hlaser, hheld⟩ := holdEntry_dark s b
  rcases enterHold_track_cases h with he | he <;> rw [he]
  · exact ⟨Or.inl hstate, hlaser, hheld⟩
  · have hsafe := (enterSafe_stopsBay (holdEntry s b) b 0x060A).link
    exact ⟨Or.inr (enterSafe_state _ _ _), hsafe.dark hlaser, hsafe.held hheld⟩

/-! ## Head temperature (R182) -/

/-- The link with the temperature read and its band. -/
def heatRead (s : State) (b : Nat) (t : Option Int) (w : Welt) : Welt :=
  let band := match t with | some v => nextBand (s.bay b).welt.band v | none => .over72
  let cool := match t with | some v => decide (v ≤ 68 * 16) | none => false
  let stops := match (s.bay b).write with | some w => w.recorded || w.feeding | none => false
  { w with band := band, hotStop := (decide (4 ≤ band.level) && stops) || (w.hotStop && !cool)
           headTemp := match t with | some v => v | none => w.headTemp }

theorem heatRead_linkStands (s : State) (b : Nat) (t : Option Int) (w : Welt) : LinkStands w (heatRead s b t w) :=
  ⟨rfl, rfl, rfl, rfl, rfl, rfl, id, id⟩

theorem headTemperature_cases (s : State) (b : Nat) (t : Option Int) :
    headTemperature s b t = s.modWelt b (heatRead s b t) ∨ headTemperature s b t = (s.modWelt b (heatRead s b t)).slotEndStop b ∨
      headTemperature s b t = (s.modWelt b (heatRead s b t)).boundaryStop b := by
  have hthree {p q : Prop} [Decidable p] [Decidable q] (x y z : State) : (if p then x else if q then y else z) = z ∨
      (if p then x else if q then y else z) = x ∨ (if p then x else if q then y else z) = y := by
    split_ifs <;> simp
  exact hthree _ _ _

theorem headTemperature_stopsBay (s : State) (b : Nat) (t : Option Int) : StopsBay b s (headTemperature s b t) := by
  rcases headTemperature_cases s b t with h | h | h <;> rw [h]
  · exact modWelt_stopsBay (heatRead_linkStands s b t _)
  · exact stopsBay_trans (modWelt_stopsBay (heatRead_linkStands s b t _)) (slotEndStop_stopsBay _ b)
  · exact stopsBay_trans (modWelt_stopsBay (heatRead_linkStands s b t _)) (boundaryStop_stopsBay _ b)

theorem boundaryStop_state (s : State) (b : Nat) : ((s.boundaryStop b).bay b).state = (s.bay b).state := by
  unfold State.boundaryStop
  split
  · split
    · rw [State.modWrite, modBay_bay_same]
    · rfl
  · rfl

theorem headTemperature_state (s : State) (b : Nat) (t : Option Int) : ((headTemperature s b t).bay b).state = (s.bay b).state := by
  rcases headTemperature_cases s b t with h | h | h <;> rw [h]
  · rw [State.modWelt, modBay_bay_same]
  · rw [State.slotEndStop, State.modWrite, modBay_bay_same, State.modWelt, modBay_bay_same]
  · rw [boundaryStop_state, State.modWelt, modBay_bay_same]

end Sys2Proof.Proofs
end

section
/-! SUPPORT. Training of a Welt link, its uplink frames good and missing, and the statement about them (R213 to R216, R224). -/

namespace Sys2Proof.Proofs

open Sys2Proof Sys2Proof.Machine Sys2Proof.Laws

/-! ## What comes in on the uplink (R210, R211) -/

/-- The state with the descrambler's bits after the blocks received. -/
def heard (s : State) (b : Nat) (h : BitVec 58) : State := s.modWelt b fun w => { w with ulHist := h }

theorem receiveUl_of_receiveBlocks {s : State} {b : Nat} {x : List LaneWord} {l : List Byte} {h : BitVec 58}
    (hrx : receiveBlocks (s.bay b).welt.ulHist x = (some l, h)) : receiveUl s b x = (l, heard s b h) := by
  simp [receiveUl, hrx, heard]

theorem heard_welt (s : State) (b : Nat) (h : BitVec 58) : ((heard s b h).bay b).welt = { (s.bay b).welt with ulHist := h } :=
  modWelt_welt s b _

theorem heard_state (s : State) (b : Nat) (h : BitVec 58) : ((heard s b h).bay b).state = (s.bay b).state := by
  rw [heard, State.modWelt, modBay_bay_same]

theorem heard_changesOnly (s : State) (b : Nat) (h : BitVec 58) : s.changesOnly [.bays] (heard s b h) := modBay_changesOnly s b _

theorem heard_onlyBay (s : State) (b : Nat) (h : BitVec 58) : s.onlyBay b (heard s b h) := modBay_onlyBay s b _

/-! ## Training (R213 to R215) -/

theorem exec_ulBlockLock (b : BayId) (s : State) : exec (.ulBlockLock b) s = execUlBlockLock b s := rfl

section
variable {b : BayId} {x : List LaneWord} {l : List Byte} {h : BitVec 58} {s : State}
variable (hrx : receiveBlocks (s.bay b.val).welt.ulHist x = (some l, h))
include hrx

/-- An Echo of a Ping sent in this attempt, with fewer than eight in all. -/
theorem exec_echo_taken {n u : Nat} (hphase : (s.bay b.val).welt.phase = .pinging) (hlen : l.length = 12) (htype : byteAt l 0 = 0x83)
    (hcrc : weltCrc l = true) (hn : n < (s.bay b.val).welt.pings) (htok : Config.pingToken b.val n = BitVec.ofNat 16 (beAt l 2 2))
    (hnew : ∀ e ∈ (s.bay b.val).welt.echoes, e.1 ≠ BitVec.ofNat 16 (beAt l 2 2)) (hfew : (s.bay b.val).welt.echoes.length < 7) :
    exec (.echo b x u) s = .next ((heard s b.val h).modWelt b.val fun w =>
      { w with echoes := w.echoes ++ [(BitVec.ofNat 16 (beAt l 2 2), u - beAt l 4 2)] }) := by
  have hsent : ((List.range (s.bay b.val).welt.pings).any fun n => Config.pingToken b.val n == BitVec.ofNat 16 (beAt l 2 2)) = true :=
    List.any_eq_true.2 ⟨n, List.mem_range.2 hn, by simp [htok]⟩
  have hfresh : ((s.bay b.val).welt.echoes.any fun e => e.1 == BitVec.ofNat 16 (beAt l 2 2)) = false :=
    List.any_eq_false.2 fun e he => by simpa using hnew e he
  have hcount : (s.bay b.val).welt.echoes.length + 1 ≠ 8 := by omega
  change execEcho b x u s = _
  simp [execEcho, receiveUl_of_receiveBlocks hrx, heard_welt, hphase, hlen, htype, hcrc, hsent, hfresh, hcount]

/-- A whole Identity frame while Link parameters go out. -/
theorem exec_identity (hphase : (s.bay b.val).welt.phase = .params) (hlen : l.length = 32) (htype : byteAt l 0 = 0x82)
    (hcrc : weltCrc l = true) : exec (.identity b x) s =
      if (parseIdentity l).accepted then
        .next (((heard s b.val h).modWelt b.val fun w =>
          { w with companion := some (parseIdentity l), phase := .frames, good := 0 }).modDisc b.val fun d => d.limited (parseIdentity l).peakLimit)
      else .next (failTraining ((heard s b.val h).bayLogFree b.val 0x0602) b.val) := by
  change execIdentity b x s = _
  simp [execIdentity, receiveUl_of_receiveBlocks hrx, heard_welt, hphase, hlen, htype, hcrc]

end

/-- An attempt that fails with another left begins training again (R213). -/
theorem failTraining_again {s : State} {b : Nat} (h : (s.bay b).welt.attempts + 1 < s.pnat 0x0682 b) :
    failTraining s b = startTraining (s.modWelt b fun w => { w with attempts := (s.bay b).welt.attempts + 1 }) b := by
  have hmore : ¬ s.pnat 0x0682 b ≤ (s.bay b).welt.attempts + 1 := by omega
  have hpat (f : Welt → Welt) : (s.modWelt b f).pnat 0x0682 b = s.pnat 0x0682 b := rfl
  simp only [failTraining, hpat, if_neg hmore]

/-- The link given up (R213). -/
def linkDead (s : State) (b : Nat) : State :=
  (s.modWelt b fun w => { w with attempts := (s.bay b).welt.attempts + 1 }).modWelt b fun w => { w with phase := .dead, laserEn := false }

/-- The last attempt that fails leaves the link dead and its laser off, with the bay in SAFE. -/
theorem failTraining_last {s : State} {b : Nat} (h : s.pnat 0x0682 b ≤ (s.bay b).welt.attempts + 1) :
    StopsBay b (linkDead s b) (failTraining s b) ∧ ((failTraining s b).bay b).state = .safe := by
  have hpat (f : Welt → Welt) : (s.modWelt b f).pnat 0x0682 b = s.pnat 0x0682 b := rfl
  have hfail : failTraining s b = if ((linkDead s b).bay b).state = .safe then (linkDead s b).bayLogFree b 0x0601
      else (linkDead s b).enterSafe b 0x0601 := by
    simp only [failTraining, hpat, if_pos h, linkDead]
    rfl
  have hlog := logFree_changesOnly (linkDead s b) (.bay b) 0x0601 b .bays (by simp)
  rw [hfail]
  split
  next hsafe => exact ⟨stopsBay_of_bays_eq hlog, by rw [State.bayLogFree, bay_eq_of_bays_eq hlog, hsafe]⟩
  · exact ⟨enterSafe_stopsBay _ b _, enterSafe_state _ b _⟩

theorem linkDead_link (s : State) (b : Nat) :
    ((linkDead s b).bay b).welt.phase = .dead ∧ ((linkDead s b).bay b).welt.laserEn = false := by
  rw [linkDead, modWelt_welt]
  exact ⟨rfl, rfl⟩

theorem linkDead_onlyBay (s : State) (b : Nat) : s.onlyBay b (linkDead s b) :=
  onlyBay_trans (modBay_onlyBay s b _) (modBay_onlyBay _ b _)

theorem exec_weltTrainingTimeout_late {b : BayId} {s : State} (hphase : (s.bay b.val).welt.phase = .idle)
    (hlate : (s.bay b.val).welt.startedAt + 1000 ≤ s.now) : exec (.weltTrainingTimeout b) s = .next (failTraining s b.val) := by
  change execWeltTrainingTimeout b s = _
  simp [execWeltTrainingTimeout, hphase, hlate]

theorem exec_weltTrainingTimeout_early {b : BayId} {s : State} (h : s.now < (s.bay b.val).welt.startedAt + 1000) :
    exec (.weltTrainingTimeout b) s = .next s := by
  have hearly : ¬ (s.bay b.val).welt.startedAt + 1000 ≤ s.now := by omega
  change execWeltTrainingTimeout b s = _
  cases hp : (s.bay b.val).welt.phase <;> simp [execWeltTrainingTimeout, hp, hearly]

/-! ## Uplink stitch frames (R216, R224) -/

theorem takeRegs_linkStands (w : Welt) (u : Uplink) : LinkStands w (takeRegs w u) := by
  unfold takeRegs
  dsimp only
  split
  · split <;> exact ⟨rfl, rfl, rfl, rfl, rfl, rfl, id, id⟩
  · exact ⟨rfl, rfl, rfl, rfl, rfl, rfl, id, id⟩

/-- The link after a good uplink frame: the 16th in a row brings it up (R213). -/
def goodLink (u : Uplink) (w : Welt) : Welt :=
  let w1 := takeRegs { w with uplink := u, missing := 0, good := w.good + 1 } u
  if w1.phase = .frames ∧ 16 ≤ w1.good then { w1 with phase := .up, attempts := 0 } else w1

theorem goodLink_fields {w : Welt} (hphase : w.phase = .frames) (u : Uplink) :
    (goodLink u w).uplink = u ∧ (goodLink u w).missing = 0 ∧ (goodLink u w).good = w.good + 1 ∧
      (goodLink u w).phase = if 15 ≤ w.good then .up else .frames := by
  have hregs := takeRegs_linkStands { w with uplink := u, missing := 0, good := w.good + 1 } u
  unfold goodLink
  generalize takeRegs _ u = v at hregs ⊢
  have hframes : v.phase = .frames := hregs.phase.trans hphase
  have hgood : v.good = w.good + 1 := hregs.good
  have hsixteen : (16 ≤ w.good + 1) = (15 ≤ w.good) := by simp
  simp only [hframes, hgood, true_and, hsixteen]
  split
  · exact ⟨hregs.uplink, hregs.missing, rfl, rfl⟩
  · exact ⟨hregs.uplink, hregs.missing, hgood, hframes⟩

/-- What a good frame's temperature and status bring after the link has taken it (R182, R222). -/
def frameStops (s : State) (b : Nat) (u : Uplink) : State :=
  let s2 := headTemperature s b (if u.stat.toNat.testBit 4 then some u.headTemp else none)
  let s3 := if u.stat.toNat.testBit 3 ∧ (s2.bay b).state = .write then
      ((s2.immediateStop b).urgent b ucWstop).modBay b fun y => { y with state := .track } else s2
  if u.stat.toNat.testBit 5 ∧ (s3.bay b).state = .write then s3.slotEndStop b else s3

theorem frameStops_stopsBay (s : State) (b : Nat) (u : Uplink) : StopsBay b s (frameStops s b u) := by
  have hstop (t : State) : StopsBay b t (((t.immediateStop b).urgent b ucWstop).modBay b fun y => { y with state := .track }) :=
    stopsBay_trans (immediateStop_stopsBay t b) (stopsBay_trans (urgent_stopsBay _ b ucWstop)
      (modBay_stopsBay rfl rfl (linkStands_refl _)))
  unfold frameStops
  exact stopsBay_trans (headTemperature_stopsBay s b _) (stopsBay_trans (stopsBay_ite (hstop _) (stopsBay_refl b _))
    (stopsBay_ite (slotEndStop_stopsBay _ b) (stopsBay_refl b _)))

theorem exec_uplinkStitchFrame_good {b : BayId} {x : List LaneWord} {l : List Byte} {h : BitVec 58} {s : State}
    (hrx : receiveBlocks (s.bay b.val).welt.ulHist x = (some l, h)) (hphase : (s.bay b.val).welt.phase = .frames)
    (hgood : uplinkGood s l = true) : exec (.uplinkStitchFrame b x) s = .next (frameStops
      ((heard s b.val h).modWelt b.val (goodLink (parseUplink (s.bay b.val).welt.uplink l))) b.val (parseUplink (s.bay b.val).welt.uplink l)) := by
  have hgood' : uplinkGood (heard s b.val h) l = true := hgood
  change execUplinkStitchFrame b x s = _
  simp only [execUplinkStitchFrame, receiveUl_of_receiveBlocks hrx, heard_welt, hphase, hgood', Bool.true_eq_false, if_false]
  rfl

theorem exec_uplinkFrameMissing_up {b : BayId} {s : State} (hphase : (s.bay b.val).welt.phase = .up) :
    exec (.uplinkFrameMissing b) s = .next (missUplink s b.val) := by
  change execUplinkFrameMissing b s = _
  simp [execUplinkFrameMissing, hphase]

/-- One more frame missed. -/
def missedOne (s : State) (b : Nat) : State :=
  s.modWelt b fun w => { w with missing := (s.bay b).welt.missing + 1, spanMissing := w.spanMissing + 1, good := 0 }

theorem missedOne_welt (s : State) (b : Nat) : ((missedOne s b).bay b).welt = { (s.bay b).welt with
    missing := (s.bay b).welt.missing + 1, spanMissing := (s.bay b).welt.spanMissing + 1, good := 0 } := modWelt_welt s b _

theorem missUplink_up {s : State} {b : Nat} (hphase : (s.bay b).welt.phase = .up) : missUplink s b =
    if (s.bay b).welt.missing + 1 = 2 then
      let s2 := headTemperature ((missedOne s b).enterHold b) b none
      if (s2.bay b).state = .hold then
        (opticalSlots b).foldl (fun a i => a.modSlot i fun x => { x with applied := x.appliedPrev }) s2
      else s2
    else if (s.bay b).welt.missing + 1 = 8 then startTraining ((missedOne s b).enterSafe b 0x060B) b
    else missedOne s b := by
  have hup : ((missedOne s b).bay b).welt.phase = .up := by rw [missedOne_welt]; exact hphase
  have hmiss : missUplink s b = if ((missedOne s b).bay b).welt.phase ≠ .up then missedOne s b else _ := rfl
  rw [hmiss, if_neg (not_not_intro hup)]
  rfl

/-- The second frame missing in a row holds the bay, with its lasers off. -/
theorem missUplink_second {s : State} {b : Nat} (hphase : (s.bay b).welt.phase = .up) (hmissing : (s.bay b).welt.missing = 1)
    (hstate : (s.bay b).state = .track) :
    (((missUplink s b).bay b).state = .hold ∨ ((missUplink s b).bay b).state = .safe) ∧
      ((missUplink s b).bay b).welt.laserEn = false ∧ ((missUplink s b).bay b).welt.hold = true ∧
      ((missUplink s b).bay b).welt.missing = 2 ∧ s.onlyBay b (missUplink s b) := by
  let u := headTemperature ((missedOne s b).enterHold b) b none
  have htrack : ((missedOne s b).bay b).state = .track := by rw [missedOne, State.modWelt, modBay_bay_same]; exact hstate
  obtain ⟨hheld, hdark, hhold⟩ := enterHold_of_track htrack
  have htemp : StopsBay b ((missedOne s b).enterHold b) u := headTemperature_stopsBay _ b none
  have hmissed : StopsBay b (missedOne s b) u := stopsBay_trans (enterHold_stopsBay _ b) htemp
  have hcount : (u.bay b).welt.missing = 2 := by rw [hmissed.link.missing, missedOne_welt, hmissing]
  have honly : s.onlyBay b u := onlyBay_trans (modBay_onlyBay s b _) hmissed.others
  have hslots : (missUplink s b).bays = u.bays := by
    rw [missUplink_up hphase, hmissing]
    dsimp only
    rw [if_pos rfl]
    exact changesOnly_ite (changesOnly_foldl _ (fun v i => modSlot_changesOnly v i _) _ _) (changesOnly_refl _ _) .bays (by simp)
  have hbay := bay_eq_of_bays_eq hslots
  have hstand : (u.bay b).state = (((missedOne s b).enterHold b).bay b).state := headTemperature_state _ b none
  refine ⟨?_, ?_, ?_, ?_, fun n hn => (hbay n).trans (honly n hn)⟩
  · rw [hbay, hstand]
    exact hheld
  · rw [hbay]
    exact htemp.link.dark hdark
  · rw [hbay]
    exact htemp.link.held hhold
  · rw [hbay]
    exact hcount

/-- The eighth frame missing in a row trains the link anew, with the bay in SAFE. -/
theorem missUplink_eighth {s : State} {b : Nat} (hphase : (s.bay b).welt.phase = .up) (hmissing : (s.bay b).welt.missing = 7) :
    missUplink s b = startTraining ((missedOne s b).enterSafe b 0x060B) b := by
  rw [missUplink_up hphase, hmissing]
  rfl

/-- A frame that is not good counts as missing. -/
theorem exec_uplinkStitchFrame_bad {b : BayId} {x : List LaneWord} {s : State}
    (h : uplinkGood s ((receiveBlocks (s.bay b.val).welt.ulHist x).1.getD []) = false) :
    exec (.uplinkStitchFrame b x) s =
      exec (.uplinkFrameMissing b) (heard s b.val (receiveBlocks (s.bay b.val).welt.ulHist x).2) := by
  have h' : uplinkGood (heard s b.val (receiveBlocks (s.bay b.val).welt.ulHist x).2)
      ((receiveBlocks (s.bay b.val).welt.ulHist x).1.getD []) = false := h
  have hrx : receiveUl s b.val x = ((receiveBlocks (s.bay b.val).welt.ulHist x).1.getD [],
      heard s b.val (receiveBlocks (s.bay b.val).welt.ulHist x).2) := rfl
  change execUplinkStitchFrame b x s = execUplinkFrameMissing b _
  simp only [execUplinkStitchFrame, execUplinkFrameMissing, hrx, h', if_true]

/-! ## The statement -/

/-- Settles O38: a stop of the bay's run leaves its link as `StopsBay` says, so that the link reads as the frame left it. -/
theorem weltLinksTrainAndCountMissingFrames : Obligations.WeltLinksTrainAndCountMissingFrames := by
  unfold Obligations.WeltLinksTrainAndCountMissingFrames
  refine ⟨?lock, ?echo, ?accepted, ?refused, ?timeout, ?early, ?good, ?bad, ?first, ?second, ?eighth⟩
  case lock =>
    intro b s
    by_cases hidle : (s.bay b.val).welt.phase = .idle
    · refine ⟨_, by rw [exec_ulBlockLock, execUlBlockLock, if_pos hidle], ?_⟩
      exact (if_pos hidle).mpr ⟨modWelt_welt s b.val _, modBay_onlyBay s b.val _, modBay_changesOnly s b.val _⟩
    · exact ⟨s, by rw [exec_ulBlockLock, execUlBlockLock, if_neg hidle], (if_neg hidle).mpr rfl⟩
  case echo =>
    intro b x l h u n s hrx hphase hlen htype hcrc hn htok hnew hfew
    refine ⟨_, exec_echo_taken hrx hphase hlen htype hcrc hn htok hnew hfew, ?_, ?_, ?_⟩
    · rw [modWelt_welt, heard_welt]
    · exact onlyBay_trans (heard_onlyBay s b.val h) (modBay_onlyBay _ b.val _)
    · exact changesOnly_trans (heard_changesOnly s b.val h) (modBay_changesOnly _ b.val _)
  case accepted =>
    intro b x l h s hrx hphase hlen htype hcrc hrev hbeams htw hcaps
    have haccepted : (parseIdentity l).accepted = true := by simp [Companion.accepted, parseIdentity, hrev, hbeams, htw, hcaps]
    refine ⟨_, (exec_identity hrx hphase hlen htype hcrc).trans (if_pos haccepted), ?_⟩
    beta_reduce
    rw [State.modDisc, modBay_bay_same, modWelt_welt]
    exact ⟨rfl, rfl, rfl,
      onlyBay_trans (heard_onlyBay s b.val h) (onlyBay_trans (modBay_onlyBay _ b.val _) (modBay_onlyBay _ b.val _)),
      changesOnly_trans (heard_changesOnly s b.val h) (changesOnly_trans (modBay_changesOnly _ b.val _) (modBay_changesOnly _ b.val _))⟩
  case refused =>
    intro b x l h s hrx hphase hlen htype hcrc hbeams hmore
    have hrefused : ¬ (parseIdentity l).accepted = true := by simp [Companion.accepted, parseIdentity, hbeams]
    let u := (heard s b.val h).bayLogFree b.val 0x0602
    have hlog : (heard s b.val h).changesOnly [.logs, .events, .freeCtr] u := logFree_changesOnly _ _ _ _
    have hbay (n : Nat) : u.bay n = (heard s b.val h).bay n := bay_eq_of_bays_eq (hlog .bays (by simp)) n
    have hattempts : (u.bay b.val).welt.attempts = (s.bay b.val).welt.attempts := by rw [hbay, heard_welt]
    have hpat : u.pat = s.pat := (hlog .pat (by simp)).trans (heard_changesOnly s b.val h .pat (by simp))
    have hagain := failTraining_again (s := u) (b := b.val) (by rw [hattempts, State.pnat, hpat]; exact hmore)
    refine ⟨_, (exec_identity hrx hphase hlen htype hcrc).trans (if_neg hrefused), ?_⟩
    change ((failTraining u b.val).bay b.val).welt.phase = _ ∧ _
    rw [hagain]
    refine ⟨?_, ?_, ?_, ?_⟩
    · rw [startTraining, modWelt_welt]
    · rw [startTraining, modWelt_welt, modWelt_welt, hattempts]
    · rw [startTraining, State.modWelt, modBay_bay_same, State.modWelt, modBay_bay_same, hbay, heard_state]
    · exact onlyBay_trans (heard_onlyBay s b.val h) (onlyBay_trans (fun n _ => hbay n)
        (onlyBay_trans (modBay_onlyBay u b.val _) (modBay_onlyBay _ b.val _)))
  case timeout =>
    intro b s hphase hlate hlast
    obtain ⟨hstops, hsafe⟩ := failTraining_last hlast
    obtain ⟨hdead, hdark⟩ := linkDead_link s b.val
    exact ⟨_, exec_weltTrainingTimeout_late hphase hlate, hstops.link.phase.trans hdead, hstops.link.dark hdark, hsafe,
      onlyBay_trans (linkDead_onlyBay s b.val) hstops.others⟩
  case early =>
    intro b s hearly
    exact exec_weltTrainingTimeout_early hearly
  case good =>
    intro b x l h s hrx hphase hgood
    have hlink := (frameStops_stopsBay ((heard s b.val h).modWelt b.val (goodLink (parseUplink (s.bay b.val).welt.uplink l))) b.val
      (parseUplink (s.bay b.val).welt.uplink l)).link
    rw [modWelt_welt, heard_welt] at hlink
    obtain ⟨huplink, hmissing, hcount, hup⟩ := goodLink_fields (w := { (s.bay b.val).welt with ulHist := h }) hphase
      (parseUplink (s.bay b.val).welt.uplink l)
    exact ⟨_, exec_uplinkStitchFrame_good hrx hphase hgood, hlink.uplink.trans huplink, hlink.missing.trans hmissing, hlink.good.trans hcount, hlink.phase.trans hup⟩
  case bad =>
    intro b x s hbad
    exact exec_uplinkStitchFrame_bad hbad
  case first =>
    intro b s hphase hnone
    have hmiss : missUplink s b.val = missedOne s b.val := by rw [missUplink_up hphase, hnone]; rfl
    refine ⟨_, exec_uplinkFrameMissing_up hphase, ?_⟩
    rw [hmiss]
    refine ⟨by rw [missedOne_welt, hnone], ?_, modBay_onlyBay s b.val _, modBay_changesOnly s b.val _⟩
    exact modWelt_everyBay s b.val _ b.val
  case second =>
    intro b s hphase hmissing hstate
    exact ⟨_, exec_uplinkFrameMissing_up hphase, missUplink_second hphase hmissing hstate⟩
  case eighth =>
    intro b s hphase hmissing
    refine ⟨_, (exec_uplinkFrameMissing_up hphase).trans (congrArg _ (missUplink_eighth hphase hmissing)), ?_, ?_, ?_⟩
    · rw [startTraining, State.modWelt, modBay_bay_same]
      exact enterSafe_state _ b.val _
    · rw [startTraining, modWelt_welt]
    · rw [startTraining, modWelt_welt]
      exact congrArg BitVec.toNat (congrArg Aon.stitch (enterSafe_changesOnly _ b.val _ .aon (by simp)))

end Sys2Proof.Proofs
end

section
/-! SUPPORT. BAY_CONTROL: the command at the head of core 0's queue acts on the bay or group that it names (R419). -/

namespace Sys2Proof.Proofs

open Sys2Proof Sys2Proof.Machine Sys2Proof.Laws

/-! ## The command and its completion (R385, R419) -/

/-- The action of a BAY_CONTROL whose target is in range runs on the target. -/
theorem exec_bayControl {s : State} {c : AdminCmd} {rest : List AdminCmd} {k n m : Nat} {act : Nat → AdminCmd → State → State}
    (h : s.atHead c rest) (hop : c.opcode = 0x4F) (haction : c.arg 0 1 = k) (htarget : c.arg 1 1 = m) (hm : m < n)
    (hmodes : inBays s = true) (hring : (act m c (s.taken rest)).ring = s.ring) :
    adminRun (isAction 0x4F k) inBays (onTarget n act) s = .next (act m c (s.taken rest)) := by
  have hact : onTarget n act c (s.taken rest) = act m c (s.taken rest) := by
    rw [onTarget, htarget, if_neg (Nat.not_le.2 hm)]
  have hrun := adminRun_of_atHead (f := onTarget n act) h (show isAction 0x4F k c = true by simp [isAction, hop, haction]) hmodes
    (by rw [hact]; exact hring)
  rw [hrun, hact]

theorem bus_eq_of_buses_eq {s t : State} (h : t.buses = s.buses) (g : Nat) : t.bus g = s.bus g := by
  rw [State.bus, State.bus, h]

section
variable (s : State) (c : AdminCmd) (st : Nat)

theorem adminEnd_changesOnly : s.changesOnly [.qps, .sent] (adminEnd s c st) := adminFinish_changesOnly s c st 0 0 0 []

@[simp] theorem adminEnd_ring : (adminEnd s c st).ring = s.ring := adminEnd_changesOnly s c st .ring (by simp)

@[simp] theorem adminEnd_adminQ : (adminEnd s c st).adminQ = s.adminQ := adminEnd_changesOnly s c st .adminQ (by simp)

theorem adminEnd_bays : (adminEnd s c st).bays = s.bays := adminEnd_changesOnly s c st .bays (by simp)

@[simp] theorem adminEnd_bay (b : Nat) : (adminEnd s c st).bay b = s.bay b := bay_eq_of_bays_eq (adminEnd_bays s c st) b

theorem adminEnd_bus (g : Nat) : (adminEnd s c st).bus g = s.bus g :=
  bus_eq_of_buses_eq (adminEnd_changesOnly s c st .buses (by simp)) g

/-- A completion leaves what only bay `b` has changed. -/
theorem adminEnd_onlyBay {u : State} {b : Nat} (h : s.onlyBay b u) : s.onlyBay b (adminEnd u c st) :=
  onlyBay_trans h (onlyBay_of_bays_eq b (adminEnd_bays u c st))

end

/-- As a command is taken off the queue no bay changes. -/
theorem taken_onlyBay {s u : State} {rest : List AdminCmd} {b : Nat} (h : (s.taken rest).onlyBay b u) : s.onlyBay b u := h

/-! ## Restart of a bay in SAFE (R271) -/

theorem mayRestart_of_not_safe {s : State} {b : Nat} (h : (s.bay b).state ≠ .safe) : mayRestart s b = false := by
  simp [mayRestart, h]

theorem mayRestart_state {s : State} {b : Nat} (h : mayRestart s b = true) :
    (s.bay b).state = .safe ∧ (s.bay b).welt.phase = .up := by
  simp only [mayRestart, Bool.and_eq_true, decide_eq_true_eq] at h
  obtain ⟨⟨⟨⟨⟨⟨⟨hstate, -⟩, -⟩, hup⟩, -⟩, -⟩, -⟩, -⟩ := h
  exact ⟨hstate, hup⟩

/-- The hourly count of restarts has no part in whether one is due. -/
theorem mayRestart_safeStarts (s : State) (b : Nat) (l : List Nat) :
    mayRestart (s.modBay b fun y => { y with safeStarts := l }) b = mayRestart s b := by
  have hcleared : safeCleared (s.modBay b fun y => { y with safeStarts := l }) b = safeCleared s b := by
    simp only [safeCleared, modBay_bay_same]
    rfl
  simp only [mayRestart, hcleared, modBay_bay_same]
  rfl

/-- A restart with the link up spins the disc up; training does not begin anew. -/
theorem safeRestart_up {s : State} {b : Nat} (h : (s.bay b).welt.phase = .up) : safeRestart s b = s.modBay b fun y =>
    { y with state := .spinUp, safeStarts := recentStarts s b ++ [s.now], dibCheck := true
             spin := { y.spin with startsRow := 0 }, chan := { y.chan with fly := .unlocked, coast := 0 } } := by
  unfold safeRestart
  dsimp only
  rw [if_neg]
  rw [modBay_bay_same]
  simp [h]

/-! ## Chopper, service and home (R291, R309, R419) -/

theorem updateRegen_changesOnly (s : State) (g : Nat) : s.changesOnly [.bays] (updateRegen s g) :=
  changesOnly_foldl _ (fun u b => modBay_changesOnly u b _) _ s

theorem toLoaded_outOfService (s : State) (b : Nat) : ((toLoaded s b).bay b).outOfService = (s.bay b).outOfService := by
  rw [toLoaded, modBay_bay_same]
  rfl

theorem endReleases_outOfService (s : State) (b : Nat) : ((endReleases s b).bay b).outOfService = (s.bay b).outOfService := by
  have hend (u : State) (r : QpId × Nat) :
      u.changesOnly [.qps, .tags] (if (u.cmd? r.1 r.2).isSome then u.finish r.1 r.2 0 stSuccess 0 0 0 else u) :=
    changesOnly_ite (finish_changesOnly _ _ _ _ _ _ _ _) (changesOnly_refl _ u)
  have hbay (u : State) (l : List (QpId × Nat)) := bay_eq_of_bays_eq (changesOnly_foldl _ hend l u .bays (by simp)) b
  unfold endReleases
  dsimp only
  split
  · rfl
  · rw [hbay, modBay_bay_same]

/-- A bay at standstill that settles stays in service, or out of it. -/
theorem settleBay_outOfService (s : State) (b : Nat) : ((settleBay s b).bay b).outOfService = (s.bay b).outOfService := by
  unfold settleBay
  dsimp only
  split
  · rfl
  · split
    · rw [toLoaded_outOfService, endReleases_outOfService]
    · split
      · exact endReleases_outOfService s b
      · split
        · rw [toLoaded_outOfService, endReleases_outOfService]
        · split
          · rw [toLoaded_outOfService, endReleases_outOfService]
          · exact endReleases_outOfService s b
    · split
      · exact toLoaded_outOfService s b
      · rfl
    · split
      · rw [modBay_bay_same]
        rfl
      · exact toLoaded_outOfService s b
    · rfl

theorem Sled_ramp_state (d : Sled) (t m : Nat) : (d.ramp t m).state = d.state := by
  unfold Sled.ramp
  split <;> rfl

theorem startHoming_state (s : State) (b : Nat) : ((startHoming s b).bay b).sled.state = .homing := by
  rw [startHoming, State.modSled, modBay_bay_same, Sled_ramp_state]

/-! ## The statement -/

/-- Settles O21: each action is run on its target, and its completion changes no bay. -/
theorem bayControlActsOnItsTarget : Obligations.BayControlActsOnItsTarget := by
  unfold Obligations.BayControlActsOnItsTarget
  refine ⟨?retrain, ?cleared, ?restart, ?chopper, ?out, ?back, ?home⟩
  case retrain =>
    intro c rest b s h hop haction htarget hmodes henabled
    let u := startTraining ((s.taken rest).modWelt b.val fun w => { w with attempts := 0 }) b.val
    have hact : weltRetrain b.val c (s.taken rest) = adminEnd u c stSuccess :=
      congrArg (adminEnd · c stSuccess) (if_pos henabled)
    have hexec := exec_bayControl (act := weltRetrain) h hop haction htarget b.isLt hmodes (by rw [hact, adminEnd_ring]; rfl)
    rw [hact] at hexec
    refine ⟨_, hexec, ?_⟩
    beta_reduce
    rw [adminEnd_bay, show (u.bay b.val).welt = _ from modWelt_welt _ b.val _, modWelt_welt]
    exact ⟨rfl, rfl, rfl, rfl, adminEnd_onlyBay s c _ (taken_onlyBay
      (onlyBay_trans (modBay_onlyBay _ b.val _) (modBay_onlyBay _ b.val _)))⟩
  case cleared =>
    intro c rest b s h hop haction htarget hmodes hstate
    let u := (s.taken rest).modBay b.val fun y => { y with safeStarts := [] }
    have hkeep : (u.bay b.val).state = (s.bay b.val).state := by rw [modBay_bay_same]; rfl
    have hnot : (u.bay b.val).state ≠ .safe := hkeep ▸ hstate
    have hact : tryRestart b.val c (s.taken rest) = adminEnd u c stSuccess := by
      change adminEnd (if mayRestart u b.val then _ else if (u.bay b.val).state = .safe then _ else u) c stSuccess = _
      rw [mayRestart_of_not_safe hnot, if_neg hnot]
      rfl
    have hexec := exec_bayControl (act := tryRestart) h hop haction htarget b.isLt hmodes (by rw [hact, adminEnd_ring]; rfl)
    rw [hact] at hexec
    refine ⟨_, hexec, ?_, ?_, adminEnd_adminQ _ _ _, adminEnd_onlyBay s c _ (taken_onlyBay (modBay_onlyBay _ b.val _))⟩
    · rw [adminEnd_bay, modBay_bay_same]
    · rw [adminEnd_bay, hkeep]
  case restart =>
    intro c rest b s h hop haction htarget hmodes hmay
    obtain ⟨-, hup⟩ := mayRestart_state hmay
    let u := (s.taken rest).modBay b.val fun y => { y with safeStarts := [] }
    have hmayu : mayRestart u b.val = true := (mayRestart_safeStarts (s.taken rest) b.val []).trans hmay
    have hupu : (u.bay b.val).welt.phase = .up := by rw [modBay_bay_same]; exact hup
    have hrecent : recentStarts u b.val = [] := by simp [recentStarts, u, modBay_bay_same]
    have hact : tryRestart b.val c (s.taken rest) = adminEnd (safeRestart u b.val) c stSuccess :=
      congrArg (adminEnd · c stSuccess) (if_pos hmayu)
    rw [safeRestart_up hupu, hrecent] at hact
    have hexec := exec_bayControl (act := tryRestart) h hop haction htarget b.isLt hmodes (by rw [hact, adminEnd_ring]; rfl)
    rw [hact] at hexec
    refine ⟨_, hexec, ?_⟩
    beta_reduce
    rw [adminEnd_bay, modBay_bay_same]
    exact ⟨rfl, rfl, rfl, adminEnd_onlyBay s c _ (taken_onlyBay (onlyBay_trans (modBay_onlyBay _ b.val _) (modBay_onlyBay _ b.val _)))⟩
  case chopper =>
    intro c rest g s h hop haction htarget hmodes
    let u := (s.taken rest).modBus g.val fun x => { x with chopFault := false }
    have hbranch : chopperClear g.val c (s.taken rest) = if 13800 ≤ (s.bus g.val).mv then adminEnd (s.taken rest) c stBusy
        else adminEnd (updateRegen u g.val) c stSuccess := rfl
    have hring : (chopperClear g.val c (s.taken rest)).ring = s.ring := by
      rw [hbranch]
      split
      · exact adminEnd_ring _ _ _
      · exact (adminEnd_ring _ _ _).trans (updateRegen_changesOnly u g.val .ring (by simp))
    refine ⟨_, exec_bayControl (act := chopperClear) h hop haction htarget g.isLt hmodes hring, ?_⟩
    rw [hbranch]
    split
    · rfl
    · have hbus : (updateRegen u g.val).bus g.val = u.bus g.val := 
        bus_eq_of_buses_eq (updateRegen_changesOnly u g.val .buses (by simp)) g.val
      refine ⟨?_, (adminEnd_adminQ _ _ _).trans (updateRegen_changesOnly u g.val .adminQ (by simp))⟩
      rw [adminEnd_bus, hbus, modBus_bus]
  case out =>
    intro c rest b s h hop haction htarget hmodes
    let u := ((s.taken rest).enterSafe b.val 0x060D).modBay b.val fun y => { y with outOfService := true }
    have hbranch : bayOut b.val c (s.taken rest) = if (s.bay b.val).disc.isSome ∨ (s.bay b.val).mount.isSome then
        adminEnd (s.taken rest) c stBayBusy else adminEnd u c stSuccess := rfl
    have hring : (bayOut b.val c (s.taken rest)).ring = s.ring := by
      rw [hbranch]
      split
      · exact adminEnd_ring _ _ _
      · exact (adminEnd_ring _ _ _).trans (enterSafe_changesOnly (s.taken rest) b.val _ .ring (by simp))
    refine ⟨_, exec_bayControl (act := bayOut) h hop haction htarget b.isLt hmodes hring, ?_⟩
    rw [hbranch]
    split
    · rfl
    · rw [adminEnd_bay, modBay_bay_same]
      exact ⟨rfl, enterSafe_state (s.taken rest) b.val 0x060D⟩
  case back =>
    intro c rest b s h hop haction htarget hmodes
    let u := (s.taken rest).modBay b.val fun y => { y with outOfService := false }
    have hsettle := settleBay_changesOnly u b.val
    refine ⟨_, exec_bayControl (act := bayIn) h hop haction htarget b.isLt hmodes
      ((adminEnd_ring _ _ _).trans (hsettle .ring (by simp))), ?_, (adminEnd_adminQ _ _ _).trans (hsettle .adminQ (by simp))⟩
    rw [bayIn, adminEnd_bay, settleBay_outOfService, modBay_bay_same]
  case home =>
    intro c rest b s h hop haction htarget hmodes
    have hbranch : rehome b.val c (s.taken rest) = if s.mode ≠ .service then adminEnd (s.taken rest) c stWrongMode
        else if (s.bay b.val).state ≠ .empty ∧ (s.bay b.val).state ≠ .loaded then adminEnd (s.taken rest) c stBayBusy
        else adminEnd (startHoming (s.taken rest) b.val) c stSuccess := rfl
    have hring : (rehome b.val c (s.taken rest)).ring = s.ring := by
      rw [hbranch]
      split
      · exact adminEnd_ring _ _ _
      · split <;> exact adminEnd_ring _ _ _
    refine ⟨_, exec_bayControl (act := rehome) h hop haction htarget b.isLt hmodes hring, ?_⟩
    rw [hbranch]
    split
    · rfl
    · split
      · rfl
      · rw [adminEnd_bay]
        exact ⟨startHoming_state _ _, adminEnd_onlyBay s c _ (taken_onlyBay (modBay_onlyBay _ b.val _))⟩

end Sys2Proof.Proofs
end

section
/-! SUPPORT. A stitch of the memory system: what caches and channels do touches DRAM's state alone, and a bus error leaves STITCH64
(R206, R439 to R456). -/

namespace Sys2Proof.Proofs

open Sys2Proof Sys2Proof.Machine Sys2Proof.Laws

/-! ## Lines and requests move (R439, R449 to R454) -/

/-- From `s` to `t` lines and requests have moved in the memory system, and the accesses that wait are the same. -/
structure CachesMove (s t : State) : Prop where
  only : s.changesOnly [.mem] t
  waiting : t.mem.waiting = s.mem.waiting

section
variable {s t u : State}

theorem cachesMove_refl (s : State) : CachesMove s s := ⟨changesOnly_refl _ s, rfl⟩

theorem cachesMove_trans (h : CachesMove s t) (g : CachesMove t u) : CachesMove s u :=
  ⟨changesOnly_trans h.only g.only, g.waiting.trans h.waiting⟩

theorem cachesMove_ite {p : Prop} [Decidable p] (h : CachesMove s t) (g : CachesMove s u) : CachesMove s (if p then t else u) := by
  split
  · exact h
  · exact g

theorem cachesMove_foldl {α : Type} (f : State → α → State) (h : ∀ (s : State) (a : α), CachesMove s (f s a)) (l : List α) (s : State) :
    CachesMove s (l.foldl f s) :=
  List.foldlRecOn l f (cachesMove_refl s) fun t ht a _ => cachesMove_trans ht (h t a)

end

/-- An update of the memory system that leaves the accesses that wait. -/
theorem modMem_cachesMove (s : State) {f : Memory → Memory} (h : (f s.mem).waiting = s.mem.waiting) : CachesMove s (s.modMem f) :=
  ⟨modMem_changesOnly s f, h⟩

theorem modChanD_cachesMove (s : State) (c : Nat) (f : DramChan → DramChan) : CachesMove s (s.modChanD c f) := by
  refine ⟨modChanD_changesOnly s c f, ?_⟩
  unfold State.modChanD
  split <;> rfl

theorem modCache_cachesMove (s : State) (k : Cache) (f : CacheState → CacheState) : CachesMove s (s.modCache k f) := by
  refine ⟨modCache_changesOnly s k f, ?_⟩
  unfold State.modCache
  cases k with
  | l1i c =>
    dsimp only
    split <;> rfl
  | l1d c =>
    dsimp only
    split <;> rfl
  | l2 => rfl

section
variable (s : State)

theorem request_cachesMove (r : DramReq) : CachesMove s (s.request r) := modChanD_cachesMove s _ _

theorem dramWrite_cachesMove (line off : Nat) (l : List Byte) (p : Bool) (cls : Nat) (c : Client) :
    CachesMove s (s.dramWrite line off l p cls c) := request_cachesMove s _

theorem dramRead_cachesMove (line cls : Nat) (c : Client) (p : Bool) : CachesMove s (s.dramRead line cls c p) := request_cachesMove s _

theorem toL2_cachesMove (l : CacheLine) : CachesMove s (s.toL2 l) := by
  unfold State.toL2
  split
  · exact modCache_cachesMove s _ _
  · exact dramWrite_cachesMove s _ _ _ _ _ _

theorem dropWay_cachesMove (k : Cache) (i : Nat) : CachesMove s (dropWay s k i) := modCache_cachesMove s k _

theorem cleanWay_cachesMove (k : Cache) (i : Nat) : CachesMove s (cleanWay s k i) := by
  unfold cleanWay
  split
  · exact cachesMove_refl s
  · split
    · exact cachesMove_refl s
    · cases k with
      | l1i c => exact modCache_cachesMove s _ _
      | l1d c => exact cachesMove_trans (modCache_cachesMove s _ _) (toL2_cachesMove _ _)
      | l2 => exact cachesMove_trans (modCache_cachesMove s _ _) (dramWrite_cachesMove _ _ _ _ _ _ _)

theorem cleanDrop_cachesMove (k : Cache) (i : Nat) : CachesMove s (dropWay (cleanWay s k i) k i) :=
  cachesMove_trans (cleanWay_cachesMove s k i) (dropWay_cachesMove _ k i)

theorem dropHeld_cachesMove (k : Cache) (l : List (Nat × CacheLine)) :
    CachesMove s (l.foldl (fun a e => dropWay (cleanWay a k e.1) k e.1) s) :=
  cachesMove_foldl _ (fun u e => cleanDrop_cachesMove u k e.1) l s

theorem evictWay_cachesMove (k : Cache) (i : Nat) : CachesMove s (evictWay s k i) := by
  unfold evictWay
  split
  · exact cachesMove_refl s
  · cases k with
    | l1i c => exact cleanDrop_cachesMove s _ i
    | l1d c => exact cleanDrop_cachesMove s _ i
    | l2 =>
      exact cachesMove_trans (cachesMove_foldl _ (fun u d => dropHeld_cachesMove u d _) _ s) (cleanDrop_cachesMove _ _ i)

theorem install_cachesMove (k : Cache) (n line : Nat) (l : List Byte) (p : Bool) : CachesMove s (install s k n line l p) := by
  unfold install
  exact cachesMove_trans (cachesMove_trans (modCache_cachesMove s k _) (evictWay_cachesMove _ k _)) (modCache_cachesMove _ k _)

theorem recallL1_cachesMove (line : Nat) (k : Option Cache) (p : Bool) : CachesMove s (recallL1 s line k p) := by
  have hcopies (d : Cache) (l : List (Nat × CacheLine)) (u : State) :
      CachesMove u (l.foldl (fun a e => if p then dropWay (cleanWay a d e.1) d e.1 else cleanWay a d e.1) u) :=
    cachesMove_foldl _ (fun v e => cachesMove_ite (cleanDrop_cachesMove v d e.1) (cleanWay_cachesMove v d e.1)) l u
  exact cachesMove_foldl _ (fun u d => hcopies d _ u) _ s

theorem storeWay_cachesMove (k : Cache) (i off : Nat) (l : List Byte) : CachesMove s (storeWay s k i off l) := modCache_cachesMove s k _

theorem storeHeld_cachesMove (k : Cache) (line off : Nat) (l : List Byte) : CachesMove s (storeHeld s k line off l) := by
  unfold storeHeld
  split
  · exact storeWay_cachesMove s k _ off l
  · exact cachesMove_refl s

theorem uncached_cachesMove (a : MemAccess) : CachesMove s (uncached s a) :=
  cachesMove_ite (dramWrite_cachesMove s _ _ _ _ _ _) (dramRead_cachesMove s _ _ _ _)

theorem beginFill_cachesMove (a : MemAccess) (k : Option Cache) (p : Bool) : CachesMove s (beginFill s a k p) :=
  cachesMove_trans (modMem_cachesMove s rfl) (dramRead_cachesMove _ _ _ _ _)

/-! ## Maintenance of the caches (R453, R454) -/

theorem maintLine_cachesMove (o : MaintOp) (k : Cache) (line : Nat) : CachesMove s (maintLine o k line s) := by
  have hclean (l : List Nat) (u : State) : CachesMove u (l.foldl (fun a i => cleanWay a k i) u) :=
    cachesMove_foldl _ (fun v i => cleanWay_cachesMove v k i) l u
  have hdrop (l : List Nat) (u : State) : CachesMove u (l.foldl (fun a i => dropWay a k i) u) :=
    cachesMove_foldl _ (fun v i => dropWay_cachesMove v k i) l u
  exact cachesMove_ite (cachesMove_refl s) (cachesMove_trans (cachesMove_ite (hclean _ s) (cachesMove_refl s))
    (cachesMove_ite (hdrop _ _) (cachesMove_refl _)))

theorem maintLines_cachesMove (o : MaintOp) (line : Nat) (l : List Cache) : CachesMove s (l.foldl (fun a k => maintLine o k line a) s) :=
  cachesMove_foldl _ (fun u k => maintLine_cachesMove u o k line) l s

theorem maintL2_cachesMove (o : MaintOp) (line : Nat) : CachesMove s (maintL2 o line s) :=
  cachesMove_ite (cachesMove_refl s) (cachesMove_trans (maintLines_cachesMove s _ line _) (maintLine_cachesMove _ o .l2 line))

theorem maintPa_cachesMove (o : MaintOp) (n line : Nat) : CachesMove s (maintPa o n line s) := by
  unfold maintPa
  split
  · exact cachesMove_trans (maintLines_cachesMove s o line _) (maintL2_cachesMove _ o line)
  · exact maintLines_cachesMove s o line _
  · exact maintLines_cachesMove s o line _
  · exact maintL2_cachesMove s o line

theorem maintAsk_cachesMove (r : MaintReq) : CachesMove s (maintAsk r s) := by
  unfold maintAsk
  split
  · exact maintPa_cachesMove s _ _ _
  · exact cachesMove_ite (modCache_cachesMove s _ _) (modMem_cachesMove s rfl)

theorem releaseMaint_cachesMove : CachesMove s (releaseMaint s) :=
  cachesMove_trans (cachesMove_trans (modMem_cachesMove s rfl) (cachesMove_foldl _ (fun u k => modCache_cachesMove u k _) _ _))
    (cachesMove_foldl _ (fun u r => maintAsk_cachesMove u r) _ _)

theorem raisePanic_cachesMove : CachesMove s (raisePanic s) := by
  unfold raisePanic
  exact cachesMove_trans (modChanD_cachesMove s 0 _) (modChanD_cachesMove _ 1 _)

theorem retire_cachesMove (f : Fill) (l : List Byte) : CachesMove s (retire s f l) := by
  have htaken (k : Option Cache) : CachesMove s (match k with
      | some k => install (if s.mem.l2.en then install s .l2 (l2Ways s f.hw) f.line l false else s) k (cacheWays k) f.line l false
      | none => if s.mem.l2.en then install s .l2 (l2Ways s f.hw) f.line l false else s) := by
    have hl2 := cachesMove_ite (p := s.mem.l2.en = true) (install_cachesMove s .l2 (l2Ways s f.hw) f.line l false) (cachesMove_refl s)
    cases k with
    | none => exact hl2
    | some k => exact cachesMove_trans hl2 (install_cachesMove _ k _ _ _ _)
  unfold retire
  dsimp only
  split
  · exact htaken _
  · split
    · exact cachesMove_trans (htaken _) (storeHeld_cachesMove _ _ _ _ _)
    · exact cachesMove_trans (htaken _) (storeWay_cachesMove _ _ _ _ _)
    · exact cachesMove_trans (htaken _) (dramWrite_cachesMove _ _ _ _ _ _ _)

/-- With nothing issued, asked for or waiting, a stitch moves lines and requests alone. -/
theorem memStitch_cachesMove {m : MemStitch} (h0 : m.issue0 = 0) (h1 : m.issue1 = 0) (hnew : m.accesses = [])
    (hwait : s.mem.waiting = []) : CachesMove s (memStitch m s) := by
  have hmove : CachesMove s (releaseMaint (raisePanic s)) := cachesMove_trans (raisePanic_cachesMove s) (releaseMaint_cachesMove _)
  have hnone : (releaseMaint (raisePanic s)).mem.waiting = [] := hmove.waiting.trans hwait
  have hstitch : memStitch m s = (releaseMaint (raisePanic s)).modMem fun m => { m with waiting := [] } := by
    simp [memStitch, h0, h1, hnew, retryWaiting, hnone]
  rw [hstitch]
  exact cachesMove_trans hmove (modMem_cachesMove _ hnone.symm)

end

/-! ## STITCH64 stands (R206) -/

/-- From `s` to `t` STITCH64 has not advanced and what STITCH_HI holds stands. -/
structure KeepsTime (s t : State) : Prop where
  stitch : t.aon.stitch = s.aon.stitch
  latched : t.aon.stitchHi = s.aon.stitchHi

section
variable {s t u : State}

theorem keepsTime_refl (s : State) : KeepsTime s s := ⟨rfl, rfl⟩

theorem keepsTime_trans (h : KeepsTime s t) (g : KeepsTime t u) : KeepsTime s u :=
  ⟨g.stitch.trans h.stitch, g.latched.trans h.latched⟩

theorem keepsTime_of_changesOnly {ps : List Part} (h : s.changesOnly ps t) (hp : Part.aon ∉ ps) : KeepsTime s t := by
  have haon : t.aon = s.aon := h .aon hp
  exact ⟨by rw [haon], by rw [haon]⟩

theorem keepsTime_ite {p : Prop} [Decidable p] (h : KeepsTime s t) (g : KeepsTime s u) : KeepsTime s (if p then t else u) := by
  split
  · exact h
  · exact g

theorem keepsTime_foldl {α : Type} (f : State → α → State) (h : ∀ (s : State) (a : α), KeepsTime s (f s a)) (l : List α) (s : State) :
    KeepsTime s (l.foldl f s) :=
  List.foldlRecOn l f (keepsTime_refl s) fun t ht a _ => keepsTime_trans ht (h t a)

theorem CachesMove.keepsTime (h : CachesMove s t) : KeepsTime s t := keepsTime_of_changesOnly h.only (by simp)

end

section
variable (s : State)

/-! ## Self-reset and restart (R402, R403, R456, R482) -/

theorem enterReset_keepsTime (c : Nat) : KeepsTime s (s.enterReset c) := by
  unfold State.enterReset
  dsimp only
  split <;> exact ⟨rfl, rfl⟩

theorem enterDark_keepsTime (c : Nat) : KeepsTime s (s.enterDark c) := by
  unfold State.enterDark
  dsimp only
  split <;> exact ⟨rfl, rfl⟩

theorem selfResetNow_keepsTime : KeepsTime s s.selfResetNow := by
  unfold State.selfResetNow
  dsimp only
  split
  · exact ⟨(enterDark_keepsTime _ 7).stitch, (enterDark_keepsTime _ 7).latched⟩
  · exact ⟨(enterReset_keepsTime _ 3).stitch, (enterReset_keepsTime _ 3).latched⟩

theorem powerOff_keepsTime (l : List Nat) : KeepsTime s (s.powerOff l) := ⟨rfl, rfl⟩

theorem powerOn_keepsTime (l : List Nat) : KeepsTime s (s.powerOn l) := ⟨rfl, rfl⟩

theorem motionUp_keepsTime : KeepsTime s s.motionUp := by
  have hlinks (l : List Nat) (v : State) : KeepsTime v (l.foldl (fun a b =>
      if a.pval 0x0680 b = 1 then startTraining (a.modWelt b fun w => { w with attempts := 0, enabled := true }) b
      else a.modWelt b fun w => { w with enabled := false }) v) :=
    keepsTime_of_changesOnly (changesOnly_foldl _ (fun a b => changesOnly_ite
      (changesOnly_trans (modBay_changesOnly a b _) (startTraining_changesOnly _ b)) (modBay_changesOnly a b _)) l v) (by simp)
  exact keepsTime_ite (keepsTime_refl s) (keepsTime_trans (powerOn_keepsTime s _)
    (keepsTime_trans (keepsTime_of_changesOnly (girthLoad_changesOnly _) (by simp)) (hlinks _ _)))

theorem stopCourses_keepsTime : KeepsTime s s.stopCourses :=
  keepsTime_foldl _ (fun u (c : Course) => keepsTime_of_changesOnly (stopCourse_changesOnly u c.handle .stopped) (by simp)) _ s

theorem safeAll_keepsTime : KeepsTime s s.safeAll :=
  keepsTime_foldl _ (fun u b => keepsTime_ite (keepsTime_refl u)
    (keepsTime_trans (keepsTime_of_changesOnly (enterSafe_changesOnly u b _) (by simp))
      (keepsTime_of_changesOnly (modBay_changesOnly _ b _) (by simp)))) _ s

theorem enterSafeStop_keepsTime (c : Nat) : KeepsTime s (s.enterSafeStop c) :=
  keepsTime_trans (stopCourses_keepsTime s) (keepsTime_trans (safeAll_keepsTime _) (keepsTime_trans (powerOff_keepsTime _ _)
    (keepsTime_trans (motionUp_keepsTime _) (keepsTime_of_changesOnly (enterMode_changesOnly _ _ _) (by simp)))))

theorem beginSelfReset_keepsTime : KeepsTime s s.beginSelfReset := by
  have hmgmt (u : State) (m : Mgmt) : KeepsTime u { u with mgmt := m } := ⟨rfl, rfl⟩
  unfold State.beginSelfReset
  exact keepsTime_ite (keepsTime_refl s) (keepsTime_ite (hmgmt s _)
    (keepsTime_ite (keepsTime_trans (enterSafeStop_keepsTime s _) (hmgmt _ _)) (selfResetNow_keepsTime s)))

theorem walkCache_changesOnly (k : Cache) : s.changesOnly [.mem] (walkCache s k) :=
  changesOnly_trans (changesOnly_foldl _ (fun u (e : Nat × CacheLine) => (cleanWay_cachesMove u k e.1).only) _ s)
    (modCache_changesOnly _ k _)

theorem restartCaches_changesOnly (p : Bool) (k : Option (Cache × Nat)) : s.changesOnly [.mem] (restartCaches s p k) := by
  have hskip (u : State) : u.changesOnly [.mem] (match k with | some (k, i) => dropWay u k i | none => u) := by
    split
    · exact modCache_changesOnly u _ _
    · exact changesOnly_refl _ u
  unfold restartCaches
  exact changesOnly_trans (modMem_changesOnly s _) (changesOnly_trans (hskip _)
    (changesOnly_trans (changesOnly_foldl _ walkCache_changesOnly _ _)
      (changesOnly_trans (changesOnly_foldl _ (fun u k => modCache_changesOnly u k _) _ _)
        (changesOnly_ite (walkCache_changesOnly _ .l2) (changesOnly_refl _ _)))))

theorem mgmtRestart_keepsTime (c p : Bool) (k : Option (Cache × Nat)) : KeepsTime s (mgmtRestart s c p k) := by
  have hstops (u : State) : KeepsTime u (allBays.foldl (fun a b => if (a.bay b).state = .write then a.boundaryStop b else a) u) :=
    keepsTime_of_changesOnly (changesOnly_foldl _ (fun a b => changesOnly_ite (boundaryStop_changesOnly a b) (changesOnly_refl _ a)) _ u)
      (by simp)
  have hrestart (u : State) (m : Mgmt) (x : Security) (r : List Nat) (n : Nat) :
      KeepsTime u { u with mgmt := m, sec := x, aon := { u.aon with restarts := r, kick0 := n, kick1 := n } } := ⟨rfl, rfl⟩
  unfold mgmtRestart
  exact keepsTime_ite (keepsTime_refl s) (keepsTime_trans (keepsTime_of_changesOnly (restartCaches_changesOnly s p k) (by simp))
    (keepsTime_trans (hstops _) (keepsTime_trans (hrestart _ _ _ _ _)
      (keepsTime_ite (beginSelfReset_keepsTime _) (keepsTime_refl _)))))

/-! ## Bus errors (R436, R442, R444) -/

theorem errNote_changesOnly (i a c k w : Nat) : s.changesOnly [.logs, .events] (s.errNote i a c k w) := by
  unfold State.errNote
  dsimp only
  split
  · exact changesOnly_mono (withLogs_changesOnly s _) (by simp)
  · exact changesOnly_trans (changesOnly_mono (withLogs_changesOnly s _) (by simp))
      (changesOnly_mono (logFull_changesOnly _ _ _ _) (by simp))

theorem log_keepsTime (pg : Page) (c b d : Nat) : KeepsTime s (s.log pg c b d) :=
  keepsTime_of_changesOnly (log_changesOnly s pg c b d) (by simp)

/-- What a poisoned line's read records. -/
theorem errLog_keepsTime (a c n : Nat) (p : Bool) (k : Nat) : KeepsTime s ((s.dramErr a p k).log .device c 0xFF n) :=
  keepsTime_trans (keepsTime_of_changesOnly (errNote_changesOnly s _ a _ k _) (by simp)) (log_keepsTime _ _ _ _ _)

theorem modQp_keepsTime (q : QpId) (f : Qp → Qp) : KeepsTime s (s.modQp q f) := keepsTime_of_changesOnly (modQp_changesOnly s q f) (by simp)

theorem peerLost_keepsTime (q : QpId) : KeepsTime s (peerLost s q) :=
  keepsTime_ite (keepsTime_trans (modQp_keepsTime s q _) (log_keepsTime _ _ _ _ _)) (keepsTime_refl s)

theorem deleteQp_keepsTime (q : QpId) : KeepsTime s (deleteQp s q) := by
  cases q with
  | admin g => exact keepsTime_refl s
  | data n =>
    exact keepsTime_trans (modQp_keepsTime s _ _) (keepsTime_foldl _ (fun u (c : Cmd) =>
      keepsTime_trans (keepsTime_of_changesOnly (giveUpAppend_changesOnly u c) (by simp))
        (keepsTime_of_changesOnly (finishFree_changesOnly _ _ _ _ _ _) (by simp))) _ _)

theorem modBay_keepsTime (b : Nat) (f : Bay → Bay) : KeepsTime s (s.modBay b f) := keepsTime_of_changesOnly (modBay_changesOnly s b f) (by simp)

theorem modChan_keepsTime (b : Nat) (f : Channel → Channel) : KeepsTime s (s.modChan b f) := modBay_keepsTime s b _

theorem withRecov_keepsTime (r : Recovery) : KeepsTime s { s with recov := r } :=
  keepsTime_of_changesOnly (withRecov_changesOnly s r) (by simp)

/-- Whoever the client of a lost line is, STITCH64 stands. -/
theorem clientLoss_keepsTime (c : Client) (pa : Nat) (k : LineCheck) : KeepsTime s (clientLoss s c pa k) := by
  have hrestart : KeepsTime s (mgmtRestart s true false none) := mgmtRestart_keepsTime s true false none
  cases c with
  | latePass b i first =>
    unfold clientLoss
    exact modChan_keepsTime s _ _
  | retryStore b e =>
    unfold clientLoss
    exact modChan_keepsTime s _ _
  | reassembly b l n sec => exact withRecov_keepsTime s _
  | feeder b n l => exact keepsTime_refl s
  | writeBuffer h => exact keepsTime_of_changesOnly (stopCourse_changesOnly s h .stopped) (by simp)
  | rebuildBuffer course row member => exact withRecov_keepsTime s _
  | queueSqe q tag =>
    exact keepsTime_ite (keepsTime_trans (deleteQp_keepsTime s q) (log_keepsTime _ _ _ _ _))
      (keepsTime_ite (keepsTime_of_changesOnly (finishFree_changesOnly _ _ _ _ _ _) (by simp)) (modQp_keepsTime s q _))
  | retransmission q n rebuilt => exact keepsTime_ite (keepsTime_refl s) (peerLost_keepsTime s q)
  | coreImage n ok => exact keepsTime_ite (log_keepsTime s _ _ _ _) hrestart
  | coreData n => exact hrestart
  | cacheWrite => exact hrestart
  | feedFifo b w beams cb =>
    unfold clientLoss
    dsimp only
    split
    · exact keepsTime_ite (modBay_keepsTime s _ _) (keepsTime_refl s)
    · exact keepsTime_refl s
  | ingest w => exact keepsTime_of_changesOnly (withRing_changesOnly s _) (by simp)
  | burnisher => exact keepsTime_refl s
  | merge => exact keepsTime_refl s
  | codec w => exact keepsTime_refl s
  | egressSram w => exact keepsTime_refl s

/-! ## A stitch of the memory system (R439, R454) -/

theorem modMem_keepsTime (f : Memory → Memory) : KeepsTime s (s.modMem f) := keepsTime_of_changesOnly (modMem_changesOnly s f) (by simp)

theorem readDone_keepsTime (r : DramReq) : KeepsTime s (readDone s r) := by
  have htaken : KeepsTime s (if r.fill then s.modMem fun m => { m with fills := m.fills.filter (fun f => f.line != r.line) } else s) :=
    keepsTime_ite (modMem_keepsTime s _) (keepsTime_refl s)
  unfold readDone
  dsimp only
  split
  · exact keepsTime_trans (keepsTime_trans htaken (errLog_keepsTime _ _ _ _ _ _)) (clientLoss_keepsTime _ _ _ _)
  · split
    · exact keepsTime_trans htaken (retire_cachesMove _ _ _).keepsTime
    · exact htaken

theorem writeDone_keepsTime (r : DramReq) : KeepsTime s (writeDone s r) := by
  unfold writeDone
  exact keepsTime_ite (keepsTime_trans (keepsTime_trans (modMem_keepsTime s _) (errLog_keepsTime _ _ _ _ _ _)) (clientLoss_keepsTime _ _ _ _))
    (modMem_keepsTime s _)

theorem issueOne_keepsTime (c : Nat) : KeepsTime s (issueOne s c) := by
  unfold issueOne
  dsimp only
  split
  · exact keepsTime_refl s
  · split
    · exact keepsTime_refl s
    · exact keepsTime_trans (modChanD_cachesMove s c _).keepsTime (keepsTime_ite (writeDone_keepsTime _ _) (readDone_keepsTime _ _))

theorem fromL2_keepsTime (a : MemAccess) (k : Option Cache) : KeepsTime s (fromL2 s a k) := by
  have hrecall := (recallL1_cachesMove s (a.pa / 64) k (decide (a.kind = .store))).keepsTime
  unfold fromL2
  dsimp only
  split
  · exact hrecall
  · split
    · exact keepsTime_trans hrecall (clientLoss_keepsTime _ _ _ _)
    · cases k with
      | some k =>
        have hinstall (l : List Byte) := keepsTime_trans hrecall (install_cachesMove _ k (cacheWays k) (a.pa / 64) l false).keepsTime
        exact keepsTime_ite (keepsTime_trans (hinstall _) (storeHeld_cachesMove _ k _ _ _).keepsTime) (hinstall _)
      | none => exact keepsTime_ite (keepsTime_trans hrecall (storeWay_cachesMove _ .l2 _ _ _).keepsTime) hrecall

theorem cached_keepsTime (a : MemAccess) : KeepsTime s (cached s a) := by
  unfold cached
  dsimp only
  split
  · exact keepsTime_ite (keepsTime_trans (recallL1_cachesMove s _ _ _).keepsTime (storeWay_cachesMove _ _ _ _ _).keepsTime)
      (keepsTime_refl s)
  · exact keepsTime_ite (fromL2_keepsTime s a _) (keepsTime_ite (beginFill_cachesMove s a _ _).keepsTime
      (keepsTime_ite (beginFill_cachesMove s a _ _).keepsTime (uncached_cachesMove s a).keepsTime))

theorem access_keepsTime (a : MemAccess) : KeepsTime s (access s a) := by
  unfold access
  split
  · exact log_keepsTime s _ _ _ _
  · exact keepsTime_ite (uncached_cachesMove s a).keepsTime (keepsTime_ite (modMem_keepsTime s _)
      (keepsTime_ite (keepsTime_refl s) (cached_keepsTime s a)))

theorem memStitch_keepsTime (m : MemStitch) : KeepsTime s (memStitch m s) := by
  have hissue (c : Nat) (l : List Nat) (u : State) : KeepsTime u (l.foldl (fun a _ => issueOne a c) u) :=
    keepsTime_foldl _ (fun v _ => issueOne_keepsTime v c) l u
  have haccess (l : List MemAccess) (u : State) : KeepsTime u (l.foldl access u) := keepsTime_foldl _ access_keepsTime l u
  unfold memStitch
  exact keepsTime_trans (raisePanic_cachesMove s).keepsTime (keepsTime_trans (hissue 0 _ _) (keepsTime_trans (hissue 1 _ _)
    (keepsTime_trans (releaseMaint_cachesMove _).keepsTime (keepsTime_trans (modMem_keepsTime _ _)
      (keepsTime_trans (haccess _ _) (haccess _ _))))))

end

end Sys2Proof.Proofs
end

section
/-! SUPPORT. A stitch boundary: outside RESET it moves time and what the bays and Girth hold, and no mode; and the statement about the
timebase registers (R203, R206, R236, R247). -/

namespace Sys2Proof.Proofs

open Sys2Proof Sys2Proof.Machine Sys2Proof.Laws

section
variable (s : State)

/-! ## Girth at the boundary (R236, R245, R247) -/

theorem modSlot_safeParts (i : Nat) (f : GSlot → GSlot) : s.changesOnly safeParts (s.modSlot i f) :=
  changesOnly_mono (modSlot_changesOnly s i f) (by simp)

theorem modBay_safeParts (b : Nat) (f : Bay → Bay) : s.changesOnly safeParts (s.modBay b f) :=
  changesOnly_mono (modBay_changesOnly s b f) (by simp)

theorem withPat_safeParts (p : Pattern) : s.changesOnly safeParts { s with pat := p } :=
  changesOnly_mono (withPat_changesOnly s p) (by simp)

theorem bayLogFree_safeParts (b c : Nat) : s.changesOnly safeParts (s.bayLogFree b c) :=
  changesOnly_mono (logFree_changesOnly s _ c b) (by simp)

theorem girthApply_changesOnly : s.changesOnly [.girth] (girthApply s) := withGirth_changesOnly s _

/-- The commit's effect on the slots, after the values have come into force. -/
theorem girthCommit_changesOnly : ({ s with pat := s.pat.settle [.girth] } : State).changesOnly [.girth] (girthCommit s) := by
  refine changesOnly_foldl _ (fun u e => ?_) _ _
  dsimp only
  split
  · exact changesOnly_refl _ u
  · exact modSlot_changesOnly u _ _

theorem girthCommit_safeParts : s.changesOnly safeParts (girthCommit s) :=
  changesOnly_trans (withPat_safeParts s _) (changesOnly_mono (girthCommit_changesOnly s) (by simp))

theorem overrunHold_changesOnly (b : Nat) : s.changesOnly safeParts (overrunHold s b) :=
  changesOnly_ite (changesOnly_trans (modBay_safeParts s b _)
    (changesOnly_trans (bayLogFree_safeParts _ b _) (enterHold_changesOnly _ b))) (changesOnly_refl _ s)

/-- Girth's part before any bay is held. -/
def girthSettled (s : State) : State := girthCommit (if s.powered 17 && s.girth.loaded then girthApply s else s)

theorem girthSettled_changesOnly : ∃ u, s.changesOnly [.girth] u ∧
    ({ u with pat := u.pat.settle [.girth] } : State).changesOnly [.girth] (girthSettled s) :=
  ⟨_, changesOnly_ite (girthApply_changesOnly s) (changesOnly_refl _ s), girthCommit_changesOnly _⟩

theorem girthBoundary_changesOnly : s.changesOnly safeParts (girthBoundary s) :=
  changesOnly_trans (changesOnly_ite (changesOnly_mono (girthApply_changesOnly s) (by simp)) (changesOnly_refl _ s))
    (changesOnly_trans (girthCommit_safeParts _) (changesOnly_foldl _ overrunHold_changesOnly _ _))

/-! ## Servo, spindle and sled at the boundary (R253 to R269, R276, R303) -/

theorem girthWrite_changesOnly (id i : Nat) (v : Int) : s.changesOnly safeParts (s.girthWrite id i v) := withPat_safeParts s _

theorem modServo_safeParts (b : Nat) (f : Servo → Servo) : s.changesOnly safeParts (s.modServo b f) := modBay_safeParts s b _

theorem holdSlots_changesOnly (l : List Nat) (f : GSlot → GSlot) : s.changesOnly safeParts (l.foldl (fun a i => a.modSlot i f) s) :=
  changesOnly_foldl _ (fun u i => modSlot_safeParts u i f) l s

theorem normSet_changesOnly (b i g : Nat) (l : Loop) (p : Nat) : s.changesOnly safeParts (normSet s b i g l p) :=
  changesOnly_trans (changesOnly_trans (girthWrite_changesOnly s _ _ _) (girthWrite_changesOnly _ _ _ _))
    (changesOnly_ite (bayLogFree_safeParts _ b _) (changesOnly_refl _ _))

theorem normTracking_changesOnly (b : Nat) : s.changesOnly safeParts (normTracking s b) :=
  changesOnly_ite (changesOnly_foldl _ (fun u g => normSet_changesOnly u b _ g _ _) _ s) (changesOnly_refl _ s)

theorem runJump_changesOnly (b : Nat) : s.changesOnly safeParts (runJump s b) := by
  unfold runJump
  dsimp only
  split
  · exact changesOnly_ite (changesOnly_refl _ s) (changesOnly_trans (modServo_safeParts s b _) (modSlot_safeParts _ b _))
  · exact changesOnly_refl _ s

theorem runTrackJump_changesOnly (b : Nat) : s.changesOnly safeParts (runTrackJump s b) := by
  unfold runTrackJump
  dsimp only
  split
  · have hmoved (u : State) (f : Servo → Servo) (g : GSlot → GSlot) :=
      changesOnly_trans (modServo_safeParts u b f) (modSlot_safeParts _ (16 + b) g)
    exact changesOnly_ite (changesOnly_refl _ s)
      (changesOnly_ite (changesOnly_trans (hmoved s _ _) (forceSet_changesOnly _ _ _)) (hmoved s _ _))
  · exact changesOnly_refl _ s

theorem servoStitch_changesOnly (b : Nat) : s.changesOnly safeParts (servoStitch s b) := by
  have hjumps (u : State) := changesOnly_trans (runJump_changesOnly u b) (runTrackJump_changesOnly _ b)
  have hheld (u : State) (p q : Prop) [Decidable p] [Decidable q] : u.changesOnly safeParts
      (if p then holdFocus u b true else if q then holdFocus u b false else u) :=
    changesOnly_ite (holdSlots_changesOnly u _ _) (changesOnly_ite (holdSlots_changesOnly u _ _) (changesOnly_refl _ u))
  have hsettled (u : State) (p : Prop) [Decidable p] : u.changesOnly safeParts (if p then
      normTracking ((u.forceSet (16 + b) 8).modServo b fun v => { v with trackSettling := false, settled := 0 }) b else u) :=
    changesOnly_ite (changesOnly_trans (forceSet_changesOnly u _ _) (changesOnly_trans (modServo_safeParts _ b _)
      (normTracking_changesOnly _ b))) (changesOnly_refl _ u)
  have htilt (u : State) (o : Option Nat) : u.changesOnly safeParts (match o with
      | some t => if t + 200 ≤ s.now then (u.forceSet (32 + b) 8).modServo b fun v => { v with tiltAcq := none } else u
      | none => u) := by
    split
    · exact changesOnly_ite (changesOnly_trans (forceSet_changesOnly u _ _) (modServo_safeParts _ b _)) (changesOnly_refl _ u)
    · exact changesOnly_refl _ u
  have hsweep (u : State) (p : Prop) [Decidable p] (f : GSlot → GSlot) : u.changesOnly safeParts (if p then u.modSlot b f else u) :=
    changesOnly_ite (modSlot_safeParts u b f) (changesOnly_refl _ u)
  have hramp (u : State) (p : Prop) [Decidable p] (l : List Nat) (f : GSlot → GSlot) : u.changesOnly safeParts
      (if p then l.foldl (fun a i => a.modSlot i f) u else u) := changesOnly_ite (holdSlots_changesOnly u l f) (changesOnly_refl _ u)
  unfold servoStitch
  exact changesOnly_trans (modServo_safeParts s b _) (changesOnly_trans (hsweep _ _ _) (changesOnly_trans (hjumps _)
    (changesOnly_trans (hheld _ _ _) (changesOnly_trans (hsettled _ _) (changesOnly_trans (htilt _ _) (hramp _ _ _ _))))))

theorem lasersOn_changesOnly (b l : Nat) : s.changesOnly safeParts (lasersOn s b l) :=
  changesOnly_trans (changesOnly_ite (changesOnly_refl _ s) (changesOnly_foldl _ (fun u i => girthWrite_changesOnly u _ i _) _ s))
    (modBay_safeParts _ b _)

theorem enterFocus_changesOnly (b n : Nat) : s.changesOnly safeParts (enterFocus s b n) :=
  changesOnly_trans (modBay_safeParts s b _) (changesOnly_trans (holdSlots_changesOnly _ _ _)
    (changesOnly_trans (holdSlots_changesOnly _ _ _) (changesOnly_trans (lasersOn_changesOnly _ b 0) (forceSet_changesOnly _ b 8))))

theorem motionSample_changesOnly (m : MotionSample) : s.changesOnly safeParts (motionSample s m) := by
  unfold motionSample
  exact changesOnly_ite (changesOnly_refl _ s) (changesOnly_trans (modBay_safeParts s _ _) (changesOnly_trans (modBay_safeParts _ _ _)
    (changesOnly_trans (modSlot_safeParts _ _ _) (modBay_safeParts _ _ _))))

/-! ## The link at the boundary (R213, R214) -/

theorem sendLane_safeParts (b : BayId) (n : Fin 2) (l : List LaneBlock) : s.changesOnly safeParts (s.sendLane b n l) :=
  changesOnly_mono (sendLane_changesOnly s b n l) (by simp)

theorem idleLanes_changesOnly (b : BayId) (n : Nat) : s.changesOnly [.sent, .bays] (s.idleLanes b n) :=
  changesOnly_trans (sendLane_changesOnly s b 0 _) (sendLane_changesOnly _ b 1 _)

theorem failTraining_changesOnly (b : Nat) : s.changesOnly safeParts (failTraining s b) := by
  unfold failTraining
  exact changesOnly_trans (modBay_safeParts s b _) (changesOnly_ite (changesOnly_trans (modBay_safeParts _ b _)
    (changesOnly_ite (bayLogFree_safeParts _ b _) (enterSafe_changesOnly _ b _)))
    (changesOnly_mono (startTraining_changesOnly _ b) (by simp)))

theorem judgeEchoes_changesOnly (b : Nat) : s.changesOnly safeParts (judgeEchoes s b) :=
  changesOnly_ite (failTraining_changesOnly s b) (modBay_safeParts s b _)

theorem weltStitch_changesOnly (b : BayId) : s.changesOnly safeParts (weltStitch s b) := by
  have hidle : s.changesOnly safeParts (if (s.bay b).welt.phase = .off ∨ (s.bay b).welt.phase = .dead then s
      else s.idleLanes b (blocksAt s.now 0)) :=
    changesOnly_ite (changesOnly_refl _ s) (changesOnly_mono (idleLanes_changesOnly s b _) (by simp))
  unfold weltStitch
  dsimp only
  split
  · exact changesOnly_trans hidle (changesOnly_ite (changesOnly_trans (sendLane_safeParts _ b 0 _) (modBay_safeParts _ _ _))
      (judgeEchoes_changesOnly _ b.val))
  · exact changesOnly_trans hidle (sendLane_safeParts _ b 0 _)
  · exact hidle

theorem sledBoundary_changesOnly (b : Nat) : s.changesOnly safeParts (sledBoundary s b) := modBay_safeParts s b _

theorem idleCount_changesOnly (b : Nat) : s.changesOnly safeParts (idleCount s b) := modBay_safeParts s b _

theorem followCode_changesOnly (b : Nat) : s.changesOnly safeParts (followCode s b) :=
  changesOnly_ite (changesOnly_refl _ s) (girthWrite_changesOnly s _ _ _)

/-- The last step takes the settled bay as any state: only whether its SPINUP has ended matters to it. -/
theorem bayStitch_changesOnly (b : BayId) : s.changesOnly safeParts (bayStitch s b) := by
  have hsettled : s.changesOnly safeParts
      (settleBay (idleCount (followCode (weltStitch (servoStitch (sledBoundary s b) b) b) b) b) b) :=
    changesOnly_trans (sledBoundary_changesOnly s b) (changesOnly_trans (servoStitch_changesOnly _ b)
      (changesOnly_trans (weltStitch_changesOnly _ b) (changesOnly_trans (followCode_changesOnly _ b)
        (changesOnly_trans (idleCount_changesOnly _ b) (changesOnly_mono (settleBay_changesOnly _ b) (by simp))))))
  unfold bayStitch
  dsimp only
  generalize settleBay _ b = u at hsettled ⊢
  exact changesOnly_trans hsettled (changesOnly_ite (enterFocus_changesOnly _ b _) (changesOnly_refl _ _))

/-! ## The whole boundary (R203, R500) -/

/-- What a boundary does after the memory system's stitch and before BOOT may follow. -/
def motionStitch (ms : List MotionSample) (s : State) : State :=
  let s1 := ms.foldl motionSample { s with pat := s.pat.settle [.stitch] }
  if s1.powered 18 then bayIds.foldl bayStitch s1 else s1

theorem motionStitch_changesOnly (ms : List MotionSample) : s.changesOnly safeParts (motionStitch ms s) := by
  have hbays (u : State) : u.changesOnly safeParts (bayIds.foldl bayStitch u) := changesOnly_foldl _ bayStitch_changesOnly _ u
  exact changesOnly_trans (changesOnly_trans (withPat_safeParts s _) (changesOnly_foldl _ motionSample_changesOnly ms _))
    (changesOnly_ite (hbays _) (changesOnly_refl _ _))

theorem exec_stitchBoundary {s : State} (hs : s.aon.supply = true) (hr : s.aon.refSys = true) (ms : List MotionSample) (m : MemStitch) :
    exec (.stitchBoundary ms m) s = .next (tryBoot (motionStitch ms (memStitch m (girthBoundary s.tick)))) := by
  change execStitchBoundary ms m s = _
  simp [execStitchBoundary, hs, hr, motionStitch]

theorem exec_stitchBoundary_stands {s : State} (h : s.aon.supply = false ∨ s.aon.refSys = false) (ms : List MotionSample) (m : MemStitch) :
    exec (.stitchBoundary ms m) s = .next s := if_pos h

theorem cacheEnable_changesOnly : s.changesOnly [.mem] (cacheEnable s) := by
  unfold cacheEnable
  exact changesOnly_trans (changesOnly_trans (changesOnly_trans (changesOnly_trans (modCache_changesOnly s _ _)
    (modCache_changesOnly _ _ _)) (modCache_changesOnly _ _ _)) (modCache_changesOnly _ _ _)) (modCache_changesOnly _ _ _)

theorem tryBoot_keepsTime : KeepsTime s (tryBoot s) := by
  have hboot (u : State) (m : Memory) : KeepsTime u { u.powerOn [1, 5, 6] with mode := .boot, mgmt := {}, mem := m } := ⟨rfl, rfl⟩
  exact keepsTime_ite (keepsTime_trans (hboot s _) (keepsTime_of_changesOnly (cacheEnable_changesOnly _) (by simp))) (keepsTime_refl s)

/-- A boundary's work leaves STITCH64 where the tick put it. -/
theorem boundaryWork_keepsTime (ms : List MotionSample) (m : MemStitch) :
    KeepsTime s (tryBoot (motionStitch ms (memStitch m (girthBoundary s)))) :=
  keepsTime_trans (keepsTime_of_changesOnly (girthBoundary_changesOnly s) (by simp)) (keepsTime_trans (memStitch_keepsTime _ m)
    (keepsTime_trans (keepsTime_of_changesOnly (motionStitch_changesOnly _ ms) (by simp)) (tryBoot_keepsTime _)))

end

/-! ## The timebase registers (R206) -/

/-- STITCH64 is its two halves. -/
theorem stitch_halves (n : BitVec 64) : (n.extractLsb' 32 32).toNat * 2 ^ 32 + (n.extractLsb' 0 32).toNat = n.toNat := by
  simp only [BitVec.extractLsb'_toNat]
  omega

/-- A reset that the MCTP master asks for leaves STITCH64 and its latch. -/
theorem exec_reset_keepsTime (i : Byte) (s : State) : completes (.reset i) s fun t => KeepsTime s t := by
  have hexec : exec (.reset i) s = execReset i s := rfl
  have hanswer (cc : Nat) : KeepsTime s (mctpAnswer s 0x12 i cc []) := keepsTime_of_changesOnly (send_changesOnly s _) (by simp)
  by_cases hs : s.aon.supply = false
  · exact ⟨s, by rw [hexec, execReset, if_pos hs], keepsTime_refl s⟩
  · by_cases hm : s.mode = .dark
    · exact ⟨_, by rw [hexec, execReset, if_neg hs, if_pos hm], hanswer 2⟩
    · exact ⟨_, by rw [hexec, execReset, if_neg hs, if_neg hm], keepsTime_trans (hanswer 0) (enterReset_keepsTime _ 2)⟩

/-- Settles O4: a boundary's work changes the counter by its tick alone, and never the latch. -/
theorem stitchRegistersReadOneConsistentTime : Obligations.StitchRegistersReadOneConsistentTime := by
  unfold Obligations.StitchRegistersReadOneConsistentTime
  refine ⟨?latches, fun _ => rfl, ?boundary, fun _ => rfl, ?readOnly, ?reset⟩
  case latches =>
    intro s
    exact ⟨_, rfl, stitch_halves s.aon.stitch, rfl, changesOnly_of_agrees (by rintro ⟨⟩ <;> simp [State.agrees])⟩
  case boundary =>
    intro ms m s
    by_cases hs : s.aon.supply = false ∨ s.aon.refSys = false
    · exact ⟨s, exec_stitchBoundary_stands hs ms m, rfl⟩
    · simp only [not_or, Bool.not_eq_false] at hs
      obtain ⟨hsupply, href⟩ := hs
      exact ⟨_, exec_stitchBoundary hsupply href ms m, (boundaryWork_keepsTime s.tick ms m).latched⟩
  case readOnly =>
    intro r w s hr
    simp only [List.mem_cons, List.not_mem_nil, or_false] at hr
    rcases hr with rfl | rfl | rfl <;> rfl
  case reset =>
    intro i s
    obtain ⟨t, hexec, ht⟩ := exec_reset_keepsTime i s
    exact ⟨t, hexec, ht.stitch, ht.latched⟩

end Sys2Proof.Proofs
end

section
/-! SUPPORT. What a span boundary does beside the values that come into force: the bucket, the FEC counts, the loopback self-test and
the links' counts (R204, R224, R322, R349, R395, R467). -/

namespace Sys2Proof.Proofs

open Sys2Proof Sys2Proof.Machine Sys2Proof.Laws

section
variable (s : State)

/-! ## A stitch boundary with no traffic in memory (R203) -/

theorem overrunHold_of_not_due {s : State} {b : Nat} (h : (s.bay b).overrunDue = false) : overrunHold s b = s :=
  if_neg (Bool.eq_false_iff.1 h)

/-- With no overrun due Girth's boundary holds no bay. -/
theorem girthBoundary_of_none_due {s : State} (h : ∀ b, b < 16 → (s.bay b).overrunDue = false) : girthBoundary s = girthSettled s := by
  obtain ⟨u, hu, hv⟩ := girthSettled_changesOnly s
  have hbay (b : Nat) : (girthSettled s).bay b = s.bay b :=
    bay_eq_of_bays_eq ((hv .bays (by simp)).trans (hu .bays (by simp))) b
  refine List.foldlRecOn (motive := (· = girthSettled s)) allBays overrunHold rfl fun t ht b hb => ?_
  rw [ht, overrunHold_of_not_due]
  rw [hbay]
  exact h b (List.mem_range.1 hb)

theorem girthSettled_pat : (girthSettled s).pat = s.pat.settle [.girth] := by
  obtain ⟨u, hu, hv⟩ := girthSettled_changesOnly s
  have hpat : u.pat = s.pat := hu .pat (by simp)
  exact (hv .pat (by simp)).trans (congrArg (·.settle [.girth]) hpat)

/-- Without PD18 a boundary brings values of the stitch into force and samples no motion. -/
theorem motionStitch_unpowered {s : State} (h : s.powered 18 = false) (ms : List MotionSample) :
    motionStitch ms s = { s with pat := s.pat.settle [.stitch] } := by
  have hnone : ms.foldl motionSample { s with pat := s.pat.settle [.stitch] } = { s with pat := s.pat.settle [.stitch] } :=
    List.foldlRecOn (motive := (· = { s with pat := s.pat.settle [.stitch] })) ms motionSample rfl fun t ht m _ => by
      rw [ht]
      exact if_pos h
  unfold motionStitch
  dsimp only
  rw [hnone]
  exact if_neg (Bool.eq_false_iff.1 h)

theorem tryBoot_of_not_reset {s : State} (h : s.mode ≠ .reset) : tryBoot s = s := by
  simp [tryBoot, bootReady, h]

theorem enterBoot_mode : (enterBoot s).mode = .boot := cacheEnable_changesOnly _ .mode (by simp)

/-- From RESET nothing but BOOT follows. -/
theorem tryBoot_mode_of_reset {s : State} (h : s.mode = .reset) : (tryBoot s).mode = .reset ∨ (tryBoot s).mode = .boot := by
  unfold tryBoot
  split
  · exact Or.inr (enterBoot_mode s)
  · exact Or.inl h

section
variable {s : State} {m : MemStitch} (h0 : m.issue0 = 0) (h1 : m.issue1 = 0) (hnew : m.accesses = []) (hwait : s.mem.waiting = [])
include h0 h1 hnew hwait

/-- The memory system's quiet stitch after Girth's part. -/
theorem quietStitch_cachesMove : CachesMove (girthBoundary s.tick) (memStitch m (girthBoundary s.tick)) :=
  memStitch_cachesMove _ h0 h1 hnew (by rw [girthBoundary_changesOnly s.tick .mem (by simp)]; exact hwait)

theorem quietBoundary_changesOnly (ms : List MotionSample) :
    s.tick.changesOnly (.mem :: safeParts) (motionStitch ms (memStitch m (girthBoundary s.tick))) :=
  changesOnly_trans (changesOnly_mono (girthBoundary_changesOnly s.tick) (by simp))
    (changesOnly_trans (changesOnly_mono (quietStitch_cachesMove h0 h1 hnew hwait).only (by simp))
      (changesOnly_mono (motionStitch_changesOnly _ ms) (by simp)))

theorem quietBoundary_pat (hpd : s.powered 18 = false) (hnone : ∀ b, b < 16 → (s.bay b).overrunDue = false) (ms : List MotionSample) :
    (motionStitch ms (memStitch m (girthBoundary s.tick))).pat = (s.pat.settle [.girth]).settle [.stitch] := by
  have hmem := (quietStitch_cachesMove h0 h1 hnew hwait).only
  have haon : (memStitch m (girthBoundary s.tick)).aon = s.tick.aon :=
    (hmem .aon (by simp)).trans (girthBoundary_changesOnly s.tick .aon (by simp))
  have hoff : (memStitch m (girthBoundary s.tick)).powered 18 = false := by
    rw [State.powered, haon]
    exact hpd
  have hgirth : (girthBoundary s.tick).pat = s.pat.settle [.girth] := by
    rw [girthBoundary_of_none_due (s := s.tick) hnone]
    exact girthSettled_pat s.tick
  have hpat : (memStitch m (girthBoundary s.tick)).pat = s.pat.settle [.girth] := (hmem .pat (by simp)).trans hgirth
  rw [motionStitch_unpowered hoff]
  exact congrArg (·.settle [.stitch]) hpat

end

/-! ## The tasks of a span (R204) -/

/-- The parts that a span's tasks of power and memory touch, and those that its tasks touch before those of the links. -/
abbrev powerParts : List Part := [.mode, .mgmt, .events, .logs, .freeCtr, .eave, .mem]
abbrev taskParts : List Part := [.mode, .mgmt, .events, .logs, .freeCtr, .eave, .mem, .ring, .sent]

theorem dramSpan_changesOnly (c n : Nat) (d : Int) : s.changesOnly [.mem] (dramSpan s c n d) := modChanD_changesOnly s c _

theorem bucketSpan_changesOnly (p i : Nat) : s.changesOnly powerParts (bucketSpan s p i) := by
  have heave (u : State) (e : Eave) : u.changesOnly powerParts { u with eave := e } := changesOnly_mono (withEave_changesOnly u e) (by simp)
  have hcause (u : State) (k x g : Nat) : u.changesOnly powerParts (u.thermLog k x g).constrain :=
    changesOnly_trans (changesOnly_mono (thermLog_changesOnly u k x g) (by simp)) (changesOnly_mono (constrain_changesOnly _) (by simp))
  unfold bucketSpan
  exact changesOnly_ite (changesOnly_ite (changesOnly_trans (heave s _) (hcause _ _ _ _)) (heave s _))
    (changesOnly_ite (changesOnly_trans (heave s _) (hcause _ _ _ _)) (heave s _))

/-- What the cause of CONSTRAINED brings leaves the power unit. -/
theorem thermConstrain_eave (k x g : Nat) : (s.thermLog k x g).constrain.eave = s.eave :=
  (constrain_changesOnly _ .eave (by simp)).trans (thermLog_changesOnly s k x g .eave (by simp))

theorem bucketSpan_eave (p i : Nat) : (bucketSpan s p i).eave.power = p ∧ (bucketSpan s p i).eave.codedInput = i ∧
    (bucketSpan s p i).eave.bucket = bucketNext s.eave.bucket p := by
  unfold bucketSpan
  dsimp only
  split
  · split
    · rw [thermConstrain_eave]
      exact ⟨rfl, rfl, rfl⟩
    · exact ⟨rfl, rfl, rfl⟩
  · split
    · rw [thermConstrain_eave]
      exact ⟨rfl, rfl, rfl⟩
    · exact ⟨rfl, rfl, rfl⟩

/-- A bay's group or the governor can constrain an engine that is ACTIVE, and no other. -/
theorem constrain_mode {s : State} (h : s.mode ≠ .active) : s.constrain.mode = s.mode := by
  unfold State.constrain
  dsimp only
  split
  · rfl
  · split <;> rfl

theorem bucketSpan_mode {s : State} (h : s.mode ≠ .active) (p i : Nat) : (bucketSpan s p i).mode = s.mode := by
  have hcause (u : State) (k x g : Nat) (hu : u.mode = s.mode) : (u.thermLog k x g).constrain.mode = s.mode := by
    have hlog : (u.thermLog k x g).mode = s.mode := (thermLog_changesOnly u k x g .mode (by simp)).trans hu
    rw [constrain_mode (by rw [hlog]; exact h), hlog]
  unfold bucketSpan
  dsimp only
  split
  · split
    · exact hcause _ _ _ _ rfl
    · rfl
  · split
    · exact hcause _ _ _ _ rfl
    · rfl

/-- MR4 is a matter of the channels, of what the governor knows of them, and of one entry of the thermal log. -/
theorem mr4Span_changesOnly (a b : Nat) (x y : Int) : s.changesOnly [.mem, .eave, .logs, .events] (mr4Span s a b x y) := by
  unfold mr4Span
  exact changesOnly_trans (changesOnly_trans (changesOnly_mono (dramSpan_changesOnly s 0 a x) (by simp))
    (changesOnly_mono (dramSpan_changesOnly _ 1 b y) (by simp))) (changesOnly_trans (changesOnly_mono (withEave_changesOnly _ _) (by simp))
      (changesOnly_ite (changesOnly_mono (thermLog_changesOnly _ _ _ _) (by simp)) (changesOnly_refl _ _)))

theorem mr4Span_eave (a b : Nat) (x y : Int) : ∃ p, (mr4Span s a b x y).eave = { s.eave with dramHot := p } := by
  have hdram : (dramSpan (dramSpan s 0 a x) 1 b y).eave = s.eave :=
    (dramSpan_changesOnly _ 1 b y .eave (by simp)).trans (dramSpan_changesOnly s 0 a x .eave (by simp))
  unfold mr4Span
  dsimp only
  rw [hdram]
  split
  · rw [thermLog_changesOnly _ _ _ _ .eave (by simp)]
    exact ⟨_, rfl⟩
  · exact ⟨_, rfl⟩

/-! ## The ring's tasks (R340, R342, R349) -/

/-- The ports have counted no further uncorrectable codeword. -/
def KeepsFec (s t : State) : Prop := ∀ p, (t.port p).fecUncorr = (s.port p).fecUncorr

theorem keepsFec_refl : KeepsFec s s := fun _ => rfl

variable {s} in
theorem keepsFec_trans {t u : State} (h : KeepsFec s t) (g : KeepsFec t u) : KeepsFec s u := fun p => (g p).trans (h p)

variable {s} in
theorem keepsFec_of_ring_eq {t : State} (h : t.ring = s.ring) : KeepsFec s t
  | .east => congrArg (fun r => r.east.fecUncorr) h
  | .west => congrArg (fun r => r.west.fecUncorr) h

variable {s} in
theorem keepsFec_ite {t u : State} {p : Prop} [Decidable p] (h : KeepsFec s t) (g : KeepsFec s u) : KeepsFec s (if p then t else u) := by
  split
  · exact h
  · exact g

theorem keepsFec_foldl {α : Type} (f : State → α → State) (h : ∀ s a, KeepsFec s (f s a)) (l : List α) : KeepsFec s (l.foldl f s) :=
  List.foldlRecOn l f (keepsFec_refl s) fun t ht a _ => keepsFec_trans ht (h t a)

theorem modPort_keepsFec (p : Port) {f : PortState → PortState} (hf : ∀ x, (f x).fecUncorr = x.fecUncorr) : KeepsFec s (s.modPort p f) := by
  intro q
  by_cases h : q = p
  · rw [h, modPort_port_same]
    exact hf _
  · rw [modPort_port_other s f h]

theorem modPrio_fecUncorr (x : PortState) (n : Nat) (f : PrioState → PrioState) : (x.modPrio n f).fecUncorr = x.fecUncorr := by
  unfold PortState.modPrio
  split_ifs <;> rfl

theorem ownEgress_keepsFec (p : Port) (f : TxFrame) : KeepsFec s (ownEgress s p f) :=
  keepsFec_ite (keepsFec_of_ring_eq rfl) (modPort_keepsFec s p fun x => modPrio_fecUncorr x _ _)

theorem ownLeave_keepsFec (p : Port) (f : TxFrame) : KeepsFec s (ownLeave s p f) :=
  keepsFec_ite (keepsFec_ite (keepsFec_refl s) (ownEgress_keepsFec s p f))
    (keepsFec_ite (keepsFec_ite (modPort_keepsFec s p fun _ => rfl) (ownEgress_keepsFec s _ _)) (ownEgress_keepsFec s p f))

theorem sendRingEvent_keepsFec (e : RingEvent) : KeepsFec s (sendRingEvent s e) := by
  refine keepsFec_foldl s _ (fun u g => ?_) _
  split
  next t ht =>
    obtain ⟨p, -, rfl⟩ := Option.map_eq_some_iff.1 ht
    exact ownLeave_keepsFec u p _
  · exact keepsFec_refl u

theorem sendRingEvent_changesOnly (e : RingEvent) : s.changesOnly [.ring, .sent] (sendRingEvent s e) := by
  refine changesOnly_foldl _ (fun u g => ?_) _ s
  split
  next t ht => exact originate_changesOnly ht
  · exact changesOnly_refl _ u

theorem heartbeat_keepsFec (p : Port) : KeepsFec s (sendHeartbeat s p) :=
  keepsFec_trans (ownEgress_keepsFec s p _) (modPort_keepsFec _ p fun _ => rfl)

theorem missSpan_keepsFec (p : Port) : KeepsFec s (missSpan s p) :=
  modPort_keepsFec s p fun x => by split <;> rfl

theorem ringTasks_keepsFec : KeepsFec s (ringEventSpan (heartbeatSpan s)) := by
  have hevents (u : State) : KeepsFec u (ringEventSpan u) := by
    unfold ringEventSpan
    exact keepsFec_ite (keepsFec_trans (keepsFec_foldl u _ sendRingEvent_keepsFec _) fun p => by cases p <;> rfl) (keepsFec_refl u)
  exact keepsFec_trans (keepsFec_ite (keepsFec_trans (heartbeat_keepsFec s .east) (keepsFec_trans (heartbeat_keepsFec _ .west)
    (keepsFec_trans (missSpan_keepsFec _ .east) (missSpan_keepsFec _ .west)))) (keepsFec_refl s)) (hevents _)

theorem ringTasks_changesOnly : s.changesOnly [.ring, .sent] (ringEventSpan (heartbeatSpan s)) := by
  have hport (u : State) (p : Port) (f : PortState → PortState) : u.changesOnly [.ring, .sent] (u.modPort p f) :=
    changesOnly_mono (modPort_changesOnly u p f) (by simp)
  have hbeat (u : State) (p : Port) : u.changesOnly [.ring, .sent] (sendHeartbeat u p) :=
    changesOnly_trans (ownEgress_changesOnly u p _) (hport _ p _)
  have hbeats (u : State) : u.changesOnly [.ring, .sent] (heartbeatSpan u) :=
    changesOnly_ite (changesOnly_trans (hbeat u .east) (changesOnly_trans (hbeat _ .west)
      (changesOnly_trans (hport _ .east _) (hport _ .west _)))) (changesOnly_refl _ u)
  have hevents (u : State) : u.changesOnly [.ring, .sent] (ringEventSpan u) := by
    unfold ringEventSpan
    exact changesOnly_ite (changesOnly_trans (changesOnly_foldl _ sendRingEvent_changesOnly _ u)
      (changesOnly_mono (withRing_changesOnly _ _) (by simp))) (changesOnly_refl _ u)
  exact changesOnly_trans (hbeats s) (hevents _)

/-- An untapped engine sends no heartbeat and no ring event. -/
theorem ringTasks_untapped {s : State} (h : s.ring.tapped = false) : ringEventSpan (heartbeatSpan s) = s := by
  have hbeat : heartbeatSpan s = s := if_neg (by simp [State.tapped, h])
  rw [hbeat]
  exact if_neg (by simp [State.tapped, h])

theorem fecSpan_changesOnly (p : Port) (n : Nat) : s.changesOnly [.ring] (fecSpan s p n) :=
  changesOnly_ite (modPort_changesOnly s p _) (changesOnly_refl _ s)

/-- Both ports' counts after the span, each if its port has power. -/
def fecSpans (s : State) (e w : Nat) : State := fecSpan (fecSpan s .east e) .west w

theorem fecSpans_changesOnly (e w : Nat) : s.changesOnly [.ring] (fecSpans s e w) :=
  changesOnly_trans (fecSpan_changesOnly s .east e) (fecSpan_changesOnly _ .west w)

theorem fecSpans_ports (e w : Nat) :
    (fecSpans s e w).ring.east = (if s.powered Port.east.domain then
      { s.ring.east with fecUncorr := min 255 (s.ring.east.fecUncorr + e) } else s.ring.east) ∧
    (fecSpans s e w).ring.west = (if s.powered Port.west.domain then
      { s.ring.west with fecUncorr := min 255 (s.ring.west.fecUncorr + w) } else s.ring.west) ∧
    (fecSpans s e w).ring.tapped = s.ring.tapped := by
  have hpd : (fecSpan s .east e).powered Port.west.domain = s.powered Port.west.domain := by
    rw [State.powered, fecSpan_changesOnly s .east e .aon (by simp)]
    rfl
  unfold fecSpans fecSpan at hpd ⊢
  rw [hpd]
  by_cases he : s.powered Port.east.domain = true <;> by_cases hw : s.powered Port.west.domain = true <;>
    simp [he, hw, State.modPort]

theorem selfTestSpan_changesOnly (e w : Nat) : s.changesOnly [.mgmt] (selfTestSpan s e w) :=
  changesOnly_ite (withMgmt_changesOnly s _) (changesOnly_refl _ s)

/-! ## The links' tasks (R213, R224, R225) -/

theorem weltEnable_changesOnly (b : Nat) : s.changesOnly safeParts (weltEnable s b) := by
  unfold weltEnable
  exact changesOnly_ite (changesOnly_refl _ s) (changesOnly_ite (changesOnly_trans (modBay_safeParts s b _)
    (changesOnly_mono (startTraining_changesOnly _ b) (by simp))) (changesOnly_trans (enterSafe_changesOnly s b _) (modBay_safeParts _ b _)))

theorem weltEnable_onlyBay (b : Nat) : s.onlyBay b (weltEnable s b) := by
  unfold weltEnable
  dsimp only
  split
  · exact onlyBay_of_bays_eq b rfl
  · split
    · exact onlyBay_trans (modBay_onlyBay s b _) (modBay_onlyBay _ b _)
    · exact onlyBay_trans (enterSafe_stopsBay s b _).others (modBay_onlyBay _ b _)

theorem weltSpan_changesOnly (b : Nat) : s.changesOnly safeParts (weltSpan s b) :=
  changesOnly_trans (weltEnable_changesOnly s b) (modBay_safeParts _ b _)

theorem weltSpan_onlyBay (b : Nat) : s.onlyBay b (weltSpan s b) :=
  onlyBay_trans (weltEnable_onlyBay s b) (modBay_onlyBay _ b _)

theorem weltSpan_spanMissing (b : Nat) : ((weltSpan s b).bay b).welt.spanMissing = 0 := by
  rw [weltSpan, modWelt_welt]

/-- Without PD19 the links' tasks of a span touch the bays alone. -/
theorem weltSpans_unpowered {s : State} (h : s.powered 19 = false) (l : List Nat) : s.changesOnly [.bays] (l.foldl weltSpan s) := by
  refine List.foldlRecOn (motive := s.changesOnly [.bays]) l weltSpan (changesOnly_refl _ s) fun t ht b _ => changesOnly_trans ht ?_
  have haon : t.aon = s.aon := ht .aon (by simp)
  have hoff : t.powered 19 = false := by rw [State.powered, haon]; exact h
  rw [weltSpan, show weltEnable t b = t from if_pos (Or.inl hoff)]
  exact modBay_changesOnly t b _

/-- Work on one bay after the other, of which each leaves the other bays, leaves the bays that are not in the list. -/
theorem foldl_bay_of_not_mem {f : State → Nat → State} (hf : ∀ (s : State) (b : Nat), s.onlyBay b (f s b)) {l : List Nat} {n : Nat} (hn : n ∉ l) :
    (l.foldl f s).bay n = s.bay n :=
  List.foldlRecOn (motive := fun t => t.bay n = s.bay n) l f rfl fun t ht b hb => (hf t b n fun h => hn (h ▸ hb)).trans ht

/-- Work on one bay after the other, of which each leaves the other bays, gives each bay of the list what its own work gives it. -/
theorem foldl_bay_of_mem {f : State → Nat → State} (hf : ∀ (s : State) (b : Nat), s.onlyBay b (f s b)) {P : Bay → Prop} {n : Nat}
    (hP : ∀ s, P ((f s n).bay n)) {l : List Nat} (hn : n ∈ l) : P ((l.foldl f s).bay n) := by
  induction l generalizing s with
  | nil => exact absurd hn List.not_mem_nil
  | cons a r ih =>
    by_cases hr : n ∈ r
    · exact ih _ hr
    · obtain rfl : n = a := (List.mem_cons.1 hn).resolve_right hr
      rw [List.foldl_cons, foldl_bay_of_not_mem _ hf hr]
      exact hP s

end

/-! ## The whole span boundary -/

section
variable (p i : Nat) (a b : Fin 5) (x y : Int) (e w : Nat) (s : State)

/-- The tasks before those of the ring's ports: the bucket, MR4 and the caches' enables. -/
def powerSpan : State :=
  let t := mr4Span (bucketSpan { s with pat := s.pat.settle [.span] } p i) a.val b.val x y
  if t.powered 1 then cacheEnable t else t

/-- The tasks before those of the links. -/
def spanTasks : State := selfTestSpan (fecSpans (ringEventSpan (heartbeatSpan (powerSpan p i a b x y s))) e w) e w

theorem exec_spanBoundary {s : State} (hs : s.aon.supply = true) (hr : s.aon.refSys = true) (hnow : s.now % 200 = 0) :
    exec (.spanBoundary p i a b x y e w) s = .next (allBays.foldl weltSpan (spanTasks p i a b x y e w s)) := by
  change execSpanBoundary p i a b x y e w s = _
  rw [execSpanBoundary, if_neg (by simp [hs, hr, hnow])]
  rfl

theorem powerSpan_changesOnly :
    ({ s with pat := s.pat.settle [.span] } : State).changesOnly powerParts (powerSpan p i a b x y s) :=
  changesOnly_trans (changesOnly_trans (bucketSpan_changesOnly _ p i) (changesOnly_mono (mr4Span_changesOnly _ _ _ x y) (by simp)))
    (changesOnly_ite (changesOnly_mono (cacheEnable_changesOnly _) (by simp)) (changesOnly_refl _ _))

theorem powerSpan_eave : (powerSpan p i a b x y s).eave.power = p ∧ (powerSpan p i a b x y s).eave.codedInput = i ∧
    (powerSpan p i a b x y s).eave.bucket = bucketNext s.eave.bucket p := by
  obtain ⟨hpower, hinput, hbucket⟩ := bucketSpan_eave { s with pat := s.pat.settle [.span] } p i
  obtain ⟨hot, hmr4⟩ := mr4Span_eave (bucketSpan { s with pat := s.pat.settle [.span] } p i) a b x y
  have hcaches (t : State) : (if t.powered 1 then cacheEnable t else t).eave = t.eave :=
    changesOnly_ite (cacheEnable_changesOnly t) (changesOnly_refl _ t) .eave (by simp)
  unfold powerSpan
  dsimp only
  rw [hcaches, hmr4]
  exact ⟨hpower, hinput, hbucket⟩

theorem powerSpan_mode {s : State} (h : s.mode ≠ .active) : (powerSpan p i a b x y s).mode = s.mode := by
  have hcaches (t : State) : (if t.powered 1 then cacheEnable t else t).mode = t.mode :=
    changesOnly_ite (cacheEnable_changesOnly t) (changesOnly_refl _ t) .mode (by simp)
  unfold powerSpan
  dsimp only
  rw [hcaches, mr4Span_changesOnly _ _ _ x y .mode (by simp)]
  exact bucketSpan_mode (s := { s with pat := s.pat.settle [.span] }) h p i

/-- After the tasks of the ring. -/
def ringSpan : State := ringEventSpan (heartbeatSpan (powerSpan p i a b x y s))

theorem ringSpan_aon : (ringSpan p i a b x y s).aon = s.aon :=
  (ringTasks_changesOnly _ .aon (by simp)).trans (powerSpan_changesOnly p i a b x y s .aon (by simp))

theorem ringSpan_keepsFec : KeepsFec s (ringSpan p i a b x y s) :=
  keepsFec_trans (keepsFec_of_ring_eq (powerSpan_changesOnly p i a b x y s .ring (by simp))) (ringTasks_keepsFec _)

theorem ringSpan_untapped {s : State} (h : s.ring.tapped = false) : ringSpan p i a b x y s = powerSpan p i a b x y s :=
  ringTasks_untapped (by rw [powerSpan_changesOnly p i a b x y s .ring (by simp)]; exact h)

/-- The tasks of FEC and self-test after those of the ring. -/
theorem spanTasks_ringSpan_changesOnly : (ringSpan p i a b x y s).changesOnly [.ring, .mgmt] (spanTasks p i a b x y e w s) :=
  changesOnly_trans (changesOnly_mono (fecSpans_changesOnly _ e w) (by simp)) (changesOnly_mono (selfTestSpan_changesOnly _ e w) (by simp))

theorem spanTasks_changesOnly :
    ({ s with pat := s.pat.settle [.span] } : State).changesOnly taskParts (spanTasks p i a b x y e w s) :=
  changesOnly_trans (changesOnly_mono (powerSpan_changesOnly p i a b x y s) (by simp))
    (changesOnly_trans (changesOnly_mono (ringTasks_changesOnly _) (by simp))
      (changesOnly_mono (spanTasks_ringSpan_changesOnly p i a b x y e w s) (by simp)))

theorem spanTasks_eave : (spanTasks p i a b x y e w s).eave = (powerSpan p i a b x y s).eave :=
  (spanTasks_ringSpan_changesOnly p i a b x y e w s .eave (by simp)).trans (ringTasks_changesOnly _ .eave (by simp))

theorem spanTasks_ring : (spanTasks p i a b x y e w s).ring = (fecSpans (ringSpan p i a b x y s) e w).ring :=
  selfTestSpan_changesOnly _ e w .ring (by simp)

/-- A port with power counts the uncorrectable codewords that it has met (R349). -/
theorem spanTasks_fec :
    (s.powered Port.east.domain = true →
      (spanTasks p i a b x y e w s).ring.east.fecUncorr = min 255 (s.ring.east.fecUncorr + e)) ∧
    (s.powered Port.west.domain = true →
      (spanTasks p i a b x y e w s).ring.west.fecUncorr = min 255 (s.ring.west.fecUncorr + w)) := by
  obtain ⟨heast, hwest, -⟩ := fecSpans_ports (ringSpan p i a b x y s) e w
  have hpd (n : Nat) : (ringSpan p i a b x y s).powered n = s.powered n := by rw [State.powered, ringSpan_aon]; rfl
  have hfec := ringSpan_keepsFec p i a b x y s
  rw [spanTasks_ring, heast, hwest, hpd, hpd]
  refine ⟨fun h => ?_, fun h => ?_⟩
  · rw [if_pos h]
    exact congrArg (fun n => min 255 (n + e)) (hfec .east)
  · rw [if_pos h]
    exact congrArg (fun n => min 255 (n + w)) (hfec .west)

/-- The self-test of an untapped engine in ENROL whose receivers have been locked for 1 ms (R322). -/
theorem spanTasks_selfTest {s : State} (htap : s.ring.tapped = false) (hmode : s.mode = .enrol) (heast : s.ring.east.pcs = true)
    (hwest : s.ring.west.pcs = true) (hle : s.ring.east.lockAt + 200 ≤ s.now) (hlw : s.ring.west.lockAt + 200 ≤ s.now) :
    (spanTasks p i a b x y 0 0 s).mgmt.selfTest = true := by
  let r := ringSpan p i a b x y s
  have hr : r = powerSpan p i a b x y s := ringSpan_untapped p i a b x y htap
  have hring : r.ring = s.ring := by rw [hr]; exact powerSpan_changesOnly p i a b x y s .ring (by simp)
  have hnow : (fecSpans r 0 0).now = s.now := by
    rw [State.now, fecSpans_changesOnly r 0 0 .aon (by simp), show r.aon = s.aon from ringSpan_aon p i a b x y s]
    rfl
  have hm : (fecSpans r 0 0).mode = .enrol := by
    rw [fecSpans_changesOnly r 0 0 .mode (by simp), hr, powerSpan_mode p i a b x y (by rw [hmode]; decide), hmode]
  obtain ⟨hportE, hportW, htapped⟩ := fecSpans_ports r 0 0
  have hE : (fecSpans r 0 0).ring.east.pcs = true ∧ (fecSpans r 0 0).ring.east.lockAt = s.ring.east.lockAt := by
    rw [hportE, hring]
    split <;> exact ⟨heast, rfl⟩
  have hW : (fecSpans r 0 0).ring.west.pcs = true ∧ (fecSpans r 0 0).ring.west.lockAt = s.ring.west.lockAt := by
    rw [hportW, hring]
    split <;> exact ⟨hwest, rfl⟩
  change (selfTestSpan (fecSpans r 0 0) 0 0).mgmt.selfTest = true
  rw [selfTestSpan, if_pos]
  simp [State.tapped, htapped, hring, htap, hm, hE.1, hE.2, hW.1, hW.2, hnow, msec, hle, hlw]

end

end Sys2Proof.Proofs
end

section
/-! SUPPORT. A Girth window without parity errors: every lane takes each of its slots once within its cycles (R228, R233, R242). -/

namespace Sys2Proof.Proofs

open Sys2Proof Sys2Proof.Machine Sys2Proof.Laws

/-! ## One slot (R233, R242) -/

/-- What a window leaves of slot `i`: disabled, it holds no evaluation; evaluated, its output lies where its set's limits hold it. -/
structure SlotAfter (s : State) (i : Nat) (x : GSlot) : Prop where
  disabled : s.pval 0x0600 i ≠ 1 → x.done = false ∧ x.live = false
  held : x.done = true → ∃ raw, x.out = clampInt (s.pval 0x0609 (8 * i + x.gprev)) (s.pval 0x0608 (8 * i + x.gprev)) raw

section
variable (s : State) (i : Nat) (x : GSlot)

theorem idleSlot_slotAfter : SlotAfter s i (idleSlot s i x) := ⟨fun _ => ⟨rfl, rfl⟩, fun h => absurd h Bool.false_ne_true⟩

/-- An evaluation's output is its sum held to the limits of the set that it used. -/
theorem evalSlot_out (p : Bool) : ∃ raw, (evalSlot s i x p).slot.out = clampInt
    (s.pval 0x0609 (8 * i + (evalSlot s i x p).slot.gprev)) (s.pval 0x0608 (8 * i + (evalSlot s i x p).slot.gprev)) raw :=
  ⟨_, rfl⟩

variable {s i} (h : s.pval 0x0600 i = 1)
include h

theorem evalSlot_slotAfter (p : Bool) : SlotAfter s i (evalSlot s i x p).slot := ⟨fun hd => absurd h hd, fun _ => evalSlot_out s i x p⟩

theorem lateSlot_slotAfter : SlotAfter s i { x with done := false, late := true, unfinished := true } :=
  ⟨fun hd => absurd h hd, fun hdone => absurd hdone Bool.false_ne_true⟩

end

/-! ## One lane (R228) -/

/-- A lane has taken the slots `l` in their order, within its cycles and with no parity error. -/
structure LaneStands (s : State) (l : List Nat) (r : LaneRun) : Prop where
  taken : r.slots.map Prod.fst = l
  after : ∀ e ∈ r.slots, SlotAfter s e.1 e.2
  cycles : r.cycles ≤ 1800
  retries : r.retries = 0
  failed : r.failed = []

section
variable {s : State} {l : List Nat} {r : LaneRun}

/-- One slot more. -/
theorem laneStands_snoc (h : LaneStands s l r) {i : Nat} {x : GSlot} (hx : SlotAfter s i x) {u : LaneRun}
    (hslots : u.slots = r.slots ++ [(i, x)]) (hcycles : u.cycles ≤ 1800) (hretries : u.retries = 0) (hfailed : u.failed = []) :
    LaneStands s (l ++ [i]) u where
  taken := by rw [hslots, List.map_append, h.taken]; rfl
  after := by
    rw [hslots]
    exact List.forall_mem_append.2 ⟨h.after, List.forall_mem_singleton.2 hx⟩
  cycles := hcycles
  retries := hretries
  failed := hfailed

theorem laneSlot_stands (h : LaneStands s l r) (i : Nat) : LaneStands s (l ++ [i]) (laneSlot s [] r i) := by
  have hretries := h.retries
  unfold laneSlot
  dsimp only
  split
  case isTrue => exact laneStands_snoc h (idleSlot_slotAfter s i _) rfl (Nat.min_le_left _ _) hretries h.failed
  case isFalse hruns =>
    have hon : s.pval 0x0600 i = 1 := by
      simp only [Bool.not_eq_false, Bool.and_eq_true, decide_eq_true_eq] at hruns
      exact hruns.1.1
    split
    case isTrue hparity => exact absurd hparity.1 Bool.false_ne_true
    case isFalse =>
      split
      case isTrue =>
        refine laneStands_snoc h (lateSlot_slotAfter _ hon) rfl (Nat.le_refl 1800) ?_ h.failed
        dsimp only
        split <;> simp [hretries, parityOf]
      case isFalse hroom =>
        have hfits := (not_or.1 hroom).2
        refine laneStands_snoc h (evalSlot_slotAfter _ hon _) rfl (Nat.le_of_not_lt hfits) ?_ h.failed
        simp [hretries, parityOf]

theorem foldl_laneSlot_stands (f : Nat → Nat) (ns : List Nat) (h : LaneStands s l r) :
    LaneStands s (l ++ ns.map f) (ns.foldl (fun r n => laneSlot s [] r (f n)) r) := by
  induction ns generalizing l r with
  | nil => simpa using h
  | cons n ns ih =>
    have hnext := ih (laneSlot_stands h (f n))
    rwa [List.append_assoc] at hnext

theorem laneStands_start (s : State) : LaneStands s [] {} :=
  ⟨rfl, fun _ he => absurd he List.not_mem_nil, Nat.zero_le _, rfl, rfl⟩

theorem lane_stands (s : State) (k : Nat) : LaneStands s ((List.range 64).map (fun n => 4 * n + k)) (lane s [] k) :=
  foldl_laneSlot_stands (fun n => 4 * n + k) (List.range 64) (laneStands_start s)

end

/-! ## The slots after the window -/

/-- The lanes' runs, and the slots as all of them leave them. -/
def laneRuns (s : State) : List LaneRun := (List.range 4).map (lane s [])
def slotWrites (s : State) : List (Nat × GSlot) := (laneRuns s).flatMap (·.slots)

/-- Slots written one after the other. -/
def writeSlots (l : List (Nat × GSlot)) (s : State) : State := l.foldl (fun a e => a.modSlot e.1 fun _ => e.2) s

section
variable {s : State}

theorem laneRun_stands {r : LaneRun} (h : r ∈ laneRuns s) : ∃ l, LaneStands s l r := by
  obtain ⟨k, -, rfl⟩ := List.mem_map.1 h
  exact ⟨_, lane_stands s k⟩

theorem slotWrites_after : ∀ e ∈ slotWrites s, SlotAfter s e.1 e.2 := by
  intro e he
  obtain ⟨r, hr, her⟩ := List.mem_flatMap.1 he
  obtain ⟨l, hl⟩ := laneRun_stands hr
  exact hl.after e her

/-- Slot `i` is the slot i div 4 of lane i mod 4. -/
theorem slotWrites_all {i : Nat} (h : i < 256) : ∃ x, (i, x) ∈ slotWrites s := by
  have hi : i ∈ (lane s [] (i % 4)).slots.map Prod.fst := by
    rw [(lane_stands s (i % 4)).taken]
    exact List.mem_map.2 ⟨i / 4, List.mem_range.2 (by omega), by omega⟩
  obtain ⟨⟨j, x⟩, he, rfl⟩ := List.mem_map.1 hi
  exact ⟨x, List.mem_flatMap.2 ⟨lane s [] (j % 4), List.mem_map.2 ⟨j % 4, List.mem_range.2 (by omega), rfl⟩, he⟩⟩

theorem writeSlots_slot_of_not_mem {l : List (Nat × GSlot)} {i : Nat} (h : ∀ e ∈ l, e.1 ≠ i) : (writeSlots l s).slot i = s.slot i :=
  List.foldlRecOn (motive := fun t : State => t.slot i = s.slot i) l _ rfl fun _ ht e he =>
    (modSlot_slot_other _ _ (h e he).symm).trans ht

/-- What all the writes of a slot satisfy holds of it after them. -/
theorem writeSlots_slot {P : Nat → GSlot → Prop} {l : List (Nat × GSlot)} (hP : ∀ e ∈ l, P e.1 e.2) {i : Nat} {x : GSlot} (h : (i, x) ∈ l) :
    P i ((writeSlots l s).slot i) := by
  induction l generalizing s x with
  | nil => exact absurd h List.not_mem_nil
  | cons e r ih =>
    obtain ⟨hfirst, hrest⟩ := List.forall_mem_cons.1 hP
    by_cases hr : ∃ y, (i, y) ∈ r
    · obtain ⟨y, hy⟩ := hr
      exact ih (s := s.modSlot e.1 fun _ => e.2) hrest hy
    · obtain rfl : (i, x) = e := (List.mem_cons.1 h).resolve_right fun hx => hr ⟨x, hx⟩
      have hlast : (writeSlots ((i, x) :: r) s).slot i = x := by
        change (writeSlots r (s.modSlot i fun _ => x)).slot i = x
        have hnone : ∀ e ∈ r, e.1 ≠ i := fun e he heq => hr ⟨e.2, by rw [← heq]; exact he⟩
        rw [writeSlots_slot_of_not_mem hnone, modSlot_slot]
      rw [hlast]
      exact hfirst

theorem writeSlots_girth (l : List (Nat × GSlot)) (s : State) : ∃ t, (writeSlots l s).girth = { s.girth with slots := t } :=
  List.foldlRecOn (motive := fun t : State => ∃ x, t.girth = { s.girth with slots := x }) l _ ⟨_, rfl⟩ fun t ht e _ => by
    obtain ⟨x, hx⟩ := ht
    exact ⟨_, by rw [State.modSlot, hx]⟩

theorem writeSlots_changesOnly (l : List (Nat × GSlot)) (s : State) : s.changesOnly [.girth] (writeSlots l s) :=
  changesOnly_foldl _ (fun u (e : Nat × GSlot) => modSlot_changesOnly u e.1 _) l s

/-! ## The window -/

theorem laneRuns_cycles : ((laneRuns s).map (·.cycles)).foldl max 0 ≤ 1800 :=
  List.foldlRecOn (motive := (· ≤ 1800)) _ max (Nat.zero_le _) fun n hn c hc => by
    obtain ⟨r, hr, rfl⟩ := List.mem_map.1 hc
    obtain ⟨l, hl⟩ := laneRun_stands hr
    exact max_le hn hl.cycles

theorem laneRuns_retries : ((laneRuns s).map (·.retries)).foldl (· + ·) 0 = 0 :=
  List.foldlRecOn (motive := (· = 0)) _ (· + ·) rfl fun n hn c hc => by
    obtain ⟨r, hr, rfl⟩ := List.mem_map.1 hc
    obtain ⟨l, hl⟩ := laneRun_stands hr
    rw [hn, hl.retries]

theorem laneRuns_failed : (laneRuns s).flatMap (·.failed) = [] :=
  List.flatMap_eq_nil_iff.2 fun r hr => by
    obtain ⟨l, hl⟩ := laneRun_stands hr
    exact hl.failed

/-- The state as the window opens: the slots written, and the window's counts taken. -/
def windowOpened (s : State) : State :=
  let t := writeSlots (slotWrites s) s
  { t with girth := { t.girth with
    windowOpen := true
    parity := min 0xFF (t.girth.parity + ((laneRuns s).map (·.retries)).foldl (· + ·) 0)
    maxCyc := max t.girth.maxCyc (((laneRuns s).map (·.cycles)).foldl max 0) } }

/-- What clipped preloads record. -/
def windowLogged (s : State) : State :=
  ((laneRuns s).flatMap (·.clipped)).foldl (fun a i => a.bayLog (slotBay a i) 0x0603 i) (windowOpened s)

theorem exec_girthWindow (hpd : s.powered 17 = true) (hloaded : s.girth.loaded = true) (hclosed : s.girth.windowOpen = false) :
    exec (.girthWindow []) s = .next (windowLogged s) := by
  have hwrites : (laneRuns s).foldl (fun a r => r.slots.foldl (fun a e => a.modSlot e.1 fun _ => e.2) a) s =
      writeSlots (slotWrites s) s := (List.foldl_flatMap ..).symm
  change execGirthWindow [] s = _
  rw [execGirthWindow, if_neg (by simp [hpd, hloaded, hclosed])]
  change Host.Outcome.next (((laneRuns s).flatMap (·.failed)).foldl _ _) = _
  rw [laneRuns_failed, windowLogged, windowOpened, ← hwrites]
  rfl

theorem windowLogged_changesOnly (s : State) : (windowOpened s).changesOnly [.logs, .events] (windowLogged s) :=
  changesOnly_foldl _ (fun u _ => log_changesOnly u _ _ _ _) _ _

theorem windowOpened_changesOnly (s : State) : s.changesOnly [.girth] (windowOpened s) :=
  changesOnly_trans (writeSlots_changesOnly _ s) (withGirth_changesOnly _ _)

theorem windowOpened_slot {i : Nat} (h : i < 256) : SlotAfter s i ((windowOpened s).slot i) := by
  obtain ⟨x, hx⟩ := slotWrites_all (s := s) h
  exact writeSlots_slot (P := SlotAfter s) slotWrites_after hx

theorem windowOpened_counts (s : State) : (windowOpened s).girth.windowOpen = true ∧ (windowOpened s).girth.parity = min 0xFF s.girth.parity ∧
    (windowOpened s).girth.maxCyc = max s.girth.maxCyc (((laneRuns s).map (·.cycles)).foldl max 0) := by
  obtain ⟨x, hx⟩ := writeSlots_girth (slotWrites s) s
  refine ⟨rfl, ?_, ?_⟩
  · simp only [windowOpened, hx, laneRuns_retries, Nat.add_zero]
  · simp only [windowOpened, hx]

end

end Sys2Proof.Proofs
end

section
/-! SUPPORT. The launch at a Girth window's end: overruns counted by bay, and a frame to every link that is up (R217, R244, R245). -/

namespace Sys2Proof.Proofs

open Sys2Proof Sys2Proof.Machine Sys2Proof.Laws

/-! ## Overruns (R245) -/

theorem powerMask_testBit (l : List Nat) (n : Nat) : (powerMask l).testBit n = l.contains n := by
  have hfold (m : Nat) : (l.foldl (fun a n => a ||| (1 <<< n)) m).testBit n = (m.testBit n || l.contains n) := by
    induction l generalizing m with
    | nil => simp
    | cons a r ih =>
      rw [List.foldl_cons, ih, Nat.testBit_or, Nat.one_shiftLeft, Nat.testBit_two_pow, List.contains_cons, Bool.or_assoc]
      congr 2
      simp [eq_comm, beq_eq_decide]
  simpa [powerMask] using hfold 0

/-- A window with unfinished slots counts as one overrun, with the bays that own them. -/
def overrunCounted (s : State) : State :=
  { s with girth := { s.girth with
    overruns := if (lateBays s).isEmpty then s.girth.overruns else min 0xFFFF (s.girth.overruns + 1)
    ovrBay := s.girth.ovrBay ||| BitVec.ofNat 16 (powerMask (lateBays s)) } }

/-- A bay's windows with unfinished slots in a row: the third is due for HOLD. -/
def overrunBay (late : List Nat) (b : Nat) (y : Bay) : Bay :=
  { y with overrunRow := if late.contains b then y.overrunRow + 1 else 0
           overrunDue := y.overrunDue || (late.contains b && decide (y.overrunRow = 2)) }

def overrunMarked (s : State) : State :=
  (busyBays s).foldl (fun a b => a.modBay b (overrunBay (lateBays s) b)) (overrunCounted s)

section
variable (s : State)

theorem overrunCounted_overruns :
    (overrunCounted s).girth.overruns = if lateBays s = [] then s.girth.overruns else min 0xFFFF (s.girth.overruns + 1) := by
  simp only [overrunCounted, List.isEmpty_iff]

theorem overrunCounted_ovrBay {b : Nat} (h : b < 16) :
    (overrunCounted s).girth.ovrBay.getLsbD b = (s.girth.ovrBay.getLsbD b || (lateBays s).contains b) := by
  have hmask : (BitVec.ofNat 16 (powerMask (lateBays s))).getLsbD b = (lateBays s).contains b := by
    rw [BitVec.getLsbD_ofNat, powerMask_testBit, decide_eq_true h, Bool.true_and]
  rw [← hmask]
  exact BitVec.getLsbD_or

theorem overrunCounted_changesOnly : s.changesOnly [.girth] (overrunCounted s) := withGirth_changesOnly s _

theorem overrunMarked_changesOnly : (overrunCounted s).changesOnly [.bays] (overrunMarked s) :=
  changesOnly_foldl _ (fun u b => modBay_changesOnly u b _) _ _

theorem overrunMarked_welt (n : Nat) : ((overrunMarked s).bay n).welt = (s.bay n).welt := by
  refine List.foldlRecOn (motive := fun t : State => (t.bay n).welt = (s.bay n).welt) _ _ rfl fun t ht b _ => ?_
  by_cases h : n = b
  · rw [h, modBay_bay_same, ← h]
    exact ht
  · rw [modBay_bay_other _ _ h]
    exact ht

/-- A bay that owns an unfinished slot owns a slot that ran. -/
theorem lateBays_subset_busyBays : lateBays s ⊆ busyBays s := by
  intro b hb
  obtain ⟨hall, hlate⟩ := List.mem_filter.1 hb
  obtain ⟨i, hi, hslot⟩ := List.any_eq_true.1 hlate
  refine List.mem_filter.2 ⟨hall, List.any_eq_true.2 ⟨i, hi, ?_⟩⟩
  simp only [Bool.and_eq_true] at hslot ⊢
  exact ⟨by rw [hslot.1, Bool.or_true], hslot.2⟩

theorem busyBays_nodup : (busyBays s).Nodup := List.nodup_range.filter _

/-- Updates of bays that are all different, each of its own bay. -/
theorem foldl_modBay_bay {f : Nat → Bay → Bay} {l : List Nat} (hl : l.Nodup) {b : Nat} (hb : b ∈ l) :
    (l.foldl (fun a b => a.modBay b (f b)) s).bay b = f b (s.bay b) := by
  have honly (s : State) (b : Nat) : s.onlyBay b (s.modBay b (f b)) := modBay_onlyBay s b _
  induction l generalizing s with
  | nil => exact absurd hb List.not_mem_nil
  | cons a r ih =>
    obtain ⟨ha, hr⟩ := List.nodup_cons.1 hl
    rcases List.mem_cons.1 hb with rfl | hb'
    · rw [List.foldl_cons, foldl_bay_of_not_mem _ honly ha, modBay_bay_same]
    · have hne : b ≠ a := fun h => ha (h ▸ hb')
      rw [List.foldl_cons, ih _ hr hb', modBay_bay_other _ _ hne]

variable {s} in
/-- The third window in a row that leaves a bay's slots unfinished. -/
theorem overrunMarked_due {b : Nat} (hlate : (lateBays s).contains b = true) (hrow : (s.bay b).overrunRow = 2) :
    ((overrunMarked s).bay b).overrunDue = true := by
  have hbusy : b ∈ busyBays s := lateBays_subset_busyBays s (List.contains_iff_mem.1 hlate)
  have hbay : (overrunCounted s).bay b = s.bay b := rfl
  rw [overrunMarked, foldl_modBay_bay _ (f := overrunBay (lateBays s)) (busyBays_nodup s) hbusy, hbay]
  change ((s.bay b).overrunDue || ((lateBays s).contains b && decide ((s.bay b).overrunRow = 2))) = true
  rw [hlate, hrow]
  exact Bool.or_true _

/-- HOLD for overruns, at the boundary after the third (R245). -/
theorem overrunHold_of_due {s : State} {b : Nat} (hdue : (s.bay b).overrunDue = true) (htrack : (s.bay b).state = .track) :
    (((overrunHold s b).bay b).state = .hold ∨ ((overrunHold s b).bay b).state = .safe) ∧
      ((overrunHold s b).bay b).overrunDue = false := by
  let u := (s.modBay b fun y => { y with overrunDue := false, overrunRow := 0 }).bayLogFree b 0x0604
  have hbay : u.bay b = { s.bay b with overrunDue := false, overrunRow := 0 } :=
    (bay_eq_of_bays_eq (logFree_changesOnly _ _ _ _ .bays (by simp)) b).trans (modBay_bay_same ..)
  have hhold : overrunHold s b = u.enterHold b := if_pos hdue
  rw [hhold]
  refine ⟨(enterHold_of_track (by rw [hbay]; exact htrack)).1, ?_⟩
  rw [(enterHold_stopsBay u b).overrunDue, hbay]

/-! ## The frames (R217) -/

theorem sendLane_sent (b : BayId) (n : Fin 2) (l : List LaneBlock) : (s.sendLane b n l).sent = s.sent ++
    [.lane b n (codeBlocks (if n = 0 then (s.bay b.val).welt.scr0 else (s.bay b.val).welt.scr1) l).1] := rfl

/-- A link after blocks on lane `n`, whose scrambler stood as `v` says. -/
def laneSent (n : Fin 2) (l : List LaneBlock) (v w : Welt) : Welt :=
  if n = 0 then { w with scr0 := (codeBlocks (if n = 0 then v.scr0 else v.scr1) l).2, sent0 := w.sent0 + l.length }
  else { w with scr1 := (codeBlocks (if n = 0 then v.scr0 else v.scr1) l).2, sent1 := w.sent1 + l.length }

theorem sendLane_welt (b : BayId) (n : Fin 2) (l : List LaneBlock) :
    ((s.sendLane b n l).bay b.val).welt = laneSent n l (s.bay b.val).welt (s.bay b.val).welt :=
  modWelt_welt s b.val (laneSent n l (s.bay b.val).welt)

theorem sendLane_zero_scr0 (b : BayId) (l : List LaneBlock) :
    ((s.sendLane b 0 l).bay b.val).welt.scr0 = (codeBlocks (s.bay b.val).welt.scr0 l).2 := by
  rw [sendLane_welt]
  rfl

theorem sendLane_one_scr0 (b : BayId) (l : List LaneBlock) : ((s.sendLane b 1 l).bay b.val).welt.scr0 = (s.bay b.val).welt.scr0 := by
  rw [sendLane_welt]
  rfl

theorem idleLanes_sent (b : BayId) (n : Nat) : ∃ x y, (s.idleLanes b n).sent = s.sent ++ [x, y] := ⟨_, _, List.append_assoc ..⟩

/-- What goes out on lane 0 of a bay's link: its downlink frame, after the Idle blocks that bring the lane to the launch. -/
def launched (s : State) (b : BayId) : Output :=
  .lane b 0 (codeBlocks (codeBlocks (s.bay b.val).welt.scr0
    (List.replicate (blocksAt s.now 26250 - (s.bay b.val).welt.sent0) idleBlock)).2 (frameBlocks (downlinkFrame s b.val))).1

/-- The launch of one bay's frame. -/
def launchFrame (s : State) (b : BayId) : State := (s.idleLanes b (blocksAt s.now 26250)).sendFrame b (downlinkFrame s b.val)

theorem launchFrame_sent (b : BayId) : ∃ l, (launchFrame s b).sent = s.sent ++ l ∧ launched s b ∈ l := by
  have hscr : ((s.idleLanes b (blocksAt s.now 26250)).bay b.val).welt.scr0 = (codeBlocks (s.bay b.val).welt.scr0
      (List.replicate (blocksAt s.now 26250 - (s.bay b.val).welt.sent0) idleBlock)).2 := by
    rw [State.idleLanes, sendLane_one_scr0, sendLane_zero_scr0]
  obtain ⟨x, y, hidle⟩ := idleLanes_sent s b (blocksAt s.now 26250)
  refine ⟨[x, y, launched s b], ?_, by simp⟩
  rw [launchFrame, State.sendFrame, sendLane_sent, if_pos rfl, hscr, hidle, List.append_assoc]
  rfl

theorem launchFrame_stopsBay (b : BayId) : StopsBay b.val s (launchFrame s b) :=
  stopsBay_trans (stopsBay_trans (sendLane_stopsBay s b 0 _) (sendLane_stopsBay _ b 1 _)) (sendLane_stopsBay _ b 0 _)

theorem launchFrame_changesOnly (b : BayId) : s.changesOnly [.sent, .bays] (launchFrame s b) :=
  changesOnly_trans (idleLanes_changesOnly s b _) (sendLane_changesOnly _ b 0 _)

/-- A bay's turn in the launch: its link is up, or its frames are being counted in training. -/
def launchTurn (s : State) (b : Nat) : State :=
  match (s.bay b).welt.phase, Nat.decLt b 16 with
  | .frames, .isTrue h => launchFrame s ⟨b, h⟩
  | .up, .isTrue h => launchFrame s ⟨b, h⟩
  | _, _ => s

theorem launchTurn_cases (b : Nat) : launchTurn s b = s ∨ ∃ h : b < 16, launchTurn s b = launchFrame s ⟨b, h⟩ := by
  unfold launchTurn
  split
  next hb _ _ => exact Or.inr ⟨hb, rfl⟩
  next hb _ _ => exact Or.inr ⟨hb, rfl⟩
  next => exact Or.inl rfl

theorem launchTurn_up {s : State} {b : BayId} (h : (s.bay b.val).welt.phase = .up) : launchTurn s b.val = launchFrame s b := by
  unfold launchTurn
  rw [h]
  split
  · rfl
  · rfl
  next hnone => exact (hnone b.isLt rfl (Subsingleton.elim _ _)).elim

theorem launchTurn_stopsBay (b : Nat) : StopsBay b s (launchTurn s b) := by
  rcases launchTurn_cases s b with h | ⟨hb, h⟩ <;> rw [h]
  · exact stopsBay_refl b s
  · exact launchFrame_stopsBay s ⟨b, hb⟩

theorem launchTurn_changesOnly (b : Nat) : s.changesOnly [.sent, .bays] (launchTurn s b) := by
  rcases launchTurn_cases s b with h | ⟨hb, h⟩ <;> rw [h]
  · exact changesOnly_refl _ s
  · exact launchFrame_changesOnly s ⟨b, hb⟩

theorem launchTurn_sent (b : Nat) : ∃ l, (launchTurn s b).sent = s.sent ++ l := by
  rcases launchTurn_cases s b with h | ⟨hb, h⟩ <;> rw [h]
  · exact ⟨[], (List.append_nil _).symm⟩
  · obtain ⟨l, hl, -⟩ := launchFrame_sent s ⟨b, hb⟩
    exact ⟨l, hl⟩

variable {s} {t : State}

/-- A frame is made of the slots, the link's registers, the pattern and the time. -/
theorem downlinkFrame_congr {b : Nat} (hwelt : (t.bay b).welt = (s.bay b).welt) (haon : t.aon = s.aon)
    (hslots : t.girth.slots = s.girth.slots) (hpat : t.pat = s.pat) : downlinkFrame t b = downlinkFrame s b := by
  have hnow : t.now = s.now := congrArg (fun a => a.stitch.toNat) haon
  have hout : nextOutput t = nextOutput s := by
    funext i
    unfold nextOutput State.slot
    rw [hslots]
  have haux (n : Nat) : auxOutput t b n = auxOutput s b n := by
    simp only [auxOutput, State.pval, State.pnat, hpat, hout]
    rfl
  simp only [downlinkFrame, hwelt, hnow, hout, haux]

theorem launched_congr {b : BayId} (hwelt : (t.bay b.val).welt = (s.bay b.val).welt) (haon : t.aon = s.aon)
    (hslots : t.girth.slots = s.girth.slots) (hpat : t.pat = s.pat) : launched t b = launched s b := by
  have hnow : t.now = s.now := congrArg (fun a => a.stitch.toNat) haon
  rw [launched, launched, downlinkFrame_congr hwelt haon hslots hpat, hwelt, hnow]

/-- Turn by turn, the frames of the bays whose links are up stand among what is sent: a turn changes no later bay. -/
theorem launchTurns_sent (s : State) {l : List Nat} (hl : l.Nodup) : ∃ fs, (l.foldl launchTurn s).sent = s.sent ++ fs ∧
    ∀ b : BayId, b.val ∈ l → (s.bay b.val).welt.phase = .up → launched s b ∈ fs := by
  induction l generalizing s with
  | nil => exact ⟨[], (List.append_nil _).symm, fun _ hb => absurd hb List.not_mem_nil⟩
  | cons a r ih =>
    obtain ⟨ha, hr⟩ := List.nodup_cons.1 hl
    obtain ⟨fs, hsent, hfs⟩ := ih (launchTurn s a) hr
    obtain ⟨gs, hgs⟩ := launchTurn_sent s a
    refine ⟨gs ++ fs, by rw [List.foldl_cons, hsent, hgs, List.append_assoc], fun b hb hup => ?_⟩
    rcases List.mem_cons.1 hb with rfl | hb'
    · obtain ⟨hs, hhs, hmem⟩ := launchFrame_sent s b
      have heq : gs = hs := List.append_cancel_left (hgs.symm.trans ((congrArg State.sent (launchTurn_up hup)).trans hhs))
      exact List.mem_append_left _ (heq ▸ hmem)
    · have hbay : (launchTurn s a).bay b.val = s.bay b.val := (launchTurn_stopsBay s a).others b.val fun h => ha (h ▸ hb')
      have honly := launchTurn_changesOnly s a
      have hlaunched : launched (launchTurn s a) b = launched s b :=
        launched_congr (by rw [hbay]) (honly .aon (by simp)) (congrArg Girth.slots (honly .girth (by simp))) (honly .pat (by simp))
      exact List.mem_append_right _ (hlaunched ▸ hfs b hb' (by rw [hbay]; exact hup))

theorem launchTurns_overrunDue (s : State) (l : List Nat) (n : Nat) :
    ((l.foldl launchTurn s).bay n).overrunDue = (s.bay n).overrunDue :=
  List.foldlRecOn (motive := fun t : State => (t.bay n).overrunDue = (s.bay n).overrunDue) l _ rfl fun t ht b _ => by
    by_cases h : n = b
    · rw [h, (launchTurn_stopsBay t b).overrunDue, ← h]
      exact ht
    · rw [(launchTurn_stopsBay t b).others n h]
      exact ht

theorem launchTurns_changesOnly (s : State) (l : List Nat) : s.changesOnly [.sent, .bays] (l.foldl launchTurn s) :=
  changesOnly_foldl _ launchTurn_changesOnly l s

theorem exec_downlinkLaunch {s : State} (hopen : s.girth.windowOpen = true) (hpd : s.powered 19 = true) :
    exec .downlinkLaunch s = .next (allBays.foldl launchTurn (overrunMarked s)) := by
  change execDownlinkLaunch s = _
  rw [execDownlinkLaunch, if_neg (by simp [hopen, hpd])]
  rfl

theorem launched_overrunMarked (s : State) (b : BayId) : launched (overrunMarked s) b = launched s b := by
  have hmarked := overrunMarked_changesOnly s
  have hgirth : (overrunMarked s).girth = (overrunCounted s).girth := hmarked .girth (by simp)
  have haon : (overrunMarked s).aon = (overrunCounted s).aon := hmarked .aon (by simp)
  have hpat : (overrunMarked s).pat = (overrunCounted s).pat := hmarked .pat (by simp)
  refine launched_congr (overrunMarked_welt s b.val) haon ?_ hpat
  rw [hgirth]
  rfl

end

end Sys2Proof.Proofs
end

section
/-! SUPPORT. The statement about the boundaries of stitch and span, the test access port, and Girth's windows (R203, R204, R217, R228 to
R248, R395, R500, R506). -/

namespace Sys2Proof.Proofs

open Sys2Proof Sys2Proof.Machine Sys2Proof.Laws

/-! ## Boundaries (R203, R204, R500) -/

theorem tick_stitch (s : State) : s.tick.aon.stitch = s.aon.stitch + 1 := rfl

/-- A stitch boundary with no traffic in memory. -/
theorem stitchBoundary_quiet {s : State} {m : MemStitch} (h0 : m.issue0 = 0) (h1 : m.issue1 = 0) (hnew : m.accesses = [])
    (hwait : s.mem.waiting = []) (ms : List MotionSample) :
    let t := tryBoot (motionStitch ms (memStitch m (girthBoundary s.tick)))
    (s.mode ≠ .reset → t.mode = s.mode ∧ t.aon = { s.aon with stitch := s.aon.stitch + 1 }) ∧
    (s.mode = .reset → t.mode = .reset ∨ t.mode = .boot) ∧
    (s.mode ≠ .reset → s.powered 18 = false → (∀ b, b < 16 → (s.bay b).overrunDue = false) →
      t.pat = (s.pat.settle [.girth]).settle [.stitch]) := by
  intro t
  have hquiet := quietBoundary_changesOnly h0 h1 hnew hwait ms
  have hmode : (motionStitch ms (memStitch m (girthBoundary s.tick))).mode = s.mode := hquiet .mode (by simp)
  have hstays (h : s.mode ≠ .reset) : t = motionStitch ms (memStitch m (girthBoundary s.tick)) :=
    tryBoot_of_not_reset (by rw [hmode]; exact h)
  refine ⟨fun h => ?_, fun h => tryBoot_mode_of_reset (hmode.trans h), fun h hpd hnone => ?_⟩
  · rw [hstays h]
    exact ⟨hmode, hquiet .aon (by simp)⟩
  · rw [hstays h]
    exact quietBoundary_pat h0 h1 hnew hwait hpd hnone ms

/-- A span boundary. -/
theorem spanBoundary_result (p i : Nat) (a b : Fin 5) (x y : Int) (e w : Nat) (s : State) :
    let t := allBays.foldl weltSpan (spanTasks p i a b x y e w s)
    t.aon = s.aon ∧ t.eave.power = p ∧ t.eave.codedInput = i ∧ t.eave.bucket = bucketNext s.eave.bucket p ∧
    (s.powered Port.east.domain = true → t.ring.east.fecUncorr = min 255 (s.ring.east.fecUncorr + e)) ∧
    (s.powered Port.west.domain = true → t.ring.west.fecUncorr = min 255 (s.ring.west.fecUncorr + w)) ∧
    (∀ n, n < 16 → (t.bay n).welt.spanMissing = 0) ∧ (s.powered 19 = false → t.pat = s.pat.settle [.span]) := by
  intro t
  have htasks := spanTasks_changesOnly p i a b x y e w s
  have hlinks : (spanTasks p i a b x y e w s).changesOnly safeParts t := changesOnly_foldl _ weltSpan_changesOnly allBays _
  have haon : (spanTasks p i a b x y e w s).aon = s.aon := htasks .aon (by simp)
  have heave : t.eave = (powerSpan p i a b x y s).eave := (hlinks .eave (by simp)).trans (spanTasks_eave p i a b x y e w s)
  have hring : t.ring = (spanTasks p i a b x y e w s).ring := hlinks .ring (by simp)
  obtain ⟨hpower, hinput, hbucket⟩ := powerSpan_eave p i a b x y s
  obtain ⟨heast, hwest⟩ := spanTasks_fec p i a b x y e w s
  rw [heave, hring]
  refine ⟨(hlinks .aon (by simp)).trans haon, hpower, hinput, hbucket, heast, hwest, fun n hn => ?_, fun hpd => ?_⟩
  · exact foldl_bay_of_mem _ weltSpan_onlyBay (P := fun z => z.welt.spanMissing = 0) (fun u => weltSpan_spanMissing u n)
      (List.mem_range.2 hn)
  · have hoff : (spanTasks p i a b x y e w s).powered 19 = false := by rw [State.powered, haon]; exact hpd
    exact (weltSpans_unpowered hoff allBays .pat (by simp)).trans (htasks .pat (by simp))

/-! ## The test access port (R506) -/

theorem exec_tapInstruction {s : State} (h : s.aon.supply = true) (i : TapInstr) :
    exec (.tapInstruction i) s = .next (s.send (.tap (tapExecuted s.mode i) (if i = .idcode then idcode else 0))) :=
  if_neg (by simp [h])

/-- IDCODE as R506 composes it. The argument keeps the kernel from evaluating the sum in unary: the revision is an opaque constant. -/
theorem idcode_const (x : Unit) : idcode =
    Function.const Unit Config.siliconRev.toNat x * 2 ^ 28 + 0x1608 * 2 ^ 12 + Config.jep106.toNat * 2 + 1 := rfl

theorem idcode_eq : idcode = Config.siliconRev.toNat * 2 ^ 28 + 0x1608 * 2 ^ 12 + Config.jep106.toNat * 2 + 1 := by
  rw [idcode_const (), Function.const_apply]

/-! ## Windows (R228, R242, R244, R245) -/

theorem girthWindow_result (s : State) :
    let t := windowLogged s
    t.girth.windowOpen = true ∧ s.girth.maxCyc ≤ t.girth.maxCyc ∧ t.girth.maxCyc ≤ max s.girth.maxCyc 1800 ∧
    t.girth.parity = min 0xFF s.girth.parity ∧ (∀ i, i < 256 → SlotAfter s i (t.slot i)) ∧ s.changesOnly [.girth, .logs, .events] t := by
  intro t
  have hlogged : (windowOpened s).changesOnly [.logs, .events] t := windowLogged_changesOnly s
  have hgirth : t.girth = (windowOpened s).girth := hlogged .girth (by simp)
  have hslot (i : Nat) : t.slot i = (windowOpened s).slot i := by rw [State.slot, State.slot, hgirth]
  obtain ⟨hopen, hparity, hcycles⟩ := windowOpened_counts s
  have hmax : max s.girth.maxCyc (((laneRuns s).map (·.cycles)).foldl max 0) ≤ max s.girth.maxCyc 1800 :=
    max_le_max (Nat.le_refl _) laneRuns_cycles
  rw [hgirth, hcycles]
  exact ⟨hopen, le_max_left _ _, hmax, hparity, fun i hi => by rw [hslot]; exact windowOpened_slot hi,
    changesOnly_trans (changesOnly_mono (windowOpened_changesOnly s) (by simp)) (changesOnly_mono hlogged (by simp))⟩

/-- The state after a launch. -/
def afterLaunch (s : State) : State := allBays.foldl launchTurn (overrunMarked s)

theorem afterLaunch_turns_changesOnly (s : State) : (overrunMarked s).changesOnly [.sent, .bays] (afterLaunch s) :=
  launchTurns_changesOnly _ allBays

theorem afterLaunch_girth (s : State) : (afterLaunch s).girth = (overrunCounted s).girth :=
  (afterLaunch_turns_changesOnly s .girth (by simp)).trans (overrunMarked_changesOnly s .girth (by simp))

theorem afterLaunch_overrunDue (s : State) (n : Nat) : ((afterLaunch s).bay n).overrunDue = ((overrunMarked s).bay n).overrunDue :=
  launchTurns_overrunDue _ allBays n

theorem afterLaunch_changesOnly (s : State) : s.changesOnly [.girth, .bays, .sent] (afterLaunch s) :=
  changesOnly_trans (changesOnly_mono (overrunCounted_changesOnly s) (by simp))
    (changesOnly_trans (changesOnly_mono (overrunMarked_changesOnly s) (by simp))
      (changesOnly_mono (afterLaunch_turns_changesOnly s) (by simp)))

theorem afterLaunch_sent (s : State) : ∃ fs, (afterLaunch s).sent = s.sent ++ fs ∧
    ∀ b : BayId, (s.bay b.val).welt.phase = .up → launched s b ∈ fs := by
  have hsent : (overrunMarked s).sent = s.sent := overrunMarked_changesOnly s .sent (by simp)
  obtain ⟨fs, hfs, hmem⟩ := launchTurns_sent (overrunMarked s) (l := allBays) List.nodup_range
  refine ⟨fs, by rw [← hsent]; exact hfs, fun b hup => ?_⟩
  rw [← launched_overrunMarked]
  exact hmem b (List.mem_range.2 b.isLt) (by rw [overrunMarked_welt]; exact hup)

/-! ## The statement -/

/-- Settles O37: each boundary, window and launch is its steps one after the other, of which each leaves what the others make. -/
theorem timeAdvancesAndGirthWindowsLaunch : Obligations.TimeAdvancesAndGirthWindowsLaunch := by
  unfold Obligations.TimeAdvancesAndGirthWindowsLaunch
  refine ⟨?advances, ?quiet, ?stands, ?span, ?selfTest, ?offSpan, ?tap, ?window, ?opened, ?launch, ?overrun, ?closed⟩
  case advances =>
    intro ms m s hs hr
    exact ⟨_, exec_stitchBoundary hs hr ms m, ((boundaryWork_keepsTime s.tick ms m).stitch).trans (tick_stitch s)⟩
  case quiet =>
    intro ms m s hs hr h0 h1 hnew hwait
    exact ⟨_, exec_stitchBoundary hs hr ms m, stitchBoundary_quiet h0 h1 hnew hwait ms⟩
  case stands => exact fun ms m s h => exec_stitchBoundary_stands h ms m
  case span =>
    intro p i a b x y e w s hs hr hnow
    exact ⟨_, exec_spanBoundary p i a b x y e w hs hr hnow, spanBoundary_result p i a b x y e w s⟩
  case selfTest =>
    intro p i a b x y s hs hr hnow htap hmode heast hwest hle hlw
    have hlinks := changesOnly_foldl _ weltSpan_changesOnly allBays (spanTasks p i a b x y 0 0 s)
    exact ⟨_, exec_spanBoundary p i a b x y 0 0 hs hr hnow, (congrArg Mgmt.selfTest (hlinks .mgmt (by simp))).trans
      (spanTasks_selfTest p i a b x y htap hmode heast hwest hle hlw)⟩
  case offSpan => exact fun p i a b x y e w s h => if_pos (Or.inr (Or.inr h))
  case tap =>
    intro i s hs
    refine ⟨_, exec_tapInstruction hs i, ?_, send_changesOnly s _⟩
    rw [idcode_eq]
    cases i <;> rfl
  case window =>
    intro s hpd hloaded hclosed
    obtain ⟨hopen, hmore, hmost, hparity, hslots, honly⟩ := girthWindow_result s
    exact ⟨_, exec_girthWindow hpd hloaded hclosed, hopen, hmore, hmost, hparity, fun i hi => (hslots i hi).disabled,
      fun i hi => (hslots i hi).held, honly⟩
  case opened => exact fun l s h => if_pos (Or.inr (Or.inr h))
  case launch =>
    intro s hopen hpd
    refine ⟨afterLaunch s, exec_downlinkLaunch hopen hpd, ?_, fun b hb => ?_, fun b _ hlate hrow => ?_, afterLaunch_sent s,
      afterLaunch_changesOnly s⟩
    · rw [afterLaunch_girth]
      exact overrunCounted_overruns s
    · rw [afterLaunch_girth]
      exact overrunCounted_ovrBay s hb
    · rw [afterLaunch_overrunDue]
      exact overrunMarked_due hlate hrow
  case overrun => exact fun b s hdue htrack => overrunHold_of_due hdue htrack
  case closed => exact fun s h => if_pos (Or.inl h)

end Sys2Proof.Proofs
end

section
/-! SUPPORT. What the optical servo's shared operations touch of a bay and of the engine, and what the bay is after them (R253 to R261,
R267). -/

namespace Sys2Proof.Proofs

open Sys2Proof Sys2Proof.Machine Sys2Proof.Laws

/-! ## Steps of one bay -/

/-- From `s` to `t` bay `b` changes in the parts `bs` alone, no other bay changes, and of the engine the parts `ps` alone. -/
structure MovesBay (bs : List BayPart) (ps : List Part) (b : Nat) (s t : State) : Prop where
  bay : (s.bay b).changesOnly bs (t.bay b)
  others : s.onlyBay b t
  frame : s.changesOnly ps t

theorem bay_changesOnly_mono {bs cs : List BayPart} {x y : Bay} (h : x.changesOnly bs y) (hs : bs ⊆ cs) : x.changesOnly cs y :=
  fun p hp => h p fun m => hp (hs m)

theorem now_of_changesOnly {ps : List Part} {s t : State} (h : s.changesOnly ps t) (ha : Part.aon ∉ ps) : t.now = s.now := by
  rw [State.now, h .aon ha, State.now]

theorem slot_of_changesOnly {ps : List Part} {s t : State} (h : s.changesOnly ps t) (hg : Part.girth ∉ ps) (i : Nat) :
    t.slot i = s.slot i := by
  rw [State.slot, h .girth hg, State.slot]

section
variable {bs cs : List BayPart} {ps qs : List Part} {b : Nat} {s t u : State}

theorem movesBay_refl (bs : List BayPart) (ps : List Part) (b : Nat) (s : State) : MovesBay bs ps b s s where
  bay := bay_changesOnly_refl bs _
  others := onlyBay_refl b s
  frame := changesOnly_refl ps s

theorem MovesBay.mono (h : MovesBay bs ps b s t) (hb : bs ⊆ cs) (hp : ps ⊆ qs) : MovesBay cs qs b s t where
  bay := bay_changesOnly_mono h.bay hb
  others := h.others
  frame := changesOnly_mono h.frame hp

/-- One step after another touches what either touches. -/
theorem MovesBay.then (h : MovesBay bs ps b s t) (g : MovesBay cs qs b t u) : MovesBay (bs ++ cs) (ps ++ qs) b s u where
  bay := bay_changesOnly_trans (bay_changesOnly_mono h.bay (by simp)) (bay_changesOnly_mono g.bay (by simp))
  others := onlyBay_trans h.others g.others
  frame := changesOnly_trans (changesOnly_mono h.frame (by simp)) (changesOnly_mono g.frame (by simp))

theorem movesBay_ite {c : Prop} [Decidable c] (h : MovesBay bs ps b s t) (g : MovesBay bs ps b s u) :
    MovesBay bs ps b s (if c then t else u) := by
  split
  · exact h
  · exact g

theorem movesBay_foldl {α : Type} (f : State → α → State) (h : ∀ u a, MovesBay bs ps b u (f u a)) (l : List α) (s : State) :
    MovesBay bs ps b s (l.foldl f s) := by
  induction l generalizing s with
  | nil => exact movesBay_refl bs ps b s
  | cons a r ih => exact ((h s a).then (ih (f s a))).mono (by simp) (by simp)

/-- A step that leaves every bay. -/
theorem movesBay_of_changesOnly (h : s.changesOnly ps t) (hb : Part.bays ∉ ps) : MovesBay [] ps b s t where
  bay := everyBay_of_bays_eq [] (h .bays hb) b
  others := onlyBay_of_bays_eq b (h .bays hb)
  frame := h

theorem modBay_movesBay {f : Bay → Bay} (h : (s.bay b).changesOnly bs (f (s.bay b))) : MovesBay bs [.bays] b s (s.modBay b f) where
  bay := by rw [modBay_bay_same]; exact h
  others := modBay_onlyBay s b f
  frame := modBay_changesOnly s b f

end

section
variable (s : State) (b : Nat)

/-! ## Updates of one part (R232, R247) -/

theorem modServo_movesBay (f : Servo → Servo) : MovesBay [.servo] [.bays] b s (s.modServo b f) :=
  modBay_movesBay (withServo_changesOnly _ _)

theorem modChan_movesBay (f : Channel → Channel) : MovesBay [.chan] [.bays] b s (s.modChan b f) :=
  modBay_movesBay (withChan_changesOnly _ _)

theorem modWelt_movesBay (f : Welt → Welt) : MovesBay [.welt] [.bays] b s (s.modWelt b f) :=
  modBay_movesBay (withWelt_changesOnly _ _)

theorem modWrite_movesBay (f : WriteSess → WriteSess) : MovesBay [.write] [.bays] b s (s.modWrite b f) :=
  modBay_movesBay (withWrite_changesOnly _ _)

theorem modSled_movesBay (f : Sled → Sled) : MovesBay [.sled] [.bays] b s (s.modSled b f) where
  bay := modSled_sled_frame s b f
  others := modBay_onlyBay s b _
  frame := modBay_changesOnly s b _

theorem modSlot_movesBay (i : Nat) (f : GSlot → GSlot) : MovesBay [] [.girth] b s (s.modSlot i f) :=
  movesBay_of_changesOnly (modSlot_changesOnly s i f) (by simp)

theorem forceSet_movesBay (i g : Nat) : MovesBay [] [.girth] b s (s.forceSet i g) := modSlot_movesBay s b i _

theorem girthWrite_movesBay (id i : Nat) (v : Int) : MovesBay [] [.pat] b s (s.girthWrite id i v) :=
  movesBay_of_changesOnly (withPat_changesOnly s _) (by simp)

theorem holdOthers_movesBay (h : Bool) : MovesBay [] [.girth] b s (holdOthers s b h) :=
  movesBay_foldl _ (fun u i => modSlot_movesBay u b i _) _ s

theorem holdFocus_movesBay (h : Bool) : MovesBay [] [.girth] b s (holdFocus s b h) :=
  movesBay_foldl _ (fun u i => modSlot_movesBay u b i _) _ s

theorem bayLogFree_movesBay (n c : Nat) : MovesBay [] [.logs, .events, .freeCtr] b s (s.bayLogFree n c) :=
  movesBay_of_changesOnly (logFree_changesOnly s _ c n) (by simp)

@[simp] theorem modServo_slot (f : Servo → Servo) (k : Nat) : (s.modServo b f).slot k = s.slot k := rfl
@[simp] theorem modChan_slot (f : Channel → Channel) (k : Nat) : (s.modChan b f).slot k = s.slot k := rfl
@[simp] theorem modSled_slot (f : Sled → Sled) (k : Nat) : (s.modSled b f).slot k = s.slot k := rfl
@[simp] theorem girthWrite_slot (id i : Nat) (v : Int) (k : Nat) : (s.girthWrite id i v).slot k = s.slot k := rfl

@[simp] theorem modSlot_bay (i : Nat) (f : GSlot → GSlot) (n : Nat) : (s.modSlot i f).bay n = s.bay n := rfl
@[simp] theorem forceSet_bay (i g n : Nat) : (s.forceSet i g).bay n = s.bay n := rfl
@[simp] theorem girthWrite_bay (id i : Nat) (v : Int) (n : Nat) : (s.girthWrite id i v).bay n = s.bay n := rfl
@[simp] theorem holdOthers_bay (h : Bool) (n : Nat) : (holdOthers s b h).bay n = s.bay n := rfl
@[simp] theorem holdFocus_bay (h : Bool) (n : Nat) : (holdFocus s b h).bay n = s.bay n := rfl

theorem modSlot_slot_at (i k : Nat) (f : GSlot → GSlot) : (s.modSlot i f).slot k = if k = i then f (s.slot i) else s.slot k := by
  split
  next h => rw [h, modSlot_slot]
  next h => exact modSlot_slot_other s f h

/-- The set forced on a slot, after one is forced on a slot. -/
@[simp] theorem forceSet_force (i g k : Nat) : ((s.forceSet i g).slot k).force = if k = i then g else (s.slot k).force := by
  rw [State.forceSet, modSlot_slot_at]
  split <;> rfl

/-- Integrators held or freed keep the sets forced. -/
theorem holdSlots_force (l : List Nat) (h : Bool) (k : Nat) :
    ((l.foldl (fun a i => a.modSlot i fun x => { x with hold := h }) s).slot k).force = (s.slot k).force := by
  induction l generalizing s with
  | nil => rfl
  | cons i r ih =>
    rw [List.foldl_cons, ih, modSlot_slot_at]
    split
    next hk => rw [hk]
    next => rfl

@[simp] theorem holdOthers_force (h : Bool) (k : Nat) : ((holdOthers s b h).slot k).force = (s.slot k).force := holdSlots_force s _ h k

/-! ## Setpoints and gains (R253, R256) -/

theorem writeOffsets_movesBay : MovesBay [] [.pat] b s (writeOffsets s b) :=
  (girthWrite_movesBay s b _ _ _).then (girthWrite_movesBay _ b _ _ _) |>.mono (by simp) (by simp)

@[simp] theorem writeOffsets_bay (n : Nat) : (writeOffsets s b).bay n = s.bay n := rfl
@[simp] theorem writeOffsets_slot (k : Nat) : (writeOffsets s b).slot k = s.slot k := rfl

theorem normSet_movesBay (i g : Nat) (l : Loop) (p : Nat) : MovesBay [] [.pat, .logs, .events, .freeCtr] b s (normSet s b i g l p) :=
  ((girthWrite_movesBay s b _ _ _).then (girthWrite_movesBay _ b _ _ _)).then
    (movesBay_ite (bayLogFree_movesBay _ b b _) (movesBay_refl _ _ b _)) |>.mono (by simp) (by simp)

theorem normFocus_movesBay (l : Nat) : MovesBay [] [.pat, .logs, .events, .freeCtr] b s (normFocus s b l) :=
  movesBay_ite (normSet_movesBay s b _ _ _ _) (movesBay_refl _ _ b s)

@[simp] theorem normFocus_bay (l n : Nat) : (normFocus s b l).bay n = s.bay n :=
  bay_eq_of_bays_eq ((normFocus_movesBay s b l).frame .bays (by simp)) n

@[simp] theorem normFocus_slot (l k : Nat) : (normFocus s b l).slot k = s.slot k :=
  slot_of_changesOnly (normFocus_movesBay s b l).frame (by simp) k

/-! ## The end of a run (R125) -/

theorem endRun_movesBay : MovesBay [.chan, .servo, .welt] [.recov, .bays, .pat] b s (s.endRun b) where
  bay := endRun_everyBay s b b
  others := (endRun_stopsBay s b).others
  frame := endRun_changesOnly s b

@[simp] theorem endRun_now : (s.endRun b).now = s.now := now_of_changesOnly (endRun_changesOnly s b) (by simp)

/-- The end of a run drops the offsets and the raised power of a re-read pass, and leaves the servo otherwise (R148, R149). -/
theorem endRun_servo : ((s.endRun b).bay b).servo = { (s.bay b).servo with focusOff := 0, trackOff := 0, powerUp := 0 } := by
  have hseam : ((s.dropSeam b).bay b).servo = (s.bay b).servo := dropSeam_everyBay s b b .servo (by simp)
  have hpower (u : State) (c : Prop) [Decidable c] (f : Welt → Welt) : ((if c then u else u.modWelt b f).bay b).servo = (u.bay b).servo := by
    split
    · rfl
    · rw [State.modWelt, modBay_bay_same]
  have hoffsets (u : State) : ((u.dropOffsets b).bay b).servo = { (u.bay b).servo with focusOff := 0, trackOff := 0, powerUp := 0 } := by
    rw [State.dropOffsets, modServo_servo, hpower]
    split <;> rfl
  rw [State.endRun, State.modChan, modBay_bay_same]
  exact (hoffsets _).trans (by rw [hseam])

/-! ## Focus is entered (R257) -/

theorem lasersOn_movesBay (l : Nat) : MovesBay [.welt] [.pat, .bays] b s (lasersOn s b l) := by
  unfold lasersOn
  exact (movesBay_ite (movesBay_refl _ _ b s) (movesBay_foldl _ (fun u i => girthWrite_movesBay u b _ i _) _ s)).then (modWelt_movesBay _ b _)

/-- With the lasers at read power, stitch frames carry LASER_EN = 1 and HOLD = 0 (R255). -/
theorem lasersOn_welt (l : Nat) : ((lasersOn s b l).bay b).welt.laserEn = true ∧ ((lasersOn s b l).bay b).welt.hold = false := by
  rw [lasersOn, modWelt_welt]
  exact ⟨rfl, rfl⟩

/-- The servo of a bay that begins its sweep for a layer. -/
def sweptServo (s : State) (b want : Nat) : Servo :=
  { (s.bay b).servo.abandon with sweeping := true, sweepAt := s.now, sweeps := 0, wantLayer := want, acq := acqTake s b, regFails := 0 }

theorem enterFocus_movesBay (n : Nat) : MovesBay [.state, .servo, .welt] [.bays, .pat, .girth] b s (enterFocus s b n) := by
  have hbay : (s.bay b).changesOnly [.state, .servo] { s.bay b with state := .focus, servo := sweptServo s b n } :=
    bay_changesOnly_of_agrees (by rintro ⟨⟩ <;> simp [Bay.agrees])
  exact ((((modBay_movesBay hbay).then (holdOthers_movesBay _ b false)).then (holdFocus_movesBay _ b false)).then
    (lasersOn_movesBay _ b 0)).then (forceSet_movesBay _ b b 8) |>.mono (by simp) (by simp)

theorem enterFocus_bay (n : Nat) : ((enterFocus s b n).bay b).state = .focus ∧ ((enterFocus s b n).bay b).servo = sweptServo s b n := by
  have hlasers (u : State) := (lasersOn_movesBay u b 0).bay
  unfold enterFocus
  constructor
  · exact (hlasers _ .state (by simp)).trans (by simp)
  · exact (hlasers _ .servo (by simp)).trans (by simp [sweptServo])

theorem enterFocus_lasers (n : Nat) : ((enterFocus s b n).bay b).welt.laserEn = true ∧ ((enterFocus s b n).bay b).welt.hold = false :=
  lasersOn_welt _ b 0

/-! ## Tracking is acquired, and a jump starts (R259, R261, R267) -/

/-- The servo of a bay that begins to acquire tracking. -/
def acquiringServo (s : State) (b : Nat) : Servo :=
  { (s.bay b).servo with tracking := false, trackAcq := some s.now, trackSettling := false, registered := false, trackJump := none
                         teSpan := none, acq := acqTake s b, settled := 0 }

theorem startTracking_movesBay : MovesBay [.servo] [.bays, .girth] b s (startTracking s b) :=
  ((modServo_movesBay s b _).then (holdOthers_movesBay _ b false)).then (forceSet_movesBay _ b _ 8) |>.mono (by simp) (by simp)

@[simp] theorem startTracking_servo : ((startTracking s b).bay b).servo = acquiringServo s b := by
  simp [startTracking, acquiringServo]

@[simp] theorem startTracking_force (k : Nat) : ((startTracking s b).slot k).force = if k = 16 + b then 8 else (s.slot k).force := by
  simp [startTracking]

/-- The layer jump that starts towards a layer. -/
def jumpFrom (s : State) (b final : Nat) : Jump :=
  let v := (s.bay b).servo
  { src := v.layer, dest := if v.layer < final then v.layer + 1 else v.layer - 1, final := final, at_ := s.now, captured := false
    base := (s.slot b).applied }

theorem startJump_movesBay (n : Nat) : MovesBay [.servo, .chan] [.bays, .girth] b s (startJump s b n) := by
  unfold startJump
  exact ((modServo_movesBay s b _).then (holdOthers_movesBay _ b true)).then (modChan_movesBay _ b _) |>.mono (by simp) (by simp)

@[simp] theorem startJump_servo (n : Nat) : ((startJump s b n).bay b).servo =
    { (s.bay b).servo with jump := some (jumpFrom s b n), tracking := false, trackAcq := none, settled := 0, registered := false
                           trackJump := none, lowSum := 0, offCount := 0 } := by
  simp [startJump, jumpFrom, State.modChan]

@[simp] theorem startJump_force (n k : Nat) : ((startJump s b n).slot k).force = (s.slot k).force := by
  simp [startJump]

/-- The track jump that starts over some tracks. -/
def trackJumpFrom (s : State) (b : Nat) (n : Int) : TrackJump :=
  { n := n, at_ := s.now, base := (s.slot (16 + b)).applied, kick := 1 }

theorem startTrackJump_movesBay (n : Int) : MovesBay [.servo, .chan] [.bays, .girth] b s (startTrackJump s b n) :=
  (((modServo_movesBay s b _).then (modChan_movesBay _ b _)).then (modSlot_movesBay _ b _ _)).then (modSlot_movesBay _ b _ _)
    |>.mono (by simp) (by simp)

@[simp] theorem startTrackJump_servo (n : Int) : ((startTrackJump s b n).bay b).servo =
    { (s.bay b).servo with trackJump := some (trackJumpFrom s b n), registered := false } := by
  simp [startTrackJump, trackJumpFrom, State.modChan]

theorem startTrackJump_fly (n : Int) : ((startTrackJump s b n).bay b).chan.fly = .unlocked := by
  simp [startTrackJump]

/-- The tracking slot is idle with the kick applied, and the integrator of sled follow is held. -/
theorem startTrackJump_slots (n : Int) : ((startTrackJump s b n).slot (16 + b)).applied = trackCommand (trackJumpFrom s b n) ∧
    ((startTrackJump s b n).slot (64 + b)).hold = true := by
  simp [startTrackJump, trackJumpFrom, modSlot_slot_at, sledSlot]

end

end Sys2Proof.Proofs
end

section
/-! SUPPORT. What a bay is in HOLD, SAFE and SPINDOWN, and what entering them touches of a bay that holds no mount in progress (R224, R269,
R271). -/

namespace Sys2Proof.Proofs

open Sys2Proof Sys2Proof.Machine Sys2Proof.Laws

/-! ## HOLD (R269, R271) -/

/-- A bay whose servo is at work enters HOLD, or SAFE where that is one entry too many. -/
theorem enterHold_cases_of_working {s : State} {b : Nat} (h : (s.bay b).state ∈ [BayState.focus, .track, .read, .verify, .write]) :
    s.enterHold b = holdEntry s b ∨ s.enterHold b = (holdEntry s b).enterSafe b 0x060A := by
  unfold State.enterHold
  split
  case h_6 => simp_all
  all_goals exact (ite_eq_or_eq _ _ _).symm

/-- Either entry leaves the lasers off, and every other bay as it was. -/
theorem enterHold_of_working {s : State} {b : Nat} (h : (s.bay b).state ∈ [BayState.focus, .track, .read, .verify, .write]) :
    (((s.enterHold b).bay b).state = .hold ∨ ((s.enterHold b).bay b).state = .safe) ∧ ((s.enterHold b).bay b).welt.laserEn = false ∧
      s.onlyBay b (s.enterHold b) := by
  obtain ⟨hstate, hlaser, -⟩ := holdEntry_dark s b
  refine ⟨?_, ?_, (enterHold_stopsBay s b).others⟩ <;> rcases enterHold_cases_of_working h with he | he <;> rw [he]
  · exact .inl hstate
  · exact .inr (enterSafe_state _ _ _)
  · exact hlaser
  · exact (enterSafe_stopsBay (holdEntry s b) b 0x060A).link.dark hlaser

section
variable (s : State) (b : Nat)

/-! ## The run stops and the lasers go off (R125, R175, R222) -/

theorem immediateStop_movesBay : MovesBay [.write] [.bays] b s (s.immediateStop b) := by
  unfold State.immediateStop
  split
  · exact movesBay_ite (modWrite_movesBay s b _) (movesBay_ite (modWrite_movesBay s b _) (movesBay_refl _ _ b s))
  · exact movesBay_refl _ _ b s

theorem cutRun_movesBay : MovesBay [.chan, .servo, .welt] [.recov, .bays, .pat] b s (s.cutRun b) :=
  ((movesBay_of_changesOnly (sendSeams_changesOnly s b _) (by simp)).then (modChan_movesBay _ b _)).then (endRun_movesBay _ b)
    |>.mono (by simp) (by simp)

theorem sendLane_movesBay (b : BayId) (n : Fin 2) (l : List LaneBlock) : MovesBay [.welt] [.bays, .sent] b.val s (s.sendLane b n l) :=
  (modWelt_movesBay s b.val _).then (movesBay_of_changesOnly (send_changesOnly _ _) (by simp))

theorem urgent_movesBay (c : Nat) : MovesBay [.welt] [.bays, .sent] b s (s.urgent b c) := by
  unfold State.urgent
  split
  · exact movesBay_refl _ _ b s
  · split
    next h _ =>
      exact ((sendLane_movesBay s ⟨b, h⟩ 0 _).then (sendLane_movesBay _ ⟨b, h⟩ 1 _)).then (modWelt_movesBay _ b _)
        |>.mono (by simp) (by simp)
    · exact movesBay_refl _ _ b s

theorem stopAll_movesBay :
    MovesBay [.write, .chan, .servo, .welt] [.bays, .recov, .pat, .sent] b s (((s.immediateStop b).cutRun b).lasersOff b) :=
  ((immediateStop_movesBay s b).then (cutRun_movesBay _ b)).then ((urgent_movesBay _ b ucLoff).then (modWelt_movesBay _ b _))
    |>.mono (by simp) (by simp)

theorem dropOutputs_movesBay (z : Bool) : MovesBay [] [.girth] b s (s.dropOutputs b z) :=
  movesBay_of_changesOnly (dropOutputs_changesOnly s b z) (by simp)

/-! ## SAFE (R271) -/

/-- What an entry to SAFE makes of a bay, before the outputs are dropped. -/
def safeBay (now c : Nat) (y : Bay) : Bay :=
  { y with state := .safe, safeCause := c, safeAt := now, ldPermit := false, catching := false, servo := y.servo.abandon
           sled := y.sled.toRest }

theorem safeBay_changesOnly (now c : Nat) (y : Bay) :
    y.changesOnly [.state, .safe, .permit, .catching, .servo, .sled] (safeBay now c y) :=
  bay_changesOnly_of_agrees (by rintro ⟨⟩ <;> simp [Bay.agrees, safeBay])

/-- After an entry to SAFE the bay bears its cause and its time, and its lasers are off. -/
theorem safeEntry_bay (c : Nat) : ((s.safeEntry b c).bay b).safeCause = c ∧ ((s.safeEntry b c).bay b).safeAt = s.now ∧
    ((s.safeEntry b c).bay b).welt.laserEn = false := by
  have hnow := now_of_changesOnly (stopAll_movesBay s b).frame (by simp)
  have hdark := (lasersOff_dark ((s.immediateStop b).cutRun b) b).1
  unfold State.safeEntry
  dsimp only
  generalize ((s.immediateStop b).cutRun b).lasersOff b = u at hnow hdark ⊢
  rw [bay_eq_of_bays_eq (forceSet_dropOutputs_bays _ _ _ b true), modBay_bay_same]
  exact ⟨rfl, hnow, (failMount_stopsBay u b 8).link.dark hdark⟩

theorem failMount_of_none {s : State} {b : Nat} (h : (s.bay b).mount = none) (r : Nat) : s.failMount b r = s := by
  rw [State.failMount, h]

/-- Without a mount to fail, no command ends at an entry to SAFE. -/
theorem safeEntry_movesBay {s : State} {b : Nat} (h : (s.bay b).mount = none) (c : Nat) :
    MovesBay [.write, .chan, .servo, .welt, .state, .safe, .permit, .catching, .sled] [.bays, .recov, .pat, .sent, .girth] b s
      (s.safeEntry b c) := by
  have hstop := stopAll_movesBay s b
  have hmount : ((((s.immediateStop b).cutRun b).lasersOff b).bay b).mount = none := (hstop.bay .mount (by simp)).trans h
  unfold State.safeEntry
  dsimp only
  rw [failMount_of_none hmount]
  exact hstop.then (((modBay_movesBay (safeBay_changesOnly _ c _)).then (forceSet_movesBay _ b _ 8)).then (dropOutputs_movesBay _ b true))
    |>.mono (by simp) (by simp)

theorem enterSafe_of_not_safe {s : State} {b : Nat} (h : (s.bay b).state ≠ .safe) (c : Nat) :
    s.enterSafe b c = ((s.safeEntry b c).bayLogFree b c).event evBaySafe (beBytes 1 b ++ [0] ++ beBytes 2 c) := if_neg h

/-- What is logged and reported of an entry to SAFE. -/
theorem safeReport_movesBay (c : Nat) (p : List Byte) :
    MovesBay [] [.logs, .events, .freeCtr] b s ((s.bayLogFree b c).event evBaySafe p) :=
  (bayLogFree_movesBay s b b c).then (movesBay_of_changesOnly (event_changesOnly _ _ _) (by simp)) |>.mono (by simp) (by simp)

/-- A bay that enters SAFE bears the cause and the time, and its lasers are off. -/
theorem enterSafe_bay {s : State} {b : Nat} (h : (s.bay b).state ≠ .safe) (c : Nat) : ((s.enterSafe b c).bay b).safeCause = c ∧
    ((s.enterSafe b c).bay b).safeAt = s.now ∧ ((s.enterSafe b c).bay b).welt.laserEn = false := by
  rw [enterSafe_of_not_safe h, bay_eq_of_bays_eq (safeReport_bays _ b c _)]
  exact safeEntry_bay s b c

theorem enterSafe_movesBay {s : State} {b : Nat} (hs : (s.bay b).state ≠ .safe) (hm : (s.bay b).mount = none) (c : Nat) :
    MovesBay [.write, .chan, .servo, .welt, .state, .safe, .permit, .catching, .sled]
      [.bays, .pat, .sent, .girth, .recov, .logs, .events, .freeCtr] b s (s.enterSafe b c) := by
  rw [enterSafe_of_not_safe hs]
  exact (safeEntry_movesBay hm c).then (safeReport_movesBay _ b c _) |>.mono (by simp) (by simp)

/-! ## SPINDOWN (R269, R285) -/

theorem enterSpindown_movesBay : MovesBay [.state, .downAt, .permit, .servo, .catching, .sled, .spin, .chan, .welt]
    [.bays, .pat, .recov] b s (s.enterSpindown b) := by
  have hdark := (endRun_movesBay s b).then (modWelt_movesBay _ b fun w => { w with laserEn := false })
  unfold State.enterSpindown
  dsimp only
  generalize (s.endRun b).modWelt b _ = u at hdark ⊢
  refine (hdark.then (modBay_movesBay (bs := [.state, .downAt, .permit, .servo, .catching, .sled, .spin]) ?_)).mono (by simp) (by simp)
  exact bay_changesOnly_of_agrees (by rintro ⟨⟩ <;> simp [Bay.agrees])

/-- In SPINDOWN the lasers are off, and the bay keeps its disc. -/
theorem enterSpindown_bay : ((s.enterSpindown b).bay b).state = .spinDown ∧ ((s.enterSpindown b).bay b).downAt = s.now ∧
    ((s.enterSpindown b).bay b).welt.laserEn = false ∧ ((s.enterSpindown b).bay b).disc = (s.bay b).disc := by
  have hdisc : ((s.enterSpindown b).bay b).disc = (s.bay b).disc := (enterSpindown_movesBay s b).bay .disc (by simp)
  have hdark : (((s.endRun b).modWelt b fun w => { w with laserEn := false }).bay b).welt.laserEn = false := by rw [modWelt_welt]
  have hnow : ((s.endRun b).modWelt b fun w => { w with laserEn := false }).now = s.now :=
    (now_of_changesOnly (modWelt_movesBay _ b _).frame (by simp)).trans (endRun_now s b)
  refine ⟨?_, ?_, ?_, hdisc⟩ <;> unfold State.enterSpindown <;> dsimp only <;>
    generalize (s.endRun b).modWelt b _ = u at hdark hnow ⊢ <;> rw [modBay_bay_same]
  · exact hnow
  · exact hdark

end

end Sys2Proof.Proofs
end

section
/-! SUPPORT. The focus of a bay, and the statement about it (R257 to R260, R263). -/

namespace Sys2Proof.Proofs

open Sys2Proof Sys2Proof.Machine Sys2Proof.Laws

/-! ## Sweeps and their capture (R257, R258) -/

section
variable {b : BayId} {s : State}

theorem exec_focusSweepEnd (hstate : (s.bay b.val).state = .focus) (hsweeping : (s.bay b.val).servo.sweeping = true)
    (hend : (s.bay b.val).servo.sweepAt + msec (acqVal s b.val 0x0641).toNat ≤ s.now) :
    exec (.focusSweepEnd b) s = if (s.bay b.val).servo.sweeps + 1 < (acqVal s b.val 0x0642).toNat then
        .next (s.modServo b.val fun v => { v with sweeps := v.sweeps + 1, sweepAt := s.now })
      else if (s.bay b.val).mount.isSome then .next (((s.bayLogFree b.val 0x0607).failMount b.val 3).enterSpindown b.val)
      else .next (s.enterSafe b.val 0x0607) := if_pos ⟨hstate, hsweeping, hend⟩

/-- The servo of a bay whose sweep has captured L0 with a PPF and a SREF. -/
def capturedServo (p r : Nat) (v : Servo) : Servo :=
  { v with sweeping := false, focusClosed := true, focusSettling := true, settled := 0, layer := 0
           ppf := Tbl.set 0 v.ppf 0 p, sref := Tbl.set 0 v.sref 0 r }

theorem exec_focusCapture {r : Nat} (hstate : (s.bay b.val).state = .focus) (hsweeping : (s.bay b.val).servo.sweeping = true)
    (hsum : (acqVal s b.val 0x0643).toNat * 32767 < r * 100) (p : Nat) :
    exec (.focusCapture b p r) s = .next ((s.modServo b.val (capturedServo p r)).forceSet b.val 6) :=
  if_pos ⟨hstate, hsweeping, hsum⟩

end

/-! ## Focus has settled (R253, R256, R257, R259) -/

/-- Focus settled on L0: its set takes effect, gains are normalised, and the offsets are written. -/
def settledShallow (s : State) (b : Nat) : State :=
  writeOffsets (normFocus (((s.girthWrite 0x060E b 0).forceSet b 8).modServo b fun v =>
    { v with focusSettling := false, settled := 0, layer := 0 }) b 0) b

/-- Focus settled after a jump's last layer: as on L0, with the read power of the layer, and the other integrators free. -/
def settledJump (s : State) (b : Nat) (j : Jump) : State :=
  let u := ((s.girthWrite 0x060E b j.dest).forceSet b 8).modServo b fun v =>
    { v with jump := none, layer := j.dest, focusSettling := false, settled := 0 }
  writeOffsets (holdOthers ((normFocus u b j.dest).modWelt b fun w => { w with readPwr := readPower u b j.dest }) b false) b

theorem settledShallow_movesBay (s : State) (b : Nat) :
    MovesBay [.servo] [.bays, .pat, .girth, .logs, .events, .freeCtr] b s (settledShallow s b) :=
  ((((girthWrite_movesBay s b _ _ _).then (forceSet_movesBay _ b _ _)).then (modServo_movesBay _ b _)).then
    (normFocus_movesBay _ b 0)).then (writeOffsets_movesBay _ b) |>.mono (by simp) (by simp)

theorem settledShallow_servo (s : State) (b : Nat) :
    ((settledShallow s b).bay b).servo = { (s.bay b).servo with focusSettling := false, settled := 0, layer := 0 } := by
  simp [settledShallow]

theorem settledShallow_force (s : State) (b : Nat) : ((settledShallow s b).slot b).force = 8 := by
  simp [settledShallow]

theorem settledJump_movesBay (s : State) (b : Nat) (j : Jump) :
    MovesBay [.servo, .welt] [.bays, .pat, .girth, .logs, .events, .freeCtr] b s (settledJump s b j) :=
  ((((((girthWrite_movesBay s b _ _ _).then (forceSet_movesBay _ b _ _)).then (modServo_movesBay _ b _)).then
    (normFocus_movesBay _ b _)).then (modWelt_movesBay _ b _)).then (holdOthers_movesBay _ b false)).then (writeOffsets_movesBay _ b)
    |>.mono (by simp) (by simp)

theorem settledJump_servo (s : State) (b : Nat) (j : Jump) : ((settledJump s b j).bay b).servo =
    { (s.bay b).servo with jump := none, layer := j.dest, focusSettling := false, settled := 0 } := by
  simp [settledJump, State.modWelt]

section
variable {b : BayId} {s : State}

theorem exec_focusSettled_shallow (hjump : (s.bay b.val).servo.jump = none) (hsettling : (s.bay b.val).servo.focusSettling = true)
    (hsettled : 64 ≤ (s.bay b.val).servo.settled) : exec (.focusSettled b) s = .next (if (s.bay b.val).servo.wantLayer = 0 then
      startTracking (settledShallow s b.val) b.val
    else startJump (settledShallow s b.val) b.val (s.bay b.val).servo.wantLayer) := by
  change execFocusSettled b s = _
  rw [execFocusSettled, hjump]
  exact if_pos ⟨hsettling, hsettled⟩

theorem exec_focusSettled_jump {j : Jump} (hjump : (s.bay b.val).servo.jump = some j) (hcaptured : j.captured = true)
    (hfinal : j.dest = j.final) (hsettled : 64 ≤ (s.bay b.val).servo.settled) :
    exec (.focusSettled b) s = .next (startTracking (settledJump s b.val j) b.val) := by
  change execFocusSettled b s = _
  rw [execFocusSettled, hjump]
  dsimp only
  rw [if_neg (by simp [hcaptured]), if_neg (by simp [hfinal]), if_pos hsettled]
  rfl

/-! ## Layer jumps (R259) -/

/-- The servo of a bay whose layer jump has captured its layer with a PPF and a SREF. -/
def jumpCapturedServo (j : Jump) (now p r : Nat) (v : Servo) : Servo :=
  { v with jump := some { j with captured := true, at_ := now }, focusSettling := true, settled := 0
           ppf := Tbl.set 0 v.ppf j.dest p, sref := Tbl.set 0 v.sref j.dest r }

theorem exec_layerJumpCapture {j : Jump} (hjump : (s.bay b.val).servo.jump = some j) (hopen : j.captured = false)
    (hphase : j.phase = 4) (htime : s.now ≤ j.at_ + 160) (p r : Nat) : exec (.layerJumpCapture b p r) s =
      .next ((s.modServo b.val (jumpCapturedServo j s.now p r)).forceSet b.val 7) := by
  change execLayerJumpCapture b p r s = _
  rw [execLayerJumpCapture, hjump]
  exact if_pos ⟨hopen, hphase, htime⟩

theorem exec_layerJumpTimeout {j : Jump} (hjump : (s.bay b.val).servo.jump = some j) (hopen : j.captured = false)
    (htime : j.at_ + 160 ≤ s.now) : exec (.layerJumpTimeout b) s =
      .next (enterFocus ((holdOthers s b.val false).endRun b.val) b.val j.final) := by
  change execLayerJumpTimeout b s = _
  rw [execLayerJumpTimeout, hjump]
  exact if_pos ⟨hopen, htime⟩

/-! ## Focus is lost (R260, R263) -/

theorem exec_focusLoss_read (hlow : 8 ≤ (s.bay b.val).servo.lowSum) (hstate : (s.bay b.val).state = .read) :
    exec (.focusLoss b) s =
      .next (enterFocus ((holdFocus s b.val false).endRun b.val) b.val (s.bay b.val).servo.layer) := by
  change execFocusLoss b s = _
  rw [execFocusLoss, if_neg (Nat.not_lt.2 hlow), hstate]

theorem exec_focusLoss_write (hlow : 8 ≤ (s.bay b.val).servo.lowSum) (hstate : (s.bay b.val).state = .write) :
    exec (.focusLoss b) s = .next ((holdFocus s b.val false).enterHold b.val) := by
  change execFocusLoss b s = _
  rw [execFocusLoss, if_neg (Nat.not_lt.2 hlow), hstate]

end

/-- Focus begins again from the end of a run: the run is over, the bay sweeps, and no layer jump is left. -/
theorem enterFocus_endRun (s : State) (b n : Nat) :
    MovesBay [.chan, .servo, .welt, .state] [.bays, .pat, .girth, .recov] b s (enterFocus (s.endRun b) b n) ∧
    ((enterFocus (s.endRun b) b n).bay b).state = .focus ∧ ((enterFocus (s.endRun b) b n).bay b).servo.sweeping = true ∧
    ((enterFocus (s.endRun b) b n).bay b).servo.wantLayer = n ∧ ((enterFocus (s.endRun b) b n).bay b).servo.jump = none ∧
    ((enterFocus (s.endRun b) b n).bay b).chan.run = none := by
  obtain ⟨hstate, hservo⟩ := enterFocus_bay (s.endRun b) b n
  have hmoves := enterFocus_movesBay (s.endRun b) b n
  have hchan : ((enterFocus (s.endRun b) b n).bay b).chan = ((s.endRun b).bay b).chan := hmoves.bay .chan (by simp)
  refine ⟨(endRun_movesBay s b).then hmoves |>.mono (by simp) (by simp), hstate, ?_, ?_, ?_, ?_⟩
  · rw [hservo, sweptServo]
  · rw [hservo, sweptServo]
  · rw [hservo, sweptServo, Servo.abandon]
  · rw [hchan, endRun_run]

/-! ## The statement -/

/-- Settles O45: each event is the shared operations of the servo that it runs, and each leaves what the others make. -/
theorem focusIsAcquiredJumpedAndLost : Obligations.FocusIsAcquiredJumpedAndLost := by
  unfold Obligations.FocusIsAcquiredJumpedAndLost
  refine ⟨?again, ?last, ?capture, ?weak, ?shallow, ?deep, ?jumpCapture, ?jumpTimeout, ?lossRead, ?lossWrite, ?held⟩
  case again =>
    intro b s hstate hsweeping hend hmore
    have hmoves := modServo_movesBay s b.val fun v => { v with sweeps := v.sweeps + 1, sweepAt := s.now }
    exact ⟨_, (exec_focusSweepEnd hstate hsweeping hend).trans (if_pos hmore), modServo_servo _ _ _, hmoves.bay, hmoves.others,
      hmoves.frame⟩
  case last =>
    intro b s hstate hsweeping hend hlast hmount
    have hsafe : (s.bay b.val).state ≠ .safe := by simp [hstate]
    have hmoves := enterSafe_movesBay hsafe hmount 0x0607
    obtain ⟨hcause, -, hlaser⟩ := enterSafe_bay hsafe 0x0607
    refine ⟨_, ?_, enterSafe_state _ _ _, hcause, hlaser, hmoves.others, hmoves.frame⟩
    rw [exec_focusSweepEnd hstate hsweeping hend, if_neg (Nat.not_lt.2 hlast), if_neg (by simp [hmount])]
  case capture =>
    intro b p r s hstate hsweeping hsum
    have hmoves := (modServo_movesBay s b.val (capturedServo p r)).then (forceSet_movesBay _ b.val b.val 6)
    refine ⟨_, exec_focusCapture hstate hsweeping hsum p, ?_, ?_, ?_, ?_, ?_, ?_, ?_, ?_, hmoves.bay, hmoves.others, hmoves.frame⟩ <;>
      simp [capturedServo]
  case weak => exact fun b p r s hsum => if_neg fun h => absurd h.2.2 (Nat.not_lt.2 hsum)
  case shallow =>
    intro b s hjump hsettling hsettled
    have hservo := settledShallow_servo s b.val
    have hforce := settledShallow_force s b.val
    have hmoves := settledShallow_movesBay s b.val
    have hnow := now_of_changesOnly hmoves.frame (by simp)
    refine ⟨_, exec_focusSettled_shallow hjump hsettling hsettled, ?_⟩
    split
    next hwant =>
      have htrack := hmoves.then (startTracking_movesBay _ b.val)
      refine ⟨?_, ?_, ?_, ?_, htrack.others, changesOnly_mono htrack.frame (by simp)⟩ <;> simp [acquiringServo, hservo, hforce, hnow]
    next hwant =>
      have hjumped := hmoves.then (startJump_movesBay _ b.val (s.bay b.val).servo.wantLayer)
      have hbelow : 0 < (s.bay b.val).servo.wantLayer := Nat.pos_of_ne_zero hwant
      refine ⟨?_, ?_, ?_, ⟨_, congrArg Servo.jump (startJump_servo _ _ _), ?_⟩, hjumped.others, changesOnly_mono hjumped.frame (by simp)⟩ <;>
        simp [jumpFrom, hservo, hforce, hnow, hbelow]
  case deep =>
    intro b j s hjump hcaptured hfinal hsettled
    have hservo := settledJump_servo s b.val j
    have hmoves := (settledJump_movesBay s b.val j).then (startTracking_movesBay _ b.val)
    have hnow := now_of_changesOnly (settledJump_movesBay s b.val j).frame (by simp)
    refine ⟨_, exec_focusSettled_jump hjump hcaptured hfinal hsettled, ?_, ?_, ?_, hmoves.others,
        changesOnly_mono hmoves.frame (by simp)⟩ <;>
      simp [acquiringServo, hservo, hnow]
  case jumpCapture =>
    intro b j p r s hjump hopen hphase htime
    have hmoves := (modServo_movesBay s b.val (jumpCapturedServo j s.now p r)).then (forceSet_movesBay _ b.val b.val 7)
    refine ⟨_, exec_layerJumpCapture hjump hopen hphase htime p r, ?_, ?_, ?_, ?_, ?_, hmoves.bay, hmoves.others, hmoves.frame⟩ <;>
      simp [jumpCapturedServo]
  case jumpTimeout =>
    intro b j s hjump hopen htime
    obtain ⟨hmoves, hstate, hsweeping, hwant, hnone, -⟩ := enterFocus_endRun (holdOthers s b.val false) b.val j.final
    have hall := (holdOthers_movesBay s b.val false).then hmoves
    exact ⟨_, exec_layerJumpTimeout hjump hopen htime, hstate, hsweeping, hwant, hnone, hall.others, changesOnly_mono hall.frame (by simp)⟩
  case lossRead =>
    intro b s hlow hstate
    obtain ⟨hmoves, hfocus, hsweeping, hwant, -, hrun⟩ :=
      enterFocus_endRun (holdFocus s b.val false) b.val (s.bay b.val).servo.layer
    have hall := (holdFocus_movesBay s b.val false).then hmoves
    exact ⟨_, exec_focusLoss_read hlow hstate, hfocus, hsweeping, hrun, hwant, hall.others, changesOnly_mono hall.frame (by simp)⟩
  case lossWrite =>
    intro b s hlow hstate
    have hworking : ((holdFocus s b.val false).bay b.val).state ∈ [BayState.focus, .track, .read, .verify, .write] := by simp [hstate]
    obtain ⟨hheld, hlaser, hothers⟩ := enterHold_of_working hworking
    exact ⟨_, exec_focusLoss_write hlow hstate, hheld, hlaser, onlyBay_trans (holdFocus_movesBay s b.val false).others hothers⟩
  case held => exact fun b s hlow => if_pos hlow

end Sys2Proof.Proofs
end

section
/-! SUPPORT. Tracking, registration, track jumps and seeks, and the statement about them (R261 to R268). -/

namespace Sys2Proof.Proofs

open Sys2Proof Sys2Proof.Machine Sys2Proof.Laws

/-! ## Off-track (R262, R263) -/

/-- A read run that has left its track is over: the bay is in TRACK and counts its off-track stitches anew. -/
def offTrackEnded (s : State) (b : Nat) : State :=
  ((s.endRun b).modBay b fun y => { y with state := .track }).modServo b fun v => { v with offCount := 0 }

theorem offTrackEnded_movesBay (s : State) (b : Nat) :
    MovesBay [.chan, .servo, .welt, .state] [.recov, .bays, .pat] b s (offTrackEnded s b) := by
  have htrack (u : State) : MovesBay [.state] [.bays] b u (u.modBay b fun y => { y with state := .track }) :=
    modBay_movesBay (bay_changesOnly_of_agrees (by rintro ⟨⟩ <;> simp [Bay.agrees]))
  exact ((endRun_movesBay s b).then (htrack _)).then (modServo_movesBay _ b _) |>.mono (by simp) (by simp)

theorem offTrackEnded_bay (s : State) (b : Nat) : ((offTrackEnded s b).bay b).state = .track ∧
    ((offTrackEnded s b).bay b).chan.run = none ∧ ((offTrackEnded s b).bay b).servo.offCount = 0 := by
  simp [offTrackEnded, State.modServo, endRun_run]

section
variable {b : BayId} {s : State}

theorem exec_offTrack_write (hlow : (s.bay b.val).servo.lowSum < 8) (hstate : (s.bay b.val).state = .write)
    (hoff : 1 ≤ (s.bay b.val).servo.offCount) : exec (.offTrack b) s = .next (s.enterHold b.val) := by
  change execOffTrack b s = _
  rw [execOffTrack, if_neg (Nat.not_le.2 hlow), if_pos ⟨hstate, hoff⟩]

theorem exec_offTrack_read (hlow : (s.bay b.val).servo.lowSum < 8) (hstate : (s.bay b.val).state = .read)
    (hoff : 2 ≤ (s.bay b.val).servo.offCount) :
    exec (.offTrack b) s = .next (startTracking (offTrackEnded s b.val) b.val) := by
  change execOffTrack b s = _
  rw [execOffTrack, if_neg (Nat.not_le.2 hlow), if_neg (by simp [hstate]), if_pos ⟨hoff, .inl hstate⟩]
  rfl

theorem exec_offTrack_on (hoff : (s.bay b.val).servo.offCount = 0) : exec (.offTrack b) s = .next s := by
  change execOffTrack b s = _
  simp [execOffTrack, hoff]

/-! ## Tracking enters, or fails to (R261, R264, R268) -/

/-- The servo of a bay whose tracking has captured. -/
def trackingServo (now : Nat) (v : Servo) : Servo :=
  { v with tracking := true, trackAcq := none, ppt := spanPpt v.teSpan, trackSettling := true, settled := 0, tiltAcq := some now
           offCount := 0 }

/-- Tracking and tilt enter with set 4 forced, and sled follow with the set of its own. -/
def trackingForced (s : State) (b : Nat) : State :=
  (((s.modServo b (trackingServo s.now)).forceSet (16 + b) 4).forceSet (32 + b) 4).forceSet (sledSlot b) 8

/-- A sled at rest that begins to follow. -/
def followSled (s : State) (b : Nat) (d : Sled) : Sled :=
  if d.state = .rest ∨ d.state = .ramping then
    ({ d with state := .follow, velocity := 0, taken := sledTake s b }).ramp s.now (s.pnat 0x080E b) else d

/-- Tracking has entered (R261): sled follow starts from rest, and the offsets are written. -/
def trackingEntered (s : State) (b : Nat) : State :=
  writeOffsets ((trackingForced s b).modSled b (followSled (trackingForced s b) b)) b

theorem trackingEntered_movesBay (s : State) (b : Nat) :
    MovesBay [.servo, .sled] [.bays, .pat, .girth] b s (trackingEntered s b) :=
  (((((modServo_movesBay s b _).then (forceSet_movesBay _ b _ _)).then (forceSet_movesBay _ b _ _)).then
    (forceSet_movesBay _ b _ _)).then (modSled_movesBay _ b _)).then (writeOffsets_movesBay _ b) |>.mono (by simp) (by simp)

theorem trackingEntered_servo (s : State) (b : Nat) :
    ((trackingEntered s b).bay b).servo = trackingServo s.now (s.bay b).servo := by
  simp [trackingEntered, trackingForced, State.modSled]

theorem trackingEntered_force (s : State) (b : Nat) : ((trackingEntered s b).slot (16 + b)).force = 4 ∧
    ((trackingEntered s b).slot (32 + b)).force = 4 ∧ ((trackingEntered s b).slot (64 + b)).force = 8 := by
  simp [trackingEntered, trackingForced, sledSlot]

theorem exec_trackingCapture {t0 : Nat} (hacq : (s.bay b.val).servo.trackAcq = some t0) :
    exec (.trackingCapture b) s = if t0 + 100 ≤ s.now ∧ slowCrossing (s.bay b.val).servo (acqVal s b.val 0x0645).toNat then
      .next (trackingEntered s b.val) else .next s := by
  change execTrackingCapture b s = _
  rw [execTrackingCapture, hacq]
  rfl

theorem exec_trackingAcqTimeout {t0 : Nat} (hacq : (s.bay b.val).servo.trackAcq = some t0) (htime : t0 + 4000 ≤ s.now) :
    exec (.trackingAcqTimeout b) s = .next (regFailure s b.val) := by
  change execTrackingAcqTimeout b s = _
  rw [execTrackingAcqTimeout, hacq]
  exact if_pos htime

end

section
variable {b : Nat} {s : State}

/-- A registration failure within REG_TRIES: tracking is acquired again. -/
theorem regFailure_again (h : (s.bay b).servo.regFails + 1 < s.pnat 0x064D b) :
    regFailure s b = startTracking (s.modServo b fun v => { v with regFails := v.regFails + 1 }) b := if_pos h

theorem regFailure_again_servo (h : (s.bay b).servo.regFails + 1 < s.pnat 0x064D b) :
    ((regFailure s b).bay b).servo.regFails = (s.bay b).servo.regFails + 1 ∧ ((regFailure s b).bay b).servo.trackAcq = some s.now ∧
      ((regFailure s b).bay b).servo.trackJump = none := by
  rw [regFailure_again h, startTracking_servo, acquiringServo, modServo_servo]
  exact ⟨rfl, rfl, rfl⟩

theorem regFailure_again_movesBay (h : (s.bay b).servo.regFails + 1 < s.pnat 0x064D b) :
    MovesBay [.servo] [.bays, .girth] b s (regFailure s b) := by
  rw [regFailure_again h]
  exact ((modServo_movesBay s b _).then (startTracking_movesBay _ b)).mono (by simp) (by simp)

/-- The last failure of the first series leads back to focus. -/
theorem regFailure_focus (h : s.pnat 0x064D b ≤ (s.bay b).servo.regFails + 1) (hseries : (s.bay b).servo.regSeries = 0) :
    regFailure s b = (enterFocus (s.endRun b) b (s.bay b).servo.layer).modServo b fun v => { v with regSeries := 1, regFails := 0 } := by
  rw [regFailure, if_neg (Nat.not_lt.2 h), if_pos hseries]

/-- The last failure of a later series puts a bay with a mounted disc in SAFE. -/
theorem regFailure_safe (h : s.pnat 0x064D b ≤ (s.bay b).servo.regFails + 1) (hseries : (s.bay b).servo.regSeries ≠ 0)
    (hmount : (s.bay b).mount = none) : regFailure s b = s.enterSafe b 0x0608 := by
  rw [regFailure, if_neg (Nat.not_lt.2 h), if_neg hseries, if_neg (by simp [hmount])]

end

/-! ## Registration (R268) -/

section
variable {b : BayId} {s : State} {n : BeamId} {w : BitVec 60}

/-- One good address word of the layer, under a beam of a plain disc. -/
theorem regFind_plain {y : Bay} (hplain : bayRidged y = false) (hgood : awGood w = true) (hlayer : awLayer w = y.servo.layer) :
    regFind y [(n, w)] none =
      if awSpiral w = n.val then .correct else .jump (plainFix ((awSpiral w + 8 - n.val) % 8)) := by
  by_cases hspiral : awSpiral w = n.val <;> simp [regFind, hplain, hgood, hlayer, hspiral]

/-- Registration is found correct at a grid position. -/
def registeredAt (s : State) (b : Nat) (c : Int) : State :=
  s.modBay b fun y =>
    { y with state := if y.state = .focus then .track else y.state
             servo := { y.servo with registered := true, regFails := 0, regSeries := 0, parkGrid := c } }

theorem registeredAt_movesBay (s : State) (b : Nat) (c : Int) :
    MovesBay [.state, .servo] [.bays] b s (registeredAt s b c) :=
  modBay_movesBay (bay_changesOnly_of_agrees (by rintro ⟨⟩ <;> simp [Bay.agrees]))

theorem seekOn_of_none {b : Nat} (h : (s.bay b).servo.seek = none) (c : Int) : seekOn s b c = s := by
  rw [seekOn, h]

section
variable (htracking : (s.bay b.val).servo.tracking = true) (hsettled : (s.bay b.val).servo.trackSettling = false)
  (htrackJump : (s.bay b.val).servo.trackJump = none) (hjump : (s.bay b.val).servo.jump = none)
include htracking hsettled htrackJump hjump

theorem exec_registrationCheck_correct (hseek : (s.bay b.val).servo.seek = none) (hgood : awGood w = true)
    (hfind : regFind (s.bay b.val) [(n, w)] none = .correct) :
    exec (.registrationCheck b [(n, w)] none) s = .next (registeredAt s b.val (awGrid w)) := by
  have hnone : ((registeredAt s b.val (awGrid w)).bay b.val).servo.seek = none := by simp [registeredAt, hseek]
  change execRegistrationCheck b [(n, w)] none s = _
  rw [execRegistrationCheck, if_neg (by simp [htracking, hsettled, htrackJump, hjump]), hfind]
  simp only [List.filter_cons_of_pos (l := []) (p := fun w : BeamId × BitVec 60 => awGood w.2) (a := (n, w)) hgood, List.head?_cons]
  exact congrArg Host.Outcome.next (seekOn_of_none hnone _)

theorem exec_registrationCheck_jump {words : List (BeamId × BitVec 60)} {k : Int} (hfind : regFind (s.bay b.val) words none = .jump k)
    (hfails : (s.bay b.val).servo.regFails + 1 < s.pnat 0x064D b.val) : exec (.registrationCheck b words none) s =
      .next (startTrackJump (s.modServo b.val fun v => { v with regFails := v.regFails + 1 }) b.val k) := by
  change execRegistrationCheck b words none s = _
  rw [execRegistrationCheck, if_neg (by simp [htracking, hsettled, htrackJump, hjump]), hfind]
  exact if_pos hfails

end

/-- Without a readable word nothing is found. -/
theorem exec_registrationCheck_nil (b : BayId) (s : State) : exec (.registrationCheck b [] none) s = .next s := by
  change execRegistrationCheck b [] none s = _
  have hfind : regFind (s.bay b.val) [] none = .nothing := rfl
  rw [execRegistrationCheck, hfind]
  exact ite_self _

/-! ## Track jumps, turn-back and seeks (R265 to R267) -/

/-- A track jump is over, and the integrator of sled follow is free. -/
def trackJumpOver (s : State) (b : Nat) : State :=
  (s.modServo b fun v => { v with trackJump := none }).modSlot (sledSlot b) fun x => { x with hold := false }

theorem trackJumpOver_movesBay (s : State) (b : Nat) : MovesBay [.servo] [.bays, .girth] b s (trackJumpOver s b) :=
  (modServo_movesBay s b _).then (modSlot_movesBay _ b _ _)

theorem trackJumpOver_servo (s : State) (b : Nat) :
    ((trackJumpOver s b).bay b).servo = { (s.bay b).servo with trackJump := none } := by
  simp [trackJumpOver]

theorem exec_trackJumpDone {j : TrackJump} (hjump : (s.bay b.val).servo.trackJump = some j) :
    exec (.trackJumpDone b) s = if j.at_ + 72 + 2 * j.n.natAbs < s.now then .next (regFailure (trackJumpOver s b.val) b.val)
      else if j.phase = 3 ∧ 32 ≤ (s.bay b.val).servo.settled then .next ((trackJumpOver s b.val).forceSet (16 + b.val) 8)
      else .next s := by
  change execTrackJumpDone b s = _
  rw [execTrackJumpDone, hjump]
  simp only [Servo.reentered, hjump, decide_eq_true_eq]
  rfl

theorem exec_turnBack (hstate : (s.bay b.val).state = .track) (hrun : (s.bay b.val).chan.run = none)
    (htracking : (s.bay b.val).servo.tracking = true) (hseek : (s.bay b.val).servo.seek = none)
    (htrackJump : (s.bay b.val).servo.trackJump = none) (hjump : (s.bay b.val).servo.jump = none) :
    exec (.turnBack b) s = .next (startTrackJump s b.val (-8)) :=
  if_pos (by simp [hstate, hrun, htracking, hseek, htrackJump, hjump])

/-- A seek is begun, and the flywheel is unlocked. -/
def seekBegun (s : State) (b : Nat) (k : Seek) : State :=
  (s.modServo b fun v => { v with seek := some k }).modChan b fun c => { c with fly := .unlocked, coast := 0 }

theorem seekBegun_movesBay (s : State) (b : Nat) (k : Seek) : MovesBay [.servo, .chan] [.bays] b s (seekBegun s b k) :=
  ((modServo_movesBay s b _).then (modChan_movesBay _ b _)).mono (by simp) (by simp)

theorem seekBegun_servo (s : State) (b : Nat) (k : Seek) :
    ((seekBegun s b k).bay b).servo = { (s.bay b).servo with seek := some k } := by
  simp [seekBegun, State.modChan]

theorem exec_seek (hruns : s.fwRuns = true) (hstate : (s.bay b.val).state = .track) (hrun : (s.bay b.val).chan.run = none)
    (htracking : (s.bay b.val).servo.tracking = true) (hseek : (s.bay b.val).servo.seek = none) (l : Fin 6) (g : Int) :
    exec (.seek b l g) s = .next (if l.val = (s.bay b.val).servo.layer then
      seekOn (seekBegun s b.val ⟨l.val, g⟩) b.val (s.bay b.val).servo.parkGrid
    else startJump (seekBegun s b.val ⟨l.val, g⟩) b.val l.val) :=
  if_pos (by simp [hruns, hstate, hrun, htracking, hseek])

/-- What is left of a seek within JUMP_MAX turns is a turn jump. -/
theorem seekOn_jump {b : Nat} {k : Seek} {c : Int} (hseek : (s.bay b).servo.seek = some k) (hfar : turnsBetween c k.grid - 1 ≠ 0)
    (hnear : (turnsBetween c k.grid - 1).natAbs ≤ s.pnat 0x0648 b) :
    seekOn s b c = startTrackJump s b (8 * (turnsBetween c k.grid - 1)) := by
  rw [seekOn, hseek]
  dsimp only
  rw [if_neg (Nat.not_lt.2 hnear), if_pos hfar]

end

/-! ## The statement -/

/-- Settles O46: each event is the shared operations of the servo that it runs, and each leaves what the others make. -/
theorem trackingRegistersJumpsAndSeeks : Obligations.TrackingRegistersJumpsAndSeeks := by
  unfold Obligations.TrackingRegistersJumpsAndSeeks
  refine ⟨?offWrite, ?offRead, ?onTrack, ?capture, ?noCapture, ?again, ?series, ?correct, ?wrong, ?unread, ?jumped, ?jumping, ?late,
    ?turnBack, ?seekTurns, ?seekLayer⟩
  case offWrite =>
    intro b s hlow hstate hoff
    exact ⟨_, exec_offTrack_write hlow hstate hoff, enterHold_of_working (by simp [hstate])⟩
  case offRead =>
    intro b s hlow hstate hoff
    obtain ⟨htrack, hrun, hcount⟩ := offTrackEnded_bay s b.val
    have hended := offTrackEnded_movesBay s b.val
    have hstart := startTracking_movesBay (offTrackEnded s b.val) b.val
    have hall := hended.then hstart
    refine ⟨_, exec_offTrack_read hlow hstate hoff, (hstart.bay .state (by simp)).trans htrack, ?_, ?_, ?_, ?_, ?_, hall.others,
      changesOnly_mono hall.frame (by simp)⟩
    · exact (congrArg Channel.run (hstart.bay .chan (by simp))).trans hrun
    · simp [acquiringServo]
    · simp [acquiringServo, now_of_changesOnly hended.frame]
    · simp [acquiringServo, hcount]
    · simp
  case onTrack => exact fun b s hoff => exec_offTrack_on hoff
  case capture =>
    intro b t0 s hacq htime hslow
    obtain ⟨htrack, htilt, hsled⟩ := trackingEntered_force s b.val
    have hmoves := trackingEntered_movesBay s b.val
    refine ⟨_, (exec_trackingCapture hacq).trans (if_pos ⟨htime, hslow⟩), ?_, ?_, ?_, ?_, ?_, htrack, htilt, hsled, hmoves.bay,
      hmoves.others, hmoves.frame⟩ <;> rw [trackingEntered_servo] <;> rfl
  case noCapture =>
    intro b t0 s hacq hnot
    refine (exec_trackingCapture hacq).trans (if_neg ?_)
    rintro ⟨htime, hslow⟩
    rcases hnot with h | h
    · exact absurd htime (Nat.not_le.2 h)
    · simp [h] at hslow
  case again =>
    intro b t0 s hacq htime hfails
    obtain ⟨hcount, hanew, -⟩ := regFailure_again_servo hfails
    have hmoves := regFailure_again_movesBay hfails
    exact ⟨_, exec_trackingAcqTimeout hacq htime, hcount, hanew, hmoves.bay, hmoves.others, hmoves.frame⟩
  case series =>
    intro b t0 s hacq htime hfails hmount hsafe
    refine ⟨_, exec_trackingAcqTimeout hacq htime, ?_⟩
    beta_reduce
    by_cases hseries : (s.bay b.val).servo.regSeries = 0
    · obtain ⟨hmoves, hfocus, -⟩ := enterFocus_endRun s b.val (s.bay b.val).servo.layer
      rw [if_pos hseries, regFailure_focus hfails hseries]
      have hservo := modServo_movesBay (enterFocus (s.endRun b.val) b.val (s.bay b.val).servo.layer) b.val
        fun v => { v with regSeries := 1, regFails := 0 }
      exact ⟨⟨(hservo.bay .state (by simp)).trans hfocus, by rw [modServo_servo], by rw [modServo_servo]⟩,
        onlyBay_trans hmoves.others hservo.others⟩
    · rw [if_neg hseries, regFailure_safe hfails hseries hmount]
      exact ⟨⟨enterSafe_state _ _ _, (enterSafe_bay hsafe 0x0608).1⟩, (enterSafe_stopsBay s b.val 0x0608).others⟩
  case correct =>
    intro b n w s htracking hsettled htrackJump hjump hseek hplain hgood hlayer hspiral
    have hfind := (regFind_plain hplain hgood hlayer).trans (if_pos hspiral)
    have hmoves := registeredAt_movesBay s b.val (awGrid w)
    refine ⟨_, exec_registrationCheck_correct htracking hsettled htrackJump hjump hseek hgood hfind, ?_, ?_, hmoves.bay, hmoves.others,
      hmoves.frame⟩ <;> rw [registeredAt, modBay_bay_same]
  case wrong =>
    intro b n w s htracking hsettled htrackJump hjump hplain hgood hlayer hspiral hfails
    have hfind := (regFind_plain hplain hgood hlayer).trans (if_neg hspiral)
    have hmoves := (modServo_movesBay s b.val fun v => { v with regFails := v.regFails + 1 }).then
      (startTrackJump_movesBay _ b.val (plainFix ((awSpiral w + 8 - n.val) % 8)))
    refine ⟨_, exec_registrationCheck_jump htracking hsettled htrackJump hjump hfind hfails, ?_, ?_, ?_, hmoves.bay .state (by simp),
      hmoves.others, changesOnly_mono hmoves.frame (by simp)⟩ <;> rw [startTrackJump_servo, modServo_servo]
    rfl
  case unread => exact exec_registrationCheck_nil
  case jumped =>
    intro b j s hjump htime hphase hsettled
    have hmoves := (trackJumpOver_movesBay s b.val).then (forceSet_movesBay _ b.val (16 + b.val) 8)
    have hexec := ((exec_trackJumpDone hjump).trans (if_neg (Nat.not_lt.2 htime))).trans (if_pos ⟨hphase, hsettled⟩)
    refine ⟨_, hexec, trackJumpOver_servo s b.val, by simp, ?_, hmoves.bay, hmoves.others, changesOnly_mono hmoves.frame (by simp)⟩
    simp [trackJumpOver, sledSlot, State.forceSet, modSlot_slot_at]
  case jumping =>
    intro b j s hjump htime hnot
    rw [exec_trackJumpDone hjump, if_neg (Nat.not_lt.2 htime), if_neg (by omega)]
  case late =>
    intro b j s hjump htime hfails
    have hover := trackJumpOver_servo s b.val
    have hfails' : ((trackJumpOver s b.val).bay b.val).servo.regFails + 1 < (trackJumpOver s b.val).pnat 0x064D b.val := by
      rw [hover]
      exact hfails
    obtain ⟨hcount, hanew, hnone⟩ := regFailure_again_servo hfails'
    have hmoves := (trackJumpOver_movesBay s b.val).then (regFailure_again_movesBay hfails')
    refine ⟨_, (exec_trackJumpDone hjump).trans (if_pos htime), hnone, hanew, ?_, bay_changesOnly_mono hmoves.bay (by simp), hmoves.others,
      changesOnly_mono hmoves.frame (by simp)⟩
    rw [hcount, hover]
  case turnBack =>
    intro b s hstate hrun htracking hseek htrackJump hjump
    obtain ⟨hkick, hheld⟩ := startTrackJump_slots s b.val (-8)
    have hmoves := startTrackJump_movesBay s b.val (-8)
    exact ⟨_, exec_turnBack hstate hrun htracking hseek htrackJump hjump, congrArg Servo.trackJump (startTrackJump_servo s b.val (-8)),
      startTrackJump_fly s b.val (-8), hkick, hheld, hmoves.bay, hmoves.others, hmoves.frame⟩
  case seekTurns =>
    intro b l g s hruns hstate hrun htracking hseek hlayer hfar hnear
    have hbegun := seekBegun_servo s b.val ⟨l.val, g⟩
    have hon := seekOn_jump (s := seekBegun s b.val ⟨l.val, g⟩) (congrArg Servo.seek hbegun) hfar hnear
    have hmoves := (seekBegun_movesBay s b.val ⟨l.val, g⟩).then
      (startTrackJump_movesBay _ b.val (8 * (turnsBetween (s.bay b.val).servo.parkGrid g - 1)))
    have hexec := exec_seek hruns hstate hrun htracking hseek l g
    rw [if_pos hlayer, hon] at hexec
    refine ⟨_, hexec, ?_,
      ⟨_, congrArg Servo.trackJump (startTrackJump_servo _ _ _), rfl, rfl, rfl⟩, bay_changesOnly_mono hmoves.bay (by simp), hmoves.others,
      changesOnly_mono hmoves.frame (by simp)⟩
    rw [startTrackJump_servo, hbegun]
  case seekLayer =>
    intro b l g s hruns hstate hrun htracking hseek hlayer
    have hbegun := seekBegun_servo s b.val ⟨l.val, g⟩
    have hmoves := (seekBegun_movesBay s b.val ⟨l.val, g⟩).then (startJump_movesBay _ b.val l.val)
    have hexec := exec_seek hruns hstate hrun htracking hseek l g
    rw [if_neg hlayer] at hexec
    refine ⟨_, hexec, ?_,
      ⟨_, congrArg Servo.jump (startJump_servo _ _ _), ?_, ?_, ?_⟩, bay_changesOnly_mono hmoves.bay (by simp), hmoves.others,
      changesOnly_mono hmoves.frame (by simp)⟩
    · rw [startJump_servo, hbegun]
    all_goals simp [jumpFrom, hbegun]

end Sys2Proof.Proofs
end

section
/-! SUPPORT. The ways out of HOLD and SAFE, a disc's presence, demand for a spindle, and the statement about them (R269, R271, R284, R285,
R496). -/

namespace Sys2Proof.Proofs

open Sys2Proof Sys2Proof.Machine Sys2Proof.Laws

/-! ## HOLD and SAFE are left (R271) -/

section
variable {b : BayId} {s : State}

theorem exec_holdRelease (hruns : s.fwRuns = true) (hstate : (s.bay b.val).state = .hold)
    (htime : (s.bay b.val).holdAt + s.pnat 0x0649 b.val ≤ s.now) (hup : (s.bay b.val).welt.phase = .up)
    (hgood : 16 ≤ (s.bay b.val).welt.good) (hparity : parityDisabled s b.val = false)
    (hlatch : (s.bay b.val).welt.uplink.holdLatch = true) :
    exec (.holdRelease b) s = .next (enterFocus s b.val (s.bay b.val).servo.layer) :=
  if_pos ⟨hruns, hstate, htime, hup, hgood, hparity, hlatch⟩

theorem exec_holdTimeout (hruns : s.fwRuns = true) (hstate : (s.bay b.val).state = .hold)
    (htime : (s.bay b.val).holdAt + 200000 ≤ s.now) : exec (.holdTimeout b) s = .next (s.enterSafe b.val 0x0609) :=
  if_pos ⟨hruns, hstate, by rw [secs]; exact htime⟩

/-- A SAFE restart of a bay whose link is up. -/
def restarted (s : State) (b : Nat) : State :=
  s.modBay b fun y =>
    { y with state := .spinUp, safeStarts := recentStarts s b ++ [s.now], dibCheck := true
             spin := { y.spin with startsRow := 0 }, chan := { y.chan with fly := .unlocked, coast := 0 } }

theorem restarted_movesBay (s : State) (b : Nat) :
    MovesBay [.state, .restarts, .dibCheck, .spin, .chan] [.bays] b s (restarted s b) :=
  modBay_movesBay (bay_changesOnly_of_agrees (by rintro ⟨⟩ <;> simp [Bay.agrees]))

theorem mayRestart_link_up {b : Nat} (h : mayRestart s b = true) : (s.bay b).welt.phase = .up := by
  simp only [mayRestart, Bool.and_eq_true, decide_eq_true_eq] at h
  tauto

theorem safeRestart_of_up {b : Nat} (h : (s.bay b).welt.phase = .up) : safeRestart s b = restarted s b := by
  rw [safeRestart, modBay_bay_same]
  exact if_neg (by simp [h])

theorem exec_safeRestartStart (hruns : s.fwRuns = true) (hmay : mayRestart s b.val = true)
    (hfew : (recentStarts s b.val).length < s.pnat 0x064B b.val) : exec (.safeRestartStart b) s = .next (restarted s b.val) := by
  change execSafeRestartStart b s = _
  rw [execSafeRestartStart, if_pos ⟨hruns, hmay, hfew⟩, safeRestart_of_up (mayRestart_link_up hmay)]

/-- In SAFE, standstill brings nothing to a bay that keeps its disc and has no RELEASE waiting. -/
theorem settleBay_of_safe {b : Nat} (hstate : (s.bay b).state = .safe) (hdisc : (s.bay b).disc.isSome = true)
    (hpresent : (s.bay b).present = true) (hreleasing : (s.bay b).releasing = []) : settleBay s b = s := by
  have hended : endReleases s b = s := if_pos (by simp [hreleasing])
  have hheld : (s.bay b).disc.isNone = false := by simpa using hdisc
  unfold settleBay
  dsimp only
  rw [hstate]
  simp [hended, hheld, hpresent]

theorem exec_safeRestartStart_limited (hruns : s.fwRuns = true) (hstate : (s.bay b.val).state = .safe)
    (hmany : s.pnat 0x064B b.val ≤ (recentStarts s b.val).length) :
    exec (.safeRestartStart b) s = .next (settleBay s b.val) := by
  change execSafeRestartStart b s = _
  rw [execSafeRestartStart, if_neg fun h => absurd h.2.2 (Nat.not_lt.2 hmany), if_pos ⟨hruns, hstate⟩]

end

/-! ## A disc comes, or goes (R269, R285, R496) -/

/-- The level of DISC_N, and of LD_BUSY_N, as it changes. -/
def withDiscPin (s : State) (b : Nat) (v : Bool) : State := s.modBay b fun y => { y with discPin := v }
def withBusyPin (s : State) (b : Nat) (v : Bool) : State := s.modBay b fun y => { y with busyPin := v }

theorem withDiscPin_bay (s : State) (b : Nat) (v : Bool) : (withDiscPin s b v).bay b = { s.bay b with discPin := v } :=
  modBay_bay_same s b _

theorem withBusyPin_bay (s : State) (b : Nat) (v : Bool) : (withBusyPin s b v).bay b = { s.bay b with busyPin := v } :=
  modBay_bay_same s b _

theorem withDiscPin_movesBay (s : State) (b : Nat) (v : Bool) : MovesBay [.pins] [.bays] b s (withDiscPin s b v) :=
  modBay_movesBay (bay_changesOnly_of_agrees (by rintro ⟨⟩ <;> simp [Bay.agrees]))

theorem withBusyPin_movesBay (s : State) (b : Nat) (v : Bool) : MovesBay [.pins] [.bays] b s (withBusyPin s b v) :=
  modBay_movesBay (bay_changesOnly_of_agrees (by rintro ⟨⟩ <;> simp [Bay.agrees]))

theorem absent_of_busy {y : Bay} (h : y.busyPin = true) : y.present = false := by simp [Bay.present, h]

/-- A bay that comes to LOADED or EMPTY keeps its disc where it is present. -/
theorem toLoaded_movesBay (s : State) (b : Nat) : MovesBay [.state, .disc, .chan, .permit] [.bays] b s (toLoaded s b) :=
  modBay_movesBay (bay_changesOnly_of_agrees (by rintro ⟨⟩ <;> simp [Bay.agrees, Bay.permit]))

theorem toLoaded_bay (s : State) (b : Nat) : ((toLoaded s b).bay b).state = (if (s.bay b).present then .loaded else .empty) ∧
    ((toLoaded s b).bay b).disc = (if (s.bay b).present then (s.bay b).disc else none) := by
  rw [toLoaded, modBay_bay_same]
  exact ⟨rfl, rfl⟩

/-- LD_PERMIT of a bay at standstill that comes to LOADED or EMPTY without a disc and a mount. -/
theorem toLoaded_permit {s : State} {b : Nat} (hstill : (s.bay b).still = true) (hdisc : (s.bay b).disc = none)
    (hmount : (s.bay b).mount = none) : ((toLoaded s b).bay b).ldPermit = true := by
  have hspin : (s.bay b).spin.state = .standstill ∧ (s.bay b).spin.confirmed = true := by simpa [Bay.still] using hstill
  obtain ⟨hstand, hconfirmed⟩ := hspin
  rw [toLoaded, modBay_bay_same]
  cases hp : (s.bay b).present <;> simp [Bay.permit, Bay.still, hstand, hconfirmed, hdisc, hmount]

section
variable {b : Nat} {s : State}

theorem settleBay_of_empty (hstill : (s.bay b).still = true) (hstate : (s.bay b).state = .empty) (hpresent : (s.bay b).present = true) :
    settleBay s b = toLoaded s b := by
  unfold settleBay
  dsimp only
  rw [hstate]
  simp [hstill, hpresent]

theorem settleBay_of_loaded_lost (hstill : (s.bay b).still = true) (hstate : (s.bay b).state = .loaded)
    (hpresent : (s.bay b).present = false) : settleBay s b = toLoaded s b := by
  unfold settleBay
  dsimp only
  rw [hstate]
  simp [hstill, hpresent]

/-- At standstill a lost disc settles the bay. -/
theorem presenceLost_of_still (hstill : (s.bay b).still = true) : presenceLost s b = settleBay s b := by
  have hconfirmed : (s.bay b).spin.confirmed = true := (Bool.and_eq_true_iff.1 hstill).2
  rw [presenceLost, if_neg (by simp [hconfirmed]), if_pos hstill]

/-- A disc lost while it turns in TRACK, in no mount and in no course, is logged and stops the spindle. -/
theorem presenceLost_of_turning (hconfirmed : (s.bay b).spin.confirmed = true) (hturning : (s.bay b).still = false)
    (hstate : (s.bay b).state = .track) (hmount : (s.bay b).mount = none) (hcourse : s.courseOfBay b = none) :
    presenceLost s b = (s.bayLogFree b 0x0705).enterSpindown b := by
  have hlog := (bayLogFree_movesBay s b b 0x0705).frame
  have hkept : (s.bayLogFree b 0x0705).bay b = s.bay b := bay_eq_of_bays_eq (hlog .bays (by simp)) b
  have hnofail : (s.bayLogFree b 0x0705).failMount b 7 = s.bayLogFree b 0x0705 := failMount_of_none (by rw [hkept, hmount]) 7
  have hnocourse : (s.bayLogFree b 0x0705).courseOfBay b = none :=
    (courseOfBay_eq_of_courses_eq (hlog .courses (by simp)) b).trans hcourse
  unfold presenceLost
  simp [hconfirmed, hturning, hnofail, hnocourse, hstate]

end

section
variable {b : BayId} {s : State}

theorem exec_discPresentChange (v : Bool) : exec (.discPresentChange b v) s =
    .next (if s.powered 18 = false ∨ (s.bay b.val).present = ((withDiscPin s b.val v).bay b.val).present then withDiscPin s b.val v
      else if ((withDiscPin s b.val v).bay b.val).present then settleBay (withDiscPin s b.val v) b.val
      else presenceLost (withDiscPin s b.val v) b.val) := rfl

/-- The loader takes a disc that was present: it is lost. -/
theorem exec_ldBusyChange_lost (hpd : s.powered 18 = true) (hpresent : (s.bay b.val).present = true)
    (hmount : (s.bay b.val).mount = none) :
    exec (.ldBusyChange b true) s = .next (presenceLost (withBusyPin s b.val true) b.val) := by
  change execLdBusyChange b true s = _
  simp [execLdBusyChange, hpd, hpresent, absent_of_busy, hmount, withBusyPin]

/-! ## Demand (R284) -/

theorem exec_demandStart (hruns : s.fwRuns = true) (hmode : s.mode.data = true) (hstate : (s.bay b.val).state = .loaded)
    (hdisc : (s.bay b.val).disc.isSome = true) (hservice : (s.bay b.val).outOfService = false)
    (hreleasing : (s.bay b.val).releasing = []) (hurgent : urgentWaits s b.val = true) :
    exec (.demandStart b) s = .next (s.modBay b.val fun y =>
      { y with state := .spinUp, dibCheck := true, ldPermit := false, chan := { y.chan with fly := .unlocked, coast := 0 } }) :=
  if_pos ⟨hruns, hmode, hstate, hdisc, hservice, hreleasing, .inr hurgent⟩

theorem exec_demandStart_calm (hfew : waitingSectors s b.val < s.pnat 0x070E b.val) (hcalm : urgentWaits s b.val = false) :
    exec (.demandStart b) s = .next s := by
  refine if_neg ?_
  rintro ⟨-, -, -, -, -, -, hmany | hurgent⟩
  · exact absurd hmany (Nat.not_le.2 hfew)
  · simp [hcalm] at hurgent

theorem exec_demandStop {t0 : Nat} (hruns : s.fwRuns = true) (hidle : (s.bay b.val).spin.idleSince = some t0)
    (hstate : (s.bay b.val).state = .track) (hdisc : (s.bay b.val).disc.isSome = true) (hmount : (s.bay b.val).mount = none)
    (hdemand : hasDemand s b.val = false) (htime : t0 + 200000 * s.pnat 0x070F b.val ≤ s.now) :
    exec (.demandStop b) s = .next (s.enterSpindown b.val) := by
  change execDemandStop b s = _
  rw [execDemandStop, hidle]
  exact if_pos ⟨hruns, hstate, hdisc, by rw [hmount]; rfl, hdemand, by rw [secs]; exact htime⟩

theorem exec_demandStop_wanted (hdemand : hasDemand s b.val = true) : exec (.demandStop b) s = .next s := by
  change execDemandStop b s = _
  unfold execDemandStop
  dsimp only
  split
  · exact if_neg (by simp [hdemand])
  · rfl

end

/-! ## The statement -/

/-- Settles O47: each event is the entry that its conditions select, and what that entry makes of the bay. -/
theorem holdSafeAndPresenceMoveTheBay : Obligations.HoldSafeAndPresenceMoveTheBay := by
  unfold Obligations.HoldSafeAndPresenceMoveTheBay
  refine ⟨?release, ?early, ?timeout, ?waiting, ?restart, ?limited, ?arrives, ?lostTurning, ?unpowered, ?taken, ?start, ?calm, ?stop,
    ?wanted⟩
  case release =>
    intro b s hruns hstate htime hup hgood hparity hlatch
    obtain ⟨hfocus, hservo⟩ := enterFocus_bay s b.val (s.bay b.val).servo.layer
    obtain ⟨hlaser, hheld⟩ := enterFocus_lasers s b.val (s.bay b.val).servo.layer
    have hmoves := enterFocus_movesBay s b.val (s.bay b.val).servo.layer
    refine ⟨_, exec_holdRelease hruns hstate htime hup hgood hparity hlatch, hfocus, ?_, ?_, hlaser, hheld, hmoves.others,
      changesOnly_mono hmoves.frame (by simp)⟩ <;> rw [hservo, sweptServo]
  case early => exact fun b s hearly => if_neg fun h => absurd h.2.2.1 (Nat.not_le.2 hearly)
  case timeout =>
    intro b s hruns hstate htime
    obtain ⟨hcause, hat, -⟩ := enterSafe_bay (s := s) (b := b.val) (by simp [hstate]) 0x0609
    exact ⟨_, exec_holdTimeout hruns hstate htime, enterSafe_state _ _ _, hcause, hat, (enterSafe_stopsBay s b.val 0x0609).others⟩
  case waiting => exact fun b s hearly => if_neg fun h => absurd h.2.2 (by rw [secs]; exact Nat.not_le.2 hearly)
  case restart =>
    intro b s hruns hmay hfew
    have hmoves := restarted_movesBay s b.val
    refine ⟨_, exec_safeRestartStart hruns hmay hfew, ?_, ?_, ?_, hmoves.bay, hmoves.others, hmoves.frame⟩ <;>
      rw [restarted, modBay_bay_same]
  case limited =>
    intro b s hruns hstate hdisc hpresent hreleasing hmany
    rw [exec_safeRestartStart_limited hruns hstate hmany, settleBay_of_safe hstate hdisc hpresent hreleasing]
  case arrives =>
    intro b s hpd hstate hstill hpin hbusy hdisc hmount
    have hbay := withDiscPin_bay s b.val true
    have habsent : (s.bay b.val).present = false := by simp [Bay.present, hpin]
    have hpresent : ((withDiscPin s b.val true).bay b.val).present = true := by simp [hbay, Bay.present, hbusy]
    have hstill' : ((withDiscPin s b.val true).bay b.val).still = true := by rw [hbay]; exact hstill
    have hempty : ((withDiscPin s b.val true).bay b.val).state = .empty := by rw [hbay]; exact hstate
    have hexec := exec_discPresentChange (b := b) (s := s) true
    rw [if_neg (by simp [hpd, habsent, hpresent]), if_pos hpresent, settleBay_of_empty hstill' hempty hpresent] at hexec
    obtain ⟨hloaded, hkept⟩ := toLoaded_bay (withDiscPin s b.val true) b.val
    rw [if_pos hpresent] at hloaded hkept
    have hsettled := toLoaded_movesBay (withDiscPin s b.val true) b.val
    have hmoves := (withDiscPin_movesBay s b.val true).then hsettled
    refine ⟨_, hexec, hloaded, toLoaded_permit hstill' (by rw [hbay]; exact hdisc) (by rw [hbay]; exact hmount), ?_, ?_, hmoves.others,
      changesOnly_mono hmoves.frame (by simp)⟩
    · rw [(hsettled.bay .pins (by simp)).1, hbay]
    · intro p hp
      by_cases hpart : p = .disc
      · subst hpart
        exact hkept.trans (by rw [hbay])
      · exact hmoves.bay p (by simp_all)
  case lostTurning =>
    intro b s hpd hstate hconfirmed hturning hpin hbusy hmount hcourse
    have hbay := withDiscPin_bay s b.val false
    have hwas : (s.bay b.val).present = true := by simp [Bay.present, hpin, hbusy]
    have habsent : ((withDiscPin s b.val false).bay b.val).present = false := by simp [hbay, Bay.present]
    have hexec := exec_discPresentChange (b := b) (s := s) false
    rw [if_neg (by simp [hpd, hwas, habsent]), if_neg (by simp [habsent]),
      presenceLost_of_turning (s := withDiscPin s b.val false) (by rw [hbay]; exact hconfirmed) (by rw [hbay]; exact hturning)
        (by rw [hbay]; exact hstate) (by rw [hbay]; exact hmount) hcourse] at hexec
    have hlog := (withDiscPin_movesBay s b.val false).then (bayLogFree_movesBay _ b.val b.val 0x0705)
    obtain ⟨hdown, hat, hlaser, hdisc⟩ := enterSpindown_bay ((withDiscPin s b.val false).bayLogFree b.val 0x0705) b.val
    have hmoves := hlog.then (enterSpindown_movesBay _ b.val)
    exact ⟨_, hexec, hdown, hat.trans (now_of_changesOnly hlog.frame (by simp)), hlaser, hdisc.trans (hlog.bay .disc (by simp)),
      hmoves.others, changesOnly_mono hmoves.frame (by simp)⟩
  case unpowered =>
    intro b v s hpd
    have hmoves := withDiscPin_movesBay s b.val v
    exact ⟨_, (exec_discPresentChange v).trans (by rw [if_pos (.inl hpd)]), withDiscPin_bay s b.val v, hmoves.others, hmoves.frame⟩
  case taken =>
    intro b s hpd hstate hstill hpresent hmount
    have hbay := withBusyPin_bay s b.val true
    have habsent : ((withBusyPin s b.val true).bay b.val).present = false := absent_of_busy (by rw [hbay])
    have hstill' : ((withBusyPin s b.val true).bay b.val).still = true := by rw [hbay]; exact hstill
    have hexec := exec_ldBusyChange_lost hpd hpresent hmount
    rw [presenceLost_of_still hstill', settleBay_of_loaded_lost hstill' (by rw [hbay]; exact hstate) habsent] at hexec
    obtain ⟨hempty, hnone⟩ := toLoaded_bay (withBusyPin s b.val true) b.val
    rw [if_neg (by simp [habsent])] at hempty hnone
    have hsettled := toLoaded_movesBay (withBusyPin s b.val true) b.val
    have hmoves := (withBusyPin_movesBay s b.val true).then hsettled
    refine ⟨_, hexec, hempty, hnone, ?_, hmoves.others, changesOnly_mono hmoves.frame (by simp)⟩
    rw [(hsettled.bay .pins (by simp)).2, hbay]
  case start =>
    intro b s hruns hmode hstate hdisc hservice hreleasing hurgent
    exact ⟨_, exec_demandStart hruns hmode hstate hdisc hservice hreleasing hurgent, modBay_bay_same _ _ _, modBay_onlyBay _ _ _,
      modBay_changesOnly _ _ _⟩
  case calm => exact fun b s hfew hcalm => exec_demandStart_calm hfew hcalm
  case stop =>
    intro b t0 s hruns hidle hstate hdisc hmount hdemand htime
    obtain ⟨hdown, hat, -, hkept⟩ := enterSpindown_bay s b.val
    have hmoves := enterSpindown_movesBay s b.val
    exact ⟨_, exec_demandStop hruns hidle hstate hdisc hmount hdemand htime, hdown, hat, hkept, hmoves.others, hmoves.frame⟩
  case wanted => exact fun b s hdemand => exec_demandStop_wanted hdemand

end Sys2Proof.Proofs
end

section
/-! SUPPORT. Starts of a spindle, closed loop, rotor loss, catch, standstill, and the statement about them (R277, R278, R283, R285 to
R289). -/

namespace Sys2Proof.Proofs

open Sys2Proof Sys2Proof.Machine Sys2Proof.Laws

/-! ## A spindle while its bay enters SAFE (R271, R375) -/

section
variable (s : State) (b : Nat)

theorem modSpin_movesBay (f : Spindle → Spindle) : MovesBay [.spin] [.bays] b s (s.modSpin b f) where
  bay := modSpin_spin_frame s b f
  others := modBay_onlyBay s b _
  frame := modBay_changesOnly s b _

/-- A MOUNT that fails touches of its bay the mount and the disc alone. -/
theorem failMount_movesBay (r : Nat) :
    MovesBay [.mount, .disc] [.bays, .events, .qps, .tags, .freeCtr] b s (s.failMount b r) := by
  unfold State.failMount
  split
  · exact movesBay_refl _ _ b s
  next m _ =>
    have hgone : MovesBay [.mount, .disc] [.bays] b s (s.modBay b fun y => { y with mount := none, disc := none }) :=
      modBay_movesBay (bay_changesOnly_of_agrees (by rintro ⟨⟩ <;> simp [Bay.agrees]))
    have hreq (u : State) (o : Option DiscReq) :
        MovesBay [] [.events] b u (match o with | some r => discNeeded u r 4 | none => u) := by
      split
      · exact movesBay_of_changesOnly (event_changesOnly u _ _) (by simp)
      · exact movesBay_refl _ _ b u
    have hend (u : State) : MovesBay [] [.qps, .tags, .freeCtr] b u
        (if (u.cmd? m.q m.tag).isSome then u.finishFree m.q m.tag stMountFailed 0 r else u) :=
      movesBay_ite (movesBay_of_changesOnly (finishFree_changesOnly u _ _ _ _ _) (by simp)) (movesBay_refl _ _ b u)
    exact ((hgone.then (hreq _ _)).then (hend _)).mono (by simp) (by simp)

theorem safeEntry_spin (c : Nat) : ((s.safeEntry b c).bay b).spin = (s.bay b).spin := by
  have hkept : (((((s.immediateStop b).cutRun b).lasersOff b).failMount b 8).bay b).spin = (s.bay b).spin :=
    ((stopAll_movesBay s b).then (failMount_movesBay _ b 8)).bay .spin (by simp)
  unfold State.safeEntry
  dsimp only
  rw [bay_eq_of_bays_eq (forceSet_dropOutputs_bays _ _ _ b true), modBay_bay_same, ← hkept]

/-- Entering SAFE leaves the spindle to the rule that led there. -/
@[simp] theorem enterSafe_spin (c : Nat) : ((s.enterSafe b c).bay b).spin = (s.bay b).spin := by
  by_cases h : (s.bay b).state = .safe
  · rw [State.enterSafe, if_pos h]
  · rw [enterSafe_of_not_safe h, bay_eq_of_bays_eq (safeReport_bays _ b c _), safeEntry_spin]

end

/-- A bay in SAFE catches no rotor. -/
theorem enterSafe_catching {s : State} {b : Nat} (h : (s.bay b).state ≠ .safe) (c : Nat) :
    ((s.enterSafe b c).bay b).catching = false := by
  rw [enterSafe_of_not_safe h, bay_eq_of_bays_eq (safeReport_bays _ b c _)]
  unfold State.safeEntry
  dsimp only
  rw [bay_eq_of_bays_eq (forceSet_dropOutputs_bays _ _ _ b true), modBay_bay_same]

/-- From `s` to `t` bay `b` has entered SAFE for a cause, with a spindle, and no other bay changes. -/
structure SafeWith (b c : Nat) (p : Spindle) (s t : State) : Prop where
  state : (t.bay b).state = .safe
  cause : (t.bay b).safeCause = c
  spin : (t.bay b).spin = p
  catching : (t.bay b).catching = false
  dark : (t.bay b).welt.laserEn = false
  others : s.onlyBay b t

/-- An update of the bay, and then SAFE. -/
theorem modBay_enterSafe {s : State} {b : Nat} {f : Bay → Bay} (h : (f (s.bay b)).state ≠ .safe) (c : Nat) :
    SafeWith b c (f (s.bay b)).spin s ((s.modBay b f).enterSafe b c) := by
  have hstate : ((s.modBay b f).bay b).state ≠ .safe := by rwa [modBay_bay_same]
  obtain ⟨hcause, -, hdark⟩ := enterSafe_bay hstate c
  exact ⟨enterSafe_state _ _ _, hcause, by rw [enterSafe_spin, modBay_bay_same], enterSafe_catching hstate c, hdark,
    onlyBay_trans (modBay_onlyBay s b f) (enterSafe_stopsBay _ b c).others⟩

/-- An update of the spindle, and then SAFE. -/
theorem modSpin_enterSafe {s : State} {b : Nat} (h : (s.bay b).state ≠ .safe) (f : Spindle → Spindle) (c : Nat) :
    SafeWith b c (f (s.bay b).spin) s ((s.modSpin b f).enterSafe b c) :=
  modBay_enterSafe (f := fun y => { y with spin := f y.spin }) h c

/-- An update of the spindle before those that SAFE is entered from. -/
theorem SafeWith.after_modSpin {s t : State} {b c : Nat} {p : Spindle} {f : Spindle → Spindle} (h : SafeWith b c p (s.modSpin b f) t) :
    SafeWith b c p s t := { h with others := onlyBay_trans (modBay_onlyBay s b _) h.others }

theorem modSpin_state (s : State) (b : Nat) (f : Spindle → Spindle) : ((s.modSpin b f).bay b).state = (s.bay b).state :=
  (modSpin_movesBay s b f).bay .state (by simp)

theorem still_iff {y : Bay} : y.still = true ↔ y.spin.state = .standstill ∧ y.spin.confirmed = true := by
  simp [Bay.still]

/-! ## Starts (R277, R278) -/

/-- A spindle whose rotor is placed in a sector begins its ramp. -/
def onRamp (now k : Nat) (p : Spindle) : Spindle := { p with state := .ramp, rampAt := now, sector := k, good := 0 }

/-- A spindle whose start has failed brakes by shorts. -/
def startFailed (now : Nat) (p : Spindle) : Spindle :=
  { p with state := .short, eventAt := now, starts := min 15 (p.starts + 1), startsRow := p.startsRow + 1, good := 0 }

section
variable {s : State} {b : Nat}

/-- Below SPIN_STARTS failures in a row the bay waits for the next start. -/
theorem failStart_of_few (h : (s.bay b).spin.startsRow + 1 < s.pnat 0x0711 b) : failStart s b = s.modSpin b (startFailed s.now) := by
  have hrow : ((s.modSpin b (startFailed s.now)).bay b).spin.startsRow = (s.bay b).spin.startsRow + 1 := by
    rw [modSpin_spin, startFailed]
  refine (if_neg ?_ : failStart s b = _)
  exact Nat.not_le.2 (hrow.trans_lt h)

/-- At SPIN_STARTS failures in a row a bay without a mount in progress enters SAFE. -/
theorem failStart_of_last (h : s.pnat 0x0711 b ≤ (s.bay b).spin.startsRow + 1) (hmount : (s.bay b).mount = none) :
    failStart s b = ((s.modSpin b (startFailed s.now)).modSpin b fun p => { p with startsRow := 0 }).enterSafe b 0x0701 := by
  have hrow : ((s.modSpin b (startFailed s.now)).bay b).spin.startsRow = (s.bay b).spin.startsRow + 1 := by
    rw [modSpin_spin, startFailed]
  have hmoves := (modSpin_movesBay s b (startFailed s.now)).then (modSpin_movesBay _ b fun p => { p with startsRow := 0 })
  have hnone := (hmoves.bay .mount (by simp)).trans hmount
  refine (if_pos ?_ : failStart s b = _).trans (if_neg ?_)
  · exact h.trans_eq hrow.symm
  · exact Bool.eq_false_iff.1 ((congrArg Option.isSome hnone).trans rfl)

end

section
variable {b : BayId} {s : State}

/-- A start from standstill takes its pattern values, and ramps from the first sector that either detection finds. -/
theorem exec_spindleStart (hpd : s.powered 18 = true) (hstate : (s.bay b.val).state = .spinUp)
    (hbus : (s.bus (groupOf b.val)).bridgesOff = false) (hstill : (s.bay b.val).still = true)
    (hrow : (s.bay b.val).spin.startsRow = 0) (l m : List Nat) : exec (.spindleStart b l m) s =
      .next (((detect l).or (detect m)).elim (failStart (s.modSpin b.val (Spindle.take s b.val)) b.val)
        fun k => (s.modSpin b.val (Spindle.take s b.val)).modSpin b.val (onRamp s.now k)) := by
  obtain ⟨hstand, hconfirmed⟩ := still_iff.1 hstill
  change execSpindleStart b l m s = _
  rw [execSpindleStart]
  dsimp only
  rw [if_neg (by simp [hpd, hstate, hbus]), hstand]
  dsimp only
  rw [if_neg (by simp [hconfirmed, hrow])]
  cases detect l with
  | some k => rfl
  | none => cases detect m <;> rfl

theorem exec_spindleStart_elsewhere (h : (s.bay b.val).state ≠ .spinUp) (l m : List Nat) :
    exec (.spindleStart b l m) s = .next s := if_pos (.inr (.inl h))

theorem exec_startFailure (hramp : (s.bay b.val).spin.state = .ramp)
    (htime : (s.bay b.val).spin.rampAt + 200 * (s.bay b.val).spin.rampT + 200000 ≤ s.now) :
    exec (.startFailure b) s = .next (failStart s b.val) := if_pos ⟨hramp, htime⟩

theorem exec_startRetry (hstate : (s.bay b.val).state = .spinUp) (hstill : (s.bay b.val).still = true)
    (hrow : 0 < (s.bay b.val).spin.startsRow) (htime : (s.bay b.val).spin.stillAt + 40000 ≤ s.now) :
    exec (.startRetry b) s = .next (s.modSpin b.val fun p => { Spindle.take s b.val p with state := .detect }) :=
  if_pos ⟨hstate, hstill, hrow, htime⟩

end

/-! ## Closed loop (R277, R283, R286, R289) -/

section
variable (s : State) (b rpm : Nat) (d : Int)

theorem closeLoop_movesBay : MovesBay [.spin, .catching] [.bays, .girth] b s (closeLoop s b rpm d) := by
  unfold closeLoop enterSpinSlot
  refine (modBay_movesBay (bs := [.spin, .catching]) ?_).then (modSlot_movesBay _ b _ _)
  exact bay_changesOnly_of_agrees (by rintro ⟨⟩ <;> simp [Bay.agrees])

/-- In closed loop the slewed reference starts from the observer's speed, and the bay catches no longer. -/
theorem closeLoop_bay : ((closeLoop s b rpm d).bay b).spin.state = (if s.mode = .safeStop then .safeStop else .closed) ∧
    ((closeLoop s b rpm d).bay b).spin.startsRow = 0 ∧ ((closeLoop s b rpm d).bay b).spin.ref = rpm * 200000 ∧
    ((closeLoop s b rpm d).bay b).spin.rpm = (s.bay b).spin.rpm ∧ ((closeLoop s b rpm d).bay b).catching = false := by
  simp [closeLoop, enterSpinSlot]

/-- The spindle slot enters with its demand preloaded. -/
theorem closeLoop_out : ((closeLoop s b rpm d).slot (80 + b)).out = d :=
  congrArg GSlot.out (modSlot_slot _ _ _)

end

section
variable {b : BayId} {s : State}

theorem exec_handover (hramp : (s.bay b.val).spin.state = .ramp)
    (htime : (s.bay b.val).spin.rampAt + 200 * (s.bay b.val).spin.rampT ≤ s.now) (hgood : 64 ≤ (s.bay b.val).spin.good) :
    exec (.handover b) s = .next (closeLoop s b.val (s.bay b.val).spin.rpm (q27 (s.bay b.val).spin.startI 100)) :=
  if_pos ⟨hramp, htime, hgood⟩

theorem exec_catchLock {r : Nat} (hcatching : (s.bay b.val).spin.state = .catching)
    (htime : s.now ≤ (s.bay b.val).spin.eventAt + 40000) (hgood : 64 ≤ (s.bay b.val).spin.good) (hr : 600 ≤ r) :
    exec (.catchLock b r) s = .next (closeLoop (s.modSpin b.val fun p => { p with rpm := r }) b.val r 0) :=
  if_pos ⟨hcatching, htime, hgood, hr⟩

theorem exec_atSpeed (hclosed : (s.bay b.val).spin.state = .closed) (hfine : (s.bay b.val).spin.fine = true)
    (hcount : 16 ≤ (s.bay b.val).spin.fineCount) :
    exec (.atSpeed b) s = .next (s.modSpin b.val fun p => { p with atSpeed := true }) := if_pos ⟨hclosed, hfine, hcount⟩

theorem exec_spinSafeHoldExpiry (hsafe : (s.bay b.val).state = .safe) (hclosed : (s.bay b.val).spin.state = .closed)
    (htime : (s.bay b.val).safeAt + 200000 * s.pnat 0x0710 b.val ≤ s.now) : exec (.spinSafeHoldExpiry b) s =
      .next (s.modSpin b.val fun p => { p with state := .safeStop, atSpeed := false }) := if_pos ⟨hsafe, hclosed, htime⟩

end

/-! ## Rotor loss (R287, R288) -/

section
variable (s : State) (b : Nat)

theorem sendLane_laserEn (b : BayId) (n : Fin 2) (l : List LaneBlock) :
    ((s.sendLane b n l).bay b.val).welt.laserEn = (s.bay b.val).welt.laserEn := by
  have hsent (u : State) (o : Output) : (u.send o).bay b.val = u.bay b.val := rfl
  rw [State.sendLane, hsent, modWelt_welt]
  split <;> rfl

/-- An urgent command leaves LASER_EN of the stitch frames. -/
theorem urgent_laserEn (c : Nat) : ((s.urgent b c).bay b).welt.laserEn = (s.bay b).welt.laserEn := by
  unfold State.urgent
  split
  · rfl
  · split
    next h _ =>
      rw [modWelt_welt]
      exact (sendLane_laserEn _ ⟨b, h⟩ 1 _).trans (sendLane_laserEn s ⟨b, h⟩ 0 _)
    · rfl

theorem dropOffsets_laserEn : ((s.dropOffsets b).bay b).welt.laserEn = (s.bay b).welt.laserEn := by
  have hpower (u : State) (c : Prop) [Decidable c] (p : Nat) :
      ((if c then u else u.modWelt b fun w => { w with readPwr := p }).bay b).welt.laserEn = (u.bay b).welt.laserEn := by
    split
    · rfl
    · rw [modWelt_welt]
  rw [State.dropOffsets, (modServo_movesBay _ b _).bay .welt (by simp), hpower]
  split <;> rfl

/-- The end of a run leaves LASER_EN of the stitch frames. -/
theorem endRun_laserEn : ((s.endRun b).bay b).welt.laserEn = (s.bay b).welt.laserEn := by
  rw [State.endRun, (modChan_movesBay _ b _).bay .welt (by simp), dropOffsets_laserEn,
    dropSeam_everyBay s b b .welt (by simp)]

theorem cutRun_laserEn : ((s.cutRun b).bay b).welt.laserEn = (s.bay b).welt.laserEn := by
  have hseams := sendSeams_changesOnly s b (s.bay b).chan.seam
  rw [State.cutRun, endRun_laserEn, (modChan_movesBay _ b _).bay .welt (by simp), bay_eq_of_bays_eq (hseams .bays (by simp))]

theorem cutRun_run : ((s.cutRun b).bay b).chan.run = none := by
  rw [State.cutRun, endRun_run]

/-- The run that a lost rotor ends: a write run by an immediate stop and WSTOP, and either with its seams sent. -/
def lostRun : State := (if (s.bay b).state = .write then (s.immediateStop b).urgent b ucWstop else s).cutRun b

theorem lostRun_movesBay : MovesBay [.write, .welt, .chan, .servo] [.bays, .sent, .recov, .pat] b s (lostRun s b) :=
  (movesBay_ite (((immediateStop_movesBay s b).then (urgent_movesBay _ b ucWstop)).mono (cs := [.write, .welt])
    (qs := [.bays, .sent]) (by simp) (by simp)) (movesBay_refl _ _ b s)).then (cutRun_movesBay _ b) |>.mono (by simp) (by simp)

theorem lostRun_run : ((lostRun s b).bay b).chan.run = none := by
  rw [lostRun, cutRun_run]

theorem lostRun_laserEn : ((lostRun s b).bay b).welt.laserEn = (s.bay b).welt.laserEn := by
  rw [lostRun, cutRun_laserEn]
  split
  · have hkept : ((s.immediateStop b).bay b).welt = (s.bay b).welt := (immediateStop_movesBay s b).bay .welt (by simp)
    rw [urgent_laserEn, hkept]
  · rfl

/-- A bay that has lost its rotor in a run: it is in TRACK with the gates off, and the observer seeks lock. -/
def rotorLostBay (now : Nat) (y : Bay) : Bay :=
  { y with state := .track, catching := true, chan := { y.chan with fly := .unlocked, coast := 0 }
           spin := { y.spin with state := .catching, lost := true, eventAt := now, good := 0, atSpeed := false, fine := false
                                 fineCount := 0, amps := 0, phases := [], lowOn := false } }

theorem rotorLostBay_changesOnly (now : Nat) (y : Bay) : y.changesOnly [.state, .catching, .chan, .spin] (rotorLostBay now y) :=
  bay_changesOnly_of_agrees (by rintro ⟨⟩ <;> simp [Bay.agrees, rotorLostBay])

theorem rotorLostBay_run (now : Nat) (y : Bay) : (rotorLostBay now y).chan.run = y.chan.run := rfl

theorem rotorLostBay_laserEn (now : Nat) (y : Bay) : (rotorLostBay now y).welt.laserEn = y.welt.laserEn := rfl

/-- The bay log's entry of a rotor loss, under a code that no rule names, with the speed. -/
def lossLogged (rpm : Nat) : State := s.fresh.2.bayLog b (s.fresh.1 % 65536) rpm

theorem lossLogged_movesBay (rpm : Nat) : MovesBay [] [.logs, .events, .freeCtr] b s (lossLogged s b rpm) :=
  movesBay_of_changesOnly (changesOnly_trans (changesOnly_mono (fresh_changesOnly s) (by simp))
    (changesOnly_mono (log_changesOnly _ _ _ _ _) (by simp))) (by simp)

/-- A bay in a run has lost its rotor. -/
def rotorLost : State := lossLogged ((lostRun s b).modBay b (rotorLostBay s.now)) b (s.bay b).spin.rpm

theorem rotorLost_movesBay : MovesBay [.write, .welt, .chan, .servo, .state, .catching, .spin]
    [.bays, .pat, .recov, .sent, .logs, .events, .freeCtr] b s (rotorLost s b) :=
  ((lostRun_movesBay s b).then (modBay_movesBay (rotorLostBay_changesOnly s.now _))).then (lossLogged_movesBay _ b _)
    |>.mono (by simp) (by simp)

theorem rotorLost_bay : (rotorLost s b).bay b = rotorLostBay s.now ((lostRun s b).bay b) := by
  rw [rotorLost, bay_eq_of_bays_eq ((lossLogged_movesBay _ b _).frame .bays (by simp)), modBay_bay_same]

variable {s b} in
/-- Updates of a bay that agree on it as it stands. -/
theorem modBay_eq_of_bay {f g : Bay → Bay} (h : f (s.bay b) = g (s.bay b)) : s.modBay b f = s.modBay b g := by
  rw [State.modBay, h, State.modBay]

end

section
variable {b : BayId} {s : State}

/-- In a read or write run a rotor loss other than overspeed ends the run, catches the rotor, and is logged with the speed. -/
theorem exec_rotorLoss {c : RotorCause} (hcause : c ≠ .overspeed)
    (hdrive : (s.bay b.val).spin.state = .closed ∨ (s.bay b.val).spin.state = .safeStop)
    (hloss : lossHolds (s.bay b.val).spin c = true) (hrun : (s.bay b.val).state = .read ∨ (s.bay b.val).state = .write) :
    exec (.rotorLoss b c) s = .next (rotorLost s b.val) := by
  have hnot : ¬(((s.bay b.val).spin.state ≠ .closed ∧ (s.bay b.val).spin.state ≠ .safeStop) ∨
      lossHolds (s.bay b.val).spin c = false) := by
    simp only [hloss]
    tauto
  have hkept : ((lostRun s b.val).bay b.val).state = (s.bay b.val).state := (lostRun_movesBay s b.val).bay .state (by simp)
  have hstate : ((lostRun s b.val).bay b.val).state = .read ∨ ((lostRun s b.val).bay b.val).state = .write := by rwa [hkept]
  change execRotorLoss b c s = _
  unfold execRotorLoss
  dsimp only
  rw [if_neg hnot]
  split
  next => exact absurd rfl hcause
  next =>
    refine congrArg (fun u : State => Host.Outcome.next (lossLogged u b.val (s.bay b.val).spin.rpm))
      (modBay_eq_of_bay (s := lostRun s b.val) ?_)
    rcases hstate with h | h <;> simp [rotorLostBay, h]

/-- A spindle that brakes by shorts from now on. -/
def braked (now : Nat) (p : Spindle) : Spindle :=
  { p with state := .short, eventAt := now, atSpeed := false, fine := false, good := 0 }

theorem shortBrake_eq (s : State) (b : Nat) : shortBrake s b = s.modSpin b (braked s.now) := rfl

theorem exec_overspeed (hclosed : (s.bay b.val).spin.state = .closed) (hovers : 2 ≤ (s.bay b.val).spin.overs)
    (hsafe : (s.bay b.val).state ≠ .safe) : exec (.rotorLoss b .overspeed) s =
      .next (((s.modSpin b.val fun p => { p with lost := true }).modSpin b.val (braked s.now)).enterSafe b.val 0x0702) := by
  change execRotorLoss b .overspeed s = _
  rw [execRotorLoss]
  dsimp only
  rw [if_neg (by simp [hclosed, lossHolds, hovers]), if_neg hsafe, shortBrake_eq]
  rfl

/-! ## Catch and standstill (R285, R286, R289) -/

theorem exec_catchFail {r : Nat} (hcatching : (s.bay b.val).spin.state = .catching) (hr : r < 600)
    (hsafe : (s.bay b.val).state ≠ .safe) : exec (.catchFail b r) s =
      .next (((s.modSpin b.val (braked s.now)).modBay b.val fun y =>
        { y with catching := false, spin := { y.spin with rpm := r } }).enterSafe b.val 0x0703) := by
  change execCatchFail b r s = _
  rw [execCatchFail]
  dsimp only
  rw [if_pos ⟨hcatching, .inr hr⟩, if_neg hsafe, shortBrake_eq]

theorem exec_spinStuck (hshort : (s.bay b.val).spin.state = .short) (htime : (s.bay b.val).spin.eventAt + 2000000 ≤ s.now)
    (hsafe : (s.bay b.val).state ≠ .safe) : exec (.spinStuck b) s =
      .next ((s.modSpin b.val fun p => { p with state := .coast }).enterSafe b.val 0x0704) := by
  change execSpinStuck b s = _
  rw [execSpinStuck]
  dsimp only
  rw [if_pos ⟨hshort, htime⟩, if_neg hsafe]

/-- A spindle whose standstill is confirmed. -/
def atStandstill (now : Nat) (p : Spindle) : Spindle :=
  { p with state := .standstill, confirmed := true, stillAt := now, rpm := 0, ref := 0, word := 0, atSpeed := false }

theorem exec_standstill (hshort : (s.bay b.val).spin.state = .short) (htime : (s.bay b.val).spin.eventAt + 50000 ≤ s.now) :
    exec (.standstill b) s = .next (settleBay (s.modSpin b.val (atStandstill s.now)) b.val) := if_pos ⟨hshort, htime⟩

/-- Standstill ends SPINDOWN where no RELEASE waits. -/
theorem settleBay_of_spinDown {b : Nat} (hstill : (s.bay b).still = true) (hstate : (s.bay b).state = .spinDown)
    (hreleasing : (s.bay b).releasing = []) : settleBay s b = toLoaded s b := by
  have hended : endReleases s b = s := if_pos (by simp [hreleasing])
  unfold settleBay
  dsimp only
  rw [if_neg (by simp [hstill]), hstate]
  exact congrArg (toLoaded · b) hended

end

/-- A bay at the power-up of PD18, whose spindle brakes by shorts to a confirmed standstill. -/
def poweredUpBay (now r : Nat) (y : Bay) : Bay :=
  { y with ldPermit := false, downAt := now, spin := { y.spin with state := .short, eventAt := now, rpm := r }
           sled := { y.sled with offAp := 0, offAn := 0, offBp := 0, offBn := 0 } }

theorem exec_pd18PowerUp {b : BayId} {s : State} (hpd : s.powered 18 = true) (hconfirmed : (s.bay b.val).spin.confirmed = false)
    (hstate : (s.bay b.val).state = .spinDown) (hshort : (s.bay b.val).spin.state ≠ .short) (r : Nat) :
    exec (.pd18PowerUp b r) s = .next (s.modBay b.val (poweredUpBay s.now r)) := if_pos ⟨hpd, hconfirmed, hstate, hshort⟩

/-! ## The statement -/

/-- Settles O48: each event is the step of the spindle that its conditions select, and an entry to SAFE leaves the spindle as that step
has made it. -/
theorem spindlesStartCatchAndStop : Obligations.SpindlesStartCatchAndStop := by
  unfold Obligations.SpindlesStartCatchAndStop
  refine ⟨?detected, ?undetected, ?elsewhere, ?handover, ?unlocked, ?failed, ?retry, ?loss, ?overspeed, ?driven, ?lock, ?slow, ?noLock,
    ?still, ?turning, ?stuck, ?atSpeed, ?expiry, ?powerUp⟩
  case detected =>
    intro b l m k s hpd hstate hbus hstill hrow hdetect
    have hexec := exec_spindleStart hpd hstate hbus hstill hrow l m
    rw [hdetect, Option.some_or, Option.elim_some] at hexec
    have hmoves := (modSpin_movesBay s b.val (Spindle.take s b.val)).then (modSpin_movesBay _ b.val (onRamp s.now k))
    refine ⟨_, hexec, ?_, ?_, ?_, ?_, ?_, bay_changesOnly_mono hmoves.bay (by simp), hmoves.others,
        changesOnly_mono hmoves.frame (by simp)⟩ <;>
      rw [modSpin_spin, onRamp]
    rw [modSpin_spin, Spindle.take]
  case undetected =>
    intro b l m s hpd hstate hbus hstill hrow hfirst hsecond hmany
    have hexec := exec_spindleStart hpd hstate hbus hstill hrow l m
    have htaken : ((s.modSpin b.val (Spindle.take s b.val)).bay b.val).spin.startsRow = 0 := by rw [modSpin_spin]; exact hrow
    rw [hfirst, hsecond, Option.none_or, Option.elim_none, failStart_of_few (by rw [htaken]; exact hmany)] at hexec
    have hmoves := (modSpin_movesBay s b.val (Spindle.take s b.val)).then (modSpin_movesBay _ b.val (startFailed s.now))
    refine ⟨_, hexec, ?_, ?_, ?_, ?_, bay_changesOnly_mono hmoves.bay (by simp), hmoves.others,
        changesOnly_mono hmoves.frame (by simp)⟩ <;>
      rw [modSpin_spin, startFailed]
    · rfl
    · rw [htaken]
    · rw [modSpin_spin]
      rfl
  case elsewhere => exact fun b l m s h => exec_spindleStart_elsewhere h l m
  case handover =>
    intro b s hramp htime hgood
    obtain ⟨hdrive, hrow, href, -, -⟩ :=
      closeLoop_bay s b.val (s.bay b.val).spin.rpm (q27 (s.bay b.val).spin.startI 100)
    have hmoves := closeLoop_movesBay s b.val (s.bay b.val).spin.rpm (q27 (s.bay b.val).spin.startI 100)
    exact ⟨_, exec_handover hramp htime hgood, hdrive, hrow, href, closeLoop_out _ _ _ _, hmoves.bay, hmoves.others, hmoves.frame⟩
  case unlocked => exact fun b s hgood => if_neg fun h => absurd h.2.2 (Nat.not_le.2 hgood)
  case failed =>
    intro b s hramp htime hlast hmount hsafe
    have hkept : ((s.modSpin b.val (startFailed s.now)).bay b.val).state ≠ .safe := by rwa [modSpin_state]
    have hentered := (modSpin_enterSafe hkept (fun p => { p with startsRow := 0 }) 0x0701).after_modSpin
    refine ⟨_, (exec_startFailure hramp htime).trans (by rw [failStart_of_last hlast hmount]), hentered.state, hentered.cause, ?_,
      hentered.others⟩
    rw [hentered.spin, modSpin_spin, startFailed]
  case retry =>
    intro b s hstate hstill hrow htime
    have hmoves := modSpin_movesBay s b.val fun p => { Spindle.take s b.val p with state := .detect }
    refine ⟨_, exec_startRetry hstate hstill hrow htime, ?_, ?_, hmoves.bay, hmoves.others, hmoves.frame⟩ <;> rw [modSpin_spin]
    rfl
  case loss =>
    intro b c s hcause hdrive hloss hrun
    have hmoves := rotorLost_movesBay s b.val
    refine ⟨_, exec_rotorLoss hcause hdrive hloss hrun, ?_⟩
    beta_reduce
    rw [rotorLost_bay, rotorLostBay_run, lostRun_run, rotorLostBay_laserEn, lostRun_laserEn]
    exact ⟨rfl, rfl, rfl, rfl, rfl, rfl, rfl, hmoves.others, hmoves.frame⟩
  case overspeed =>
    intro b s hclosed hovers hsafe
    have hkept : ((s.modSpin b.val fun p => { p with lost := true }).bay b.val).state ≠ .safe := by rwa [modSpin_state]
    have hentered := (modSpin_enterSafe hkept (braked s.now) 0x0702).after_modSpin
    refine ⟨_, exec_overspeed hclosed hovers hsafe, hentered.state, hentered.cause, ?_, ?_, hentered.others⟩ <;>
      rw [hentered.spin, braked]
    rw [modSpin_spin]
  case driven => exact fun b c s hnot => if_pos (.inr hnot)
  case lock =>
    intro b r s hcatching htime hgood hr
    obtain ⟨hdrive, -, href, hrpm, hcaught⟩ := closeLoop_bay (s.modSpin b.val fun p => { p with rpm := r }) b.val r 0
    have hmoves := (modSpin_movesBay s b.val fun p => { p with rpm := r }).then (closeLoop_movesBay _ b.val r 0)
    exact ⟨_, exec_catchLock hcatching htime hgood hr, hdrive, hrpm.trans (by rw [modSpin_spin]), href, hcaught, closeLoop_out _ _ _ _,
      hmoves.others, changesOnly_mono hmoves.frame (by simp)⟩
  case slow => exact fun b r s hr => if_neg fun h => absurd h.2.2.2 (Nat.not_le.2 hr)
  case noLock =>
    intro b r s hcatching hr hsafe
    have hkept : ((s.modSpin b.val (braked s.now)).bay b.val).state ≠ .safe := by rwa [modSpin_state]
    have hentered := (modBay_enterSafe (f := fun y => { y with catching := false, spin := { y.spin with rpm := r } }) hkept
      0x0703).after_modSpin
    refine ⟨_, exec_catchFail hcatching hr hsafe, hentered.state, hentered.cause, ?_, hentered.catching, hentered.dark, hentered.others⟩
    rw [hentered.spin, modSpin_spin, braked]
  case still =>
    intro b s hshort htime hstate hreleasing
    have hspin := modSpin_movesBay s b.val (atStandstill s.now)
    have hstill : ((s.modSpin b.val (atStandstill s.now)).bay b.val).still = true :=
      still_iff.2 (by rw [modSpin_spin]; exact ⟨rfl, rfl⟩)
    have hsettled := settleBay_of_spinDown hstill ((modSpin_state _ _ _).trans hstate) ((hspin.bay .releasing (by simp)).trans hreleasing)
    have hloaded := toLoaded_movesBay (s.modSpin b.val (atStandstill s.now)) b.val
    have hpresent : ((s.modSpin b.val (atStandstill s.now)).bay b.val).present = (s.bay b.val).present := by
      rw [State.modSpin, modBay_bay_same, Bay.present, Bay.present]
    have hkept : ((toLoaded (s.modSpin b.val (atStandstill s.now)) b.val).bay b.val).spin = atStandstill s.now (s.bay b.val).spin :=
      (hloaded.bay .spin (by simp)).trans (modSpin_spin _ _ _)
    refine ⟨_, (exec_standstill hshort htime).trans (by rw [hsettled]), still_iff.2 ?_, ?_, ?_, ?_,
      onlyBay_trans hspin.others hloaded.others, changesOnly_trans hspin.frame hloaded.frame⟩
    · rw [hkept]
      exact ⟨rfl, rfl⟩
    · rw [hkept, atStandstill]
    · rw [hkept, atStandstill]
    · rw [(toLoaded_bay _ _).1, hpresent]
  case turning => exact fun b s hearly => if_neg fun h => absurd h.2 (Nat.not_le.2 hearly)
  case stuck =>
    intro b s hshort htime hsafe
    have hentered := modSpin_enterSafe hsafe (fun p => { p with state := .coast }) 0x0704
    exact ⟨_, exec_spinStuck hshort htime hsafe, hentered.state, hentered.cause, congrArg Spindle.state hentered.spin, hentered.others⟩
  case atSpeed =>
    intro b s hclosed hfine hcount
    have hmoves := modSpin_movesBay s b.val fun p => { p with atSpeed := true }
    exact ⟨_, exec_atSpeed hclosed hfine hcount, modSpin_spin _ _ _, hmoves.bay, hmoves.others, hmoves.frame⟩
  case expiry =>
    intro b s hsafe hclosed htime
    have hmoves := modSpin_movesBay s b.val fun p => { p with state := .safeStop, atSpeed := false }
    exact ⟨_, exec_spinSafeHoldExpiry hsafe hclosed htime, modSpin_spin _ _ _, hmoves.bay, hmoves.others, hmoves.frame⟩
  case powerUp =>
    intro b r s hpd hconfirmed hstate hshort
    refine ⟨_, exec_pd18PowerUp hpd hconfirmed hstate hshort r, ?_, ?_, ?_, ?_, ?_, modBay_onlyBay _ _ _, modBay_changesOnly _ _ _⟩ <;>
      rw [modBay_bay_same, poweredUpBay]
    exact hstate

end Sys2Proof.Proofs
end

section
/-! SUPPORT. The motor bus of a group at its thresholds, the half bridges, and the statement about them (R290, R291, R296, R313, R399,
R494). -/

namespace Sys2Proof.Proofs

open Sys2Proof Sys2Proof.Machine Sys2Proof.Laws

/-! ## The bays of a group (R15) -/

theorem mem_groupBays {b g : Nat} : b ∈ groupBays g ↔ b / 4 = g := by
  simp only [groupBays, List.mem_cons, List.not_mem_nil, or_false]
  omega

theorem groupBays_nodup (g : Nat) : (groupBays g).Nodup := by
  simp [groupBays]

section
variable (s : State)

/-- REGEN_INH of a group's spindles follows the group's bus. -/
theorem updateRegen_bay {b g : Nat} (h : b / 4 = g) : (updateRegen s g).bay b =
    { s.bay b with spin := { (s.bay b).spin with regenInh := (s.bus g).regenInh || (s.bus g).chopFault } } :=
  foldl_modBay_bay s (f := fun _ y => { y with spin := { y.spin with regenInh := (s.bus g).regenInh || (s.bus g).chopFault } })
    (groupBays_nodup g) (mem_groupBays.2 h)

theorem updateRegen_bay_other {b g : Nat} (h : b / 4 ≠ g) : (updateRegen s g).bay b = s.bay b :=
  foldl_bay_of_not_mem s (fun u n => modBay_onlyBay u n _) (mt mem_groupBays.1 h)

theorem updateRegen_everyBay (g : Nat) : EveryBay [.spin] s (updateRegen s g) :=
  everyBay_foldl _ (fun u b => modBay_everyBay u b fun y => bay_changesOnly_of_agrees (by rintro ⟨⟩ <;> simp [Bay.agrees])) _ s

theorem updateRegen_bus (g n : Nat) : (updateRegen s g).bus n = s.bus n :=
  bus_eq_of_buses_eq (updateRegen_changesOnly s g .buses (by simp)) n

/-! ## The bus voltage as seen, and what its thresholds make of the bus (R290) -/

/-- A bus whose voltage the monitor has taken. -/
def seenAt (v : Nat) (u : Bus) : Bus := { u with mv := v }

variable (g v : Nat) (f : Bus → Bus)

theorem busSeen_modBus_bus : ((busSeen s g v).modBus g f).bus g = f (seenAt v (s.bus g)) := by
  rw [modBus_bus, busSeen, modBus_bus]
  rfl

theorem busSeen_modBus_other {n : Nat} (h : n ≠ g) : ((busSeen s g v).modBus g f).bus n = s.bus n := by
  rw [modBus_bus_other _ f h, busSeen, modBus_bus_other _ _ h]

theorem busSeen_modBus_bay (b : Nat) : ((busSeen s g v).modBus g f).bay b = s.bay b := rfl

theorem busSeen_modBus_changesOnly : s.changesOnly [.buses] ((busSeen s g v).modBus g f) :=
  changesOnly_trans (modBus_changesOnly s g _) (modBus_changesOnly _ g f)

end

/-- The bus after the chopper's thresholds. -/
def chopperAt (now v : Nat) (u : Bus) : Bus :=
  if 13800 ≤ v ∧ u.chopFault = false ∧ u.chopOn = false then { u with chopOn := true, chopAtMv := v, chopAt := now }
  else if v ≤ 13200 then { u with chopOn := false }
  else u

theorem chopperAt_mv (now v : Nat) (u : Bus) : (chopperAt now v u).mv = u.mv := by
  unfold chopperAt
  split_ifs <;> rfl

theorem chopperAt_chopOn (now v : Nat) (u : Bus) : (chopperAt now v u).chopOn =
    if 13800 ≤ v ∧ u.chopFault = false then true else if v ≤ 13200 then false else u.chopOn := by
  unfold chopperAt
  by_cases hon : 13800 ≤ v ∧ u.chopFault = false
  · have hhigh : ¬ v ≤ 13200 := by omega
    cases hu : u.chopOn <;> simp [hon, hu, hhigh]
  · rw [if_neg (fun h => hon ⟨h.1, h.2.1⟩), if_neg hon]
    split_ifs <;> rfl

/-- The bus after the thresholds at 15.0 V and 14.4 V. -/
def regenAt (v : Nat) (u : Bus) : Bus :=
  if 15000 ≤ v ∧ u.regenInh = false then { u with regenInh := true, events := min 255 (u.events + 1) }
  else if v ≤ 14400 then { u with regenInh := false }
  else u

theorem regenAt_chopFault (v : Nat) (u : Bus) : (regenAt v u).chopFault = u.chopFault := by
  unfold regenAt
  split_ifs <;> rfl

theorem regenAt_regenInh (v : Nat) (u : Bus) :
    (regenAt v u).regenInh = if 15000 ≤ v then true else if v ≤ 14400 then false else u.regenInh := by
  unfold regenAt
  by_cases hhigh : 15000 ≤ v
  · have hlow : ¬ v ≤ 14400 := by omega
    cases hu : u.regenInh <;> simp [hhigh, hu, hlow]
  · rw [if_neg (fun h => hhigh h.1), if_neg hhigh]
    split_ifs <;> rfl

theorem regenAt_events (v : Nat) (u : Bus) :
    (regenAt v u).events = if 15000 ≤ v ∧ u.regenInh = false then min 255 (u.events + 1) else u.events := by
  unfold regenAt
  split_ifs <;> rfl

/-- The bus after the thresholds at 10.8 V and 11.2 V. -/
def limitedAt (v : Nat) (u : Bus) : Bus :=
  if v ≤ 10800 then { u with limited := true } else if 11200 ≤ v then { u with limited := false } else u

theorem limitedAt_eq (v : Nat) (u : Bus) :
    limitedAt v u = { u with limited := if v ≤ 10800 then true else if 11200 ≤ v then false else u.limited } := by
  unfold limitedAt
  split_ifs <;> rfl

/-- A bus whose bridges go off by the rule at 16.5 V, and by the undervoltage rule. -/
def overAt (u : Bus) : Bus := { u with offOver := true, bridgesOff := true, events := min 255 (u.events + 1) }
def underAt (u : Bus) : Bus := { u with offUnder := true, bridgesOff := true }

/-- A bus whose bridges stay off for the rules that still hold, and come back where none does. -/
def returnedAt (high low : Bool) (u : Bus) : Bus := { u with offOver := high, offUnder := low, bridgesOff := high || low }

/-- A bus whose chopper is faulty. -/
def chopperFailed (u : Bus) : Bus := { u with chopFault := true, chopOn := false }

/-! ## Bridges off (R290, R296, R313) -/

/-- A bay whose bridges are off, of the spindle and of the sled. -/
def bridgesOffBay (y : Bay) : Bay :=
  { y with spin := { y.spin with state := .busOff, atSpeed := false, fine := false, amps := 0, phases := [], lowOn := false }
           sled := { y.sled with state := .busOff, homed := false, speed := 0, target := none, next := none, homePhase := .none
                                 curFrom := 0, curTo := 0, current := 0 } }

/-- A bay in SAFE for a bus rule: it takes the rule's cause where it was in SAFE before. -/
def busSafe (code : Nat) (s : State) (b : Nat) : State :=
  if (s.bay b).state = .safe then (s.bayLogFree b code).modBay b fun y => { y with safeCause := code } else s.enterSafe b code

/-- The bridges of one bay go off, with the bay in SAFE. -/
def bridgeOff (code : Nat) (s : State) (b : Nat) : State := (busSafe code s b).modBay b bridgesOffBay

theorem bridgesOff_eq (s : State) (g code : Nat) : bridgesOff s g code = (groupBays g).foldl (bridgeOff code) s := rfl

/-- A bay of a group with its bridges off: in SAFE with the rule's cause, the sled without current and no longer homed. -/
structure BridgesOff (code : Nat) (y : Bay) : Prop where
  state : y.state = .safe
  cause : y.safeCause = code
  spin : y.spin.state = .busOff
  sled : y.sled.state = .busOff
  homed : y.sled.homed = false
  current : y.sled.current = 0

section
variable (code : Nat) (s : State)

theorem busSafe_bay (b : Nat) : ((busSafe code s b).bay b).state = .safe ∧ ((busSafe code s b).bay b).safeCause = code := by
  unfold busSafe
  split
  next h =>
    have hlog : (s.bayLogFree b code).bay b = s.bay b := bay_eq_of_bays_eq ((bayLogFree_movesBay s b b code).frame .bays (by simp)) b
    rw [modBay_bay_same, hlog]
    exact ⟨h, rfl⟩
  next h => exact ⟨enterSafe_state s b code, (enterSafe_bay h code).1⟩

theorem busSafe_onlyBay (b : Nat) : s.onlyBay b (busSafe code s b) := by
  unfold busSafe
  split
  · exact onlyBay_trans (bayLogFree_movesBay s b b code).others (modBay_onlyBay _ b _)
  · exact (enterSafe_stopsBay s b code).others

theorem busSafe_changesOnly (b : Nat) : s.changesOnly safeParts (busSafe code s b) :=
  changesOnly_ite (changesOnly_trans (changesOnly_mono (bayLogFree_movesBay s b b code).frame (by simp))
    (changesOnly_mono (modBay_changesOnly _ b _) (by simp))) (enterSafe_changesOnly s b code)

theorem bridgeOff_bay (b : Nat) : BridgesOff code ((bridgeOff code s b).bay b) := by
  obtain ⟨hstate, hcause⟩ := busSafe_bay code s b
  rw [bridgeOff, modBay_bay_same]
  generalize (busSafe code s b).bay b = y at hstate hcause
  exact ⟨hstate, hcause, rfl, rfl, rfl, rfl⟩

theorem bridgeOff_onlyBay (b : Nat) : s.onlyBay b (bridgeOff code s b) :=
  onlyBay_trans (busSafe_onlyBay code s b) (modBay_onlyBay _ b _)

theorem bridgesOff_changesOnly (g : Nat) : s.changesOnly safeParts (bridgesOff s g code) :=
  changesOnly_foldl _ (fun u b => changesOnly_trans (busSafe_changesOnly code u b) (changesOnly_mono (modBay_changesOnly _ b _) (by simp)))
    _ s

theorem bridgesOff_bay {b g : Nat} (h : b / 4 = g) : BridgesOff code ((bridgesOff s g code).bay b) :=
  foldl_bay_of_mem s (bridgeOff_onlyBay code) (fun u => bridgeOff_bay code u b) (mem_groupBays.2 h)

theorem bridgesOff_bay_other {b g : Nat} (h : b / 4 ≠ g) : (bridgesOff s g code).bay b = s.bay b :=
  foldl_bay_of_not_mem s (bridgeOff_onlyBay code) (mt mem_groupBays.1 h)

end

/-! ## Bridges off constrain the engine (R399) -/

theorem constrain_bay (s : State) (b : Nat) : s.constrain.bay b = s.bay b :=
  bay_eq_of_bays_eq (constrain_changesOnly s .bays (by simp)) b

theorem constrain_bus (s : State) (g : Nat) : s.constrain.bus g = s.bus g :=
  bus_eq_of_buses_eq (constrain_changesOnly s .buses (by simp)) g

theorem constrain_mode_of_bridgesOff {s : State} {g : GroupId} (h : (s.bus g.val).bridgesOff = true) :
    s.constrain.mode = if s.mode = .active then .constrained else s.mode := by
  have hgroups : (List.range 4).any (fun n => (s.bus n).bridgesOff) = true :=
    List.any_eq_true.2 ⟨g.val, List.mem_range.2 g.isLt, h⟩
  have hcause : s.constrainedCause = true := by rw [State.constrainedCause, hgroups, Bool.or_true]
  rw [State.constrain, if_pos hcause]
  dsimp only
  split
  · exact enterMode_mode _ _ _
  · rfl

/-- A group's bridges go off for a rule that its bus already shows: every bay of the group is in SAFE, and the engine is constrained. -/
theorem bridgesOff_constrain {s : State} {g : GroupId} (h : (s.bus g.val).bridgesOff = true) (code : Nat) :
    (∀ n, (bridgesOff s g.val code).constrain.bus n = s.bus n) ∧
    (∀ b, b / 4 = g.val → BridgesOff code ((bridgesOff s g.val code).constrain.bay b)) ∧
    (∀ b, b / 4 ≠ g.val → (bridgesOff s g.val code).constrain.bay b = s.bay b) ∧
    (bridgesOff s g.val code).constrain.mode = if s.mode = .active then .constrained else s.mode := by
  have hbus (n : Nat) : (bridgesOff s g.val code).bus n = s.bus n :=
    bus_eq_of_buses_eq (bridgesOff_changesOnly code s g.val .buses (by simp)) n
  have hmode : (bridgesOff s g.val code).mode = s.mode := bridgesOff_changesOnly code s g.val .mode (by simp)
  refine ⟨fun n => (constrain_bus _ n).trans (hbus n), fun b hb => ?_, fun b hb => ?_, ?_⟩
  · rw [constrain_bay]
    exact bridgesOff_bay code s hb
  · rw [constrain_bay, bridgesOff_bay_other code s hb]
  · rw [constrain_mode_of_bridgesOff (g := g) (by rw [hbus]; exact h), hmode]

/-! ## Bridges on again (R289, R290, R313) -/

/-- A bay whose bridges may be driven again: a spindle at 600 rpm or more is caught, another is stopped, and the sled's coils take their
hold current. -/
def bridgesOnBay (now : Nat) (rpms : List Nat) (hold b : Nat) (y : Bay) : Bay :=
  { y with spin := if y.spin.state = .busOff then
               { y.spin with state := if 600 ≤ rpms.getD (b % 4) 0 then .catching else .short, eventAt := now
                             rpm := rpms.getD (b % 4) 0, good := 0 }
             else y.spin
           sled := if y.sled.state = .busOff then
               { y.sled with state := .notHomed, current := hold, curFrom := hold, curTo := hold, restAt := now }
             else y.sled }

/-- The bays of a group as their bridges may be driven again. -/
def bridgesOn (s : State) (g now : Nat) (rpms : List Nat) : State :=
  (groupBays g).foldl (fun a b => a.modBay b (bridgesOnBay now rpms (a.pnat 0x080F b) b)) s

/-- Updates of bays read the pattern as it stood before them. -/
theorem foldl_modBay_pnat (f : Nat → Nat → Bay → Bay) (id : Nat) (l : List Nat) (s : State) :
    l.foldl (fun a b => a.modBay b (f (a.pnat id b) b)) s = l.foldl (fun a b => a.modBay b (f (s.pnat id b) b)) s := by
  induction l generalizing s with
  | nil => rfl
  | cons n r ih => rw [List.foldl_cons, List.foldl_cons, ih]; rfl

section
variable (s : State) {b g : Nat} (now : Nat) (rpms : List Nat)

theorem bridgesOn_bay (h : b / 4 = g) :
    (bridgesOn s g now rpms).bay b = bridgesOnBay now rpms (s.pnat 0x080F b) b (s.bay b) := by
  rw [bridgesOn, foldl_modBay_pnat (bridgesOnBay now rpms)]
  exact foldl_modBay_bay s (f := fun b => bridgesOnBay now rpms (s.pnat 0x080F b) b) (groupBays_nodup g) (mem_groupBays.2 h)

theorem bridgesOn_bay_other (h : b / 4 ≠ g) : (bridgesOn s g now rpms).bay b = s.bay b :=
  foldl_bay_of_not_mem s (fun u n => modBay_onlyBay u n _) (mt mem_groupBays.1 h)

theorem bridgesOn_bus (n : Nat) : (bridgesOn s g now rpms).bus n = s.bus n :=
  bus_eq_of_buses_eq (changesOnly_foldl _ (fun u n => modBay_changesOnly u n _) _ s .buses (by simp)) n

end

/-! ## The events of the motor bus -/

section
variable {g : GroupId} {s : State}

theorem exec_busChopperOn (hpd : s.powered 18 = true) (v : Nat) :
    exec (.busChopperOn g v) s = .next ((busSeen s g.val v).modBus g.val (chopperAt s.now v)) := if_neg (by simp [hpd])

theorem exec_busRegenInhibit (hpd : s.powered 18 = true) (v : Nat) :
    exec (.busRegenInhibit g v) s = .next (updateRegen ((busSeen s g.val v).modBus g.val (regenAt v)) g.val) := if_neg (by simp [hpd])

theorem exec_busLowLimit (hpd : s.powered 18 = true) (v : Nat) :
    exec (.busLowLimit g v) s = .next ((busSeen s g.val v).modBus g.val (limitedAt v)) := if_neg (by simp [hpd])

theorem exec_busOvervolt {v : Nat} (hpd : s.powered 18 = true) (hv : 16500 ≤ v) (hoff : (s.bus g.val).offOver = false) :
    exec (.busOvervolt g v) s = .next (bridgesOff ((busSeen s g.val v).modBus g.val overAt) g.val 0x0706).constrain :=
  if_neg (by simp [hpd, hoff, Nat.not_lt.2 hv])

theorem exec_busUndervolt {v : Nat} (hpd : s.powered 18 = true) (hv : v ≤ 9500) (hoff : (s.bus g.val).offUnder = false) :
    exec (.busUndervolt g v) s = .next (bridgesOff ((busSeen s g.val v).modBus g.val underAt) g.val 0x0707).constrain :=
  if_neg (by simp [hpd, hoff, Nat.not_lt.2 hv])

/-- A rule that still holds keeps the bridges off; without one they may be driven again. -/
theorem exec_busRecovered {high low : Bool} (hpd : s.powered 18 = true) (hoff : (s.bus g.val).bridgesOff = true) (v : Nat) (l : List Nat)
    (hhigh : ((s.bus g.val).offOver && !decide (v ≤ 13200)) = high) (hlow : ((s.bus g.val).offUnder && !decide (11200 ≤ v)) = low) :
    exec (.busRecovered g v l) s = .next (if (high || low) = true then (busSeen s g.val v).modBus g.val (returnedAt high low)
      else (bridgesOn ((busSeen s g.val v).modBus g.val (returnedAt high low)) g.val s.now l).constrain) := by
  subst hhigh hlow
  change execBusRecovered g v l s = _
  rw [execBusRecovered]
  dsimp only
  rw [if_neg (by simp [hpd, hoff])]
  exact (apply_ite Host.Outcome.next _ _ _).symm

theorem exec_brakeChopperFault (hon : (s.bus g.val).chopOn = true) (hfault : (s.bus g.val).chopFault = false)
    (htime : (s.bus g.val).chopAt + 400 < s.now) (hmv : (s.bus g.val).chopAtMv < (s.bus g.val).mv + 100) :
    exec (.brakeChopperFault g) s =
      .next ((updateRegen (s.modBus g.val chopperFailed) g.val).log .device 0x0708 0xFF g.val) := if_pos ⟨hon, hfault, htime, hmv⟩

end

/-! ## Half bridges (R494) -/

section
variable (p : GatePair) (ask : Option Bool) (clamp : Bool)

/-- A gate is on only for a half bridge asked for it, without a clamp, where it was on or may come on. -/
theorem tick_high (h : (p.tick ask clamp).high = true) :
    ask = some true ∧ clamp = false ∧ (p.high = true ∨ p.low = false ∧ 200 ≤ p.dead) := by
  simp only [GatePair.tick, Bool.or_eq_true, Bool.and_eq_true, Bool.not_eq_true', decide_eq_true_eq] at h
  obtain ⟨⟨hon, hclamp⟩, hask⟩ | ⟨⟨⟨⟨-, hother⟩, hdead⟩, hclamp⟩, hask⟩ := h
  · exact ⟨hask, hclamp, .inl hon⟩
  · exact ⟨hask, hclamp, .inr ⟨hother, hdead⟩⟩

theorem tick_low (h : (p.tick ask clamp).low = true) :
    ask = some false ∧ clamp = false ∧ (p.low = true ∨ p.high = false ∧ 200 ≤ p.dead) := by
  simp only [GatePair.tick, Bool.or_eq_true, Bool.and_eq_true, Bool.not_eq_true', decide_eq_true_eq] at h
  obtain ⟨⟨hon, hclamp⟩, hask⟩ | ⟨⟨⟨⟨hother, -⟩, hdead⟩, hclamp⟩, hask⟩ := h
  · exact ⟨hask, hclamp, .inl hon⟩
  · exact ⟨hask, hclamp, .inr ⟨hother, hdead⟩⟩

/-- A half bridge is asked for one switch at a time. -/
theorem tick_not_both : ((p.tick ask clamp).high && (p.tick ask clamp).low) = false := by
  by_contra h
  obtain ⟨hhigh, hlow⟩ := Bool.and_eq_true_iff.1 (Bool.of_not_eq_false h)
  have hask := (tick_high p ask clamp hhigh).1.symm.trans (tick_low p ask clamp hlow).1
  simp at hask

theorem tick_clamped (h : clamp = true) : (p.tick ask clamp).high = false ∧ (p.tick ask clamp).low = false := by
  constructor <;> by_contra hon
  · exact absurd ((tick_high p ask clamp (Bool.of_not_eq_false hon)).2.1.symm.trans h) (by decide)
  · exact absurd ((tick_low p ask clamp (Bool.of_not_eq_false hon)).2.1.symm.trans h) (by decide)

end

/-! ## The statement -/

/-- Settles O49: each event is what its threshold makes of the bus, and of each bay of the group in its turn. -/
theorem motorBusActsAtItsThresholds : Obligations.MotorBusActsAtItsThresholds := by
  unfold Obligations.MotorBusActsAtItsThresholds
  refine ⟨?chopper, ?regen, ?overvolt, ?below, ?undervolt, ?above, ?limit, ?returned, ?stillOver, ?failed, ?working, ?gates⟩
  case chopper =>
    intro g v s hpd
    refine ⟨_, exec_busChopperOn hpd v, ?_, ?_, fun n hn => busSeen_modBus_other s g.val v _ hn,
        busSeen_modBus_changesOnly s g.val v _⟩ <;>
      rw [busSeen_modBus_bus]
    · exact chopperAt_chopOn s.now v _
    · exact chopperAt_mv s.now v _
  case regen =>
    intro g v s hpd
    have hbus := busSeen_modBus_bus s g.val v (regenAt v)
    have hfault : (((busSeen s g.val v).modBus g.val (regenAt v)).bus g.val).chopFault = (s.bus g.val).chopFault :=
      (congrArg Bus.chopFault hbus).trans (regenAt_chopFault v _)
    refine ⟨_, exec_busRegenInhibit hpd v, ?_, ?_, fun b hb => ?_, fun b hb => ?_, fun n hn => ?_, ?_⟩
    · rw [updateRegen_bus, hbus]
      exact regenAt_regenInh v _
    · rw [updateRegen_bus, hbus]
      exact regenAt_events v _
    · have hframe := updateRegen_everyBay ((busSeen s g.val v).modBus g.val (regenAt v)) g.val b
      rw [busSeen_modBus_bay] at hframe
      refine ⟨?_, hframe⟩
      rw [updateRegen_bay _ hb, updateRegen_bus, hfault]
    · rw [updateRegen_bay_other _ hb, busSeen_modBus_bay]
    · rw [updateRegen_bus]
      exact busSeen_modBus_other s g.val v _ hn
    · exact changesOnly_trans (changesOnly_mono (busSeen_modBus_changesOnly s g.val v _) (by simp))
        (changesOnly_mono (updateRegen_changesOnly _ g.val) (by simp))
  case overvolt =>
    intro g v s hpd hv hoff
    have hover := busSeen_modBus_bus s g.val v overAt
    obtain ⟨hbus, hgroup, hothers, hmode⟩ :=
      bridgesOff_constrain (s := (busSeen s g.val v).modBus g.val overAt) (g := g) (by rw [hover]; rfl) 0x0706
    refine ⟨_, exec_busOvervolt hpd hv hoff, ?_, ?_, ?_, fun b hb => ?_, hothers, hmode⟩
    · rw [hbus, hover]
      rfl
    · rw [hbus, hover]
      rfl
    · rw [hbus, hover]
      rfl
    · obtain ⟨hstate, hcause, hspin, hsled, hhomed, hcurrent⟩ := hgroup b hb
      exact ⟨hstate, hcause, hspin, hsled, hhomed, hcurrent⟩
  case below => exact fun g v s hv => if_pos (.inr (.inl hv))
  case undervolt =>
    intro g v s hpd hv hoff
    have hunder := busSeen_modBus_bus s g.val v underAt
    obtain ⟨hbus, hgroup, hothers, hmode⟩ :=
      bridgesOff_constrain (s := (busSeen s g.val v).modBus g.val underAt) (g := g) (by rw [hunder]; rfl) 0x0707
    refine ⟨_, exec_busUndervolt hpd hv hoff, ?_, ?_, fun b hb => ?_, hothers, hmode⟩
    · rw [hbus, hunder]
      rfl
    · rw [hbus, hunder]
      rfl
    · obtain ⟨hstate, hcause, hspin, hsled, hhomed, -⟩ := hgroup b hb
      exact ⟨hstate, hcause, hspin, hsled, hhomed⟩
  case above => exact fun g v s hv => if_pos (.inr (.inl hv))
  case limit =>
    intro g v s hpd
    refine ⟨_, exec_busLowLimit hpd v, ?_, fun n hn => busSeen_modBus_other s g.val v _ hn, busSeen_modBus_changesOnly s g.val v _⟩
    rw [busSeen_modBus_bus, limitedAt_eq]
    rfl
  case returned =>
    intro g v l s hpd hoff hv hlow
    have hhigh : ((s.bus g.val).offOver && !decide (v ≤ 13200)) = false := by simp [hv]
    have hlow' : ((s.bus g.val).offUnder && !decide (11200 ≤ v)) = false := by
      cases hunder : (s.bus g.val).offUnder
      · rfl
      · simp [hlow hunder]
    have hexec := exec_busRecovered hpd hoff v l hhigh hlow'
    rw [if_neg (by simp)] at hexec
    have hbus := busSeen_modBus_bus s g.val v (returnedAt false false)
    have hpat (b : Nat) : ((busSeen s g.val v).modBus g.val (returnedAt false false)).pnat 0x080F b = s.pnat 0x080F b := rfl
    refine ⟨_, hexec, ?_, ?_, ?_, fun b hb hspin => ?_, fun b hb hsled => ?_, fun b hb => ?_⟩
    · rw [constrain_bus, bridgesOn_bus, hbus]
      rfl
    · rw [constrain_bus, bridgesOn_bus, hbus]
      rfl
    · rw [constrain_bus, bridgesOn_bus, hbus]
      rfl
    · rw [constrain_bay, bridgesOn_bay _ _ _ hb, busSeen_modBus_bay, bridgesOnBay]
      dsimp only
      rw [if_pos hspin]
      exact ⟨rfl, rfl, rfl⟩
    · rw [constrain_bay, bridgesOn_bay _ _ _ hb, busSeen_modBus_bay, hpat, bridgesOnBay]
      dsimp only
      rw [if_pos hsled]
      exact ⟨rfl, rfl⟩
    · rw [constrain_bay, bridgesOn_bay_other _ _ _ hb, busSeen_modBus_bay]
  case stillOver =>
    intro g v l s hpd hoff hover hv
    have hhigh : ((s.bus g.val).offOver && !decide (v ≤ 13200)) = true := by simp [hover, hv]
    have hexec := exec_busRecovered hpd hoff v l hhigh rfl
    rw [if_pos (by simp)] at hexec
    refine ⟨_, hexec, ?_, ?_, busSeen_modBus_changesOnly s g.val v _ .bays (by simp)⟩ <;> rw [busSeen_modBus_bus, returnedAt]
    rfl
  case failed =>
    intro g s hon hfault htime hmv
    have hbus := modBus_bus s g.val chopperFailed
    have hlog := log_changesOnly (updateRegen (s.modBus g.val chopperFailed) g.val) .device 0x0708 0xFF g.val
    refine ⟨_, exec_brakeChopperFault hon hfault htime hmv, ?_, fun b hb => ?_, fun b hb => ?_, ?_⟩
    · rw [bus_eq_of_buses_eq (hlog .buses (by simp)), updateRegen_bus, hbus, chopperFailed]
    · rw [bay_eq_of_bays_eq (hlog .bays (by simp)), updateRegen_bay _ hb, hbus]
      exact Bool.or_true _
    · rw [bay_eq_of_bays_eq (hlog .bays (by simp)), updateRegen_bay_other _ hb]
      rfl
    · exact changesOnly_trans (changesOnly_mono (modBus_changesOnly s g.val _) (by simp))
        (changesOnly_trans (changesOnly_mono (updateRegen_changesOnly _ g.val) (by simp)) (changesOnly_mono hlog (by simp)))
  case working => exact fun g s htime => if_neg fun h => absurd h.2.2.1 (Nat.not_lt.2 htime)
  case gates =>
    exact fun p ask clamp _ => ⟨tick_not_both p ask clamp, fun h => (tick_high p ask clamp h).2.2, fun h => (tick_low p ask clamp h).2.2,
      tick_clamped p ask clamp⟩

end Sys2Proof.Proofs
end

section
/-! SUPPORT. The statement about the sleds, which fails where a sled at rest still has a speed (R298, R299, R315). -/

namespace Sys2Proof.Proofs

open Sys2Proof Sys2Proof.Machine Sys2Proof.Laws

/-- POSITION_MOVE of a homed sled at rest in TRACK, with its bridges driven, is a sled move. -/
theorem exec_positionMove {b : BayId} {s : State} (um : Nat) (hdriven : sledDriven s b.val = true)
    (hhomed : (s.bay b.val).sled.homed = true) (hrest : (s.bay b.val).sled.state = .rest) (htrack : (s.bay b.val).state = .track) :
    exec (.positionMove b um) s = .next (sledMove s b.val um) :=
  if_pos ⟨hdriven, hhomed, .inl hrest, .inr (.inl htrack)⟩

/-- The coil current's ramp has no part in where the sled goes. -/
theorem ramp_target (d : Sled) (now ma : Nat) : (d.ramp now ma).target = d.target := by
  unfold Sled.ramp
  split <;> rfl

/-- A sled at speed is sent to a radius within the soft limits that it has taken, not within those of the pattern (R299, R315). -/
theorem moveTo_target_of_speed (s : State) (b um : Nat) {d : Sled} (hspeed : d.speed ≠ 0) :
    (d.moveTo s b um).target = some (radiusPos (max (d.val 0x080B) (min um (d.val 0x080C)))) := by
  simp only [Sled.moveTo, if_neg hspeed, Sled.moving, ramp_target, Sled.retarget]

/-- The sled after a sled move. -/
theorem sledMove_sled (s : State) (b um : Nat) : ((sledMove s b um).bay b).sled = (s.bay b).sled.moveTo s b um := by
  rw [sledMove, forceSet_bay, modSled_sled]

/-- A homed sled at rest that has a speed of 100 full steps/s. The move before, it took a SLED_MIN_R of 28,000 µm (R316). -/
def restingAtSpeed : Sled :=
  { state := .rest, homed := true, speed := fsSpeed 100, taken := [(0x080B, 28000), (0x080C, 59000)] }

/-- An engine with that sled in bay 0, which tracks; the pattern's SLED_MIN_R is the default, 28,500 µm. -/
def sledRestsAtSpeed : State :=
  { State.reset with
    aon := { power := 0xFFFFF }
    bays := [(0, { state := .track, sled := restingAtSpeed })] }

/-- That sled is sent to 28,000 µm, 500 µm inward of the pattern's soft limit. -/
theorem sledMove_sledRestsAtSpeed_target :
    ((sledMove sledRestsAtSpeed 0 28000).bay 0).sled.target = some (radiusPos 28000) := by
  rw [sledMove_sled]
  exact moveTo_target_of_speed _ _ _ (d := restingAtSpeed) (by decide)

/-- Refutes O50 in its first clause: a sled at rest that has a speed keeps the soft limits that it took, so that a move to 28,000 µm
is not clamped to the pattern's SLED_MIN_R. The statement does not ask that a sled at rest has speed 0, as it has wherever an event
of the model brings one to rest. -/
theorem not_sledsMoveHomeAndStop : ¬ Obligations.SledsMoveHomeAndStop := by
  unfold Obligations.SledsMoveHomeAndStop
  rintro ⟨hmove, -⟩
  obtain ⟨t, hexec, -, htarget, -⟩ := hmove 0 28000 sledRestsAtSpeed (by decide) rfl rfl rfl
  cases hexec.symm.trans (exec_positionMove 28000 (by decide) rfl rfl rfl)
  exact absurd (sledMove_sledRestsAtSpeed_target.symm.trans htarget) (by decide)

end Sys2Proof.Proofs
end

section
/-! SUPPORT. What the ring keeps while frames move through its ports: all but the queues, what is sent, and the counts of dropped frames
(R330 to R337). -/

namespace Sys2Proof.Proofs

open Sys2Proof Sys2Proof.Machine Sys2Proof.Laws

/-! ## What stands while frames move -/

/-- A priority but for its queues, the share that it owes own frames, and its XOFF. -/
def prioStill (x : PrioState) : PrioState := { x with transit := [], own := [], deficit := 0, xoff := false, xoffAt := 0 }

/-- A port but for the queues of its priorities and its count of dropped frames. -/
def portStill (x : PortState) : PortState :=
  { x with dropped := 0, p3 := prioStill x.p3, p6 := prioStill x.p6, p7 := prioStill x.p7 }

/-- The ring but for the queues and counts of its ports. -/
def ringStill (r : Ring) : Ring := { r with east := portStill r.east, west := portStill r.west }

/-- From `s` to `t` frames move: they enter and leave queues, are sent, or are dropped and counted. -/
structure Flows (s t : State) : Prop where
  ring : ringStill t.ring = ringStill s.ring
  frame : s.changesOnly [.ring, .sent] t

theorem Flows.refl (s : State) : Flows s s := ⟨rfl, changesOnly_refl _ s⟩

theorem Flows.trans {s t u : State} (h : Flows s t) (g : Flows t u) : Flows s u :=
  ⟨g.ring.trans h.ring, changesOnly_trans h.frame g.frame⟩

theorem flows_ite {s t u : State} {c : Prop} [Decidable c] (h : Flows s t) (g : Flows s u) : Flows s (if c then t else u) := by
  split
  · exact h
  · exact g

theorem flows_foldl {α : Type} (f : State → α → State) (h : ∀ s a, Flows s (f s a)) (l : List α) (s : State) :
    Flows s (l.foldl f s) :=
  List.foldlRecOn l f (Flows.refl s) fun t ht a _ => ht.trans (h t a)

section
variable {s t : State} (h : Flows s t)
include h

theorem Flows.port (p : Port) : portStill (t.port p) = portStill (s.port p) :=
  match p with
  | .east => congrArg Ring.east h.ring
  | .west => congrArg Ring.west h.ring

theorem Flows.prio (p : Port) (n : Nat) : prioStill ((t.port p).prio n) = prioStill ((s.port p).prio n) := by
  unfold PortState.prio
  split_ifs
  · exact congrArg PortState.p7 (h.port p)
  · exact congrArg PortState.p6 (h.port p)
  · exact congrArg PortState.p3 (h.port p)

theorem Flows.usable (p : Port) : (t.port p).usable = (s.port p).usable :=
  (congrArg PortState.usable (h.port p) :)

theorem Flows.turns (p : Port) (n : Nat) : (t.port p).turns n = (s.port p).turns n :=
  (congrArg (PortState.turns · n) (h.port p) :)

theorem Flows.paused (p : Port) (n : Nat) : ((t.port p).prio n).paused = ((s.port p).prio n).paused :=
  (congrArg PrioState.paused (h.prio p n) :)

theorem Flows.map : t.ring.map = s.ring.map := (congrArg Ring.map h.ring :)

theorem Flows.events : t.ring.events = s.ring.events := (congrArg Ring.events h.ring :)

theorem Flows.tapped : t.tapped = s.tapped := (congrArg Ring.tapped h.ring :)

theorem Flows.now : t.now = s.now := congrArg (fun a : Aon => a.stitch.toNat) (h.frame .aon (by simp))

theorem Flows.epoch : t.epoch = s.epoch := by rw [State.epoch, State.epoch, h.map]

end

/-! ## Updates of one port and of one priority -/

theorem send_flows (s : State) (o : Output) : Flows s (s.send o) :=
  ⟨rfl, changesOnly_mono (send_changesOnly s o) (by simp)⟩

@[simp] theorem send_port (s : State) (o : Output) (p : Port) : (s.send o).port p = s.port p := by cases p <;> rfl

theorem modPort_flows (s : State) (p : Port) {f : PortState → PortState} (hf : ∀ x, portStill (f x) = portStill x) :
    Flows s (s.modPort p f) := by
  refine ⟨?_, changesOnly_mono (modPort_changesOnly s p f) (by simp)⟩
  cases p
  · exact congrArg (fun x => { ringStill s.ring with east := x }) (hf s.ring.east)
  · exact congrArg (fun x => { ringStill s.ring with west := x }) (hf s.ring.west)

theorem modPrio_still (x : PortState) (n : Nat) {f : PrioState → PrioState} (hf : ∀ y, prioStill (f y) = prioStill y) :
    portStill (x.modPrio n f) = portStill x := by
  unfold PortState.modPrio
  split_ifs <;> simp [portStill, hf]

theorem modPrio_flows (s : State) (p : Port) (n : Nat) {f : PrioState → PrioState} (hf : ∀ y, prioStill (f y) = prioStill y) :
    Flows s (s.modPrio p n f) := modPort_flows s p fun x => modPrio_still x n hf

theorem ringDrop_flows (s : State) (p : Port) : Flows s (s.ringDrop p) := modPort_flows s p fun _ => rfl

@[simp] theorem modPrio_prio_same (x : PortState) (n : Nat) (f : PrioState → PrioState) : (x.modPrio n f).prio n = f (x.prio n) := by
  unfold PortState.modPrio PortState.prio
  split_ifs <;> rfl

/-- An update of one priority leaves another as it was. -/
theorem modPrio_prio_cases (x : PortState) (n m : Nat) (f : PrioState → PrioState) :
    (x.modPrio n f).prio m = x.prio m ∨ (x.modPrio n f).prio m = f (x.prio m) := by
  unfold PortState.modPrio PortState.prio
  split_ifs <;> simp

/-- What an update of one priority does not touch of any, it does not touch of the priorities of its port. -/
theorem modPrio_prio_reads {α : Type} (v : PrioState → α) {f : PrioState → PrioState} (hf : ∀ y, v (f y) = v y) (x : PortState)
    (n m : Nat) : v ((x.modPrio n f).prio m) = v (x.prio m) := by
  rcases modPrio_prio_cases x n m f with h | h
  · rw [h]
  · rw [h, hf]

/-- What an update of a port does not touch of any, it does not touch of any port of the ring. -/
theorem modPort_port_reads {α : Type} (v : PortState → α) {f : PortState → PortState} (hf : ∀ x, v (f x) = v x) (s : State)
    (p q : Port) : v ((s.modPort p f).port q) = v (s.port q) := by
  by_cases h : q = p
  · rw [h, modPort_port_same, hf]
  · rw [modPort_port_other s f h]

/-! ## PFC of the ingress buffers (R336) -/

theorem pfcCheck_flows (s : State) (p : Port) (pr : Prio) : Flows s (pfcCheck s p pr) :=
  flows_ite ((modPrio_flows s p _ (by intro _; rfl)).trans (send_flows _ _))
    (flows_ite ((modPrio_flows s p _ (by intro _; rfl)).trans (send_flows _ _)) (Flows.refl s))

theorem pfcAll_flows (s : State) : Flows s (pfcAll s) :=
  (((pfcCheck_flows s _ _).trans (pfcCheck_flows _ _ _)).trans (pfcCheck_flows _ _ _)).trans (pfcCheck_flows _ _ _)

section
variable {α : Type} (v : PortState → α) (hv : ∀ (x : PortState) (n : Nat) (b : Bool) (k : PrioState → Nat),
  v (x.modPrio n fun y => { y with xoff := b, xoffAt := k y }) = v x)
include hv

/-- PFC touches nothing of a port but XOFF. -/
theorem pfcCheck_reads (s : State) (p : Port) (pr : Prio) (q : Port) : v ((pfcCheck s p pr).port q) = v (s.port q) := by
  unfold pfcCheck
  dsimp only
  split_ifs
  · exact modPort_port_reads v (fun x => hv x _ _ _) s p q
  · exact modPort_port_reads v (fun x => hv x _ _ PrioState.xoffAt) s p q
  · rfl

theorem pfcAll_reads (s : State) (q : Port) : v ((pfcAll s).port q) = v (s.port q) := by
  rw [pfcAll, pfcCheck_reads v hv, pfcCheck_reads v hv, pfcCheck_reads v hv, pfcCheck_reads v hv]

end

theorem pfcAll_transit (s : State) (q : Port) (n : Nat) :
    (((pfcAll s).port q).prio n).transit = ((s.port q).prio n).transit :=
  pfcAll_reads (fun x => (x.prio n).transit) (fun x m _ _ => modPrio_prio_reads PrioState.transit (by intro _; rfl) x m n) s q

theorem pfcAll_own (s : State) (q : Port) (n : Nat) : (((pfcAll s).port q).prio n).own = ((s.port q).prio n).own :=
  pfcAll_reads (fun x => (x.prio n).own) (fun x m _ _ => modPrio_prio_reads PrioState.own (by intro _; rfl) x m n) s q

theorem modPrio_dropped (x : PortState) (n : Nat) (f : PrioState → PrioState) : (x.modPrio n f).dropped = x.dropped := by
  unfold PortState.modPrio
  split_ifs <;> rfl

theorem pfcAll_dropped (s : State) (q : Port) : ((pfcAll s).port q).dropped = (s.port q).dropped :=
  pfcAll_reads PortState.dropped (fun x m _ _ => modPrio_dropped x m _) s q

/-! ## Frames leave by a port (R331, R332, R343) -/

theorem egress_flows (s : State) (p : Port) (f : Frame) : Flows s (egress s p f) :=
  flows_ite (send_flows s _) (flows_ite (ringDrop_flows s _) ((modPrio_flows s p _ (by intro _; rfl)).trans (pfcAll_flows _)))

theorem turnBack_flows (s : State) (p : Port) (f : Frame) : Flows s (turnBack s p f) :=
  flows_ite (ringDrop_flows s _) (egress_flows s _ _)

theorem leave_flows (s : State) (p : Port) (f : Frame) : Flows s (leave s p f) :=
  flows_ite (flows_ite (Flows.refl s) (egress_flows s p f)) (flows_ite (turnBack_flows s p _) (egress_flows s p f))

theorem forward_flows (s : State) (f : Frame) : Flows s (forward s f) := flows_ite (ringDrop_flows s _) (leave_flows s _ _)

theorem ownEgress_flows (s : State) (p : Port) (f : TxFrame) : Flows s (ownEgress s p f) :=
  flows_ite (send_flows s _) (modPrio_flows s p _ (by intro _; rfl))

theorem ownLeave_flows (s : State) (p : Port) (f : TxFrame) : Flows s (ownLeave s p f) :=
  flows_ite (flows_ite (Flows.refl s) (ownEgress_flows s p f))
    (flows_ite (flows_ite (ringDrop_flows s p) (ownEgress_flows s _ _)) (ownEgress_flows s p f))

theorem originate_flows {s t : State} {f : TxFrame} (h : originate s f = some t) : Flows s t := by
  obtain ⟨p, -, rfl⟩ := Option.map_eq_some_iff.1 h
  exact ownLeave_flows s p f

theorem sendRingEvent_flows (s : State) (e : RingEvent) : Flows s (sendRingEvent s e) := by
  refine flows_foldl _ (fun u g => ?_) _ s
  split
  next t ht => exact originate_flows ht
  · exact Flows.refl u

/-! ## What waits for a port leaves it (R331) -/

theorem drainPrio_flows (s : State) (p : Port) (n : Nat) : Flows s (drainPrio s p n) := by
  refine flows_ite ((modPrio_flows s p n (by intro _; rfl)).trans (flows_foldl _ (fun u e => ?_) _ _)) (Flows.refl s)
  cases e with
  | inl f => exact send_flows u _
  | inr f => exact send_flows u _

theorem drain_flows (s : State) (p : Port) : Flows s (drain s p) :=
  (((drainPrio_flows s p 7).trans (drainPrio_flows _ p 6)).trans (drainPrio_flows _ p 3)).trans (pfcAll_flows _)

/-- Nothing waits in a priority's queues. -/
def Drained (x : PrioState) : Prop := x.transit = [] ∧ x.own = []

/-- A priority of a port whose frames may leave is drained; otherwise nothing happens. -/
theorem drainPrio_port (s : State) (p : Port) (n : Nat) :
    (drainPrio s p n).port p = s.port p ∧
      ((s.port p).usable = true → ((s.port p).prio n).paused = false → Drained ((s.port p).prio n)) ∨
    ∃ d, (drainPrio s p n).port p = (s.port p).modPrio n fun z => { z with transit := [], own := [], deficit := d } := by
  unfold drainPrio
  dsimp only
  split
  next h =>
    refine Or.inr ⟨_, List.foldlRecOn (motive := fun u : State => u.port p = _) _ _ (modPort_port_same s p _) fun u hu e _ => ?_⟩
    cases e with
    | inl f => exact hu
    | inr f => exact hu
  next h =>
    refine Or.inl ⟨rfl, fun hu hp => ?_⟩
    simpa [hu, hp, Drained] using h

theorem drainPrio_drained {s : State} {p : Port} {n : Nat} (hu : (s.port p).usable = true)
    (hp : ((s.port p).prio n).paused = false) : Drained (((drainPrio s p n).port p).prio n) := by
  rcases drainPrio_port s p n with ⟨heq, hdrained⟩ | ⟨d, heq⟩
  · rw [heq]
    exact hdrained hu hp
  · rw [heq, modPrio_prio_same]
    exact ⟨rfl, rfl⟩

/-- A drained priority stays so when the others of its port leave. -/
theorem drainPrio_keeps_drained {s : State} {p : Port} {n : Nat} (h : Drained ((s.port p).prio n)) (m : Nat) :
    Drained (((drainPrio s p m).port p).prio n) := by
  rcases drainPrio_port s p m with ⟨heq, -⟩ | ⟨d, heq⟩
  · rw [heq]
    exact h
  · rw [heq]
    rcases modPrio_prio_cases (s.port p) m n fun z => { z with transit := [], own := [], deficit := d } with hkept | hempty
    · rw [hkept]
      exact h
    · rw [hempty]
      exact ⟨rfl, rfl⟩

theorem pfcAll_drained {s : State} {p : Port} {n : Nat} (h : Drained ((s.port p).prio n)) : Drained (((pfcAll s).port p).prio n) :=
  ⟨(pfcAll_transit s p n).trans h.1, (pfcAll_own s p n).trans h.2⟩

/-- Where a port may send, a governed priority that is not paused has nothing waiting after a drain. -/
theorem drain_drained {s : State} {p : Port} {pr : Prio} (hu : (s.port p).usable = true)
    (hp : ((s.port p).prio pr.pcp).paused = false) : Drained (((drain s p).port p).prio pr.pcp) := by
  have h7 := drainPrio_flows s p 7
  refine pfcAll_drained ?_
  cases pr with
  | p3 =>
    have h6 := h7.trans (drainPrio_flows _ p 6)
    exact drainPrio_drained ((h6.usable p).trans hu) ((h6.paused p _).trans hp)
  | p6 => exact drainPrio_keeps_drained (drainPrio_drained ((h7.usable p).trans hu) ((h7.paused p _).trans hp)) 3

end Sys2Proof.Proofs
end

section
/-! SUPPORT. What the ring makes of a frame that it meets, and the statement about passing frames (R318, R326 to R332, R349). -/

namespace Sys2Proof.Proofs

open Sys2Proof Sys2Proof.Machine Sys2Proof.Laws

/-! ## What a received frame teaches -/

/-- A received frame teaches the ring the port of its source, and nothing else. -/
theorem learn_ring_reads {α : Type} (v : Ring → α) (hv : ∀ (r : Ring) (l : Tbl Nat), v { r with learned := l } = v r) (s : State)
    (f : Frame) : v (learn s f).ring = v s.ring := by
  unfold learn
  split
  · rfl
  · exact hv _ _

theorem learn_port (s : State) (f : Frame) (p : Port) : (learn s f).port p = s.port p := by
  cases p
  · exact learn_ring_reads Ring.east (fun _ _ => rfl) s f
  · exact learn_ring_reads Ring.west (fun _ _ => rfl) s f

theorem learn_sent (s : State) (f : Frame) : (learn s f).sent = s.sent := learn_changesOnly s f .sent (by simp)

theorem learn_firstCopy (s : State) (f g : Frame) : firstCopy (learn s f) g = firstCopy s g :=
  learn_ring_reads (fun r => firstCopy { s with ring := r } g) (fun _ _ => rfl) s f

/-- The port of a frame is learned, and a broken FCS is counted (R328, R335). -/
def checkFcs (s : State) (f : Frame) : State := if f.fcsOk then learn s f else (learn s f).ringBad f.port

theorem checkFcs_of_ok {f : Frame} (h : f.fcsOk = true) (s : State) : checkFcs s f = learn s f := if_pos h

theorem checkFcs_changesOnly (s : State) (f : Frame) : s.changesOnly [.ring] (checkFcs s f) :=
  changesOnly_ite (learn_changesOnly s f) (changesOnly_trans (learn_changesOnly s f) (modPort_changesOnly _ _ _))

theorem checkFcs_port (s : State) (f : Frame) (p : Port) : (checkFcs s f).port p =
    if p = f.port ∧ f.fcsOk = false then { s.port p with fcsBad := min 0xFFFF ((s.port p).fcsBad + 1) } else s.port p := by
  unfold checkFcs State.ringBad
  by_cases hok : f.fcsOk = true
  · simp [hok, learn_port]
  · by_cases hp : p = f.port
    · simp [hok, hp, learn_port]
    · simp [hok, hp, learn_port, modPort_port_other]

@[simp] theorem port_other_other (p : Port) : p.other.other = p := by cases p <;> rfl

theorem port_other_ne (p : Port) : p.other ≠ p := by cases p <;> decide

/-! ## Receipt (R330, R333) -/

theorem receive_silent {s : State} {f : Frame} (h : frameVerdict s f = .silent) (take : State → State) : receive s f take = s := by
  simp only [receive, h]

theorem receive_dropped {s : State} {f : Frame} (h : frameVerdict s f = .dropped) (take : State → State) :
    receive s f take = s.ringDrop f.port := by
  simp only [receive, h]

theorem receive_of_passes {s : State} {f : Frame} (h : s.passes f) (take : State → State) :
    receive s f take = forward (checkFcs s f) f := by
  obtain ⟨hgood, hunicast, hother, hforeign, hrouted⟩ := h
  simp [receive, hgood, hunicast, hother, hforeign, hrouted, checkFcs]

/-- An own frame that comes round is taken off the ring, but for the frames of R348. -/
theorem receive_own {s : State} {f : Frame} (hgood : frameVerdict s f = .good) (hown : f.src = s.ring.node) (hbeat : f.ftype ≠ 0x20)
    (hprobe : f.ftype ≠ 0x23) (hclaim : f.ftype ≠ 0x24) (take : State → State) :
    receive s f take = (learn s f).ringDrop f.port := by
  simp [receive, hgood, hown, hbeat, hprobe, hclaim]

/-- A HEARTBEAT ends at the port that receives it. -/
theorem receive_heartbeat {s : State} {f : Frame} (hgood : frameVerdict s f = .good) (hfcs : f.fcsOk = true) (hbeat : f.ftype = 0x20)
    (take : State → State) : receive s f take = take (learn s f) := by
  simp [receive, hgood, hfcs, hbeat]

/-- A probe or claim with the engine's own node ID is processed where it is the first copy and not the engine's own probe (R348). -/
theorem receive_ownId {s : State} {f : Frame} (hgood : frameVerdict s f = .good) (hfcs : f.fcsOk = true)
    (htype : f.ftype = 0x23 ∧ beAt f.body 0 4 ≠ s.ring.nonce.toNat ∨ f.ftype = 0x24) (hown : f.src = s.ring.node)
    (hfirst : firstCopy s f = true) (take : State → State) : receive s f take = take (noteBroadcast (learn s f) f) := by
  rcases htype with ⟨htype, hnonce⟩ | htype
  · simp [receive, hgood, hfcs, htype, hnonce, hown, learn_firstCopy, hfirst]
  · simp [receive, hgood, hfcs, htype, hown, learn_firstCopy, hfirst]

/-- A broadcast of a known type from another node is processed where it is the first copy, and goes on (R333). -/
theorem receive_broadcast {s : State} {f : Frame} (hgood : frameVerdict s f = .good) (hfcs : f.fcsOk = true) (hall : f.dst = 255)
    (hbeat : f.ftype ≠ 0x20) (hknown : knownType f.ftype = true) (hforeign : f.src ≠ s.ring.node) (hnode : s.ring.node ≠ 255)
    (take : State → State) : receive s f take =
      forward (if firstCopy s f then take (noteBroadcast (learn s f) f) else learn s f) f := by
  have hmine : ¬ (255 = s.ring.node) := fun h => hnode h.symm
  by_cases hfirst : firstCopy s f = true <;>
    simp [receive, hgood, hfcs, hall, hbeat, hknown, hforeign, hmine, learn_firstCopy, hfirst]

/-! ## A frame goes on, is turned back, or ends (R330 to R332) -/

section
variable {s : State} {f : Frame} (hhops : f.hops + 1 < 512) (hunicast : f.dst ≠ 255)
include hhops hunicast

theorem forward_on (hturns : (s.port f.port.other).turns f.pcp = false) (hclear : (s.port f.port.other).clear f.pcp = true) :
    forward s f = s.send (.forward f.port.other { f with hops := f.hops + 1 }) := by
  simp [forward, leave, egress, Nat.not_le.2 hhops, hunicast, hturns, hclear]

theorem forward_turned (hwrap : f.wrap = false) (hturns : (s.port f.port.other).turns f.pcp = true)
    (hback : (s.port f.port).turns f.pcp = false) (hclear : (s.port f.port).clear f.pcp = true) :
    forward s f = s.send (.forward f.port { f with wrap := true, hops := f.hops + 1 }) := by
  simp [forward, leave, turnBack, egress, Nat.not_le.2 hhops, hunicast, hwrap, hturns, hback, hclear]

end

/-- The 512th hop and a second turn end a frame. -/
theorem forward_ends {s : State} {f : Frame} (hunicast : f.dst ≠ 255)
    (h : 512 ≤ f.hops + 1 ∨ f.wrap = true ∧ (s.port f.port.other).turns f.pcp = true) : forward s f = s.ringDrop f.port := by
  rw [forward]
  split
  · rfl
  next hhops =>
    obtain ⟨hwrap, hturns⟩ := h.resolve_left hhops
    simp [leave, turnBack, hunicast, hwrap, hturns]

/-! ## The statement -/

theorem exec_transitFrame (f : Frame) (s : State) : exec (.transitFrame f) s = .next (receive s f id) := rfl

theorem exec_unknownFrameType (f : Frame) (s : State) :
    exec (.unknownFrameType f) s = .next (receive s f fun t => t.ringDrop f.port) := rfl

/-- Settles O32: by the way on which the frame's checks, its destination and its hops lead it. -/
theorem framesPassWithTheirHopsCounted : Obligations.FramesPassWithTheirHopsCounted := by
  unfold Obligations.FramesPassWithTheirHopsCounted
  refine ⟨?on, ?turned, ?ends, ?dropped, ?silent, ?own, ?unknown, ?unknownPasses, ?nonYaver⟩
  case on =>
    intro f s hpasses hhops hturns hclear
    have hother : (checkFcs s f).port f.port.other = s.port f.port.other := by
      rw [checkFcs_port, if_neg fun h => port_other_ne f.port h.1]
    have hsend := forward_on (s := checkFcs s f) hhops hpasses.unicast (by rw [hother, hturns]) (by rw [hother, hclear])
    refine ⟨_, by rw [exec_transitFrame, receive_of_passes hpasses, hsend], ?_, ?_, fun p => ?_, ?_⟩
    · rw [send_sent, checkFcs_changesOnly s f .sent (by simp)]
    · rw [send_port, checkFcs_port]
      cases f.fcsOk <;> simp
    · rw [send_port, checkFcs_port]
      split <;> rfl
    · exact changesOnly_trans (changesOnly_mono (checkFcs_changesOnly s f) (by simp))
        (changesOnly_mono (send_changesOnly _ _) (by simp))
  case turned =>
    intro f s hpasses hhops hfcs hwrap hturns hback hclear
    have hsend := forward_turned (s := learn s f) hhops hpasses.unicast hwrap (by rw [learn_port, hturns]) (by rw [learn_port, hback])
      (by rw [learn_port, hclear])
    refine ⟨_, by rw [exec_transitFrame, receive_of_passes hpasses, checkFcs_of_ok hfcs, hsend], ?_, ?_⟩
    · rw [send_sent, learn_sent]
    · exact changesOnly_trans (changesOnly_mono (learn_changesOnly s f) (by simp)) (changesOnly_mono (send_changesOnly _ _) (by simp))
  case ends =>
    intro f s hpasses hfcs h
    have hdrop := forward_ends (s := learn s f) hpasses.unicast (by rw [learn_port]; exact h)
    exact ⟨_, by rw [exec_transitFrame, receive_of_passes hpasses, checkFcs_of_ok hfcs, hdrop], rfl⟩
  case dropped => exact fun f s h => ⟨_, by rw [exec_transitFrame, receive_dropped h], rfl⟩
  case silent => exact fun f s h => by rw [exec_transitFrame, receive_silent h]
  case own =>
    exact fun f s hgood hown hbeat hprobe hclaim =>
      ⟨_, by rw [exec_transitFrame, receive_own hgood hown hbeat hprobe hclaim], rfl⟩
  case unknown =>
    intro f s htakes hunknown
    have hbeat : f.ftype ≠ 0x20 := fun h => by simp [h, knownType] at hunknown
    exact ⟨_, by rw [exec_unknownFrameType, receive_of_takes htakes hbeat], rfl⟩
  case unknownPasses =>
    intro f s hpasses _
    rw [exec_unknownFrameType, exec_transitFrame, receive_of_passes hpasses, receive_of_passes hpasses]
  case nonYaver =>
    intro p s
    have hexec : exec (.nonYaverFrame p) s = execNonYaverFrame p s := rfl
    refine ⟨_, ?_, rfl⟩
    rw [hexec, execNonYaverFrame]
    split <;> rfl

end Sys2Proof.Proofs
end

section
/-! SUPPORT. Maps and their cuts, the faults that untap the engine, and the statement about them (R319, R320, R334, R335, R342, R346,
R347, R415, R500). -/

namespace Sys2Proof.Proofs

open Sys2Proof Sys2Proof.Machine Sys2Proof.Laws

/-! ## A broadcast is noted (R333) -/

/-- A noted broadcast teaches its number and the port of its source, and nothing else. -/
theorem noteBroadcast_learn_reads {α : Type} (v : Ring → α)
    (hv : ∀ (r : Ring) (l b : Tbl Nat), v { r with learned := l, lastB := b } = v r) (s : State) (f : Frame) :
    v (noteBroadcast (learn s f) f).ring = v s.ring :=
  (hv (learn s f).ring _ _).trans (learn_ring_reads v (fun r l => hv r l r.lastB) s f)

theorem noteBroadcast_changesOnly (s : State) (f : Frame) : s.changesOnly [.ring] (noteBroadcast s f) := withRing_changesOnly s _

theorem noteBroadcast_learn_changesOnly (s : State) (f : Frame) : s.changesOnly [.ring] (noteBroadcast (learn s f) f) :=
  changesOnly_trans (learn_changesOnly s f) (noteBroadcast_changesOnly _ f)

theorem noteBroadcast_learn_port (s : State) (f : Frame) (p : Port) : (noteBroadcast (learn s f) f).port p = s.port p := by
  cases p
  · exact noteBroadcast_learn_reads Ring.east (fun _ _ _ => rfl) s f
  · exact noteBroadcast_learn_reads Ring.west (fun _ _ _ => rfl) s f

theorem noteBroadcast_learn_lastB (s : State) (f : Frame) :
    Tbl.get 0 (noteBroadcast (learn s f) f).ring.lastB f.src = f.seq.toNat + 1 :=
  Tbl_get_set_same (0 : Nat) (learn s f).ring.lastB f.src (f.seq.toNat + 1)

theorem noteBroadcast_learn_mapAccepted (s : State) (f : Frame) (m : RingMap) :
    mapAccepted (noteBroadcast (learn s f) f) f m = mapAccepted s f m :=
  noteBroadcast_learn_reads (fun r => mapAccepted { s with ring := r } f m) (fun _ _ _ => rfl) s f

theorem noteBroadcast_learn_closes (s : State) (f : Frame) (m : RingMap) (p : Port) :
    closes (noteBroadcast (learn s f) f) m p = closes s m p :=
  noteBroadcast_learn_reads (fun r => closes { s with ring := r } m p) (fun _ _ _ => rfl) s f

/-! ## A map takes effect (R334, R335) -/

theorem takeMap_port (s : State) (m : RingMap) (p : Port) : (takeMap s m).port p =
    { s.port p with cut := closes s m p, quiet := (s.port p).quiet && closes s m p } := by
  cases p <;> rfl

theorem takeMap_changesOnly (s : State) (m : RingMap) : s.changesOnly [.ring] (takeMap s m) :=
  changesOnly_trans (withRing_changesOnly s _) (changesOnly_trans (modPort_changesOnly _ .east _) (modPort_changesOnly _ .west _))

theorem port_eq_of_ring_eq {s t : State} (h : t.ring = s.ring) (p : Port) : t.port p = s.port p :=
  match p with
  | .east => congrArg Ring.east h
  | .west => congrArg Ring.west h

/-- A TOPOLOGY frame from another node is looked at where it is the first copy, and goes on. -/
theorem exec_topology {s : State} {f : Frame} (hgood : frameVerdict s f = .good) (hfcs : f.fcsOk = true) (hall : f.dst = 255)
    (htype : f.ftype = 0x21) (hforeign : f.src ≠ s.ring.node) (hnode : s.ring.node ≠ 255) :
    exec (.topology f) s = .next (forward (if firstCopy s f then
      (if mapAccepted s f (parseMap f.body) then takeMap (noteBroadcast (learn s f) f) (parseMap f.body)
        else (noteBroadcast (learn s f) f).logFree .ring 0x0101 0xFF)
      else learn s f) f) := by
  have hexec : exec (.topology f) s = execTopology f s := rfl
  rw [hexec, execTopology, if_neg (by simp [htype]),
    receive_broadcast hgood hfcs hall (by simp [htype]) (by simp [htype, knownType]) hforeign hnode]
  simp only [noteBroadcast_learn_mapAccepted]

/-- A later copy, and a map that is not accepted, go on and leave the map and the ports. -/
theorem exec_topology_refused {s : State} {f : Frame} (hgood : frameVerdict s f = .good) (hfcs : f.fcsOk = true) (hall : f.dst = 255)
    (htype : f.ftype = 0x21) (hforeign : f.src ≠ s.ring.node) (hnode : s.ring.node ≠ 255)
    (hnot : firstCopy s f = false ∨ mapAccepted s f (parseMap f.body) = false) :
    ∃ u, exec (.topology f) s = .next (forward u f) ∧ u.ring.map = s.ring.map ∧ (∀ p, u.port p = s.port p) ∧
      s.changesOnly [.ring, .logs, .events, .freeCtr] u := by
  rw [exec_topology hgood hfcs hall htype hforeign hnode]
  by_cases hfirst : firstCopy s f = true
  · have hlog := logFree_changesOnly (noteBroadcast (learn s f) f) .ring 0x0101 0xFF
    have hring := hlog .ring (by simp)
    rw [if_pos hfirst, if_neg (by simp [hnot.resolve_left (by simp [hfirst])])]
    exact ⟨_, rfl, by rw [hring]; exact noteBroadcast_learn_reads Ring.map (fun _ _ _ => rfl) s f,
      fun p => by rw [port_eq_of_ring_eq hring, noteBroadcast_learn_port],
      changesOnly_trans (changesOnly_mono (noteBroadcast_learn_changesOnly s f) (by simp)) (changesOnly_mono hlog (by simp))⟩
  · rw [if_neg hfirst]
    exact ⟨_, rfl, learn_ring_reads Ring.map (fun _ _ => rfl) s f, learn_port s f, changesOnly_mono (learn_changesOnly s f) (by simp)⟩

/-! ## The switches go to bar (R320, R346, R347, R415) -/

/-- From `s` to `t` the engine is untapped: it has neither node ID nor map, and its SPDM sessions have ended. -/
structure Untaps (s t : State) : Prop where
  tapped : t.ring.tapped = false
  node : t.ring.node = 0
  map : t.ring.map = none
  sec : t.sec = { s.sec with sessions := [] }
  frame : s.changesOnly [.ring, .sec, .sent, .logs, .events, .freeCtr] t

theorem withRingSec_changesOnly (s : State) (r : Ring) (v : Security) : s.changesOnly [.ring, .sec] { s with ring := r, sec := v } :=
  changesOnly_of_agrees (by rintro ⟨⟩ <;> simp [State.agrees])

/-- The engine in bar: of the ring the laser sources, the counters and VHTR stand, and no session is open. -/
def inBar (s : State) : State :=
  { s with
    ring := { switchedAt := s.now, east := s.ring.east.untapped, west := s.ring.west.untapped, vhtr := s.ring.vhtr }
    sec := { s.sec with sessions := [] } }

theorem untap_of_untapped {s : State} (h : s.tapped = false) : untap s = s := if_neg (by simp [h])

theorem untap_of_tapped {s : State} (h : s.tapped = true) : untap s = (inBar s).send (.switches false) := if_pos h

theorem untap_changesOnly (s : State) : s.changesOnly [.ring, .sec, .sent] (untap s) := by
  by_cases h : s.tapped = true
  · rw [untap_of_tapped h]
    exact changesOnly_trans (changesOnly_mono (withRingSec_changesOnly s _ _) (by simp)) (changesOnly_mono (send_changesOnly _ _) (by simp))
  · rw [untap_of_untapped (by simpa using h)]
    exact changesOnly_refl _ s

theorem untap_untaps {s : State} (h : s.tapped = true) : Untaps s (untap s) := by
  have hframe := untap_changesOnly s
  rw [untap_of_tapped h] at hframe ⊢
  exact ⟨rfl, rfl, rfl, rfl, changesOnly_mono hframe (by simp)⟩

/-- Steps before the untap that leave the sessions, and steps after it that leave what it took. -/
theorem Untaps.between {r s t u : State} (h : Untaps s t) (hr : r.changesOnly [.ring, .sent] s) (htapped : u.ring.tapped = t.ring.tapped)
    (hnode : u.ring.node = t.ring.node) (hmap : u.ring.map = t.ring.map) (hu : t.changesOnly [.ring, .logs, .events, .freeCtr] u) :
    Untaps r u where
  tapped := htapped.trans h.tapped
  node := hnode.trans h.node
  map := hmap.trans h.map
  sec := by rw [hu .sec (by simp), h.sec, hr .sec (by simp)]
  frame := changesOnly_trans (changesOnly_mono hr (by simp)) (changesOnly_trans h.frame (changesOnly_mono hu (by simp)))

/-- A ring-log entry follows an untap. -/
theorem Untaps.logged {r s t : State} (h : Untaps s t) (hr : r.changesOnly [.ring, .sent] s) (c b : Nat) :
    Untaps r (t.logFree .ring c b) := by
  have hlog := logFree_changesOnly t .ring c b
  have hring := hlog .ring (by simp)
  exact h.between hr (congrArg Ring.tapped hring) (congrArg Ring.node hring) (congrArg Ring.map hring) (changesOnly_mono hlog (by simp))

theorem selfFault_of_untapped {s : State} (h : s.tapped = false) (p : Port) : selfFault s p = s := if_neg (by simp [h])

theorem selfFault_untaps {s : State} (h : s.tapped = true) (p : Port) : Untaps s (selfFault s p) := by
  have hevent := sendRingEvent_flows s ⟨reSelfFault, p.index, 0, 0, s.epoch, s.now, 0⟩
  rw [selfFault, if_pos h]
  exact (untap_untaps (hevent.tapped.trans h)).logged hevent.frame _ _

/-- The engine without REFCLK_RING (R500). -/
def refLost (s : State) : State := { s with aon := { s.aon with refRing := false } }

/-- The engine without heater power (R320). -/
def vhtrOff (s : State) : State := { s with ring := { s.ring with vhtr := false } }

theorem exec_vhtrLost_tapped {s : State} (h : s.tapped = true) :
    exec .vhtrLost s = .next (vhtrOff ((untap s).logFree .ring 0x0104 0xFF)) := by
  have hexec : exec .vhtrLost s = execVhtrLost s := rfl
  rw [hexec, execVhtrLost, if_pos h]
  rfl

theorem exec_vhtrLost_untapped {s : State} (h : s.tapped = false) : exec .vhtrLost s = .next (vhtrOff s) := by
  have hexec : exec .vhtrLost s = execVhtrLost s := rfl
  rw [hexec, execVhtrLost, if_neg (by simp [h])]
  rfl

theorem exec_refclkRingLost (s : State) : exec .refclkRingLost s = .next (selfFault (refLost s) .east) := rfl

/-- A fault that ends in an untap, with nothing changed before it but PD0's view of the clocks. -/
theorem completes_of_untaps {c : Instr} {s t : State} (hexec : exec c s = .next t) {r : State} (haon : s.changesOnly [.aon] r)
    (h : Untaps r t) : completes c s fun t =>
      t.ring.tapped = false ∧ t.ring.node = 0 ∧ t.ring.map = none ∧ t.sec = { s.sec with sessions := [] } ∧ t.mode = s.mode ∧
      s.changesOnly [.ring, .sec, .sent, .logs, .events, .freeCtr, .aon] t := by
  have hframe : s.changesOnly [.ring, .sec, .sent, .logs, .events, .freeCtr, .aon] t :=
    changesOnly_trans (changesOnly_mono haon (by simp)) (changesOnly_mono h.frame (by simp))
  exact ⟨t, hexec, h.tapped, h.node, h.map, by rw [h.sec, haon .sec (by simp)], hframe .mode (by simp), hframe⟩

/-! ## The statement -/

/-- Settles O33: what a map sets stands while its frame goes on, and a self-fault ends in an untap. -/
theorem mapsCutAndFaultsUntap : Obligations.MapsCutAndFaultsUntap := by
  unfold Obligations.MapsCutAndFaultsUntap
  refine ⟨?taken, ?refused, ?quiet, ?notQuiet, ?faults, ?domain, ?laser, ?vhtr, ?refclk⟩
  case taken =>
    intro f s hgood hfcs hall htype hforeign hnode hfirst haccepted
    have hflows := forward_flows (takeMap (noteBroadcast (learn s f) f) (parseMap f.body)) f
    have hport (p : Port) := (hflows.port p).trans (congrArg portStill ((takeMap_port _ _ p).trans
      (by rw [noteBroadcast_learn_port, noteBroadcast_learn_closes])))
    refine ⟨_, by rw [exec_topology hgood hfcs hall htype hforeign hnode, if_pos hfirst, if_pos haccepted], hflows.map,
      fun p => (congrArg PortState.cut (hport p) :), fun p => (congrArg PortState.quiet (hport p) :),
      (congrArg (fun r => Tbl.get 0 r.lastB f.src) hflows.ring).trans (noteBroadcast_learn_lastB s f), ?_⟩
    exact changesOnly_trans (changesOnly_mono (noteBroadcast_learn_changesOnly s f) (by simp))
        (changesOnly_trans (changesOnly_mono (takeMap_changesOnly _ _) (by simp)) hflows.frame)
  case refused =>
    intro f s hgood hfcs hall htype hforeign hnode hnot
    obtain ⟨u, hu, hmap, hport, hframe⟩ := exec_topology_refused hgood hfcs hall htype hforeign hnode hnot
    have hflows := forward_flows u f
    refine ⟨_, hu, hflows.map.trans hmap,
      fun p => (congrArg PortState.cut ((hflows.port p).trans (congrArg portStill (hport p))) :), ?_⟩
    exact changesOnly_trans (changesOnly_mono hframe (by simp)) (changesOnly_mono hflows.frame (by simp))
  case quiet =>
    intro p s htapped hcut hquiet h3t h3o h6t h6o
    have hexec : exec (.cutQuiet p) s = execCutQuiet p s := rfl
    refine ⟨_, by rw [hexec, execCutQuiet, if_pos ⟨htapped, hcut, hquiet, h3t, h3o, h6t, h6o⟩], ?_, ?_, ?_⟩
    · cases p <;> rfl
    · cases p <;> rfl
    · exact changesOnly_trans (modPort_changesOnly s p _) (withRing_changesOnly _ _)
  case notQuiet =>
    intro p s h
    have hexec : exec (.cutQuiet p) s = execCutQuiet p s := rfl
    rw [hexec, execCutQuiet, if_neg]
    rintro ⟨-, hcut, -, h3t, -⟩
    rcases h with hopen | hwaits
    · simp [hopen] at hcut
    · exact hwaits h3t
  case faults =>
    intro p s c hc htapped
    simp only [List.mem_cons, List.not_mem_nil, or_false] at hc
    rcases hc with rfl | rfl | rfl
    · have h := selfFault_untaps htapped p
      refine completes_of_untaps rfl (changesOnly_refl _ s) (h.between (changesOnly_refl _ s) ?_ ?_ ?_
        (changesOnly_mono (modPort_changesOnly _ p _) (by simp)))
      all_goals cases p <;> rfl
    · exact completes_of_untaps (exec_refclkRingLost s) (withAon_changesOnly s _) (selfFault_untaps (s := refLost s) htapped .east)
    · have h := (untap_untaps htapped).logged (changesOnly_refl _ s) 0x0104 0xFF
      exact completes_of_untaps (exec_vhtrLost_tapped htapped) (changesOnly_refl _ s) (h.between (changesOnly_refl _ s) rfl rfl rfl
        (changesOnly_mono (withRing_changesOnly _ _) (by simp)))
  case domain =>
    intro p s htapped hpd
    have h := selfFault_untaps htapped p
    exact ⟨_, if_pos hpd, h.tapped, h.sec, h.frame .mode (by simp), h.frame⟩
  case laser =>
    intro p s huntapped
    refine ⟨s.modPort p fun x => { x with elsOk := false }, ?_, modPort_port_same s p _, modPort_changesOnly s p _⟩
    have hexec : exec (.laserSourceUnusable p) s = execLaserSourceUnusable p s := rfl
    rw [hexec, execLaserSourceUnusable, selfFault_of_untapped huntapped]
  case vhtr =>
    intro s huntapped
    exact ⟨vhtrOff s, exec_vhtrLost_untapped huntapped, rfl, withRing_changesOnly s _⟩
  case refclk =>
    intro s huntapped
    exact ⟨refLost s, by rw [exec_refclkRingLost, selfFault_of_untapped (s := refLost s) huntapped], rfl, withAon_changesOnly s _⟩

end Sys2Proof.Proofs
end

section
/-! SUPPORT. Ports that wrap and unwrap, what a heartbeat makes of its port, and the statement about them (R340 to R343, R345, R349). -/

namespace Sys2Proof.Proofs

open Sys2Proof Sys2Proof.Machine Sys2Proof.Laws

/-! ## Ring events and own broadcasts (R333, R342) -/

@[simp] theorem ringEvent_port (s : State) (c : Nat) (q : Port) (a b : Nat) (p : Port) : (s.ringEvent c q a b).port p = s.port p := by
  cases p <;> rfl

theorem ringEvent_changesOnly (s : State) (c : Nat) (p : Port) (a b : Nat) : s.changesOnly [.ring] (s.ringEvent c p a b) :=
  withRing_changesOnly s _

theorem ringEvent_events (s : State) (c : Nat) (p : Port) (a b : Nat) :
    (s.ringEvent c p a b).ring.events = s.ring.events ++ [⟨c, p.index, a, b, s.epoch, s.now, 0⟩] := rfl

theorem ringEvent_epoch (s : State) (c : Nat) (p : Port) (a b : Nat) : (s.ringEvent c p a b).epoch = s.epoch := rfl

theorem ringEvent_now (s : State) (c : Nat) (p : Port) (a b : Nat) : (s.ringEvent c p a b).now = s.now := rfl

/-- The two copies of an own broadcast, each at its port. -/
def bothWays (s : State) (f : TxFrame) : State := ownLeave (ownLeave s .east f) .west f

theorem bothWays_flows (s : State) (f : TxFrame) : Flows s (bothWays s f) :=
  (ownLeave_flows s .east f).trans (ownLeave_flows _ .west f)

/-- An own broadcast takes the next number, and else only moves frames. -/
theorem broadcast_eq (s : State) (ty : Nat) (body : List Byte) : ∃ u, Flows s u ∧
    broadcast s ty body = { u with ring := { u.ring with bseq := u.ring.bseq + 1 } } :=
  ⟨bothWays s ⟨ty, 7, 255, 0, s.ring.bseq, 0, false, body, false⟩, bothWays_flows s _, rfl⟩

/-- The end of a splice's training sends a probe at most (R345). -/
theorem spliceStep_still (s : State) :
    (∀ p, portStill ((spliceStep s).port p) = portStill (s.port p)) ∧ s.changesOnly [.ring, .sent] (spliceStep s) := by
  unfold spliceStep
  split
  · dsimp only
    split
    · obtain ⟨u, hu, hsent⟩ := broadcast_eq s 0x23 (beBytes 4 s.ring.nonce.toNat ++ zeros 4)
      rw [hsent]
      refine ⟨fun p => Eq.trans ?_ (hu.port p), changesOnly_trans hu.frame (changesOnly_mono (withRing_changesOnly u _) (by simp))⟩
      cases p <;> rfl
    · exact ⟨fun _ => rfl, changesOnly_refl _ s⟩
  · exact ⟨fun _ => rfl, changesOnly_refl _ s⟩

/-! ## A valid heartbeat (R340, R341, R343) -/

/-- A port that has heard its neighbour `src`. -/
def heardPort (src : Nat) (x : PortState) : PortState :=
  { x with misses := 0, heard := true, lastHeard := src, neighbour := src, miswired := false
           nbChange := x.nbChange || decide (x.neighbour ≠ src) }

/-- The port then, unwrapped where it was wrapped and is LINK_UP. -/
def relinked (s : State) (p : Port) (src : Nat) : State :=
  let s1 := s.modPort p (heardPort src)
  if (s1.port p).wrapped && (s1.port p).linkUp then
    drain ((s1.modPort p fun x => { x with wrapped := false }).ringEvent reUnwrapped p (s.port p).neighbour src) p
  else s1

theorem relinked_port (s : State) (p : Port) (src : Nat) : portStill ((relinked s p src).port p) =
    portStill { heardPort src (s.port p) with wrapped := (s.port p).wrapped && !(s.port p).pcs } := by
  have hlink : (heardPort src (s.port p)).linkUp = (s.port p).pcs := Bool.and_true _
  have hwrap : (heardPort src (s.port p)).wrapped = (s.port p).wrapped := rfl
  unfold relinked
  dsimp only
  rw [modPort_port_same, hlink, hwrap]
  split
  next h =>
    obtain ⟨hw, hp⟩ := (Bool.and_eq_true _ _).mp h
    rw [(drain_flows _ p).port p, ringEvent_port, modPort_port_same, modPort_port_same, hw, hp]
    rfl
  next h =>
    have hstands : ∀ w c : Bool, ¬ (w && c) = true → (w && !c) = w := by decide
    rw [modPort_port_same, hstands _ _ h, ← hwrap]

theorem relinked_changesOnly (s : State) (p : Port) (src : Nat) : s.changesOnly [.ring, .sent] (relinked s p src) :=
  have hheard := modPort_changesOnly s p (heardPort src)
  changesOnly_ite
    (changesOnly_trans (changesOnly_mono (changesOnly_trans hheard (changesOnly_trans (modPort_changesOnly _ p _)
      (ringEvent_changesOnly _ _ _ _ _))) (by simp)) (drain_flows _ p).frame)
    (changesOnly_mono hheard (by simp))

theorem goodHeartbeat_eq (s : State) (p : Port) (src : Nat) : goodHeartbeat s p src = spliceStep
    (if decide ((s.port p).neighbour ≠ src) then (relinked s p src).ringEvent reNew p (s.port p).neighbour src
      else relinked s p src) := by
  cases p <;> rfl

theorem goodHeartbeat_port (s : State) (p : Port) (src : Nat) : portStill ((goodHeartbeat s p src).port p) =
    portStill { heardPort src (s.port p) with wrapped := (s.port p).wrapped && !(s.port p).pcs } := by
  rw [goodHeartbeat_eq, (spliceStep_still _).1, ← relinked_port]
  split
  · rw [ringEvent_port]
  · rfl

theorem goodHeartbeat_changesOnly (s : State) (p : Port) (src : Nat) : s.changesOnly [.ring, .sent] (goodHeartbeat s p src) := by
  rw [goodHeartbeat_eq]
  refine changesOnly_trans (changesOnly_trans (relinked_changesOnly s p src) ?_) (spliceStep_still _).2
  exact changesOnly_ite (changesOnly_mono (ringEvent_changesOnly _ _ _ _ _) (by simp)) (changesOnly_refl _ _)

/-- A HEARTBEAT of the neighbour's other port, and one of the port's own number (R341). -/
theorem exec_heartbeat {s : State} {f : Frame} (hgood : frameVerdict s f = .good) (hfcs : f.fcsOk = true) (htype : f.ftype = 0x20) :
    exec (.heartbeat f) s = .next (if (byteAt f.body 0).toNat = f.port.other.index then goodHeartbeat (learn s f) f.port f.src
      else if ((learn s f).port f.port).miswired then learn s f
      else (((learn s f).modPort f.port fun x => { x with miswired := true }).logFree .ring 0x0103 0xFF).ringEvent reMiswired f.port
        ((learn s f).port f.port).neighbour f.src) := by
  have hexec : exec (.heartbeat f) s = execHeartbeat f s := rfl
  rw [hexec, execHeartbeat, if_neg (by simp [htype]), receive_heartbeat hgood hfcs htype]

/-! ## A port wraps (R343) -/

/-- A priority whose queues are emptied. -/
def emptied (x : PrioState) : PrioState := { x with transit := [], own := [] }

/-- A port as it wraps, before what waited is turned back. -/
def wrappedPort (x : PortState) : PortState := { x with wrapped := true, p3 := emptied x.p3, p6 := emptied x.p6, p7 := emptied x.p7 }

/-- A wrapped port at which no transit frame waits. -/
structure Shut (p : Port) (s : State) : Prop where
  wrapped : (s.port p).wrapped = true
  empty : ∀ n, ((s.port p).prio n).transit = []

theorem Shut.of_flows {p : Port} {s t : State} (h : Shut p s) (hflows : Flows s t)
    (hqueue : ∀ n, ((t.port p).prio n).transit = ((s.port p).prio n).transit) : Shut p t :=
  ⟨(congrArg PortState.wrapped (hflows.port p) :).trans h.wrapped, fun n => (hqueue n).trans (h.empty n)⟩

theorem ringDrop_transit (s : State) (p q : Port) (n : Nat) : (((s.ringDrop p).port q).prio n).transit = ((s.port q).prio n).transit :=
  modPort_port_reads (fun x => (x.prio n).transit) (by intro _; rfl) s p q

/-- A transit frame that leaves by a port waits at no other. -/
theorem egress_transit_other {p q : Port} (h : q ≠ p) (s : State) (f : Frame) (n : Nat) :
    (((egress s p f).port q).prio n).transit = ((s.port q).prio n).transit := by
  unfold egress
  split_ifs
  · rfl
  · exact ringDrop_transit s _ q n
  · rw [pfcAll_transit, State.modPrio, modPort_port_other s _ h]

/-- An own frame waits in the queue of own frames. -/
theorem ownEgress_transit (s : State) (p q : Port) (f : TxFrame) (n : Nat) :
    (((ownEgress s p f).port q).prio n).transit = ((s.port q).prio n).transit := by
  unfold ownEgress
  split_ifs
  · rfl
  · exact modPort_port_reads (fun x => (x.prio n).transit)
      (fun x => modPrio_prio_reads PrioState.transit (by intro _; rfl) x f.pcp n) s p q

theorem ownLeave_transit (s : State) (p q : Port) (f : TxFrame) (n : Nat) :
    (((ownLeave s p f).port q).prio n).transit = ((s.port q).prio n).transit := by
  unfold ownLeave
  split_ifs
  · rfl
  · exact ownEgress_transit s p q f n
  · exact ringDrop_transit s p q n
  · exact ownEgress_transit s p.other q _ n
  · exact ownEgress_transit s p q f n

theorem turnBack_transit (s : State) (p : Port) (f : Frame) (n : Nat) :
    (((turnBack s p f).port p).prio n).transit = ((s.port p).prio n).transit := by
  unfold turnBack
  split
  · exact ringDrop_transit s f.port p n
  · exact egress_transit_other (port_other_ne p).symm s _ n

/-- At a wrapped port a transit frame ends or is turned back: it does not wait there. -/
theorem leave_shut {p : Port} {s : State} (h : Shut p s) (f : Frame) : Shut p (leave s p f) := by
  refine h.of_flows (leave_flows s p f) fun n => ?_
  have hturns : (s.port p).turns f.pcp = true := by simp [PortState.turns, h.wrapped]
  rw [leave, if_pos (Or.inl h.wrapped), if_pos hturns]
  split
  · rfl
  · exact turnBack_transit s p _ n

theorem wrapPort_flows (s : State) (p : Port) : Flows (s.modPort p wrappedPort) (wrapPort s p) := by
  refine (Flows.trans (flows_foldl _ (fun u f => leave_flows u p f) _ _) (flows_foldl _ (fun u f => ?_) _ _)).trans (pfcAll_flows _)
  exact flows_ite (ringDrop_flows u p) (ownLeave_flows u p f)

theorem wrapPort_shut (s : State) (p : Port) : Shut p (wrapPort s p) := by
  have hstart : Shut p (s.modPort p wrappedPort) := by
    refine ⟨by rw [modPort_port_same]; rfl, fun n => ?_⟩
    rw [modPort_port_same]
    unfold PortState.prio
    split_ifs <;> rfl
  have hpfc {u : State} (h : Shut p u) : Shut p (pfcAll u) := h.of_flows (pfcAll_flows u) (pfcAll_transit u p)
  refine hpfc (List.foldlRecOn _ _ (List.foldlRecOn _ _ hstart fun u hu f _ => leave_shut hu f) fun u hu f _ => ?_)
  refine hu.of_flows (flows_ite (ringDrop_flows u p) (ownLeave_flows u p f)) fun n => ?_
  split
  · exact ringDrop_transit u p p n
  · exact ownLeave_transit u p p f n

theorem wrapPort_changesOnly (s : State) (p : Port) : s.changesOnly [.ring, .sent] (wrapPort s p) :=
  changesOnly_trans (changesOnly_mono (modPort_changesOnly s p _) (by simp)) (wrapPort_flows s p).frame

/-! ## The PCS locks (R340, R344, R500) -/

/-- The engine with REFCLK_RING present, and a port whose PCS and FEC are locked. -/
def refBack (s : State) : State := { s with aon := { s.aon with refRing := true } }
def lockedPort (now : Nat) (x : PortState) : PortState := { x with pcs := true, lockAt := if x.pcs then x.lockAt else now }

theorem exec_pcsLock {p : Port} {s : State} (h : s.powered p.domain = true) :
    exec (.pcsLock p) s = .next (spliceStep (drain ((refBack s).modPort p (lockedPort s.now)) p)) := if_pos h

/-! ## The statement -/

/-- Settles O34: what a heartbeat or a third miss makes of its port stands while frames flow. -/
theorem heartbeatsWrapAndUnwrapPorts : Obligations.HeartbeatsWrapAndUnwrapPorts := by
  unfold Obligations.HeartbeatsWrapAndUnwrapPorts
  refine ⟨?good, ?crossed, ?dark, ?fewMisses, ?lock, ?loss⟩
  case good =>
    intro f s hgood hfcs htype hnumber
    have hport := goodHeartbeat_port (learn s f) f.port f.src
    rw [learn_port] at hport
    refine ⟨_, by rw [exec_heartbeat hgood hfcs htype, if_pos hnumber], (congrArg PortState.misses hport :),
      (congrArg PortState.heard hport :), (congrArg PortState.neighbour hport :), (congrArg PortState.miswired hport :),
      (congrArg PortState.wrapped hport :), (congrArg PortState.nbChange hport :), ?_⟩
    exact changesOnly_trans (changesOnly_mono (learn_changesOnly s f) (by simp)) (goodHeartbeat_changesOnly _ _ _)
  case crossed =>
    intro f s hgood hfcs htype hnumber
    have hlearn : s.changesOnly [.ring, .logs, .events, .freeCtr] (learn s f) := changesOnly_mono (learn_changesOnly s f) (by simp)
    rw [completes, exec_heartbeat hgood hfcs htype, if_neg hnumber, learn_port]
    split
    next hmis => exact ⟨_, rfl, by rw [learn_port, hmis], by rw [learn_port], hlearn⟩
    next =>
      have hlog := logFree_changesOnly ((learn s f).modPort f.port fun x => { x with miswired := true }) .ring 0x0103 0xFF
      have hport := port_eq_of_ring_eq (hlog .ring (by simp)) f.port
      rw [modPort_port_same, learn_port] at hport
      refine ⟨_, rfl, by rw [ringEvent_port, hport], by rw [ringEvent_port, hport], ?_⟩
      exact changesOnly_trans hlearn (changesOnly_trans (changesOnly_mono (modPort_changesOnly _ _ _) (by simp))
        (changesOnly_trans (changesOnly_mono hlog (by simp)) (changesOnly_mono (ringEvent_changesOnly _ _ _ _ _) (by simp))))
  case dark =>
    intro p s htapped hmisses hwrapped
    have hexec : exec (.heartbeatMissLimit p) s = execHeartbeatMissLimit p s := rfl
    have hflows := wrapPort_flows s p
    have hevents : (wrapPort s p).ring.events = s.ring.events := hflows.events.trans (by cases p <;> rfl)
    have hepoch : (wrapPort s p).epoch = s.epoch := hflows.epoch.trans (by cases p <;> rfl)
    have hnow : (wrapPort s p).now = s.now := hflows.now.trans (by cases p <;> rfl)
    obtain ⟨hshut, hempty⟩ := wrapPort_shut s p
    refine ⟨_, by rw [hexec, execHeartbeatMissLimit, if_pos ⟨htapped, hmisses, hwrapped⟩], ?_, ?_, ?_, ?_, ?_⟩
    · rw [ringEvent_port, ringEvent_port, hshut]
    · rw [ringEvent_port, ringEvent_port]
      exact hempty 3
    · rw [ringEvent_port, ringEvent_port]
      exact hempty 6
    · rw [ringEvent_events, ringEvent_events, ringEvent_epoch, ringEvent_now, hevents, hepoch, hnow, List.append_assoc]
      rfl
    · exact changesOnly_trans (wrapPort_changesOnly s p) (changesOnly_mono (changesOnly_trans (ringEvent_changesOnly _ _ _ _ _)
        (ringEvent_changesOnly _ _ _ _ _)) (by simp))
  case fewMisses =>
    intro p s h
    have hexec : exec (.heartbeatMissLimit p) s = execHeartbeatMissLimit p s := rfl
    rw [hexec, execHeartbeatMissLimit, if_neg fun ⟨_, hmisses, _⟩ => Nat.not_le.2 h hmisses]
  case lock =>
    intro p s hpd
    have hport := ((spliceStep_still _).1 p).trans ((drain_flows ((refBack s).modPort p (lockedPort s.now)) p).port p)
    rw [modPort_port_same] at hport
    have hframe : (refBack s).changesOnly [.ring, .sent] (spliceStep (drain ((refBack s).modPort p (lockedPort s.now)) p)) :=
      changesOnly_trans (changesOnly_mono (modPort_changesOnly _ p _) (by simp))
        (changesOnly_trans (drain_flows _ p).frame (spliceStep_still _).2)
    exact ⟨_, exec_pcsLock hpd, (congrArg PortState.pcs hport :), hframe .aon (by simp),
      changesOnly_trans (changesOnly_mono (withAon_changesOnly s _) (by simp)) (changesOnly_mono hframe (by simp))⟩
  case loss =>
    intro p s
    exact ⟨_, rfl, modPort_port_same s p _, fun q hq => modPort_port_other s _ hq, modPort_changesOnly s p _⟩

end Sys2Proof.Proofs
end

section
/-! SUPPORT. Pauses of the priorities, their storms, and the statement about them (R331, R336, R337, R342). -/

namespace Sys2Proof.Proofs

open Sys2Proof Sys2Proof.Machine Sys2Proof.Laws

/-! ## One priority of a port -/

@[simp] theorem modPrio_port_prio (s : State) (p : Port) (n : Nat) (f : PrioState → PrioState) :
    ((s.modPrio p n f).port p).prio n = f ((s.port p).prio n) := by
  rw [State.modPrio, modPort_port_same, modPrio_prio_same]

theorem modPrio_port_other (s : State) {p q : Port} (n : Nat) (f : PrioState → PrioState) (h : q ≠ p) :
    (s.modPrio p n f).port q = s.port q := modPort_port_other s _ h

theorem modPrio_usable (x : PortState) (n : Nat) (f : PrioState → PrioState) : (x.modPrio n f).usable = x.usable := by
  unfold PortState.modPrio
  split_ifs <;> rfl

/-! ## A pause begins and ends (R336) -/

theorem exec_pfcXoff {p : Port} {pr : Prio} {w : Half} {s : State} (hpd : s.powered 4 = true) (hw : w ≠ 0) :
    exec (.pfcXoff p pr w) s = .next (s.modPrio p pr.pcp fun x =>
      { x with paused := true, pausedSince := if x.paused then x.pausedSince else s.now
               pauseEnds := s.now + w.toNat * 64 / 500000 }) :=
  if_neg (not_or.2 ⟨by simp [hpd], hw⟩)

theorem exec_pfcXon {s : State} (hpd : s.powered 4 = true) (p : Port) (pr : Prio) :
    exec (.pfcXon p pr) s = .next (unpause s p pr) := if_pos hpd

theorem exec_pfcTimerExpiry {p : Port} {pr : Prio} {s : State} (hpd : s.powered 4 = true)
    (hends : ((s.port p).prio pr.pcp).pauseEnds ≤ s.now) : exec (.pfcTimerExpiry p pr) s = .next (unpause s p pr) :=
  if_pos ⟨hpd, hends⟩

/-- A paused priority that is free again: where its port may send, nothing waits any more. -/
theorem unpause_frees {s : State} {p : Port} {pr : Prio} (h : ((s.port p).prio pr.pcp).paused = true) :
    (((unpause s p pr).port p).prio pr.pcp).paused = false ∧ (((unpause s p pr).port p).prio pr.pcp).freeSince = s.now ∧
    ((s.port p).usable = true → (((unpause s p pr).port p).prio pr.pcp).transit = [] ∧
      (((unpause s p pr).port p).prio pr.pcp).own = []) ∧
    s.changesOnly [.ring, .sent] (unpause s p pr) := by
  have hprio := modPrio_port_prio s p pr.pcp fun x => { x with paused := false, freeSince := s.now }
  have hflows := drain_flows (s.modPrio p pr.pcp fun x => { x with paused := false, freeSince := s.now }) p
  have hstill := (hflows.prio p pr.pcp).trans (congrArg prioStill hprio)
  rw [unpause, if_pos h]
  refine ⟨(congrArg PrioState.paused hstill :), (congrArg PrioState.freeSince hstill :), fun hu => ?_,
    changesOnly_trans (changesOnly_mono (modPrio_changesOnly s p _ _) (by simp)) hflows.frame⟩
  refine drain_drained ?_ (congrArg PrioState.paused hprio)
  rw [State.modPrio, modPort_port_same, modPrio_usable, hu]

/-! ## Storms (R337) -/

theorem exec_pfcXoffRepeat {p : Port} {pr : Prio} {s : State} (hpd : s.powered 4 = true)
    (hxoff : ((s.port p).prio pr.pcp).xoff = true) (hdue : ((s.port p).prio pr.pcp).xoffAt + 4 ≤ s.now) :
    exec (.pfcXoffRepeat p pr) s = .next ((s.modPrio p pr.pcp fun x => { x with xoffAt := s.now }).send (.pfc p pr 0xFFFF)) :=
  if_pos ⟨hpd, hxoff, hdue⟩

theorem exec_pfcWatchdogExpiry {p : Port} {pr : Prio} {s : State} (hpd : s.powered 4 = true)
    (hpaused : ((s.port p).prio pr.pcp).paused = true) (hnew : ((s.port p).prio pr.pcp).storm = false)
    (hdue : ((s.port p).prio pr.pcp).pausedSince + 200 * s.pnat 0x0106 0 ≤ s.now) :
    exec (.pfcWatchdogExpiry p pr) s = .next (((s.modPrio p pr.pcp fun x => { x with storm := true }).modPort p fun y =>
      { y with stormFlag := true }).ringEvent reStorm p (s.port p).neighbour (s.port p).neighbour) :=
  if_pos ⟨hpd, hpaused, hnew, hdue⟩

/-- In a storm the head of the paused queue is dropped, which may let the neighbour go on. -/
theorem exec_pfcStormDrop {p : Port} {pr : Prio} {f : Frame} {rest : List Frame} {s : State} (hpd : s.powered 4 = true)
    (hstorm : ((s.port p).prio pr.pcp).storm = true) (hdue : ((s.port p).prio pr.pcp).dropAt + 2 ≤ s.now)
    (hqueue : ((s.port p).prio pr.pcp).transit = f :: rest) : exec (.pfcStormDrop p pr) s =
      .next (pfcAll ((s.modPrio p pr.pcp fun x => { x with transit := rest, dropAt := s.now }).ringDrop f.port)) := by
  have hexec : exec (.pfcStormDrop p pr) s = execPfcStormDrop p pr s := rfl
  simp only [hexec, execPfcStormDrop, hqueue]
  exact if_pos ⟨hpd, hstorm, hdue⟩

theorem exec_pfcStormEnd {p : Port} {pr : Prio} {s : State} (hstorm : ((s.port p).prio pr.pcp).storm = true)
    (hfree : ((s.port p).prio pr.pcp).paused = false) (hdue : ((s.port p).prio pr.pcp).freeSince + 200 ≤ s.now) :
    exec (.pfcStormEnd p pr) s = .next (s.modPrio p pr.pcp fun x => { x with storm := false }) :=
  if_pos ⟨hstorm, hfree, hdue⟩

/-! ## The statement -/

/-- Settles O35: each event updates the one priority; what then leaves, or PFC, touches only queues and XOFF. -/
theorem pfcPausesAndItsStormsDrop : Obligations.PfcPausesAndItsStormsDrop := by
  unfold Obligations.PfcPausesAndItsStormsDrop
  refine ⟨?xoff, ?xon, ?timerIsXon, ?timer, ?timerRuns, ?again, ?notAgain, ?storm, ?drop, ?ends⟩
  case xoff =>
    intro p pr w s hpd hw
    exact ⟨_, exec_pfcXoff hpd hw, by rw [modPrio_port_prio], by rw [modPrio_port_prio], by rw [modPrio_port_prio],
      fun q hq => modPrio_port_other s _ _ hq, modPrio_changesOnly s p _ _⟩
  case xon => exact fun p pr s hpd hpaused => ⟨_, exec_pfcXon hpd p pr, unpause_frees hpaused⟩
  case timerIsXon => exact fun p pr s hpd hends => by rw [exec_pfcTimerExpiry hpd hends, exec_pfcXon hpd]
  case timer => exact fun p pr s hpd hpaused hends => ⟨_, exec_pfcTimerExpiry hpd hends, unpause_frees hpaused⟩
  case timerRuns => exact fun p pr s hruns => if_neg fun ⟨_, hends⟩ => Nat.not_le.2 hruns hends
  case again =>
    intro p pr s hpd hxoff hdue
    refine ⟨_, exec_pfcXoffRepeat hpd hxoff hdue, ?_, ?_, ?_, fun q hq => ?_, ?_⟩
    · rw [send_sent, modPrio_changesOnly s p _ _ .sent (by simp)]
    · rw [send_port, modPrio_port_prio, hxoff]
    · rw [send_port, modPrio_port_prio]
    · rw [send_port, modPrio_port_other s _ _ hq]
    · exact changesOnly_trans (changesOnly_mono (modPrio_changesOnly s p _ _) (by simp))
        (changesOnly_mono (send_changesOnly _ _) (by simp))
  case notAgain => exact fun p pr s hrecent => if_neg fun ⟨_, _, hdue⟩ => Nat.not_le.2 hrecent hdue
  case storm =>
    intro p pr s hpd hpaused hnew hdue
    refine ⟨_, exec_pfcWatchdogExpiry hpd hpaused hnew hdue, ?_, ?_, ?_, ?_⟩
    · rw [ringEvent_port, modPort_port_same]
      exact congrArg PrioState.storm (modPrio_port_prio s p pr.pcp fun x => { x with storm := true })
    · rw [ringEvent_port, modPort_port_same]
    · rw [ringEvent_events]
      cases p <;> rfl
    · exact changesOnly_trans (modPrio_changesOnly s p _ _)
        (changesOnly_trans (modPort_changesOnly _ p _) (ringEvent_changesOnly _ _ _ _ _))
  case drop =>
    intro p pr f rest s hpd hstorm hdue hqueue
    refine ⟨_, exec_pfcStormDrop hpd hstorm hdue hqueue, ?_, ?_, ?_⟩
    · rw [pfcAll_transit, ringDrop_transit, modPrio_port_prio]
    · rw [pfcAll_dropped, State.ringDrop, modPort_port_same, State.modPrio,
        modPort_port_reads PortState.dropped (fun x => modPrio_dropped x _ _) s p f.port]
    · exact changesOnly_trans (changesOnly_mono (modPrio_changesOnly s p _ _) (by simp))
        (changesOnly_trans (changesOnly_mono (ringDrop_changesOnly _ f.port) (by simp)) (pfcAll_flows _).frame)
  case ends =>
    exact fun p pr s hstorm hfree hdue =>
      ⟨_, exec_pfcStormEnd hstorm hfree hdue, modPrio_port_prio s p _ _, modPrio_changesOnly s p _ _⟩

end Sys2Proof.Proofs
end

section
/-! SUPPORT. RING_TAP with its training, its probe and its claim, RING_UNTAP, and the statement about them (R344, R345, R348, R464). -/

namespace Sys2Proof.Proofs

open Sys2Proof Sys2Proof.Machine Sys2Proof.Laws

/-! ## Answers (R344, R421) -/

theorem mctpAnswer_changesOnly (s : State) (c : Nat) (i : Byte) (cc : Nat) (l : List Byte) :
    s.changesOnly [.sent] (mctpAnswer s c i cc l) := send_changesOnly s _

/-- The answer to RING_TAP, as its bytes. -/
theorem tapAnswer_sent (s : State) (i : Byte) (st : Nat) : (tapAnswer s i st).sent = s.sent ++
    [.mctp ([0x7F] ++ beBytes 4 Config.iana.toNat ++ [0xB0, i, 0x00] ++ beBytes 1 st)] := by
  have hcode : beBytes 1 0xB0 = [0xB0] := by decide
  have hcc : beBytes 1 0 = [0x00] := by decide
  simp [tapAnswer, mctpAnswer, hcode, hcc]

theorem tapAnswer_changesOnly (s : State) (i : Byte) (st : Nat) : s.changesOnly [.sent] (tapAnswer s i st) :=
  mctpAnswer_changesOnly s _ i 0 _

/-! ## The tap (R344) -/

theorem exec_ringTap {s : State} (hsupply : s.aon.supply = true) (hcal : ∀ c ∈ s.adminQ, c.opcode ≠ 0x44) (i n : Byte) (q z : Word) :
    exec (.ringTap i n q z) s = .next (tryTap s i n q z) := by
  have hexec : exec (.ringTap i n q z) s = execRingTap i n q z s := rfl
  have hnone : s.adminQ.any (fun c => c.opcode == 0x44) = false := by simpa using hcal
  rw [hexec, execRingTap, if_neg (by simp [hsupply]), if_neg (by simp [hnone])]

/-- The queue pairs of the two gateways are two. -/
theorem modQp_admin_other (s : State) (f : Qp → Qp) : (s.modQp (.admin .b) f).qp (.admin .a) = s.qp (.admin .a) :=
  Tbl_get_upd_other _ _ f (by decide)

theorem tapOn_spec (s : State) (i n : Byte) (q z : Word) :
    (tapOn s i n q z).ring.tapped = true ∧ (tapOn s i n q z).ring.node = n.toNat ∧ (tapOn s i n q z).ring.bseq = q ∧
    (tapOn s i n q z).ring.nonce = z ∧ (tapOn s i n q z).ring.map = none ∧ (tapOn s i n q z).sent = s.sent ++ [.switches true] ∧
    ((tapOn s i n q z).qp (.admin .a)).state = .opened ∧ ((tapOn s i n q z).qp (.admin .b)).state = .opened := by
  refine ⟨rfl, rfl, rfl, rfl, rfl, rfl, ?_, ?_⟩
  · unfold tapOn
    rw [modQp_admin_other, modQp_qp]
  · unfold tapOn
    rw [modQp_qp]

theorem tapOn_changesOnly (s : State) (i n : Byte) (q z : Word) : s.changesOnly [.ring, .qps, .sent] (tapOn s i n q z) := by
  unfold tapOn
  exact changesOnly_trans (changesOnly_mono (withRing_changesOnly s _) (by simp))
    (changesOnly_trans (changesOnly_mono (send_changesOnly _ _) (by simp))
      (changesOnly_mono (changesOnly_trans (modQp_changesOnly _ _ _) (modQp_changesOnly _ _ _)) (by simp)))

/-! ## Training, probe and claim (R345, R348) -/

theorem exec_tapTrainTimeout {i : Byte} {a : Nat} {s : State} (hsplice : s.ring.splice = .training i a) (hlate : a + 4000 ≤ s.now)
    (hdown : (s.ring.east.linkUp && s.ring.west.linkUp) = false) : exec .tapTrainTimeout s = .next (tapAnswer (untap s) i 4) := by
  have hexec : exec .tapTrainTimeout s = execTapTrainTimeout s := rfl
  simp only [hexec, execTapTrainTimeout, hsplice]
  exact if_pos ⟨hlate, hdown⟩

/-- An untap that is answered on MCTP. -/
theorem untapAnswer_sent {s : State} (h : s.tapped = true) (i : Byte) (st : Nat) : (tapAnswer (untap s) i st).sent = s.sent ++
    [.switches false, .mctp ([0x7F] ++ beBytes 4 Config.iana.toNat ++ [0xB0, i, 0x00] ++ beBytes 1 st)] := by
  rw [tapAnswer_sent, untap_of_tapped h, send_sent]
  simp [inBar]

theorem exec_idProbe_own {s : State} {f : Frame} (hgood : frameVerdict s f = .good) (hfcs : f.fcsOk = true) (htype : f.ftype = 0x23)
    (hown : f.src = s.ring.node) (hnonce : beAt f.body 0 4 ≠ s.ring.nonce.toNat) (hfirst : firstCopy s f = true) :
    exec (.idProbe f) s = .next ((broadcast (noteBroadcast (learn s f) f) 0x24 (beBytes 4 (beAt f.body 0 4) ++ zeros 4)).ringEvent
      reDup f.port f.src f.src) := by
  have hexec : exec (.idProbe f) s = execIdProbe f s := rfl
  have hnode : (noteBroadcast (learn s f) f).ring.node = s.ring.node := noteBroadcast_learn_reads Ring.node (fun _ _ _ => rfl) s f
  rw [hexec, execIdProbe, if_neg (by simp [htype]), receive_ownId hgood hfcs (.inl ⟨htype, hnonce⟩) hown hfirst, hnode, if_pos hown]

theorem exec_idClaim_probing {s : State} {f : Frame} {i : Byte} {a : Nat} (hgood : frameVerdict s f = .good) (hfcs : f.fcsOk = true)
    (htype : f.ftype = 0x24) (hown : f.src = s.ring.node) (hnonce : beAt f.body 0 4 = s.ring.nonce.toNat)
    (hfirst : firstCopy s f = true) (hsplice : s.ring.splice = .probing i a) (hwithin : s.now ≤ a + 400) :
    exec (.idClaim f) s = .next (tapAnswer (untap (noteBroadcast (learn s f) f)) i 5) := by
  have hexec : exec (.idClaim f) s = execIdClaim f s := rfl
  have hstill : (noteBroadcast (learn s f) f).ring.splice = .probing i a :=
    (noteBroadcast_learn_reads Ring.splice (fun _ _ _ => rfl) s f).trans hsplice
  have hown' : beAt f.body 0 4 = (noteBroadcast (learn s f) f).ring.nonce.toNat :=
    hnonce.trans (congrArg BitVec.toNat (noteBroadcast_learn_reads Ring.nonce (fun _ _ _ => rfl) s f)).symm
  have hnow : (noteBroadcast (learn s f) f).now = s.now :=
    congrArg (fun a : Aon => a.stitch.toNat) (noteBroadcast_learn_changesOnly s f .aon (by simp))
  rw [hexec, execIdClaim, if_neg (by simp [htype]), receive_ownId hgood hfcs (.inr htype) hown hfirst]
  simp only [hstill]
  exact congrArg Host.Outcome.next (if_pos ⟨hown', hnow.trans_le hwithin⟩)

/-- The engine when no claim has come: the splice is done. -/
def spliced (s : State) : State := { s with ring := { s.ring with splice := .none } }

theorem exec_idClaimWindowExpiry {i : Byte} {a : Nat} {s : State} (hsplice : s.ring.splice = .probing i a) (hmode : s.mode = .enrol)
    (hpast : a + 400 ≤ s.now) : exec .idClaimWindowExpiry s = .next (tapAnswer
      (((spliced s).enterMode .transit mcSplice).ringEvent reJoined .east 0 s.ring.east.neighbour) i 0) := by
  have hexec : exec .idClaimWindowExpiry s = execIdClaimWindowExpiry s := rfl
  simp only [hexec, execIdClaimWindowExpiry, hsplice]
  exact if_pos ⟨hmode, hpast⟩

/-! ## RING_UNTAP (R344, R464) -/

theorem mem_pds {a b n : Nat} : n ∈ pds a b ↔ a ≤ n ∧ n ≤ b := by
  simp only [pds, List.mem_map, List.mem_range]
  constructor
  · rintro ⟨m, hm, rfl⟩
    omega
  · exact fun ⟨ha, hb⟩ => ⟨n - a, by omega, by omega⟩

/-- The domains off after some are switched off: those, and those that were off. -/
theorem powerOff_powered {s : State} {l : List Nat} {n : Nat} (h : n ∈ l ∨ s.powered n = false) : (s.powerOff l).powered n = false := by
  have hbits : (s.powerOff l).powered n = (s.powered n && (decide (n < 20) && !(decide (n < 20) && l.contains n))) := by
    rw [← powerMask_testBit]
    exact (BitVec.getLsbD_and ..).trans (congrArg _ (by rw [BitVec.getLsbD_not, BitVec.getLsbD_ofNat]))
  rw [hbits]
  rcases h with hl | hoff
  · cases hn : decide (n < 20) <;> simp [hl]
  · rw [hoff, Bool.false_and]

theorem powered_eq_of_aon_eq {s t : State} (h : t.aon = s.aon) (n : Nat) : t.powered n = s.powered n := by
  rw [State.powered, State.powered, h]

/-- PD17 to PD19 are what goes off with the motion units. -/
theorem motionDown_aon (s : State) : s.motionDown.aon = (s.powerOff (pds 17 19)).aon := by
  have hbays (f : State → Nat → Bay → Bay) (u : State) : u.changesOnly [.bays] (allBays.foldl (fun a b => a.modBay b (f a b)) u) :=
    changesOnly_foldl _ (fun a b => modBay_changesOnly a b _) _ u
  unfold State.motionDown
  exact hbays _ _ .aon (by simp)

/-- The engine as RING_UNTAP finds it to untap: in ENROL PD7 to PD19 are off. -/
def enrolPower (s : State) : State := if s.powered 18 then (s.powerOff (pds 7 16)).motionDown else s

theorem enrolPower_off {s : State} {n : Nat} (h18 : s.powered 18 = true) (h7 : 7 ≤ n) (h19 : n ≤ 19) :
    (enrolPower s).powered n = false := by
  rw [enrolPower, if_pos h18, powered_eq_of_aon_eq (motionDown_aon _)]
  refine powerOff_powered ?_
  rcases Nat.lt_or_ge n 17 with hlow | hhigh
  · exact .inr (powerOff_powered (.inl (mem_pds.2 ⟨h7, by omega⟩)))
  · exact .inl (mem_pds.2 ⟨hhigh, h19⟩)

theorem untap_tapped (s : State) : (untap s).tapped = false := by
  by_cases h : s.tapped = true
  · exact (untap_untaps h).tapped
  · rw [untap_of_untapped (by simpa using h)]
    simpa using h

/-- The engine untapped and in ENROL. -/
def unspliced (s : State) : State := (untap (enrolPower s)).enterMode .enrol mcSplice

theorem exec_ringUntap {s : State} (hsupply : s.aon.supply = true) (i : Byte) : exec (.ringUntap i) s =
    if s.mode ≠ .retire then .next (mctpAnswer s 0x31 i 0 [2]) else .next (mctpAnswer (unspliced s) 0x31 i 0 [0]) :=
  if_neg (by simp [hsupply])

/-! ## The statement -/

/-- Settles O36: RING_TAP by the first of its conditions that fails, the splice's events by where it stands, and RING_UNTAP by its mode. -/
theorem splicesCrossAndUncrossTheSwitches : Obligations.SplicesCrossAndUncrossTheSwitches := by
  unfold Obligations.SplicesCrossAndUncrossTheSwitches
  refine ⟨?tap, ?timeout, ?probe, ?claim, ?joined, ?untap, ?status⟩
  case tap =>
    intro i n q z s hsupply hcal
    refine ⟨_, exec_ringTap hsupply hcal i n q z, ?_⟩
    unfold tryTap
    split_ifs
    case neg hmode _ =>
      obtain ⟨htapped, hnode, hbseq, hnonce, hmap, hsent, ha, hb⟩ := tapOn_spec s i n q z
      have hframe := tapOn_changesOnly s i n q z
      exact ⟨htapped, hnode, hbseq, hnonce, hmap, hsent, ha, hb, (hframe .mode (by simp)).trans (not_not.1 hmode), hframe⟩
    all_goals rfl
  case timeout =>
    intro i a s hsplice htapped hlate hdown
    have h := untap_untaps htapped
    refine ⟨_, exec_tapTrainTimeout hsplice hlate hdown, h.tapped, h.node, h.map, ?_, untapAnswer_sent htapped i 4, ?_⟩
    · rw [tapAnswer_changesOnly _ i 4 .ring (by simp), untap_of_tapped htapped]
      rfl
    · exact changesOnly_trans (untap_changesOnly s) (changesOnly_mono (tapAnswer_changesOnly _ i 4) (by simp))
  case probe =>
    intro f s hgood hfcs htype _ hown hnonce hfirst
    have hexec := exec_idProbe_own hgood hfcs htype hown hnonce hfirst
    have hnoted := noteBroadcast_learn_changesOnly s f
    obtain ⟨u, hflows, hsent⟩ := broadcast_eq (noteBroadcast (learn s f) f) 0x24 (beBytes 4 (beAt f.body 0 4) ++ zeros 4)
    rw [hsent] at hexec
    have hbseq : u.ring.bseq = s.ring.bseq :=
      (congrArg Ring.bseq hflows.ring :).trans (noteBroadcast_learn_reads Ring.bseq (fun _ _ _ => rfl) s f)
    have hevents : u.ring.events = s.ring.events :=
      hflows.events.trans (noteBroadcast_learn_reads Ring.events (fun _ _ _ => rfl) s f)
    have hepoch : u.epoch = s.epoch :=
      hflows.epoch.trans (noteBroadcast_learn_reads (fun r => State.epoch { s with ring := r }) (fun _ _ _ => rfl) s f)
    have hnow : u.now = s.now := hflows.now.trans (congrArg (fun a : Aon => a.stitch.toNat) (hnoted .aon (by simp)))
    refine ⟨_, hexec, congrArg (· + 1) hbseq, ?_, ?_⟩
    · rw [← hevents, ← hepoch, ← hnow]
      rfl
    · exact changesOnly_trans (changesOnly_mono hnoted (by simp)) (changesOnly_trans hflows.frame
        (changesOnly_mono (changesOnly_trans (withRing_changesOnly u _) (ringEvent_changesOnly _ _ _ _ _)) (by simp)))
  case claim =>
    intro f i a s hgood hfcs htype _ hown hnonce hfirst hsplice hwithin htapped
    have htapped' : (noteBroadcast (learn s f) f).tapped = true :=
      (noteBroadcast_learn_reads Ring.tapped (fun _ _ _ => rfl) s f).trans htapped
    have hnoted := noteBroadcast_learn_changesOnly s f
    have h := untap_untaps htapped'
    refine ⟨_, exec_idClaim_probing hgood hfcs htype hown hnonce hfirst hsplice hwithin, h.tapped, h.node, ?_, ?_⟩
    · exact (h.frame .mode (by simp)).trans (hnoted .mode (by simp))
    · rw [untapAnswer_sent htapped', hnoted .sent (by simp)]
      rfl
  case joined =>
    intro i a s hsplice hmode hpast
    have hframe := enterMode_changesOnly (spliced s) .transit mcSplice
    have hring : ((spliced s).enterMode .transit mcSplice).ring = (spliced s).ring := hframe .ring (by simp)
    have hepoch : ((spliced s).enterMode .transit mcSplice).epoch = s.epoch := by
      rw [State.epoch, State.epoch, hring]
      rfl
    have hnow : ((spliced s).enterMode .transit mcSplice).now = s.now :=
      congrArg (fun a : Aon => a.stitch.toNat) (hframe .aon (by simp))
    refine ⟨_, exec_idClaimWindowExpiry hsplice hmode hpast, enterMode_mode _ _ _, (congrArg Ring.splice hring :),
      (congrArg Ring.tapped hring :), ?_, ?_⟩
    · rw [tapAnswer_changesOnly _ i 0 .ring (by simp), ringEvent_events, hepoch, hnow, hring]
      rfl
    · rw [tapAnswer_sent, ringEvent_changesOnly _ _ _ _ _ .sent (by simp), hframe .sent (by simp)]
      rfl
  case untap =>
    intro i s hsupply
    rw [completes, exec_ringUntap hsupply]
    split_ifs with hmode
    · exact ⟨_, rfl, rfl⟩
    · have henter := enterMode_changesOnly (untap (enrolPower s)) .enrol mcSplice
      refine ⟨_, rfl, enterMode_mode _ _ _, ?_, fun n h7 h19 h18 => ?_⟩
      · exact (congrArg Ring.tapped (henter .ring (by simp))).trans (untap_tapped _)
      · have haon := (henter .aon (by simp)).trans (untap_changesOnly _ .aon (by simp))
        exact (powered_eq_of_aon_eq haon n).trans (enrolPower_off h18 h7 h19)
  case status =>
    intro i s hsupply
    have hexec : exec (.ringStatus i) s = execRingStatus i s := rfl
    rw [completes, hexec, execRingStatus, if_neg (by simp [hsupply])]
    cases hpd : s.powered 4 <;> exact ⟨_, rfl, rfl⟩

end Sys2Proof.Proofs
end

section
/-! SUPPORT. The end-to-end window: acknowledgements, launches, timeouts, the end of a queue pair, and the statement about them (R338,
R339, R353, R362, R363). -/

namespace Sys2Proof.Proofs

open Sys2Proof Sys2Proof.Machine Sys2Proof.Laws

/-! ## Retransmission (R339) -/

/-- A queue pair whose unacknowledged frames are sent again now. -/
def resentQp (now : Nat) (p : Qp) : Qp := { p with unacked := p.unacked.map (fun f => { f with retx := true }), waitFrom := now }

theorem retransmit_after_modQp (s : State) (q : QpId) :
    (s.modQp q fun p => { p with unacked := (s.qp q).unacked.map (fun f => { f with retx := true }), waitFrom := s.now }).changesOnly
      [.ring, .sent] (retransmit s q) := by
  refine changesOnly_foldl _ (fun u f => ?_) _ _
  split
  next t ht => exact originate_changesOnly ht
  · exact changesOnly_refl _ u

theorem retransmit_qp (s : State) (q : QpId) : (retransmit s q).qp q = resentQp s.now (s.qp q) := by
  rw [qp_eq_of_changesOnly (retransmit_after_modQp s q) (by simp), modQp_qp]
  rfl

theorem retransmit_changesOnly (s : State) (q : QpId) : s.changesOnly [.qps, .ring, .sent] (retransmit s q) :=
  changesOnly_trans (changesOnly_mono (modQp_changesOnly s q _) (by simp))
    (changesOnly_mono (retransmit_after_modQp s q) (by simp))

/-! ## Acknowledgements (R338, R362, R363) -/

/-- The oldest number that is not acknowledged yet. -/
def oldestSeq (p : Qp) : Word := match p.unacked with | g :: _ => g.seq | [] => p.txNext

/-- A queue pair after an acknowledgement of `x` in its window, with the host's DATA_CREDIT. -/
def ackedQp (now : Nat) (x : Word) (credit : Nat) (p : Qp) : Qp :=
  let done := p.unacked.filter (covered x)
  { p with unacked := p.unacked.filter (fun g => !covered x g)
           occupied := p.occupied - (done.filter (fun g => g.ftype == 3)).length
           timeouts := if done.isEmpty then p.timeouts else 0
           waitFrom := if done.isEmpty then p.waitFrom else now
           dataCredit := credit }

/-- The entries that an acknowledgement frees are those of the completions that it covers. -/
theorem ackedQp_occupied (now : Nat) (x : Word) (credit : Nat) (p : Qp) : (ackedQp now x credit p).occupied =
    p.occupied - (p.unacked.filter (fun g => newer32 x g.seq && g.ftype == 3)).length := by
  simp only [ackedQp, List.filter_filter, covered, Bool.and_comm]

/-- The engine after such an acknowledgement. -/
def acked (s : State) (q : QpId) (f : Frame) : State := s.modQp q (ackedQp s.now f.seq (beAt f.body 6 2))

theorem acked_changesOnly (s : State) (q : QpId) (f : Frame) : s.changesOnly [.qps] (acked s q f) := modQp_changesOnly s q _

theorem acked_now (s : State) (q : QpId) (f : Frame) : (acked s q f).now = s.now := rfl

section
variable {s : State} {f : Frame} {q : QpId} {nak : Bool} (hq : frameQp f = some q) (hr : reaches s f q = true)
  (ho : (s.qp q).state = .opened) (hkind : (byteAt f.body 0).toNat = bitNat nak)
include hq hr ho hkind

theorem takeAck_within (hold : newer32 (oldestSeq (s.qp q)) f.seq = false) (hnew : newer32 f.seq (s.qp q).txNext = false) :
    takeAck s f nak = if nak then retransmit (acked s q f) q else acked s q f := by
  have hopen : reopen s q = s := if_neg (by simp [ho])
  unfold takeAck
  simp only [hq]
  rw [if_neg (by simp [hr]), if_neg (by simp [hkind]), hopen]
  exact if_neg (not_or.2 ⟨ne_true_of_eq_false hold, ne_true_of_eq_false hnew⟩)

/-- One beyond what has been sent changes nothing. -/
theorem takeAck_beyond (hnew : newer32 f.seq (s.qp q).txNext = true) : takeAck s f nak = s := by
  simp [takeAck, hq, hr, hkind, reopen, ho, hnew]

end

theorem exec_ack_of_takes {s : State} {f : Frame} (h : s.takes f) (ht : f.ftype = 4) :
    exec (.ack f) s = .next (takeAck (learn s f) f false) := by
  have hexec : exec (.ack f) s = execAck f s := rfl
  rw [hexec, execAck, if_neg (by simp [ht]), receive_of_takes h (by simp [ht])]

theorem exec_nak_of_takes {s : State} {f : Frame} (h : s.takes f) (ht : f.ftype = 4) :
    exec (.nak f) s = .next (takeAck (learn s f) f true) := by
  have hexec : exec (.nak f) s = execNak f s := rfl
  rw [hexec, execNak, if_neg (by simp [ht]), receive_of_takes h (by simp [ht])]

/-! ## Launches (R339) -/

/-- A queue pair whose first waiting frame is launched now. -/
def launchedQp (now : Nat) (g : TxFrame) (rest : List TxFrame) (p : Qp) : Qp :=
  { p with txWait := rest, txNext := p.txNext + 1, unacked := p.unacked ++ [g]
           waitFrom := if p.unacked.isEmpty then now else p.waitFrom }

theorem exec_sequencedFrameLaunch {q : QpId} {f : TxFrame} {rest : List TxFrame} {p : Port} {s : State}
    (hwait : (s.qp q).txWait = f :: rest) (htapped : s.tapped = true) (ho : (s.qp q).state = .opened)
    (hwindow : (s.qp q).unacked.length < s.pnat 0x0102 0)
    (hroom : retxBytes s + wireSize f.body.length ≤ s.pnat 0x0107 0 * 1048576) (hdir : direction s f.dst = some p) :
    exec (.sequencedFrameLaunch q) s = .next ((ownLeave s p { f with seq := (s.qp q).txNext }).modQp q
      (launchedQp s.now { f with seq := (s.qp q).txNext } rest)) := by
  have hexec : exec (.sequencedFrameLaunch q) s = execSequencedFrameLaunch q s := rfl
  have hlaunch : originate s { f with seq := (s.qp q).txNext } = some (ownLeave s p { f with seq := (s.qp q).txNext }) := by
    simp [originate, hdir]
  simp only [hexec, execSequencedFrameLaunch, hwait]
  rw [if_neg (by simp [htapped, ho, Nat.not_le.2 hwindow, Nat.not_lt.2 hroom]), hlaunch]
  rfl

/-- With the window full, a waiting frame waits on. -/
theorem exec_sequencedFrameLaunch_full {q : QpId} {s : State} (h : s.pnat 0x0102 0 ≤ (s.qp q).unacked.length) :
    exec (.sequencedFrameLaunch q) s = .next s := by
  have hexec : exec (.sequencedFrameLaunch q) s = execSequencedFrameLaunch q s := rfl
  rw [hexec, execSequencedFrameLaunch]
  cases (s.qp q).txWait with
  | nil => rfl
  | cons f rest => exact if_pos (.inr (.inr (.inl h)))

/-! ## Timeouts (R339, R353) -/

/-- One timeout more of a queue pair. -/
def timedOut (s : State) (q : QpId) : State := s.modQp q fun p => { p with timeouts := p.timeouts + 1 }

theorem exec_rtoExpiry {q : QpId} {s : State} (ho : (s.qp q).state = .opened) (hunacked : (s.qp q).unacked ≠ [])
    (hdue : (s.qp q).waitFrom + s.pnat 0x0100 0 * min 8 (2 ^ (s.qp q).timeouts) / 5 ≤ s.now) : exec (.rtoExpiry q) s =
      .next (if s.pnat 0x0101 0 ≤ (s.qp q).timeouts + 1 then peerLost (timedOut s q) q else retransmit (timedOut s q) q) :=
  if_neg fun h => h.elim (fun h => h ho) fun h => h.elim hunacked (Nat.not_lt.2 hdue)

/-- An open queue pair whose peer is lost: unreachable from now. -/
theorem peerLost_opened {s : State} {q : QpId} (ho : (s.qp q).state = .opened) :
    (peerLost s q).qp q = { s.qp q with state := .unreachable, lostAt := s.now } ∧
    s.changesOnly [.qps, .logs, .events] (peerLost s q) := by
  have hlog := log_changesOnly (s.modQp q fun p => { p with state := .unreachable, lostAt := s.now }) .ring 0x0102 0xFF (qpNumber q)
  rw [peerLost, if_pos ho]
  exact ⟨(qp_eq_of_changesOnly hlog (by simp) q).trans (modQp_qp ..),
    changesOnly_trans (changesOnly_mono (modQp_changesOnly s q _) (by simp)) (changesOnly_mono hlog (by simp))⟩

/-! ## The end of a queue pair (R353) -/

/-- In DELETING a command ends without a completion. -/
theorem finish_deleting {s : State} {q : QpId} (h : (s.qp q).state = .deleting) (tag r st c a b : Nat) :
    s.finish q tag r st c a b = s.dropCmd q tag := by
  rw [State.finish, if_pos h]

/-- A command of a queue pair that is being deleted ends: its tag is released, and its queue pair stands. -/
theorem endDeleted {s : State} {c : Cmd} (h : (s.qp c.q).state = .deleting) :
    ((s.giveUpAppend c).finishFree c.q c.sqe.tag stAborted 0 c.taken.length).tags =
      s.tags.filter (fun e => !(e.q == c.q && e.sqe.tag == c.sqe.tag)) ∧
    ((s.giveUpAppend c).finishFree c.q c.sqe.tag stAborted 0 c.taken.length).qps = s.qps := by
  have hgive := giveUpAppend_changesOnly s c
  have hstate : ((s.giveUpAppend c).fresh.2.qp c.q).state = .deleting := by
    rw [qp_eq_of_qps_eq (s := s) (t := (s.giveUpAppend c).fresh.2) (hgive .qps (by simp)), h]
  rw [State.finishFree, finish_deleting hstate]
  exact ⟨congrArg (List.filter _) (hgive .tags (by simp) : (s.giveUpAppend c).tags = s.tags), hgive .qps (by simp)⟩

/-- Commands of a queue pair that is being deleted, as they end one after the other. -/
def endDeletedAll (q : QpId) (l : List Cmd) (s : State) : State :=
  l.foldl (fun a c => (a.giveUpAppend c).finishFree q c.sqe.tag stAborted 0 c.taken.length) s

/-- None of their tags is left. -/
theorem endDeletedAll_spec {q : QpId} (l : List Cmd) (hl : ∀ c ∈ l, c.q = q) (s : State) (h : (s.qp q).state = .deleting) :
    (endDeletedAll q l s).qps = s.qps ∧ ∀ e ∈ (endDeletedAll q l s).tags, e ∈ s.tags ∧ e ∉ l := by
  induction l generalizing s with
  | nil => exact ⟨rfl, fun e he => ⟨he, List.not_mem_nil⟩⟩
  | cons c r ih =>
    obtain rfl : c.q = q := hl c List.mem_cons_self
    obtain ⟨htags, hqps⟩ := endDeleted h
    obtain ⟨hrest, hleft⟩ := ih (fun e he => hl e (List.mem_cons_of_mem c he)) _ (by rw [qp_eq_of_qps_eq hqps, h])
    refine ⟨hrest.trans hqps, fun e he => ?_⟩
    obtain ⟨hmem, hnew⟩ := hleft e he
    rw [htags, List.mem_filter] at hmem
    obtain ⟨hin, hother⟩ := hmem
    refine ⟨hin, fun hcons => ?_⟩
    rcases List.mem_cons.1 hcons with rfl | hr
    · simp at hother
    · exact hnew hr

/-- A queue pair as it enters DELETING. -/
def deletingQp (p : Qp) : Qp :=
  { p with state := .deleting, sq := [], txWait := p.txWait.filter (fun f => f.ftype != 3)
           unacked := p.unacked.filter (fun f => f.ftype != 3) }

theorem deleteQp_eq (s : State) (n : Nat) : deleteQp s (.data n) =
    endDeletedAll (.data n) (s.tags.filter (fun c => c.q == .data n)) (s.modQp (.data n) deletingQp) := rfl

/-- A data queue pair that is deleted holds no entry, and no command of it is left. -/
theorem deleteQp_spec (s : State) (n : Nat) : (deleteQp s (.data n)).qp (.data n) = deletingQp (s.qp (.data n)) ∧
    ∀ c ∈ (deleteQp s (.data n)).tags, c.q ≠ .data n := by
  obtain ⟨hqps, htags⟩ := endDeletedAll_spec (q := .data n) (s.tags.filter (fun c => c.q == .data n)) (by simp)
    (s.modQp (.data n) deletingQp) (by rw [modQp_qp]; rfl)
  rw [deleteQp_eq]
  refine ⟨by rw [qp_eq_of_qps_eq hqps, modQp_qp], fun c hc hq => ?_⟩
  obtain ⟨hin, hnot⟩ := htags c hc
  exact hnot (List.mem_filter.2 ⟨hin, by simp [hq]⟩)

theorem exec_queueOrphanExpiry {q : QpId} {s : State} (hlost : (s.qp q).state = .unreachable)
    (hdue : (s.qp q).lostAt + 200000 * s.pnat 0x0204 0 ≤ s.now) : exec (.queueOrphanExpiry q) s = .next (deleteQp s q) :=
  if_pos ⟨hlost, hdue⟩

/-! ## The statement -/

/-- Settles O31: what each event makes of its queue pair stands, since frames that are sent touch only ring and pins. -/
theorem windowsAdvanceLaunchAndTimeOut : Obligations.WindowsAdvanceLaunchAndTimeOut := by
  unfold Obligations.WindowsAdvanceLaunchAndTimeOut
  refine ⟨?ack, ?beyond, ?nak, ?launch, ?full, ?again, ?lost, ?ackTimer, ?orphan, ?freed, ?notFreed⟩
  case ack =>
    intro f q s htakes hty hq hr ho hkind hold hnew
    have hack := takeAck_within (s := learn s f) (nak := false) hq (by rw [learn_reaches, hr]) (by rw [learn_qp, ho])
      (by rw [hkind]; rfl) (by rw [learn_qp]; exact hold) (by rw [learn_qp]; exact hnew)
    have hqp : (acked (learn s f) q f).qp q = ackedQp s.now f.seq (beAt f.body 6 2) (s.qp q) := by
      rw [acked, modQp_qp, learn_qp, learn_now]
    refine ⟨acked (learn s f) q f, by rw [exec_ack_of_takes htakes hty, hack]; rfl, by rw [hqp]; rfl, by rw [hqp]; rfl,
      by rw [hqp, ackedQp_occupied], ?_⟩
    exact changesOnly_trans (changesOnly_mono (learn_changesOnly s f) (by simp)) (changesOnly_mono (acked_changesOnly _ q f) (by simp))
  case beyond =>
    intro f q s htakes hty hq hr ho hkind hnew
    have hack := takeAck_beyond (s := learn s f) (nak := false) hq (by rw [learn_reaches, hr]) (by rw [learn_qp, ho])
      (by rw [hkind]; rfl) (by rw [learn_qp]; exact hnew)
    exact ⟨_, by rw [exec_ack_of_takes htakes hty, hack], rfl⟩
  case nak =>
    intro f q s htakes hty hq hr ho hkind hold hnew
    have hack := takeAck_within (s := learn s f) (nak := true) hq (by rw [learn_reaches, hr]) (by rw [learn_qp, ho])
      (by rw [hkind]; rfl) (by rw [learn_qp]; exact hold) (by rw [learn_qp]; exact hnew)
    have hqp : (retransmit (acked (learn s f) q f) q).qp q =
        resentQp s.now (ackedQp s.now f.seq (beAt f.body 6 2) (s.qp q)) := by
      rw [retransmit_qp, acked_now, learn_now, acked, modQp_qp, learn_qp, learn_now]
    refine ⟨retransmit (acked (learn s f) q f) q, by rw [exec_nak_of_takes htakes hty, hack]; rfl, by rw [hqp]; rfl,
      by rw [hqp]; rfl, ?_⟩
    exact changesOnly_trans (changesOnly_mono (learn_changesOnly s f) (by simp))
      (changesOnly_trans (changesOnly_mono (acked_changesOnly _ q f) (by simp)) (retransmit_changesOnly _ q))
  case launch =>
    intro q f rest p s hwait htapped ho hwindow hroom hdir
    have hsent := ownLeave_changesOnly s p { f with seq := (s.qp q).txNext }
    refine ⟨_, exec_sequencedFrameLaunch hwait htapped ho hwindow hroom hdir, ?_, ?_, ?_, ?_⟩
    · rw [modQp_qp]
      rfl
    · rw [modQp_qp, qp_eq_of_changesOnly hsent (by simp)]
      rfl
    · rw [modQp_qp, qp_eq_of_changesOnly hsent (by simp)]
      rfl
    · exact changesOnly_trans (changesOnly_mono hsent (by simp)) (changesOnly_mono (modQp_changesOnly _ q _) (by simp))
  case full => exact fun q s hfull => exec_sequencedFrameLaunch_full hfull
  case again =>
    intro q s ho hunacked hfew hdue
    have hqp : (retransmit (timedOut s q) q).qp q = resentQp s.now { s.qp q with timeouts := (s.qp q).timeouts + 1 } := by
      rw [retransmit_qp, timedOut, modQp_qp]
      rfl
    refine ⟨_, by rw [exec_rtoExpiry ho hunacked hdue, if_neg (Nat.not_le.2 hfew)], by rw [hqp]; rfl, by rw [hqp]; rfl,
      by rw [hqp]; exact ho, ?_⟩
    exact changesOnly_trans (changesOnly_mono (modQp_changesOnly s q _) (by simp)) (retransmit_changesOnly _ q)
  case lost =>
    intro q s ho hunacked hmany hdue
    obtain ⟨hqp, hframe⟩ := peerLost_opened (s := timedOut s q) (q := q) (by rw [timedOut, modQp_qp]; exact ho)
    refine ⟨_, by rw [exec_rtoExpiry ho hunacked hdue, if_pos hmany], by rw [hqp], by rw [hqp]; rfl, ?_, ?_⟩
    · rw [hqp, timedOut, modQp_qp]
    · exact changesOnly_trans (changesOnly_mono (modQp_changesOnly s q _) (by simp)) hframe
  case ackTimer =>
    intro q s htapped hwaits hdue
    exact ⟨_, if_pos ⟨htapped, hwaits, hdue⟩, by rw [sendAck_qp], by rw [sendAck_qp], by rw [sendAck_qp],
      sendAck_changesOnly s q false⟩
  case orphan =>
    intro n s hlost hdue
    obtain ⟨hqp, htags⟩ := deleteQp_spec s n
    exact ⟨_, exec_queueOrphanExpiry hlost hdue, by rw [hqp]; rfl, by rw [hqp]; rfl, htags⟩
  case freed =>
    intro q s hdel hnone
    exact ⟨_, if_pos ⟨hdel, by simpa using hnone⟩, modQp_qp s q _, modQp_changesOnly s q _⟩
  case notFreed => exact fun q c s hdel hc hq => if_neg fun ⟨_, hnone⟩ => by simpa [hq] using List.all_eq_true.1 hnone c hc

end Sys2Proof.Proofs
end

section
/-! SUPPORT. APPEND against its course, and the statement about it (R199, R358, R372). -/

namespace Sys2Proof.Proofs

open Sys2Proof Sys2Proof.Machine Sys2Proof.Laws

/-- An APPEND that ends with nothing done reports a free value in AUX64 (R358). -/
theorem endEarly_of_append (s : State) {c : Cmd} (hkind : c.sqe.kind = .append) (st : Nat) :
    endEarly s c st =
      ({ s with freeCtr := s.freeCtr + 1 } : State).finish c.q c.sqe.tag 0 st 0 0 (Config.free s.freeCtr) := by
  simp [endEarly, earlyAux, hkind]

/-- What an APPEND does with an open course, by the checks of R372 in their order. -/
def appendTo (s : State) (c : Cmd) (k : Course) : State :=
  if k.stopped then endEarly s c stAborted
  else if k.full then s.finish c.q c.sqe.tag 0 stSealedFull 0 0 k.left
  else if k.sealed then endEarly s c stSealed
  else if k.left < c.sqe.count then s.finish c.q c.sqe.tag 0 stSealedFull 0 0 k.left
  else if c.sqe.key ≠ 0 ∧ Tbl.get [] s.sec.keys c.sqe.key = [] then endEarly s c stKeyInvalid
  else s.modCmd c.q c.sqe.tag fun c => { c with started := true }

section
variable {s : State} {c : Cmd} (h : s.toRun c.q c.sqe.tag .append c)
include h

theorem exec_append_of_none (hk : openCourse? s c.sqe.handle = none) :
    exec (.append c.q c.sqe.tag) s = .next (endEarly s c stNotMounted) := by
  have hrun : exec (.append c.q c.sqe.tag) s = .next _ := congrArg Host.Outcome.next (serve_of_toRun h _)
  rw [hrun, hk]

theorem exec_append_of_open {k : Course} (hk : openCourse? s c.sqe.handle = some k) :
    exec (.append c.q c.sqe.tag) s = .next (appendTo s c k) := by
  have hrun : exec (.append c.q c.sqe.tag) s = .next _ := congrArg Host.Outcome.next (serve_of_toRun h _)
  rw [hrun, hk, appendTo]

end

/-- Settles O25: the checks of `appendTo` are the statement's, and a command that passes them all is started. -/
theorem appendsAreCheckedAgainstTheirCourse : Obligations.AppendsAreCheckedAgainstTheirCourse := by
  unfold Obligations.AppendsAreCheckedAgainstTheirCourse
  refine ⟨?noCourse, ?checked⟩
  case noCourse =>
    intro q tag c s h hk
    obtain ⟨rfl, rfl⟩ := cmd?_key h.found
    exact ⟨_, exec_append_of_none h hk, _, endEarly_of_append s h.kind _⟩
  case checked =>
    intro q tag c k s h hk
    obtain ⟨rfl, rfl⟩ := cmd?_key h.found
    refine ⟨_, exec_append_of_open h hk, ?_⟩
    have hearly (st : Nat) : ∃ v, endEarly s c st = ({ s with freeCtr := s.freeCtr + 1 } : State).finish c.q c.sqe.tag 0 st 0 0 v :=
      ⟨_, endEarly_of_append s h.kind st⟩
    unfold appendTo
    split_ifs with hstopped hfull hsealed hleft hkey
    · exact hearly stAborted
    · rfl
    · exact hearly stSealed
    · rfl
    · exact hearly stKeyInvalid
    · exact ⟨cmd?_modCmd_same h.found fun _ => ⟨rfl, rfl⟩, modCmd_changesOnly s _ _ _⟩

end Sys2Proof.Proofs
end

section
/-! SUPPORT. QP_CREATE and QP_DELETE, and the statement about them (R353, R379, R418). -/

namespace Sys2Proof.Proofs

open Sys2Proof Sys2Proof.Machine Sys2Proof.Laws

/-! ## Queue pairs that stand -/

/-- The other data queue pairs stand from `s` to `t`. -/
def OtherQps (n : Nat) (s t : State) : Prop := ∀ m, m ≠ n → 1 ≤ m → m ≤ 4095 → t.qp (.data m) = s.qp (.data m)

theorem otherQps_trans {n : Nat} {s t u : State} (h : OtherQps n s t) (g : OtherQps n t u) : OtherQps n s u :=
  fun m hm hlow hhigh => (g m hm hlow hhigh).trans (h m hm hlow hhigh)

theorem otherQps_of_qps_eq (n : Nat) {s t : State} (h : t.qps = s.qps) : OtherQps n s t :=
  fun m _ _ _ => qp_eq_of_qps_eq h (.data m)

theorem modQp_data_otherQps (s : State) (n : Nat) (f : Qp → Qp) : OtherQps n s (s.modQp (.data n) f) :=
  fun _ hm _ _ => Tbl_get_upd_other _ _ f hm

/-- QP 0 is no data queue pair: in the table it stands at 0 for the one gateway and at 4096 for the other (R352). -/
theorem modQp_admin_data (s : State) (g : Gateway) (f : Qp → Qp) {n : Nat} (hlow : 1 ≤ n) (hhigh : n ≤ 4095) :
    (s.modQp (.admin g) f).qp (.data n) = s.qp (.data n) := by
  refine Tbl_get_upd_other _ _ f ?_
  cases g <;> simp only [qpIndex] <;> omega

/-- A completion on QP 0 or on the carrier leaves the data queue pairs. -/
theorem adminEnd_qp_data (s : State) (c : AdminCmd) (st : Nat) {n : Nat} (hlow : 1 ≤ n) (hhigh : n ≤ 4095) :
    (adminEnd s c st).qp (.data n) = s.qp (.data n) := by
  cases hvia : c.via with
  | ring g =>
    rw [adminEnd, adminFinish_ring_nil hvia]
    exact modQp_admin_data s g _ hlow hhigh
  | carrier inst =>
    rw [adminEnd, adminFinish, hvia]
    exact qp_eq_of_changesOnly (mctpAnswer_changesOnly s _ _ _ _) (by simp) _

theorem adminEnd_otherQps (s : State) (c : AdminCmd) (st n : Nat) : OtherQps n s (adminEnd s c st) :=
  fun _ _ hlow hhigh => adminEnd_qp_data s c st hlow hhigh

/-- An acknowledgement updates its own queue pair. -/
theorem sendAck_otherQps (s : State) (n : Nat) (nak : Bool) : OtherQps n s (sendAck s (.data n) nak) :=
  fun m hm hlow hhigh => (qp_eq_of_changesOnly (sendAck_after_modQp s (.data n) nak) (by simp) (.data m)).trans
    (modQp_data_otherQps s n _ m hm hlow hhigh)

theorem deleteQp_otherQps (s : State) (n : Nat) : OtherQps n s (deleteQp s (.data n)) := by
  obtain ⟨hqps, -⟩ := endDeletedAll_spec (q := .data n) (s.tags.filter (fun c => c.q == .data n)) (by simp)
    (s.modQp (.data n) deletingQp) (by rw [modQp_qp]; rfl)
  rw [deleteQp_eq]
  exact otherQps_trans (modQp_data_otherQps s n deletingQp) (otherQps_of_qps_eq n hqps)

theorem deleteQp_changesOnly (s : State) (n : Nat) :
    s.changesOnly [.qps, .tags, .courses, .freeCtr] (deleteQp s (.data n)) :=
  changesOnly_trans (changesOnly_mono (modQp_changesOnly s (.data n) deletingQp) (by simp))
    (changesOnly_foldl _ (fun u c => changesOnly_trans (changesOnly_mono (giveUpAppend_changesOnly u c) (by simp))
      (changesOnly_mono (finishFree_changesOnly _ _ _ _ _ _) (by simp))) _ _)

/-! ## A command whose meaning sends frames -/

/-- The frame that an acknowledgement sends leaves the splice. -/
theorem sendAck_splice (s : State) (q : QpId) (nak : Bool) : (sendAck s q nak).ring.splice = s.ring.splice := by
  unfold sendAck
  dsimp only
  split
  next t ht => exact (congrArg Ring.splice (originate_flows ht).ring :)
  · rfl

/-- `adminRun_of_atHead` for a meaning that may move frames of the ring, but leaves the splice. -/
theorem adminRun_of_atHead_splice {s : State} {c : AdminCmd} {rest : List AdminCmd} {mine : AdminCmd → Bool}
    {modes : State → Bool} {f : AdminCmd → State → State} (h : s.atHead c rest) (hmine : mine c = true) (hmodes : modes s = true)
    (hsplice : (f c (s.taken rest)).ring.splice = s.ring.splice) : adminRun mine modes f s = .next (f c (s.taken rest)) := by
  have hshort : c.short = false := by simp [AdminCmd.short, h.whole]
  have hafter : afterCal (f c (s.taken rest)) = f c (s.taken rest) :=
    afterCal_of_not_waiting (by rw [hsplice]; exact atHead_not_waiting h)
  rw [← hafter]
  simp [adminRun, h.queue, h.runs, hmine, h.complete, hmodes, hshort, State.taken]

theorem taken_qp (s : State) (rest : List AdminCmd) (q : QpId) : (s.taken rest).qp q = s.qp q := rfl

/-! ## QP_CREATE -/

/-- A data queue pair as QP_CREATE opens it for a gateway, with the DATA_CREDIT granted since. -/
def createdQp (c : AdminCmd) (g : Gateway) (credit : Nat) : Qp :=
  { state := .opened, peer := gwNode g, cls := c.arg 2 1, depth := 2 ^ c.arg 3 1, granted := credit }

/-- The operands of QP_CREATE are in range (R418). -/
structure CreateInRange (c : AdminCmd) (g : Gateway) : Prop where
  via : c.via = .ring g
  low : 1 ≤ c.arg 0 2
  high : c.arg 0 2 ≤ 4095
  cls : c.arg 2 1 ≤ 3
  shallow : 4 ≤ c.arg 3 1
  deep : c.arg 3 1 ≤ 12

section
variable {s : State} {c : AdminCmd} {g : Gateway} {rest : List AdminCmd}

theorem exec_qpCreate_free (h : CreateInRange c g) (hhead : s.atHead c rest) (hop : c.opcode = 0x49) (hmode : inT s = true)
    (hfree : (s.qp (.data (c.arg 0 2))).state = .free) (hroom : entriesUsed s + 2 ^ c.arg 3 1 ≤ 1048576) : exec .qpCreate s =
      .next (sendAck (adminEnd ((s.taken rest).modQp (.data (c.arg 0 2)) fun _ => createdQp c g 0) c stSuccess)
        (.data (c.arg 0 2)) false) := by
  obtain ⟨hvia, hlow, hhigh, hcls, hshallow, hdeep⟩ := h
  have hmade : qpCreate c (s.taken rest) =
      sendAck (adminEnd ((s.taken rest).modQp (.data (c.arg 0 2)) fun _ => createdQp c g 0) c stSuccess) (.data (c.arg 0 2)) false := by
    have hfits : ¬1048576 < entriesUsed (s.taken rest) + 2 ^ c.arg 3 1 := Nat.not_lt.2 hroom
    simp only [qpCreate, hvia]
    rw [taken_qp, if_neg (by omega), if_neg (not_not.2 hfree), if_neg hfits]
    rfl
  rw [← hmade]
  refine adminRun_of_atHead_splice hhead (by simp [isOp, hop]) hmode ?_
  rw [hmade, sendAck_splice, adminEnd_ring]
  rfl

theorem exec_qpCreate_used (h : CreateInRange c g) (hhead : s.atHead c rest) (hop : c.opcode = 0x49) (hmode : inT s = true)
    (hused : (s.qp (.data (c.arg 0 2))).state ≠ .free) :
    exec .qpCreate s = .next (adminEnd (s.taken rest) c stBusy) := by
  obtain ⟨hvia, hlow, hhigh, hcls, hshallow, hdeep⟩ := h
  have hbusy : qpCreate c (s.taken rest) = adminEnd (s.taken rest) c stBusy := by
    simp only [qpCreate, hvia]
    rw [taken_qp, if_neg (by omega), if_pos hused]
  rw [← hbusy]
  exact adminRun_of_atHead hhead (by simp [isOp, hop]) hmode (by rw [hbusy, adminEnd_ring]; rfl)

/-- The queue pair that a successful QP_CREATE leaves: as it was opened, with the credit that its first ACK grants. -/
theorem created_spec (s : State) (c : AdminCmd) (g : Gateway) {n : Nat} (hlow : 1 ≤ n) (hhigh : n ≤ 4095) (st : Nat) :
    let t := sendAck (adminEnd (s.modQp (.data n) fun _ => createdQp c g 0) c st) (.data n) false
    (∃ credit, t.qp (.data n) = createdQp c g credit) ∧ OtherQps n s t ∧ s.changesOnly [.qps, .ring, .sent] t := by
  refine ⟨⟨dataGrant (adminEnd (s.modQp (.data n) fun _ => createdQp c g 0) c st) (.data n), ?opened⟩, ?others, ?frame⟩
  case opened =>
    rw [sendAck_qp, adminEnd_qp_data _ c st hlow hhigh, modQp_qp]
    rfl
  case others =>
    exact otherQps_trans (modQp_data_otherQps s n _) (otherQps_trans (adminEnd_otherQps _ c st n) (sendAck_otherQps _ n false))
  case frame =>
    exact changesOnly_trans (changesOnly_mono (modQp_changesOnly s _ _) (by simp))
      (changesOnly_trans (changesOnly_mono (adminEnd_changesOnly _ c st) (by simp)) (sendAck_changesOnly _ _ _))

/-! ## QP_DELETE -/

section
variable (hhead : s.atHead c rest) (hop : c.opcode = 0x4A) (hmode : inT s = true) (hlow : 1 ≤ c.arg 0 2) (hhigh : c.arg 0 2 ≤ 4095)
include hhead hop hmode hlow hhigh

theorem exec_qpDelete_live
    (hlive : (s.qp (.data (c.arg 0 2))).state = .opened ∨ (s.qp (.data (c.arg 0 2))).state = .unreachable) :
    exec .qpDelete s = .next (adminEnd (deleteQp (s.taken rest) (.data (c.arg 0 2))) c stSuccess) := by
  have hended : qpDelete c (s.taken rest) = adminEnd (deleteQp (s.taken rest) (.data (c.arg 0 2))) c stSuccess := by
    rw [qpDelete, if_neg (by omega), taken_qp]
    rcases hlive with hstate | hstate <;> rw [hstate]
  rw [← hended]
  refine adminRun_of_atHead hhead (by simp [isOp, hop]) hmode ?_
  rw [hended, adminEnd_ring, deleteQp_changesOnly (s.taken rest) (c.arg 0 2) .ring (by simp)]
  rfl

theorem exec_qpDelete_gone
    (hgone : (s.qp (.data (c.arg 0 2))).state = .free ∨ (s.qp (.data (c.arg 0 2))).state = .deleting) :
    exec .qpDelete s = .next (adminEnd (s.taken rest) c stOutOfRange) := by
  have hended : qpDelete c (s.taken rest) = adminEnd (s.taken rest) c stOutOfRange := by
    rw [qpDelete, if_neg (by omega), taken_qp]
    rcases hgone with hstate | hstate <;> rw [hstate]
  rw [← hended]
  exact adminRun_of_atHead hhead (by simp [isOp, hop]) hmode (by rw [hended, adminEnd_ring]; rfl)

end

end

/-! ## The statement -/

/-- Settles O19: what QP_CREATE and QP_DELETE make of their queue pair stands, since completions and the ACK touch only QP 0,
the credit, ring and pins. -/
theorem queuePairsAreCreatedAndDeleted : Obligations.QueuePairsAreCreatedAndDeleted := by
  unfold Obligations.QueuePairsAreCreatedAndDeleted
  refine ⟨?created, ?used, ?deleted, ?gone⟩
  case created =>
    intro c rest g s h hop hmode hvia hlow hhigh hcls hshallow hdeep hfree hroom
    obtain ⟨⟨credit, hqp⟩, hothers, hframe⟩ := created_spec (s.taken rest) c g hlow hhigh stSuccess
    exact ⟨_, exec_qpCreate_free ⟨hvia, hlow, hhigh, hcls, hshallow, hdeep⟩ h hop hmode hfree hroom, by rw [hqp]; rfl,
      by rw [hqp]; rfl, by rw [hqp]; rfl, by rw [hqp]; rfl, by rw [hqp]; cases g <;> rfl, hothers, hframe .tags (by simp)⟩
  case used =>
    intro c rest g s h hop hmode hvia hlow hhigh hcls hshallow hdeep hused
    exact ⟨_, exec_qpCreate_used ⟨hvia, hlow, hhigh, hcls, hshallow, hdeep⟩ h hop hmode hused, rfl⟩
  case deleted =>
    intro c rest s h hop hmode hlow hhigh hlive
    obtain ⟨hqp, htags⟩ := deleteQp_spec (s.taken rest) (c.arg 0 2)
    have hended := (adminEnd_qp_data (deleteQp (s.taken rest) (.data (c.arg 0 2))) c stSuccess hlow hhigh).trans hqp
    refine ⟨_, exec_qpDelete_live h hop hmode hlow hhigh hlive, by rw [hended]; rfl, by rw [hended]; rfl, ?tags, ?others⟩
    case tags => rwa [adminEnd_changesOnly _ c stSuccess .tags (by simp)]
    case others => exact otherQps_trans (deleteQp_otherQps (s.taken rest) _) (adminEnd_otherQps _ c _ _)
  case gone =>
    intro c rest s h hop hmode hlow hhigh hgone
    exact ⟨_, exec_qpDelete_gone h hop hmode hlow hhigh hgone, rfl⟩

end Sys2Proof.Proofs
end

section
/-! SUPPORT. MOUNT with ACTION 1: the checks of an open, the course that it opens, and the statement about it (R195, R377). -/

namespace Sys2Proof.Proofs

open Sys2Proof Sys2Proof.Machine Sys2Proof.Laws

/-! ## The checks (R377) -/

/-- Fewer than two data discs are refused before any member is looked at. -/
theorem openFault_of_few (s : State) {x : DataSqe} (h : x.openD < 2) : openFault s x = some (stOutOfRange, none) :=
  if_pos (by omega)

theorem memberBays_length (x : DataSqe) : x.memberBays.length = x.openD + x.openP := by simp [DataSqe.memberBays]

/-- A bay is one nibble of MEMBER_BAYS. -/
theorem memberBays_lt (x : DataSqe) {b : Nat} (h : b ∈ x.memberBays) : b < 16 := by
  obtain ⟨j, -, rfl⟩ := List.mem_map.1 h
  exact Nat.mod_lt _ (by decide)

/-- Where the bays are all different, no member repeats the bay of one before it. -/
theorem find_repeated_bay {l : List Nat} (h : l.Nodup) :
    (List.range l.length).find? (fun j => (l.take j).contains (l.getD j 0)) = none := by
  refine List.find?_eq_none.2 fun j hj hmem => ?_
  have hlt : j < l.length := List.mem_range.1 hj
  rw [List.getD_eq_getElem l 0 hlt, List.contains_iff_mem] at hmem
  obtain ⟨i, hi, heq⟩ := List.mem_take_iff_getElem.1 hmem
  have hij := (h.getElem_inj_iff).1 heq
  omega

/-- An eighth open course is refused before any member's disc is looked at. -/
theorem openFault_of_eight {s : State} {x : DataSqe} (hd : 2 ≤ x.openD ∧ x.openD ≤ 14) (hp : 1 ≤ x.openP ∧ x.openP ≤ 4)
    (hn : x.openD + x.openP ≤ 16) (hbays : x.memberBays.Nodup) (height : 8 ≤ (s.courses.filter (fun k => !k.stopped)).length) :
    openFault s x = some (stNoResource, none) := by
  have hrange : ¬¬(2 ≤ x.openD ∧ x.openD ≤ 14 ∧ 1 ≤ x.openP ∧ x.openP ≤ 4 ∧ x.openD + x.openP ≤ 16) := by omega
  have hdiffer := find_repeated_bay hbays
  rw [memberBays_length] at hdiffer
  unfold openFault
  dsimp only
  rw [if_neg hrange, hdiffer]
  exact if_pos height

/-! ## The course as it is opened (R195, R377) -/

/-- The course that an open begins: its handle is not taken yet, and its command waits. -/
def openingCourse (s : State) (c : Cmd) : Course :=
  let bays := c.sqe.memberBays
  let shape := (liveDisc s (bays.headD 0)).map (fun x => (x.dtype, x.layers))
  let m := alignedRows s c.sqe.openD bays
  { handle := 0x10000 + c.order, id := c.sqe.name, d := c.sqe.openD, p := c.sqe.openP, dtype := (shape.map (·.1)).getD .plain
    layers := (shape.map (·.2)).getD 1, bays := bays.map (fun b => Fin.ofNat 16 b), nextCsn := 0, buf := [], nextSeq := []
    committed := 0, stopped := false, full := false, sealed := false, waits := [], lastData := s.now
    opening := some (c.q, c.sqe.tag), missing := [], alignTo := m
    closing := if bays.any (fun b => match (s.bay b).disc with | some x => decide (x.rowsEnd < m) | none => false) then some m
      else none }

/-- The engine with that course, which takes the place of one with the same ID, and its command started. -/
def withOpening (s : State) (c : Cmd) : State :=
  ({ s with courses := s.courses.filter (fun o => o.id != c.sqe.name) ++ [openingCourse s c] } : State).modCmd c.q c.sqe.tag
    fun c => { c with started := true }

theorem withOpening_changesOnly (s : State) (c : Cmd) : s.changesOnly [.courses, .tags] (withOpening s c) :=
  changesOnly_trans (changesOnly_mono (withCourses_changesOnly s _) (by simp)) (changesOnly_mono (modCmd_changesOnly _ _ _ _) (by simp))

theorem openingCourse_bays (s : State) (c : Cmd) : (openingCourse s c).bays.map (·.val) = c.sqe.memberBays := by
  have hbays : (openingCourse s c).bays = c.sqe.memberBays.map (fun b => Fin.ofNat 16 b) := rfl
  rw [hbays, List.map_map]
  exact (List.map_congr_left fun b hb => Nat.mod_eq_of_lt (memberBays_lt c.sqe hb)).trans (List.map_id _)

theorem openingCourse_mem (s : State) (c : Cmd) : openingCourse s c ∈ (withOpening s c).courses := by simp [withOpening]

/-- The course is found by its provisional handle, where no other course bears it. -/
theorem withOpening_course? {s : State} {c : Cmd} (h : ∀ k ∈ s.courses, k.handle ≠ 0x10000 + c.order) :
    (withOpening s c).course? (0x10000 + c.order) = some (openingCourse s c) := by
  have hnone : (s.courses.filter (fun o => o.id != c.sqe.name)).find? (fun k => k.handle == 0x10000 + c.order) = none :=
    List.find?_eq_none.2 fun k hk => mt beq_iff_eq.1 (h k (List.mem_filter.1 hk).1)
  have hcourses : (withOpening s c).courses = s.courses.filter (fun o => o.id != c.sqe.name) ++ [openingCourse s c] := rfl
  have hown : ((openingCourse s c).handle == 0x10000 + c.order) = true := beq_self_eq_true _
  rw [State.course?, hcourses, List.find?_append, hnone, Option.none_or, List.find?_singleton, if_pos hown]

/-- A course that is ready, with the handle and the first CSN that it takes. -/
def openedCourse (s : State) (k : Course) : Course :=
  let m := alignedRows s k.d (k.bays.map (·.val))
  { k with handle := nextReqId (s.courses.map (·.handle)) 0x10000 s.nextHandle, opening := none, committed := m
           nextCsn := k.rowSize * m, lastData := s.now }

/-- A course that is ready is open, and its members' sessions and discs follow; nothing else changes but its command, which ends. -/
theorem openDone_spec {s : State} {key : Nat} {k : Course} {q : QpId} {tag : Nat} (hk : s.course? key = some k)
    (hopening : k.opening = some (q, tag)) (hc : (s.cmd? q tag).isSome = true) :
    openedCourse s k ∈ (openDone s key).courses ∧ s.changesOnly [.courses, .tags, .qps, .bays, .nextHandle] (openDone s key) := by
  have hmembers (u : State) (f : WriteSess → WriteSess) (g : Disc → Disc) :
      u.changesOnly [.bays] (k.bays.foldl (fun a (b : BayId) => (a.modWrite b.val f).modDisc b.val g) u) :=
    changesOnly_foldl _ (fun v (b : BayId) => changesOnly_trans (modBay_changesOnly v b.val _) (modBay_changesOnly _ b.val _)) _ u
  have hended (u : State) (n h : Nat) : u.changesOnly [.tags, .qps, .nextHandle]
      (({ u with nextHandle := n } : State).finish q tag 0 stSuccess 0 h 0) :=
    changesOnly_trans (changesOnly_mono (withNextHandle_changesOnly u n) (by simp))
      (changesOnly_mono (finish_changesOnly _ _ _ _ _ _ _ _) (by simp))
  have hnot : ¬(s.cmd? q tag).isNone = true := by simp [Option.isSome_iff_ne_none.1 hc]
  unfold openDone
  simp only [hk, hopening]
  rw [if_neg hnot]
  refine ⟨?mem, ?frame⟩
  case mem =>
    rw [hended _ _ _ .courses (by simp), hmembers _ _ _ .courses (by simp)]
    exact List.mem_map.2 ⟨k, List.mem_of_find?_eq_some hk, if_pos (course?_handle hk)⟩
  case frame =>
    exact changesOnly_trans (changesOnly_mono (modCourse_changesOnly s key _) (by simp))
      (changesOnly_trans (changesOnly_mono (hmembers _ _ _) (by simp)) (changesOnly_mono (hended _ _ _) (by simp)))

/-! ## What the command does -/

section
variable {s : State} {c : Cmd} (h : s.toRun c.q c.sqe.tag .opening c)
include h

theorem exec_mountOpenCourse_memberFault {st j : Nat} (hfault : openFault s c.sqe = some (st, some j)) :
    exec (.mountOpenCourse c.q c.sqe.tag) s = .next (s.finish c.q c.sqe.tag 0 st 0 j 0) := by
  have hrun : exec (.mountOpenCourse c.q c.sqe.tag) s = .next _ := congrArg Host.Outcome.next (serve_of_toRun h _)
  rw [hrun, hfault]

theorem exec_mountOpenCourse_fault {st : Nat} (hfault : openFault s c.sqe = some (st, none)) :
    exec (.mountOpenCourse c.q c.sqe.tag) s = .next
      (({ s with freeCtr := s.freeCtr + 1 } : State).finish c.q c.sqe.tag 0 st 0 (Config.free s.freeCtr % 2 ^ 16) 0) := by
  have hrun : exec (.mountOpenCourse c.q c.sqe.tag) s = .next _ := congrArg Host.Outcome.next (serve_of_toRun h _)
  rw [hrun, hfault]
  rfl

theorem exec_mountOpenCourse_of_none (hfault : openFault s c.sqe = none) :
    exec (.mountOpenCourse c.q c.sqe.tag) s = .next (if openReady (withOpening s c) (openingCourse s c) then
      openDone (withOpening s c) (0x10000 + c.order) else sessionsStep (withOpening s c)) := by
  have hrun : exec (.mountOpenCourse c.q c.sqe.tag) s = .next _ := congrArg Host.Outcome.next (serve_of_toRun h _)
  rw [hrun, hfault]
  rfl

end

/-! ## The statement -/

/-- Settles O28: a fault ends the command, and a course without one stands at once or waits for its members, in either case as the
command names it. -/
theorem coursesOpenWhereTheirChecksHold : Obligations.CoursesOpenWhereTheirChecksHold := by
  unfold Obligations.CoursesOpenWhereTheirChecksHold
  refine ⟨?few, ?member, ?eight, ?opens⟩
  case few =>
    intro q tag c s h hfew
    obtain ⟨rfl, rfl⟩ := cmd?_key h.found
    exact ⟨_, exec_mountOpenCourse_fault h (openFault_of_few s hfew), _, rfl⟩
  case member =>
    intro q tag j st c s h hfault
    obtain ⟨rfl, rfl⟩ := cmd?_key h.found
    exact ⟨_, exec_mountOpenCourse_memberFault h hfault, rfl⟩
  case eight =>
    intro q tag c s h hd hd' hp hp' hn hbays height
    obtain ⟨rfl, rfl⟩ := cmd?_key h.found
    exact ⟨_, exec_mountOpenCourse_fault h (openFault_of_eight ⟨hd, hd'⟩ ⟨hp, hp'⟩ hn hbays height), _, rfl⟩
  case opens =>
    intro q tag c s h hfault hfresh
    obtain ⟨rfl, rfl⟩ := cmd?_key h.found
    refine ⟨_, exec_mountOpenCourse_of_none h hfault, ?_⟩
    have hbays := openingCourse_bays s c
    have hframe := withOpening_changesOnly s c
    split
    next hready =>
      have hcmd : ((withOpening s c).cmd? c.q c.sqe.tag).isSome = true := by
        have hstarted : (withOpening s c).cmd? c.q c.sqe.tag = _ := cmd?_modCmd_same h.found fun _ => ⟨rfl, rfl⟩
        rw [hstarted, Option.isSome_some]
      obtain ⟨hmem, hdone⟩ := openDone_spec (withOpening_course? hfresh) rfl hcmd
      exact ⟨⟨_, hmem, rfl, rfl, rfl, hbays, rfl, rfl⟩,
        changesOnly_trans (changesOnly_mono hframe (by simp)) (changesOnly_mono hdone (by simp))⟩
    next hwaits =>
      have hstep := sessionsStep_changesOnly (withOpening s c)
      have hmem : openingCourse s c ∈ (sessionsStep (withOpening s c)).courses := by
        rw [hstep .courses (by simp)]
        exact openingCourse_mem s c
      exact ⟨⟨_, hmem, rfl, rfl, rfl, hbays, rfl, rfl⟩,
        changesOnly_trans (changesOnly_mono hframe (by simp)) (changesOnly_mono hstep (by simp))⟩

end Sys2Proof.Proofs
end

section
/-! SUPPORT. READ and VERIFY: the sectors that disc addressing names, the target blocks they become, delivery, and the statement about
them (R361, R364, R368 to R371). -/

namespace Sys2Proof.Proofs

open Sys2Proof Sys2Proof.Machine Sys2Proof.Laws

/-! ## Addresses (R87, R368) -/

/-- Between two valid LSNs of one layer every LSN is valid. -/
theorem lsnData_between {t : DiscType} {layers a x z l n k n2 k2 : Nat} (ha : lsnData t layers a = some (l, n, k))
    (hz : lsnData t layers z = some (l, n2, k2)) (hax : a ≤ x) (hxz : x ≤ z) : (lsnData t layers x).isSome = true := by
  unfold lsnData at *
  dsimp only at *
  split at ha
  case isFalse => exact absurd ha (by simp)
  split at hz
  case isFalse => exact absurd hz (by simp)
  next hfirst hlast =>
    obtain ⟨hlayer, -⟩ := Prod.mk.inj (Option.some.inj ha)
    obtain ⟨hlayer2, -⟩ := Prod.mk.inj (Option.some.inj hz)
    have hsame : x / 0x1000000 = l := by omega
    have hblock : x % 0x1000000 / t.dataSectors ≤ z % 0x1000000 / t.dataSectors := Nat.div_le_div_right (by omega)
    rw [if_pos ⟨by omega, by omega⟩]
    rfl

/-! ## Blocks of which nothing has been read -/

theorem Tbl_get_mem_or_default {β : Type} (d : β) (t : Tbl β) (k : Nat) : Tbl.get d t k = d ∨ ∃ e ∈ t, Tbl.get d t k = e.2 := by
  induction t with
  | nil => exact .inl rfl
  | cons e r ih =>
    obtain ⟨i, v⟩ := e
    rw [Tbl.get]
    split
    · exact .inr ⟨(i, v), List.mem_cons_self, rfl⟩
    · exact ih.imp_right fun ⟨e, he, heq⟩ => ⟨e, List.mem_cons_of_mem _ he, heq⟩

/-- Nothing of a block has been read: of its sectors only those are recorded that no slot holds. -/
def Untouched (y : Block) : Prop := ∀ e ∈ y.secs, e.2.state = .failed

theorem untouched_sec {y : Block} (h : Untouched y) (k : Nat) : (y.sec k).state = .unread ∨ (y.sec k).state = .failed := by
  rcases Tbl_get_mem_or_default {} y.secs k with hsec | ⟨e, he, hsec⟩
  · exact .inl (congrArg SecRec.state hsec)
  · exact .inr ((congrArg SecRec.state hsec).trans (h e he))

theorem lostSlots_failed (s : State) (b : BayId) (l n : Nat) : ∀ e ∈ lostSlots s b l n, e.2.state = .failed := by
  unfold lostSlots
  split
  · exact fun e he => absurd he List.not_mem_nil
  · exact List.forall_mem_map.2 fun k _ => rfl

/-- From `s` to `t` nothing changes but the target blocks, and no sector of any has been read. -/
structure OnlyTargets (s t : State) : Prop where
  untouched : ∀ y ∈ t.recov.blocks, Untouched y
  frame : s.changesOnly [.recov] t

theorem ensureBlock_onlyTargets {s t : State} (h : OnlyTargets s t) (b : BayId) (l n : Nat) : OnlyTargets s (t.ensureBlock b l n) := by
  refine ⟨?_, changesOnly_trans h.frame (ensureBlock_changesOnly t b l n)⟩
  unfold State.ensureBlock
  split
  · exact h.untouched
  · refine fun y hy => (List.mem_append.1 hy).elim (h.untouched y) fun hy => ?_
    rw [List.mem_singleton.1 hy]
    exact lostSlots_failed t b l n

theorem beginBlock_onlyTargets {s t : State} (h : OnlyTargets s t) (b l n : Nat) :
    OnlyTargets s (t.modBlock b l n (·.begin t)) := by
  refine ⟨fun z hz => ?_, changesOnly_trans h.frame (withRecov_changesOnly t _)⟩
  obtain ⟨y, hy, rfl⟩ := List.mem_map.1 hz
  split <;> exact h.untouched y hy

/-- Where no block is a target yet, the sectors of a command become targets and none of them is decided (R151). -/
theorem joinBlocks_onlyTargets {s : State} (hnone : s.recov.blocks = []) (xs : List CmdSector) : OnlyTargets s (joinBlocks s xs) := by
  have hstart : OnlyTargets s s := ⟨by simp [hnone], changesOnly_refl _ s⟩
  unfold joinBlocks
  refine List.foldlRecOn xs _ (List.foldlRecOn xs _ hstart fun t ht x _ => ?ensured) fun t ht x _ => ?joined
  case ensured =>
    split
    · exact ensureBlock_onlyTargets ht _ _ _
    · exact ht
  case joined =>
    split
    · exact ht
    split
    · exact ht
    next y hy =>
      have hsec := untouched_sec (ht.untouched y (List.mem_of_find?_eq_some hy)) x.k
      dsimp only
      rcases hsec with hsec | hsec
      · rw [hsec]
        exact ht
      · rw [hsec]
        exact beginBlock_onlyTargets ht _ _ _

/-! ## A command that starts (R368, R371) -/

/-- With disc addressing READ and VERIFY are one. -/
theorem exec_readsDisc {vr : Bool} {s : State} {q : QpId} {tag : Nat} {c : Cmd}
    (h : s.toRun q tag (if vr then .verify else .read) c) (hdisc : c.sqe.csn = false) :
    exec (if vr then .verify q tag else .read q tag) s = .next (readDisc s c) := by
  have hrun (u : State) : (if c.sqe.csn then u else readDisc s c) = readDisc s c := if_neg (by simp [hdisc])
  cases vr with
  | false => exact (congrArg Host.Outcome.next (serve_of_toRun h _)).trans (congrArg Host.Outcome.next (hrun _))
  | true => exact (congrArg Host.Outcome.next (serve_of_toRun h _)).trans (congrArg Host.Outcome.next (hrun _))

/-- A READ or VERIFY that ends before it runs reports no lost sector and none delivered (R368). -/
theorem endEarly_of_reading {s : State} {c : Cmd} (h : c.sqe.kind = .read ∨ c.sqe.kind = .verify) (st : Nat) :
    endEarly s c st = s.finish c.q c.sqe.tag 0 st 0 0 0xFFFFFFFF := by
  rcases h with hkind | hkind <;> simp [endEarly, earlyAux, hkind, noneLost]

/-- The sectors that a command names on a disc by COUNT addresses from its LSN on. -/
def discSectors (b : BayId) (d : Disc) (q : DataSqe) : List CmdSector :=
  let i := match d.binding with | .member _ i _ _ _ => i | _ => 0
  (List.range q.count).map (fun x => discSector b d.dtype ((lsnData d.dtype d.layers (q.addr + x)).getD (0, 0, 0)) i)

/-- Each of them is a sector of that disc, not decided yet. -/
theorem discSectors_spec {b : BayId} {d : Disc} {q : DataSqe} {l n k n2 k2 : Nat}
    (hfirst : lsnData d.dtype d.layers q.addr = some (l, n, k))
    (hlast : lsnData d.dtype d.layers (q.addr + q.count - 1) = some (l, n2, k2)) :
    ∀ x ∈ discSectors b d q, x.bay = some b ∧ x.outcome = .pending ∧
      ∃ i, i < q.count ∧ lsnData d.dtype d.layers (q.addr + i) = some (x.layer, x.block, x.k) := by
  refine List.forall_mem_map.2 fun i hi => ?_
  have hcount := List.mem_range.1 hi
  have hvalid := lsnData_between hfirst hlast (x := q.addr + i) (by omega) (by omega)
  obtain ⟨v, hv⟩ := Option.isSome_iff_exists.1 hvalid
  refine ⟨rfl, rfl, i, hcount, ?_⟩
  rw [hv]
  rfl

section
variable {s : State} {c : Cmd}

theorem readDisc_of_absent (h : bayOfDisc s c.sqe.name = none) : readDisc s c = endEarly s c stNotMounted := by
  simp only [readDisc, h]

section
variable {b : BayId} {d : Disc} (hb : bayOfDisc s c.sqe.name = some b) (hd : (s.bay b.val).disc = some d)
include hb hd

theorem readDisc_of_invalid (hlast : lsnData d.dtype d.layers (c.sqe.addr + c.sqe.count - 1) = none) :
    readDisc s c = endEarly s c stOutOfRange := by
  simp only [readDisc, hb, hd, hlast]
  cases lsnData d.dtype d.layers c.sqe.addr with
  | none => rfl
  | some v => rfl

theorem readDisc_of_committed {l n k n2 k2 : Nat} (hfirst : lsnData d.dtype d.layers c.sqe.addr = some (l, n, k))
    (hlast : lsnData d.dtype d.layers (c.sqe.addr + c.sqe.count - 1) = some (l, n2, k2)) (hcommitted : n2 < d.append.getD l 0) :
    readDisc s c = startRead s c (discSectors b d c.sqe) := by
  simp only [readDisc, hb, hd, hfirst, hlast]
  exact if_pos ⟨trivial, hcommitted⟩

end

end

/-- The parts that the start of a READ or VERIFY may touch. -/
abbrev startParts : List Part := [.tags, .recov, .events, .logs, .freeCtr, .bays]

/-- Where no block is a target yet, a command starts over its sectors, and none of them is decided. -/
theorem startRead_spec {s : State} (hnone : s.recov.blocks = []) (c : Cmd) (xs : List CmdSector) :
    (startRead s c xs).tags = s.tags.map (fun y => if y.q == c.q && y.sqe.tag == c.sqe.tag then
      { y with started := true, sectors := xs } else y) ∧ s.changesOnly startParts (startRead s c xs) := by
  have hjoined := (joinBlocks_onlyTargets
    (s := s.modCmd c.q c.sqe.tag fun c => { c with started := true, sectors := xs }) hnone xs).frame
  refine ⟨(sessionsStep_tags _).trans (hjoined .tags (by simp)), ?_⟩
  exact changesOnly_trans (changesOnly_mono (modCmd_changesOnly s _ _ _) (by simp))
    (changesOnly_trans (changesOnly_mono hjoined (by simp)) (changesOnly_mono (sessionsStep_changesOnly _) (by simp)))

/-- A command whose sectors are all committed starts over them. -/
theorem readDisc_starts {s : State} {c : Cmd} {b : BayId} {d : Disc} {l n k n2 k2 : Nat} (hb : bayOfDisc s c.sqe.name = some b)
    (hd : (s.bay b.val).disc = some d) (hfirst : lsnData d.dtype d.layers c.sqe.addr = some (l, n, k))
    (hlast : lsnData d.dtype d.layers (c.sqe.addr + c.sqe.count - 1) = some (l, n2, k2)) (hcommitted : n2 < d.append.getD l 0)
    (hnone : s.recov.blocks = []) : ∃ xs : List CmdSector, xs.length = c.sqe.count ∧
      (∀ x ∈ xs, x.bay = some b ∧ x.outcome = .pending ∧
        ∃ i, i < c.sqe.count ∧ lsnData d.dtype d.layers (c.sqe.addr + i) = some (x.layer, x.block, x.k)) ∧
      (readDisc s c).tags = s.tags.map (fun y => if y.q == c.q && y.sqe.tag == c.sqe.tag then
        { y with started := true, sectors := xs } else y) ∧ s.changesOnly startParts (readDisc s c) := by
  rw [readDisc_of_committed hb hd hfirst hlast hcommitted]
  exact ⟨discSectors b d c.sqe, by simp [discSectors], discSectors_spec hfirst hlast, startRead_spec hnone c _⟩

/-! ## Delivery (R361, R364) -/

/-- From `s` to `t` frames are put behind those that wait on a queue pair, and commands go on or end. -/
structure Sends (q : QpId) (s t : State) : Prop where
  waits : ∃ fs, (t.qp q).txWait = (s.qp q).txWait ++ fs
  frame : s.changesOnly [.qps, .tags] t

theorem Sends.trans {q : QpId} {s t u : State} (h : Sends q s t) (g : Sends q t u) : Sends q s u := by
  obtain ⟨fs, hfs⟩ := h.waits
  obtain ⟨gs, hgs⟩ := g.waits
  exact ⟨⟨fs ++ gs, by rw [hgs, hfs, List.append_assoc]⟩, changesOnly_trans h.frame g.frame⟩

theorem sends_of_changesOnly {s t : State} (q : QpId) (h : s.changesOnly [.tags] t) : Sends q s t :=
  ⟨⟨[], by rw [qp_eq_of_changesOnly h (by simp), List.append_nil]⟩, changesOnly_mono h (by simp)⟩

theorem queueFrame_sends (s : State) (q : QpId) (ty tag : Nat) (body : List Byte) : Sends q s (s.queueFrame q ty tag body) :=
  ⟨⟨_, queueFrame_txWait s q ty tag body⟩, changesOnly_mono (queueFrame_changesOnly s q ty tag body) (by simp)⟩

theorem dropCmd_changesOnly (s : State) (q : QpId) (tag : Nat) : s.changesOnly [.tags] (s.dropCmd q tag) :=
  changesOnly_of_agrees (by rintro ⟨⟩ <;> simp [State.agrees])

/-- The end of a command sends one CPL frame, or none in DELETING (R353). -/
theorem finish_sends (s : State) (q : QpId) (tag r st c a b : Nat) : Sends q s (s.finish q tag r st c a b) := by
  have hdrop (u : State) : Sends q u (u.dropCmd q tag) := sends_of_changesOnly q (dropCmd_changesOnly u q tag)
  unfold State.finish
  dsimp only
  split
  · exact hdrop s
  · exact (queueFrame_sends s q _ _ _).trans (hdrop _)

/-- Delivery puts frames behind those that wait, and nothing else changes but its commands. -/
theorem sendSectors_sends {q : QpId} {tag : Nat} (n : Nat) (s : State) : Sends q s (sendSectors q tag n s) := by
  have hstay (u : State) : Sends q u u := sends_of_changesOnly q (changesOnly_refl _ u)
  have hskip (u : State) (f : Cmd → Cmd) : Sends q u (u.modCmd q tag f) := sends_of_changesOnly q (modCmd_changesOnly u q tag f)
  induction n generalizing s with
  | zero => exact hstay s
  | succ n ih =>
    rw [sendSectors]
    split
    · exact hstay s
    next c hc =>
      split
      next hnone =>
        obtain ⟨rfl, -⟩ := cmd?_key hc
        exact finish_sends s c.q _ _ _ _ _ _
      next x hx =>
        dsimp only
        split
        · exact hstay s
        split
        · exact (hskip s _).trans (ih _)
        split
        · exact hstay s
        · exact (((queueFrame_sends s q _ _ _).trans (hskip _ _)).trans (hskip _ _)).trans (ih _)

section
variable {s : State} {q : QpId} {tag : Nat} {c : Cmd} {x : CmdSector} (hc : s.cmd? q tag = some c)
include hc

theorem sendSectors_of_pending (hx : c.sectors[c.next]? = some x) (hpending : x.outcome = .pending) (n : Nat) :
    sendSectors q tag (n + 1) s = s := by
  simp [sendSectors, hc, hx, hpending]

theorem sendSectors_of_done (hdone : c.sectors.length ≤ c.next) (n : Nat) : sendSectors q tag (n + 1) s = endRead s c c.status := by
  simp [sendSectors, hc, List.getElem?_eq_none hdone]

/-- With credit for one sector, the next one goes, in a frame of its own. -/
theorem sendSectors_of_one (hread : c.sqe.opcode = opRead) (hx : c.sectors[c.next]? = some x)
    (hready : x.outcome.isAccepted = true) (hroom : (s.qp q).dataCredit = dataInFlight (s.qp q) + 1) (n : Nat) :
    Sends q (s.queueFrame q 2 tag (dataBody c.next [x.data])) (sendSectors q tag (n + 1) s) := by
  have hpending : x.outcome ≠ .pending := fun h => by simp [h, SecOutcome.isAccepted] at hready
  have hone : (s.qp q).dataCredit - dataInFlight (s.qp q) = 1 := by omega
  have hgo (u : State) (f g : Cmd → Cmd) : Sends q u (sendSectors q tag n ((u.modCmd q tag f).modCmd q tag g)) :=
    (sends_of_changesOnly q (changesOnly_trans (modCmd_changesOnly u q tag f) (modCmd_changesOnly _ q tag g))).trans
      (sendSectors_sends n _)
  have htwo : ¬2 ≤ 1 := by omega
  rw [sendSectors]
  simp only [hc, hx]
  rw [if_neg hpending, if_neg (by simp [hready, hread]), hone, if_neg Nat.one_ne_zero]
  simp only [htwo, false_and, if_false]
  cases c.sectors[c.next + 1]? with
  | none => exact hgo _ _ _
  | some y => exact hgo _ _ _

end

theorem exec_readSectorDelivery {s : State} {q : QpId} {tag : Nat} {c : Cmd} (hc : s.cmd? q tag = some c)
    (hstarted : c.started = true) (hkind : c.sqe.kind = .read ∨ c.sqe.kind = .verify) :
    exec (.readSectorDelivery q tag) s = .next (sendSectors q tag (c.sectors.length + 1) s) := by
  have hexec : exec (.readSectorDelivery q tag) s = execReadSectorDelivery q tag s := rfl
  rw [hexec, execReadSectorDelivery, hc]
  exact if_pos ⟨hstarted, hkind⟩

/-- READ is opcode 1 (R354). -/
theorem opcode_of_kind_read {x : DataSqe} (h : x.kind = .read) : x.opcode = opRead := by
  unfold DataSqe.kind at h
  split at h
  case h_1 hop => exact hop
  case h_6 | h_7 => split_ifs at h
  all_goals exact absurd h (by decide)

/-- The body of a DATA frame of one sector (R361). -/
theorem dataBody_one (index : Nat) (l : List Byte) : dataBody index [l] = beBytes 4 index ++ [1, 0, 0, 0] ++ l := by
  have hhead : beBytes 1 1 ++ zeros 3 = [1, 0, 0, 0] := by decide
  rw [dataBody, List.length_singleton, List.append_assoc (beBytes 4 index), hhead, List.flatten_singleton]

/-! ## The statement -/

/-- Settles O24: disc addressing ends a command or starts it over its sectors, and delivery goes by the next sector's outcome and
the host's credit. -/
theorem readsNameTheirSectorsAndDeliverInOrder : Obligations.ReadsNameTheirSectorsAndDeliverInOrder := by
  unfold Obligations.ReadsNameTheirSectorsAndDeliverInOrder
  have hreading {vr : Bool} {s : State} {q : QpId} {tag : Nat} {c : Cmd}
      (h : s.toRun q tag (if vr then .verify else .read) c) : c.sqe.kind = .read ∨ c.sqe.kind = .verify := by
    cases vr
    · exact .inl h.kind
    · exact .inr h.kind
  refine ⟨?absent, ?invalid, ?read, ?verify, ?delivery, ?pending, ?verified⟩
  case absent =>
    intro vr q tag c s h hdisc hb
    obtain ⟨rfl, rfl⟩ := cmd?_key h.found
    refine ⟨_, exec_readsDisc h hdisc, ?_⟩
    rw [readDisc_of_absent hb]
    exact endEarly_of_reading (hreading h) _
  case invalid =>
    intro vr q tag c b d s h hdisc hb hd hlast
    obtain ⟨rfl, rfl⟩ := cmd?_key h.found
    refine ⟨_, exec_readsDisc h hdisc, ?_⟩
    rw [readDisc_of_invalid hb hd hlast]
    exact endEarly_of_reading (hreading h) _
  case read =>
    intro q tag l n k n2 k2 c b d s h hdisc hb hd hfirst hlast hcommitted hnone
    obtain ⟨rfl, rfl⟩ := cmd?_key h.found
    exact ⟨_, exec_readsDisc (vr := false) h hdisc, readDisc_starts hb hd hfirst hlast hcommitted hnone⟩
  case verify =>
    intro q tag l n k n2 k2 c b d s h hdisc hb hd hfirst hlast hcommitted hnone
    obtain ⟨rfl, rfl⟩ := cmd?_key h.found
    exact ⟨_, exec_readsDisc (vr := true) h hdisc, readDisc_starts hb hd hfirst hlast hcommitted hnone⟩
  case delivery =>
    intro n tag c x s hc hstarted hkind hx hready hcredit
    obtain ⟨⟨fs, hfs⟩, hframe⟩ := sendSectors_of_one hc (opcode_of_kind_read hkind) hx hready hcredit c.sectors.length
    refine ⟨_, exec_readSectorDelivery hc hstarted (.inl hkind), fs, ?_, ?_⟩
    · rw [hfs, queueFrame_txWait, dataBody_one]
      rfl
    · exact changesOnly_trans (changesOnly_mono (queueFrame_changesOnly s _ _ _ _) (by simp)) hframe
  case pending =>
    intro n tag c x s hc hstarted hkind hx hpending
    rw [exec_readSectorDelivery hc hstarted (.inl hkind), sendSectors_of_pending hc hx hpending]
  case verified =>
    intro n tag c s hc hstarted hkind hdone
    obtain ⟨hq, htag⟩ := cmd?_key hc
    refine ⟨_, exec_readSectorDelivery hc hstarted (.inr hkind), ?_⟩
    rw [sendSectors_of_done hc hdone, endRead, hq, htag]
    rfl

end Sys2Proof.Proofs
end

section
/-! SUPPORT. The statement about the changes of mode, which fails where a stitch boundary both makes a self-reset and finds the condition
of BOOT (R400, R402, R444). -/

namespace Sys2Proof.Proofs

open Sys2Proof Sys2Proof.Machine

/-- A read for core 0's data, which channel 0 issues next. -/
def coreRead : DramReq :=
  { id := 1, line := 0, write := false, cls := 2, at_ := 0, classAt := 0, timeouts := 0, client := .coreData 0 }

/-- An engine in ENROL whose management complex has restarted twice within ten minutes, with RESET_N released, and with core 0 about to
read a line that is poisoned: its third restart makes a self-reset at once, since SAFE-STOP is not entered from ENROL (R402, R482). -/
def thirdRestartInEnrol : State :=
  { State.reset with
    mode := .enrol
    aon := { resetN := false, power := 0x0007F, restarts := [0, 0] }
    mem := { poisoned := [0], ch0 := { state := .up, queue := [coreRead] } }
    pending := [.stitchBoundary [] { issue0 := 1 }] }

/-- The boundary at which that read is issued takes the engine to RESET, and, as BOOT's condition holds, on to BOOT. -/
theorem step_thirdRestartInEnrol_mode : ∃ t, step thirdRestartInEnrol = .next t ∧ t.mode = .boot := ⟨_, rfl, rfl⟩

/-- Refutes O58: a stitch boundary makes the self-reset of a third restart and then leaves RESET, whose condition holds, for BOOT, so
that one step goes from ENROL to BOOT, which R400's table does not list. -/
theorem not_modesChangeOnlyAlongTheTable : ¬ Obligations.ModesChangeOnlyAlongTheTable := by
  unfold Obligations.ModesChangeOnlyAlongTheTable
  intro h
  obtain ⟨t, hstep, hboot⟩ := step_thirdRestartInEnrol_mode
  have htable := h _ t hstep
  rw [hboot] at htable
  exact absurd htable (by decide)

end Sys2Proof.Proofs
end

section
/-! SUPPORT. The standing of an engine: its mode, its domains and DRAM's content. What each operation of the model leaves of it. -/

namespace Sys2Proof.Proofs

open Sys2Proof Sys2Proof.Machine Sys2Proof.Laws

/-- What the domains and DRAM's canonical form depend on: the mode, the domains that are on and DRAM's content. -/
def standing (s : State) : Mode × BitVec 20 × List Host.Cell := (s.mode, s.aon.power, s.mem.cells)

@[simp] theorem standing_mk (mode aon mgmt eave pat logs events adminQ qps lastQp turns tags orders sec ring girth bays beams buses recov courses
      nextHandle mem freeCtr readData sent pending) :
  standing ⟨mode, aon, mgmt, eave, pat, logs, events, adminQ, qps, lastQp, turns, tags, orders, sec, ring, girth, bays, beams, buses, recov,
      courses, nextHandle, mem, freeCtr, readData, sent, pending⟩ = (mode, aon.power, mem.cells) := (rfl)

@[simp] theorem standing_eta (s : State) : (s.mode, s.aon.power, s.mem.cells) = standing s := (rfl)

theorem standing_of_changesOnly {ps : List Part} {s t : State} (h : s.changesOnly ps t) (hp : ∀ p ∈ [Part.mode, .aon, .mem], p ∉ ps) :
    standing t = standing s := by
  have h1 : t.mode = s.mode := h .mode (hp _ (by simp))
  have h2 : t.aon = s.aon := h .aon (hp _ (by simp))
  have h3 : t.mem = s.mem := h .mem (hp _ (by simp))
  simp only [standing, h1, h2, h3]

theorem standing_foldl {α : Type} (f : State → α → State) (hf : ∀ a x, standing (f a x) = standing a) (l : List α) (s : State) :
    standing (l.foldl f s) = standing s := by
  induction l generalizing s with
  | nil => rfl
  | cons x r ih => rw [List.foldl_cons, ih, hf]

@[simp] theorem standing_foldl' {α : Type} {f : State → α → State} {l : List α} {s : State} (hf : ∀ a x, standing (f a x) = standing a) :
    standing (l.foldl f s) = standing s := standing_foldl f hf l s

@[simp] theorem modMem_standing (s : State) {f : Memory → Memory} (h : (f s.mem).cells = s.mem.cells) :
    standing (s.modMem f) = standing s := by
  simp only [standing, State.modMem, h]

@[simp] theorem standing_ite (c : Prop) [Decidable c] (s t : State) :
    standing (if c then s else t) = if c then standing s else standing t :=
  apply_ite standing c s t

/-! ### The state's operations -/

@[simp] theorem modBay_standing (s : State) (b : Nat) (f : Bay → Bay) : standing (s.modBay b f) = standing s :=
  standing_of_changesOnly (modBay_changesOnly _ _ _) (by decide)
@[simp] theorem modBeam_standing (s : State) (g : Nat) (f : Beam → Beam) : standing (s.modBeam g f) = standing s :=
  standing_of_changesOnly (modBeam_changesOnly _ _ _) (by decide)
@[simp] theorem modBus_standing (s : State) (g : Nat) (f : Bus → Bus) : standing (s.modBus g f) = standing s :=
  standing_of_changesOnly (modBus_changesOnly _ _ _) (by decide)
@[simp] theorem modSlot_standing (s : State) (i : Nat) (f : GSlot → GSlot) : standing (s.modSlot i f) = standing s :=
  standing_of_changesOnly (modSlot_changesOnly _ _ _) (by decide)
@[simp] theorem modQp_standing (s : State) (q : QpId) (f : Qp → Qp) : standing (s.modQp q f) = standing s :=
  standing_of_changesOnly (modQp_changesOnly _ _ _) (by decide)
@[simp] theorem send_standing (s : State) (o : Output) : standing (s.send o) = standing s :=
  standing_of_changesOnly (send_changesOnly _ _) (by decide)
@[simp] theorem modDisc_standing (s : State) (b : Nat) (f : Disc → Disc) : standing (s.modDisc b f) = standing s := (rfl)
@[simp] theorem modWrite_standing (s : State) (b : Nat) (f : WriteSess → WriteSess) : standing (s.modWrite b f) = standing s := (rfl)
@[simp] theorem modChan_standing (s : State) (b : Nat) (f : Channel → Channel) : standing (s.modChan b f) = standing s := (rfl)
@[simp] theorem modServo_standing (s : State) (b : Nat) (f : Servo → Servo) : standing (s.modServo b f) = standing s := (rfl)
@[simp] theorem modSpin_standing (s : State) (b : Nat) (f : Spindle → Spindle) : standing (s.modSpin b f) = standing s := (rfl)
@[simp] theorem modSled_standing (s : State) (b : Nat) (f : Sled → Sled) : standing (s.modSled b f) = standing s := (rfl)
@[simp] theorem modWelt_standing (s : State) (b : Nat) (f : Welt → Welt) : standing (s.modWelt b f) = standing s := (rfl)
@[simp] theorem event_standing (s : State) (code : Nat) (payload : List Byte) : standing (s.event code payload) = standing s :=
  standing_of_changesOnly (event_changesOnly _ _ _) (by decide)
@[simp] theorem logFull_standing (s : State) (due : Bool) (page idx : Nat) : standing (s.logFull due page idx) = standing s :=
  standing_of_changesOnly (logFull_changesOnly _ _ _ _) (by decide)
@[simp] theorem log_standing (s : State) (pg : Page) (code bay detail : Nat) : standing (s.log pg code bay detail) = standing s :=
  standing_of_changesOnly (log_changesOnly _ _ _ _ _) (by decide)
@[simp] theorem logFree_standing (s : State) (pg : Page) (code bay : Nat) : standing (s.logFree pg code bay) = standing s :=
  standing_of_changesOnly (logFree_changesOnly _ _ _ _) (by decide)
@[simp] theorem bayLog_standing (s : State) (b code detail : Nat) : standing (s.bayLog b code detail) = standing s := by
  unfold State.bayLog
  simp
@[simp] theorem bayLogFree_standing (s : State) (b code : Nat) : standing (s.bayLogFree b code) = standing s := by
  unfold State.bayLogFree
  simp
@[simp] theorem thermLog_standing (s : State) (kind sensor group : Nat) : standing (s.thermLog kind sensor group) = standing s :=
  standing_of_changesOnly (thermLog_changesOnly _ _ _ _) (by decide)
@[simp] theorem queueFrame_standing (s : State) (q : QpId) (ftype tag : Nat) (body : List Byte) :
    standing (s.queueFrame q ftype tag body) = standing s :=
  standing_of_changesOnly (queueFrame_changesOnly _ _ _ _ _) (by decide)
@[simp] theorem postCqe_standing (s : State) (q : QpId) (tag rdepth status cflags aux16 aux64 : Nat) :
    standing (s.postCqe q tag rdepth status cflags aux16 aux64) = standing s :=
  (rfl)
@[simp] theorem modCmd_standing (s : State) (q : QpId) (tag : Nat) (f : Cmd → Cmd) : standing (s.modCmd q tag f) = standing s :=
  standing_of_changesOnly (modCmd_changesOnly _ _ _ _) (by decide)
@[simp] theorem dropCmd_standing (s : State) (q : QpId) (tag : Nat) : standing (s.dropCmd q tag) = standing s :=
  standing_of_changesOnly (dropCmd_changesOnly _ _ _) (by decide)
@[simp] theorem finish_standing (s : State) (q : QpId) (tag rdepth status cflags aux16 aux64 : Nat) :
    standing (s.finish q tag rdepth status cflags aux16 aux64) = standing s :=
  standing_of_changesOnly (finish_changesOnly _ _ _ _ _ _ _ _) (by decide)
@[simp] theorem finishFree_standing (s : State) (q : QpId) (tag status cflags aux16 : Nat) :
    standing (s.finishFree q tag status cflags aux16) = standing s :=
  standing_of_changesOnly (finishFree_changesOnly _ _ _ _ _ _) (by decide)
@[simp] theorem modeEvent_standing (s : State) (old new_ : Mode) (cause : Nat) (drained : Bool) :
    standing (s.modeEvent old new_ cause drained) = standing s := by
  unfold State.modeEvent
  simp
@[simp] theorem sendLane_standing (s : State) (b : BayId) (lane : Fin 2) (bs : List LaneBlock) :
    standing (s.sendLane b lane bs) = standing s :=
  standing_of_changesOnly (sendLane_changesOnly _ _ _ _) (by decide)
@[simp] theorem sendFrame_standing (s : State) (b : BayId) (l : List Byte) : standing (s.sendFrame b l) = standing s := (rfl)
@[simp] theorem idleLanes_standing (s : State) (b : BayId) (pos : Nat) : standing (s.idleLanes b pos) = standing s :=
  standing_of_changesOnly (idleLanes_changesOnly _ _ _) (by decide)
@[simp] theorem urgent_standing (s : State) (b code : Nat) : standing (s.urgent b code) = standing s :=
  standing_of_changesOnly (urgent_changesOnly _ _ _) (by decide)
@[simp] theorem lasersOff_standing (s : State) (b : Nat) : standing (s.lasersOff b) = standing s :=
  standing_of_changesOnly (lasersOff_changesOnly _ _) (by decide)
@[simp] theorem immediateStop_standing (s : State) (b : Nat) : standing (s.immediateStop b) = standing s :=
  standing_of_changesOnly (immediateStop_changesOnly _ _) (by decide)
@[simp] theorem boundaryStop_standing (s : State) (b : Nat) : standing (s.boundaryStop b) = standing s :=
  standing_of_changesOnly (boundaryStop_changesOnly _ _) (by decide)
@[simp] theorem slotEndStop_standing (s : State) (b : Nat) : standing (s.slotEndStop b) = standing s :=
  standing_of_changesOnly (slotEndStop_changesOnly _ _) (by decide)
@[simp] theorem dropOffsets_standing (s : State) (b : Nat) : standing (s.dropOffsets b) = standing s :=
  standing_of_changesOnly (dropOffsets_changesOnly _ _) (by decide)
@[simp] theorem dropJob_standing (s : State) (b : Nat) (a : SlotAddr) : standing (s.dropJob b a) = standing s := (rfl)
@[simp] theorem pushJob_standing (s : State) (j : LdpcJob) : standing (s.pushJob j) = standing s :=
  standing_of_changesOnly (pushJob_changesOnly _ _) (by decide)
@[simp] theorem sendSeam_standing (s : State) (b : Nat) (x : SeamSlot) (ys : List Int) : standing (s.sendSeam b x ys) = standing s := (rfl)
@[simp] theorem dropSeam_standing (s : State) (b : Nat) : standing (s.dropSeam b) = standing s :=
  standing_of_changesOnly (dropSeam_changesOnly _ _) (by decide)
@[simp] theorem endRun_standing (s : State) (b : Nat) : standing (s.endRun b) = standing s :=
  standing_of_changesOnly (endRun_changesOnly _ _) (by decide)
@[simp] theorem cutRun_standing (s : State) (b : Nat) : standing (s.cutRun b) = standing s :=
  standing_of_changesOnly (cutRun_changesOnly _ _) (by decide)
@[simp] theorem modCourse_standing (s : State) (handle : Nat) (f : Course → Course) : standing (s.modCourse handle f) = standing s :=
  standing_of_changesOnly (modCourse_changesOnly _ _ _) (by decide)
@[simp] theorem giveUpAppend_standing (s : State) (c : Cmd) : standing (s.giveUpAppend c) = standing s :=
  standing_of_changesOnly (giveUpAppend_changesOnly _ _) (by decide)
@[simp] theorem endWait_standing (s : State) (w : CloseWait) (status firstLost : Nat) :
    standing (s.endWait w status firstLost) = standing s :=
  standing_of_changesOnly (endWait_changesOnly _ _ _ _) (by decide)
@[simp] theorem abortAppends_standing (s : State) (handle : Nat) : standing (s.abortAppends handle) = standing s :=
  standing_of_changesOnly (abortAppends_changesOnly _ _) (by decide)
@[simp] theorem stopCourse_standing (s : State) (handle : Nat) (e : CourseEnd) : standing (s.stopCourse handle e) = standing s :=
  standing_of_changesOnly (stopCourse_changesOnly _ _ _) (by decide)
@[simp] theorem forceSet_standing (s : State) (slot g : Nat) : standing (s.forceSet slot g) = standing s :=
  standing_of_changesOnly (forceSet_changesOnly _ _ _) (by decide)
@[simp] theorem dropOutputs_standing (s : State) (b : Nat) (zero : Bool) : standing (s.dropOutputs b zero) = standing s :=
  standing_of_changesOnly (dropOutputs_changesOnly _ _ _) (by decide)
@[simp] theorem discNeeded_standing (s : State) (r : DiscReq) (reason : Nat) : standing (discNeeded s r reason) = standing s := by
  unfold discNeeded
  simp
@[simp] theorem failMount_standing (s : State) (b reason : Nat) : standing (s.failMount b reason) = standing s :=
  standing_of_changesOnly (failMount_changesOnly _ _ _) (by decide)
@[simp] theorem safeEntry_standing (s : State) (b code : Nat) : standing (s.safeEntry b code) = standing s :=
  standing_of_changesOnly (safeEntry_changesOnly _ _ _) (by decide)
@[simp] theorem enterSafe_standing (s : State) (b code : Nat) : standing (s.enterSafe b code) = standing s :=
  standing_of_changesOnly (enterSafe_changesOnly _ _ _) (by decide)
@[simp] theorem enterSafeAt_standing (s : State) (b code detail : Nat) : standing (s.enterSafeAt b code detail) = standing s := by
  unfold State.enterSafeAt
  (repeat' split) <;> simp
@[simp] theorem enterHold_standing (s : State) (b : Nat) : standing (s.enterHold b) = standing s :=
  standing_of_changesOnly (enterHold_changesOnly _ _) (by decide)
@[simp] theorem enterSpindown_standing (s : State) (b : Nat) : standing (s.enterSpindown b) = standing s :=
  standing_of_changesOnly (enterSpindown_changesOnly _ _) (by decide)
@[simp] theorem girthLoad_standing (s : State) : standing (girthLoad s) = standing s :=
  standing_of_changesOnly (girthLoad_changesOnly _) (by decide)
@[simp] theorem startTraining_standing (s : State) (b : Nat) : standing (startTraining s b) = standing s :=
  standing_of_changesOnly (startTraining_changesOnly _ _) (by decide)
@[simp] theorem safeAll_standing (s : State) : standing (s.safeAll) = standing s := standing_foldl _ (fun a b => by
  split <;> simp) _ _
@[simp] theorem stopCourses_standing (s : State) : standing (s.stopCourses) = standing s := by
  unfold State.stopCourses
  simp

/-! ### The Girth bus -/

@[simp] theorem girthCommit_standing (s : State) : standing (girthCommit s) = standing s := (standing_foldl _ (fun a e => by
  dsimp only
  split <;> simp) _ _).trans (by simp)
@[simp] theorem girthApply_standing (s : State) : standing (girthApply s) = standing s :=
  standing_of_changesOnly (girthApply_changesOnly _) (by decide)

/-! ### The Welt links -/

@[simp] theorem failTraining_standing (s : State) (b : Nat) : standing (failTraining s b) = standing s :=
  standing_of_changesOnly (failTraining_changesOnly _ _) (by decide)
@[simp] theorem judgeEchoes_standing (s : State) (b : Nat) : standing (judgeEchoes s b) = standing s :=
  standing_of_changesOnly (judgeEchoes_changesOnly _ _) (by decide)
@[simp] theorem headTemperature_standing (s : State) (b : Nat) (t : Option Int) : standing (headTemperature s b t) = standing s := by
  unfold headTemperature
  simp
@[simp] theorem missUplink_standing (s : State) (b : Nat) : standing (missUplink s b) = standing s := by
  unfold missUplink
  simp

/-! ### The servos -/

@[simp] theorem girthWrite_standing (s : State) (id idx : Nat) (v : Int) : standing (s.girthWrite id idx v) = standing s :=
  standing_of_changesOnly (girthWrite_changesOnly _ _ _ _) (by decide)
@[simp] theorem writeOffsets_standing (s : State) (b : Nat) : standing (writeOffsets s b) = standing s := (rfl)
@[simp] theorem normSet_standing (s : State) (b slot set_ : Nat) (l : Loop) (pp : Nat) :
    standing (normSet s b slot set_ l pp) = standing s :=
  standing_of_changesOnly (normSet_changesOnly _ _ _ _ _ _) (by decide)
@[simp] theorem normFocus_standing (s : State) (b layer : Nat) : standing (normFocus s b layer) = standing s := by
  unfold normFocus
  (repeat' split) <;> simp
@[simp] theorem normTracking_standing (s : State) (b : Nat) : standing (normTracking s b) = standing s :=
  standing_of_changesOnly (normTracking_changesOnly _ _) (by decide)
@[simp] theorem lasersOn_standing (s : State) (b layer : Nat) : standing (lasersOn s b layer) = standing s :=
  standing_of_changesOnly (lasersOn_changesOnly _ _ _) (by decide)
@[simp] theorem holdOthers_standing (s : State) (b : Nat) (h : Bool) : standing (holdOthers s b h) = standing s := (rfl)
@[simp] theorem holdFocus_standing (s : State) (b : Nat) (h : Bool) : standing (holdFocus s b h) = standing s := (rfl)
@[simp] theorem enterFocus_standing (s : State) (b want : Nat) : standing (enterFocus s b want) = standing s :=
  standing_of_changesOnly (enterFocus_changesOnly _ _ _) (by decide)
@[simp] theorem startTracking_standing (s : State) (b : Nat) : standing (startTracking s b) = standing s := by
  unfold startTracking
  simp
@[simp] theorem startJump_standing (s : State) (b final : Nat) : standing (startJump s b final) = standing s := by
  unfold startJump
  simp
@[simp] theorem regFailure_standing (s : State) (b : Nat) : standing (regFailure s b) = standing s := by
  unfold regFailure
  simp
@[simp] theorem runJump_standing (s : State) (b : Nat) : standing (runJump s b) = standing s :=
  standing_of_changesOnly (runJump_changesOnly _ _) (by decide)
@[simp] theorem runTrackJump_standing (s : State) (b : Nat) : standing (runTrackJump s b) = standing s :=
  standing_of_changesOnly (runTrackJump_changesOnly _ _) (by decide)
@[simp] theorem servoStitch_standing (s : State) (b : Nat) : standing (servoStitch s b) = standing s :=
  standing_of_changesOnly (servoStitch_changesOnly _ _) (by decide)
@[simp] theorem startTrackJump_standing (s : State) (b : Nat) (n : Int) : standing (startTrackJump s b n) = standing s := by
  unfold startTrackJump
  simp
@[simp] theorem sledMove_standing (s : State) (b um : Nat) : standing (sledMove s b um) = standing s := (rfl)
@[simp] theorem seekOn_standing (s : State) (b : Nat) (c : Int) : standing (seekOn s b c) = standing s := by
  unfold seekOn
  split <;> simp

/-! ### The spindles -/

@[simp] theorem toLoaded_standing (s : State) (b : Nat) : standing (toLoaded s b) = standing s :=
  standing_of_changesOnly (toLoaded_changesOnly _ _) (by decide)
@[simp] theorem endReleases_standing (s : State) (b : Nat) : standing (endReleases s b) = standing s :=
  standing_of_changesOnly (endReleases_changesOnly _ _) (by decide)
@[simp] theorem settleBay_standing (s : State) (b : Nat) : standing (settleBay s b) = standing s :=
  standing_of_changesOnly (settleBay_changesOnly _ _) (by decide)
@[simp] theorem presenceLost_standing (s : State) (b : Nat) : standing (presenceLost s b) = standing s := by
  unfold presenceLost
  dsimp only
  (repeat' split) <;> simp
@[simp] theorem failStart_standing (s : State) (b : Nat) : standing (failStart s b) = standing s := by
  unfold failStart
  simp
@[simp] theorem enterSpinSlot_standing (s : State) (b : Nat) (demand : Int) : standing (enterSpinSlot s b demand) = standing s := (rfl)
@[simp] theorem closeLoop_standing (s : State) (b : Nat) (rpm : Nat) (demand : Int) : standing (closeLoop s b rpm demand) = standing s :=
  (rfl)
@[simp] theorem shortBrake_standing (s : State) (b : Nat) : standing (shortBrake s b) = standing s := (rfl)
@[simp] theorem updateRegen_standing (s : State) (g : Nat) : standing (updateRegen s g) = standing s :=
  standing_of_changesOnly (updateRegen_changesOnly _ _) (by decide)
@[simp] theorem busSeen_standing (s : State) (g mv : Nat) : standing (busSeen s g mv) = standing s := (rfl)
@[simp] theorem bridgesOff_standing (s : State) (g code : Nat) : standing (bridgesOff s g code) = standing s :=
  standing_of_changesOnly (bridgesOff_changesOnly _ _ _) (by decide)

/-! ### The sleds -/

@[simp] theorem startHoming_standing (s : State) (b : Nat) : standing (startHoming s b) = standing s := (rfl)

/-! ### The states of a bay -/

@[simp] theorem safeRestart_standing (s : State) (b : Nat) : standing (safeRestart s b) = standing s := by
  unfold safeRestart
  simp

/-! ### DRAM requests -/

@[simp] theorem modChanD_standing (s : State) (c : Nat) (f : DramChan → DramChan) : standing (s.modChanD c f) = standing s := by
  unfold State.modChanD
  (repeat' split) <;> simp
@[simp] theorem errNote_standing (s : State) (idx addr cls kind wher : Nat) : standing (s.errNote idx addr cls kind wher) = standing s :=
  standing_of_changesOnly (errNote_changesOnly _ _ _ _ _ _) (by decide)
@[simp] theorem dramErr_standing (s : State) (pa : Nat) (batten : Bool) (kind : Nat) :
    standing (s.dramErr pa batten kind) = standing s := by
  unfold State.dramErr
  simp
@[simp] theorem request_standing (s : State) (r : DramReq) : standing (s.request r) = standing s := by
  unfold State.request
  simp
@[simp] theorem dramRead_standing (s : State) (line cls : Nat) (c : Client) (fill : Bool) :
    standing (s.dramRead line cls c fill) = standing s := by
  unfold State.dramRead
  simp
@[simp] theorem dramWrite_standing (s : State) (line off : Nat) (data : List Byte) (poison : Bool) (cls : Nat) (c : Client) :
    standing (s.dramWrite line off data poison cls c) = standing s := by
  unfold State.dramWrite
  simp

/-! ### Caches and memory errors -/

@[simp] theorem modCache_standing (s : State) (k : Cache) (f : CacheState → CacheState) : standing (s.modCache k f) = standing s := by
  unfold State.modCache
  (repeat' split) <;> simp
@[simp] theorem toDram_standing (s : State) (l : CacheLine) : standing (s.toDram l) = standing s := by
  unfold State.toDram
  simp
@[simp] theorem toL2_standing (s : State) (l : CacheLine) : standing (s.toL2 l) = standing s := by
  unfold State.toL2
  (repeat' split) <;> simp
@[simp] theorem cleanWay_standing (s : State) (k : Cache) (i : Nat) : standing (cleanWay s k i) = standing s := by
  unfold cleanWay
  (repeat' split) <;> simp
@[simp] theorem dropWay_standing (s : State) (k : Cache) (i : Nat) : standing (dropWay s k i) = standing s := by
  unfold dropWay
  simp
@[simp] theorem maintLine_standing (o : MaintOp) (k : Cache) (line : Nat) (s : State) : standing (maintLine o k line s) = standing s := by
  unfold maintLine
  (repeat' split) <;> simp
@[simp] theorem maintL2_standing (o : MaintOp) (line : Nat) (s : State) : standing (maintL2 o line s) = standing s := by
  unfold maintL2
  (repeat' split) <;> simp
@[simp] theorem setErr_standing (s : State) (k : Cache) : standing (setErr s k) = standing s := by
  unfold setErr
  simp
@[simp] theorem maintPa_standing (o : MaintOp) (target line : Nat) (s : State) : standing (maintPa o target line s) = standing s := by
  unfold maintPa
  (repeat' split) <;> simp
@[simp] theorem maintAsk_standing (r : MaintReq) (s : State) : standing (maintAsk r s) = standing s := by
  unfold maintAsk
  (repeat' split) <;> simp
@[simp] theorem releaseMaint_standing (s : State) : standing (releaseMaint s) = standing s := by
  unfold releaseMaint
  simp
@[simp] theorem maint_standing (o : MaintOp) (core : Fin 2) (w : Word) (s : State) : standing (maint o core w s) = standing s := by
  unfold maint
  dsimp only
  (repeat' split) <;> simp
@[simp] theorem cmWrite_standing (s : State) (t : State) (h : standing t = standing s) : standing (cmWrite s t) = standing s := by
  unfold cmWrite
  simp [h]
@[simp] theorem invalidateCache_standing (s : State) (k : Cache) : standing (invalidateCache s k) = standing s := by
  unfold invalidateCache
  simp
@[simp] theorem walkCache_standing (s : State) (k : Cache) : standing (walkCache s k) = standing s := by
  unfold walkCache
  simp
@[simp] theorem cacheEnable_standing (s : State) : standing (cacheEnable s) = standing s := by
  unfold cacheEnable
  simp
@[simp] theorem restartCaches_standing (s : State) (l2err : Bool) (skip : Option (Cache × Nat)) :
    standing (restartCaches s l2err skip) = standing s := by
  unfold restartCaches
  (repeat' split) <;> simp
@[simp] theorem cacheFatal_standing (s : State) (k : Cache) (tag : Bool) : standing (cacheFatal s k tag) = standing s := by
  unfold cacheFatal
  simp
@[simp] theorem cacheNote_standing (s : State) (k : Cache) (cls kind : Nat) (tag : Bool) :
    standing (cacheNote s k cls kind tag) = standing s := by
  unfold cacheNote
  simp
@[simp] theorem queueWriteBack_standing (s : State) (line : Nat) (data : List Byte) (c : Client) :
    standing (queueWriteBack s line data c) = standing s := by
  unfold queueWriteBack
  (repeat' split) <;> simp
@[simp] theorem noteCorrected_standing (s : State) (line : Nat) (batten : Bool) (k : LineCheck) (burnish : Bool) :
    standing (noteCorrected s line batten k burnish) = standing s := by
  unfold noteCorrected
  (repeat' split) <;> simp
@[simp] theorem peerLost_standing (s : State) (q : QpId) : standing (peerLost s q) = standing s := by
  unfold peerLost
  (repeat' split) <;> simp
@[simp] theorem deleteQp_standing (s : State) (q : QpId) : standing (deleteQp s q) = standing s := by
  unfold deleteQp
  (repeat' split) <;> simp
@[simp] theorem startRetrain_standing (s : State) (c : Nat) : standing (startRetrain s c) = standing s := by
  unfold startRetrain
  simp
@[simp] theorem dramSpan_standing (s : State) (c : Nat) (band : Nat) (drift : Int) : standing (dramSpan s c band drift) = standing s := by
  unfold dramSpan
  simp

/-! ### Accesses -/

@[simp] theorem evictWay_standing (s : State) (k : Cache) (i : Nat) : standing (evictWay s k i) = standing s := by
  unfold evictWay
  (repeat' split) <;> simp
@[simp] theorem install_standing (s : State) (k : Cache) (n line : Nat) (data : List Byte) (poison : Bool) :
    standing (install s k n line data poison) = standing s := by
  unfold install
  simp
@[simp] theorem recallL1_standing (s : State) (line : Nat) (keep : Option Cache) (drop : Bool) :
    standing (recallL1 s line keep drop) = standing s := by
  unfold recallL1
  (repeat' split) <;> simp
@[simp] theorem storeWay_standing (s : State) (k : Cache) (i off : Nat) (data : List Byte) :
    standing (storeWay s k i off data) = standing s := by
  unfold storeWay
  simp
@[simp] theorem storeHeld_standing (s : State) (k : Cache) (line off : Nat) (data : List Byte) :
    standing (storeHeld s k line off data) = standing s := by
  unfold storeHeld
  (repeat' split) <;> simp
@[simp] theorem uncached_standing (s : State) (a : MemAccess) : standing (uncached s a) = standing s := by
  unfold uncached
  (repeat' split) <;> simp
@[simp] theorem beginFill_standing (s : State) (a : MemAccess) (l1 : Option Cache) (hw : Bool) :
    standing (beginFill s a l1 hw) = standing s := by
  unfold beginFill
  simp
@[simp] theorem retire_standing (s : State) (f : Fill) (data : List Byte) : standing (retire s f data) = standing s := by
  unfold retire
  dsimp only
  (repeat' split) <;> simp
@[simp] theorem raisePanic_standing (s : State) : standing (raisePanic s) = standing s := (rfl)

/-! ### Power -/

@[simp] theorem straps_standing (s : State) (smbAddr : Fin 8) (dramCfg : Fin 4) : standing (s.straps smbAddr dramCfg) = standing s := (rfl)

/-! ### The stitch boundary -/

@[simp] theorem motionSample_standing (s : State) (m : MotionSample) : standing (motionSample s m) = standing s :=
  standing_of_changesOnly (motionSample_changesOnly _ _) (by decide)
@[simp] theorem sledBoundary_standing (s : State) (b : Nat) : standing (sledBoundary s b) = standing s :=
  standing_of_changesOnly (sledBoundary_changesOnly _ _) (by decide)
@[simp] theorem weltStitch_standing (s0 : State) (b : BayId) : standing (weltStitch s0 b) = standing s0 :=
  standing_of_changesOnly (weltStitch_changesOnly _ _) (by decide)
@[simp] theorem idleCount_standing (s : State) (b : Nat) : standing (idleCount s b) = standing s :=
  standing_of_changesOnly (idleCount_changesOnly _ _) (by decide)
@[simp] theorem followCode_standing (s : State) (b : Nat) : standing (followCode s b) = standing s :=
  standing_of_changesOnly (followCode_changesOnly _ _) (by decide)
@[simp] theorem bayStitch_standing (s : State) (b : BayId) : standing (bayStitch s b) = standing s :=
  standing_of_changesOnly (bayStitch_changesOnly _ _) (by decide)
@[simp] theorem tick_standing (s : State) : standing (s.tick) = standing s := (rfl)
@[simp] theorem overrunHold_standing (s : State) (b : Nat) : standing (overrunHold s b) = standing s :=
  standing_of_changesOnly (overrunHold_changesOnly _ _) (by decide)
@[simp] theorem girthBoundary_standing (s : State) : standing (girthBoundary s) = standing s :=
  standing_of_changesOnly (girthBoundary_changesOnly _) (by decide)

/-! ### The registers -/

@[simp] theorem reads_standing (s : State) (v : Nat) : standing (s.reads v) = standing s := (rfl)
@[simp] theorem modPort_standing (s : State) (p : Port) (f : PortState → PortState) : standing (s.modPort p f) = standing s :=
  standing_of_changesOnly (modPort_changesOnly _ _ _) (by decide)

/-! ### The ring -/

@[simp] theorem modPrio_standing (s : State) (p : Port) (pcp : Nat) (f : PrioState → PrioState) :
    standing (s.modPrio p pcp f) = standing s :=
  standing_of_changesOnly (modPrio_changesOnly _ _ _ _) (by decide)
@[simp] theorem ringDrop_standing (s : State) (p : Port) : standing (s.ringDrop p) = standing s :=
  standing_of_changesOnly (ringDrop_changesOnly _ _) (by decide)
@[simp] theorem ringBad_standing (s : State) (p : Port) : standing (s.ringBad p) = standing s := by
  unfold State.ringBad
  simp
@[simp] theorem pfcCheck_standing (s : State) (p : Port) (pr : Prio) : standing (pfcCheck s p pr) = standing s :=
  standing_of_changesOnly (pfcCheck_changesOnly _ _ _) (by decide)
@[simp] theorem pfcAll_standing (s : State) : standing (pfcAll s) = standing s := standing_of_changesOnly (pfcAll_changesOnly _) (by decide)
@[simp] theorem egress_standing (s : State) (p : Port) (f : Frame) : standing (egress s p f) = standing s := by
  unfold egress
  (repeat' split) <;> simp
@[simp] theorem turnBack_standing (s : State) (p : Port) (f : Frame) : standing (turnBack s p f) = standing s := by
  unfold turnBack
  (repeat' split) <;> simp
@[simp] theorem leave_standing (s : State) (p : Port) (f : Frame) : standing (leave s p f) = standing s := by
  unfold leave
  (repeat' split) <;> simp
@[simp] theorem forward_standing (s : State) (f : Frame) : standing (forward s f) = standing s := by
  unfold forward
  (repeat' split) <;> simp
@[simp] theorem ownEgress_standing (s : State) (p : Port) (f : TxFrame) : standing (ownEgress s p f) = standing s :=
  standing_of_changesOnly (ownEgress_changesOnly _ _ _) (by decide)
@[simp] theorem ownLeave_standing (s : State) (p : Port) (f : TxFrame) : standing (ownLeave s p f) = standing s :=
  standing_of_changesOnly (ownLeave_changesOnly _ _ _) (by decide)
@[simp] theorem drainPrio_standing (s : State) (p : Port) (pcp : Nat) : standing (drainPrio s p pcp) = standing s := by
  unfold drainPrio
  simp
@[simp] theorem drain_standing (s : State) (p : Port) : standing (drain s p) = standing s := by
  unfold drain
  simp
@[simp] theorem broadcast_standing (s : State) (ftype : Nat) (body : List Byte) : standing (broadcast s ftype body) = standing s := by
  unfold broadcast
  simp
@[simp] theorem ringEvent_standing (s : State) (code : Nat) (p : Port) (old new_ : Nat) :
    standing (s.ringEvent code p old new_) = standing s :=
  standing_of_changesOnly (ringEvent_changesOnly _ _ _ _ _) (by decide)
@[simp] theorem sendRingEvent_standing (s : State) (e : RingEvent) : standing (sendRingEvent s e) = standing s :=
  standing_of_changesOnly (sendRingEvent_changesOnly _ _) (by decide)
@[simp] theorem ringEventSpan_standing (s : State) : standing (ringEventSpan s) = standing s := by
  unfold ringEventSpan
  (repeat' split) <;> simp
@[simp] theorem untap_standing (s : State) : standing (untap s) = standing s := standing_of_changesOnly (untap_changesOnly _) (by decide)
@[simp] theorem selfFault_standing (s : State) (p : Port) : standing (selfFault s p) = standing s := by
  unfold selfFault
  (repeat' split) <;> simp
@[simp] theorem mctpAnswer_standing (s : State) (cmd : Nat) (inst : Byte) (cc : Nat) (body : List Byte) :
    standing (mctpAnswer s cmd inst cc body) = standing s :=
  standing_of_changesOnly (mctpAnswer_changesOnly _ _ _ _ _) (by decide)
@[simp] theorem tapAnswer_standing (s : State) (inst : Byte) (status : Nat) : standing (tapAnswer s inst status) = standing s :=
  standing_of_changesOnly (tapAnswer_changesOnly _ _ _) (by decide)
@[simp] theorem tapOn_standing (s : State) (inst node : Byte) (seq0 nonce : Word) : standing (tapOn s inst node seq0 nonce) = standing s :=
  standing_of_changesOnly (tapOn_changesOnly _ _ _ _ _) (by decide)
@[simp] theorem spliceStep_standing (s : State) : standing (spliceStep s) = standing s := by
  unfold spliceStep
  (repeat' split) <;> simp
@[simp] theorem noteBroadcast_standing (s : State) (f : Frame) : standing (noteBroadcast s f) = standing s :=
  standing_of_changesOnly (noteBroadcast_changesOnly _ _) (by decide)
@[simp] theorem learn_standing (s : State) (f : Frame) : standing (learn s f) = standing s :=
  standing_of_changesOnly (learn_changesOnly _ _) (by decide)
@[simp] theorem receive_standing (s : State) (f : Frame) (take : State → State) (h : ∀ a, standing (take a) = standing a) :
    standing (receive s f take) = standing s := by
  unfold receive
  split <;> simp [h]
@[simp] theorem takeMap_standing (s : State) (m : RingMap) : standing (takeMap s m) = standing s :=
  standing_of_changesOnly (takeMap_changesOnly _ _) (by decide)
@[simp] theorem unpause_standing (s : State) (p : Port) (pr : Prio) : standing (unpause s p pr) = standing s := by
  unfold unpause
  (repeat' split) <;> simp
@[simp] theorem wrapPort_standing (s : State) (p : Port) : standing (wrapPort s p) = standing s :=
  standing_of_changesOnly (wrapPort_changesOnly _ _) (by decide)
@[simp] theorem sendHeartbeat_standing (s : State) (p : Port) : standing (sendHeartbeat s p) = standing s := by
  unfold sendHeartbeat
  simp
@[simp] theorem missSpan_standing (s : State) (p : Port) : standing (missSpan s p) = standing s := by
  unfold missSpan
  simp
@[simp] theorem goodHeartbeat_standing (s : State) (p : Port) (src : Nat) : standing (goodHeartbeat s p src) = standing s :=
  standing_of_changesOnly (goodHeartbeat_changesOnly _ _ _) (by decide)
@[simp] theorem tryTap_standing (s : State) (inst node : Byte) (seq0 nonce : Word) :
    standing (tryTap s inst node seq0 nonce) = standing s := by
  unfold tryTap
  (repeat' split) <;> simp

/-! ### The sequenced transport -/

@[simp] theorem sendAck_standing (s : State) (q : QpId) (nak : Bool) : standing (sendAck s q nak) = standing s :=
  standing_of_changesOnly (sendAck_changesOnly _ _ _) (by decide)
@[simp] theorem retransmit_standing (s : State) (q : QpId) : standing (retransmit s q) = standing s :=
  standing_of_changesOnly (retransmit_changesOnly _ _) (by decide)
@[simp] theorem reopen_standing (s : State) (q : QpId) : standing (reopen s q) = standing s := by
  unfold reopen
  (repeat' split) <;> simp
@[simp] theorem takeAck_standing (s : State) (f : Frame) (nak : Bool) : standing (takeAck s f nak) = standing s := by
  unfold takeAck
  split <;> simp
@[simp] theorem sequencedNow_standing (s : State) (f : Frame) (store : QpId → State → Option State)
    (h : ∀ q a t, store q a = some t → standing t = standing a) :
    standing (sequencedNow s f store) = standing s := by
  unfold sequencedNow
  split
  · simp
  dsimp only
  split
  · simp
  split
  · split
    · simp
    · next t ht =>
      have hstored : standing t = standing (reopen s _) := h _ _ t (by
        split at ht
        · cases ht
        · exact ht)
      simp [hstored]
  · simp
@[simp] theorem ingestLevel_standing (s : State) : standing (ingestLevel s) = standing s := (rfl)
@[simp] theorem sequenced_standing (s : State) (f : Frame) (draws : List Word) (store : QpId → State → Option State)
    (h : ∀ q a t, store q a = some t → standing t = standing a) :
    standing (sequenced s f draws store) = standing s := by
  unfold sequenced
  simp [sequencedNow_standing s f store h]

theorem eq_or_eq_of_ite_some {α : Type} {p : Prop} [Decidable p] {a b t : α} (h : (if p then some a else some b) = some t) : t = a ∨ t = b := by
  split at h <;> cases h
  · exact .inl rfl
  · exact .inr rfl
theorem storeCmd_some_standing {f : Frame} {q : QpId} {s t : State} (h : storeCmd f q s = some t) : standing t = standing s := by
  unfold storeCmd at h
  dsimp only at h
  (repeat' split at h) <;> cases h <;> simp
theorem memberSeq_some_standing {s : State} {c : Course} {i : Nat} {draws : List Word} {x : Nat × State}
    (h : memberSeq s c i draws = some x) : standing x.2 = standing s := by
  unfold memberSeq at h
  split at h
  · cases h
  split at h
  · cases h; rfl
  · split at h
    · obtain ⟨w, -, rfl⟩ := Option.map_eq_some_iff.1 h
      simp
    · cases h; rfl
  · cases h
theorem bufferSector_some_standing {s t : State} {handle csn tenant key : Nat} {fill : Bool} {draws : List Word} {user : List Byte}
    (h : bufferSector s handle csn tenant key fill draws user = some t) : standing t = standing s := by
  unfold bufferSector at h
  split at h
  · cases h
  dsimp only at h
  split at h
  · next hseq _ =>
    cases h
    exact (modCourse_standing _ _ _).trans (memberSeq_some_standing hseq)
  · cases h
theorem assignRange_some_standing {s : State} {c : Cmd} {x : Nat × State} (h : assignRange s c = some x) : standing x.2 = standing s := by
  unfold assignRange at h
  split at h
  · cases h; rfl
  split at h
  · cases h
  split at h
  · cases h
  · cases h; simp
theorem takeSector_some_standing {port : Port} {q : QpId} {tag : Nat} {draws : List Word} {s t : State} {x : Nat × List Byte}
    (h : takeSector port q tag draws s x = some t) : standing t = standing s := by
  unfold takeSector at h
  split at h
  · cases h; simp
  split at h
  · cases h; simp
  split at h
  · cases h; rfl
  split at h
  · rcases eq_or_eq_of_ite_some h with rfl | rfl <;> simp
  · next hrange =>
    have hassigned := assignRange_some_standing hrange
    split at h
    · cases h
    · next hbuffer =>
      have hbuffered := (bufferSector_some_standing hbuffer).trans hassigned
      dsimp only at h
      split at h <;> cases h <;> simpa using hbuffered
theorem foldStep_some_standing {α : Type} {f : State → α → Option State} (hf : ∀ a x t, f a x = some t → standing t = standing a)
    {l : List α} {s t : State} (h : foldStep f l s = some t) : standing t = standing s := by
  induction l generalizing s with
  | nil => cases h; rfl
  | cons x r ih =>
    unfold foldStep at h
    split at h
    · cases h
    · next hx => exact (ih h).trans (hf _ _ _ hx)
theorem storeData_some_standing {f : Frame} {draws : List Word} {q : QpId} {s t : State} (h : storeData f draws q s = some t) :
    standing t = standing s := by
  unfold storeData at h
  dsimp only at h
  split at h
  · cases h
  split at h
  · split at h
    · cases h; simp
    split at h <;> cases h
    simp
  · split at h
    · split at h
      · cases h; simp
      split at h
      · cases h
      split at h
      · cases h
      · exact (foldStep_some_standing (fun _ _ _ => takeSector_some_standing) h).trans (by simp)
    · split at h <;> cases h
      simp
@[simp] theorem drainIngest_standing (s : State) : standing (drainIngest s) = standing s := by
  have hfold (l : List (Frame × List Word)) (a : State) : standing (l.foldl (fun a e =>
      if e.1.ftype = 1 then sequencedNow a e.1 (storeCmd e.1) else sequencedNow a e.1 (storeData e.1 e.2)) a) = standing a :=
    standing_foldl _ (fun a e => by
      rw [standing_ite, sequencedNow_standing _ _ _ fun _ _ _ => storeCmd_some_standing,
        sequencedNow_standing _ _ _ fun _ _ _ => storeData_some_standing, ite_self]) l a
  unfold drainIngest
  simp [hfold]

/-! ### The ends of admin commands -/

@[simp] theorem sendResponse_standing (s : State) (g : Gateway) (tag : Nat) (resp : List Byte) :
    standing (sendResponse s g tag resp) = standing s :=
  standing_of_changesOnly (sendResponse_changesOnly _ _ _ _) (by decide)
@[simp] theorem adminFinish_standing (s : State) (c : AdminCmd) (status cflags aux16 auxHi : Nat) (resp : List Byte) :
    standing (adminFinish s c status cflags aux16 auxHi resp) = standing s :=
  standing_of_changesOnly (adminFinish_changesOnly _ _ _ _ _ _ _) (by decide)
@[simp] theorem adminEnd_standing (s : State) (c : AdminCmd) (status : Nat) : standing (adminEnd s c status) = standing s :=
  standing_of_changesOnly (adminEnd_changesOnly _ _ _) (by decide)
@[simp] theorem afterCal_standing (s : State) : standing (afterCal s) = standing s := by
  unfold afterCal
  (repeat' split) <;> simp
@[simp] theorem clearPage_standing (s : State) (page idx first n : Nat) : standing (clearPage s page idx first n) = standing s := (rfl)
@[simp] theorem getLog_standing (c : AdminCmd) (s : State) : standing (getLog c s) = standing s := by
  unfold getLog
  dsimp only
  (repeat' split) <;> simp

/-! ### The taking of commands -/

@[simp] theorem endEarly_standing (s : State) (c : Cmd) (status : Nat) : standing (endEarly s c status) = standing s :=
  standing_of_changesOnly (endEarly_changesOnly _ _ _) (by decide)
@[simp] theorem refuseSqe_standing (s : State) (q : QpId) (sqe : DataSqe) (status : Nat) :
    standing (refuseSqe s q sqe status) = standing s :=
  standing_of_changesOnly (refuseSqe_changesOnly _ _ _ _) (by decide)
@[simp] theorem takeData_standing (s : State) (q : QpId) (e : RingEntry) : standing (takeData s q e) = standing s := by
  unfold takeData
  simp
@[simp] theorem takeAdmin_standing (s : State) (g : Gateway) (e : RingEntry) : standing (takeAdmin s g e) = standing s := by
  unfold takeAdmin
  simp

/-! ### Recovery -/

@[simp] theorem modBlock_standing (s : State) (b layer n : Nat) (f : Block → Block) : standing (s.modBlock b layer n f) = standing s :=
  standing_of_changesOnly (modBlock_changesOnly _ _ _ _ _) (by decide)
@[simp] theorem ensureBlock_standing (s : State) (b : BayId) (layer n : Nat) : standing (s.ensureBlock b layer n) = standing s :=
  standing_of_changesOnly (ensureBlock_changesOnly _ _ _ _) (by decide)
@[simp] theorem settle_standing (s : State) (carried : Nat) (p : Cmd → CmdSector → Bool) (f : Cmd → CmdSector → CmdSector) :
    standing (settle s carried p f) = standing s :=
  standing_of_changesOnly (settle_changesOnly _ _ _ _) (by decide)
@[simp] theorem deliver_standing (s : State) (b layer n k : Nat) (bytes : List Byte) (depth carried : Nat) :
    standing (deliver s b layer n k bytes depth carried) = standing s :=
  (rfl)
@[simp] theorem recLog_standing (s : State) (e : RecEntry) : standing (recLog s e) = standing s :=
  standing_of_changesOnly (recLog_changesOnly _ _) (by decide)
@[simp] theorem enterLog_standing (s : State) (e : RecEntry) : standing (enterLog s e) = standing s :=
  standing_of_changesOnly (enterLog_changesOnly _ _) (by decide)
@[simp] theorem modSession_standing (s : State) (course : Nat) (f : Rebuild → Rebuild) : standing (s.modSession course f) = standing s :=
  standing_of_changesOnly (modSession_changesOnly _ _ _) (by decide)
@[simp] theorem discDone_standing (s : State) (r : DiscReq) (code : Nat) : standing (discDone s r code) = standing s :=
  standing_of_changesOnly (discDone_changesOnly _ _ _) (by decide)
@[simp] theorem modReq_standing (s : State) (id : Nat) (f : DiscReq → DiscReq) : standing (s.modReq id f) = standing s := (rfl)
@[simp] theorem askFor_standing (s : State) (r : Rebuild) (i : Nat) : standing (askFor s r i) = standing s :=
  standing_of_changesOnly (askFor_changesOnly _ _ _) (by decide)
@[simp] theorem refreshRequests_standing (s : State) (course : Nat) : standing (refreshRequests s course) = standing s :=
  standing_of_changesOnly (refreshRequests_changesOnly _ _) (by decide)
@[simp] theorem harvest_standing (s : State) (course m : Nat) : standing (harvest s course m) = standing s :=
  standing_of_changesOnly (harvest_changesOnly _ _ _) (by decide)
@[simp] theorem gather_standing (course m : Nat) (ks : List Nat) (x0 : List Nat) (u : State) :
    standing (gather course m ks x0 u) = standing u :=
  standing_of_changesOnly (gather_changesOnly _ _ _ _ _) (by decide)
@[simp] theorem advanceRow_standing (s : State) (course m : Nat) : standing (advanceRow s course m) = standing s :=
  standing_of_changesOnly (advanceRow_changesOnly _ _ _) (by decide)
@[simp] theorem logEntered_standing (s : State) (course : Nat) (t : DiscType) (log : State → Nat → Nat → Nat → State)
    (h : ∀ a m i k, standing (log a m i k) = standing a) :
    standing (logEntered s course t log) = standing s := by
  unfold logEntered
  split <;> simp [h]
@[simp] theorem advanceSession_standing (s : State) (course : Nat) : standing (advanceSession s course) = standing s :=
  standing_of_changesOnly (advanceSession_changesOnly _ _) (by decide)
@[simp] theorem closeSession_standing (s : State) (course : Nat) : standing (closeSession s course) = standing s :=
  standing_of_changesOnly (closeSession_changesOnly _ _) (by decide)
@[simp] theorem openSession_standing (s : State) (course : Nat) : standing (openSession s course) = standing s :=
  standing_of_changesOnly (openSession_changesOnly _ _) (by decide)
@[simp] theorem joinRow_standing (s : State) (course m : Nat) : standing (joinRow s course m) = standing s :=
  standing_of_changesOnly (joinRow_changesOnly _ _ _) (by decide)
@[simp] theorem joinAligned_standing (s : State) (c : Course) (m : Nat) : standing (joinAligned s c m) = standing s :=
  standing_of_changesOnly (joinAligned_changesOnly _ _ _) (by decide)
@[simp] theorem admitAbsent_standing (s0 : State) : standing (admitAbsent s0) = standing s0 :=
  standing_of_changesOnly (admitAbsent_changesOnly _) (by decide)
@[simp] theorem pruneBlocks_standing (s : State) : standing (pruneBlocks s) = standing s :=
  standing_of_changesOnly (pruneBlocks_changesOnly _) (by decide)
@[simp] theorem sessionsStep_standing (s : State) : standing (sessionsStep s) = standing s :=
  standing_of_changesOnly (sessionsStep_changesOnly _) (by decide)
@[simp] theorem keepAligned_standing (s : State) (course m i k : Nat) (o : Solved) :
    standing (keepAligned s course m i k o) = standing s := by
  unfold keepAligned
  (repeat' split) <;> simp
@[simp] theorem endTarget_standing (s0 : State) (course m i k : Nat) (t : DiscType) (o : Solved) :
    standing (endTarget s0 course m i k t o) = standing s0 := by
  unfold endTarget
  dsimp only
  (repeat' split) <;> simp
@[simp] theorem solveRow_standing (s : State) (course m : Nat) : standing (solveRow s course m) = standing s := by
  unfold solveRow
  dsimp only
  (repeat' split) <;> simp

/-! ### Data commands -/

@[simp] theorem endRead_standing (s : State) (c : Cmd) (status : Nat) : standing (endRead s c status) = standing s :=
  standing_of_changesOnly (endRead_changesOnly _ _ _) (by decide)
@[simp] theorem sendSectors_standing (q : QpId) (tag : Nat) (x0 : Nat) (u : State) : standing (sendSectors q tag x0 u) = standing u :=
  standing_of_changesOnly (sendSectors_sends x0 u).frame (by decide)
@[simp] theorem joinBlocks_standing (s : State) (xs : List CmdSector) : standing (joinBlocks s xs) = standing s := by
  unfold joinBlocks
  dsimp only
  refine (standing_foldl _ (fun a x => ?_) _ _).trans (standing_foldl _ (fun a x => ?_) _ _)
  · split
    · rfl
    · split
      · rfl
      · split <;> simp
  · split <;> simp
@[simp] theorem startRead_standing (s : State) (c : Cmd) (xs : List CmdSector) : standing (startRead s c xs) = standing s := by
  unfold startRead
  simp
@[simp] theorem readDisc_standing (s : State) (c : Cmd) : standing (readDisc s c) = standing s := by
  unfold readDisc
  dsimp only
  (repeat' split) <;> simp
@[simp] theorem readCourse_standing (s : State) (c : Cmd) : standing (readCourse s c) = standing s := by
  unfold readCourse
  dsimp only
  (repeat' split) <;> simp
@[simp] theorem freeCourse_standing (s : State) (h : Nat) : standing (freeCourse s h) = standing s :=
  standing_of_changesOnly (freeCourse_changesOnly _ _) (by decide)
@[simp] theorem waitClose_standing (s : State) (c : Cmd) (h : Nat) (w : CloseWait) : standing (waitClose s c h w) = standing s := (rfl)
@[simp] theorem closeCommand_standing (s : State) (c : Cmd) (sealing release : Bool) :
    standing (closeCommand s c sealing release) = standing s := by
  unfold closeCommand
  split <;> simp
@[simp] theorem freshBeams_standing (s : State) (b : Nat) : standing (freshBeams s b) = standing s := by
  unfold freshBeams
  simp
@[simp] theorem adoptDisc_standing (s : State) (b : BayId) (d : Disc) : standing (adoptDisc s b d) = standing s := by
  unfold adoptDisc
  split <;> simp
@[simp] theorem mountDone_standing (s : State) (b : BayId) (d : Disc) : standing (mountDone s b d) = standing s := by
  unfold mountDone
  dsimp only
  (repeat' split) <;> simp
@[simp] theorem openDone_standing (s : State) (key : Nat) : standing (openDone s key) = standing s :=
  standing_of_changesOnly (openDone_changesOnly _ _) (by decide)
@[simp] theorem openFails_standing (s : State) (key status member : Nat) : standing (openFails s key status member) = standing s :=
  standing_of_changesOnly (openFails_changesOnly _ _ _ _) (by decide)
@[simp] theorem abortRuns_standing (before after : State) :
    standing (abortRuns before after) = standing after := standing_foldl _ (fun a b => by
  split <;> simp) _ _
@[simp] theorem abortDisc_standing (s : State) (b : Nat) : standing (abortDisc s b) = standing s :=
  standing_of_changesOnly (abortDisc_changesOnly _ _) (by decide)
@[simp] theorem goRelease_standing (s : State) (b : Nat) (q : QpId) (tag : Nat) : standing (goRelease s b q tag) = standing s :=
  standing_of_changesOnly (goRelease_changesOnly _ _ _ _) (by decide)
@[simp] theorem expire_standing (s : State) (c : Cmd) : standing (expire s c) = standing s := by
  unfold expire
  (repeat' split) <;> simp

/-! ### The ladder -/

@[simp] theorem dropRetry_standing (s : State) (b a : Nat) : standing (dropRetry s b a) = standing s := (rfl)
@[simp] theorem carriedOut_standing (s : State) (b l n step : Nat) : standing (carriedOut s b l n step) = standing s := (rfl)
@[simp] theorem passOver_standing (s : State) (b layer n k step : Nat) : standing (passOver s b layer n k step) = standing s :=
  standing_of_changesOnly (passOver_changesOnly _ _ _ _ _ _) (by decide)
@[simp] theorem passOverBlock_standing (s : State) (b layer n step : Nat) : standing (passOverBlock s b layer n step) = standing s :=
  standing_of_changesOnly (passOverBlock_changesOnly _ _ _ _ _) (by decide)
@[simp] theorem enterBlock_standing (s : State) (b l n step : Nat) : standing (enterBlock s b l n step) = standing s :=
  standing_of_changesOnly (enterBlock_changesOnly _ _ _ _ _) (by decide)
@[simp] theorem toCourse_standing (s : State) (b l n : Nat) : standing (toCourse s b l n) = standing s :=
  standing_of_changesOnly (toCourse_changesOnly _ _ _ _) (by decide)
@[simp] theorem ruleOut_standing (s : State) (b l n : Nat) : standing (ruleOut s b l n) = standing s :=
  standing_of_changesOnly (ruleOut_changesOnly _ _ _ _) (by decide)
@[simp] theorem waitPass_standing (s : State) (b l n st p : Nat) (resuming : Bool) :
    standing (waitPass s b l n st p resuming) = standing s :=
  standing_of_changesOnly (waitPass_changesOnly _ _ _ _ _ _ _) (by decide)
@[simp] theorem toStep6_standing (x0 : Nat) (u : State) (x2 : Nat) (x3 : Nat) (x4 : Nat) (x5 : Nat) :
    standing (toStep6 x0 u x2 x3 x4 x5) = standing u :=
  standing_of_changesOnly (toStep6_changesOnly _ _ _ _ _ _) (by decide)
@[simp] theorem toStep5_standing (s : State) (b l n p : Nat) : standing (toStep5 s b l n p) = standing s :=
  standing_of_changesOnly (toStep5_changesOnly _ _ _ _ _) (by decide)
@[simp] theorem nextPass_standing (s : State) (b l n st p : Nat) : standing (nextPass s b l n st p) = standing s :=
  standing_of_changesOnly (nextPass_changesOnly _ _ _ _ _ _) (by decide)
@[simp] theorem giveUpPass_standing (s : State) (b l n st : Nat) : standing (giveUpPass s b l n st) = standing s := by
  unfold giveUpPass
  (repeat' split) <;> simp
@[simp] theorem noteRecovered_standing (s : State) (b l n k depth : Nat) : standing (noteRecovered s b l n k depth) = standing s :=
  standing_of_changesOnly (noteRecovered_changesOnly _ _ _ _ _ _) (by decide)
@[simp] theorem acceptSector_standing (s : State) (b l n k depth : Nat) (bytes : List Byte) :
    standing (acceptSector s b l n k depth bytes) = standing s := by
  unfold acceptSector
  simp
@[simp] theorem noteEnvelope_standing (s : State) (b : Nat) (r : SlotReport) : standing (noteEnvelope s b r) = standing s := (rfl)
@[simp] theorem thatchStep4_standing (s : State) (b l n st p : Nat) : standing (thatchStep4 s b l n st p) = standing s := by
  unfold thatchStep4
  dsimp only
  (repeat' split) <;> simp
@[simp] theorem blockComplete_standing (s : State) (b l n : Nat) : standing (blockComplete s b l n) = standing s :=
  standing_of_changesOnly (blockComplete_changesOnly _ _ _ _) (by decide)
@[simp] theorem sectorFailed_standing (s : State) (b l n k : Nat) : standing (sectorFailed s b l n k) = standing s := by
  unfold sectorFailed
  dsimp only
  (repeat' split) <;> simp
@[simp] theorem beginStep_standing (s : State) (b l n k step : Nat) : standing (beginStep s b l n k step) = standing s := (rfl)
@[simp] theorem sectorStep_standing (x0 : Nat) (u : State) (x2 : Nat) (x3 : Nat) (x4 : Nat) (x5 : Nat) (x6 : Nat) :
    standing (sectorStep x0 u x2 x3 x4 x5 x6) = standing u :=
  standing_of_changesOnly (sectorStep_keepsRun _ _ _ _ _ _ _).frame (by decide)
@[simp] theorem firstFailed_standing (s : State) (b l n k : Nat) (deferred : Bool) :
    standing (firstFailed s b l n k deferred) = standing s := by
  unfold firstFailed
  (repeat' split) <;> simp
@[simp] theorem stepFailed_standing (s : State) (b l n k : Nat) : standing (stepFailed s b l n k) = standing s :=
  standing_of_changesOnly (stepFailed_keepsRun _ _ _ _ _).frame (by decide)
@[simp] theorem restartSector_standing (b l n : Nat) (s : State) (k : Nat) : standing (restartSector b l n s k) = standing s := by
  unfold restartSector
  split
  · rfl
  dsimp only
  split
  · rfl
  obtain ⟨hsent, hspent⟩ := runStep_changesOnly 80 (beginStep s b l n k _) b l n k
  split
  · next hrun => exact (standing_of_changesOnly (hsent _ hrun) (by decide)).trans (beginStep_standing s b l n k _)
  · rw [sectorStep_standing, standing_of_changesOnly hspent (by decide), beginStep_standing]
@[simp] theorem restartBlock_standing (s : State) (x : Block) : standing (restartBlock s x) = standing s := by
  unfold restartBlock
  (repeat' split) <;> simp
@[simp] theorem passEnd_standing (s : State) (b l n st p : Nat) : standing (passEnd s b l n st p) = standing s := by
  unfold passEnd
  dsimp only
  (repeat' split) <;> simp
@[simp] theorem loseSector_standing (s : State) (b l n k : Nat) : standing (loseSector s b l n k) = standing s := by
  unfold loseSector
  dsimp only
  (repeat' split) <;> simp

/-! ### Mounts and releases -/

@[simp] theorem notMountable_standing (s : State) (b : Nat) : standing (notMountable s b) = standing s := by
  unfold notMountable
  dsimp only
  (repeat' split) <;> simp
@[simp] theorem mountEnds_standing (s : State) (b : BayId) (m : MountProc) (used : Bool) :
    standing (mountEnds s b m used) = standing s := by
  unfold mountEnds
  simp
@[simp] theorem scanEnds_standing (s : State) (b : BayId) (m : MountProc) (used : Bool) : standing (scanEnds s b m used) = standing s := by
  unfold scanEnds
  dsimp only
  (repeat' split) <;> simp
@[simp] theorem nextUpdate_standing (s : State) (b : BayId) (m : MountProc) : standing (nextUpdate s b m) = standing s := by
  unfold nextUpdate
  simp
@[simp] theorem judgeUpdate_standing (s : State) (b : BayId) (m : MountProc) : standing (judgeUpdate s b m) = standing s := by
  unfold judgeUpdate
  dsimp only
  (repeat' split) <;> simp
@[simp] theorem bindingKnown_standing (s : State) (b : BayId) (m : MountProc) : standing (bindingKnown s b m) = standing s := by
  unfold bindingKnown
  (repeat' split) <;> simp
@[simp] theorem trySeed_standing (s : State) (b : BayId) (m : MountProc) (seed : Nat) (p : SlotReport) :
    standing (trySeed s b m seed p) = standing s := by
  unfold trySeed
  simp
@[simp] theorem spareDone_standing (s : State) (b : BayId) (m0 : MountProc) : standing (spareDone s b m0) = standing s := by
  unfold spareDone
  dsimp only
  (repeat' split) <;> simp
@[simp] theorem takeSpare_standing (s : State) (b : BayId) (m : MountProc) (r : SysRead) : standing (takeSpare s b m r) = standing s := by
  unfold takeSpare
  dsimp only
  (repeat' split) <;> simp
@[simp] theorem mountTake_standing (s : State) (b : BayId) (m : MountProc) (spiral slot : Nat) (env : Nat × Nat) (r : SysRead) :
    standing (mountTake s b m spiral slot env r) = standing s := by
  unfold mountTake
  split <;> simp
@[simp] theorem checkTake_standing (s : State) (b : Nat) (r : SysRead) : standing (checkTake s b r) = standing s := by
  unfold checkTake
  dsimp only
  (repeat' split) <;> simp
@[simp] theorem bindTake_standing (s : State) (b : Nat) (r : SysRead) : standing (bindTake s b r) = standing s := by
  unfold bindTake
  split <;> simp
@[simp] theorem sysTake_standing (s : State) (b : BayId) (zone : Zone) (layer spiral slot : Nat) (env : Nat × Nat) (r : SysRead) :
    standing (sysTake s b zone layer spiral slot env r) = standing s := by
  unfold sysTake
  dsimp only
  (repeat' split) <;> simp

/-! ### Read runs -/

@[simp] theorem passSettings_standing (s : State) (b : Nat) (x : Block) : standing (passSettings s b x) = standing s := by
  unfold passSettings
  (repeat' split) <;> simp
@[simp] theorem beginRun_standing (s : State) (b : Nat) (r : Run) : standing (beginRun s b r) = standing s := by
  unfold beginRun
  dsimp only
  (repeat' split) <;> simp
@[simp] theorem findType_standing (s : State) (b : Nat) (o : SlotObs) : standing (findType s b o) = standing s := by
  unfold findType
  dsimp only
  (repeat' split) <;> simp
@[simp] theorem runHere_standing (s : State) (b : Nat) (o : SlotObs) : standing (runHere s b o) = standing s := by
  unfold runHere
  dsimp only
  (repeat' split) <;> simp
@[simp] theorem settleRun_standing (s : State) (b slot : Nat) : standing (settleRun s b slot) = standing s := by
  unfold settleRun
  dsimp only
  (repeat' split) <;> simp

/-! ### Writing -/

@[simp] theorem fillMissing_standing (s : State) (handle : Nat) : standing (fillMissing s handle) = standing s :=
  standing_of_changesOnly (fillMissing_changesOnly _ _) (by decide)
@[simp] theorem noteClose_standing (s : State) (handle : Nat) (idle : Bool) : standing (noteClose s handle idle) = standing s :=
  standing_of_changesOnly (noteClose_changesOnly _ _ _) (by decide)
@[simp] theorem wantRecord_standing (s : State) (b : Nat) (r : List Byte) : standing (wantRecord s b r) = standing s := by
  unfold wantRecord
  simp
@[simp] theorem blockRecord_standing (s : State) (b : Nat) : standing (blockRecord s b) = standing s :=
  standing_of_changesOnly (blockRecord_changesOnly _ _) (by decide)
@[simp] theorem keepRecord_standing (s : State) (b : Nat) : standing (keepRecord s b) = standing s := by
  unfold keepRecord
  (repeat' split) <;> simp
@[simp] theorem bindDisc_standing (s : State) (b : BayId) (c : Course) (seq : Nat) : standing (bindDisc s b c seq) = standing s := by
  unfold bindDisc
  (repeat' split) <;> simp
@[simp] theorem recordUpdate_standing (s : State) (b : BayId) (t : DiscType) (u : DmaUpdate) :
    standing (recordUpdate s b t u) = standing s := by
  unfold recordUpdate
  simp
@[simp] theorem sendSegment_standing (s : State) (b : BayId) : standing (sendSegment s b) = standing s := by
  unfold sendSegment
  simp
@[simp] theorem sendSegments_standing (s : State) (b : BayId) : standing (sendSegments s b) = standing s := by
  unfold sendSegments
  simp
@[simp] theorem feedStream_standing (s : State) (b : BayId) (len : Nat) (cells : List (Nat × List (Option Bool))) :
    standing (feedStream s b len cells) = standing s := by
  unfold feedStream
  simp
@[simp] theorem beginStream_standing (s : State) (b offset : Nat) : standing (beginStream s b offset) = standing s := (rfl)
@[simp] theorem endStream_standing (s : State) (b : Nat) : standing (endStream s b) = standing s := by
  unfold endStream
  split <;> simp
@[simp] theorem endClose_standing (s : State) (c : Course) (w : CloseWait) : standing (endClose s c w) = standing s :=
  standing_of_changesOnly (endClose_changesOnly _ _ _) (by decide)
@[simp] theorem closeEnds_standing (s : State) (handle : Nat) : standing (closeEnds s handle) = standing s :=
  standing_of_changesOnly (closeEnds_changesOnly _ _) (by decide)

/-! ### The device -/

@[simp] theorem copyCause_standing (s : State) : standing (copyCause s) = standing s := by
  unfold copyCause
  (repeat' split) <;> simp
@[simp] theorem reportOwed_standing (s : State) : standing (reportOwed s) = standing s := by
  unfold reportOwed
  simp
@[simp] theorem restartLadders_standing (s : State) : standing (restartLadders s) = standing s := by
  unfold restartLadders
  simp
@[simp] theorem reraise_standing (s : State) : standing (reraise s) = standing s := by
  unfold reraise
  simp
@[simp] theorem retireBay_standing (s : State) (b : Nat) : standing (retireBay s b) = standing s := by
  unfold retireBay
  (repeat' split) <;> simp
@[simp] theorem quiesceWork_standing (s : State) : standing (quiesceWork s) = standing s :=
  standing_of_changesOnly (quiesceWork_changesOnly _) (by decide)

/-! ### The read channel -/

@[simp] theorem copyRetry_standing (s : State) (b : Nat) (a : SlotAddr) (auto : Bool) : standing (copyRetry s b a auto) = standing s := by
  unfold copyRetry
  split <;> simp
@[simp] theorem copyAtEnd_standing (s : State) (b : Nat) (p : SlotReport) (eraseMax : Nat) :
    standing (copyAtEnd s b p eraseMax) = standing s := by
  unfold copyAtEnd
  (repeat' split) <;> simp
@[simp] theorem judge_standing (s : State) (b a : Nat) (pass : Bool) : standing (judge s b a pass) = standing s := (rfl)
@[simp] theorem judgeSpare_standing (s : State) (b home a : Nat) (pass : Bool) : standing (judgeSpare s b home a pass) = standing s := (rfl)
@[simp] theorem noteUnreadable_standing (s : State) (b : Nat) (a : SlotAddr) : standing (noteUnreadable s b a) = standing s := (rfl)
@[simp] theorem notDecoded_standing (s : State) (b : BayId) (p : SlotReport) : standing (notDecoded s b p) = standing s := by
  unfold notDecoded
  dsimp only
  (repeat' split) <;> simp
@[simp] theorem noteSearched_standing (s : State) (b : Nat) (a : SlotAddr) (tries : Nat) :
    standing (noteSearched s b a tries) = standing s := by
  unfold noteSearched
  (repeat' split) <;> simp
@[simp] theorem sendSector_standing (s : State) (b : BayId) (took : List Nat) (p : SlotReport) (lsn : Option Nat) (ls : List Int) (mask : List Bool) :
    standing (sendSector s b took p lsn ls mask) = standing s := by
  unfold sendSector
  dsimp only
  (repeat' split) <;> simp
@[simp] theorem slotEnds_standing (s : State) (b : BayId) (took : List Nat) (p : SlotReport) (lsn : Option Nat) (ls : List Int) (mask : List Bool) :
    standing (slotEnds s b took p lsn ls mask) = standing s := by
  unfold slotEnds
  (repeat' split) <;> simp
@[simp] theorem blockSeen_standing (s : State) (b : Nat) (p : SlotReport) : standing (blockSeen s b p) = standing s := by
  unfold blockSeen
  dsimp only
  (repeat' split) <;> simp
@[simp] theorem scanTake_standing (s : State) (b : Nat) (p : SlotReport) : standing (scanTake s b p) = standing s := by
  unfold scanTake
  (repeat' split) <;> simp
@[simp] theorem scanSlot_standing (s : State) (b slot : Nat) (ps : List SlotReport) : standing (scanSlot s b slot ps) = standing s := by
  unfold scanSlot
  split <;> simp
@[simp] theorem layerChange_standing (s : State) (b layer : Nat) : standing (layerChange s b layer) = standing s := by
  unfold layerChange
  (repeat' split) <;> simp
@[simp] theorem timingOut_standing (s : State) (b : Nat) (rateErr : Int) : standing (timingOut s b rateErr) = standing s := by
  unfold timingOut
  (repeat' split) <;> simp
@[simp] theorem logCases_standing (s : State) (b : Nat) (xs : List BeamRead) : standing (logCases s b xs) = standing s :=
  standing_of_changesOnly (logCases_keepsRun s b xs).frame (by decide)
@[simp] theorem beamAdapts_standing (s : State) (b : Nat) (t : DiscType) (layer : Nat) (obs : List BeamObs) (blank : List Nat) (levels ys : List Int) (x : BeamRead) :
    standing (beamAdapts s b t layer obs blank levels ys x) = standing s := by
  unfold beamAdapts
  simp
@[simp] theorem seamFaults_standing (s : State) (b : Nat) : standing (seamFaults s b) = standing s := by
  unfold seamFaults
  (repeat' split) <;> simp
@[simp] theorem seamEnds_standing (b : BayId) (t : DiscType) (s : State) (x : SeamSlot) : standing (seamEnds b t s x) = standing s := by
  unfold seamEnds
  simp
@[simp] theorem seamSlot_standing (s : State) (b : BayId) (t : DiscType) : standing (seamSlot s b t) = standing s := by
  unfold seamSlot
  simp
@[simp] theorem beamEnds_standing (b : BayId) (need slot : Nat) (s : State) (e : BeamRead × SlotReport × List Int) :
    standing (beamEnds b need slot s e) = standing s := by
  unfold beamEnds
  simp
theorem settleUnsettled_standing (s : State) (xs : List BeamRead) : standing (settleUnsettled s xs).2 = standing s :=
  standing_of_changesOnly (settleUnsettled_keepsRun s 0 xs).frame (by decide)
@[simp] theorem slotPasses_standing (s : State) (b : BayId) (o : SlotObs) : standing (slotPasses s b o) = standing s := by
  unfold slotPasses
  simp [settleUnsettled_standing]

/-! ### The governor -/

@[simp] theorem modSensor_standing (s : State) (i : Nat) (f : Sensor → Sensor) : standing (s.modSensor i f) = standing s := (rfl)
@[simp] theorem compareOne_standing (s : State) (i : Nat) : standing (compareOne s i) = standing s := by
  unfold compareOne
  simp
@[simp] theorem logBroken_standing (before s : State) : standing (logBroken before s) = standing s :=
  standing_foldl _ (fun a i => by simp) _ _
@[simp] theorem retakeTmax_standing (s : State) : standing (retakeTmax s) = standing s := (rfl)
@[simp] theorem takeReadings_standing (s : State) (raw : List (Fin 16 × Int)) : standing (takeReadings s raw) = standing s := by
  have hfold (l : List (Fin 16 × Int)) : standing (l.foldl (fun a r =>
      a.modSensor r.1.val (sampleOne (decide (s.now % 200 = 0)) (s.pval 0x0B03 r.1.val) r.2)) s) = standing s :=
    standing_foldl _ (fun a r => modSensor_standing a _ _) l s
  unfold takeReadings
  simp [hfold]
@[simp] theorem eaveEvent_standing (s : State) : standing (eaveEvent s) = standing s :=
  standing_of_changesOnly (eaveEvent_changesOnly _) (by decide)
@[simp] theorem noteSample_standing (s : State) : standing (noteSample s) = standing s := (rfl)
@[simp] theorem shortenRun_standing (s : State) (b : Nat) : standing (shortenRun s b) = standing s := by
  unfold shortenRun
  (repeat' split) <;> simp
@[simp] theorem parkGroup_standing (s : State) (g : GroupId) (cap : Bool) : standing (parkGroup s g cap) = standing s := by
  unfold parkGroup
  simp
@[simp] theorem parkNext_standing (s : State) (cap : Bool) : standing (parkNext s cap) = standing s := by
  unfold parkNext
  (repeat' split) <;> simp
@[simp] theorem parkAll_standing (x0 : Nat) (u : State) : standing (parkAll x0 u) = standing u := by
  induction x0 generalizing u with
  | zero => rfl
  | succ n ih => simp [parkAll, ih]

/-! ### Admin commands -/

@[simp] theorem patternFinish_standing (s : State) (c : AdminCmd) (l : List (Nat × Nat × Nat × Int)) (truncated : Bool) :
    standing (patternFinish s c l truncated) = standing s := by
  unfold patternFinish
  simp
@[simp] theorem getPattern_standing (c : AdminCmd) (s : State) : standing (getPattern c s) = standing s := by
  unfold getPattern
  simp
@[simp] theorem calLoad_standing (c : AdminCmd) (s : State) : standing (calLoad c s) = standing s := by
  unfold calLoad
  simp
@[simp] theorem keyLoad_standing (c : AdminCmd) (s : State) : standing (keyLoad c s) = standing s := by
  unfold keyLoad
  dsimp only
  (repeat' split) <;> simp
@[simp] theorem endAppends_standing (s : State) (gone : Nat → Bool) :
    standing (endAppends s gone) = standing s := standing_foldl _ (fun a c => by
  split <;> simp) _ _
@[simp] theorem keyErase_standing (c : AdminCmd) (s : State) : standing (keyErase c s) = standing s := by
  unfold keyErase
  simp
@[simp] theorem qpCreate_standing (c : AdminCmd) (s : State) : standing (qpCreate c s) = standing s := by
  unfold qpCreate
  split <;> simp
@[simp] theorem qpDelete_standing (c : AdminCmd) (s : State) : standing (qpDelete c s) = standing s := by
  unfold qpDelete
  dsimp only
  (repeat' split) <;> simp
@[simp] theorem setEnable_standing (s : State) (v : Nat) : standing (s.setEnable v) = standing s := (rfl)
@[simp] theorem eventArm_standing (c : AdminCmd) (s : State) : standing (eventArm c s) = standing s := by
  unfold eventArm
  (repeat' split) <;> simp
@[simp] theorem fwStage_standing (c : AdminCmd) (s : State) : standing (fwStage c s) = standing s := by
  unfold fwStage
  simp
@[simp] theorem commitSvn_standing (c : AdminCmd) (s : State) : standing (commitSvn c s) = standing s := by
  unfold commitSvn
  (repeat' split) <;> simp
@[simp] theorem onTarget_standing (n : Nat) (f : Nat → AdminCmd → State → State) (c : AdminCmd) (s : State) (h : ∀ n, standing (f n c s) = standing s) :
    standing (onTarget n f c s) = standing s := by
  unfold onTarget
  simp [h]
@[simp] theorem weltRetrain_standing (b : Nat) (c : AdminCmd) (s : State) : standing (weltRetrain b c s) = standing s := by
  unfold weltRetrain
  (repeat' split) <;> simp
@[simp] theorem tryRestart_standing (b : Nat) (c : AdminCmd) (s : State) : standing (tryRestart b c s) = standing s := by
  unfold tryRestart
  simp
@[simp] theorem chopperClear_standing (g : Nat) (c : AdminCmd) (s : State) : standing (chopperClear g c s) = standing s := by
  unfold chopperClear
  (repeat' split) <;> simp
@[simp] theorem bayOut_standing (b : Nat) (c : AdminCmd) (s : State) : standing (bayOut b c s) = standing s := by
  unfold bayOut
  (repeat' split) <;> simp
@[simp] theorem bayIn_standing (b : Nat) (c : AdminCmd) (s : State) : standing (bayIn b c s) = standing s := by
  unfold bayIn
  simp
@[simp] theorem rehome_standing (b : Nat) (c : AdminCmd) (s : State) : standing (rehome b c s) = standing s := by
  unfold rehome
  (repeat' split) <;> simp

/-! ### Decodes -/

@[simp] theorem blockReport_standing (s : State) (b : BayId) (j : LdpcJob) (d : Decoded) (cap : Nat) :
    standing (blockReport s b j d cap) = standing s := by
  unfold blockReport
  split
  · dsimp only
    split
    · simp
    split
    · simp
    split
    · split <;> simp
    · simp
  · rfl
@[simp] theorem sectorReported_standing (s : State) (b : BayId) (j : LdpcJob) (d : Decoded) (cap : Nat) :
    standing (sectorReported s b j d cap) = standing s := by
  unfold sectorReported
  dsimp only
  split <;> simp
@[simp] theorem searchGoesOn_standing (s : State) (b : BayId) (j : LdpcJob) (d : Decoded) :
    standing (searchGoesOn s b j d) = standing s := by
  unfold searchGoesOn
  dsimp only
  (repeat' split) <;> simp

/-! ### The sideband -/

@[simp] theorem controlAnswer_standing (s : State) (code : Byte) (cc : Nat) (body : List Byte) :
    standing (controlAnswer s code cc body) = standing s :=
  (rfl)

/-! ### The span boundary -/

@[simp] theorem weltEnable_standing (s : State) (b : Nat) : standing (weltEnable s b) = standing s :=
  standing_of_changesOnly (weltEnable_changesOnly _ _) (by decide)
@[simp] theorem weltSpan_standing (s : State) (b : Nat) : standing (weltSpan s b) = standing s :=
  standing_of_changesOnly (weltSpan_changesOnly _ _) (by decide)
@[simp] theorem mr4Span_standing (s : State) (a b : Nat) (driftA driftB : Int) : standing (mr4Span s a b driftA driftB) = standing s := by
  unfold mr4Span
  simp
@[simp] theorem heartbeatSpan_standing (s : State) : standing (heartbeatSpan s) = standing s := by
  unfold heartbeatSpan
  (repeat' split) <;> simp
@[simp] theorem fecSpan_standing (s : State) (p : Port) (n : Nat) : standing (fecSpan s p n) = standing s :=
  standing_of_changesOnly (fecSpan_changesOnly _ _ _) (by decide)
@[simp] theorem selfTestSpan_standing (s : State) (east west : Nat) : standing (selfTestSpan s east west) = standing s :=
  standing_of_changesOnly (selfTestSpan_changesOnly _ _ _) (by decide)

/-! ### Sessions -/

@[simp] theorem endSession_standing (s : State) (sid : Word) : standing (endSession s sid) = standing s := (rfl)

/-! ### The write path -/

@[simp] theorem approach_standing (s : State) (b : Nat) (t : DiscType) (layer slot : Nat) :
    standing (approach s b t layer slot) = standing s := by
  unfold approach
  (repeat' split) <;> simp
@[simp] theorem recordSlot_standing (s : State) (b : BayId) (c : Course) (w : WriteSess) (post : Nat) :
    standing (recordSlot s b c w post) = standing s := by
  unfold recordSlot
  simp
@[simp] theorem recordSpares_standing (s : State) (b : BayId) (c : Course) (w : WriteSess) :
    standing (recordSpares s b c w) = standing s := by
  unfold recordSpares
  simp
@[simp] theorem stopWrite_standing (s : State) (b : Nat) : standing (stopWrite s b) = standing s := by
  unfold stopWrite
  simp
@[simp] theorem afterSlot_standing (s : State) (b : BayId) (fault : Bool) : standing (afterSlot s b fault) = standing s := by
  unfold afterSlot
  split <;> simp
@[simp] theorem afterSpare_standing (s : State) (b : Nat) (fault : Bool) : standing (afterSpare s b fault) = standing s := by
  unfold afterSpare
  (repeat' split) <;> simp
@[simp] theorem underrunSlot_standing (s : State) (b : BayId) (c : Course) (w : WriteSess) (missingFrom : Nat) :
    standing (underrunSlot s b c w missingFrom) = standing s := by
  unfold underrunSlot
  simp
@[simp] theorem freeRows_standing (s : State) (handle : Nat) : standing (freeRows s handle) = standing s := (rfl)
@[simp] theorem segmentVerified_standing (s : State) (b : Nat) (c : Course) : standing (segmentVerified s b c) = standing s := by
  unfold segmentVerified
  simp
@[simp] theorem endAtRow_standing (s : State) (c : Course) (row : Nat) : standing (endAtRow s c row) = standing s := (rfl)
@[simp] theorem assignSpares_standing (s : State) (b : BayId) (c : Course) (hs : List (Nat × Nat)) :
    standing (assignSpares s b c hs) = standing s := by
  unfold assignSpares
  dsimp only
  (repeat' split) <;> simp
@[simp] theorem closeMember_standing (s : State) (c : Course) (m : Nat) (b : BayId) : standing (closeMember s c m b) = standing s :=
  standing_of_changesOnly (closeMember_changesOnly _ _ _ _) (by decide)
@[simp] theorem memberClosed_standing (s : State) (b : Nat) (handle : Nat) : standing (memberClosed s b handle) = standing s :=
  standing_of_changesOnly (memberClosed_changesOnly _ _ _) (by decide)
@[simp] theorem memberFull_standing (s : State) (b : Nat) (handle : Nat) : standing (memberFull s b handle) = standing s :=
  standing_of_changesOnly (memberFull_changesOnly _ _ _) (by decide)
@[simp] theorem cannotCommit_standing (s : State) (b : Nat) (c : Course) : standing (cannotCommit s b c) = standing s :=
  standing_of_changesOnly (cannotCommit_changesOnly _ _ _) (by decide)

end Sys2Proof.Proofs
end

section
/-! SUPPORT. Steady steps: those over which the domains keep to the mode and DRAM to its canonical form (R400, R427, R464, R465). -/

namespace Sys2Proof.Proofs

open Sys2Proof Sys2Proof.Machine Sys2Proof.Laws

theorem standing_eq_iff {s : State} {m : Mode} {p : BitVec 20} {l : List Host.Cell} :
    standing s = (m, p, l) ↔ s.mode = m ∧ s.aon.power = p ∧ s.mem.cells = l := by
  simp only [standing, Prod.mk.injEq]

/-- From `s` to `t` the domains keep to the mode, and DRAM to its canonical form. -/
structure Steady (s t : State) : Prop where
  domains : s.domainsFit → t.domainsFit
  memory : s.mem.wf = true → t.mem.wf = true

theorem Steady.intro {s t : State} {m : Mode} {p : BitVec 20} {l : List Host.Cell} (h : standing t = (m, p, l))
    (hp : s.domainsFit → p ∈ domainMasks m) (hl : s.mem.wf = true → Tbl.wf 0#8 l = true) : Steady s t := by
  obtain ⟨hmode, hpower, hcells⟩ := standing_eq_iff.1 h
  refine ⟨fun hs => ?_, fun hs => ?_⟩
  · simpa only [State.domainsFit, hmode, hpower] using hp hs
  · simpa only [Memory.wf, hcells] using hl hs

theorem Steady.refl (s : State) : Steady s s := ⟨id, id⟩

theorem Steady.trans {s t u : State} (h : Steady s t) (g : Steady t u) : Steady s u := ⟨g.domains ∘ h.domains, g.memory ∘ h.memory⟩

@[simp] theorem steady_of_standing {s t : State} (h : standing t = standing s) : Steady s t := .intro h id id

/-- A steady step and one that leaves the standing. -/
theorem Steady.left {s t u : State} (h : Steady s t) (g : standing u = standing t) : Steady s u := h.trans (steady_of_standing g)

/-- The domains and the mode change as one, and DRAM's content stands. -/
theorem Steady.of_power {s t : State} {m : Mode} {p : BitVec 20} (h : standing t = (m, p, s.mem.cells))
    (hp : s.domainsFit → p ∈ domainMasks m) : Steady s t := .intro h hp id

theorem steady_ite {s t u : State} {p : Prop} [Decidable p] (h : p → Steady s t) (g : ¬p → Steady s u) : Steady s (if p then t else u) := by
  split
  next hp => exact h hp
  next hp => exact g hp

theorem steady_foldl {α : Type} {f : State → α → State} (hf : ∀ a x, Steady a (f a x)) (l : List α) (s : State) :
    Steady s (l.foldl f s) := by
  induction l generalizing s with
  | nil => exact .refl s
  | cons x r ih => exact (hf s x).trans (ih (f s x))

/-! ## Domains and modes -/

section
variable {s : State} {m : Mode} {p : BitVec 20} {l : List Host.Cell}

theorem standing_self (s : State) : standing s = (s.mode, s.aon.power, s.mem.cells) := rfl

theorem enterMode_standing (h : standing s = (m, p, l)) (n : Mode) (c : Nat) : standing (s.enterMode n c) = (n, p, l) := by
  obtain ⟨-, rfl, rfl⟩ := standing_eq_iff.1 h
  have hframe := enterMode_changesOnly s n c
  have haon : (s.enterMode n c).aon = s.aon := hframe .aon (by simp)
  have hmem : (s.enterMode n c).mem = s.mem := hframe .mem (by simp)
  exact standing_eq_iff.2 ⟨enterMode_mode s n c, by rw [haon], by rw [hmem]⟩

theorem powerOn_standing (h : standing s = (m, p, l)) (ds : List Nat) :
    standing (s.powerOn ds) = (m, p ||| BitVec.ofNat 20 (powerMask ds), l) := by
  obtain ⟨rfl, rfl, rfl⟩ := standing_eq_iff.1 h
  rfl

theorem powerOff_standing (h : standing s = (m, p, l)) (ds : List Nat) :
    standing (s.powerOff ds) = (m, p &&& ~~~ BitVec.ofNat 20 (powerMask ds), l) := by
  obtain ⟨rfl, rfl, rfl⟩ := standing_eq_iff.1 h
  rfl

/-- A mode entered with the domains as they stand. -/
theorem enterMode_steady {s t : State} (h : standing t = standing s) {m : Mode} (hm : s.domainsFit → s.aon.power ∈ domainMasks m)
    (c : Nat) : Steady s (t.enterMode m c) := .of_power (enterMode_standing (h.trans (standing_self s)) m c) hm

/-- The domains once the motion units are powered (R465). -/
def motionPower (p : BitVec 20) : BitVec 20 :=
  if p.toNat.testBit 17 && p.toNat.testBit 18 && p.toNat.testBit 19 then p else p ||| BitVec.ofNat 20 (powerMask (pds 17 19))

theorem motionUp_standing (h : standing s = (m, p, l)) : standing s.motionUp = (m, motionPower p, l) := by
  obtain ⟨rfl, rfl, rfl⟩ := standing_eq_iff.1 h
  unfold State.motionUp motionPower State.powered
  split
  · rfl
  · rw [standing_foldl _ (fun a b => by simp), girthLoad_standing, powerOn_standing h]

theorem motionDown_standing (h : standing s = (m, p, l)) :
    standing s.motionDown = (m, p &&& ~~~ BitVec.ofNat 20 (powerMask (pds 17 19)), l) := by
  unfold State.motionDown
  rw [standing_foldl _ (fun a b => by simp), ← powerOff_standing h]
  rfl

end

/-- CONSTRAINED has the domains of ACTIVE. -/
theorem active_masks {s : State} (hmode : s.mode = .active) (h : s.domainsFit) : s.aon.power ∈ domainMasks .constrained := by
  unfold State.domainsFit at h
  rw [hmode] at h
  exact h

theorem constrain_steady (s : State) : Steady s s.constrain := by
  unfold State.constrain
  split
  · dsimp only
    split
    next hmode => exact .of_power (enterMode_standing rfl _ _) (active_masks hmode)
    · exact steady_of_standing rfl
  · split
    · exact steady_of_standing rfl
    · exact .refl s

/-- What SAFE-STOP leaves on of the domains of a mode from which it is entered. -/
theorem safeStop_masks {m : Mode} (hm : m.onRing = true) {p : BitVec 20} (hp : p ∈ domainMasks m) :
    motionPower (p &&& ~~~ BitVec.ofNat 20 (powerMask (pds 7 16))) ∈ domainMasks .safeStop := by
  have hcases : p = 0xFFFFF#20 ∨ p = 0x0007F#20 ∨ p = 0xE007F#20 := by
    cases m <;> simp_all [domainMasks, Mode.onRing]
    exact hp.imp_right .inl
  rcases hcases with rfl | rfl | rfl <;> exact List.mem_singleton.2 rfl

theorem enterSafeStop_standing (s : State) (c : Nat) : standing (s.enterSafeStop c) =
    (.safeStop, motionPower (s.aon.power &&& ~~~ BitVec.ofNat 20 (powerMask (pds 7 16))), s.mem.cells) := by
  have hstopped : standing s.stopCourses.safeAll = (s.mode, s.aon.power, s.mem.cells) := by
    rw [safeAll_standing, stopCourses_standing, standing_self]
  exact enterMode_standing (motionUp_standing (powerOff_standing hstopped _)) _ _

theorem enterSafeStop_steady {s : State} (h : s.mode.onRing = true) (c : Nat) : Steady s (s.enterSafeStop c) :=
  .of_power (enterSafeStop_standing s c) (safeStop_masks h)

/-- An entry to RESET or to DARK: PD0 alone is on, and DRAM's content is lost. -/
theorem enterReset_steady (s : State) (c : Nat) : Steady s (s.enterReset c) := by
  refine .intro (m := .reset) (p := 1) (l := []) ?_ (fun _ => by decide) (fun _ => rfl)
  unfold State.enterReset
  split <;> rfl

theorem enterDark_steady (s : State) (c : Nat) : Steady s (s.enterDark c) := by
  refine .intro (m := .dark) (p := 1) (l := []) ?_ (fun _ => by decide) (fun _ => rfl)
  unfold State.enterDark
  split <;> rfl

theorem selfResetNow_steady (s : State) : Steady s s.selfResetNow := by
  unfold State.selfResetNow
  refine .trans (t := { s with aon := { s.aon with selfResets := s.aon.recentResets s.now ++ [s.now] } }) (steady_of_standing rfl) ?_
  exact steady_ite (fun _ => enterDark_steady _ _) (fun _ => enterReset_steady _ _)

theorem beginSelfReset_steady (s : State) : Steady s s.beginSelfReset := by
  unfold State.beginSelfReset
  refine steady_ite (fun _ => .refl s) fun _ => steady_ite (fun _ => steady_of_standing rfl) fun _ => steady_ite (fun h => ?_) fun _ => ?_
  · exact (enterSafeStop_steady h _).left rfl
  · exact selfResetNow_steady s

theorem mgmtRestart_steady (s : State) (counted l2err : Bool) (skip : Option (Cache × Nat)) : Steady s (mgmtRestart s counted l2err skip) := by
  unfold mgmtRestart
  refine steady_ite (fun _ => .refl s) fun _ => ?_
  dsimp only
  have hpaused (u : State) : standing (allBays.foldl (fun a b => if (a.bay b).state = .write then a.boundaryStop b else a) u) = standing u := by simp
  refine steady_ite (fun _ => .trans (steady_of_standing ?_) (beginSelfReset_steady _)) fun _ => steady_of_standing ?_
  · simp
  · simp

/-! ## DRAM's content -/

theorem modMem_steady {s : State} {f : Memory → Memory} (h : s.mem.wf = true → (f s.mem).wf = true) : Steady s (s.modMem f) := ⟨id, h⟩

theorem writeLine_steady (s : State) (line : Nat) (d : List Byte) (p : Bool) : Steady s (s.modMem fun m => m.writeLine line d p) :=
  modMem_steady (writeLine_wf _ _ _ _)

theorem clientLoss_steady (s : State) (c : Client) (pa : Nat) (k : LineCheck) : Steady s (clientLoss s c pa k) := by
  cases c
  case coreImage n ok => exact steady_ite (fun _ => by simp) fun _ => mgmtRestart_steady _ _ _ _
  case coreData | cacheWrite => exact mgmtRestart_steady _ _ _ _
  case feedFifo =>
    refine steady_of_standing ?_
    unfold clientLoss
    dsimp only
    split <;> simp
  all_goals
    refine steady_of_standing ?_
    unfold clientLoss
    simp

theorem poisonMerge_steady (s : State) (line : Nat) : Steady s (poisonMerge s line) := by
  unfold poisonMerge
  split
  · exact .refl s
  · next r _ =>
    exact .trans (steady_of_standing (by simp)) (.trans (modMem_steady (writeLine_wf _ _ _ _))
      (clientLoss_steady _ _ _ _))

theorem timeoutLoss_steady (s : State) (c : Nat) (r : DramReq) : Steady s (timeoutLoss s c r) := 
  .trans (steady_of_standing (by simp)) (clientLoss_steady _ _ _ _)

theorem readDone_steady (s : State) (r : DramReq) : Steady s (readDone s r) := by
  unfold readDone
  dsimp only
  split
  · exact .trans (steady_of_standing (by simp)) (clientLoss_steady _ _ _ _)
  · refine steady_of_standing ?_
    split <;> simp

theorem writeDone_steady (s : State) (r : DramReq) : Steady s (writeDone s r) := by
  unfold writeDone
  refine steady_ite (fun _ => .trans ?_ (clientLoss_steady _ _ _ _)) fun _ => writeLine_steady s r.line _ _
  exact ((writeLine_steady s r.line _ true).left (dramErr_standing _ _ _ _)).left (log_standing _ _ _ _ _)

theorem issueOne_steady (s : State) (c : Nat) : Steady s (issueOne s c) := by
  unfold issueOne
  refine steady_ite (fun _ => .refl s) fun _ => ?_
  split
  · exact .refl s
  · exact .trans (steady_of_standing (by simp)) (steady_ite (fun _ => writeDone_steady _ _) fun _ => readDone_steady _ _)

theorem fromL2_steady (s : State) (a : MemAccess) (l1 : Option Cache) : Steady s (fromL2 s a l1) := by
  unfold fromL2
  dsimp only
  split
  · simp
  · refine steady_ite (fun _ => .trans (by simp) (clientLoss_steady _ _ _ _)) fun _ => steady_of_standing ?_
    split <;> simp

theorem cached_steady (s : State) (a : MemAccess) : Steady s (cached s a) := by
  unfold cached
  dsimp only
  split
  · simp
  · refine steady_ite (fun _ => fromL2_steady _ _ _) fun _ => by simp

theorem access_steady (s : State) (a : MemAccess) : Steady s (access s a) := by
  unfold access
  split
  · simp
  · exact steady_ite (fun _ => by simp) fun _ => steady_ite (fun _ => by simp) fun _ => steady_ite (fun _ => .refl s) fun _ => cached_steady s a

theorem memStitch_steady (m : MemStitch) (s : State) : Steady s (memStitch m s) := by
  have hissue (c : Nat) (l : List Nat) (u : State) : Steady u (l.foldl (fun a _ => issueOne a c) u) :=
    steady_foldl (fun a _ => issueOne_steady a c) l u
  have hraised : Steady s (raisePanic s) := steady_of_standing (raisePanic_standing s)
  have hissued := (hraised.trans (hissue 0 (List.range m.issue0) _)).trans (hissue 1 (List.range m.issue1) _)
  have hwaits (u : State) : Steady u (retryWaiting u) :=
    .trans (steady_of_standing (modMem_standing _ rfl)) (steady_foldl access_steady u.mem.waiting _)
  exact ((hissued.left (releaseMaint_standing _)).trans (hwaits _)).trans (steady_foldl access_steady m.accesses _)

theorem allocateRegions_steady (s : State) : Steady s (allocateRegions s) :=
  .intro (m := s.mode) (p := s.aon.power) (l := []) rfl id fun _ => rfl

/-! ## BOOT -/

theorem tryBoot_steady (s : State) : Steady s (tryBoot s) := by
  unfold tryBoot
  refine steady_ite (fun h => ?_) fun _ => .refl s
  have hreset : s.mode = .reset := by simp_all [bootReady]
  refine .intro (m := .boot) (p := s.aon.power ||| BitVec.ofNat 20 (powerMask [1, 5, 6])) (l := []) (cacheEnable_standing _) (fun hfit => ?_) fun _ => rfl
  have hpower : s.aon.power = 0x00001#20 := by simpa [State.domainsFit, hreset, domainMasks] using hfit
  rw [hpower]
  exact List.mem_singleton.2 rfl

theorem resetHeld_steady (s : State) (c : Nat) : Steady s (resetHeld s c) :=
  steady_ite (fun _ => .refl s) fun _ => enterReset_steady s c

theorem startImage_steady {s : State} (h : s.mode = .boot) (k : Nat) (i : ImageFile) (e w x : Bool) : Steady s (startImage s k i e w x) := by
  have hentered := enterMode_standing (s := { s.powerOn [2, 3, 4] with
      mgmt := { s.mgmt with running := true, slot := k, svn := imageSvn i, release := imageRelease i
                            revision := BitVec.ofNat 16 (imageRevision i), imageDigest := imageDigest i, selfTest := x }
      ring := { s.ring with east := { s.ring.east with elsOk := e }, west := { s.ring.west with elsOk := w } }
      aon := { (s.powerOn [2, 3, 4]).aon with kick0 := s.now, kick1 := s.now } }) rfl .enrol mcAuto
  refine .of_power ((copyCause_standing _).trans hentered) fun hfit => ?_
  have hpower : s.aon.power = 0x00063#20 := by simpa [State.domainsFit, h, domainMasks] using hfit
  change s.aon.power ||| BitVec.ofNat 20 (powerMask [2, 3, 4]) ∈ _
  rw [hpower]
  exact List.mem_singleton.2 rfl

/-! ## The governor -/

theorem setStep_steady {s : State} {n : Nat} (h : n ≠ 4 ∨ s.mode.onRing = true) : Steady s (setStep s n) := by
  suffices hnoted : ∀ u, standing u = standing s →
      Steady s (if n ≠ 4 then u.constrain else if u.mode = .safeStop then u else u.enterSafeStop mcEave) from hnoted _ (by simp)
  intro u hu
  refine .trans (steady_of_standing hu) (steady_ite (fun _ => constrain_steady u) fun hcritical => steady_ite (fun _ => .refl u) fun _ =>
    enterSafeStop_steady ?_ _)
  rw [(standing_eq_iff.1 hu).1]
  exact h.resolve_left hcritical

theorem stepAsked_onRing {s : State} (h : stepAsked s = 4) : s.mode.onRing = true := by
  unfold stepAsked at h
  dsimp only at h
  split at h
  next hcritical => exact hcritical.2
  next => (repeat' split at h) <;> cases h

theorem govern_steady (s : State) (first : Bool) : Steady s (govern s first) := by
  unfold govern
  refine steady_ite (fun _ => setStep_steady ?_) fun _ => steady_ite (fun _ => setStep_steady (.inl (by decide))) fun _ =>
    steady_ite (fun _ => setStep_steady (.inl (by decide))) fun _ => steady_of_standing ?_
  · by_cases h : stepAsked s = 4
    · exact .inr (stepAsked_onRing h)
    · exact .inl h
  · split <;> simp

theorem unparkGroup_steady (s : State) (g : GroupId) : Steady s (unparkGroup s g) := by
  unfold unparkGroup
  dsimp only
  refine .trans (steady_of_standing ?_) (steady_ite (fun _ => setStep_steady (.inl (by decide))) fun _ => .refl _)
  simp

theorem bucketSpan_steady (s : State) (p i : Nat) : Steady s (bucketSpan s p i) := by
  unfold bucketSpan
  refine steady_ite (fun _ => steady_ite (fun _ => ?_) fun _ => steady_of_standing rfl) fun _ =>
    steady_ite (fun _ => ?_) fun _ => steady_of_standing rfl
  all_goals exact .trans (steady_of_standing (by simp)) (constrain_steady _)

/-! ## Requested modes (R400, R464, R465) -/

theorem releaseCritical_steady (s : State) : Steady s (releaseCritical s) :=
  steady_ite (fun _ => setStep_steady (.inl (by split <;> decide))) fun _ => .refl s

theorem standby_masks {s : State} (h : Mode.standby ∈ requestTable s.mode) (hm : s.mode ≠ .transit) (hfit : s.domainsFit) :
    s.aon.power ||| BitVec.ofNat 20 (powerMask (pds 7 16)) = 0xFFFFF#20 := by
  have hpower : s.aon.power = 0xFFFFF#20 ∨ s.aon.power = 0xE007F#20 := by
    cases hmode : s.mode <;> simp_all [requestTable, State.domainsFit, domainMasks]
  rcases hpower with h | h <;> rw [h] <;> rfl

theorem toStandby_steady {s : State} (h : Mode.standby ∈ requestTable s.mode) (c : Nat) : Steady s (goMode s .standby c) := by
  unfold goMode
  dsimp only
  split
  next hm =>
    refine .of_power (enterMode_standing (powerOn_standing (motionUp_standing (standing_self s)) _) _ _) fun hfit => ?_
    have hpower : s.aon.power = 0x0007F#20 := by simpa [State.domainsFit, hm, domainMasks] using hfit
    rw [hpower]
    exact List.mem_singleton.2 rfl
  next hm =>
    refine .of_power (enterMode_standing (powerOn_standing (standing_self s) _) _ _) fun hfit => ?_
    exact List.mem_singleton.2 (standby_masks h hm hfit)

theorem toTransit_steady {s : State} (h : s.mode = .standby) (c : Nat) : Steady s (goMode s .transit c) := by
  refine .of_power (enterMode_standing (motionDown_standing (powerOff_standing (standing_self s) _)) _ _) fun hfit => ?_
  have hpower : s.aon.power = 0xFFFFF#20 := by simpa [State.domainsFit, h, domainMasks] using hfit
  rw [hpower]
  exact List.mem_singleton.2 rfl

/-- The modes that a request reaches with the domains as they are. -/
theorem allOn_masks {s : State} {m : Mode} (h : m ∈ requestTable s.mode) (hne : m ≠ .standby ∧ m ≠ .transit ∧ m ≠ .safeStop)
    (hfit : s.domainsFit) : s.aon.power ∈ domainMasks m := by
  obtain ⟨hstandby, htransit, hsafe⟩ := hne
  have hpower : s.aon.power = 0xFFFFF#20 := by
    cases hmode : s.mode <;> simp_all [requestTable, State.domainsFit, domainMasks]
  have hm : m = .active ∨ m = .service ∨ m = .retire ∨ m = .quiesce := by
    cases hmode : s.mode <;> simp_all [requestTable] <;> tauto
  rw [hpower]
  rcases hm with rfl | rfl | rfl | rfl <;> decide

theorem goMode_steady {s : State} {m : Mode} (h : m ∈ requestTable s.mode) (c : Nat) : Steady s (goMode s m c) := by
  by_cases hne : m ≠ .standby ∧ m ≠ .transit ∧ m ≠ .safeStop
  · have hkept : Steady s (s.enterMode m c) := enterMode_steady rfl (allOn_masks h hne) c
    cases m
    case active => exact hkept.trans (constrain_steady _)
    case quiesce =>
      exact hkept.left (quiesceWork_standing _)
    case retire =>
      exact enterMode_steady (standing_foldl retireBay retireBay_standing allBays s) (allOn_masks h hne) c
    case standby => exact absurd rfl hne.1
    case transit => exact absurd rfl hne.2.1
    case safeStop => exact absurd rfl hne.2.2
    all_goals exact hkept
  · obtain rfl | rfl | rfl : m = .standby ∨ m = .transit ∨ m = .safeStop := by tauto
    · exact toStandby_steady h c
    · exact toTransit_steady (by cases hm : s.mode <;> simp_all [requestTable]) c
    · exact enterSafeStop_steady (by cases hm : s.mode <;> simp_all [requestTable, Mode.onRing]) c


theorem setStep_mode {s : State} {n : Nat} (hn : n ≠ 4) (h : s.mode ≠ .active) : (setStep s n).mode = s.mode := by
  unfold setStep
  dsimp only
  rw [if_pos hn]
  refine (constrain_mode ?_).trans ?_
  all_goals
    rw [eaveEvent_changesOnly _ .mode (by simp), thermLog_changesOnly _ _ _ _ .mode (by simp)]
  · exact h

theorem releaseCritical_mode (s : State) : (releaseCritical s).mode = s.mode := by
  unfold releaseCritical
  split
  next h => exact setStep_mode (by split <;> decide) (by rw [h.1]; decide)
  next => rfl

theorem modeRequest_steady (c : AdminCmd) (s : State) : Steady s (modeRequest c s) := by
  unfold modeRequest
  split
  · simp
  next m _ =>
    refine steady_ite (fun _ => by simp) fun _ => steady_ite (fun _ => by simp) fun hrefused => steady_ite (fun _ => by simp) fun _ =>
      steady_ite (fun _ => by simp) fun _ => steady_ite (fun _ => by simp) fun _ => ?_
    have hend : Steady s (releaseCritical (adminEnd s c stSuccess)) :=
      .trans (steady_of_standing (adminEnd_standing _ _ _)) (releaseCritical_steady _)
    refine hend.trans (goMode_steady ?_ mcRequest)
    have hmode : (releaseCritical (adminEnd s c stSuccess)).mode = s.mode :=
      (releaseCritical_mode _).trans (adminEnd_changesOnly _ _ _ .mode (by simp))
    rw [hmode]
    simpa using hrefused

theorem fwActivateLive_steady (c : AdminCmd) (s : State) : Steady s (fwActivateLive c s) :=
  steady_ite (fun _ => by simp) fun _ => .trans (mgmtRestart_steady s false false none) (steady_of_standing rfl)

end Sys2Proof.Proofs
end

section
/-! SUPPORT. Every command answers a next state, and a steady one. -/

namespace Sys2Proof.Proofs

open Sys2Proof Sys2Proof.Machine Sys2Proof.Laws

/-- A command answers a next state, and a steady one. -/
def Proceeds (o : Host.Outcome State Fault Refusal) (s : State) : Prop := ∃ t, o = .next t ∧ Steady s t

@[simp] theorem proceeds_next {s t : State} : Proceeds (.next t) s ↔ Steady s t := by simp [Proceeds]

@[simp] theorem steady_refl (s : State) : Steady s s := .refl s

theorem proceeds_ite {o o' : Host.Outcome State Fault Refusal} {s : State} {p : Prop} [Decidable p] (h : Proceeds o s) (h' : Proceeds o' s) :
    Proceeds (if p then o else o') s := by
  split
  · exact h
  · exact h'

theorem adminRun_proceeds {mine : AdminCmd → Bool} {modes : State → Bool} {f : AdminCmd → State → State} (hf : ∀ c u, Steady u (f c u))
    (s : State) : Proceeds (adminRun mine modes f s) s := by
  unfold adminRun
  split
  · simp
  next c rest _ =>
    split
    · simp
    · refine proceeds_next.2 (.left (.trans (t := { s with adminQ := rest, aon := { s.aon with kick0 := s.now } }) (steady_of_standing (by simp)) ?_)
        (afterCal_standing _))
      exact steady_ite (fun _ => by simp) fun _ => steady_ite (fun _ => by simp) fun _ => hf _ _

@[simp] theorem adminRun_proceeds_of_standing {mine : AdminCmd → Bool} {modes : State → Bool} {f : AdminCmd → State → State}
    (hf : ∀ c u, standing (f c u) = standing u) (s : State) : Proceeds (adminRun mine modes f s) s :=
  adminRun_proceeds (fun c u => steady_of_standing (hf c u)) s

theorem Steady.after {s t u : State} (g : standing t = standing s) (h : Steady t u) : Steady s u := (steady_of_standing g).trans h

/-! ## Answers of SPDM -/

@[simp] theorem spdmError_standing (s : State) (code data : Byte) : standing (spdmError s code data).1 = standing s := (rfl)
theorem negotiated_standing {f : State → SpdmAnswer} (hf : ∀ u, standing (f u).1 = standing u) (s : State) :
    standing (negotiated s f).1 = standing s := by
  unfold negotiated
  split
  · exact hf s
  · rfl
@[simp] theorem spdmVersion_standing (s : State) : standing (spdmVersion s).1 = standing s := (rfl)
@[simp] theorem spdmCapabilities_standing (s : State) : standing (spdmCapabilities s).1 = standing s := by
  unfold spdmCapabilities
  split <;> simp
@[simp] theorem spdmAlgorithms_standing (s : State) : standing (spdmAlgorithms s).1 = standing s := by
  unfold spdmAlgorithms
  split <;> simp
@[simp] theorem spdmDigests_standing (s : State) : standing (spdmDigests s).1 = standing s := negotiated_standing (fun _ => rfl) s
@[simp] theorem spdmCertificate_standing (slot offset length : Nat) (s : State) :
    standing (spdmCertificate slot offset length s).1 = standing s :=
  negotiated_standing (fun u => by split <;> simp) s
@[simp] theorem signed_standing (s : State) (code : Byte) (nonce body : List Byte) : standing (signed s code nonce body).1 = standing s :=
  (rfl)
@[simp] theorem spdmChallenge_standing (slot : Nat) (nonce : List Byte) (s : State) :
    standing (spdmChallenge slot nonce s).1 = standing s :=
  negotiated_standing (fun u => by split <;> simp) s
@[simp] theorem spdmMeasurements_standing (index : Nat) (sign : Bool) (nonce : List Byte) (s : State) :
    standing (spdmMeasurements index sign nonce s).1 = standing s :=
  negotiated_standing (fun u => by dsimp only; (repeat' split) <;> simp) s
@[simp] theorem spdmKeyExchange_standing (tunnel : Bool) (req : Half) (exchange : List Byte) (s : State) :
    standing (spdmKeyExchange tunnel req exchange s).1 = standing s := negotiated_standing (fun u => by split <;> simp) s
@[simp] theorem spdmFinish_standing (sid : Word) (verifyData : List Byte) (s : State) :
    standing (spdmFinish sid verifyData s).1 = standing s := by
  unfold spdmFinish
  (repeat' split) <;> simp
@[simp] theorem inSession_standing {f : State → SpdmAnswer} (hf : ∀ u, standing (f u).1 = standing u) (sid : Word) (s : State) :
    standing (inSession s sid f).1 = standing s := by
  unfold inSession
  (repeat' split) <;> simp [hf]
@[simp] theorem spdmMessage_standing (p : List Byte) (s : State) : standing (spdmMessage p s).1 = standing s := by
  unfold spdmMessage
  (repeat' split) <;> simp

@[simp] theorem spdmRun_proceeds {v : SpdmVia} {f : State → SpdmAnswer} (hf : ∀ u, standing (f u).1 = standing u)
    (s : State) : Proceeds (spdmRun v f s) s := by
  unfold spdmRun
  refine proceeds_ite (by simp) (proceeds_ite (by simp) ?_)
  split
  · simp [hf]
  · refine adminRun_proceeds_of_standing (fun c u => ?_) s
    dsimp only
    split <;> simp [hf]

/-! ## The commands -/

theorem serve_standing {s : State} {run : Cmd → State} (h : ∀ c, standing (run c) = standing s) (q : QpId) (tag : Nat) (kinds : List SqeKind) :
    standing (serve s q tag kinds run) = standing s := by
  unfold serve
  (repeat' split) <;> simp [h]

theorem serve_proceeds {s : State} {run : Cmd → State} (h : ∀ c, standing (run c) = standing s) (q : QpId) (tag : Nat) (kinds : List SqeKind) :
    Proceeds (.next (serve s q tag kinds run)) s := proceeds_next.2 (steady_of_standing (serve_standing h q tag kinds))

@[simp] theorem receiveUl_standing (s : State) (b : Nat) (l : List LaneWord) : standing (receiveUl s b l).2 = standing s := (rfl)

theorem pickQp_standing {s u : State} {q : QpId} (h : pickQp s = some (q, u)) : standing u = standing s := by
  have hserve (c : Nat) (t : Tbl Nat) (hs : (nextInTurn (Tbl.get 0 s.lastQp c) (classQps s c)).map (fun i =>
      (qpOfIndex i, { s with lastQp := Tbl.set 0 s.lastQp c i, turns := t })) = some (q, u)) : standing u = standing s := by
    obtain ⟨i, -, hi⟩ := Option.map_eq_some_iff.1 hs
    obtain ⟨-, rfl⟩ := Prod.mk.inj hi
    rfl
  unfold pickQp at h
  split at h
  · obtain ⟨-, rfl⟩ := Prod.mk.inj (Option.some.inj h)
    rfl
  · dsimp only at h
    split at h
    · exact hserve _ _ h
    · split at h
      · exact hserve _ _ h
      · cases h

theorem originate_some_standing {s t : State} {f : TxFrame} (h : originate s f = some t) : standing t = standing s := by
  obtain ⟨p, -, rfl⟩ := Option.map_eq_some_iff.1 h
  exact ownLeave_standing s p f

/-- What the power-down of RETIRE leaves on of the domains of RETIRE. -/
theorem retireDown_masks {s : State} (hm : s.mode = .retire) (hfit : s.domainsFit) :
    s.aon.power &&& ~~~BitVec.ofNat 20 (powerMask (pds 7 16)) &&& ~~~BitVec.ofNat 20 (powerMask (pds 17 19)) = 0x0007F#20 := by
  have hpower : s.aon.power = 0xFFFFF#20 ∨ s.aon.power = 0x0007F#20 := by simpa [State.domainsFit, hm, domainMasks] using hfit
  rcases hpower with h | h <;> rw [h] <;> rfl

@[simp] theorem execGirthWindow_proceeds (errs : List GirthParity) (s : State) : Proceeds (execGirthWindow errs s) s := by
  unfold execGirthWindow
  refine proceeds_ite (by simp) (proceeds_next.2 (steady_of_standing ?_))
  dsimp only
  simp

@[simp] theorem execUlBlockLock_proceeds (b : BayId) (s : State) : Proceeds (execUlBlockLock b s) s := by
  unfold execUlBlockLock
  (repeat' split) <;> simp

@[simp] theorem execEcho_proceeds (b : BayId) (blocks : List LaneWord) (roundTripUi : Nat) (s0 : State) :
    Proceeds (execEcho b blocks roundTripUi s0) s0 := by
  unfold execEcho
  dsimp only
  exact proceeds_ite (proceeds_next.2 (steady_of_standing (by split <;> simp))) (by simp)

@[simp] theorem execIdentity_proceeds (b : BayId) (blocks : List LaneWord) (s0 : State) : Proceeds (execIdentity b blocks s0) s0 := by
  unfold execIdentity
  dsimp only
  exact proceeds_ite (proceeds_ite (by simp) (by simp)) (by simp)

@[simp] theorem execWeltTrainingTimeout_proceeds (b : BayId) (s : State) : Proceeds (execWeltTrainingTimeout b s) s := by
  unfold execWeltTrainingTimeout
  dsimp only
  (repeat' split) <;> simp

@[simp] theorem execUplinkFrameMissing_proceeds (b : BayId) (s : State) : Proceeds (execUplinkFrameMissing b s) s := by
  unfold execUplinkFrameMissing
  (repeat' split) <;> simp

@[simp] theorem execUplinkStitchFrame_proceeds (b : BayId) (blocks : List LaneWord) (s0 : State) :
    Proceeds (execUplinkStitchFrame b blocks s0) s0 := by
  unfold execUplinkStitchFrame
  dsimp only
  split
  · refine proceeds_ite (by simp) (proceeds_next.2 (steady_of_standing ?_))
    simp
  · refine proceeds_ite (by simp) (proceeds_next.2 (steady_of_standing ?_))
    simp
  · simp

@[simp] theorem execDownlinkLaunch_proceeds (s : State) : Proceeds (execDownlinkLaunch s) s := by
  unfold execDownlinkLaunch
  refine proceeds_ite (by simp) (proceeds_next.2 (steady_of_standing ?_))
  dsimp only
  rw [standing_foldl _ (fun a b => by split <;> simp)]
  simp

@[simp] theorem execFocusSweepEnd_proceeds (b : BayId) (s : State) : Proceeds (execFocusSweepEnd b s) s := by
  unfold execFocusSweepEnd
  dsimp only
  (repeat' split) <;> simp

@[simp] theorem execFocusCapture_proceeds (b : BayId) (ppf sref : Nat) (s : State) : Proceeds (execFocusCapture b ppf sref s) s := by
  unfold execFocusCapture
  dsimp only
  (repeat' split) <;> simp

@[simp] theorem execFocusSettled_proceeds (b : BayId) (s : State) : Proceeds (execFocusSettled b s) s := by
  unfold execFocusSettled
  dsimp only
  (repeat' split) <;> simp

@[simp] theorem execLayerJumpCapture_proceeds (b : BayId) (ppf sref : Nat) (s : State) :
    Proceeds (execLayerJumpCapture b ppf sref s) s := by
  unfold execLayerJumpCapture
  (repeat' split) <;> simp

@[simp] theorem execLayerJumpTimeout_proceeds (b : BayId) (s : State) : Proceeds (execLayerJumpTimeout b s) s := by
  unfold execLayerJumpTimeout
  (repeat' split) <;> simp

@[simp] theorem execFocusLoss_proceeds (b : BayId) (s : State) : Proceeds (execFocusLoss b s) s := by
  unfold execFocusLoss
  dsimp only
  (repeat' split) <;> simp

@[simp] theorem execOffTrack_proceeds (b : BayId) (s : State) : Proceeds (execOffTrack b s) s := by
  unfold execOffTrack
  dsimp only
  (repeat' split) <;> simp

@[simp] theorem execTrackingCapture_proceeds (b : BayId) (s : State) : Proceeds (execTrackingCapture b s) s := by
  unfold execTrackingCapture
  (repeat' split) <;> simp

@[simp] theorem execTrackingAcqTimeout_proceeds (b : BayId) (s : State) : Proceeds (execTrackingAcqTimeout b s) s := by
  unfold execTrackingAcqTimeout
  (repeat' split) <;> simp

@[simp] theorem execRegistrationCheck_proceeds (b : BayId) (words : List (BeamId × BitVec 60)) (ridgeBeam : Option BeamId) (s : State) :
    Proceeds (execRegistrationCheck b words ridgeBeam s) s := by
  unfold execRegistrationCheck
  dsimp only
  (repeat' split) <;> simp

@[simp] theorem execTrackJumpDone_proceeds (b : BayId) (s : State) : Proceeds (execTrackJumpDone b s) s := by
  unfold execTrackJumpDone
  dsimp only
  (repeat' split) <;> simp

@[simp] theorem execTurnBack_proceeds (b : BayId) (s : State) : Proceeds (execTurnBack b s) s := by
  unfold execTurnBack
  dsimp only
  (repeat' split) <;> simp

@[simp] theorem execSeek_proceeds (b : BayId) (layer : Fin 6) (grid : Int) (s : State) : Proceeds (execSeek b layer grid s) s := by
  unfold execSeek
  dsimp only
  (repeat' split) <;> simp

@[simp] theorem execDiscPresentChange_proceeds (b : BayId) (active : Bool) (s : State) : Proceeds (execDiscPresentChange b active s) s := by
  unfold execDiscPresentChange
  simp

@[simp] theorem execLdBusyChange_proceeds (b : BayId) (active : Bool) (s : State) : Proceeds (execLdBusyChange b active s) s := by
  unfold execLdBusyChange
  (repeat' split) <;> simp

@[simp] theorem execDemandStart_proceeds (b : BayId) (s : State) : Proceeds (execDemandStart b s) s := by
  unfold execDemandStart
  dsimp only
  (repeat' split) <;> simp

@[simp] theorem execDemandStop_proceeds (b : BayId) (s : State) : Proceeds (execDemandStop b s) s := by
  unfold execDemandStop
  dsimp only
  (repeat' split) <;> simp

@[simp] theorem execSpindleStart_proceeds (b : BayId) (first second : List Nat) (s : State) :
    Proceeds (execSpindleStart b first second s) s := by
  unfold execSpindleStart
  dsimp only
  (repeat' split) <;> simp

@[simp] theorem execHandover_proceeds (b : BayId) (s : State) : Proceeds (execHandover b s) s := by
  unfold execHandover
  dsimp only
  (repeat' split) <;> simp

@[simp] theorem execStartFailure_proceeds (b : BayId) (s : State) : Proceeds (execStartFailure b s) s := by
  unfold execStartFailure
  dsimp only
  (repeat' split) <;> simp

@[simp] theorem execStartRetry_proceeds (b : BayId) (s : State) : Proceeds (execStartRetry b s) s := by
  unfold execStartRetry
  dsimp only
  (repeat' split) <;> simp

@[simp] theorem execRotorLoss_proceeds (b : BayId) (c : RotorCause) (s : State) : Proceeds (execRotorLoss b c s) s := by
  unfold execRotorLoss
  dsimp only
  (repeat' split) <;> simp

@[simp] theorem execCatchLock_proceeds (b : BayId) (rpm : Nat) (s : State) : Proceeds (execCatchLock b rpm s) s := by
  unfold execCatchLock
  dsimp only
  (repeat' split) <;> simp

@[simp] theorem execCatchFail_proceeds (b : BayId) (rpm : Nat) (s : State) : Proceeds (execCatchFail b rpm s) s := by
  unfold execCatchFail
  dsimp only
  (repeat' split) <;> simp

@[simp] theorem execStandstill_proceeds (b : BayId) (s : State) : Proceeds (execStandstill b s) s := by
  unfold execStandstill
  dsimp only
  (repeat' split) <;> simp

@[simp] theorem execSpinStuck_proceeds (b : BayId) (s : State) : Proceeds (execSpinStuck b s) s := by
  unfold execSpinStuck
  dsimp only
  (repeat' split) <;> simp

@[simp] theorem execAtSpeed_proceeds (b : BayId) (s : State) : Proceeds (execAtSpeed b s) s := by
  unfold execAtSpeed
  dsimp only
  (repeat' split) <;> simp

@[simp] theorem execSpinSafeHoldExpiry_proceeds (b : BayId) (s : State) : Proceeds (execSpinSafeHoldExpiry b s) s := by
  unfold execSpinSafeHoldExpiry
  dsimp only
  (repeat' split) <;> simp

@[simp] theorem execPd18PowerUp_proceeds (b : BayId) (rpm : Nat) (s : State) : Proceeds (execPd18PowerUp b rpm s) s := by
  unfold execPd18PowerUp
  dsimp only
  (repeat' split) <;> simp

@[simp] theorem execBusChopperOn_proceeds (g : GroupId) (mv : Nat) (s : State) : Proceeds (execBusChopperOn g mv s) s := by
  unfold execBusChopperOn
  (repeat' split) <;> simp

@[simp] theorem execBusRegenInhibit_proceeds (g : GroupId) (mv : Nat) (s : State) : Proceeds (execBusRegenInhibit g mv s) s := by
  unfold execBusRegenInhibit
  (repeat' split) <;> simp

@[simp] theorem execBusOvervolt_proceeds (g : GroupId) (mv : Nat) (s : State) : Proceeds (execBusOvervolt g mv s) s :=
  proceeds_ite (by simp) (proceeds_next.2 (.after (by simp) (constrain_steady _)))

@[simp] theorem execBusUndervolt_proceeds (g : GroupId) (mv : Nat) (s : State) : Proceeds (execBusUndervolt g mv s) s :=
  proceeds_ite (by simp) (proceeds_next.2 (.after (by simp) (constrain_steady _)))

@[simp] theorem execBusLowLimit_proceeds (g : GroupId) (mv : Nat) (s : State) : Proceeds (execBusLowLimit g mv s) s := by
  unfold execBusLowLimit
  (repeat' split) <;> simp

@[simp] theorem execBusRecovered_proceeds (g : GroupId) (mv : Nat) (rpms : List Nat) (s : State) :
    Proceeds (execBusRecovered g mv rpms s) s := by
  unfold execBusRecovered
  dsimp only
  exact proceeds_ite (by simp) (proceeds_ite (by simp) (proceeds_next.2 (.after (by simp) (constrain_steady _))))

@[simp] theorem execBrakeChopperFault_proceeds (g : GroupId) (s : State) : Proceeds (execBrakeChopperFault g s) s := by
  unfold execBrakeChopperFault
  dsimp only
  (repeat' split) <;> simp

@[simp] theorem execPositionMove_proceeds (b : BayId) (um : Nat) (s : State) : Proceeds (execPositionMove b um s) s := by
  unfold execPositionMove
  dsimp only
  (repeat' split) <;> simp

@[simp] theorem execNewTarget_proceeds (b : BayId) (um : Nat) (s : State) : Proceeds (execNewTarget b um s) s := by
  unfold execNewTarget
  dsimp only
  (repeat' split) <;> simp

@[simp] theorem execMoveComplete_proceeds (b : BayId) (s : State) : Proceeds (execMoveComplete b s) s := by
  unfold execMoveComplete
  dsimp only
  (repeat' split) <;> simp

@[simp] theorem execSledStall_proceeds (b : BayId) (s : State) : Proceeds (execSledStall b s) s := by
  unfold execSledStall
  (repeat' split) <;> simp

@[simp] theorem execSledSoftLimit_proceeds (b : BayId) (s : State) : Proceeds (execSledSoftLimit b s) s := by
  unfold execSledSoftLimit
  dsimp only
  (repeat' split) <;> simp

@[simp] theorem execHoming_proceeds (b : BayId) (s : State) : Proceeds (execHoming b s) s := by
  unfold execHoming
  dsimp only
  (repeat' split) <;> simp

@[simp] theorem execHomeEdge_proceeds (b : BayId) (s : State) : Proceeds (execHomeEdge b s) s := by
  unfold execHomeEdge
  dsimp only
  (repeat' split) <;> simp

@[simp] theorem execHomeRelease_proceeds (b : BayId) (s : State) : Proceeds (execHomeRelease b s) s := by
  unfold execHomeRelease
  dsimp only
  (repeat' split) <;> simp

@[simp] theorem execHomeFailure_proceeds (b : BayId) (why : HomeFault) (s : State) : Proceeds (execHomeFailure b why s) s := by
  unfold execHomeFailure
  dsimp only
  (repeat' split) <;> simp

@[simp] theorem execLimitSwitchTrip_proceeds (b : BayId) (w : SledSwitch) (s : State) : Proceeds (execLimitSwitchTrip b w s) s := by
  unfold execLimitSwitchTrip
  dsimp only
  (repeat' split) <;> simp

@[simp] theorem execSledHoldDelayExpiry_proceeds (b : BayId) (s : State) : Proceeds (execSledHoldDelayExpiry b s) s := by
  unfold execSledHoldDelayExpiry
  dsimp only
  (repeat' split) <;> simp

@[simp] theorem execHoldRelease_proceeds (b : BayId) (s : State) : Proceeds (execHoldRelease b s) s := by
  unfold execHoldRelease
  dsimp only
  (repeat' split) <;> simp

@[simp] theorem execHoldTimeout_proceeds (b : BayId) (s : State) : Proceeds (execHoldTimeout b s) s := by
  unfold execHoldTimeout
  dsimp only
  (repeat' split) <;> simp

@[simp] theorem execSafeRestartStart_proceeds (b : BayId) (s : State) : Proceeds (execSafeRestartStart b s) s := by
  unfold execSafeRestartStart
  (repeat' split) <;> simp

@[simp] theorem execClean_proceeds (core : Fin 2) (w : Word) (s : State) : Proceeds (execClean core w s) s := by
  unfold execClean
  simp

@[simp] theorem execInvalidate_proceeds (core : Fin 2) (w : Word) (s : State) : Proceeds (execInvalidate core w s) s := by
  unfold execInvalidate
  simp

@[simp] theorem execCleanInvalidate_proceeds (core : Fin 2) (w : Word) (s : State) : Proceeds (execCleanInvalidate core w s) s := by
  unfold execCleanInvalidate
  simp

@[simp] theorem execInvalidateAll_proceeds (core : Fin 2) (w : Word) (s : State) : Proceeds (execInvalidateAll core w s) s := by
  unfold execInvalidateAll
  split
  · exact proceeds_next.2 (steady_of_standing (cmWrite_standing _ _ (by split <;> simp)))
  · exact proceeds_next.2 (steady_of_standing (cmWrite_standing _ _ (by simp)))

@[simp] theorem execCacheDisableWalkDone_proceeds (c : Cache) (s : State) : Proceeds (execCacheDisableWalkDone c s) s := by
  unfold execCacheDisableWalkDone
  (repeat' split) <;> simp

@[simp] theorem execCacheError_proceeds (c : Cache) (f : CacheFault) (set way : Nat) (s : State) :
    Proceeds (execCacheError c f set way s) s := by
  unfold execCacheError
  refine proceeds_ite (by simp) ?_
  dsimp only
  split
  · simp
  · refine proceeds_ite (by simp) (proceeds_next.2 (.after ?_ (mgmtRestart_steady _ _ _ _)))
    rw [cacheFatal_standing]
    (repeat' split) <;> simp
  · split
    · simp
    · simp
    · split
      · exact proceeds_ite (proceeds_next.2 (.after (by simp) (mgmtRestart_steady _ _ _ _))) (by simp)
      · simp
  · refine proceeds_ite (proceeds_next.2 (.after (by simp) (mgmtRestart_steady _ _ _ _))) (proceeds_next.2 (steady_of_standing ?_))
    simp
  · simp

@[simp] theorem execDramCorrectedError_proceeds (c : Client) (pa : Nat) (flips : List Nat) (s : State) :
    Proceeds (execDramCorrectedError c pa flips s) s := by
  unfold execDramCorrectedError
  dsimp only
  (repeat' split) <;> simp

@[simp] theorem execDramUncorrectable_proceeds (c : Client) (pa : Nat) (flips : List Nat) (s : State) :
    Proceeds (execDramUncorrectable c pa flips s) s := by
  unfold execDramUncorrectable
  split
  · exact proceeds_next.2 (steady_ite (fun _ => .after (by simp) (clientLoss_steady _ _ _ _)) fun _ => .refl s)
  · refine proceeds_ite (by simp) (proceeds_next.2 (steady_ite
      (fun _ => .after ?_ (poisonMerge_steady _ _)) fun _ => .after ?_ (clientLoss_steady _ _ _ _)))
    all_goals simp

@[simp] theorem execDramUnmapped_proceeds (c : Client) (pa : Nat) (s : State) : Proceeds (execDramUnmapped c pa s) s := by
  unfold execDramUnmapped
  (repeat' split) <;> simp

@[simp] theorem execBurnisherRead_proceeds (flips : List Nat) (s : State) : Proceeds (execBurnisherRead flips s) s := by
  unfold execBurnisherRead
  split
  · simp
  · refine proceeds_ite (by simp) (proceeds_next.2 (steady_of_standing ((modMem_standing _ ?_).trans ?_)))
    · split <;> rfl
    · split <;> simp

@[simp] theorem execDramRequestTimeout_proceeds (ch : Fin 2) (req : Nat) (s : State) : Proceeds (execDramRequestTimeout ch req s) s := by
  unfold execDramRequestTimeout
  dsimp only
  split
  · refine proceeds_ite (proceeds_next.2 ?_) (by simp)
    have hlost {u : State} (hu : standing u = standing s) (r : DramReq) : Steady s (if 3 ≤ r.timeouts + 1 then timeoutLoss u ch r else u) :=
      steady_ite (fun _ => .after hu (timeoutLoss_steady _ _ _)) fun _ => steady_of_standing hu
    refine steady_ite (fun _ => .left (hlost (by simp) _) (startRetrain_standing _ _)) fun _ => hlost (by simp) _
  · simp

@[simp] theorem execRefresh_proceeds (ch : Fin 2) (s : State) : Proceeds (execRefresh ch s) s := by
  unfold execRefresh
  dsimp only
  (repeat' split) <;> simp

@[simp] theorem execZqCalibration_proceeds (ch : Fin 2) (s : State) : Proceeds (execZqCalibration ch s) s := by
  unfold execZqCalibration
  (repeat' split) <;> simp

@[simp] theorem execAgePromotion_proceeds (ch : Fin 2) (req : Nat) (s : State) : Proceeds (execAgePromotion ch req s) s := by
  unfold execAgePromotion
  simp

@[simp] theorem execStitchBoundary_proceeds (ms : List MotionSample) (mem : MemStitch) (s : State) :
    Proceeds (execStitchBoundary ms mem s) s := by
  unfold execStitchBoundary
  refine proceeds_ite (by simp) (proceeds_next.2 ?_)
  have hmem : Steady s (memStitch mem (girthBoundary s.tick)) := .after (by simp) (memStitch_steady mem _)
  have hmotion (u : State) : standing (ms.foldl motionSample { u with pat := u.pat.settle [.stitch] }) = standing u := by simp
  refine .trans (.trans (hmem.left (hmotion _)) (steady_of_standing ?_)) (tryBoot_steady _)
  split <;> simp

@[simp] theorem execStitchLoRead_proceeds (s : State) : Proceeds (execStitchLoRead s) s := by
  unfold execStitchLoRead
  simp

@[simp] theorem execChannelStatusRead_proceeds (g : GBeam) (coincident : Nat) (s : State) :
    Proceeds (execChannelStatusRead g coincident s) s := by
  unfold execChannelStatusRead
  simp

@[simp] theorem execChannelStatusWrite_proceeds (g : GBeam) (w : Word) (coincident : Bool) (s : State) :
    Proceeds (execChannelStatusWrite g w coincident s) s := by
  unfold execChannelStatusWrite
  simp

@[simp] theorem execGirthStatRead_proceeds (overruns parity : Nat) (s : State) : Proceeds (execGirthStatRead overruns parity s) s := by
  unfold execGirthStatRead
  simp

@[simp] theorem execGirthLoadRead_proceeds (coincident : Nat) (s : State) : Proceeds (execGirthLoadRead coincident s) s := by
  unfold execGirthLoadRead
  simp

@[simp] theorem execGirthOvrBayWrite_proceeds (w : Word) (coincident : Half) (s : State) :
    Proceeds (execGirthOvrBayWrite w coincident s) s := by
  unfold execGirthOvrBayWrite
  simp

@[simp] theorem execSlotStatWrite_proceeds (i : SlotId) (w : Word) (switched unfinished : Bool) (s : State) :
    Proceeds (execSlotStatWrite i w switched unfinished s) s := by
  unfold execSlotStatWrite
  simp

@[simp] theorem execSpinStatRead_proceeds (b : BayId) (coincident : Nat) (s : State) : Proceeds (execSpinStatRead b coincident s) s := by
  unfold execSpinStatRead
  simp

@[simp] theorem execSpinStatWrite_proceeds (b : BayId) (w : Word) (coincident : Bool) (s : State) :
    Proceeds (execSpinStatWrite b w coincident s) s := by
  unfold execSpinStatWrite
  simp

@[simp] theorem execBusStatRead_proceeds (g : GroupId) (coincident : Nat) (s : State) : Proceeds (execBusStatRead g coincident s) s := by
  unfold execBusStatRead
  simp

@[simp] theorem execSledStatWrite_proceeds (b : BayId) (w : Word) (coincident : Bool) (s : State) :
    Proceeds (execSledStatWrite b w coincident s) s := by
  unfold execSledStatWrite
  simp

@[simp] theorem execRingPortStatRead_proceeds (p : Port) (coincident : Nat) (s : State) :
    Proceeds (execRingPortStatRead p coincident s) s := by
  unfold execRingPortStatRead
  simp

@[simp] theorem execRingPortStatWrite_proceeds (p : Port) (w : Word) (storm nbChange : Bool) (s : State) :
    Proceeds (execRingPortStatWrite p w storm nbChange s) s := by
  unfold execRingPortStatWrite
  simp

@[simp] theorem execRingDropRead_proceeds (p : Port) (fcsBad dropped : Nat) (s : State) :
    Proceeds (execRingDropRead p fcsBad dropped s) s := by
  unfold execRingDropRead
  simp

@[simp] theorem execDramStatRead_proceeds (ch : Fin 2) (ce timeouts retrains : Nat) (s : State) :
    Proceeds (execDramStatRead ch ce timeouts retrains s) s := by
  unfold execDramStatRead
  simp

@[simp] theorem execBurnishStatRead_proceeds (coincident : Nat) (s : State) : Proceeds (execBurnishStatRead coincident s) s := by
  unfold execBurnishStatRead
  simp

@[simp] theorem execCacheStatRead_proceeds (c : Cache) (par fatal : Nat) (s : State) : Proceeds (execCacheStatRead c par fatal s) s := by
  unfold execCacheStatRead
  simp

@[simp] theorem execCacheStatWrite_proceeds (c : Cache) (w : Word) (coincident : Bool) (s : State) :
    Proceeds (execCacheStatWrite c w coincident s) s := by
  unfold execCacheStatWrite
  simp

@[simp] theorem execRgnCtrlWrite_proceeds (i : Fin 16) (w : Word) (s : State) : Proceeds (execRgnCtrlWrite i w s) s := by
  unfold execRgnCtrlWrite
  dsimp only
  (repeat' split) <;> simp

@[simp] theorem execRegisterWrite_proceeds (r : Reg) (w : Word) (s : State) : Proceeds (execRegisterWrite r w s) s := by
  unfold execRegisterWrite
  dsimp only
  (repeat' split) <;> simp

@[simp] theorem execTransitFrame_proceeds (f : Frame) (s : State) : Proceeds (execTransitFrame f s) s := by
  unfold execTransitFrame
  simp

@[simp] theorem execUnknownFrameType_proceeds (f : Frame) (s : State) : Proceeds (execUnknownFrameType f s) s := by
  unfold execUnknownFrameType
  simp

@[simp] theorem execNonYaverFrame_proceeds (p : Port) (s : State) : Proceeds (execNonYaverFrame p s) s := by
  unfold execNonYaverFrame
  (repeat' split) <;> simp

@[simp] theorem execTopology_proceeds (f : Frame) (s : State) : Proceeds (execTopology f s) s := by
  unfold execTopology
  (repeat' split) <;> simp

@[simp] theorem execCutQuiet_proceeds (p : Port) (s : State) : Proceeds (execCutQuiet p s) s := by
  unfold execCutQuiet
  dsimp only
  (repeat' split) <;> simp

@[simp] theorem execPfcXoff_proceeds (p : Port) (pr : Prio) (timer : Half) (s : State) : Proceeds (execPfcXoff p pr timer s) s := by
  unfold execPfcXoff
  (repeat' split) <;> simp

@[simp] theorem execPfcXon_proceeds (p : Port) (pr : Prio) (s : State) : Proceeds (execPfcXon p pr s) s := by
  unfold execPfcXon
  (repeat' split) <;> simp

@[simp] theorem execPfcTimerExpiry_proceeds (p : Port) (pr : Prio) (s : State) : Proceeds (execPfcTimerExpiry p pr s) s := by
  unfold execPfcTimerExpiry
  (repeat' split) <;> simp

@[simp] theorem execPfcXoffRepeat_proceeds (p : Port) (pr : Prio) (s : State) : Proceeds (execPfcXoffRepeat p pr s) s := by
  unfold execPfcXoffRepeat
  dsimp only
  (repeat' split) <;> simp

@[simp] theorem execPfcWatchdogExpiry_proceeds (p : Port) (pr : Prio) (s : State) : Proceeds (execPfcWatchdogExpiry p pr s) s := by
  unfold execPfcWatchdogExpiry
  dsimp only
  (repeat' split) <;> simp

@[simp] theorem execPfcStormDrop_proceeds (p : Port) (pr : Prio) (s : State) : Proceeds (execPfcStormDrop p pr s) s := by
  unfold execPfcStormDrop
  dsimp only
  (repeat' split) <;> simp

@[simp] theorem execPfcStormEnd_proceeds (p : Port) (pr : Prio) (s : State) : Proceeds (execPfcStormEnd p pr s) s := by
  unfold execPfcStormEnd
  dsimp only
  (repeat' split) <;> simp

@[simp] theorem execPcsLock_proceeds (p : Port) (s : State) : Proceeds (execPcsLock p s) s := by
  unfold execPcsLock
  (repeat' split) <;> simp

@[simp] theorem execPcsLoss_proceeds (p : Port) (s : State) : Proceeds (execPcsLoss p s) s := by
  unfold execPcsLoss
  simp

@[simp] theorem execHeartbeatMissLimit_proceeds (p : Port) (s : State) : Proceeds (execHeartbeatMissLimit p s) s := by
  unfold execHeartbeatMissLimit
  dsimp only
  (repeat' split) <;> simp

@[simp] theorem execHeartbeat_proceeds (f : Frame) (s : State) : Proceeds (execHeartbeat f s) s := by
  unfold execHeartbeat
  (repeat' split) <;> simp

@[simp] theorem execIdProbe_proceeds (f : Frame) (s : State) : Proceeds (execIdProbe f s) s := by
  unfold execIdProbe
  (repeat' split) <;> simp

@[simp] theorem execIdClaim_proceeds (f : Frame) (s : State) : Proceeds (execIdClaim f s) s :=
  proceeds_ite (by simp) (proceeds_next.2 (steady_of_standing (receive_standing s f _ fun a => by (repeat' split) <;> simp)))

@[simp] theorem execIdClaimWindowExpiry_proceeds (s : State) : Proceeds (execIdClaimWindowExpiry s) s := by
  unfold execIdClaimWindowExpiry
  split
  · split
    next h =>
      refine proceeds_next.2 (.of_power (m := .transit) (p := s.aon.power) ?_ fun hfit => ?_)
      · rw [tapAnswer_standing, ringEvent_standing]
        exact enterMode_standing rfl _ _
      · simpa [State.domainsFit, h.1, domainMasks] using hfit
    · simp
  · simp

@[simp] theorem execTapTrainTimeout_proceeds (s : State) : Proceeds (execTapTrainTimeout s) s := by
  unfold execTapTrainTimeout
  (repeat' split) <;> simp

@[simp] theorem execRingTap_proceeds (inst node : Byte) (seq0 nonce : Word) (s : State) :
    Proceeds (execRingTap inst node seq0 nonce s) s := by
  unfold execRingTap
  (repeat' split) <;> simp

@[simp] theorem execRingUntap_proceeds (inst : Byte) (s : State) : Proceeds (execRingUntap inst s) s := by
  unfold execRingUntap
  refine proceeds_ite (by simp) ?_
  split
  · simp
  next h =>
    have hmode : s.mode = .retire := by simpa using h
    dsimp only
    have hdown (u : State) (p : BitVec 20) (hu : standing u = (.retire, p, s.mem.cells)) :
        standing (mctpAnswer ((untap u).enterMode .enrol mcSplice) 0x31 inst 0 [0]) = (.enrol, p, s.mem.cells) := by
      rw [mctpAnswer_standing]
      exact enterMode_standing ((untap_standing u).trans hu) _ _
    split
    next =>
      refine proceeds_next.2 (.of_power
        (hdown _ _ (motionDown_standing (powerOff_standing (standing_eq_iff.2 ⟨hmode, rfl, rfl⟩) _))) fun hfit => ?_)
      rw [retireDown_masks hmode hfit]
      decide
    next hoff =>
      refine proceeds_next.2 (.of_power (hdown _ _ (standing_eq_iff.2 ⟨hmode, rfl, rfl⟩)) fun hfit => ?_)
      have hpower : s.aon.power = 0xFFFFF#20 ∨ s.aon.power = 0x0007F#20 := by simpa [State.domainsFit, hmode, domainMasks] using hfit
      rcases hpower with hp | hp
      · exact absurd (by simp [State.powered, hp]; decide) hoff
      · rw [hp]
        decide

@[simp] theorem execRingStatus_proceeds (inst : Byte) (s : State) : Proceeds (execRingStatus inst s) s := by
  unfold execRingStatus
  (repeat' split) <;> simp

@[simp] theorem execLaserSourceUnusable_proceeds (p : Port) (s : State) : Proceeds (execLaserSourceUnusable p s) s := by
  unfold execLaserSourceUnusable
  simp

@[simp] theorem execPortDomainFault_proceeds (p : Port) (s : State) : Proceeds (execPortDomainFault p s) s := by
  unfold execPortDomainFault
  (repeat' split) <;> simp

@[simp] theorem execRefclkRingLost_proceeds (s : State) : Proceeds (execRefclkRingLost s) s := by
  unfold execRefclkRingLost
  simp

@[simp] theorem execVhtrLost_proceeds (s : State) : Proceeds (execVhtrLost s) s := by
  unfold execVhtrLost
  simp

@[simp] theorem execSequencedFrameLaunch_proceeds (q : QpId) (s : State) : Proceeds (execSequencedFrameLaunch q s) s := by
  unfold execSequencedFrameLaunch
  dsimp only
  split
  · simp
  · refine proceeds_ite (by simp) ?_
    split
    · simp
    next t h => exact proceeds_next.2 (steady_of_standing ((modQp_standing _ _ _).trans (originate_some_standing h)))

@[simp] theorem execRtoExpiry_proceeds (q : QpId) (s : State) : Proceeds (execRtoExpiry q s) s := by
  unfold execRtoExpiry
  dsimp only
  (repeat' split) <;> simp

@[simp] theorem execAckTimerExpiry_proceeds (q : QpId) (s : State) : Proceeds (execAckTimerExpiry q s) s := by
  unfold execAckTimerExpiry
  dsimp only
  (repeat' split) <;> simp

@[simp] theorem execQueueOrphanExpiry_proceeds (q : QpId) (s : State) : Proceeds (execQueueOrphanExpiry q s) s := by
  unfold execQueueOrphanExpiry
  dsimp only
  (repeat' split) <;> simp

@[simp] theorem execQpFreed_proceeds (q : QpId) (s : State) : Proceeds (execQpFreed q s) s := by
  unfold execQpFreed
  (repeat' split) <;> simp

@[simp] theorem execAck_proceeds (f : Frame) (s : State) : Proceeds (execAck f s) s := by
  unfold execAck
  (repeat' split) <;> simp

@[simp] theorem execNak_proceeds (f : Frame) (s : State) : Proceeds (execNak f s) s := by
  unfold execNak
  (repeat' split) <;> simp

@[simp] theorem execCmd_proceeds (f : Frame) (s : State) : Proceeds (execCmd f s) s := by
  unfold execCmd
  exact proceeds_ite (by simp) (proceeds_next.2 (steady_of_standing (receive_standing s f _ fun a =>
    sequenced_standing _ _ _ _ fun _ _ _ => storeCmd_some_standing)))

@[simp] theorem execCpl_proceeds (f : Frame) (s : State) : Proceeds (execCpl f s) s := by
  unfold execCpl
  (repeat' split) <;> simp

@[simp] theorem execData_proceeds (f : Frame) (draws : List Word) (s : State) : Proceeds (execData f draws s) s := by
  unfold execData
  exact proceeds_ite (by simp) (proceeds_next.2 (steady_of_standing (receive_standing s f _ fun a =>
    sequenced_standing _ _ _ _ fun _ _ _ => storeData_some_standing)))

@[simp] theorem execDramRetrainDone_proceeds (ch : Fin 2) (ok : Bool) (s : State) : Proceeds (execDramRetrainDone ch ok s) s := by
  unfold execDramRetrainDone
  refine proceeds_ite (by simp) (proceeds_ite (by simp) ?_)
  split
  · exact proceeds_ite (by simp) (by simp)
  · exact proceeds_next.2 (.after (by simp) (beginSelfReset_steady _))

@[simp] theorem execSqeTake_proceeds (s : State) : Proceeds (execSqeTake s) s := by
  unfold execSqeTake
  split
  · simp
  next q u h =>
    have hpick := pickQp_standing h
    (repeat' split) <;> simp [hpick]

@[simp] theorem execRowSolve_proceeds (course : Long) (row : Nat) (s : State) : Proceeds (execRowSolve course row s) s := by
  unfold execRowSolve
  (repeat' split) <;> simp

@[simp] theorem execDiscWaitExpiry_proceeds (req : Nat) (s : State) : Proceeds (execDiscWaitExpiry req s) s := by
  unfold execDiscWaitExpiry
  (repeat' split) <;> simp

@[simp] theorem execReadSectorDelivery_proceeds (q : QpId) (tag : Nat) (s : State) : Proceeds (execReadSectorDelivery q tag s) s := by
  unfold execReadSectorDelivery
  (repeat' split) <;> simp

@[simp] theorem execRead_proceeds (q : QpId) (tag : Nat) (s : State) : Proceeds (execRead q tag s) s :=
  serve_proceeds (fun c => by (repeat' split) <;> simp) q tag _

@[simp] theorem execVerify_proceeds (q : QpId) (tag : Nat) (s : State) : Proceeds (execVerify q tag s) s :=
  serve_proceeds (fun c => by (repeat' split) <;> simp) q tag _

@[simp] theorem execDataUndefinedOpcode_proceeds (q : QpId) (tag : Nat) (s : State) : Proceeds (execDataUndefinedOpcode q tag s) s := by
  unfold execDataUndefinedOpcode
  (repeat' split) <;> simp

@[simp] theorem execAppend_proceeds (q : QpId) (tag : Nat) (s : State) : Proceeds (execAppend q tag s) s :=
  serve_proceeds (fun c => by (repeat' split) <;> simp) q tag _

@[simp] theorem execFlush_proceeds (q : QpId) (tag : Nat) (s : State) : Proceeds (execFlush q tag s) s :=
  serve_proceeds (fun c => by simp) q tag _

@[simp] theorem execSeal_proceeds (q : QpId) (tag : Nat) (s : State) : Proceeds (execSeal q tag s) s :=
  serve_proceeds (fun c => by simp) q tag _

@[simp] theorem execReleaseCourse_proceeds (q : QpId) (tag : Nat) (s : State) : Proceeds (execReleaseCourse q tag s) s :=
  serve_proceeds (fun c => by simp) q tag _

@[simp] theorem execMount_proceeds (q : QpId) (tag : Nat) (s : State) : Proceeds (execMount q tag s) s :=
  serve_proceeds (fun c => by dsimp only; (repeat' split) <;> simp) q tag _

@[simp] theorem execMountUnavailable_proceeds (q : QpId) (tag : Nat) (s : State) : Proceeds (execMountUnavailable q tag s) s :=
  serve_proceeds (fun c => by dsimp only; (repeat' split) <;> simp) q tag _

@[simp] theorem execMountOpenCourse_proceeds (q : QpId) (tag : Nat) (s : State) : Proceeds (execMountOpenCourse q tag s) s :=
  serve_proceeds (fun c => by dsimp only; (repeat' split) <;> simp) q tag _

@[simp] theorem execRelease_proceeds (q : QpId) (tag : Nat) (s : State) : Proceeds (execRelease q tag s) s :=
  serve_proceeds (fun c => by dsimp only; (repeat' split) <;> simp) q tag _

@[simp] theorem execDeadlineExpiry_proceeds (q : QpId) (tag : Nat) (s : State) : Proceeds (execDeadlineExpiry q tag s) s := by
  unfold execDeadlineExpiry
  (repeat' split) <;> simp

@[simp] theorem execRecoveryStepLimit_proceeds (b : BayId) (layer : Fin 6) (block sector : Nat) (s : State) :
    Proceeds (execRecoveryStepLimit b layer block sector s) s := by
  unfold execRecoveryStepLimit
  dsimp only
  (repeat' split) <;> simp

@[simp] theorem execThatchDecode_proceeds (b : BayId) (layer : Fin 6) (block : Nat) (s : State) :
    Proceeds (execThatchDecode b layer block s) s := by
  unfold execThatchDecode
  (repeat' split) <;> simp

@[simp] theorem execRereadPassDone_proceeds (b : BayId) (layer : Fin 6) (block : Nat) (s : State) :
    Proceeds (execRereadPassDone b layer block s) s := by
  unfold execRereadPassDone
  dsimp only
  (repeat' split) <;> simp

@[simp] theorem execCourseReconstruction_proceeds (b : BayId) (layer : Fin 6) (block : Nat) (s : State) :
    Proceeds (execCourseReconstruction b layer block s) s := by
  unfold execCourseReconstruction
  dsimp only
  (repeat' split) <;> simp

@[simp] theorem execPd0SupplyApplied_proceeds (smbAddr : Fin 8) (dramCfg : Fin 4) (s : State) :
    Proceeds (execPd0SupplyApplied smbAddr dramCfg s) s := by
  unfold execPd0SupplyApplied
  split
  · simp
  · exact proceeds_next.2 (.intro (m := .reset) (p := 1) (l := []) rfl (fun _ => by decide) fun _ => rfl)

@[simp] theorem execPd0SupplyLost_proceeds (s : State) : Proceeds (execPd0SupplyLost s) s := by
  unfold execPd0SupplyLost
  split
  · simp
  · refine proceeds_next.2 (.intro (m := .dark) (p := 0) (l := []) ?_ (fun _ => by decide) fun _ => rfl)
    dsimp only
    split <;> rfl

@[simp] theorem execResetNAsserted_proceeds (smbAddr : Fin 8) (dramCfg : Fin 4) (s : State) :
    Proceeds (execResetNAsserted smbAddr dramCfg s) s := by
  unfold execResetNAsserted
  dsimp only
  split
  · simp
  · exact proceeds_next.2 (.left (.after (by simp) (resetHeld_steady _ 1)) (straps_standing _ _ _))

@[simp] theorem execResetNReleased_proceeds (smbAddr : Fin 8) (dramCfg : Fin 4) (testEn : Bool) (s : State) :
    Proceeds (execResetNReleased smbAddr dramCfg testEn s) s := by
  unfold execResetNReleased
  dsimp only
  split
  · simp
  · exact proceeds_next.2 (.after (by simp) (tryBoot_steady _))

@[simp] theorem execRailFault_proceeds (r : Rail) (s : State) : Proceeds (execRailFault r s) s :=
  proceeds_next.2 (.after (by simp) (resetHeld_steady _ 4))

@[simp] theorem execRailRestored_proceeds (r : Rail) (s : State) : Proceeds (execRailRestored r s) s :=
  proceeds_next.2 (.after (by simp) (tryBoot_steady _))

@[simp] theorem execRefclkSysLost_proceeds (s : State) : Proceeds (execRefclkSysLost s) s :=
  proceeds_next.2 (.after (by simp) (resetHeld_steady _ 4))

@[simp] theorem execRefclkSysRestored_proceeds (s : State) : Proceeds (execRefclkSysRestored s) s :=
  proceeds_next.2 (.after (by simp) (tryBoot_steady _))

@[simp] theorem execDramTrainingComplete_proceeds (ch : Fin 2) (ok : Bool) (s : State) : Proceeds (execDramTrainingComplete ch ok s) s := by
  unfold execDramTrainingComplete
  dsimp only
  refine proceeds_ite (by simp) (proceeds_ite (proceeds_next.2 (steady_ite (fun _ => .after (by simp) (allocateRegions_steady _)) fun _ => by simp))
    (proceeds_ite (by simp) (by simp)))

@[simp] theorem execImageStart_proceeds (dir0 dir1 : List Byte) (imgA imgB : ImageFile) (elsEast elsWest selfTest : Bool) (s : State) :
    Proceeds (execImageStart dir0 dir1 imgA imgB elsEast elsWest selfTest s) s := by
  unfold execImageStart
  split
  · simp
  next h =>
    split
    · simp
    · exact proceeds_next.2 (startImage_steady (by simp_all) _ _ _ _ _)

@[simp] theorem execWatchdogExpiry_proceeds (core : Fin 2) (s : State) : Proceeds (execWatchdogExpiry core s) s :=
  proceeds_ite (proceeds_next.2 (mgmtRestart_steady s _ _ _)) (by simp)

@[simp] theorem execMgmtRestartComplete_proceeds (s : State) : Proceeds (execMgmtRestartComplete s) s := by
  unfold execMgmtRestartComplete
  (repeat' split) <;> simp

@[simp] theorem execSelfResetEntry_proceeds (s : State) : Proceeds (execSelfResetEntry s) s := by
  unfold execSelfResetEntry
  split
  · exact proceeds_ite (proceeds_next.2 (selfResetNow_steady s)) (by simp)
  · simp

@[simp] theorem execConstrainedExit_proceeds (s : State) : Proceeds (execConstrainedExit s) s := by
  unfold execConstrainedExit
  split
  · split
    next h =>
      refine proceeds_next.2 (.of_power (enterMode_standing rfl _ _) fun hfit => ?_)
      simpa [State.domainsFit, h.1, domainMasks] using hfit
    · simp
  · simp

@[simp] theorem execQuiesceDrained_proceeds (s : State) : Proceeds (execQuiesceDrained s) s := by
  unfold execQuiesceDrained
  (repeat' split) <;> simp

@[simp] theorem execRetirePowerDown_proceeds (s : State) : Proceeds (execRetirePowerDown s) s := by
  unfold execRetirePowerDown
  split
  next h =>
    refine proceeds_next.2 (.of_power (motionDown_standing (powerOff_standing (standing_self s) _)) fun hfit => ?_)
    rw [retireDown_masks h.1 hfit, h.1]
    decide
  · simp

@[simp] theorem execSectorSlotRead_proceeds (b : BayId) (o : SlotObs) (s : State) : Proceeds (execSectorSlotRead b o s) s := by
  unfold execSectorSlotRead
  dsimp only
  (repeat' split) <;> simp

@[simp] theorem execNoSync_proceeds (b : BayId) (s : State) : Proceeds (execNoSync b s) s := by
  unfold execNoSync
  dsimp only
  (repeat' split) <;> simp

@[simp] theorem execRidgeCoastExpiry_proceeds (b : BayId) (s : State) : Proceeds (execRidgeCoastExpiry b s) s := by
  unfold execRidgeCoastExpiry
  dsimp only
  (repeat' split) <;> simp

@[simp] theorem execRidgeRelock_proceeds (b : BayId) (s : State) : Proceeds (execRidgeRelock b s) s := by
  unfold execRidgeRelock
  dsimp only
  (repeat' split) <;> simp

@[simp] theorem execSeamOffsetSearch_proceeds (b : BayId) (s : State) : Proceeds (execSeamOffsetSearch b s) s := by
  unfold execSeamOffsetSearch
  dsimp only
  (repeat' split) <;> simp

@[simp] theorem execRetryStoreCopy_proceeds (b : BayId) (a : SlotAddr) (s : State) : Proceeds (execRetryStoreCopy b a s) s := by
  unfold execRetryStoreCopy
  (repeat' split) <;> simp

@[simp] theorem execEaveSample_proceeds (raw : List (Fin 16 × Int)) (s : State) : Proceeds (execEaveSample raw s) s := by
  unfold execEaveSample
  refine proceeds_ite (by simp) ?_
  dsimp only
  split
  · exact proceeds_ite (by simp) (proceeds_next.2 (.left (.after (takeReadings_standing s raw) (enterDark_steady _ 5)) (by simp)))
  · exact proceeds_next.2 (.after (by simp) (govern_steady _ _))

@[simp] theorem execEaveReleaseDwell_proceeds (s : State) : Proceeds (execEaveReleaseDwell s) s := by
  unfold execEaveReleaseDwell
  split
  · split
    next h => exact proceeds_next.2 (setStep_steady (.inl (by omega)))
    · simp
  · simp

@[simp] theorem execStep1SixtySecondExpiry_proceeds (s : State) : Proceeds (execStep1SixtySecondExpiry s) s :=
  proceeds_ite (proceeds_next.2 (setStep_steady (.inl (by decide)))) (by simp)

@[simp] theorem execGroupPark_proceeds (s : State) : Proceeds (execGroupPark s) s := by
  unfold execGroupPark
  (repeat' split) <;> simp

@[simp] theorem execGroupParkRepeat_proceeds (s : State) : Proceeds (execGroupParkRepeat s) s := by
  unfold execGroupParkRepeat
  (repeat' split) <;> simp

@[simp] theorem execCapParkTimer_proceeds (s : State) : Proceeds (execCapParkTimer s) s := by
  unfold execCapParkTimer
  (repeat' split) <;> simp

@[simp] theorem execGroupUnpark_proceeds (s : State) : Proceeds (execGroupUnpark s) s := by
  unfold execGroupUnpark
  refine proceeds_ite (by simp) ?_
  dsimp only
  split
  · exact proceeds_next.2 (.after (by simp) (unparkGroup_steady _ _))
  · exact proceeds_next.2 (.after (by simp) (unparkGroup_steady _ _))
  · simp

@[simp] theorem execIdentify_proceeds (s : State) : Proceeds (execIdentify s) s := by
  unfold execIdentify
  simp

@[simp] theorem execGetLog_proceeds (s : State) : Proceeds (execGetLog s) s := by
  unfold execGetLog
  simp

@[simp] theorem execGetLogClear_proceeds (s : State) : Proceeds (execGetLogClear s) s := by
  unfold execGetLogClear
  simp

@[simp] theorem execSetPattern_proceeds (s : State) : Proceeds (execSetPattern s) s := by
  unfold execSetPattern
  simp

@[simp] theorem execGetPattern_proceeds (s : State) : Proceeds (execGetPattern s) s := by
  unfold execGetPattern
  simp

@[simp] theorem execCalLoad_proceeds (s : State) : Proceeds (execCalLoad s) s := by
  unfold execCalLoad
  simp

@[simp] theorem execCalRead_proceeds (s : State) : Proceeds (execCalRead s) s := by
  unfold execCalRead
  simp

@[simp] theorem execKeyLoad_proceeds (s : State) : Proceeds (execKeyLoad s) s := by
  unfold execKeyLoad
  simp

@[simp] theorem execKeyErase_proceeds (s : State) : Proceeds (execKeyErase s) s := by
  unfold execKeyErase
  simp

@[simp] theorem execKeyEraseAll_proceeds (s : State) : Proceeds (execKeyEraseAll s) s := by
  unfold execKeyEraseAll
  simp

@[simp] theorem execModeRequest_proceeds (s : State) : Proceeds (execModeRequest s) s :=
  adminRun_proceeds modeRequest_steady s

@[simp] theorem execQpCreate_proceeds (s : State) : Proceeds (execQpCreate s) s := by
  unfold execQpCreate
  simp

@[simp] theorem execQpDelete_proceeds (s : State) : Proceeds (execQpDelete s) s := by
  unfold execQpDelete
  simp

@[simp] theorem execEventArm_proceeds (s : State) : Proceeds (execEventArm s) s := by
  unfold execEventArm
  simp

@[simp] theorem execEventArmMaskOnly_proceeds (s : State) : Proceeds (execEventArmMaskOnly s) s := by
  unfold execEventArmMaskOnly
  simp

@[simp] theorem execEventDelivery_proceeds (s : State) : Proceeds (execEventDelivery s) s := by
  unfold execEventDelivery
  (repeat' split) <;> simp

@[simp] theorem execFwStage_proceeds (s : State) : Proceeds (execFwStage s) s := by
  unfold execFwStage
  simp

@[simp] theorem execFwActivateLive_proceeds (s : State) : Proceeds (execFwActivateLive s) s :=
  adminRun_proceeds fwActivateLive_steady s

@[simp] theorem execCommitSvn_proceeds (s : State) : Proceeds (execCommitSvn s) s := by
  unfold execCommitSvn
  simp

@[simp] theorem execWeltRetrain_proceeds (s : State) : Proceeds (execWeltRetrain s) s := by
  unfold execWeltRetrain
  simp

@[simp] theorem execSafeRestart_proceeds (s : State) : Proceeds (execSafeRestart s) s := by
  unfold execSafeRestart
  simp

@[simp] theorem execChopperClear_proceeds (s : State) : Proceeds (execChopperClear s) s := by
  unfold execChopperClear
  simp

@[simp] theorem execBayOut_proceeds (s : State) : Proceeds (execBayOut s) s := by
  unfold execBayOut
  simp

@[simp] theorem execBayIn_proceeds (s : State) : Proceeds (execBayIn s) s := by
  unfold execBayIn
  simp

@[simp] theorem execRehome_proceeds (s : State) : Proceeds (execRehome s) s := by
  unfold execRehome
  simp

@[simp] theorem execAdminUndefinedOpcode_proceeds (s : State) : Proceeds (execAdminUndefinedOpcode s) s := by
  unfold execAdminUndefinedOpcode
  simp

@[simp] theorem execAdminPayloadTimeout_proceeds (g : Gateway) (tag : Nat) (s : State) : Proceeds (execAdminPayloadTimeout g tag s) s := by
  unfold execAdminPayloadTimeout
  (repeat' split) <;> simp

@[simp] theorem execLdpcDecodeDone_proceeds (b : BayId) (a : SlotAddr) (r : DecodeReport) (s : State) :
    Proceeds (execLdpcDecodeDone b a r s) s := by
  unfold execLdpcDecodeDone
  dsimp only
  (repeat' split) <;> simp

@[simp] theorem execGetStatus_proceeds (inst : Byte) (s : State) : Proceeds (execGetStatus inst s) s := by
  unfold execGetStatus
  (repeat' split) <;> simp

@[simp] theorem execGetTemps_proceeds (inst : Byte) (s : State) : Proceeds (execGetTemps inst s) s := by
  unfold execGetTemps
  (repeat' split) <;> simp

@[simp] theorem execReset_proceeds (inst : Byte) (s : State) : Proceeds (execReset inst s) s :=
  proceeds_ite (by simp) (proceeds_ite (by simp) (proceeds_next.2 (.after (mctpAnswer_standing _ _ _ _ _) (enterReset_steady _ 2))))

@[simp] theorem execWake_proceeds (inst : Byte) (s : State) : Proceeds (execWake inst s) s :=
  proceeds_ite (by simp) (proceeds_ite (by simp) (proceeds_ite (by simp) (proceeds_next.2 (.trans
    (t := { mctpAnswer s 0x13 inst 0 [] with aon := { s.aon with selfResets := [] } }) (steady_of_standing rfl) (enterReset_steady _ 8)))))

@[simp] theorem execShutdown_proceeds (inst : Byte) (s : State) : Proceeds (execShutdown inst s) s :=
  proceeds_ite (by simp) (proceeds_next.2 (.after (mctpAnswer_standing _ _ _ _ _) (enterDark_steady _ 6)))

@[simp] theorem execSafeStop_proceeds (inst : Byte) (s : State) : Proceeds (execSafeStop inst s) s := by
  unfold execSafeStop
  refine proceeds_ite (by simp) ?_
  split
  · simp
  next h =>
    refine proceeds_next.2 (steady_ite (fun _ => by simp) fun _ => .after (mctpAnswer_standing _ _ _ _ _) (enterSafeStop_steady ?_ _))
    have hmode : (mctpAnswer s 0x15 inst 0 []).mode = s.mode := mctpAnswer_changesOnly s 0x15 inst 0 [] .mode (by simp)
    rw [hmode]
    simpa using h

@[simp] theorem execClaos_proceeds (inst : Byte) (sqe payload : List Byte) (s : State) : Proceeds (execClaos inst sqe payload s) s := by
  unfold execClaos
  dsimp only
  (repeat' split) <;> simp

@[simp] theorem execMctpVendorUnsupported_proceeds (inst code : Byte) (s : State) : Proceeds (execMctpVendorUnsupported inst code s) s := by
  unfold execMctpVendorUnsupported
  (repeat' split) <;> simp

@[simp] theorem execSetEndpointId_proceeds (eid : Byte) (s : State) : Proceeds (execSetEndpointId eid s) s := by
  unfold execSetEndpointId
  (repeat' split) <;> simp

@[simp] theorem execGetEndpointId_proceeds (s : State) : Proceeds (execGetEndpointId s) s := by
  unfold execGetEndpointId
  (repeat' split) <;> simp

@[simp] theorem execGetEndpointUuid_proceeds (s : State) : Proceeds (execGetEndpointUuid s) s := by
  unfold execGetEndpointUuid
  (repeat' split) <;> simp

@[simp] theorem execGetMctpVersionSupport_proceeds (s : State) : Proceeds (execGetMctpVersionSupport s) s := by
  unfold execGetMctpVersionSupport
  (repeat' split) <;> simp

@[simp] theorem execGetMessageTypeSupport_proceeds (s : State) : Proceeds (execGetMessageTypeSupport s) s := by
  unfold execGetMessageTypeSupport
  (repeat' split) <;> simp

@[simp] theorem execGetVendorDefinedMessageSupport_proceeds (s : State) : Proceeds (execGetVendorDefinedMessageSupport s) s := by
  unfold execGetVendorDefinedMessageSupport
  (repeat' split) <;> simp

@[simp] theorem execMctpControlUnsupported_proceeds (code : Byte) (s : State) : Proceeds (execMctpControlUnsupported code s) s := by
  unfold execMctpControlUnsupported
  (repeat' split) <;> simp

@[simp] theorem execSpanBoundary_proceeds (power codedInput : Nat) (mr4a mr4b : Fin 5) (driftA driftB : Int) (fecEast fecWest : Nat) (s : State) :
    Proceeds (execSpanBoundary power codedInput mr4a mr4b driftA driftB fecEast fecWest s) s := by
  unfold execSpanBoundary
  refine proceeds_ite (by simp) (proceeds_next.2 (.left
    (.after (t := { s with pat := s.pat.settle [.span] }) (by simp) (bucketSpan_steady _ power codedInput)) ?_))
  simp

@[simp] theorem execTapInstruction_proceeds (i : TapInstr) (s : State) : Proceeds (execTapInstruction i s) s := by
  unfold execTapInstruction
  (repeat' split) <;> simp

@[simp] theorem execGetVersion_proceeds (v : SpdmVia) (s : State) : Proceeds (execGetVersion v s) s :=
  spdmRun_proceeds (by simp) s

@[simp] theorem execGetCapabilities_proceeds (v : SpdmVia) (s : State) : Proceeds (execGetCapabilities v s) s :=
  spdmRun_proceeds (by simp) s

@[simp] theorem execNegotiateAlgorithms_proceeds (v : SpdmVia) (s : State) : Proceeds (execNegotiateAlgorithms v s) s :=
  spdmRun_proceeds (by simp) s

@[simp] theorem execGetDigests_proceeds (v : SpdmVia) (s : State) : Proceeds (execGetDigests v s) s :=
  spdmRun_proceeds (by simp) s

@[simp] theorem execGetCertificate_proceeds (v : SpdmVia) (slot offset length : Nat) (s : State) :
    Proceeds (execGetCertificate v slot offset length s) s :=
  spdmRun_proceeds (by simp) s

@[simp] theorem execChallenge_proceeds (v : SpdmVia) (slot : Nat) (nonce : List Byte) (s : State) :
    Proceeds (execChallenge v slot nonce s) s :=
  spdmRun_proceeds (by simp) s

@[simp] theorem execGetMeasurements_proceeds (v : SpdmVia) (index : Nat) (sign : Bool) (nonce : List Byte) (s : State) :
    Proceeds (execGetMeasurements v index sign nonce s) s :=
  spdmRun_proceeds (by simp) s

@[simp] theorem execKeyExchange_proceeds (v : SpdmVia) (reqSession : Half) (exchange : List Byte) (s : State) :
    Proceeds (execKeyExchange v reqSession exchange s) s :=
  spdmRun_proceeds (by simp) s

@[simp] theorem execFinish_proceeds (v : SpdmVia) (sid : Word) (verifyData : List Byte) (s : State) :
    Proceeds (execFinish v sid verifyData s) s :=
  spdmRun_proceeds (by simp) s

@[simp] theorem execSpdmHeartbeat_proceeds (v : SpdmVia) (sid : Word) (s : State) : Proceeds (execSpdmHeartbeat v sid s) s :=
  spdmRun_proceeds (by simp) s

@[simp] theorem execKeyUpdate_proceeds (v : SpdmVia) (sid : Word) (op : Nat) (s : State) : Proceeds (execKeyUpdate v sid op s) s :=
  spdmRun_proceeds (inSession_standing (fun u => by split <;> simp) sid) s

@[simp] theorem execEndSession_proceeds (v : SpdmVia) (sid : Word) (s : State) : Proceeds (execEndSession v sid s) s :=
  spdmRun_proceeds (by simp) s

@[simp] theorem execSpdmUnsupportedRequest_proceeds (v : SpdmVia) (code : Byte) (s : State) :
    Proceeds (execSpdmUnsupportedRequest v code s) s :=
  proceeds_ite (by simp) (spdmRun_proceeds (by simp) s)

@[simp] theorem execSpdmTunnel_proceeds (s : State) : Proceeds (execSpdmTunnel s) s :=
  adminRun_proceeds_of_standing (fun c u => by simp) s

@[simp] theorem execSessionOpen_proceeds (b : BayId) (draws : List Word) (s : State) : Proceeds (execSessionOpen b draws s) s := by
  unfold execSessionOpen
  dsimp only
  (repeat' split) <;> simp

@[simp] theorem execBlankScanDone_proceeds (b : BayId) (s : State) : Proceeds (execBlankScanDone b s) s := by
  unfold execBlankScanDone
  (repeat' split) <;> simp

@[simp] theorem execOpcDone_proceeds (b : BayId) (blankUnits : List Nat) (peaks : List (Option (Int × Int))) (s : State) :
    Proceeds (execOpcDone b blankUnits peaks s) s := by
  unfold execOpcDone
  split
  · refine proceeds_ite (by simp) ?_
    extract_lets l h last p0 next fits band set s1
    have hset (t : State) (p : Int) (u : Nat) : standing (set t p u) = standing t := modWrite_standing _ _ _
    have hs1 : standing s1 = standing s := by
      unfold s1
      clear_value fits set
      cases fits with
      | nil => exact (bayLogFree_standing _ _ _).trans (hset _ _ _)
      | cons x r =>
        dsimp only
        split <;> simp [hset]
    clear_value s1
    split
    · exact proceeds_next.2 (steady_of_standing (by split <;> simp [hs1]))
    · exact proceeds_next.2 (steady_of_standing hs1)
  · simp

@[simp] theorem execRunResume_proceeds (b : BayId) (fifoPct offset : Nat) (s : State) : Proceeds (execRunResume b fifoPct offset s) s := by
  unfold execRunResume
  dsimp only
  (repeat' split) <;> simp

@[simp] theorem execWriteSlotEnd_proceeds (b : BayId) (err : Int) (fifoPct : Nat) (s : State) :
    Proceeds (execWriteSlotEnd b err fifoPct s) s := by
  unfold execWriteSlotEnd
  dsimp only
  (repeat' split) <;> simp

@[simp] theorem execFifoUnderrun_proceeds (b : BayId) (missingFrom fifoBits : Nat) (s : State) :
    Proceeds (execFifoUnderrun b missingFrom fifoBits s) s := by
  unfold execFifoUnderrun
  dsimp only
  (repeat' split) <;> simp

@[simp] theorem execDrainComplete_proceeds (b : BayId) (s : State) : Proceeds (execDrainComplete b s) s := by
  unfold execDrainComplete
  (repeat' split) <;> simp

@[simp] theorem execResumeMaxExpiry_proceeds (b : BayId) (s : State) : Proceeds (execResumeMaxExpiry b s) s := by
  unfold execResumeMaxExpiry
  dsimp only
  (repeat' split) <;> simp

@[simp] theorem execVerifySegmentEnd_proceeds (b : BayId) (s : State) : Proceeds (execVerifySegmentEnd b s) s := by
  unfold execVerifySegmentEnd
  dsimp only
  (repeat' split) <;> simp

@[simp] theorem execVerifyPassDone_proceeds (b : BayId) (s : State) : Proceeds (execVerifyPassDone b s) s := by
  unfold execVerifyPassDone
  dsimp only
  (repeat' split) <;> simp

@[simp] theorem execReplacementRunDone_proceeds (b : BayId) (s : State) : Proceeds (execReplacementRunDone b s) s := by
  unfold execReplacementRunDone
  dsimp only
  (repeat' split) <;> simp

@[simp] theorem execSessionIdleExpiry_proceeds (handle : Nat) (s : State) : Proceeds (execSessionIdleExpiry handle s) s := by
  unfold execSessionIdleExpiry
  (repeat' split) <;> simp

@[simp] theorem execSessionClose_proceeds (handle : Nat) (s : State) : Proceeds (execSessionClose handle s) s := by
  unfold execSessionClose
  dsimp only
  (repeat' split) <;> simp

@[simp] theorem execDmaUpdateReadback_proceeds (b : BayId) (blank aValid bValid : Bool) (s : State) :
    Proceeds (execDmaUpdateReadback b blank aValid bValid s) s := by
  unfold execDmaUpdateReadback
  (repeat' split) <;> simp

/-- Every command answers a next state, over which the domains keep to the mode and DRAM to its canonical form. -/
theorem exec_proceeds (c : Instr) (s : State) : Proceeds (exec c s) s := by
  cases c <;> simp [exec]

theorem step_steady {s t : State} (h : step s = .next t) : Steady s t := by
  unfold step at h
  split at h
  · cases h
    exact .refl s
  next c rest _ =>
    obtain ⟨u, hu, hsteady⟩ := exec_proceeds c { s with pending := rest }
    obtain rfl : u = t := by simpa using hu.symm.trans h
    exact .after (t := { s with pending := rest }) rfl hsteady

/-- Settles O54: a step is a match on the queue. -/
theorem stepRunsTheFrontCommandOnTheRestOfTheQueue : Obligations.StepRunsTheFrontCommandOnTheRestOfTheQueue := by
  unfold Obligations.StepRunsTheFrontCommandOnTheRestOfTheQueue
  refine ⟨fun c rest s h => ?_, fun c s => rfl, fun s h => ?_, fun n w => ⟨rfl, fun s => rfl⟩⟩
  · unfold step
    rw [h]
  · unfold step
    rw [h]

/-- Settles O55, command by command. -/
theorem everyCommandAnswersANextState : Obligations.EveryCommandAnswersANextState := by
  intro c s
  obtain ⟨t, ht, -⟩ := exec_proceeds c s
  exact ⟨t, ht⟩

/-- Settles O57: the writes of whole lines keep the canonical form, and every other command leaves DRAM's content or empties it. -/
theorem memoryStaysInItsCanonicalForm : Obligations.MemoryStaysInItsCanonicalForm := fun _ _ hwf hstep => (step_steady hstep).memory hwf

/-- Settles O59: each entry to a mode switches the domains from those of the modes it is entered from. -/
theorem domainsFollowTheMode : Obligations.DomainsFollowTheMode := fun _ _ hfit hstep => (step_steady hstep).domains hfit

end Sys2Proof.Proofs
end

section
/-! SUPPORT. RESET is left for BOOT once its condition holds (R400, R406, R426, R452). -/

namespace Sys2Proof.Proofs

open Sys2Proof Sys2Proof.Machine Sys2Proof.Laws

theorem modCache_chans (s : State) (k : Cache) (f : CacheState → CacheState) :
    (s.modCache k f).mem.ch0 = s.mem.ch0 ∧ (s.modCache k f).mem.ch1 = s.mem.ch1 := by
  unfold State.modCache
  cases k with
  | l1i c | l1d c => dsimp only; split <;> exact ⟨rfl, rfl⟩
  | l2 => exact ⟨rfl, rfl⟩

theorem modCache_l2_invDone {f : CacheState → CacheState} (hf : ∀ c, (f c).invDone = c.invDone) (s : State) (k : Cache) :
    (s.modCache k f).mem.l2.invDone = s.mem.l2.invDone := by
  unfold State.modCache
  cases k with
  | l1i c | l1d c => dsimp only; split <;> rfl
  | l2 => exact hf _

theorem cacheEnable_chans (s : State) : (cacheEnable s).mem.ch0 = s.mem.ch0 ∧ (cacheEnable s).mem.ch1 = s.mem.ch1 := by
  simp only [cacheEnable, modCache_chans, and_self]

theorem cacheEnable_l2_invDone (s : State) : (cacheEnable s).mem.l2.invDone = s.mem.l2.invDone := by
  have hone (t : State) (k : Cache) (v : Bool) : (t.modCache k fun c =>
      if v then (if c.invDone && !c.walking then { c with en := true } else c)
      else if c.en then { c with en := false, walking := true } else c).mem.l2.invDone = t.mem.l2.invDone :=
    modCache_l2_invDone (fun c => by (repeat' split) <;> rfl) t k
  simp only [cacheEnable, hone]

/-- BOOT as it is entered from RESET (R406, R426, R452): PD1, PD5 and PD6 are on as well, both channels train, the caches are
invalidated, and the straps stand. -/
theorem enterBoot_facts (s : State) : (enterBoot s).mode = .boot ∧ (enterBoot s).aon = (s.powerOn [1, 5, 6]).aon ∧
    (enterBoot s).mem.ch0.state = .training ∧ (enterBoot s).mem.ch1.state = .training ∧ (enterBoot s).mem.l2.invDone = true := by
  refine ⟨enterBoot_mode s, cacheEnable_changesOnly _ .aon (by simp), ?_, ?_, cacheEnable_l2_invDone _⟩
  · exact congrArg DramChan.state (cacheEnable_chans _).1
  · exact congrArg DramChan.state (cacheEnable_chans _).2

theorem tryBoot_of_ready {s : State} (h : bootReady s = true) : tryBoot s = enterBoot s := if_pos h

theorem tryBoot_of_not_ready {s : State} (h : bootReady s = false) : tryBoot s = s := by simp [tryBoot, h]

theorem tryBoot_facts {s : State} (h : bootReady s = true) : (tryBoot s).mode = .boot ∧ (tryBoot s).aon = (s.powerOn [1, 5, 6]).aon := by
  obtain ⟨hmode, haon, -⟩ := enterBoot_facts s
  rw [tryBoot_of_ready h]
  exact ⟨hmode, haon⟩

/-- Settles O6: the condition of R400 is what each of the commands completes, and the entry to BOOT is said once. -/
theorem bootFollowsOnceTheConditionHolds : Obligations.BootFollowsOnceTheConditionHolds := by
  unfold Obligations.BootFollowsOnceTheConditionHolds
  refine ⟨fun a d s hmode hsupply hrails href hpower => ?_, fun a d s hmode hsupply => ?_, fun r s hmode hsupply hreset htest href hrails => ?_,
    fun s hmode hsupply hreset htest hrails => ?_, fun s hmode hreset => ?_⟩
  · let u : State := { s with aon := { s.aon with resetN := false, testEn := false, smbAddr := a, dramCfg := d } }
    have hu : bootReady u = true := by simp [bootReady, u, hmode, hsupply, hrails, href]
    have hexec : exec (.resetNReleased a d false) s = .next (tryBoot u) := if_neg (by simp [hsupply])
    obtain ⟨hboot, haon, hch0, hch1, hl2⟩ := enterBoot_facts u
    refine ⟨_, hexec, ?_⟩
    rw [tryBoot_of_ready hu]
    refine ⟨hboot, ?_, hch0, hch1, hl2, by rw [haon]; rfl, by rw [haon]; rfl, by rw [haon]; rfl⟩
    rw [haon]
    change s.aon.power ||| _ = _
    rw [hpower]
    rfl
  · let u : State := { s with aon := { s.aon with resetN := false, testEn := true, smbAddr := a, dramCfg := d } }
    have hexec : exec (.resetNReleased a d true) s = .next (tryBoot u) := if_neg (by simp [hsupply])
    exact ⟨u, by rw [hexec, tryBoot_of_not_ready (by simp [bootReady, u])], hmode, rfl, rfl, withAon_changesOnly s _⟩
  · have hgone : s.aon.badRails.filter (· != r) = [] := List.filter_eq_nil_iff.2 fun x hx => by simp [hrails x hx]
    obtain ⟨hboot, haon⟩ := tryBoot_facts (s := { s with aon := { s.aon with badRails := s.aon.badRails.filter (· != r) }
                                                         ring := { s.ring with vhtr := s.ring.vhtr || r == .vhtr } })
      (by simp [bootReady, hmode, hsupply, hreset, htest, href, hgone])
    exact ⟨_, rfl, hboot, by rw [haon]; exact hgone⟩
  · obtain ⟨hboot, haon⟩ := tryBoot_facts (s := { s with aon := { s.aon with refSys := true } })
      (by simp [bootReady, hmode, hsupply, hreset, htest, hrails])
    exact ⟨_, rfl, hboot, by rw [haon]; rfl⟩
  · refine ⟨_, congrArg Host.Outcome.next (tryBoot_of_not_ready (s := { s with aon := { s.aon with refSys := true } }) ?_), hmode,
      withAon_changesOnly s _⟩
    simp [bootReady, hreset]

end Sys2Proof.Proofs
end

section
/-! SUPPORT. BOOT: the training of DRAM, the regions and the start of an image (R404 to R406, R426, R427, R431). -/

namespace Sys2Proof.Proofs

open Sys2Proof Sys2Proof.Machine Sys2Proof.Laws

theorem copyCause_changesOnly (s : State) : s.changesOnly [.logs, .events, .freeCtr] (copyCause s) := by
  have htherm (x : Nat) : s.changesOnly [.logs, .events, .freeCtr] (s.thermLog 8 x 0xFF) := changesOnly_mono (thermLog_changesOnly s _ _ _) (by simp)
  unfold copyCause
  dsimp only
  split
  · exact changesOnly_trans (htherm _) (changesOnly_mono (log_changesOnly _ _ _ _ _) (by simp))
  · exact changesOnly_trans (changesOnly_trans (htherm _) (changesOnly_mono (fresh_changesOnly _) (by simp)))
      (changesOnly_mono (log_changesOnly _ _ _ _ _) (by simp))

/-- Of the management complex, an entry to a mode touches the changes that it owes alone. -/
theorem enterMode_mgmt (s : State) (m : Mode) (c : Nat) : ∃ o, (s.enterMode m c).mgmt = { s.mgmt with owedModes := o } := by
  unfold State.enterMode
  split
  · exact ⟨_, rfl⟩
  · exact ⟨s.mgmt.owedModes, (changesOnly_trans (changesOnly_mono (event_changesOnly _ _ _) (by simp))
      (changesOnly_mono (logFree_changesOnly _ _ _ _) (by simp)) : State.changesOnly [.events, .logs, .freeCtr] { s with mode := m } _) .mgmt (by simp)⟩

/-- The engine as an image starts in it, before the entry to ENROL. -/
def imageLoaded (s : State) (k : Nat) (i : ImageFile) (e w x : Bool) : State :=
  { s with
    mgmt := { s.mgmt with
      running := true, slot := k, svn := imageSvn i, release := imageRelease i, revision := BitVec.ofNat 16 (imageRevision i)
      imageDigest := imageDigest i, selfTest := x }
    ring := { s.ring with east := { s.ring.east with elsOk := e }, west := { s.ring.west with elsOk := w } }
    aon := { (s.powerOn [2, 3, 4]).aon with kick0 := s.now, kick1 := s.now } }

theorem startImage_eq (s : State) (k : Nat) (i : ImageFile) (e w x : Bool) :
    startImage s k i e w x = copyCause ((imageLoaded s k i e w x).enterMode .enrol mcAuto) := rfl

theorem startImage_changesOnly (s : State) (k : Nat) (i : ImageFile) (e w x : Bool) :
    (imageLoaded s k i e w x).changesOnly [.mode, .mgmt, .events, .logs, .freeCtr] (startImage s k i e w x) :=
  changesOnly_trans (enterMode_changesOnly _ _ _) (changesOnly_mono (copyCause_changesOnly _) (by simp))

theorem startImage_mode (s : State) (k : Nat) (i : ImageFile) (e w x : Bool) : (startImage s k i e w x).mode = .enrol :=
  (copyCause_changesOnly _ .mode (by simp)).trans (enterMode_mode _ _ _)

theorem startImage_mgmt (s : State) (k : Nat) (i : ImageFile) (e w x : Bool) :
    ∃ o, (startImage s k i e w x).mgmt = { (imageLoaded s k i e w x).mgmt with owedModes := o } := by
  obtain ⟨o, ho⟩ := enterMode_mgmt (imageLoaded s k i e w x) .enrol mcAuto
  exact ⟨o, (copyCause_changesOnly _ .mgmt (by simp)).trans ho⟩

theorem startImage_aon (s : State) (k : Nat) (i : ImageFile) (e w x : Bool) :
    (startImage s k i e w x).aon = (imageLoaded s k i e w x).aon := startImage_changesOnly s k i e w x .aon (by simp)

theorem startImage_ring (s : State) (k : Nat) (i : ImageFile) (e w x : Bool) :
    (startImage s k i e w x).ring = (imageLoaded s k i e w x).ring := startImage_changesOnly s k i e w x .ring (by simp)

theorem powerOn_powered (s : State) (l : List Nat) (n : Nat) :
    (s.powerOn l).powered n = (s.powered n || (BitVec.ofNat 20 (powerMask l)).toNat.testBit n) := by
  simp only [State.powered, State.powerOn, BitVec.toNat_or, Nat.testBit_or]

/-! ## Training -/

theorem allocateRegions_mem (s : State) : (∀ a, (allocateRegions s).mem.readByte a = 0) ∧ (allocateRegions s).mem.poisoned = [] ∧
    (allocateRegions s).mem.region 0 = { base := 0, en := true, lock := true, cache := true, code := false, size := 24 } ∧
    (allocateRegions s).mem.region 1 = { base := 24, en := true, lock := true, cache := true, code := false, size := 256 } :=
  ⟨fun _ => rfl, rfl, by simp [allocateRegions, State.modMem, Memory.region, bootSizes, placeRegions, bootRegion],
    by simp [allocateRegions, State.modMem, Memory.region, bootSizes, placeRegions, Tbl_get_set, bootRegion]⟩

theorem allocateRegions_chan (s : State) (c : Nat) : (allocateRegions s).chan c = s.chan c := rfl

theorem allocateRegions_changesOnly (s : State) : s.changesOnly [.mem, .pat] (allocateRegions s) :=
  changesOnly_of_agrees (by rintro ⟨⟩ <;> simp [State.agrees, allocateRegions, State.modMem])

/-- A channel trained: it is up, and the training noted. -/
def channelTrained (s : State) (c : Nat) : State := { s.modChanD c (fun d => { d with state := .up }) with mgmt := s.mgmt.train c }

theorem channelTrained_chan (s : State) (c : Nat) : ((channelTrained s c).chan c).state = .up := by
  change ((s.modChanD c fun d => { d with state := .up }).chan c).state = .up
  rw [modChanD_chan]

theorem channelTrained_changesOnly (s : State) (c : Nat) : s.changesOnly [.mem, .mgmt] (channelTrained s c) :=
  changesOnly_trans (changesOnly_mono (modChanD_changesOnly s c _) (by simp)) (changesOnly_mono (withMgmt_changesOnly _ _) (by simp))

theorem exec_trainingPassed {s : State} {c : Fin 2} (h : inTraining s c = true) : exec (.dramTrainingComplete c true) s =
    .next (if (s.mgmt.train c).trained0 && (s.mgmt.train c).trained1 then allocateRegions (channelTrained s c) else channelTrained s c) := by
  change execDramTrainingComplete c true s = _
  unfold execDramTrainingComplete
  rw [if_neg (by simp [h]), if_pos rfl]
  rfl

theorem exec_trainingFailed {s : State} {c : Fin 2} (h : inTraining s c = true) : exec (.dramTrainingComplete c false) s =
    if s.mgmt.tries c = 0 then .next { s with mgmt := s.mgmt.failTry c }
    else .next { s.modChanD c (fun d => { d with state := .failed }) with mgmt := { s.mgmt.failTry c with noImage := true } } := by
  change execDramTrainingComplete c false s = _
  unfold execDramTrainingComplete
  rw [if_neg (by simp [h]), if_neg (by simp)]

theorem failTry_tries (m : Mgmt) (c : Nat) : (m.failTry c).tries c = m.tries c + 1 := by
  unfold Mgmt.failTry Mgmt.tries
  split <;> simp [*]

theorem failTry_noImage (m : Mgmt) (c : Nat) : (m.failTry c).noImage = m.noImage := by
  unfold Mgmt.failTry
  split <;> rfl

section
variable {s : State} {d0 d1 : List Byte} {a b : ImageFile}

theorem exec_imageStart_none (hmode : s.mode = .boot) (h : chooseImage s.aon.fuseSvn d0 d1 a b = none) (hno : s.mgmt.noImage = false)
    (h0 : s.mgmt.trained0 = true) (h1 : s.mgmt.trained1 = true) (e w x : Bool) :
    exec (.imageStart d0 d1 a b e w x) s = .next { s with mgmt := { s.mgmt with noImage := true } } := by
  change execImageStart d0 d1 a b e w x s = _
  unfold execImageStart
  rw [if_neg (by simp [*]), h]

theorem exec_imageStart_some {k : Nat} {i : ImageFile} (hmode : s.mode = .boot) (h : chooseImage s.aon.fuseSvn d0 d1 a b = some (k, i))
    (hno : s.mgmt.noImage = false) (h0 : s.mgmt.trained0 = true) (h1 : s.mgmt.trained1 = true) (e w x : Bool) :
    exec (.imageStart d0 d1 a b e w x) s = .next (startImage s k i e w x) := by
  change execImageStart d0 d1 a b e w x s = _
  unfold execImageStart
  rw [if_neg (by simp [*]), h]

end

theorem modChanD_regions (s : State) (c : Nat) (f : DramChan → DramChan) : (s.modChanD c f).mem.regions = s.mem.regions := by
  unfold State.modChanD
  split <;> rfl

/-- Settles O7, case by case of what ends training and of what the image slots hold. -/
theorem bootTrainsAllocatesAndStartsTheImage : Obligations.BootTrainsAllocatesAndStartsTheImage := by
  unfold Obligations.BootTrainsAllocatesAndStartsTheImage
  refine ⟨fun c s h h0 h1 => ?_, fun c s h hboth => ?_, fun c s h htries => ?_, fun c s h htries => ?_,
    fun d0 d1 a b e w x s hmode hno h0 h1 => ?_⟩
  · obtain ⟨hread, hpoison, hregion0, hregion1⟩ := allocateRegions_mem (channelTrained s c)
    refine ⟨_, (exec_trainingPassed h).trans (by rw [if_pos (by simp [h0, h1])]), ?_, rfl, hread, hpoison, hregion0, hregion1, ?_⟩
    · rw [allocateRegions_chan]
      exact channelTrained_chan s c
    · exact changesOnly_trans (changesOnly_mono (channelTrained_changesOnly s c) (by simp))
        (changesOnly_mono (allocateRegions_changesOnly _) (by simp))
  · refine ⟨_, (exec_trainingPassed h).trans (by rw [if_neg (by simp [hboth])]), channelTrained_chan s c, rfl, ?_, channelTrained_changesOnly s c⟩
    exact modChanD_regions s c _
  · refine ⟨_, (exec_trainingFailed h).trans (if_pos htries), ?_, ?_, withMgmt_changesOnly s _⟩
    · exact (failTry_tries s.mgmt c).trans (by rw [htries])
    · exact (failTry_noImage s.mgmt c).trans (by simp_all [inTraining])
  · refine ⟨_, (exec_trainingFailed h).trans (if_neg (by omega)), rfl, ?_, ?_, ?_⟩
    · change ((s.modChanD c fun d => { d with state := .failed }).chan c).state = .failed
      rw [modChanD_chan]
    · exact (modChanD_changesOnly s c _ .mode (by simp)).trans (by simp_all [inTraining])
    · exact changesOnly_trans (changesOnly_mono (modChanD_changesOnly s c _) (by simp)) (changesOnly_mono (withMgmt_changesOnly _ _) (by simp))
  · cases hchoice : chooseImage s.aon.fuseSvn d0 d1 a b with
    | none => exact ⟨_, exec_imageStart_none hmode hchoice hno h0 h1 e w x, rfl⟩
    | some v =>
      obtain ⟨k, i⟩ := v
      obtain ⟨o, ho⟩ := startImage_mgmt s k i e w x
      have haon := startImage_aon s k i e w x
      have hring := startImage_ring s k i e w x
      have hon (n : Nat) (hn : (BitVec.ofNat 20 (powerMask [2, 3, 4])).toNat.testBit n = true) : (startImage s k i e w x).powered n = true := by
        unfold State.powered
        rw [haon]
        exact (powerOn_powered s [2, 3, 4] n).trans (by rw [hn, Bool.or_true])
      refine ⟨_, exec_imageStart_some hmode hchoice hno h0 h1 e w x, startImage_mode s k i e w x, ?_⟩
      rw [ho, haon, hring]
      exact ⟨rfl, rfl, rfl, rfl, hon 2 rfl, hon 3 rfl, hon 4 rfl, rfl, rfl, rfl, rfl⟩

end Sys2Proof.Proofs
end

section
/-! SUPPORT. Restarts of the management complex, self-resets and the entries to SAFE-STOP and DARK (R402, R411, R481, R482). -/

namespace Sys2Proof.Proofs

open Sys2Proof Sys2Proof.Machine Sys2Proof.Laws

/-! ## A restart of the management complex (R481, R482) -/

/-- The restarts of the last ten minutes, with the one that counts now. -/
def recentRestarts (s : State) (counted : Bool) : List Nat :=
  s.aon.restarts.filter (fun t => s.now < t + secs 600) ++ (if counted then [s.now] else [])

/-- What a restart leaves of the caches and of the bays that write. -/
def restartStops (s : State) (l2err : Bool) (skip : Option (Cache × Nat)) : State :=
  allBays.foldl (fun a b => if (a.bay b).state = .write then a.boundaryStop b else a) (restartCaches s l2err skip)

/-- The complex as it restarts, before a self-reset that the restart may lead to. -/
def restarting (s : State) (counted l2err : Bool) (skip : Option (Cache × Nat)) : State :=
  { restartStops s l2err skip with
    mgmt := { (restartStops s l2err skip).mgmt with restarting := true, running := false }
    sec := { (restartStops s l2err skip).sec with sessions := [] }
    aon := { (restartStops s l2err skip).aon with restarts := recentRestarts s counted, kick0 := s.now, kick1 := s.now } }

theorem restartStops_changesOnly (s : State) (l2err : Bool) (skip : Option (Cache × Nat)) :
    s.changesOnly [.mem, .bays] (restartStops s l2err skip) :=
  changesOnly_trans (changesOnly_mono (restartCaches_changesOnly s l2err skip) (by simp))
    (changesOnly_foldl _ (fun u b => changesOnly_ite (changesOnly_mono (boundaryStop_changesOnly u b) (by simp)) (changesOnly_refl _ u)) _ _)

theorem mgmtRestart_eq {s : State} (h : s.mode.firmware = true) (counted l2err : Bool) (skip : Option (Cache × Nat)) :
    mgmtRestart s counted l2err skip = if counted = true ∧ 3 ≤ (recentRestarts s counted).length
      then (restarting s counted l2err skip).beginSelfReset else restarting s counted l2err skip := by
  unfold mgmtRestart restarting recentRestarts restartStops
  rw [if_neg (by simp [h])]

theorem restarting_changesOnly (s : State) (counted l2err : Bool) (skip : Option (Cache × Nat)) :
    s.changesOnly [.mem, .bays, .mgmt, .sec, .aon] (restarting s counted l2err skip) :=
  changesOnly_trans (changesOnly_mono (restartStops_changesOnly s l2err skip) (by simp))
    (changesOnly_of_agrees (by rintro ⟨⟩ <;> simp [State.agrees, restarting]))

theorem restarting_mgmt (s : State) (counted l2err : Bool) (skip : Option (Cache × Nat)) :
    (restarting s counted l2err skip).mgmt = { s.mgmt with restarting := true, running := false } := by
  have h : (restartStops s l2err skip).mgmt = s.mgmt := restartStops_changesOnly s l2err skip .mgmt (by simp)
  simp only [restarting, h]

theorem restarting_sec (s : State) (counted l2err : Bool) (skip : Option (Cache × Nat)) :
    (restarting s counted l2err skip).sec = { s.sec with sessions := [] } := by
  have h : (restartStops s l2err skip).sec = s.sec := restartStops_changesOnly s l2err skip .sec (by simp)
  simp only [restarting, h]

theorem restarting_aon (s : State) (counted l2err : Bool) (skip : Option (Cache × Nat)) :
    (restarting s counted l2err skip).aon = { s.aon with restarts := recentRestarts s counted, kick0 := s.now, kick1 := s.now } := by
  have h : (restartStops s l2err skip).aon = s.aon := restartStops_changesOnly s l2err skip .aon (by simp)
  simp only [restarting, h]

/-! ## SAFE-STOP and self-resets (R400, R402) -/

/-- Of the management complex, an entry to SAFE-STOP touches the mode changes that it owes alone. -/
theorem enterSafeStop_mgmt (s : State) (c : Nat) : ∃ o, (s.enterSafeStop c).mgmt = { s.mgmt with owedModes := o } := by
  have hstopped : s.stopCourses.mgmt = s.mgmt :=
    changesOnly_foldl _ (fun u (c : Course) => stopCourse_changesOnly u c.handle .stopped) _ s .mgmt (by simp)
  have hsafe : s.stopCourses.safeAll.mgmt = s.stopCourses.mgmt :=
    changesOnly_foldl (ps := safeParts) _ (fun u b => changesOnly_ite (changesOnly_refl _ u)
      (changesOnly_trans (enterSafe_changesOnly u b _) (changesOnly_mono (modBay_changesOnly _ b _) (by simp)))) _ _ .mgmt (by simp)
  have hup : (s.stopCourses.safeAll.powerOff (pds 7 16)).motionUp.mgmt = s.mgmt :=
    (motionUp_changesOnly _ .mgmt (by simp)).trans ((powerOff_changesOnly _ _ .mgmt (by simp)).trans (hsafe.trans hstopped))
  obtain ⟨o, ho⟩ := enterMode_mgmt (s.stopCourses.safeAll.powerOff (pds 7 16)).motionUp .safeStop c
  refine ⟨o, ?_⟩
  unfold State.enterSafeStop
  rw [ho, hup]

theorem enterSafeStop_mode (s : State) (c : Nat) : (s.enterSafeStop c).mode = .safeStop := enterMode_mode _ _ _

theorem enterSafeStop_now (s : State) (c : Nat) : (s.enterSafeStop c).now = s.now := congrArg BitVec.toNat (enterSafeStop_keepsTime (s := s) c).stitch

/-- On the ring, a self-reset goes by way of SAFE-STOP, and waits there. -/
theorem beginSelfReset_onRing {s : State} (hring : s.mode.onRing = true) (hmode : s.mode ≠ .safeStop) :
    s.beginSelfReset.mode = .safeStop ∧ ∃ o, s.beginSelfReset.mgmt = { s.mgmt with owedModes := o, selfReset := some s.now } := by
  have hbegin : s.beginSelfReset = { s.enterSafeStop mcRestarts with
      mgmt := { (s.enterSafeStop mcRestarts).mgmt with selfReset := some (s.enterSafeStop mcRestarts).now } } := by
    unfold State.beginSelfReset
    rw [if_neg (by rintro (h | h) <;> simp [h, Mode.onRing] at hring), if_neg hmode, if_pos hring]
  obtain ⟨o, ho⟩ := enterSafeStop_mgmt s mcRestarts
  rw [hbegin]
  refine ⟨enterSafeStop_mode s _, o, ?_⟩
  simp only [ho, enterSafeStop_now]

theorem enterDark_facts (s : State) (c : Nat) : (s.enterDark c).mode = .dark ∧ (s.enterDark c).aon.power = 1 ∧
    (s.enterDark c).aon.cause = c ∧ (s.enterDark c).aon.prevCause = s.aon.cause ∧ (s.enterDark c).aon.stitch = s.aon.stitch ∧
    (s.enterDark c).ring.tapped = false := by
  unfold State.enterDark
  dsimp only
  split <;> exact ⟨rfl, rfl, rfl, rfl, rfl, rfl⟩

/-! ## The end of a restart (R411, R481) -/

theorem restartSector_changesOnly (b l n : Nat) (s : State) (k : Nat) : s.changesOnly runParts (restartSector b l n s k) := by
  unfold restartSector
  split
  · exact changesOnly_refl _ s
  next x _ =>
    have hbegin (step : Nat) : s.changesOnly runParts (beginStep s b l n k step) := changesOnly_mono (modBlock_changesOnly s b l n _) (by simp)
    dsimp only
    split
    · exact changesOnly_refl _ s
    · obtain ⟨hsent, hspent⟩ := runStep_changesOnly 80 (beginStep s b l n k (x.sec k).step) b l n k
      split
      next t hrun => exact changesOnly_trans (hbegin _) (changesOnly_mono (hsent t hrun) (by simp))
      next => exact changesOnly_trans (hbegin _) (changesOnly_trans (changesOnly_mono hspent (by simp)) (sectorStep_keepsRun _ _ _ _ _ _ _).frame)

theorem restartBlock_changesOnly (s : State) (x : Block) : s.changesOnly runParts (restartBlock s x) := by
  have hmod (u : State) (f : Block → Block) : u.changesOnly runParts (u.modBlock x.bay.val x.layer x.block f) :=
    changesOnly_mono (modBlock_changesOnly u _ _ _ f) (by simp)
  unfold restartBlock
  refine changesOnly_trans ?_ (changesOnly_foldl _ (fun u k => restartSector_changesOnly _ _ _ u k) _ _)
  split
  · exact changesOnly_trans (hmod s _) (changesOnly_trans (hmod _ _) (changesOnly_mono (modBay_changesOnly _ _ _) (by simp)))
  · exact hmod s _

theorem restartLadders_changesOnly (s : State) : s.changesOnly runParts (restartLadders s) :=
  changesOnly_foldl _ restartBlock_changesOnly _ s

theorem reraise_changesOnly (s : State) : s.changesOnly [.events] (reraise s) :=
  changesOnly_foldl _ (fun u _ => event_changesOnly u _ _) _ s

theorem reportOwed_changesOnly (s : State) : s.changesOnly [.events, .logs, .freeCtr, .mgmt] (reportOwed s) :=
  changesOnly_trans (changesOnly_foldl _ (fun u _ => changesOnly_trans (changesOnly_mono (event_changesOnly u _ _) (by simp))
    (changesOnly_mono (logFree_changesOnly _ _ _ _) (by simp))) _ s) (changesOnly_mono (withMgmt_changesOnly _ _) (by simp))

theorem reportOwed_mgmt (s : State) : (reportOwed s).mgmt = { s.mgmt with owedModes := [] } := by
  have h : (s.mgmt.owedModes.foldl (fun a e => (a.modeEvent e.1 e.2.1 e.2.2 false).logFree .device 0x0E01 0xFF) s).mgmt = s.mgmt :=
    changesOnly_foldl (ps := [.events, .logs, .freeCtr]) _ (fun u _ => changesOnly_trans (changesOnly_mono (event_changesOnly u _ _) (by simp))
      (changesOnly_mono (logFree_changesOnly _ _ _ _) (by simp))) _ s .mgmt (by simp)
  simp only [reportOwed, h]

/-- The management complex as the end of a restart leaves it: a LIVE activation runs the staged image in slot 2. -/
def restartedMgmt (m : Mgmt) : Mgmt :=
  match m.live, m.staged with
  | some _, some g => { m with
      restarting := false, running := true, live := none, slot := 2, svn := g.svn, release := g.release, revision := g.revision
      imageDigest := g.digest }
  | _, _ => { m with restarting := false, running := true, live := none }

theorem restartedMgmt_runs (m : Mgmt) : (restartedMgmt m).restarting = false ∧ (restartedMgmt m).running = true := by
  unfold restartedMgmt
  split <;> exact ⟨rfl, rfl⟩

theorem restartedMgmt_live {m : Mgmt} {g : Staged} (hlive : m.live.isSome = true) (hstaged : m.staged = some g) :
    (restartedMgmt m).slot = 2 ∧ (restartedMgmt m).svn = g.svn := by
  obtain ⟨c, hc⟩ := Option.isSome_iff_exists.1 hlive
  simp [restartedMgmt, hc, hstaged]

/-- Firmware runs again. -/
def firmwareBack (s : State) : State := { s with mgmt := restartedMgmt s.mgmt, aon := { s.aon with kick0 := s.now, kick1 := s.now } }

/-- The restart is logged, and the activation that it belongs to answered. -/
def restartLogged (s : State) : State :=
  let u := (firmwareBack s).logFree .device (if s.mgmt.live.isSome then 0x0E04 else 0x0E02) 0xFF
  match s.mgmt.live with
  | some c => adminEnd u c stSuccess
  | none => u

theorem restartLogged_changesOnly (s : State) : (firmwareBack s).changesOnly [.logs, .events, .freeCtr, .qps, .sent] (restartLogged s) := by
  have hlog (n : Nat) : (firmwareBack s).changesOnly [.logs, .events, .freeCtr, .qps, .sent] ((firmwareBack s).logFree .device n 0xFF) :=
    changesOnly_mono (logFree_changesOnly _ _ _ _) (by simp)
  unfold restartLogged
  dsimp only
  split
  · exact changesOnly_trans (hlog _) (changesOnly_mono (adminEnd_changesOnly _ _ _) (by simp))
  · exact hlog _

theorem exec_mgmtRestartComplete {s : State} (h : s.mgmt.restarting = true) : exec .mgmtRestartComplete s =
    .next (reraise (restartLadders (reportOwed (restartLogged s)))) := by
  change execMgmtRestartComplete s = _
  unfold execMgmtRestartComplete restartLogged firmwareBack restartedMgmt
  exact (if_neg (by simp [h])).trans rfl

/-- The end of a restart leaves the management complex, the mode and the kicks as firmware's start has them, with no mode change owed. -/
theorem mgmtRestartComplete_facts (s : State) : (reraise (restartLadders (reportOwed (restartLogged s)))).mgmt =
      { restartedMgmt s.mgmt with owedModes := [] } ∧
    (firmwareBack s).changesOnly (.mgmt :: .qps :: .sent :: runParts) (reraise (restartLadders (reportOwed (restartLogged s)))) := by
  have hlog : (restartLogged s).mgmt = restartedMgmt s.mgmt := restartLogged_changesOnly s .mgmt (by simp)
  have hend : (reportOwed (restartLogged s)).changesOnly runParts (reraise (restartLadders (reportOwed (restartLogged s)))) :=
    changesOnly_trans (restartLadders_changesOnly _) (changesOnly_mono (reraise_changesOnly _) (by simp))
  refine ⟨(hend .mgmt (by simp)).trans ?_, ?_⟩
  · rw [reportOwed_mgmt, hlog]
  · exact changesOnly_trans (changesOnly_mono (restartLogged_changesOnly s) (by simp))
      (changesOnly_trans (changesOnly_mono (reportOwed_changesOnly _) (by simp)) (changesOnly_mono hend (by simp)))

theorem exec_watchdogExpiry {s : State} (h : s.fwRuns = true) (h0 : s.aon.kick0 + 100000 ≤ s.now) (h1 : s.aon.kick1 + 100000 ≤ s.now)
    (c : Fin 2) : exec (.watchdogExpiry c) s = .next (mgmtRestart s true false none) := by
  refine if_pos ⟨h, ?_⟩
  split
  · exact h0
  · exact h1

theorem exec_selfResetEntry {s : State} (hmode : s.mode = .safeStop) (hreset : s.mgmt.selfReset.isSome = true)
    (hstill : ∀ b ∈ allBays, (s.bay b).still = true) : exec .selfResetEntry s = .next s.selfResetNow := by
  obtain ⟨n, hn⟩ := Option.isSome_iff_exists.1 hreset
  change execSelfResetEntry s = _
  unfold execSelfResetEntry
  rw [hn]
  exact if_pos ⟨hmode, .inl (List.all_eq_true.2 hstill)⟩

/-- Settles O8: a restart, the self-reset that the third leads to, the restart's end and the third self-reset in an hour, each by the
lemma that says what it leaves. -/
theorem watchdogRestartsAndTheThirdLeadsToSelfReset : Obligations.WatchdogRestartsAndTheThirdLeadsToSelfReset := by
  unfold Obligations.WatchdogRestartsAndTheThirdLeadsToSelfReset
  have hfirmware {s : State} (h : s.fwRuns = true) : s.mode.firmware = true := by simp_all [State.fwRuns]
  have hrecent (s : State) : recentRestarts s true = s.aon.restarts.filter (fun t => s.now < t + 120000000) ++ [s.now] := rfl
  refine ⟨fun c s hfw h0 h1 hfew => ?_, fun c s hfw hring hmode h0 h1 hmany => ?_, fun s h => ?_, fun s hmode hreset hstill hmany => ?_⟩
  · have heq : mgmtRestart s true false none = restarting s true false none := by
      rw [mgmtRestart_eq (hfirmware hfw), if_neg]
      rw [hrecent, List.length_append]
      simp only [List.length_singleton]
      omega
    refine ⟨_, (exec_watchdogExpiry hfw h0 h1 c).trans (by rw [heq]), ?_⟩
    have hframe := restarting_changesOnly s true false none
    dsimp only
    rw [restarting_mgmt, restarting_sec, restarting_aon]
    exact ⟨rfl, rfl, rfl, rfl, hframe .mode (by simp), hrecent s, hframe .qps (by simp), hframe .tags (by simp)⟩
  · have heq : mgmtRestart s true false none = (restarting s true false none).beginSelfReset := by
      rw [mgmtRestart_eq (hfirmware hfw), if_pos]
      rw [hrecent, List.length_append]
      simp only [List.length_singleton, true_and]
      omega
    have hsame : (restarting s true false none).mode = s.mode := restarting_changesOnly s true false none .mode (by simp)
    obtain ⟨hsafe, o, ho⟩ := beginSelfReset_onRing (s := restarting s true false none) (by rw [hsame]; exact hring) (by rw [hsame]; exact hmode)
    refine ⟨_, (exec_watchdogExpiry hfw h0 h1 c).trans (by rw [heq]), hsafe, ?_⟩
    have hnow : (restarting s true false none).now = s.now := by rw [State.now, restarting_aon]; rfl
    rw [ho, restarting_mgmt, hnow]
    exact ⟨rfl, rfl⟩
  · obtain ⟨hmgmt, hframe⟩ := mgmtRestartComplete_facts s
    obtain ⟨hstands, hruns⟩ := restartedMgmt_runs s.mgmt
    have haon : (reraise (restartLadders (reportOwed (restartLogged s)))).aon = (firmwareBack s).aon := hframe .aon (by simp)
    refine ⟨_, exec_mgmtRestartComplete h, ?_⟩
    dsimp only
    rw [hmgmt, haon]
    exact ⟨hstands, hruns, rfl, rfl, rfl, hframe .mode (by simp), fun hlive g hstaged => restartedMgmt_live hlive hstaged⟩
  · let u : State := { s with aon := { s.aon with selfResets := s.aon.recentResets s.now ++ [s.now] } }
    have hdark : s.selfResetNow = u.enterDark 7 := if_pos (by rw [List.length_append]; simp only [List.length_singleton]; omega)
    obtain ⟨hmode', hpower, hcause, hprev, -⟩ := enterDark_facts u 7
    exact ⟨_, (exec_selfResetEntry hmode hreset hstill).trans (by rw [hdark]), hmode', hcause, hprev, hpower⟩

end Sys2Proof.Proofs
end

section
/-! SUPPORT. Mode changes by the engine itself and by the sideband (R399 to R401, R421, R464, R465). -/

namespace Sys2Proof.Proofs

open Sys2Proof Sys2Proof.Machine Sys2Proof.Laws

/-! ## Every course stops (R199, R400) -/

theorem stopCourse_courses (s : State) (h : Nat) : ∀ k ∈ (s.stopCourse h .stopped).courses, k.stopped = true ∨ k ∈ s.courses := by
  have hend (c : Course) (u : State) (hu : s.changesOnly [.qps, .tags, .freeCtr, .bays] u) (f : Course → Course) (k : Course) :
      k ∈ (if c.opening.isSome then { u with courses := u.courses.filter (fun k => k.handle != h) } else u.modCourse h f).courses →
        (∀ c, (f c).stopped = true) → k.stopped = true ∨ k ∈ s.courses := by
    have hcourses : u.courses = s.courses := hu .courses (by simp)
    intro hk hf
    split at hk
    · exact .inr (hcourses ▸ List.mem_of_mem_filter hk)
    · obtain ⟨x, hx, hxk⟩ := List.mem_map.1 hk
      split at hxk
      · exact .inl (hxk ▸ hf x)
      · exact .inr (hcourses ▸ hxk ▸ hx)
  have hwaits (l : List CloseWait) (st n : Nat) : s.changesOnly [.qps, .tags, .freeCtr, .bays] (l.foldl (fun u w => u.endWait w st n) s) :=
    changesOnly_mono (changesOnly_foldl _ (fun u w => endWait_changesOnly u w st n) l s) (by simp)
  have hopening (u : State) (q : QpId) (t a : Nat) : u.changesOnly [.qps, .tags, .freeCtr, .bays]
      (if (u.cmd? q t).isSome then u.fresh.2.finishFree q t stAborted 0 a else u) :=
    changesOnly_ite (changesOnly_trans (changesOnly_mono (fresh_changesOnly u) (by simp))
      (changesOnly_mono (finishFree_changesOnly _ _ _ _ _ _) (by simp))) (changesOnly_refl _ u)
  have hrest (l : List BayId) (f : Bay → Bay) (u : State) : u.changesOnly [.qps, .tags, .freeCtr, .bays]
      (l.foldl (fun a b => a.modBay b.val f) (u.abortAppends h)) :=
    changesOnly_trans (changesOnly_mono (abortAppends_changesOnly u h) (by simp))
      (changesOnly_mono (changesOnly_foldl _ (fun a (b : BayId) => modBay_changesOnly a b.val f) l _) (by simp))
  unfold State.stopCourse
  split
  · exact fun k hk => .inr hk
  next c hc =>
    cases ho : c.opening with
    | none => exact fun k hk => hend c _ (changesOnly_trans (hwaits _ _ _) (hrest _ _ _)) _ k (by rw [ho]; exact hk) (by simp)
    | some o =>
      exact fun k hk => hend c _ (changesOnly_trans (hwaits _ _ _) (changesOnly_trans (hopening _ o.1 o.2 _) (hrest _ _ _))) _ k
        (by rw [ho]; exact hk) (by simp)

theorem stopCourses_stopped (s : State) : ∀ k ∈ s.stopCourses.courses, k.stopped = true := by
  have hfold (l : List Course) (u : State) : ∀ k ∈ (l.foldl (fun a (c : Course) => a.stopCourse c.handle .stopped) u).courses,
      k.stopped = true ∨ k ∈ u.courses ∧ ∀ c ∈ l, c.handle ≠ k.handle := by
    induction l generalizing u with
    | nil => exact fun k hk => .inr ⟨hk, by simp⟩
    | cons c l ih =>
      intro k hk
      rcases ih _ k hk with hstopped | ⟨hmem, hne⟩
      · exact .inl hstopped
      · by_cases hhandle : k.handle = c.handle
        · exact .inl (stopCourse_stopped u c.handle k hmem hhandle)
        · refine (stopCourse_courses u c.handle k hmem).imp_right fun hu => ⟨hu, ?_⟩
          simpa using ⟨fun h => hhandle h.symm, hne⟩
  intro k hk
  rcases hfold _ s k hk with hstopped | ⟨hmem, hne⟩
  · exact hstopped
  · by_contra hgoes
    exact hne k (List.mem_filter.2 ⟨hmem, by simpa using hgoes⟩) rfl

theorem enterSafeStop_courses (s : State) (c : Nat) : (s.enterSafeStop c).courses = s.stopCourses.courses := by
  have hsafe : s.stopCourses.safeAll.courses = s.stopCourses.courses :=
    changesOnly_foldl (ps := safeParts) _ (fun u b => changesOnly_ite (changesOnly_refl _ u)
      (changesOnly_trans (enterSafe_changesOnly u b _) (changesOnly_mono (modBay_changesOnly _ b _) (by simp)))) _ _ .courses (by simp)
  unfold State.enterSafeStop
  rw [enterMode_changesOnly _ _ _ .courses (by simp), motionUp_changesOnly _ .courses (by simp), powerOff_changesOnly _ _ .courses (by simp), hsafe]

/-! ## The domains (R464, R465) -/

theorem enterSafeStop_power (s : State) (c : Nat) : (s.enterSafeStop c).aon.power =
    motionPower (s.aon.power &&& ~~~ BitVec.ofNat 20 (powerMask (pds 7 16))) := (standing_eq_iff.1 (enterSafeStop_standing s c)).2.1

/-- Of a domain that is on or off, by its number. -/
theorem powered_eq_getLsbD (s : State) (n : Nat) : s.powered n = s.aon.power.getLsbD n := rfl

theorem motionPower_off (p : BitVec 20) {n : Nat} (h7 : 7 ≤ n) (h16 : n ≤ 16) :
    (motionPower (p &&& ~~~ BitVec.ofNat 20 (powerMask (pds 7 16)))).getLsbD n = false := by
  have hmask : (BitVec.ofNat 20 (powerMask (pds 7 16))).getLsbD n = true := by interval_cases n <;> rfl
  have hmotion : (BitVec.ofNat 20 (powerMask (pds 17 19))).getLsbD n = false := by interval_cases n <;> rfl
  unfold motionPower
  split <;> simp [BitVec.getLsbD_and, BitVec.getLsbD_not, BitVec.getLsbD_or, hmask, hmotion]

theorem motionPower_on (p : BitVec 20) {n : Nat} (h : n = 17 ∨ n = 18 ∨ n = 19) : (motionPower p).getLsbD n = true := by
  have hmotion : (BitVec.ofNat 20 (powerMask (pds 17 19))).getLsbD n = true := by rcases h with rfl | rfl | rfl <;> rfl
  unfold motionPower
  split
  next hon =>
    simp only [Bool.and_eq_true] at hon
    obtain ⟨⟨h17, h18⟩, h19⟩ := hon
    rcases h with rfl | rfl | rfl
    · exact h17
    · exact h18
    · exact h19
  next => rw [BitVec.getLsbD_or, hmotion, Bool.or_true]

theorem enterSafeStop_powered (s : State) (c : Nat) : (∀ n, 7 ≤ n → n ≤ 16 → (s.enterSafeStop c).powered n = false) ∧
    (s.enterSafeStop c).powered 17 = true ∧ (s.enterSafeStop c).powered 18 = true ∧ (s.enterSafeStop c).powered 19 = true := by
  simp only [powered_eq_getLsbD, enterSafeStop_power]
  exact ⟨fun n h7 h16 => motionPower_off _ h7 h16, motionPower_on _ (by simp), motionPower_on _ (by simp), motionPower_on _ (by simp)⟩

/-! ## QUIESCE and RETIRE -/

/-- An event other than of a disc joins the queue where the engine is in a ring, the event enabled and its share not full. -/
theorem event_queue {s : State} {code : Nat} (htapped : s.ring.tapped = true) (hcode : code ≠ 1 ∧ code ≠ 2)
    (hen : s.events.enabled code = true) (hroom : s.events.others < 128) (p : List Byte) :
    (s.event code p).events.queue = s.events.queue ++ [⟨code, s.now, p⟩] := by
  unfold State.event
  rw [if_pos (show s.tapped = true from htapped)]
  unfold Events.post
  rw [if_neg (by simp [hen]), if_neg (by omega), if_pos hroom]

theorem motionDown_parts (s : State) : s.motionDown.buses = [] ∧ s.motionDown.girth = {} := by
  have hbays (f : State → Nat → Bay → Bay) (u : State) : u.changesOnly [.bays] (allBays.foldl (fun a b => a.modBay b (f a b)) u) :=
    changesOnly_foldl _ (fun a b => modBay_changesOnly a b _) _ u
  unfold State.motionDown
  exact ⟨hbays _ _ .buses (by simp), hbays _ _ .girth (by simp)⟩

/-- Settles O9, change by change. -/
theorem automaticAndSidebandModeChanges : Obligations.AutomaticAndSidebandModeChanges := by
  unfold Obligations.AutomaticAndSidebandModeChanges
  refine ⟨fun n s hmode hcause hclear hpast => ?_, fun n s hclear hnow => ?_, fun s hmode hfw hdrained htags hclosed htapped hroom hen => ?_,
    fun s hmode h18 hstill => ?_, fun i s hsupply => ?_, fun i s hsupply hring hmode => ?_, fun i s hsupply hring => ?_⟩
  · refine ⟨({ s with mgmt := { s.mgmt with clearSince := none } } : State).enterMode .active mcAuto, ?_, enterMode_mode _ _ _, ?_⟩
    · change execConstrainedExit s = _
      unfold execConstrainedExit
      rw [hclear]
      exact if_pos ⟨hmode, hcause, hpast⟩
    · exact changesOnly_trans (changesOnly_mono (withMgmt_changesOnly s _) (by simp)) (enterMode_changesOnly _ _ _)
  · change execConstrainedExit s = _
    unfold execConstrainedExit
    rw [hclear]
    exact if_neg fun h => absurd h.2.2 (by simp only [secs]; omega)
  · refine ⟨_, if_pos ⟨hmode, hfw, hdrained, htags, hclosed⟩,
      congrArg Mgmt.drained (event_changesOnly { s with mgmt := { s.mgmt with drained := true } } _ _ .mgmt (by simp)), ?_,
      changesOnly_trans (changesOnly_mono (withMgmt_changesOnly s _) (by simp)) (changesOnly_mono (event_changesOnly _ _ _) (by simp))⟩
    exact event_queue (s := { s with mgmt := { s.mgmt with drained := true } }) htapped (by decide) hen hroom _
  · refine ⟨(s.powerOff (pds 7 16)).motionDown, if_pos ⟨hmode, h18, List.all_eq_true.2 hstill⟩, ?_⟩
    obtain ⟨-, hpower, -⟩ := standing_eq_iff.1 (motionDown_standing (powerOff_standing (standing_self s) (pds 7 16)))
    obtain ⟨hbuses, hgirth⟩ := motionDown_parts (s.powerOff (pds 7 16))
    have hframe := motionDown_changesOnly (s.powerOff (pds 7 16))
    refine ⟨?_, (hframe .mode (by simp)).trans hmode, hbuses, hgirth,
      changesOnly_trans (changesOnly_mono (powerOff_changesOnly s _) (by simp)) (changesOnly_mono hframe (by simp))⟩
    rw [hpower, BitVec.and_assoc]
    rfl
  · obtain ⟨hmode, hpower, hcause, -, hstitch, htapped⟩ := enterDark_facts (mctpAnswer s 0x14 i 0 []) 6
    exact ⟨_, if_neg (by simp [hsupply]), hmode, hpower, hcause, hstitch, htapped⟩
  · have hexec : exec (.safeStop i) s = .next ((mctpAnswer s 0x15 i 0 []).enterSafeStop mcMctp) := by
      change execSafeStop i s = _
      unfold execSafeStop
      rw [if_neg (by simp [hsupply]), if_neg (by simp [hring])]
      exact congrArg Host.Outcome.next (if_neg hmode)
    obtain ⟨hoff, h17, h18, h19⟩ := enterSafeStop_powered (mctpAnswer s 0x15 i 0 []) mcMctp
    refine ⟨_, hexec, enterSafeStop_mode _ _, hoff, h17, h18, h19, ?_⟩
    rw [enterSafeStop_courses]
    exact stopCourses_stopped _
  · have hexec : exec (.safeStop i) s = .next (mctpAnswer s 0x15 i 2 []) := by
      change execSafeStop i s = _
      unfold execSafeStop
      rw [if_neg (by simp [hsupply]), if_pos hring]
    exact ⟨_, hexec, rfl, mctpAnswer_changesOnly _ _ _ _ _⟩

end Sys2Proof.Proofs
end

section
/-! SUPPORT. The vendor-defined commands of the sideband and the Claos carrier (R384, R386, R420, R421). -/

namespace Sys2Proof.Proofs

open Sys2Proof Sys2Proof.Machine Sys2Proof.Laws

/-! ## The bodies of the queries (R421) -/

/-- The bits of a number built up from the lowest. -/
theorem bits_testBit (f : Nat → Bool) (m : Nat) : (((List.range m).map (fun b => bitNat (f b) * 2 ^ b)).foldl (· + ·) 0 < 2 ^ m) ∧
    ∀ n, n < m → (((List.range m).map (fun b => bitNat (f b) * 2 ^ b)).foldl (· + ·) 0).testBit n = f n := by
  induction m with
  | zero => exact ⟨by simp, by simp⟩
  | succ m ih =>
    obtain ⟨hlt, hbit⟩ := ih
    rw [List.range_succ, List.map_append, List.foldl_append]
    simp only [List.map_cons, List.map_nil, List.foldl_cons, List.foldl_nil]
    generalize hx : ((List.range m).map (fun b => bitNat (f b) * 2 ^ b)).foldl (· + ·) 0 = x at hlt hbit
    have hle : bitNat (f m) ≤ 1 := by cases f m <;> decide
    have hsum : x + bitNat (f m) * 2 ^ m = 2 ^ m * bitNat (f m) + x := by rw [Nat.mul_comm, Nat.add_comm]
    refine ⟨by rw [hsum, pow_succ]; nlinarith, fun n hn => ?_⟩
    rw [hsum, Nat.testBit_two_pow_mul_add _ hlt]
    split
    next hlow => exact hbit n hlow
    next hhigh =>
      obtain rfl : n = m := by omega
      cases f n <;> simp [bitNat]

theorem bayMask_testBit (f : Nat → Bool) {n : Nat} (h : n < 16) : (bayMask f).testBit n = f n := (bits_testBit f 16).2 n h

theorem bayMask_lt (f : Nat → Bool) : bayMask f < 65536 := (bits_testBit f 16).1

theorem unsignedOf_lt (v : Int) : unsignedOf 16 v < 65536 := by
  unfold unsignedOf
  omega

/-- One of sixteen words of two bytes. -/
theorem beAt_words (g : Nat → Nat) (hg : ∀ n, g n < 65536) {n : Nat} (h : n < 16) :
    beAt ((List.range 16).map (fun i => beBytes 2 (g i))).flatten (2 * n) 2 = g n := by
  have hword : ((((List.range 16).map (fun i => beBytes 2 (g i))).flatten.drop (2 * n)).take 2) = beBytes 2 (g n) := by
    interval_cases n <;> rfl
  unfold beAt
  rw [hword]
  exact beNat_beBytes 2 _ (hg n)

theorem beBytes_one (n : Nat) : beBytes 1 n = [BitVec.ofNat 8 n] := rfl

theorem beBytes_one_byte (b : Byte) : beBytes 1 b.toNat = [b] := by simp [beBytes_one]

theorem statusBody_eq (s : State) : statusBody s = [BitVec.ofNat 8 s.mode.code,
    BitVec.ofNat 8 (bitNat s.mgmt.noImage + 2 * bitNat s.ring.tapped + 4 * bitNat (untrimmed s)),
    BitVec.ofNat 8 (if s.ring.tapped then s.ring.node else 0), BitVec.ofNat 8 s.aon.fuseSvn]
    ++ beBytes 2 (unsignedOf 16 s.eave.tmax) ++ beBytes 2 s.eave.power ++ [BitVec.ofNat 8 (min 255 (s.aon.recentResets s.now).length)] := rfl

/-- What an answer to a vendor-defined command sends. -/
theorem mctpAnswer_sent (s : State) (c i : Byte) (cc : Nat) (body : List Byte) : (mctpAnswer s c.toNat i cc body).sent =
    s.sent ++ [.mctp ([0x7F] ++ beBytes 4 Config.iana.toNat ++ [c ||| 0x80, i, BitVec.ofNat 8 cc] ++ body)] := by
  have hcode : BitVec.ofNat 8 (c.toNat ||| 0x80) = c ||| 0x80 := BitVec.eq_of_toNat_eq (by simp)
  simp only [mctpAnswer, State.send, beBytes_one, hcode]
  simp

/-- Settles O10: each answer's body is said once, and what is sent follows from it. -/
theorem queriesAnswerAndCarrierCommandsQueue : Obligations.QueriesAnswerAndCarrierCommandsQueue := by
  unfold Obligations.QueriesAnswerAndCarrierCommandsQueue
  refine ⟨fun i s hsupply => ?_, fun i s hsupply => ?_, fun i c s hsupply hcode => ?_, fun i s hsupply hmode => ?_,
    fun i s hsupply hmode => ?_, fun i sqe p s hsupply hmode hlen htaken hlong => ?_, fun i sqe p s hsupply hmode hlen htaken => ?_⟩
  · refine ⟨mctpAnswer s 0x10 i 0 (statusBody s), if_pos hsupply, ?_, mctpAnswer_changesOnly _ _ _ _ _⟩
    refine (mctpAnswer_sent s 0x10 i 0 _).trans ?_
    rw [statusBody_eq]
    simp
  · refine ⟨mctpAnswer s 0x11 i 0 (tempsBody s), if_pos hsupply, ⟨_, _, (mctpAnswer_sent s 0x11 i 0 (tempsBody s)).trans (by rw [tempsBody, ← List.append_assoc]; rfl), ?_⟩, mctpAnswer_changesOnly _ _ _ _ _⟩
    refine ⟨rfl, rfl, fun n hn => beAt_words _ (fun _ => unsignedOf_lt _) hn, fun n hn => ?_⟩
    rw [beNat_beBytes 2 _ (bayMask_lt _)]
    exact bayMask_testBit _ hn
  · have hnone : vendorModes s c.toNat = none := by
      unfold vendorModes
      split <;> simp_all
    refine ⟨mctpAnswer s c.toNat i 3 [], ?_, ?_, mctpAnswer_changesOnly _ _ _ _ _⟩
    · change execMctpVendorUnsupported i c s = _
      unfold execMctpVendorUnsupported
      rw [if_neg (by simp [hsupply]), hnone]
    · simpa using mctpAnswer_sent s c i 3 []
  · have hinvalid : vendorModes s 0x12 = some false := by simp [vendorModes, hmode]
    refine ⟨mctpAnswer s 0x12 i 2 [], ?_, by simpa using mctpAnswer_sent s 0x12 i 2 [], mctpAnswer_changesOnly _ _ _ _ _⟩
    change execMctpVendorUnsupported i 0x12 s = _
    unfold execMctpVendorUnsupported
    rw [if_neg (by simp [hsupply])]
    simp [hinvalid]
  · have hinvalid : vendorModes s 0x16 = some false := by simp [vendorModes, inF, hmode]
    refine ⟨mctpAnswer s 0x16 i 2 [], ?_, by simpa using mctpAnswer_sent s 0x16 i 2 [], mctpAnswer_changesOnly _ _ _ _ _⟩
    change execMctpVendorUnsupported i 0x16 s = _
    unfold execMctpVendorUnsupported
    rw [if_neg (by simp [hsupply])]
    simp [hinvalid]
  · refine ⟨{ s with adminQ := s.adminQ ++ [carrierCmd i sqe p s.now] }, ?_, ⟨_, rfl, rfl, rfl, rfl, rfl, rfl, rfl, rfl, rfl⟩,
      changesOnly_of_agrees (by rintro ⟨⟩ <;> simp [State.agrees])⟩
    change execClaos i sqe p s = _
    unfold execClaos
    rw [if_neg (by simp [hsupply]), if_neg (by simp [inF, hmode, hlen]), if_neg]
    simp only [hlong, Bool.false_eq_true, or_false]
    exact fun h => absurd (htaken.symm.trans h) (by decide)
  · have hrefused : onCarrier (carrierCmd i sqe p s.now).opcode = false := htaken
    refine ⟨adminEnd s (carrierCmd i sqe p s.now) stOutOfRange, ?_, ?_, mctpAnswer_changesOnly _ _ _ _ _⟩
    · change execClaos i sqe p s = _
      unfold execClaos
      rw [if_neg (by simp [hsupply]), if_neg (by simp [inF, hmode, hlen]), if_pos (.inl hrefused)]
    · refine (mctpAnswer_sent s 0x16 i 0 _).trans ?_
      rw [List.take_nil, List.append_nil]
      rfl

end Sys2Proof.Proofs
end

section
/-! SUPPORT. The control commands of MCTP (R420). -/

namespace Sys2Proof.Proofs

open Sys2Proof Sys2Proof.Machine Sys2Proof.Laws

theorem controlAnswer_changesOnly (s : State) (code : Byte) (cc : Nat) (body : List Byte) : s.changesOnly [.sent] (controlAnswer s code cc body) :=
  changesOnly_of_agrees (by rintro ⟨⟩ <;> simp [State.agrees, controlAnswer, State.send])

theorem controlAnswer_sent (s : State) (code : Byte) (cc : Nat) (body : List Byte) :
    (controlAnswer s code cc body).sent = s.sent ++ [.mctpControl code (BitVec.ofNat 8 cc :: body)] := rfl

/-- Settles O11, command by command: what a control answer sends is said once. -/
theorem controlCommandsAnswerAndSetTheEndpoint : Obligations.ControlCommandsAnswerAndSetTheEndpoint := by
  unfold Obligations.ControlCommandsAnswerAndSetTheEndpoint
  have hfree (s : State) (code : Byte) (body : List Byte) : s.changesOnly [.sent, .freeCtr] (controlAnswer s.fresh.2 code 0 body) :=
    changesOnly_trans (changesOnly_mono (fresh_changesOnly s) (by simp)) (changesOnly_mono (controlAnswer_changesOnly _ _ _ _) (by simp))
  refine ⟨fun e s hsupply hzero hones => ?_, fun s hsupply => ?_, fun s hsupply => ?_, fun s hsupply => ?_, fun s hsupply => ?_,
    fun s hsupply => ?_, fun s hsupply => ?_, fun c s hsupply hcode => ?_⟩
  · refine ⟨controlAnswer { s with aon := { s.aon with eid := e } } 1 0 [0, e, 0], ?_, rfl, rfl,
      changesOnly_trans (changesOnly_mono (withAon_changesOnly s _) (by simp)) (changesOnly_mono (controlAnswer_changesOnly _ _ _ _) (by simp))⟩
    change execSetEndpointId e s = _
    unfold execSetEndpointId
    rw [if_neg (by simp [hsupply]), if_neg (not_or.2 ⟨hzero, hones⟩)]
  · refine ⟨controlAnswer s 1 2 [], ?_, rfl, controlAnswer_changesOnly _ _ _ _⟩
    change execSetEndpointId 0 s = _
    unfold execSetEndpointId
    rw [if_neg (by simp [hsupply]), if_pos (.inl rfl)]
  · exact ⟨_, if_pos hsupply, controlAnswer_sent s 2 0 _, controlAnswer_changesOnly _ _ _ _⟩
  · exact ⟨_, if_pos hsupply, controlAnswer_sent s 3 0 _, controlAnswer_changesOnly _ _ _ _⟩
  · exact ⟨_, if_pos hsupply, ⟨_, beBytes_length 4 s.fresh.1, controlAnswer_sent s.fresh.2 4 0 _⟩, hfree _ _ _⟩
  · exact ⟨_, if_pos hsupply, controlAnswer_sent s 5 0 _, controlAnswer_changesOnly _ _ _ _⟩
  · refine ⟨_, if_pos hsupply, ⟨_, beBytes_length 2 s.fresh.1, (controlAnswer_sent s.fresh.2 6 0 _).trans ?_⟩, hfree _ _ _⟩
    simp
  · exact ⟨_, if_neg (by simp only [hsupply]; simp; omega), controlAnswer_sent s c 5 [], controlAnswer_changesOnly _ _ _ _⟩

end Sys2Proof.Proofs
end

section
/-! SUPPORT. SPDM over MCTP: each request sends the one answer that it makes (R413, R414). -/

namespace Sys2Proof.Proofs

open Sys2Proof Sys2Proof.Machine Sys2Proof.Laws

/-! ## Requests over MCTP (R413) -/

/-- A request that came over MCTP is answered over MCTP. -/
theorem spdmRun_overMctp {s : State} {v : SpdmVia} (hfw : s.fwRuns = true) (hv : s.overMctp v) (f : State → SpdmAnswer) :
    spdmRun v f s = .next ((f s).1.send (.spdm v (f s).2.1 (f s).2.2)) := by
  have hmode : inF s = true := by simp_all [State.fwRuns, inF]
  unfold spdmRun
  rw [if_neg (by simp [hmode, hfw])]
  cases v with
  | mctp => rfl
  | mctpSession sid =>
    have hsession : (s.spdmSession sid).isSome = true := hv
    simp [viaSession, viaTunnel, Option.isNone_iff_eq_none, Option.isSome_iff_ne_none.1 hsession]
  | tunnel | tunnelSession => exact absurd hv (by simp [State.overMctp])

theorem send_changesOnly (s : State) (o : Output) : s.changesOnly [.sent] (s.send o) :=
  changesOnly_of_agrees (by rintro ⟨⟩ <;> simp [State.agrees, State.send])

theorem withSec_changesOnly (s : State) (x : Security) : s.changesOnly [.sec] { s with sec := x } :=
  changesOnly_of_agrees (by rintro ⟨⟩ <;> simp [State.agrees])

theorem send_after {ps : List Part} {s u : State} (h : s.changesOnly ps u) (hp : Part.sent ∈ ps) (o : Output) : s.changesOnly ps (u.send o) :=
  changesOnly_trans h (changesOnly_mono (send_changesOnly u o) (by simpa using hp))

/-- A request that sends one answer and leaves the state to what it makes of it. -/
theorem completes_spdmRun {s u : State} {v : SpdmVia} {f : State → SpdmAnswer} {c : Instr} {code : Byte} {body : List Byte} {P : State → Prop}
    (hexec : exec c s = spdmRun v f s) (hfw : s.fwRuns = true) (hv : s.overMctp v) (hf : f s = (u, code, body))
    (hP : P (u.send (.spdm v code body))) : completes c s P :=
  ⟨_, hexec.trans (spdmRun_overMctp hfw hv f), by rw [hf]; exact hP⟩

theorem negotiated_of_set {s : State} (h : s.sec.algorithmsSet = true) (f : State → SpdmAnswer) : negotiated s f = f s := if_pos h

/-- The flags of CAPABILITIES. -/
theorem capabilities_flags (x : Byte) (l : List Byte) : leAt ([0, 0, 0] ++ [x] ++ zeros 2 ++ leBytes 4 0x62D6 ++ l) 6 4 = 0x62D6 := by
  have hflags : leNat (leBytes 4 0x62D6) = 0x62D6 := by decide
  exact hflags

theorem signed_answer (s : State) (code : Byte) (nonce body : List Byte) : ∃ l, signed s code nonce body =
    ({ s with freeCtr := s.freeCtr + 1 }, code, body ++ l) := ⟨Config.responderNonce s.freeCtr ++ zeros 2 ++ _, by simp [signed]; rfl⟩

theorem withFreeCtr_changesOnly (s : State) (n : Nat) : s.changesOnly [.freeCtr] { s with freeCtr := n } :=
  changesOnly_of_agrees (by rintro ⟨⟩ <;> simp [State.agrees])

/-- The third measurement (R414): the SVN of the running image and that of the fuses. -/
def svnBlock (s : State) : List Byte := [3, 1, 5, 0, 0x87, 2, 0, BitVec.ofNat 8 s.mgmt.svn, BitVec.ofNat 8 s.aon.fuseSvn]

theorem spdmMeasurements_three {s : State} (h : s.sec.algorithmsSet = true) (sg : Bool) (n : List Byte) :
    ∃ b, spdmMeasurements 3 sg n s = ({ s with freeCtr := s.freeCtr + 1 }, 0x60, [0, 0, 1] ++ leBytes 3 9 ++ svnBlock s ++ b) := by
  unfold spdmMeasurements
  rw [negotiated_of_set h]
  have hmeasured : measurement 3 7 true (beBytes 1 s.mgmt.svn ++ beBytes 1 s.aon.fuseSvn) = svnBlock s := by
    simp [measurement, svnBlock, beBytes_one, leBytes, byteOf, bitNat]
  have hblock : ((measurements s).drop (3 - 1)).take 1 = [svnBlock s] := congrArg (fun x => [x]) hmeasured
  simp only [hblock]
  rw [if_neg (by decide)]
  cases sg with
  | true =>
    obtain ⟨l, hl⟩ := signed_answer s 0x60 n ([0, 0, 1] ++ leBytes 3 9 ++ svnBlock s)
    exact ⟨l, hl⟩
  | false =>
    refine ⟨Config.responderNonce s.freeCtr ++ zeros 2, ?_⟩
    rw [← List.append_assoc]
    rfl

/-- Settles O12: over MCTP each request sends the one answer that it makes. -/
theorem spdmQueriesAnswerOverMctp : Obligations.SpdmQueriesAnswerOverMctp := by
  unfold Obligations.SpdmQueriesAnswerOverMctp
  refine ⟨fun v s hfw hv => ?_, fun v s hfw hv hver => ?_, fun v s hfw hv hver => ?_, fun v s hfw hv halg => ?_,
    fun v off len s hfw hv halg => ?_, fun v k n s hfw hv halg => ?_, fun v sg n s hfw hv halg => ?_⟩
  · exact completes_spdmRun rfl hfw hv rfl ⟨rfl, rfl, send_after (changesOnly_mono (withSec_changesOnly s _) (by simp)) (by simp) _⟩
  · refine completes_spdmRun rfl hfw hv (if_neg (by simp [hver])) ⟨⟨_, rfl, capabilities_flags _ _⟩, send_after ?_ (by simp) _⟩
    exact changesOnly_trans (changesOnly_mono (fresh_changesOnly s) (by simp)) (changesOnly_mono (fresh_changesOnly _) (by simp))
  · exact completes_spdmRun rfl hfw hv (if_neg (by simp [hver]))
      ⟨⟨_, rfl⟩, rfl, send_after (changesOnly_mono (withSec_changesOnly s _) (by simp)) (by simp) _⟩
  · exact completes_spdmRun rfl hfw hv (negotiated_of_set halg _) ⟨rfl, send_changesOnly s _⟩
  · by_cases hpast : Config.certChain.length ≤ off
    · refine completes_spdmRun rfl hfw hv ((negotiated_of_set halg _).trans (if_pos (.inr hpast))) ⟨?_, send_changesOnly s _⟩
      rw [if_pos hpast]
      rfl
    · refine completes_spdmRun rfl hfw hv ((negotiated_of_set halg _).trans (if_neg (by simp [hpast]))) ⟨?_, send_changesOnly s _⟩
      rw [if_neg hpast]
      exact ⟨_, rfl, rfl⟩
  · by_cases hk : k = 0
    · obtain ⟨l, hl⟩ := signed_answer s 0x03 n ([0, 1] ++ sha384 Config.certChain)
      refine completes_spdmRun rfl hfw hv ((negotiated_of_set halg _).trans ((if_neg (by simp [hk])).trans hl)) ⟨?_, ?_⟩
      · rw [if_pos hk]
        exact ⟨l, rfl⟩
      · exact send_after (changesOnly_mono (withFreeCtr_changesOnly s _) (by simp)) (by simp) _
    · refine completes_spdmRun rfl hfw hv ((negotiated_of_set halg _).trans (if_pos hk)) ⟨?_, ?_⟩
      · rw [if_neg hk]
        rfl
      · exact changesOnly_mono (send_changesOnly s _) (by simp)
  · obtain ⟨b, hb⟩ := spdmMeasurements_three halg sg n
    exact completes_spdmRun rfl hfw hv hb ⟨⟨[0, 0, 1] ++ leBytes 3 9, b, rfl, rfl⟩,
      send_after (changesOnly_mono (withFreeCtr_changesOnly s _) (by simp)) (by simp) _⟩

end Sys2Proof.Proofs
end

section
/-! SUPPORT. The sessions of SPDM (R413, R415). -/

namespace Sys2Proof.Proofs

open Sys2Proof Sys2Proof.Machine Sys2Proof.Laws

theorem viaTunnel_overMctp {s : State} {v : SpdmVia} (hv : s.overMctp v) : viaTunnel v = none := by
  cases v with
  | mctp | mctpSession => rfl
  | tunnel | tunnelSession => exact absurd hv (by simp [State.overMctp])

theorem inSession_established {s : State} {sid : Word} {e : Session} (h : s.spdmSession sid = some e) (he : e.established = true)
    (f : State → SpdmAnswer) : inSession s sid f = f s := by
  unfold inSession
  rw [h]
  exact if_pos he

theorem completes_inSession {s u : State} {v : SpdmVia} {sid : Word} {e : Session} {c : Instr} {code : Byte} {body : List Byte}
    {P : State → Prop} (g : State → SpdmAnswer) (hexec : exec c s = spdmRun v (fun t => inSession t sid g) s) (hfw : s.fwRuns = true)
    (hv : s.overMctp v) (h : s.spdmSession sid = some e) (he : e.established = true) (hg : g s = (u, code, body))
    (hP : P (u.send (.spdm v code body))) : completes c s P :=
  completes_spdmRun hexec hfw hv ((inSession_established h he g).trans hg) hP

theorem endSession_spdmSession (s : State) (sid : Word) : (endSession s sid).spdmSession sid = none := by
  simp [State.spdmSession, endSession]

section
variable {s : State} {sid : Word} {m : List Byte}

theorem spdmFinish_of_verifies (hsession : (s.spdmSession sid).isSome = true) (h : Config.finishVerifies sid m = true) : spdmFinish sid m s =
    ({ s with sec := { s.sec with
        sessions := s.sec.sessions.map (fun x => if x.sid == sid then { x with established := true } else x) } }, 0x65, [0, 0]) := by
  obtain ⟨e, he⟩ := Option.isSome_iff_exists.1 hsession
  simp only [spdmFinish, he]
  exact if_pos h

theorem spdmFinish_of_fails (hsession : (s.spdmSession sid).isSome = true) (h : ¬Config.finishVerifies sid m = true) :
    spdmFinish sid m s = (endSession s sid, 0x7F, [6, 0]) := by
  obtain ⟨e, he⟩ := Option.isSome_iff_exists.1 hsession
  simp only [spdmFinish, he]
  exact if_neg h

end

/-- The requester's half of a session ID is the upper one. -/
theorem sessionId_upper (r x : Half) : (r ++ x : Word).toNat / 65536 = r.toNat := by
  have hlt : x.toNat < 2 ^ 16 := x.isLt
  rw [BitVec.toNat_append, ← Nat.shiftLeft_add_eq_or_of_lt hlt, Nat.shiftLeft_eq]
  omega

/-- Settles O13, request by request. -/
theorem spdmSessionsOpenAndEndWithTheKeysKept : Obligations.SpdmSessionsOpenAndEndWithTheKeysKept := by
  unfold Obligations.SpdmSessionsOpenAndEndWithTheKeysKept
  have hsec (s : State) (x : Security) (o : Output) : s.changesOnly [.sec, .sent] (({ s with sec := x } : State).send o) :=
    send_after (changesOnly_mono (withSec_changesOnly s x) (by simp)) (by simp) o
  refine ⟨fun v r x s hfw hv halg hfew => ?_, fun v r x s hfw hv halg hmany => ?_, fun v sid m s hfw hv hsession => ?_,
    fun v sid e s hfw hv hsession he => ?_, fun v sid e n s hfw hv hsession he h1 h3 => ?_, fun v sid e s hfw hv hsession he => ?_,
    fun v c s hfw hv hunknown => ?_⟩
  · refine completes_spdmRun rfl hfw hv ((negotiated_of_set halg _).trans (if_neg (by omega))) ⟨⟨_, rfl, ?_, rfl, ?_⟩, rfl, hsec s _ _⟩
    · exact sessionId_upper r _
    · simp [viaTunnel_overMctp hv]
  · exact completes_spdmRun rfl hfw hv ((negotiated_of_set halg _).trans (if_pos hmany)) ⟨rfl, send_changesOnly s _⟩
  · by_cases hverifies : Config.finishVerifies sid m = true
    · refine completes_spdmRun rfl hfw hv (spdmFinish_of_verifies hsession hverifies) ⟨?_, rfl, hsec s _ _⟩
      rw [if_pos hverifies]
      exact ⟨by simp [State.send], rfl⟩
    · refine completes_spdmRun rfl hfw hv (spdmFinish_of_fails hsession hverifies) ⟨?_, rfl, hsec s _ _⟩
      rw [if_neg hverifies]
      refine List.filter_congr fun x _ => ?_
      by_cases hx : x.sid = sid <;> simp [hx]
  · exact completes_inSession (fun u => (u, 0x68, [0, 0])) rfl hfw hv hsession he rfl ⟨rfl, send_changesOnly s _⟩
  · exact completes_inSession (fun u => if 1 ≤ n ∧ n ≤ 3 then (u, 0x69, beBytes 1 n ++ [0]) else spdmError u 1 0) rfl hfw hv hsession he
      (if_pos ⟨h1, h3⟩) ⟨rfl, send_changesOnly s _⟩
  · exact completes_inSession (fun u => (endSession u sid, 0x6C, [0, 0])) rfl hfw hv hsession he rfl
      ⟨endSession_spdmSession s sid, rfl, rfl, hsec s _ _⟩
  · exact completes_spdmRun (f := fun t => spdmError t 7 c) (if_neg (by simp [hunknown])) hfw hv rfl ⟨rfl, send_changesOnly s _⟩

end Sys2Proof.Proofs
end

section
/-! SUPPORT. IDENTIFY's record: its fields, each at its place (R388). -/

namespace Sys2Proof.Proofs

open Sys2Proof Sys2Proof.Machine Sys2Proof.Laws

/-! ## Fields of a record -/

theorem leNat_leBytes (n v : Nat) : leNat (leBytes n v) = v % 256 ^ n := by
  induction n generalizing v with
  | zero => simp [leBytes, leNat, Nat.mod_one]
  | succ n ih =>
    rw [leBytes, leNat, ih, pow_succ', Nat.mod_mul]
    rfl

/-- A number's bytes read back as it, as far as they hold it (R8). -/
theorem beNat_beBytes_mod (n v : Nat) : beNat (beBytes n v) = v % 256 ^ n := by
  rw [beNat, beBytes, List.reverse_reverse, leNat_leBytes]

theorem drop_skip {α : Type} {a l : List α} {k : Nat} (h : a.length ≤ k) : (a ++ l).drop k = l.drop (k - a.length) := by
  rw [List.drop_append, List.drop_eq_nil_of_le h, List.nil_append]

theorem beAt_skip {a l : List Byte} {k n : Nat} (h : a.length ≤ k) : beAt (a ++ l) k n = beAt l (k - a.length) n := by
  rw [beAt, drop_skip h]
  rfl

theorem beAt_head {a l : List Byte} {n : Nat} (h : a.length = n) : beAt (a ++ l) 0 n = beNat a := by
  rw [beAt, List.drop_zero, List.take_left' h]

theorem asciiPad_length (n : Nat) (t : String) : (asciiPad n t).length = n := by simp [asciiPad, zeros]

theorem releaseField_length (l : List Byte) : ((l ++ zeros 16).take 16).length = 16 := by simp [zeros]

theorem dramMiB_lt (s : State) : dramMiB s < 256 ^ 4 := by
  unfold dramMiB
  split <;> split <;> decide

theorem zeros_length (n : Nat) : (zeros n).length = n := List.length_replicate

theorem code_lt (m : Mode) : m.code < 256 := by cases m <;> decide

theorem identity_length (s : State) : (identity s).length = 128 := by
  unfold identity
  simp only [List.length_append, beBytes_length, asciiPad_length, releaseField_length, zeros_length]

theorem identity_names (s : State) : ((identity s).drop 4).take 16 = asciiPad 16 "HX-1608-A0" ∧
    ((identity s).drop 20).take 16 = (s.mgmt.release ++ zeros 16).take 16 ∧ (identity s).drop 64 = zeros 64 := by
  unfold identity
  simp only [List.append_assoc]
  simp only [drop_skip, beBytes_length, asciiPad_length, releaseField_length, List.drop_zero, List.take_left', Nat.reduceLeDiff, Nat.reduceSub, and_self]

/-- The numbers of the record, each at its place. -/
theorem identity_numbers (s : State) : beAt (identity s) 0 4 = 0x434C4944 ∧ beAt (identity s) 36 2 = s.mgmt.revision.toNat ∧
    beAt (identity s) 38 1 = s.mode.code ∧
    beAt (identity s) 39 1 = bitNat (untrimmed s) + 2 * bitNat s.ring.tapped + 4 * bitNat (decide (64 ≤ s.aon.fuseSvn))
      + 8 * bitNat (decide (s.mgmt.slot = 2)) + 16 * bitNat s.mgmt.staged.isSome ∧
    beAt (identity s) 40 8 = Config.serial.toNat ∧ beAt (identity s) 48 1 = (if s.ring.tapped then s.ring.node % 256 else 0) ∧
    beAt (identity s) 49 1 = Config.siliconRev.toNat ∧ beAt (identity s) 50 1 = s.aon.fuseSvn % 256 ∧
    beAt (identity s) 51 1 = s.mgmt.svn % 256 ∧ beAt (identity s) 52 1 = s.mgmt.slot % 256 ∧ beAt (identity s) 53 1 = keysLoaded s % 256 ∧
    beAt (identity s) 54 2 = bayMask (bayUntrimmed s) ∧ beAt (identity s) 56 4 = dramMiB s ∧
    beAt (identity s) 60 2 = bayMask (fun b => (s.bay b).present) ∧
    beAt (identity s) 62 2 = (s.aon.recentResets s.now).length % 65536 := by
  unfold identity
  simp only [List.append_assoc]
  simp only [beAt_skip, beBytes_length, asciiPad_length, releaseField_length, beNat_beBytes_mod, beAt_head, Nat.reduceLeDiff, Nat.reduceSub]
  have hbit (b : Bool) : bitNat b ≤ 1 := by cases b <;> decide
  refine ⟨rfl, Nat.mod_eq_of_lt s.mgmt.revision.isLt, Nat.mod_eq_of_lt (code_lt _), Nat.mod_eq_of_lt ?_, Nat.mod_eq_of_lt Config.serial.isLt, ?_,
    Nat.mod_eq_of_lt (Config.siliconRev.isLt.trans (by decide)), rfl, rfl, rfl, rfl, Nat.mod_eq_of_lt (bayMask_lt _), Nat.mod_eq_of_lt (dramMiB_lt s),
    Nat.mod_eq_of_lt (bayMask_lt _), rfl⟩
  · have h0 := hbit (untrimmed s)
    have h1 := hbit s.tapped
    have h2 := hbit (decide (64 ≤ s.aon.fuseSvn))
    have h3 := hbit (decide (s.mgmt.slot = 2))
    have h4 := hbit s.mgmt.staged.isSome
    omega
  · unfold State.tapped
    split <;> rfl

/-- Settles O14: the record's fields, each at its place. -/
theorem identifyAnswersTheRecord : Obligations.IdentifyAnswersTheRecord := by
  unfold Obligations.IdentifyAnswersTheRecord
  intro c rest s h hop
  obtain ⟨hmodel, hrelease, hzeros⟩ := identity_names (s.taken rest)
  obtain ⟨hmagic, hrevision, hmode, hflags, hserial, hnode, hsilicon, hfuse, hsvn, hslot, hkeys, htrim, hdram, hpresent, hresets⟩ :=
    identity_numbers (s.taken rest)
  have hexec : exec .identify s = .next (adminFinish (s.taken rest) c stSuccess 0 0 0 (identity (s.taken rest))) :=
    adminRun_of_atHead (f := fun c t => adminFinish t c stSuccess 0 0 0 (identity t)) h (by simp [isOp, hop]) (inF_of_fwRuns h.runs) (adminFinish_ring _ _ _ _ _ _ _)
  refine ⟨_, hexec, identity (s.taken rest), rfl,
    identity_length _, hmagic, hmodel, hrelease, hrevision, fun hcl => ?_, hmode, hflags, hserial, hnode, hsilicon, hfuse, hsvn, hslot, hkeys,
    fun n hn => ?_, hdram, fun n hn => ?_, hresets, hzeros⟩
  · rw [hrelease]
    change ((s.mgmt.release ++ zeros 16).take 16) = _
    rw [hcl, List.take_left' (asciiPad_length _ _)]
  · rw [htrim]
    exact bayMask_testBit _ hn
  · rw [hpresent]
    exact bayMask_testBit _ hn

end Sys2Proof.Proofs
end

section
/-! SUPPORT. GET_LOG, EVENT_ARM and the delivery of events (R389 to R391, R393). -/

namespace Sys2Proof.Proofs

open Sys2Proof Sys2Proof.Machine Sys2Proof.Laws

/-! ## Completions at the head of core 0's queue -/

theorem adminEnd_finish (s : State) (c : AdminCmd) (st : Nat) : adminEnd s c st = adminFinish s c st 0 0 0 [] := rfl

/-- What a completion leaves of the parts that no response touches. -/
theorem adminFinish_logs (s : State) (c : AdminCmd) (st cf a16 hi : Nat) (l : List Byte) : (adminFinish s c st cf a16 hi l).logs = s.logs :=
  adminFinish_changesOnly s c st cf a16 hi l .logs (by simp)

theorem adminFinish_events (s : State) (c : AdminCmd) (st cf a16 hi : Nat) (l : List Byte) : (adminFinish s c st cf a16 hi l).events = s.events :=
  adminFinish_changesOnly s c st cf a16 hi l .events (by simp)

theorem adminFinish_adminQ (s : State) (c : AdminCmd) (st cf a16 hi : Nat) (l : List Byte) : (adminFinish s c st cf a16 hi l).adminQ = s.adminQ :=
  adminFinish_changesOnly s c st cf a16 hi l .adminQ (by simp)

/-! ## GET_LOG (R391, R393) -/

/-- The device log as GET_LOG views it. -/
theorem pageView_device (s : State) (i : Nat) : pageView s 1 i = some (s.logs.device.view LogEntry.bytes 16 1024) := rfl

theorem pageView_undefined (s : State) {p : Nat} (h : p = 0 ∨ 9 < p) (i : Nat) : pageView s p i = none := by
  unfold pageView
  split
  case h_10 => rfl
  all_goals omega

section
variable {s : State} {c : AdminCmd}

theorem getLog_undefined (h : pageView s (c.arg 0 1) (c.arg 2 2) = none) : getLog c s = adminFinish s c stOutOfRange 0 0 0 [] := by
  unfold getLog
  dsimp only
  rw [h]
  exact adminEnd_finish _ _ _

theorem getLog_keeps {v : PageView} (h : pageView s (c.arg 0 1) (c.arg 2 2) = some v) (hflag : c.flag0 = false) : getLog c s =
    adminFinish s c stSuccess 0 0 0 (v.header ++ (v.returned (c.arg 4 4) (c.arg 8 2) c.room).flatten) := by
  unfold getLog
  dsimp only
  rw [h]
  simp only [hflag, Bool.false_eq_true, if_false]

theorem getLog_clears {v : PageView} (h : pageView s (c.arg 0 1) (c.arg 2 2) = some v) (hflag : c.flag0 = true) : getLog c s =
    adminFinish (clearPage s (c.arg 0 1) (c.arg 2 2) (min (c.arg 4 4) v.entries.length) (v.returned (c.arg 4 4) (c.arg 8 2) c.room).length)
      c stSuccess 0 0 0 (v.header ++ (v.returned (c.arg 4 4) (c.arg 8 2) c.room).flatten) := by
  unfold getLog
  dsimp only
  rw [h]
  simp only [hflag, if_true]

end

/-- The entries freed from the first on are those returned, as many as the response holds. -/
theorem free_returned {α : Type} (p : LogPage α) (f : α → List Byte) (room : Nat) :
    (p.free 0 ((p.view f 16 1024).returned 0 0 room).length).entries = p.entries.drop ((room - 16) / 16) := by
  simp only [LogPage.free, LogPage.view, PageView.returned, if_true, List.drop_zero, List.take_zero, List.nil_append, List.length_take,
    List.length_map, Nat.zero_add]
  rcases Nat.le_total ((room - 16) / 16) p.entries.length with hle | hle
  · rw [Nat.min_eq_left hle]
  · rw [Nat.min_eq_right hle, List.drop_length, List.drop_eq_nil_of_le hle]

theorem getLog_ring (c : AdminCmd) (s : State) : (getLog c s).ring = s.ring := by
  unfold getLog
  dsimp only
  split
  · exact adminFinish_ring _ _ _ _ _ _ _
  · split <;> exact adminFinish_ring _ _ _ _ _ _ _

theorem exec_getLog {s : State} {c : AdminCmd} {rest : List AdminCmd} (h : s.atHead c rest) (hop : c.opcode = 0x41) (hflag : c.flag0 = false) :
    exec .getLog s = .next (getLog c (s.taken rest)) :=
  adminRun_of_atHead h (by simp [isOp, hop, hflag]) (inF_of_fwRuns h.runs) (getLog_ring c _)

theorem exec_getLogClear {s : State} {c : AdminCmd} {rest : List AdminCmd} (h : s.atHead c rest) (hop : c.opcode = 0x41) (hflag : c.flag0 = true) :
    exec .getLogClear s = .next (getLog c (s.taken rest)) :=
  adminRun_of_atHead h (by simp [isOp, hop, hflag]) (inF_of_fwRuns h.runs) (getLog_ring c _)

/-! ## EVENT_ARM (R389, R390) -/

/-- The bits of DISC_NEEDED, DISC_DONE and EVENTS_LOST stay set in ENABLE. -/
theorem enableOf_bit (v : Nat) {n : Nat} (h1 : 1 ≤ n) (h32 : n < 32) : (enableOf v).getLsbD n = (v.testBit n || n == 1 || n == 2 || n == 7) := by
  have hones : (0xFFFFFFFE#32).getLsbD n = true := by interval_cases n <;> rfl
  have hstay : (0x86#32).getLsbD n = (n == 1 || n == 2 || n == 7) := by interval_cases n <;> rfl
  simp only [enableOf, BitVec.getLsbD_and, BitVec.getLsbD_or, BitVec.getLsbD_ofNat, hones, hstay, h32, decide_true, Bool.true_and, Bool.and_true,
    Bool.or_assoc]

theorem eventArm_ring (c : AdminCmd) (s : State) : (eventArm c s).ring = s.ring := by
  unfold eventArm
  split
  · exact adminFinish_ring _ _ _ _ _ _ _
  · split
    · exact adminFinish_ring _ _ _ _ _ _ _
    · rfl

theorem exec_eventArm {s : State} {c : AdminCmd} {rest : List AdminCmd} (h : s.atHead c rest) (hop : c.opcode = 0x4B) (hflag : c.flag0 = false)
    (hmode : inT s = true) : exec .eventArm s = .next (eventArm c (s.taken rest)) :=
  adminRun_of_atHead h (by simp [isOp, hop, hflag]) hmode (eventArm_ring c _)

/-! ## Delivery of events (R389) -/

theorem sendResponse_txWait (s : State) (g : Gateway) (tag : Nat) (l : List Byte) :
    ∃ fs, ((sendResponse s g tag l).qp (.admin g)).txWait = (s.qp (.admin g)).txWait ++ fs := by
  unfold sendResponse
  generalize (chunks 8192 (l.length / 8192 + 1) l).zipIdx = es
  induction es generalizing s with
  | nil => exact ⟨[], by simp⟩
  | cons e es ih =>
    obtain ⟨fs, hfs⟩ := ih (s.queueFrame (.admin g) 2 tag (dataBody (2 * e.2) ((chunks 4096 2 e.1).map fun u => (u ++ zeros 4096).take 4096)))
    rw [queueFrame_txWait, List.append_assoc] at hfs
    exact ⟨_, hfs⟩

theorem reportLost_of_none {e : Events} (h : e.lost = 0) (now : Nat) : e.reportLost now = e := if_neg (by omega)

/-- The bytes of an event that its response holds. -/
theorem eventResponse_length (e : Event) (n : Nat) : ((beBytes 8 e.at_ ++ e.payload).take n).length = min (8 + e.payload.length) n := by
  rw [List.length_take, List.length_append, beBytes_length, Nat.min_comm]

/-- Settles O15: what GET_LOG, EVENT_ARM and a delivery do, each by its own lemma. -/
theorem logsAndEventsAreReturned : Obligations.LogsAndEventsAreReturned := by
  unfold Obligations.LogsAndEventsAreReturned
  refine ⟨fun c rest s h hop hflag hpage hcount => ?_, fun c rest s h hop hflag hpage => ?_, fun c rest s h hop hflag hpage hfirst hcount => ?_,
    fun c rest g s h hop hflag hmode hvia hroom => ?_, fun c rest g s h hop hflag hmode hvia hfull => ?_,
    fun c rest s h hop hflag hmode => ?_, fun e es a as s hfw hqueue harms hlost => ?_⟩
  · refine ⟨_, exec_getLog h hop hflag, ?_⟩
    have hpage' : pageView (s.taken rest) (c.arg 0 1) (c.arg 2 2) = some (s.logs.device.view LogEntry.bytes 16 1024) := by
      rw [hpage]
      exact pageView_device _ _
    refine (getLog_keeps hpage' hflag).trans ?_
    simp only [PageView.header, PageView.returned, LogPage.view, hcount, if_true, List.length_map]
    rfl
  · exact ⟨_, exec_getLog h hop hflag, getLog_undefined (pageView_undefined _ hpage _)⟩
  · refine ⟨_, exec_getLogClear h hop hflag, ?_⟩
    have hpage' : pageView (s.taken rest) (c.arg 0 1) (c.arg 2 2) = some (s.logs.device.view LogEntry.bytes 16 1024) := by
      rw [hpage]
      exact pageView_device _ _
    rw [getLog_clears hpage' hflag, hpage, hfirst, hcount, Nat.zero_min]
    dsimp only
    rw [adminFinish_logs, adminFinish_adminQ]
    exact ⟨free_returned _ _ _, rfl, rfl, rfl, rfl, rfl⟩
  · refine ⟨_, exec_eventArm h hop hflag hmode, ?_⟩
    have harm : eventArm c (s.taken rest) = { s.taken rest with events := { s.events with
        enable := enableOf (c.arg 0 4), arms := s.events.arms ++ [⟨g, c.tag, c.rlen⟩] } } := by
      unfold eventArm
      rw [hvia]
      exact if_neg (Nat.not_le.2 hroom)
    rw [harm]
    exact ⟨rfl, rfl, fun n h1 h32 => enableOf_bit _ h1 h32, changesOnly_of_agrees (by rintro ⟨⟩ <;> simp [State.agrees, State.taken])⟩
  · refine ⟨_, exec_eventArm h hop hflag hmode, ?_⟩
    unfold eventArm
    rw [hvia]
    exact if_pos hfull
  · have hexec : exec .eventArmMaskOnly s = .next (adminEnd ((s.taken rest).setEnable (c.arg 0 4)) c stSuccess) :=
      adminRun_of_atHead (f := fun c t => adminEnd (t.setEnable (c.arg 0 4)) c stSuccess) h (by simp [isOp, hop, hflag]) hmode
        (adminFinish_ring _ _ _ _ _ _ _)
    refine ⟨_, hexec, ?_⟩
    have hevents := adminFinish_events ((s.taken rest).setEnable (c.arg 0 4)) c stSuccess 0 0 0 []
    rw [adminEnd_finish]
    dsimp only
    rw [hevents]
    exact ⟨fun n h1 h32 => enableOf_bit _ h1 h32, rfl, rfl⟩
  · have hexec : exec .eventDelivery s = .next ((sendResponse { s with events := { s.events with queue := es, arms := as } } a.gw a.tag
        ((beBytes 8 e.at_ ++ e.payload).take a.rlen)).postCqe (.admin a.gw) a.tag 0 stSuccess (bitNat !es.isEmpty) e.code
        (e.at_ % 2 ^ 32 * 2 ^ 32 + ((beBytes 8 e.at_ ++ e.payload).take a.rlen).length)) := by
      change execEventDelivery s = _
      unfold execEventDelivery
      rw [hqueue, harms]
      dsimp only
      rw [if_neg (by simp [hfw]), reportLost_of_none (by exact hlost)]
    obtain ⟨fs, hfs⟩ := sendResponse_txWait { s with events := { s.events with queue := es, arms := as } } a.gw a.tag
      ((beBytes 8 e.at_ ++ e.payload).take a.rlen)
    have hmore : bitNat (!es.isEmpty) = if es = [] then 0 else 1 := by cases es <;> rfl
    refine ⟨_, hexec, ?_, ⟨fs, ?_⟩, ?_⟩
    · exact (changesOnly_trans (sendResponse_changesOnly _ _ _ _) (queueFrame_changesOnly _ _ _ _ _)) .events (by simp)
    · rw [State.postCqe, queueFrame_txWait, hfs, eventResponse_length, hmore]
      rfl
    · have hevents : s.changesOnly [.events, .qps] { s with events := { s.events with queue := es, arms := as } } :=
        changesOnly_of_agrees (by rintro ⟨⟩ <;> simp [State.agrees])
      exact changesOnly_trans hevents (changesOnly_mono (changesOnly_trans (sendResponse_changesOnly _ _ _ _) (queueFrame_changesOnly _ _ _ _ _))
        (by simp))

end Sys2Proof.Proofs
end

section
/-! SUPPORT. Triples, calibration records and their words; settles O16. -/

namespace Sys2Proof.Proofs

open Sys2Proof Sys2Proof.Machine Sys2Proof.Laws

/-! ## A command outside its modes -/

/-- A command at the head of core 0's queue in a mode that is none of its own. -/
theorem adminRun_wrongMode {s : State} {c : AdminCmd} {rest : List AdminCmd} {mine : AdminCmd → Bool} {modes : State → Bool}
    {f : AdminCmd → State → State} (h : s.atHead c rest) (hmine : mine c = true) (hmodes : modes s = false) :
    adminRun mine modes f s = .next (adminFinish (s.taken rest) c stWrongMode 0 0 0 []) := by
  have hafter : afterCal (adminFinish (s.taken rest) c stWrongMode 0 0 0 []) = adminFinish (s.taken rest) c stWrongMode 0 0 0 [] :=
    afterCal_of_not_waiting fun i n q x => by rw [adminFinish_ring]; exact atHead_not_waiting h i n q x
  rw [← hafter]
  simp [adminRun, h.queue, h.runs, hmine, h.complete, hmodes, State.taken, adminEnd]

/-! ## SET_PATTERN and GET_PATTERN (R394 to R398) -/

/-- A payload of eight bytes is one triple. -/
theorem triplesHere_one {c : AdminCmd} (hlen : c.payload.length = 8) (hunits : c.units = [0]) : triplesHere c =
    [(0, beAt c.payload 0 2, beAt c.payload 2 2, signedOf 32 (beAt c.payload 4 4))] := by
  have htriples : triplesOf c.payload = [(beAt c.payload 0 2, beAt c.payload 2 2, signedOf 32 (beAt c.payload 4 4))] := by
    simp [triplesOf, hlen]
  simp [triplesHere, htriples, hunits]

theorem runTriples_one (allow : Nat → Nat → Int → Int) (p : Pattern) (n id idx : Nat) (v : Int) :
    runTriples allow p [(n, id, idx, v)] = applyTriple allow p n id idx v := by
  simp [runTriples]

/-- An undefined field or index leaves the pattern, and is reported. -/
theorem applyTriple_undefined {id idx : Nat} (h : patDefined id idx = false) (allow : Nat → Nat → Int → Int) (p : Pattern) (n : Nat) (v : Int) :
    applyTriple allow p n id idx v = (p, [⟨id, idx, v, 0, 1, n⟩]) := if_pos h

theorem patternFinish_ring (s : State) (c : AdminCmd) (l : List (Nat × Nat × Nat × Int)) (b : Bool) : (patternFinish s c l b).ring = s.ring :=
  adminFinish_ring _ _ _ _ _ _ _

theorem patDefined_some {id idx : Nat} (h : patDefined id idx = true) : (patField id).isSome = true := by
  unfold patDefined at h
  split at h
  · cases h
  next f hf => rw [hf]; rfl

/-! ## CAL_LOAD (R408, R409, R414) -/

theorem loaded_foldl (l : List Nat) (s : State) (g : Nat) (h : g ∈ l ∨ (s.beam g).loaded = true) :
    ((l.foldl (fun a g => a.modBeam g fun x => { x with loaded := true }) s).beam g).loaded = true := by
  induction l generalizing s with
  | nil => simpa using h
  | cons x l ih =>
    refine ih _ ?_
    by_cases hx : g = x
    · subst hx
      right
      rw [modBeam_beam]
    · refine h.imp (fun hg => (List.mem_cons.1 hg).resolve_left hx) fun hg => ?_
      rwa [modBeam_beam_other s _ hx]

/-- The engine with every trim word marked loaded. -/
def trimsLoaded (s : State) : State := (List.range 128).foldl (fun a g => a.modBeam g fun x => { x with loaded := true }) s

/-- The engine with every trim word marked loaded and a record measured. -/
def calMeasured (s : State) (l : List Byte) : State :=
  { trimsLoaded s with mgmt := { (trimsLoaded s).mgmt with calDigest := sha384 l } }.logFree .device 0x0E06 0xFF

theorem trimsLoaded_changesOnly (s : State) : s.changesOnly [.beams] (trimsLoaded s) :=
  changesOnly_foldl _ (fun u g => modBeam_changesOnly u g _) _ s

theorem calLoad_eq (c : AdminCmd) (s : State) : calLoad c s = if calValid c.payload = false then adminFinish s c 0x11 0 0 0 []
    else if beAt c.payload 8 8 ≠ Config.serial.toNat then adminFinish s c 0x24 0 0 0 []
    else patternFinish (calMeasured s c.payload) c (calTriples c.payload) false := rfl

theorem calMeasured_ofTrims (s : State) (l : List Byte) : (trimsLoaded s).changesOnly [.mgmt, .logs, .events, .freeCtr] (calMeasured s l) :=
  changesOnly_trans (changesOnly_mono (withMgmt_changesOnly _ _) (by simp)) (changesOnly_mono (logFree_changesOnly _ _ _ _) (by simp))

theorem calMeasured_changesOnly (s : State) (l : List Byte) : s.changesOnly [.beams, .mgmt, .logs, .events, .freeCtr] (calMeasured s l) :=
  changesOnly_trans (changesOnly_mono (trimsLoaded_changesOnly s) (by simp)) (changesOnly_mono (calMeasured_ofTrims s l) (by simp))

theorem trimsLoaded_loaded (s : State) {g : Nat} (hg : g < 128) : ((trimsLoaded s).beam g).loaded = true := by
  unfold trimsLoaded
  exact loaded_foldl (List.range 128) s g (.inl (List.mem_range.2 hg))

theorem beam_eq_of_beams {s t : State} (h : t.beams = s.beams) {g : Nat} : t.beam g = s.beam g := by
  rw [State.beam, h, State.beam]

theorem calMeasured_loaded (s : State) (l : List Byte) {g : Nat} (hg : g < 128) : ((calMeasured s l).beam g).loaded = true := by
  rw [beam_eq_of_beams (calMeasured_ofTrims s l .beams (by simp))]
  exact trimsLoaded_loaded s hg

theorem calMeasured_digest (s : State) (l : List Byte) : (calMeasured s l).mgmt.calDigest = sha384 l := by
  have hmgmt (u : State) : (u.logFree .device 0x0E06 0xFF).mgmt = u.mgmt := logFree_changesOnly u _ _ _ .mgmt (by simp)
  unfold calMeasured
  rw [hmgmt]

theorem patternFinish_changesOnly (s : State) (c : AdminCmd) (l : List (Nat × Nat × Nat × Int)) (b : Bool) :
    s.changesOnly [.pat, .logs, .qps, .sent] (patternFinish s c l b) := by
  have hwritten (p : Pattern) (x : List ClampEntry) : s.changesOnly [.pat, .logs, .qps, .sent] { s with pat := p, logs := { s.logs with clamp := x } } :=
    changesOnly_of_agrees (by rintro ⟨⟩ <;> simp [State.agrees])
  exact changesOnly_trans (hwritten _ _) (changesOnly_mono (adminFinish_changesOnly _ _ _ _ _ _ _) (by simp))

theorem calLoad_ring (c : AdminCmd) (s : State) : (calLoad c s).ring = s.ring := by
  rw [calLoad_eq]
  split
  · exact adminFinish_ring _ _ _ _ _ _ _
  · split
    · exact adminFinish_ring _ _ _ _ _ _ _
    · exact (patternFinish_ring _ _ _ _).trans (calMeasured_changesOnly s _ .ring (by simp))

/-! ## CAL_READ (R409) -/

theorem flatten_length {f : Nat → List Byte} {m : Nat} (hf : ∀ i, (f i).length = m) (n : Nat) : (((List.range n).map f).flatten).length = m * n := by
  induction n with
  | zero => simp
  | succ n ih => rw [List.range_succ, List.map_append, List.flatten_append, List.length_append, ih]; simp [hf]; ring

/-- One of many words of one length. -/
theorem flatten_word {f : Nat → List Byte} {m : Nat} (hf : ∀ i, (f i).length = m) {g n : Nat} (h : g < n) :
    ∃ l, ((List.range n).map f).flatten.drop (m * g) = f g ++ l := by
  induction n with
  | zero => omega
  | succ n ih =>
    rw [List.range_succ, List.map_append, List.flatten_append]
    have hle : m * g ≤ (((List.range n).map f).flatten).length := by
      rw [flatten_length hf]
      exact Nat.mul_le_mul_left m (by omega)
    rw [List.drop_append_of_le_length hle]
    rcases Nat.lt_succ_iff_lt_or_eq.1 h with hlt | rfl
    · obtain ⟨l, hl⟩ := ih hlt
      exact ⟨l ++ _, by rw [hl, List.append_assoc]⟩
    · refine ⟨[], ?_⟩
      rw [List.drop_eq_nil_of_le (by rw [flatten_length hf])]
      simp

theorem beAt_prefix {a l : List Byte} {k n : Nat} (h : k + n ≤ a.length) : beAt (a ++ l) k n = beAt a k n := by
  unfold beAt
  rw [List.drop_append_of_le_length (by omega), List.take_append_of_le_length (by rw [List.length_drop]; omega)]

theorem beAt_add (l : List Byte) (j k n : Nat) : beAt l (j + k) n = beAt (l.drop j) k n := by
  unfold beAt
  rw [List.drop_drop]

/-- The trim codes of a beam in a calibration record. -/
def trimCodes (s : State) (g : Nat) : List Byte :=
  beBytes 1 (s.pnat 0x0B00 g) ++ beBytes 1 (s.pnat 0x0B01 g) ++ beBytes 1 (s.pnat 0x0B02 g) ++ zeros 1

/-- The values in force of `n` trims of a field, as words. -/
def trimWords (s : State) (id n : Nat) : List Byte := ((List.range n).map (fun i => beBytes 2 (unsignedOf 16 (s.pval id i)))).flatten

/-- A calibration record without its CRC, behind its magic. -/
def calBody (s : State) (info : Nat) : List Byte :=
  beBytes 4 0x5443414C ++ (beBytes 2 1 ++ (beBytes 2 1200 ++ (beBytes 8 Config.serial.toNat ++ (beBytes 16 info ++
    (((List.range 128).map (trimCodes s)).flatten ++ (trimWords s 0x0B03 16 ++ (trimWords s 0x0B04 80 ++ (trimWords s 0x0B05 32 ++
      (trimWords s 0x0B06 8 ++ zeros 380)))))))))

theorem calRecord_eq (s : State) (info : Nat) : calRecord s info = calBody s info ++ beBytes 4 (crc32c (calBody s info)) := by
  have hbody : calBody s info = beBytes 4 0x5443414C ++ beBytes 2 1 ++ beBytes 2 1200 ++ beBytes 8 Config.serial.toNat ++ beBytes 16 info
      ++ ((List.range 128).map (trimCodes s)).flatten ++ trimWords s 0x0B03 16 ++ trimWords s 0x0B04 80 ++ trimWords s 0x0B05 32
      ++ trimWords s 0x0B06 8 ++ zeros 380 := by
    unfold calBody
    simp only [List.append_assoc]
  rw [hbody]
  rfl

theorem trimCodes_length (s : State) (g : Nat) : (trimCodes s g).length = 4 := rfl

theorem trimWords_length (s : State) (id n : Nat) : (trimWords s id n).length = 2 * n := flatten_length (fun _ => beBytes_length 2 _) n

theorem calBody_length (s : State) (info : Nat) : (calBody s info).length = 1196 := by
  unfold calBody
  simp only [List.length_append, beBytes_length, flatten_length (trimCodes_length s), trimWords_length, zeros_length]

theorem calRecord_head (s : State) (info : Nat) : (calRecord s info).length = 1200 ∧ beAt (calRecord s info) 0 4 = 0x5443414C ∧
    beAt (calRecord s info) 4 2 = 1 ∧ beAt (calRecord s info) 6 2 = 1200 ∧ beAt (calRecord s info) 8 8 = Config.serial.toNat ∧
    beAt (calRecord s info) 1196 4 = crc32c ((calRecord s info).take 1196) := by
  have hlen := calBody_length s info
  rw [calRecord_eq, beAt_prefix (by omega), beAt_prefix (by omega), beAt_prefix (by omega), beAt_prefix (by omega), List.take_left' hlen]
  refine ⟨by rw [List.length_append, hlen, beBytes_length], ?_, ?_, ?_, ?_, ?_⟩
  · unfold calBody
    simp only [beAt_head, beBytes_length, beNat_beBytes_mod]
    rfl
  · unfold calBody
    simp only [beAt_skip, beAt_head, beBytes_length, beNat_beBytes_mod, Nat.reduceLeDiff, Nat.reduceSub]
    rfl
  · unfold calBody
    simp only [beAt_skip, beAt_head, beBytes_length, beNat_beBytes_mod, Nat.reduceLeDiff, Nat.reduceSub]
    rfl
  · unfold calBody
    simp only [beAt_skip, beAt_head, beBytes_length, beNat_beBytes_mod, Nat.reduceLeDiff, Nat.reduceSub]
    exact Nat.mod_eq_of_lt Config.serial.isLt
  · rw [beAt_skip (by omega), hlen, Nat.sub_self, beAt, List.drop_zero, List.take_of_length_le (by rw [beBytes_length]), beNat_beBytes_mod]
    exact Nat.mod_eq_of_lt (BitVec.isLt _)

/-- The codes of a beam in the record. -/
theorem calRecord_codes (s : State) (info : Nat) {g : Nat} (hg : g < 128) : beAt (calRecord s info) (32 + 4 * g) 1 = s.pnat 0x0B00 g % 256 ∧
    beAt (calRecord s info) (33 + 4 * g) 1 = s.pnat 0x0B01 g % 256 ∧ beAt (calRecord s info) (34 + 4 * g) 1 = s.pnat 0x0B02 g % 256 := by
  have hlen := calBody_length s info
  obtain ⟨l, hl⟩ := flatten_word (trimCodes_length s) hg
  have hcode (k : Nat) (hk : k < 4) : beAt (calRecord s info) (32 + k + 4 * g) 1 = beAt (trimCodes s g) k 1 := by
    have hat : 32 + k + 4 * g - 4 - 2 - 2 - 8 - 16 = 4 * g + k := by omega
    rw [calRecord_eq, beAt_prefix (by omega)]
    unfold calBody
    iterate 5 rw [beAt_skip (by simp only [beBytes_length]; omega)]
    simp only [beBytes_length]
    rw [hat, beAt_prefix (by rw [flatten_length (trimCodes_length s)]; omega), beAt_add, hl, beAt_prefix (by rw [trimCodes_length]; omega)]
  refine ⟨?_, ?_, ?_⟩
  · refine (hcode 0 (by omega)).trans ?_
    unfold trimCodes
    simp only [List.append_assoc, beAt_head, beBytes_length, beNat_beBytes_mod, Nat.reducePow]
  · have hplace : 33 + 4 * g = 32 + 1 + 4 * g := by omega
    rw [hplace, hcode 1 (by omega)]
    unfold trimCodes
    simp only [List.append_assoc, beAt_skip, beAt_head, beBytes_length, beNat_beBytes_mod, Nat.le_refl, Nat.sub_self]
    rfl
  · have hplace : 34 + 4 * g = 32 + 2 + 4 * g := by omega
    rw [hplace, hcode 2 (by omega)]
    unfold trimCodes
    simp only [List.append_assoc, beAt_skip, beAt_head, beBytes_length, beNat_beBytes_mod, Nat.reduceLeDiff, Nat.reduceSub]
    rfl

/-- The value in force and the value pending of a field, as GET_PATTERN answers them. -/
theorem getPattern_one {c : AdminCmd} (hcount : c.arg 4 2 = 1) (s : State) : getPattern c s =
    if patDefined (c.arg 0 2) (c.arg 2 2) then
      adminFinish s c 0x00 0 0 0 (beBytes 2 (c.arg 0 2) ++ beBytes 2 (c.arg 2 2) ++ beBytes 4 (unsignedOf 32 (s.pval (c.arg 0 2) (c.arg 2 2)))
        ++ beBytes 4 (unsignedOf 32 (s.pat.latest (c.arg 0 2) (c.arg 2 2))))
    else adminFinish s c 0x11 0 0 0 [] := by
  have hrange : List.range 1 = [0] := rfl
  unfold getPattern
  simp only [hcount, hrange, List.any_cons, List.any_nil, List.map_cons, List.map_nil, Nat.add_zero, Bool.or_false, List.flatten_cons,
    List.flatten_nil, List.append_nil]
  cases hdef : patDefined (c.arg 0 2) (c.arg 2 2) with
  | true =>
    have hsome : (patField (c.arg 0 2)).isNone = false := by simpa using patDefined_some hdef
    rw [if_neg (by simp [hsome]), if_pos rfl]
    rfl
  | false =>
    rw [if_pos (.inr rfl)]
    rfl

/-- SET_PATTERN with one triple. -/
theorem patternFinish_one (s : State) (c : AdminCmd) (n id idx : Nat) (v : Int) : patternFinish s c [(n, id, idx, v)] false =
    adminFinish { s with pat := (applyTriple (patAllow s) s.pat n id idx v).1, logs := { s.logs with clamp := (applyTriple (patAllow s) s.pat n id idx v).2 } } c
      (if (applyTriple (patAllow s) s.pat n id idx v).2 = [] then 0x00 else 0x17) (if (applyTriple (patAllow s) s.pat n id idx v).2 = [] then 0 else 1)
      1 (applyTriple (patAllow s) s.pat n id idx v).2.length ((applyTriple (patAllow s) s.pat n id idx v).2.map ClampEntry.be).flatten := by
  unfold patternFinish
  rw [runTriples_one]
  obtain ⟨p, _ | ⟨e, l⟩⟩ := applyTriple (patAllow s) s.pat n id idx v <;> rfl

/-- Settles O16: one triple decides SET_PATTERN's pattern, report and status; GET_PATTERN answers what the field holds; CAL_LOAD's
checks come before its one write; and CAL_READ's record is read part by part. -/
theorem patternAndCalibrationAreSetAndReadBack : Obligations.PatternAndCalibrationAreSetAndReadBack := by
  unfold Obligations.PatternAndCalibrationAreSetAndReadBack
  refine ⟨fun c rest s h hop hlen hunits hpayload => ?_, fun c rest s h hop hcount => ?_, fun c rest s h hop hmode => ?_,
    fun c rest s h hop henrol hservice => ?_, fun c rest s h hop => ?_⟩
  · have hexec : exec .setPattern s = .next (patternFinish (s.taken rest) c (triplesHere c) (decide (c.len % 8 ≠ 0) || c.short)) :=
      adminRun_of_atHead (f := fun c t => patternFinish t c (triplesHere c) (decide (c.len % 8 ≠ 0) || c.short)) h (by simp [isOp, hop])
        (inF_of_fwRuns h.runs) (patternFinish_ring _ _ _ _)
    have hwhole : (decide (c.len % 8 ≠ 0) || c.short) = false := by simp [AdminCmd.short, hlen, hpayload]
    rw [triplesHere_one hpayload hunits, hwhole, patternFinish_one] at hexec
    refine ⟨_, hexec, ?_⟩
    dsimp only
    have hfinish := adminFinish_changesOnly { s.taken rest with
      pat := (applyTriple (patAllow s) s.pat 0 (beAt c.payload 0 2) (beAt c.payload 2 2) (signedOf 32 (beAt c.payload 4 4))).1
      logs := { s.logs with clamp := (applyTriple (patAllow s) s.pat 0 (beAt c.payload 0 2) (beAt c.payload 2 2) (signedOf 32 (beAt c.payload 4 4))).2 } } c
    refine ⟨hfinish _ _ _ _ _ .pat (by simp), congrArg Logs.clamp (hfinish _ _ _ _ _ .logs (by simp)), hfinish _ _ _ _ _ .adminQ (by simp),
      fun hdef => ?_, _, rfl⟩
    have hsame := applyTriple_undefined hdef (patAllow s) s.pat 0 (signedOf 32 (beAt c.payload 4 4))
    exact ⟨(hfinish _ _ _ _ _ .pat (by simp)).trans (congrArg Prod.fst hsame), by rw [hsame]; rfl⟩
  · have hexec : exec .getPattern s = .next (getPattern c (s.taken rest)) :=
      adminRun_of_atHead h (by simp [isOp, hop]) (inF_of_fwRuns h.runs) (by
        rw [getPattern_one hcount]
        split <;> exact adminFinish_ring _ _ _ _ _ _ _)
    exact ⟨_, hexec, getPattern_one hcount _⟩
  · have hexec : exec .calLoad s = .next (calLoad c (s.taken rest)) :=
      adminRun_of_atHead h (by simp [isOp, hop]) (decide_eq_true hmode) (calLoad_ring _ _)
    refine ⟨_, hexec, ?_⟩
    dsimp only
    rw [calLoad_eq]
    by_cases hvalid : calValid c.payload = false
    · rw [if_pos hvalid, if_pos hvalid]
    rw [if_neg hvalid, if_neg hvalid]
    by_cases hserial : beAt c.payload 8 8 ≠ Config.serial.toNat
    · rw [if_pos hserial, if_pos hserial]
    rw [if_neg hserial, if_neg hserial]
    have hfinish := patternFinish_changesOnly (calMeasured (s.taken rest) c.payload) c (calTriples c.payload) false
    refine ⟨fun g hg => ?_, ?_, ?_⟩
    · rw [State.beam, hfinish .beams (by simp)]
      exact calMeasured_loaded _ _ hg
    · rw [hfinish .mgmt (by simp)]
      exact calMeasured_digest _ _
    · exact (hfinish .adminQ (by simp)).trans (calMeasured_changesOnly _ _ .adminQ (by simp))
  · exact ⟨_, adminRun_wrongMode h (by simp [isOp, hop]) (by simp [inCal, henrol, hservice]), rfl⟩
  · have hexec : exec .calRead s = .next (adminFinish (s.taken rest).fresh.2 c stSuccess 0 0 0 (calRecord (s.taken rest).fresh.2 (s.taken rest).fresh.1)) :=
      adminRun_of_atHead (f := fun c t => adminFinish t.fresh.2 c stSuccess 0 0 0 (calRecord t.fresh.2 t.fresh.1)) h (by simp [isOp, hop])
        (inF_of_fwRuns h.runs) (adminFinish_ring _ _ _ _ _ _ _)
    obtain ⟨hlen, hmagic, hversion, hsize, hserial, hcrc⟩ := calRecord_head (s.taken rest).fresh.2 (s.taken rest).fresh.1
    exact ⟨_, hexec, _, rfl, hlen, hmagic, hversion, hsize, hserial, hcrc, fun g hg => calRecord_codes _ _ hg⟩

end Sys2Proof.Proofs
end

section
/-! SUPPORT. KEY_LOAD and KEY_ERASE (R416, R417); settles O17. -/

namespace Sys2Proof.Proofs

open Sys2Proof Sys2Proof.Machine Sys2Proof.Laws

/-! ## KEY_LOAD (R416) -/

theorem keyLoad_noSession {c : AdminCmd} {s : State}
    (h : s.sec.sessions.find? (fun x => x.established && x.sid.toNat == beAt c.payload 0 4) = none) :
    keyLoad c s = adminFinish s c 0x22 0 0 0 [] := by
  unfold keyLoad
  dsimp only
  rw [h]
  rfl

/-- KEY_LOAD in a session: the wrapped key must open, and name a slot that is free or may be replaced. -/
theorem keyLoad_inSession {c : AdminCmd} {s : State} {x : Session}
    (h : s.sec.sessions.find? (fun x => x.established && x.sid.toNat == beAt c.payload 0 4) = some x) :
    keyLoad c s = match gcmOpen (wrapKey x) ((c.payload.drop 8).take 12) (c.payload.take 8) ((c.payload.drop 20).take 32)
        ((c.payload.drop 52).take 16) with
      | none => adminFinish s c 0x22 0 0 0 []
      | some k =>
        if (byteAt c.payload 4).toNat = 0 then adminFinish s c 0x11 0 0 0 []
        else if Tbl.get [] s.sec.keys (byteAt c.payload 4).toNat ≠ [] ∧ (byteAt c.payload 5).getLsbD 0 = false then adminFinish s c 0x21 0 0 0 []
        else adminFinish { s with sec := { s.sec with keys := Tbl.set [] s.sec.keys (byteAt c.payload 4).toNat k } } c 0x00 0
          (byteAt c.payload 4).toNat 0 [] := by
  unfold keyLoad
  dsimp only
  rw [h]
  dsimp only
  cases gcmOpen (wrapKey x) ((c.payload.drop 8).take 12) (c.payload.take 8) ((c.payload.drop 20).take 32) ((c.payload.drop 52).take 16) <;> rfl

theorem keyLoad_changesOnly (c : AdminCmd) (s : State) : s.changesOnly [.sec, .qps, .sent] (keyLoad c s) := by
  have hend (u : State) (st a : Nat) : u.changesOnly [.sec, .qps, .sent] (adminFinish u c st 0 a 0 []) :=
    changesOnly_mono (adminFinish_changesOnly u c st 0 a 0 []) (by simp)
  cases hfind : s.sec.sessions.find? (fun x => x.established && x.sid.toNat == beAt c.payload 0 4) with
  | none => rw [keyLoad_noSession hfind]; exact hend s _ 0
  | some x =>
    rw [keyLoad_inSession hfind]
    split
    · exact hend s _ 0
    · split
      · exact hend s _ 0
      · split
        · exact hend s _ 0
        · exact changesOnly_trans (changesOnly_mono (withSec_changesOnly s _) (by simp)) (hend _ _ _)

/-- A KEY_LOAD of 68 bytes at the head of core 0's queue. -/
theorem exec_keyLoad {s : State} {c : AdminCmd} {rest : List AdminCmd} (h : s.atHead c rest) (hop : c.opcode = 0x46)
    (hservice : inService s = true) (hlen : c.len = 68) : exec .keyLoad s = .next (keyLoad c (s.taken rest)) := by
  have hload (t : State) : (if c.len = 68 then keyLoad c t else adminEnd t c stOutOfRange) = keyLoad c t := if_pos hlen
  refine (adminRun_of_atHead (f := fun c t => if c.len = 68 then keyLoad c t else adminEnd t c stOutOfRange) h (by simp [isOp, hop])
    hservice ?_).trans (congrArg Host.Outcome.next (hload _))
  rw [hload]
  exact keyLoad_changesOnly c (s.taken rest) .ring (by simp)

/-! ## KEY_ERASE (R417) -/

/-- The APPENDs that an erase ends touch neither keys nor sessions. -/
theorem endAppends_changesOnly (s : State) (gone : Nat → Bool) : s.changesOnly [.courses, .qps, .tags, .freeCtr] (endAppends s gone) := by
  refine changesOnly_foldl _ (fun u x => ?_) _ s
  split
  · exact changesOnly_trans (changesOnly_mono (giveUpAppend_changesOnly u x) (by simp)) (changesOnly_mono (finish_changesOnly _ _ _ _ _ _ _ _) (by simp))
  · exact changesOnly_mono (finishFree_changesOnly u _ _ _ _ _) (by simp)

/-- An erase's end: the APPENDs under the slots end, then the command. -/
theorem eraseEnd_changesOnly (s : State) (c : AdminCmd) (gone : Nat → Bool) :
    s.changesOnly [.courses, .qps, .tags, .freeCtr, .sent] (adminEnd (endAppends s gone) c stSuccess) :=
  changesOnly_trans (changesOnly_mono (endAppends_changesOnly s gone) (by simp)) (changesOnly_mono (adminFinish_changesOnly _ _ _ _ _ _ _) (by simp))

theorem keyErase_slot {c : AdminCmd} (hslot : c.arg 0 1 ≠ 0) (s : State) : keyErase c s =
    adminEnd (endAppends { s with sec := { s.sec with keys := Tbl.set [] s.sec.keys (c.arg 0 1) [] } } (· == c.arg 0 1)) c stSuccess := if_neg hslot

/-- Settles O17: KEY_LOAD ends as its tag and its slot decide, and an erase writes the empty key, which the APPENDs it ends leave alone. -/
theorem keySlotsAreLoadedAndErased : Obligations.KeySlotsAreLoadedAndErased := by
  unfold Obligations.KeySlotsAreLoadedAndErased
  refine ⟨fun c rest x s h hop hservice hlen hfind => ?_, fun c rest s h hop hservice hlen hfind => ?_,
    fun c rest s h hop hflag hslot => ?_, fun c rest s h hop hflag => ?_⟩
  · exact ⟨_, exec_keyLoad h hop hservice hlen, (keyLoad_inSession (s := s.taken rest) hfind).trans rfl⟩
  · exact ⟨_, exec_keyLoad h hop hservice hlen, keyLoad_noSession (s := s.taken rest) hfind⟩
  · have hend (u : State) := eraseEnd_changesOnly u c (· == c.arg 0 1)
    have hexec : exec .keyErase s = .next (keyErase c (s.taken rest)) :=
      adminRun_of_atHead h (by simp [isOp, hop, hflag]) (inF_of_fwRuns h.runs) (by rw [keyErase_slot hslot]; exact hend _ .ring (by simp))
    rw [keyErase_slot hslot] at hexec
    refine ⟨_, hexec, ?_⟩
    dsimp only
    rw [hend _ .sec (by simp)]
    exact ⟨Tbl_get_set_same [] s.sec.keys _ [], fun n hn => Tbl_get_set_other [] s.sec.keys [] hn, rfl, hend _ .adminQ (by simp)⟩
  · have hend (u : State) := eraseEnd_changesOnly u c (fun _ => true)
    have hexec : exec .keyEraseAll s = .next
        (adminEnd (endAppends { s.taken rest with sec := { s.sec with keys := [] } } (fun _ => true)) c stSuccess) :=
      adminRun_of_atHead (f := fun c t => adminEnd (endAppends { t with sec := { t.sec with keys := [] } } (fun _ => true)) c stSuccess) h
        (by simp [isOp, hop, hflag]) (inF_of_fwRuns h.runs) (hend _ .ring (by simp))
    refine ⟨_, hexec, ?_⟩
    dsimp only
    rw [hend _ .sec (by simp)]
    exact ⟨rfl, rfl, hend _ .adminQ (by simp)⟩

end Sys2Proof.Proofs
end

section
/-! SUPPORT. FW_STAGE, FW_ACTIVATE and COMMIT_SVN (R410 to R412); settles O20. -/

namespace Sys2Proof.Proofs

open Sys2Proof Sys2Proof.Machine Sys2Proof.Laws

/-! ## FW_STAGE (R410) -/

/-- The image of a FW_STAGE payload. -/
def fileOf (c : AdminCmd) : ImageFile := { header := c.payload.take 512, body := c.payload.drop 512 }

/-- What is held of an image that passes. -/
def stagedOf (i : ImageFile) : Staged :=
  { svn := imageSvn i, release := imageRelease i, revision := BitVec.ofNat 16 (imageRevision i), digest := imageDigest i }

theorem fwStage_eq (c : AdminCmd) (s : State) : fwStage c s = if imageVerifies (fileOf c) = false then adminFinish s c 0x22 0 0 0 []
    else if beAt (fileOf c).header 6 2 < s.aon.fuseSvn ∨ 64 < beAt (fileOf c).header 6 2 then adminFinish s c 0x23 0 0 0 []
    else if beAt (fileOf c).header 176 2 / 256 ≠ 3 then adminFinish s c 0x11 0 0 0 []
    else adminFinish { s with mgmt := { s.mgmt with staged := some (stagedOf (fileOf c)) } } c 0x00 0 (beAt (fileOf c).header 6 2) 0 [] := rfl

/-- An image ends FW_STAGE at the first check that it fails, or is held. -/
theorem fwStage_cases (c : AdminCmd) (s : State) : if imageVerifies (fileOf c) = false then fwStage c s = adminFinish s c 0x22 0 0 0 []
    else if beAt (fileOf c).header 6 2 < s.aon.fuseSvn ∨ 64 < beAt (fileOf c).header 6 2 then fwStage c s = adminFinish s c 0x23 0 0 0 []
    else if beAt (fileOf c).header 176 2 / 256 ≠ 3 then fwStage c s = adminFinish s c 0x11 0 0 0 []
    else ∃ g : Staged, g.svn = beAt (fileOf c).header 6 2 ∧
      fwStage c s = adminFinish { s with mgmt := { s.mgmt with staged := some g } } c 0x00 0 (beAt (fileOf c).header 6 2) 0 [] := by
  rw [fwStage_eq]
  split
  · rfl
  split
  · rfl
  split
  · rfl
  · exact ⟨stagedOf (fileOf c), rfl, rfl⟩

theorem fwStage_ring (c : AdminCmd) (s : State) : (fwStage c s).ring = s.ring := by
  rw [fwStage_eq]
  split
  · exact adminFinish_ring _ _ _ _ _ _ _
  · split
    · exact adminFinish_ring _ _ _ _ _ _ _
    · split
      · exact adminFinish_ring _ _ _ _ _ _ _
      · exact adminFinish_ring _ _ _ _ _ _ _

/-! ## FW_ACTIVATE LIVE (R411) -/

/-- The engine that restarts for an activation, with the command in wait for the new image. -/
def activating (s : State) (c : AdminCmd) : State :=
  { restarting s false false none with mgmt := { (restarting s false false none).mgmt with live := some c } }

theorem activating_changesOnly (s : State) (c : AdminCmd) : s.changesOnly [.mem, .bays, .mgmt, .sec, .aon] (activating s c) :=
  changesOnly_trans (restarting_changesOnly s false false none) (changesOnly_mono (withMgmt_changesOnly _ _) (by simp))

theorem activating_mgmt (s : State) (c : AdminCmd) :
    (activating s c).mgmt = { s.mgmt with restarting := true, running := false, live := some c } := by
  unfold activating
  rw [restarting_mgmt]

theorem activating_ofRestarting (s : State) (c : AdminCmd) : (restarting s false false none).changesOnly [.mgmt] (activating s c) :=
  withMgmt_changesOnly _ _

theorem activating_sec (s : State) (c : AdminCmd) : (activating s c).sec = { s.sec with sessions := [] } :=
  (activating_ofRestarting s c .sec (by simp)).trans (restarting_sec s false false none)

/-- A restart that is not counted keeps the restarts of the last ten minutes. -/
theorem activating_restarts (s : State) (c : AdminCmd) :
    (activating s c).aon.restarts = s.aon.restarts.filter (fun n => s.now < n + 120000000) := by
  rw [activating_ofRestarting s c .aon (by simp), restarting_aon]
  exact List.append_nil _

theorem fwActivateLive_none {c : AdminCmd} {s : State} (h : s.mgmt.staged = none) : fwActivateLive c s = adminFinish s c 0x11 0 0 0 [] := by
  unfold fwActivateLive
  exact if_pos (by rw [h]; rfl)

/-- An activation's restart is not counted. -/
theorem fwActivateLive_staged {c : AdminCmd} {g : Staged} {s : State} (h : s.mgmt.staged = some g) (hfw : s.mode.firmware = true) :
    fwActivateLive c s = activating s c := by
  unfold fwActivateLive activating
  rw [if_neg (by simp [h]), mgmtRestart_eq hfw, if_neg (by simp)]

theorem firmware_of_fwRuns {s : State} (h : s.fwRuns = true) : s.mode.firmware = true := by
  simp only [State.fwRuns, Bool.and_eq_true] at h
  exact h.1

/-! ## COMMIT_SVN (R412) -/

/-- COMMIT_SVN raises the fuse SVN to the running image's, or leaves it. -/
theorem commitSvn_facts {c : AdminCmd} {s : State} (hslot : s.mgmt.slot ≠ 2) : s.changesOnly [.aon, .logs, .events, .freeCtr, .qps, .sent] (commitSvn c s) ∧
    (commitSvn c s).aon.fuseSvn = max s.aon.fuseSvn s.mgmt.svn := by
  have hend (u : State) := adminEnd_changesOnly u c stSuccess
  unfold commitSvn
  rw [if_neg hslot]
  by_cases hle : s.mgmt.svn ≤ s.aon.fuseSvn
  · rw [if_pos hle]
    exact ⟨changesOnly_mono (hend s) (by simp), by rw [hend s .aon (by simp)]; exact (Nat.max_eq_left hle).symm⟩
  · rw [if_neg hle]
    dsimp only
    have hlog (u : State) : (u.logFree .device 0x0E05 0xFF).aon = u.aon := logFree_changesOnly u _ _ _ .aon (by simp)
    refine ⟨changesOnly_trans (changesOnly_mono (withAon_changesOnly s _) (by simp))
      (changesOnly_trans (changesOnly_mono (logFree_changesOnly _ _ _ _) (by simp)) (changesOnly_mono (hend _) (by simp))), ?_⟩
    rw [hend _ .aon (by simp), hlog]
    exact (Nat.max_eq_right (Nat.le_of_not_le hle)).symm

/-- Settles O20: the order of FW_STAGE's checks is that of its branches; a LIVE activation is the restart that is not counted, with
the command kept for the new image; and the fuse SVN is written only upwards. -/
theorem firmwareIsStagedActivatedAndCommitted : Obligations.FirmwareIsStagedActivatedAndCommitted := by
  unfold Obligations.FirmwareIsStagedActivatedAndCommitted
  refine ⟨fun c rest s h hop hmode => ?_, fun c rest s h hop haction hmode hstaged => ?_, fun c rest g s h hop haction hmode hstaged => ?_,
    fun c rest s h hop haction hslot => ?_, fun c rest s h hop haction hslot => ?_⟩
  · have hexec : exec .fwStage s = .next (fwStage c (s.taken rest)) :=
      adminRun_of_atHead h (by simp [isOp, hop]) hmode (fwStage_ring _ _)
    refine ⟨_, hexec, ?_⟩
    exact fwStage_cases c (s.taken rest)
  · have hexec : exec .fwActivateLive s = .next (fwActivateLive c (s.taken rest)) :=
      adminRun_of_atHead h (by simp [isAction, hop, haction]) hmode (by
        rw [fwActivateLive_none (s := s.taken rest) hstaged]; exact adminFinish_ring _ _ _ _ _ _ _)
    exact ⟨_, hexec, fwActivateLive_none (s := s.taken rest) hstaged⟩
  · have hact : fwActivateLive c (s.taken rest) = activating (s.taken rest) c :=
      fwActivateLive_staged (s := s.taken rest) hstaged (firmware_of_fwRuns h.runs)
    have hexec : exec .fwActivateLive s = .next (fwActivateLive c (s.taken rest)) :=
      adminRun_of_atHead h (by simp [isAction, hop, haction]) hmode (by rw [hact]; exact activating_changesOnly _ _ .ring (by simp))
    rw [hact] at hexec
    refine ⟨_, hexec, ?_⟩
    dsimp only
    rw [activating_mgmt, activating_sec, activating_restarts]
    exact ⟨rfl, rfl, hstaged, activating_changesOnly _ _ .mode (by simp), rfl, rfl⟩
  · have hrefuse : commitSvn c (s.taken rest) = adminFinish (s.taken rest) c 0x23 0 0 0 [] := if_pos hslot
    have hexec : exec .commitSvn s = .next (commitSvn c (s.taken rest)) :=
      adminRun_of_atHead h (by simp [isAction, hop, haction]) (inF_of_fwRuns h.runs) (by rw [hrefuse]; exact adminFinish_ring _ _ _ _ _ _ _)
    exact ⟨_, hexec, hrefuse⟩
  · obtain ⟨hother, hfuse⟩ := commitSvn_facts (c := c) (s := s.taken rest) hslot
    have hexec : exec .commitSvn s = .next (commitSvn c (s.taken rest)) :=
      adminRun_of_atHead h (by simp [isAction, hop, haction]) (inF_of_fwRuns h.runs) (hother .ring (by simp))
    exact ⟨_, hexec, hfuse, hother .mode (by simp), hother .adminQ (by simp)⟩

end Sys2Proof.Proofs
end

section
/-! SUPPORT. Storing a frame leaves DRAM and the ingest buffer, and the buffer empties once no channel retrains (R429). -/

namespace Sys2Proof.Proofs

open Sys2Proof Sys2Proof.Machine Sys2Proof.Laws

/-! ## The ingest buffer (R429)

A frame that is stored touches neither DRAM nor the ingest buffer. -/

/-- DRAM, and the frames in wait for it. -/
def backlog (s : State) : Memory × List (Frame × List Word) := (s.mem, s.ring.ingest)

theorem backlog_of_changesOnly {ps : List Part} {s t : State} (h : s.changesOnly ps t) (hmem : Part.mem ∉ ps) (hring : Part.ring ∉ ps) :
    backlog t = backlog s :=
  congrArg₂ (fun (m : Memory) (r : Ring) => (m, r.ingest)) (h .mem hmem) (h .ring hring)

theorem backlog_of_flows {s t : State} (h : Flows s t) : backlog t = backlog s :=
  congrArg₂ Prod.mk (h.frame .mem (by simp)) (congrArg Ring.ingest h.ring :)

@[simp] theorem modQp_backlog (s : State) (q : QpId) (f : Qp → Qp) : backlog (s.modQp q f) = backlog s := rfl

@[simp] theorem modCmd_backlog (s : State) (q : QpId) (n : Nat) (f : Cmd → Cmd) : backlog (s.modCmd q n f) = backlog s := rfl

@[simp] theorem modCourse_backlog (s : State) (h : Nat) (f : Course → Course) : backlog (s.modCourse h f) = backlog s := rfl

@[simp] theorem ringDrop_backlog (s : State) (p : Port) : backlog (s.ringDrop p) = backlog s := backlog_of_flows (ringDrop_flows s p)

@[simp] theorem pfcAll_backlog (s : State) : backlog (pfcAll s) = backlog s := backlog_of_flows (pfcAll_flows s)

@[simp] theorem log_backlog (s : State) (pg : Page) (c b d : Nat) : backlog (s.log pg c b d) = backlog s :=
  backlog_of_changesOnly (log_changesOnly s pg c b d) (by simp) (by simp)

@[simp] theorem finish_backlog (s : State) (q : QpId) (t r st c a b : Nat) : backlog (s.finish q t r st c a b) = backlog s :=
  backlog_of_changesOnly (finish_changesOnly s q t r st c a b) (by simp) (by simp)

@[simp] theorem finishFree_backlog (s : State) (q : QpId) (t st c a : Nat) : backlog (s.finishFree q t st c a) = backlog s :=
  backlog_of_changesOnly (finishFree_changesOnly s q t st c a) (by simp) (by simp)

@[simp] theorem sendAck_backlog (s : State) (q : QpId) (nak : Bool) : backlog (sendAck s q nak) = backlog s := by
  unfold sendAck
  dsimp only
  split
  · next t ht => exact (backlog_of_flows (originate_flows ht)).trans (modQp_backlog _ _ _)
  · rfl

@[simp] theorem reopen_backlog (s : State) (q : QpId) : backlog (reopen s q) = backlog s := by
  have hsent (l : List TxFrame) (u : State) : backlog (l.foldl (fun a f => match originate a f with | some t => t | none => a) u) = backlog u := by
    induction l generalizing u with
    | nil => rfl
    | cons f l ih =>
      refine (ih _).trans ?_
      dsimp only
      split
      · next t ht => exact backlog_of_flows (originate_flows ht)
      · rfl
  unfold reopen
  split
  · exact hsent _ _
  · rfl

theorem memberSeq_backlog {s : State} {c : Course} {i : Nat} {draws : List Word} {x : Nat × State} (h : memberSeq s c i draws = some x) :
    backlog x.2 = backlog s := by
  unfold memberSeq at h
  split at h
  · cases h
  split at h
  · cases h; rfl
  · split at h
    · obtain ⟨w, -, rfl⟩ := Option.map_eq_some_iff.1 h
      rfl
    · cases h; rfl
  · cases h

theorem bufferSector_backlog {s t : State} {handle csn tenant key : Nat} {fill : Bool} {draws : List Word} {user : List Byte}
    (h : bufferSector s handle csn tenant key fill draws user = some t) : backlog t = backlog s := by
  unfold bufferSector at h
  split at h
  · cases h
  dsimp only at h
  split at h
  · next hseq _ =>
    cases h
    exact (modCourse_backlog _ _ _).trans (memberSeq_backlog hseq)
  · cases h

theorem assignRange_backlog {s : State} {c : Cmd} {x : Nat × State} (h : assignRange s c = some x) : backlog x.2 = backlog s := by
  unfold assignRange at h
  split at h
  · cases h; rfl
  split at h
  · cases h
  split at h
  · cases h
  · cases h; rfl

theorem takeSector_backlog {port : Port} {q : QpId} {tag : Nat} {draws : List Word} {s t : State} {x : Nat × List Byte}
    (h : takeSector port q tag draws s x = some t) : backlog t = backlog s := by
  unfold takeSector at h
  split at h
  · cases h; simp
  split at h
  · cases h; simp
  split at h
  · cases h; rfl
  split at h
  · rcases eq_or_eq_of_ite_some h with rfl | rfl <;> simp
  · next hrange =>
    have hassigned := assignRange_backlog hrange
    split at h
    · cases h
    · next hbuffer =>
      have hbuffered := (bufferSector_backlog hbuffer).trans hassigned
      dsimp only at h
      split at h <;> cases h <;> simpa using hbuffered

theorem foldStep_backlog {α : Type} {f : State → α → Option State} (hf : ∀ a x t, f a x = some t → backlog t = backlog a)
    {l : List α} {s t : State} (h : foldStep f l s = some t) : backlog t = backlog s := by
  induction l generalizing s with
  | nil => cases h; rfl
  | cons x l ih =>
    unfold foldStep at h
    split at h
    · cases h
    · next u hu => exact (ih h).trans (hf _ _ _ hu)

theorem storeCmd_backlog {f : Frame} {q : QpId} {s t : State} (h : storeCmd f q s = some t) : backlog t = backlog s := by
  unfold storeCmd at h
  dsimp only at h
  (repeat' split at h) <;> cases h <;> simp

theorem storeData_backlog {f : Frame} {draws : List Word} {q : QpId} {s t : State} (h : storeData f draws q s = some t) :
    backlog t = backlog s := by
  unfold storeData at h
  dsimp only at h
  split at h
  · cases h
  split at h
  · split at h
    · cases h; rfl
    · split at h <;> cases h
      simp
  · split at h
    · split at h
      · cases h; simp
      split at h
      · cases h
      split at h
      · cases h
      · exact (foldStep_backlog (fun _ _ _ => takeSector_backlog) h).trans (modQp_backlog _ _ _)
    · split at h <;> cases h
      simp

theorem sequencedNow_backlog (s : State) (f : Frame) {store : QpId → State → Option State}
    (hstore : ∀ q a t, store q a = some t → backlog t = backlog a) : backlog (sequencedNow s f store) = backlog s := by
  unfold sequencedNow
  split
  · simp
  dsimp only
  split
  · simp
  split
  · split
    · exact reopen_backlog s _
    · next t ht =>
      have hstored : backlog t = backlog (reopen s _) := hstore _ _ t (by
        split at ht
        · cases ht
        · exact ht)
      rw [reopen_backlog] at hstored
      split
      · simpa using hstored
      · simpa using hstored
  · split
    · simp
    · split
      · simp
      · simp

/-- Once no channel retrains, the ingest buffer is stored, which leaves DRAM as it is. -/
theorem drainIngest_backlog {s : State} (h0 : (s.chan 0).retraining = false) (h1 : (s.chan 1).retraining = false) :
    backlog (drainIngest s) = (s.mem, []) := by
  unfold drainIngest
  by_cases hempty : s.ring.ingest = []
  · rw [if_pos (.inr (by simp [hempty]))]
    exact congrArg (Prod.mk s.mem) hempty
  · rw [if_neg (by simp [h0, h1, hempty])]
    have hlevel (u : State) : backlog (ingestLevel u) = backlog u := rfl
    have hfold (l : List (Frame × List Word)) (u : State) : backlog (l.foldl (fun a e =>
        if e.1.ftype = 1 then sequencedNow a e.1 (storeCmd e.1) else sequencedNow a e.1 (storeData e.1 e.2)) u) = backlog u := by
      induction l generalizing u with
      | nil => rfl
      | cons e l ih =>
        refine (ih _).trans ?_
        dsimp only
        split
        · exact sequencedNow_backlog u e.1 fun _ _ _ => storeCmd_backlog
        · exact sequencedNow_backlog u e.1 fun _ _ _ => storeData_backlog
    rw [pfcAll_backlog, hlevel, hfold]
    rfl

theorem drainIngest_empty {s : State} (h : s.ring.ingest = []) : drainIngest s = s := if_pos (.inr (by simp [h]))

end Sys2Proof.Proofs
end

section
/-! SUPPORT. DRAM channels, requests, errors and the Burnisher (R428 to R447); settles O51. -/

namespace Sys2Proof.Proofs

open Sys2Proof Sys2Proof.Machine Sys2Proof.Laws

/-! ## Channels -/

theorem chan_of_mem {s t : State} (h : t.mem = s.mem) (c : Nat) : t.chan c = s.chan c := by rw [State.chan, h, State.chan]

theorem modChanD_chan_other (s : State) {c k : Nat} (hc : c < 2) (hk : k < 2) (hne : k ≠ c) (f : DramChan → DramChan) :
    (s.modChanD c f).chan k = s.chan k := by
  have hcases : c = 0 ∧ k = 1 ∨ c = 1 ∧ k = 0 := by omega
  rcases hcases with ⟨rfl, rfl⟩ | ⟨rfl, rfl⟩ <;> rfl

theorem modChanD_others (s : State) (c : Fin 2) (f : DramChan → DramChan) : ∀ k, k < 2 → k ≠ c.val → (s.modChanD c f).chan k = s.chan k :=
  fun _ hk hne => modChanD_chan_other s c.isLt hk hne f

theorem modChanD_poisoned (s : State) (c : Nat) (f : DramChan → DramChan) : (s.modChanD c f).mem.poisoned = s.mem.poisoned := by
  unfold State.modChanD
  split <;> rfl

theorem log_chan (s : State) (pg : Page) (code b d c : Nat) : (s.log pg code b d).chan c = s.chan c :=
  chan_of_mem (log_changesOnly s pg code b d .mem (by simp)) c

/-! ## Requests (R439, R441) -/

/-- Nothing is lent to the request that came last. -/
theorem mem_lendAll_last (now : Nat) (l : List DramReq) (x : DramReq) : x ∈ lendAll now (l ++ [x]) := by
  induction l with
  | nil => exact List.mem_cons.2 (.inl (by simp [lendTo, lendAll]))
  | cons y l ih => exact List.mem_cons_of_mem _ ih

/-- A request as it joins its channel: only its number and its times are the channel's own. -/
def JoinsAs (r x : DramReq) : Prop :=
  x.line = r.line ∧ x.write = r.write ∧ x.cls = r.cls ∧ x.off = r.off ∧ x.data = r.data ∧ x.poison = r.poison ∧ x.client = r.client

/-- The request that came last is accepted, or held at its port. -/
theorem accept_last (now : Nat) (d : DramChan) (l : List DramReq) (x : DramReq) :
    ∃ y ∈ (({ d with held := l ++ [x] } : DramChan).accept now).queue ++ (({ d with held := l ++ [x] } : DramChan).accept now).held, JoinsAs x y := by
  unfold DramChan.accept
  rw [List.foldl_append, List.foldl_cons, List.foldl_nil]
  split
  · exact ⟨_, List.mem_append_left _ (mem_lendAll_last _ _ _), rfl, rfl, rfl, rfl, rfl, rfl, rfl⟩
  · exact ⟨x, List.mem_append_right _ (by simp), rfl, rfl, rfl, rfl, rfl, rfl, rfl⟩

theorem request_joins (s : State) (r : DramReq) :
    ∃ x ∈ ((s.request r).chan (chanOf (64 * r.line))).queue ++ ((s.request r).chan (chanOf (64 * r.line))).held, JoinsAs r x := by
  unfold State.request
  rw [modChanD_chan]
  exact accept_last _ _ _ { r with id := _ }

theorem request_changesOnly (s : State) (r : DramReq) : s.changesOnly [.mem] (s.request r) := modChanD_changesOnly s _ _

/-- A request stores nothing yet. -/
theorem dramWrite_facts (s : State) (line off : Nat) (data : List Byte) (poison : Bool) (cls : Nat) (c : Client) :
    (s.dramWrite line off data poison cls c).mem.readByte = s.mem.readByte ∧ (s.dramWrite line off data poison cls c).mem.poisoned = s.mem.poisoned ∧
    s.changesOnly [.mem] (s.dramWrite line off data poison cls c) ∧
    ∃ r ∈ ((s.dramWrite line off data poison cls c).chan (chanOf (64 * line))).queue ++
        ((s.dramWrite line off data poison cls c).chan (chanOf (64 * line))).held,
      r.line = line ∧ r.write = true ∧ r.cls = cls ∧ r.off = off ∧ r.data = data ∧ r.poison = poison ∧ r.client = c :=
  ⟨modChanD_readByte _ _ _, modChanD_poisoned _ _ _, request_changesOnly _ _, request_joins s _⟩

/-! ## Timeouts and retrains (R429) -/

/-- A channel with a request timed out and reissued. -/
def DramChan.timedOut (now i : Nat) (d : DramChan) : DramChan :=
  { d with
    timeouts := min 15 (d.timeouts + 1)
    rowTimeouts := d.rowTimeouts + 1
    queue := d.queue.map (fun x => if x.id = i then { x with timeouts := x.timeouts + 1, at_ := now } else x) }

/-- A request that is late for the first or the second time is reissued; with the third timeout in a row its channel retrains. -/
theorem exec_dramRequestTimeout {c : Fin 2} {i : Nat} {r : DramReq} {s : State} (hfind : (s.chan c.val).queue.find? (fun r => r.id == i) = some r)
    (hup : (s.chan c.val).state = .up) (hlate : r.at_ + 10 ≤ s.now) (htries : r.timeouts < 2) : exec (.dramRequestTimeout c i) s =
      .next (if 3 ≤ (s.chan c.val).rowTimeouts + 1 then startRetrain (s.modChanD c (DramChan.timedOut s.now i)) c
        else s.modChanD c (DramChan.timedOut s.now i)) := by
  have hrow : ((s.modChanD c (DramChan.timedOut s.now i)).chan c).rowTimeouts = (s.chan c.val).rowTimeouts + 1 := by
    rw [modChanD_chan]; rfl
  rw [← hrow]
  change execDramRequestTimeout c i s = _
  unfold execDramRequestTimeout
  dsimp only
  rw [hfind]
  dsimp only
  rw [if_pos ⟨hup, hlate⟩, if_neg (c := 3 ≤ r.timeouts + 1) (by omega)]
  rfl

theorem exec_dramRequestTimeout_down {c : Fin 2} {i : Nat} {s : State} (h : (s.chan c.val).state ≠ .up) :
    exec (.dramRequestTimeout c i) s = .next s := by
  change execDramRequestTimeout c i s = _
  unfold execDramRequestTimeout
  dsimp only
  split
  · exact if_neg (fun hup => h hup.1)
  · rfl

theorem startRetrain_facts (s : State) (c : Nat) : ((startRetrain s c).chan c).state = .quick ∧ ((startRetrain s c).chan c).quickTries = 1 ∧
    ((startRetrain s c).chan c).rowTimeouts = 0 ∧ ((startRetrain s c).chan c).retrains = min 15 ((s.chan c).retrains + 1) ∧
    s.changesOnly [.mem, .logs, .events] (startRetrain s c) := by
  unfold startRetrain
  rw [log_chan, modChanD_chan]
  exact ⟨rfl, rfl, rfl, rfl, changesOnly_trans (changesOnly_mono (modChanD_changesOnly s c _) (by simp))
    (changesOnly_mono (log_changesOnly _ _ _ _ _) (by simp))⟩

/-- A channel after its retrain. -/
def DramChan.retrained (now : Nat) (d : DramChan) : DramChan :=
  { d with state := .up, quickTries := 0, rowTimeouts := 0, queue := d.queue.map (fun x => { x with at_ := now }) }

theorem exec_dramRetrainDone_ok {c : Fin 2} {s : State} (h : (s.chan c.val).retraining = true) :
    exec (.dramRetrainDone c true) s = .next (drainIngest (s.modChanD c (DramChan.retrained s.now))) := by
  change execDramRetrainDone c true s = _
  unfold execDramRetrainDone
  exact (if_neg (by simp [h])).trans (if_pos rfl)

theorem retraining_of_quick {d : DramChan} (h : d.state = .quick) : d.retraining = true := decide_eq_true (.inl h)

theorem retraining_of_full {d : DramChan} (h : d.state = .full) : d.retraining = true := decide_eq_true (.inr h)

/-- A quick retrain that fails: once more, and then a full one. -/
theorem exec_dramRetrainDone_quick {c : Fin 2} {s : State} (h : (s.chan c.val).state = .quick) : exec (.dramRetrainDone c false) s = .next
    (if (s.chan c.val).quickTries < 2 then
      (s.modChanD c fun d => { d with quickTries := d.quickTries + 1, retrains := min 15 (d.retrains + 1) }).log .device 0x0303 0xFF (c + 256)
     else (s.modChanD c fun d => { d with state := .full, quickTries := 0, retrains := min 15 (d.retrains + 1) }).log .device 0x0303 0xFF (c + 512)) := by
  change execDramRetrainDone c false s = _
  unfold execDramRetrainDone
  dsimp only
  rw [if_neg (by simp [retraining_of_quick h]), if_neg (by simp), h]
  dsimp only
  split <;> rfl

/-- A full retrain that fails. -/
theorem exec_dramRetrainDone_full {c : Fin 2} {s : State} (h : (s.chan c.val).state = .full) : exec (.dramRetrainDone c false) s =
    .next ((s.modChanD c fun d => { d with state := .failed }).log .device 0x0304 0xFF c).beginSelfReset := by
  change execDramRetrainDone c false s = _
  unfold execDramRetrainDone
  dsimp only
  rw [if_neg (by simp [retraining_of_full h]), if_neg (by simp), h]

/-- What an entry to SAFE-STOP changes: neither DRAM nor the governor is among it. -/
abbrev safeStopParts : List Part :=
  [.mode, .mgmt, .aon, .girth, .bays, .courses, .recov, .pat, .sent, .logs, .events, .freeCtr, .qps, .tags]

theorem enterSafeStop_narrow (s : State) (c : Nat) : s.changesOnly safeStopParts (s.enterSafeStop c) := by
  have hstopped : s.changesOnly safeStopParts s.stopCourses :=
    changesOnly_mono (changesOnly_foldl _ (fun u (c : Course) => stopCourse_changesOnly u c.handle .stopped) _ s) (by simp)
  have hsafe (u : State) : u.changesOnly safeStopParts u.safeAll :=
    changesOnly_mono (changesOnly_foldl (ps := safeParts) _ (fun v b => changesOnly_ite (changesOnly_refl _ v)
      (changesOnly_trans (enterSafe_changesOnly v b _) (changesOnly_mono (modBay_changesOnly _ b _) (by simp)))) _ u) (by simp)
  have hoff (u : State) : u.changesOnly safeStopParts (u.powerOff (pds 7 16)) := changesOnly_mono (powerOff_changesOnly u _) (by simp)
  have hup (u : State) : u.changesOnly safeStopParts u.motionUp := changesOnly_mono (motionUp_changesOnly u) (by simp)
  unfold State.enterSafeStop
  exact changesOnly_trans hstopped (changesOnly_trans (hsafe _) (changesOnly_trans (hoff _) (changesOnly_trans (hup _)
    (changesOnly_mono (enterMode_changesOnly _ _ _) (by simp)))))

theorem beginSelfReset_mem {s : State} (hring : s.mode.onRing = true) (hmode : s.mode ≠ .safeStop) : s.beginSelfReset.mem = s.mem := by
  have hbegin : s.beginSelfReset = { s.enterSafeStop mcRestarts with
      mgmt := { (s.enterSafeStop mcRestarts).mgmt with selfReset := some (s.enterSafeStop mcRestarts).now } } := by
    unfold State.beginSelfReset
    rw [if_neg (by rintro (h | h) <;> simp [h, Mode.onRing] at hring), if_neg hmode, if_pos hring]
  rw [hbegin]
  exact enterSafeStop_narrow s _ .mem (by simp)

/-! ## Errors (R443, R444, R447) -/

theorem dramErr_changesOnly (s : State) (pa : Nat) (batten : Bool) (kind : Nat) : s.changesOnly [.logs, .events] (s.dramErr pa batten kind) :=
  errNote_changesOnly s _ _ _ _ _

/-- An error noted in both logs. -/
theorem noted_changesOnly (s : State) (pa : Nat) (batten : Bool) (kind code d : Nat) :
    s.changesOnly [.logs, .events] ((s.dramErr pa batten kind).log .device code 0xFF d) :=
  changesOnly_trans (dramErr_changesOnly s pa batten kind) (log_changesOnly _ _ _ _ _)

/-- What the notes of corrected errors leave: the requests, the bytes and the poisoned lines. -/
structure NotesOnly (s t : State) : Prop where
  other : s.changesOnly [.mem, .logs, .events] t
  bytes : t.mem.readByte = s.mem.readByte
  poisoned : t.mem.poisoned = s.mem.poisoned
  queue : ∀ c, c < 2 → (t.chan c).queue = (s.chan c).queue

theorem NotesOnly.refl (s : State) : NotesOnly s s := ⟨changesOnly_refl _ s, rfl, rfl, fun _ _ => rfl⟩

theorem NotesOnly.trans {s t u : State} (h : NotesOnly s t) (g : NotesOnly t u) : NotesOnly s u :=
  ⟨changesOnly_trans h.other g.other, g.bytes.trans h.bytes, g.poisoned.trans h.poisoned, fun c hc => (g.queue c hc).trans (h.queue c hc)⟩

theorem notesOnly_foldl {α : Type} {f : State → α → State} (hf : ∀ a x, NotesOnly a (f a x)) (l : List α) (s : State) : NotesOnly s (l.foldl f s) := by
  induction l generalizing s with
  | nil => exact .refl s
  | cons x l ih => exact (hf s x).trans (ih _)

theorem chanOf_lt (pa : Nat) : chanOf pa < 2 := Nat.xor_lt_two_pow (n := 1) (Nat.mod_lt _ (by omega)) (Nat.mod_lt _ (by omega))

theorem notesOnly_of_logs {s t : State} (h : s.changesOnly [.logs, .events] t) : NotesOnly s t := by
  have hmem : t.mem = s.mem := h .mem (by simp)
  exact ⟨changesOnly_mono h (by simp), by rw [hmem], by rw [hmem], fun c _ => by rw [chan_of_mem hmem]⟩

theorem countCe_notesOnly (s : State) (pa : Nat) : NotesOnly s (s.modChanD (chanOf pa) fun d => { d with ce := min 255 (d.ce + 1) }) := by
  refine ⟨changesOnly_mono (modChanD_changesOnly _ _ _) (by simp), modChanD_readByte _ _ _, modChanD_poisoned _ _ _, fun c hc => ?_⟩
  by_cases h : c = chanOf pa
  · rw [h, modChanD_chan]
  · rw [modChanD_chan_other s (chanOf_lt pa) hc h]

theorem noteCorrected_notesOnly (s : State) (line : Nat) (batten : Bool) (k : LineCheck) (burnish : Bool) :
    NotesOnly s (noteCorrected s line batten k burnish) := by
  have hbump (u : State) (pa : Nat) (kind : Nat) :
      NotesOnly u ((u.modChanD (chanOf (64 * line)) fun d => { d with ce := min 255 (d.ce + 1) }).dramErr pa batten kind) :=
    (countCe_notesOnly u _).trans (notesOnly_of_logs (dramErr_changesOnly _ _ _ _))
  unfold noteCorrected
  dsimp only
  split
  · exact ((notesOnly_foldl (fun u w => hbump u _ _) _ s).trans (notesOnly_foldl (fun u w => hbump u _ _) _ _)).trans (hbump _ _ _)
  · exact (notesOnly_foldl (fun u w => hbump u _ _) _ s).trans (notesOnly_foldl (fun u w => hbump u _ _) _ _)

theorem readBytes_of_readByte {m n : Memory} (h : m.readByte = n.readByte) (a k : Nat) : m.readBytes a k = n.readBytes a k := by
  rw [Memory.readBytes, h, Memory.readBytes]

/-- Bytes that were written are read. -/
theorem readBytes_writeBytes (m : Memory) (a : Nat) (l : List Byte) : (m.writeBytes a l).readBytes a l.length = l := by
  induction l generalizing m a with
  | nil => rfl
  | cons v l ih =>
    have hfirst : ((m.writeByte a v).writeBytes (a + 1) l).readByte a = v := by
      rw [readByte_writeBytes_outside _ _ _ _ (.inl (by omega)), readByte_writeByte, if_pos rfl]
    have hrest := ih (m.writeByte a v) (a + 1)
    rw [Memory.writeBytes, Memory.readBytes, List.length_cons, List.range_succ_eq_map, List.map_cons, List.map_map]
    refine congrArg₂ List.cons hfirst (Eq.trans (List.map_congr_left fun i _ => ?_) hrest)
    have hplace : a + i.succ = a + 1 + i := by omega
    dsimp only [Function.comp]
    rw [hplace]

theorem mergeLine_length (old : List Byte) (off : Nat) (data : List Byte) (h : old.length = 64) : (mergeLine old off data).length = 64 := by
  simp only [mergeLine, List.length_take, List.length_append, List.length_drop, h]
  omega

theorem readBytes_length (m : Memory) (a n : Nat) : (m.readBytes a n).length = n := by
  rw [Memory.readBytes, List.length_map, List.length_range]

theorem readBytes_writeLine (m : Memory) (line : Nat) {l : List Byte} (p : Bool) (h : l.length = 64) :
    (m.writeLine line l p).readBytes (64 * line) 64 = l := by
  have hbytes := readBytes_writeBytes m (64 * line) l
  rw [h] at hbytes
  have htake : l.take 64 = l := List.take_of_length_le (by omega)
  unfold Memory.writeLine
  rw [htake]
  exact hbytes

theorem writeLine_poisoned (m : Memory) (line : Nat) (l : List Byte) : line ∈ (m.writeLine line l true).poisoned := by
  unfold Memory.writeLine
  dsimp only
  rw [if_pos rfl]
  split
  · next h => exact List.contains_iff_mem.1 h
  · simp

/-- The engine with a read-modify-write's line written poisoned, and its request gone. -/
def mergedPoisoned (s : State) (line : Nat) (r : DramReq) : State :=
  (s.modChanD (chanOf (64 * line)) fun d => { d with queue := d.queue.filter (fun x => x.id != r.id), rowTimeouts := 0 }).modMem
    fun m => m.writeLine line (mergeLine (m.readBytes (64 * line) 64) r.off r.data) true

theorem poisonMerge_found {s : State} {line : Nat} {r : DramReq}
    (h : (s.chan (chanOf (64 * line))).queue.find? (fun r => r.line == line && r.merges) = some r) : poisonMerge s line =
      clientLoss (mergedPoisoned s line r) r.client (64 * line) { one := [], two := [], bad := [0], poison := 0, residual := [] } := by
  unfold poisonMerge
  rw [h]
  rfl

theorem mergedPoisoned_facts (s : State) (line : Nat) (r : DramReq) : line ∈ (mergedPoisoned s line r).mem.poisoned ∧
    (mergedPoisoned s line r).mem.readBytes (64 * line) 64 = mergeLine (s.mem.readBytes (64 * line) 64) r.off r.data ∧
    s.changesOnly [.mem] (mergedPoisoned s line r) := by
  refine ⟨writeLine_poisoned _ _ _, ?_, changesOnly_trans (modChanD_changesOnly s _ _) (modMem_changesOnly _ _)⟩
  refine (readBytes_writeLine _ _ _ (mergeLine_length _ _ _ (readBytes_length _ _ _))).trans ?_
  rw [readBytes_of_readByte (modChanD_readByte _ _ _)]

/-! ## The Burnisher (R447) -/

/-- The Burnisher past a line. -/
def burnPast (s : State) (line : Nat) : State :=
  s.modMem fun m =>
    match nextLine m (line + 1) with
    | some n => { m with burnLine := n, burnRunning := true }
    | none => { m with burnLine := (nextLine m 0).getD 0, burnRunning := false, burnPasses := min 255 (m.burnPasses + 1) }

theorem burnPast_facts (s : State) (line : Nat) : (burnPast s line).mem.readByte = s.mem.readByte ∧
    (∀ c, (burnPast s line).chan c = s.chan c) ∧ s.changesOnly [.mem] (burnPast s line) ∧
    (match nextLine s.mem (line + 1) with
      | some m => (burnPast s line).mem.burnLine = m ∧ (burnPast s line).mem.burnRunning = true ∧ (burnPast s line).mem.burnPasses = s.mem.burnPasses
      | none => (burnPast s line).mem.burnLine = (nextLine s.mem 0).getD 0 ∧ (burnPast s line).mem.burnRunning = false ∧
          (burnPast s line).mem.burnPasses = min 255 (s.mem.burnPasses + 1)) := by
  have hmem : (burnPast s line).mem = match nextLine s.mem (line + 1) with
      | some n => { s.mem with burnLine := n, burnRunning := true }
      | none => { s.mem with burnLine := (nextLine s.mem 0).getD 0, burnRunning := false, burnPasses := min 255 (s.mem.burnPasses + 1) } := rfl
  have hother : s.changesOnly [.mem] (burnPast s line) := modMem_changesOnly s _
  unfold State.chan
  rw [hmem]
  cases nextLine s.mem (line + 1) with
  | none => exact ⟨rfl, fun _ => rfl, hother, rfl, rfl, rfl⟩
  | some n => exact ⟨rfl, fun _ => rfl, hother, rfl, rfl, rfl⟩

/-- The Burnisher's read of its next line, by what it finds. -/
def burnFound (s : State) (line : Nat) (l : List Nat) : State :=
  match readOf s.mem (battenAt s.mem (64 * line)) line l with
  | .clean => s
  | .corrected => queueWriteBack (noteCorrected s line (battenAt s.mem (64 * line)) (checkLine (battenAt s.mem (64 * line)) l) true) line
      (flipBits (s.mem.readBytes (64 * line) 64) (checkLine (battenAt s.mem (64 * line)) l).residual) .burnisher
  | .uncorrectable => ((s.dramErr (64 * line + (if battenAt s.mem (64 * line) then 4 else 8) * (checkLine (battenAt s.mem (64 * line)) l).bad.headD 0)
      (battenAt s.mem (64 * line)) (kBad + kBurnish)).log .device 0x0301 0xFF (paDetail (64 * line))).dramWrite line 0
        (s.mem.readBytes (64 * line) 64) true 4 .burnisher
  | .poisoned => (s.dramErr (64 * line) (battenAt s.mem (64 * line)) (kPoison + kBurnish)).log .device 0x0301 0xFF (paDetail (64 * line))

theorem exec_burnisherRead {s : State} {n : Nat} (hnext : nextLine s.mem s.mem.burnLine = some n) (h0 : s.mgmt.trained0 = true)
    (h1 : s.mgmt.trained1 = true) (hgoes : burnPaused s n = false) (l : List Nat) :
    exec (.burnisherRead l) s = .next (burnPast (burnFound s n l) n) := by
  change execBurnisherRead l s = _
  unfold execBurnisherRead
  rw [hnext]
  exact (if_neg (by simp [h0, h1, hgoes])).trans rfl

theorem exec_burnisherRead_paused {s : State} {n : Nat} (hnext : nextLine s.mem s.mem.burnLine = some n) (hpaused : burnPaused s n = true)
    (l : List Nat) : exec (.burnisherRead l) s = .next s := by
  change execBurnisherRead l s = _
  unfold execBurnisherRead
  rw [hnext]
  exact if_pos (.inr (.inr hpaused))

/-! ## The next request of a channel (R439) -/

theorem foldl_min_le (l : List Nat) (a : Nat) : l.foldl min a ≤ a ∧ ∀ x ∈ l, l.foldl min a ≤ x := by
  induction l generalizing a with
  | nil => simp
  | cons y l ih =>
    obtain ⟨hstart, hall⟩ := ih (min a y)
    refine ⟨hstart.trans (Nat.min_le_left a y), fun x hx => ?_⟩
    rcases List.mem_cons.1 hx with rfl | hx
    · exact hstart.trans (Nat.min_le_right a x)
    · exact hall x hx

/-- A picked request is unblocked, of the kind of the batch or urgent, and of the highest class among these. -/
theorem pick_spec {cfg : Nat} {d : DramChan} {r : DramReq} (h : d.pick cfg = some r) :
    r ∈ (unblocked [] d.queue).filter (fun r => decide (r.cls ≤ 1) || (r.write == (d.batch || !d.queue.any (fun r => !r.write)))) ∧
    r.cls = (((unblocked [] d.queue).filter
      (fun r => decide (r.cls ≤ 1) || (r.write == (d.batch || !d.queue.any (fun r => !r.write))))).map (·.cls)).foldl min 9 := by
  unfold DramChan.pick at h
  dsimp only at h
  generalize (unblocked [] d.queue).filter (fun r => decide (r.cls ≤ 1) || (r.write == (d.batch || !d.queue.any (fun r => !r.write)))) = may at h ⊢
  generalize (may.map (·.cls)).foldl min 9 = best at h ⊢
  have htop (x : DramReq) (hx : x ∈ may.filter (fun r => decide (r.cls = best))) : x ∈ may ∧ x.cls = best := by
    simpa using hx
  generalize may.filter (fun r => decide (r.cls = best)) = top at h htop
  have hkind (x : DramReq) (hx : x ∈ if top.any (fun r => !r.write) then top.filter (fun r => !r.write) else top) : x ∈ may ∧ x.cls = best := by
    split at hx
    · exact htop x (List.mem_of_mem_filter hx)
    · exact htop x hx
  generalize (if top.any (fun r => !r.write) then top.filter (fun r => !r.write) else top) = kind at h hkind
  split at h
  · next x y hx hy =>
    cases h
    split
    · exact hkind y (List.mem_of_find?_eq_some hy)
    · exact hkind x (List.mem_of_head? hx)
  · exact hkind r (List.mem_of_head? h)

theorem pick_unblocked {cfg : Nat} {d : DramChan} {r : DramReq} (h : d.pick cfg = some r) : r ∈ unblocked [] d.queue :=
  List.mem_of_mem_filter (pick_spec h).1

theorem pick_urgent {cfg : Nat} {d : DramChan} {r : DramReq} (h : d.pick cfg = some r) {x : DramReq} (hx : x ∈ unblocked [] d.queue)
    (hurgent : x.cls ≤ 1) : r.cls ≤ x.cls := by
  rw [(pick_spec h).2]
  exact (foldl_min_le _ 9).2 _ (List.mem_map_of_mem (List.mem_filter.2 ⟨hx, by simp [hurgent]⟩))

theorem pick_write {cfg : Nat} {d : DramChan} {r : DramReq} (h : d.pick cfg = some r) (hbatch : d.batch = false)
    (hread : ∃ x ∈ d.queue, x.write = false) (hwrite : r.write = true) : r.cls ≤ 1 := by
  have hany : d.queue.any (fun r => !r.write) = true := by simpa using hread
  have hmay := (List.mem_filter.1 (pick_spec h).1).2
  simpa [hbatch, hany, hwrite] using hmay

/-! ## Reads that fail, and the refresh -/

theorem exec_dramCorrectedError {k : Client} {a : Nat} {l : List Nat} {s : State} (hdram : sramWord k = none) (hregion : (s.mem.regionOf a).isSome)
    (hread : readOf s.mem (battenAt s.mem a) (a / 64) l = .corrected) : exec (.dramCorrectedError k a l) s =
      .next (queueWriteBack (noteCorrected s (a / 64) (battenAt s.mem a) (checkLine (battenAt s.mem a) l) (k == .burnisher)) (a / 64)
        (flipBits (s.mem.readBytes (64 * (a / 64)) 64) (checkLine (battenAt s.mem a) l).residual) k) := by
  have hfound : (s.mem.regionOf a).isNone = false := by simpa using hregion
  change execDramCorrectedError k a l s = _
  unfold execDramCorrectedError
  rw [hdram]
  exact (if_neg (by simp [hfound, hread])).trans rfl

theorem exec_dramCorrectedError_sram {k : Client} {a w : Nat} {l : List Nat} {s : State} (hsram : sramWord k = some w) :
    ∃ t, exec (.dramCorrectedError k a l) s = .next t ∧ s.changesOnly [.logs, .events] t := by
  refine ⟨match sramVerdict l with | .fixed e => s.errNote 2 w 3 (if e.length = 1 then kOne else kTwo) 0 | _ => s, ?_, ?_⟩
  · change execDramCorrectedError k a l s = _
    unfold execDramCorrectedError
    split
    · next v hv => cases hsram.symm.trans hv; rfl
    · next hv => cases hsram.symm.trans hv
  · split
    · exact errNote_changesOnly s _ _ _ _ _
    · exact changesOnly_refl _ s

/-- An uncorrectable read by a client of no buffer of its own. -/
theorem exec_dramUncorrectable {k : Client} {a : Nat} {l : List Nat} {s : State} (hdram : sramWord k = none) (hregion : (s.mem.regionOf a).isSome)
    (hburn : k ≠ .burnisher) (hread : readOf s.mem (battenAt s.mem a) (a / 64) l = .uncorrectable) :
    ∃ u, s.changesOnly [.logs, .events] u ∧ exec (.dramUncorrectable k a l) s =
      .next (if k == .merge then poisonMerge u (a / 64) else clientLoss u k a (checkLine (battenAt s.mem a) l)) := by
  have hfound : (s.mem.regionOf a).isNone = false := by simpa using hregion
  have hclient : (k == .burnisher) = false := by simpa using hburn
  refine ⟨(s.dramErr (64 * (a / 64) + (if battenAt s.mem a then 4 else 8) * (checkLine (battenAt s.mem a) l).bad.headD 0) (battenAt s.mem a)
    kBad).log .device 0x0301 0xFF (paDetail a), noted_changesOnly s _ _ _ _ _, ?_⟩
  change execDramUncorrectable k a l s = _
  unfold execDramUncorrectable
  rw [hdram]
  refine (if_neg (by simp [hfound, hread])).trans ?_
  dsimp only
  rw [if_neg (c := (k == .burnisher) = true ∧ readOf s.mem (battenAt s.mem a) (a / 64) l = .uncorrectable) (by simp [hclient]), hclient, hread]
  exact (rfl :)

theorem exec_dramUncorrectable_sram {k : Client} {a w : Nat} {l : List Nat} {s : State} (hsram : sramWord k = some w)
    (hbad : sramVerdict l = .bad) : exec (.dramUncorrectable k a l) s = .next (clientLoss (s.errNote 2 w 3 kBad 0) k a (checkLine false l)) := by
  change execDramUncorrectable k a l s = _
  unfold execDramUncorrectable
  rw [hsram]
  exact (congrArg Host.Outcome.next (if_pos hbad)).trans rfl


/-- A refresh that is not postponed. -/
def DramChan.refreshed (d : DramChan) : DramChan :=
  { d with refreshes := d.refreshes + d.postponed + 1, postponed := 0, hot := d.nextHot, rows := []
           zqCount := if d.zqDue then d.zqCount + 1 else d.zqCount, zqDue := false }

theorem exec_refresh {c : Fin 2} {s : State} (h : (s.chan c.val).state = .up) : exec (.refresh c) s = .next
    (if panicWaits s c.val = true ∧ (s.chan c.val).postponed < 4 then s.modChanD c fun d => { d with postponed := d.postponed + 1 }
     else s.modChanD c DramChan.refreshed) := by
  change execRefresh c s = _
  unfold execRefresh
  dsimp only
  rw [if_neg (by simp [h])]
  split <;> rfl

/-- Settles O51: a request joins its channel as it is, and stores nothing before it is issued; each event's branch says what becomes
of the channel, and what a requester does about a line that is lost is `clientLoss`. -/
theorem dramRequestsErrorsAndRefresh : Obligations.DramRequestsErrorsAndRefresh := by
  unfold Obligations.DramRequestsErrorsAndRefresh
  refine ⟨fun c i r s hfind hup hlate htries hrow => ?_, fun c i r s hfind hup hlate htries hrow => ?_, fun c i s hdown => exec_dramRequestTimeout_down hdown,
    fun c s hretrain hempty => ?_, fun c s hretrain hothers => ?_, fun c s hquick => ?_, fun c s hfull hring hmode => ?_, fun c s hretrain => ?_,
    fun k a l s hdram hregion hread hresidual hfresh => ?_, fun k a w l s hsram => exec_dramCorrectedError_sram hsram,
    fun k a l s hdram hregion hburn hmerge hread => ?_, fun k a w l s hsram hbad => ?_, fun a l r s hregion hread hfind => ?_,
    fun h a k m s hcourse j hj hhandle => stopCourse_stopped s h j hj hhandle, fun k a s hregion => ?_, fun k a s hregion => ?_,
    fun n s hnext h0 h1 hgoes hread => ?_, fun l n s hnext h0 h1 hgoes hread => ?_, fun l n s hnext hpaused => exec_burnisherRead_paused hnext hpaused l,
    fun c s hup => ?_, fun c s hup => ?_, fun c i s => ?_, fun cfg d r hpick => ?_⟩
  · refine ⟨_, exec_dramRequestTimeout hfind hup hlate htries, ?_⟩
    dsimp only
    rw [if_neg (by omega), modChanD_chan, modChanD_readByte]
    exact ⟨rfl, modChanD_others s c _, rfl, modChanD_changesOnly _ _ _⟩
  · refine ⟨_, exec_dramRequestTimeout hfind hup hlate htries, ?_⟩
    dsimp only
    rw [if_pos (by omega)]
    obtain ⟨hstate, htries, hrow, hcount, hother⟩ := startRetrain_facts (s.modChanD c (DramChan.timedOut s.now i)) c
    rw [modChanD_chan] at hcount
    exact ⟨hstate, htries, hrow, hcount, changesOnly_trans (changesOnly_mono (modChanD_changesOnly _ _ _) (by simp)) hother⟩
  · refine ⟨_, exec_dramRetrainDone_ok hretrain, ?_⟩
    dsimp only
    have hring : (s.modChanD c (DramChan.retrained s.now)).ring = s.ring := modChanD_changesOnly s c _ .ring (by simp)
    rw [drainIngest_empty (by rw [hring]; exact hempty), modChanD_chan]
    exact ⟨rfl, rfl, rfl, by simp [DramChan.retrained], modChanD_others s c _, modChanD_changesOnly _ _ _⟩
  · refine ⟨_, exec_dramRetrainDone_ok hretrain, ?_⟩
    dsimp only
    have hidle (k : Nat) (hk : k < 2) : ((s.modChanD c (DramChan.retrained s.now)).chan k).retraining = false := by
      by_cases hkc : k = c.val
      · rw [hkc, modChanD_chan]
        rfl
      · rw [modChanD_others s c _ k hk hkc]
        exact hothers k hk hkc
    have hdrained := drainIngest_backlog (hidle 0 (by omega)) (hidle 1 (by omega))
    refine ⟨?_, (congrArg Prod.snd hdrained :)⟩
    rw [chan_of_mem (congrArg Prod.fst hdrained :), modChanD_chan]
    rfl
  · refine ⟨_, exec_dramRetrainDone_quick hquick, ?_⟩
    dsimp only
    by_cases htries : (s.chan c.val).quickTries < 2
    · rw [if_pos htries, if_pos htries, log_chan, modChanD_chan]
      exact ⟨hquick, rfl, changesOnly_trans (changesOnly_mono (modChanD_changesOnly _ _ _) (by simp)) (changesOnly_mono (log_changesOnly _ _ _ _ _) (by simp))⟩
    · rw [if_neg htries, if_neg htries, log_chan, modChanD_chan]
      exact ⟨rfl, rfl, changesOnly_trans (changesOnly_mono (modChanD_changesOnly _ _ _) (by simp)) (changesOnly_mono (log_changesOnly _ _ _ _ _) (by simp))⟩
  · refine ⟨_, exec_dramRetrainDone_full hfull, ?_⟩
    dsimp only
    have hother : s.changesOnly [.mem, .logs, .events] ((s.modChanD c fun d => { d with state := .failed }).log .device 0x0304 0xFF c) :=
      changesOnly_trans (changesOnly_mono (modChanD_changesOnly _ _ _) (by simp)) (changesOnly_mono (log_changesOnly _ _ _ _ _) (by simp))
    have hsame := hother .mode (by simp)
    obtain ⟨hsafe, o, hmgmt⟩ := beginSelfReset_onRing (hsame.symm ▸ hring) (hsame.symm ▸ hmode)
    refine ⟨hsafe, ?_, ?_⟩
    · rw [hmgmt]
      exact congrArg (fun a : Aon => some a.stitch.toNat) (hother .aon (by simp))
    · rw [chan_of_mem (beginSelfReset_mem (hsame.symm ▸ hring) (hsame.symm ▸ hmode)), log_chan, modChanD_chan]
  · change execDramRetrainDone c true s = _
    exact if_pos hretrain
  · refine ⟨_, exec_dramCorrectedError hdram hregion hread, ?_⟩
    dsimp only
    have hnotes := noteCorrected_notesOnly s (a / 64) (battenAt s.mem a) (checkLine (battenAt s.mem a) l) (k == .burnisher)
    rw [hresidual]
    generalize noteCorrected s (a / 64) (battenAt s.mem a) (checkLine (battenAt s.mem a) l) (k == .burnisher) = u at hnotes ⊢
    have hqueue : queueWriteBack u (a / 64) (flipBits (s.mem.readBytes (64 * (a / 64)) 64) []) k =
        u.dramWrite (a / 64) 0 (s.mem.readBytes (64 * (a / 64)) 64) false 4 k := by
      refine if_neg ?_
      rw [hnotes.queue _ (chanOf_lt _)]
      simpa using hfresh
    obtain ⟨hbytes, hpoisoned, hother, x, hx, hline, hwrite, hcls, hoff, hdata, hpoison, hclient⟩ :=
      dramWrite_facts u (a / 64) 0 (s.mem.readBytes (64 * (a / 64)) 64) false 4 k
    rw [hqueue]
    exact ⟨fun n => by rw [hbytes, hnotes.bytes], by rw [hpoisoned, hnotes.poisoned], ⟨x, hx, hline, hwrite, hcls, hoff, hdata, hpoison, hclient⟩,
      changesOnly_trans hnotes.other (changesOnly_mono hother (by simp))⟩
  · obtain ⟨u, hu, hexec⟩ := exec_dramUncorrectable hdram hregion hburn hread
    exact ⟨_, hexec, u, if_neg (by simpa using hmerge), hu⟩
  · exact ⟨_, exec_dramUncorrectable_sram hsram hbad, _, rfl, errNote_changesOnly s _ _ _ _ _⟩
  · obtain ⟨u, hu, hexec⟩ := exec_dramUncorrectable (k := .merge) rfl hregion (by simp) hread
    have hmem : u.mem = s.mem := hu .mem (by simp)
    obtain ⟨hpoisoned, hbytes, hother⟩ := mergedPoisoned_facts u (a / 64) r
    refine ⟨_, hexec, mergedPoisoned u (a / 64) r, _, poisonMerge_found (by rw [chan_of_mem hmem]; exact hfind), hpoisoned, by rw [hbytes, hmem],
      changesOnly_trans (changesOnly_mono hu (by simp)) (changesOnly_mono hother (by simp))⟩
  · refine ⟨s.log .device 0x0305 0xFF (paDetail a), ?_, log_changesOnly _ _ _ _ _⟩
    change execDramUnmapped k a s = _
    unfold execDramUnmapped
    rw [hregion]
  · obtain ⟨x, hx⟩ := Option.isSome_iff_exists.1 hregion
    change execDramUnmapped k a s = _
    unfold execDramUnmapped
    rw [hx]
  · have hfound : burnFound s n [] = s := by
      unfold burnFound
      rw [hread]
    obtain ⟨hbytes, hchan, hother, hplace⟩ := burnPast_facts s n
    refine ⟨_, exec_burnisherRead hnext h0 h1 hgoes [], ?_⟩
    dsimp only
    rw [hfound]
    exact ⟨hplace, hbytes, hother⟩
  · refine ⟨_, exec_burnisherRead hnext h0 h1 hgoes l, ?_⟩
    dsimp only
    have hfound : ∃ u, s.changesOnly [.logs, .events] u ∧ burnFound s n l = u.dramWrite n 0 (s.mem.readBytes (64 * n) 64) true 4 .burnisher := by
      unfold burnFound
      rw [hread]
      exact ⟨_, noted_changesOnly s _ _ _ _ _, rfl⟩
    obtain ⟨u, hu, hfound⟩ := hfound
    have hmem : u.mem = s.mem := hu .mem (by simp)
    obtain ⟨hbytes, hpoisoned, hother, x, hx, hline, hwrite, hcls, hoff, hdata, hpoison, hclient⟩ :=
      dramWrite_facts u n 0 (s.mem.readBytes (64 * n) 64) true 4 .burnisher
    obtain ⟨hpast, hchan, hkeeps, hplace⟩ := burnPast_facts (u.dramWrite n 0 (s.mem.readBytes (64 * n) 64) true 4 .burnisher) n
    rw [hfound, hchan]
    exact ⟨⟨x, hx, hline, hwrite, hcls, hoff, hdata, hpoison⟩, fun b => by rw [hpast, hbytes, hmem],
      changesOnly_trans (changesOnly_mono hu (by simp)) (changesOnly_mono (changesOnly_trans hother hkeeps) (by simp))⟩
  · refine ⟨_, exec_refresh hup, ?_⟩
    dsimp only
    by_cases hwaits : panicWaits s c.val = true ∧ (s.chan c.val).postponed < 4
    · rw [if_pos hwaits, if_pos hwaits, modChanD_chan]
      exact ⟨⟨rfl, rfl⟩, modChanD_changesOnly _ _ _⟩
    · rw [if_neg hwaits, if_neg hwaits, modChanD_chan]
      exact ⟨⟨rfl, rfl, rfl, rfl⟩, modChanD_changesOnly _ _ _⟩
  · refine ⟨s.modChanD c fun d => { d with zqDue := true }, ?_, modChanD_chan _ _ _, modChanD_others s c _, modChanD_changesOnly _ _ _⟩
    change execZqCalibration c s = _
    exact if_pos hup
  · exact ⟨_, rfl, congrArg DramChan.queue (modChanD_chan _ _ _), modChanD_others s c _, modChanD_changesOnly _ _ _⟩
  · exact ⟨pick_unblocked hpick, fun x hx hurgent => pick_urgent hpick hx hurgent, fun hbatch hread hwrite => pick_write hpick hbatch hread hwrite⟩

end Sys2Proof.Proofs
end

section
/-! SUPPORT. Caches: maintenance by set and way, walks, restarts and errors (R450 to R456); settles O52. -/

namespace Sys2Proof.Proofs

open Sys2Proof Sys2Proof.Machine Sys2Proof.Laws

/-! ## Caches and what changes one of them -/

theorem cache_of_mem {s t : State} (h : t.mem = s.mem) (k : Cache) : t.cache k = s.cache k := by
  cases k <;> rw [State.cache, h, State.cache]

theorem modCache_cache_other (s : State) {j k : Cache} (h : j ≠ k) (f : CacheState → CacheState) : (s.modCache k f).cache j = s.cache j := by
  have hbit (c : Fin 2) : c = 0 ∨ c = 1 := by omega
  unfold State.modCache State.cache State.modMem
  cases k with
  | l1i c =>
    rcases hbit c with rfl | rfl <;> cases j with
    | l1i d => rcases hbit d with rfl | rfl <;> simp at h ⊢
    | l1d d | l2 => rfl
  | l1d c =>
    rcases hbit c with rfl | rfl <;> cases j with
    | l1d d => rcases hbit d with rfl | rfl <;> simp at h ⊢
    | l1i d | l2 => rfl
  | l2 =>
    cases j with
    | l1i d | l1d d => rfl
    | l2 => exact absurd rfl h

theorem modChanD_cache (s : State) (c : Nat) (f : DramChan → DramChan) (k : Cache) : (s.modChanD c f).cache k = s.cache k := by
  unfold State.modChanD
  split <;> cases k <;> rfl

theorem toDram_cache (s : State) (l : CacheLine) (k : Cache) : (s.toDram l).cache k = s.cache k := modChanD_cache s _ _ k

theorem modCache_poisoned (s : State) (k : Cache) (f : CacheState → CacheState) : (s.modCache k f).mem.poisoned = s.mem.poisoned := by
  unfold State.modCache
  cases k with
  | l1i c | l1d c => dsimp only; split <;> rfl
  | l2 => rfl

/-! ## Lines move

What every movement of lines keeps of the caches: the poisoned lines of DRAM, the marks of each cache, and that an empty cache is empty. -/

/-- The marks of a cache that only its own events set. -/
def CacheMarks (c : CacheState) : Bool × Bool × Nat := (c.walking, c.invDone, c.fatal)

structure LinesMove (s t : State) : Prop where
  poisoned : t.mem.poisoned = s.mem.poisoned
  marks : ∀ j, CacheMarks (t.cache j) = CacheMarks (s.cache j)
  empty : ∀ j, (s.cache j).lines = [] → (t.cache j).lines = []

theorem LinesMove.refl (s : State) : LinesMove s s := ⟨rfl, fun _ => rfl, fun _ => id⟩

theorem LinesMove.trans {s t u : State} (h : LinesMove s t) (g : LinesMove t u) : LinesMove s u :=
  ⟨g.poisoned.trans h.poisoned, fun j => (g.marks j).trans (h.marks j), fun j hj => g.empty j (h.empty j hj)⟩

theorem linesMove_ite {s t u : State} {p : Prop} [Decidable p] (h : LinesMove s t) (g : LinesMove s u) : LinesMove s (if p then t else u) := by
  split
  · exact h
  · exact g

theorem linesMove_foldl {α : Type} (f : State → α → State) (h : ∀ (s : State) (a : α), LinesMove s (f s a)) (l : List α) (s : State) :
    LinesMove s (l.foldl f s) :=
  List.foldlRecOn l f (.refl s) fun _ ht a _ => ht.trans (h _ a)

/-- An update of a cache that keeps its marks, and leaves it empty if it is. -/
theorem modCache_linesMove {s : State} {k : Cache} {f : CacheState → CacheState} (hmarks : CacheMarks (f (s.cache k)) = CacheMarks (s.cache k))
    (hempty : (s.cache k).lines = [] → (f (s.cache k)).lines = []) : LinesMove s (s.modCache k f) := by
  refine ⟨modCache_poisoned s k f, fun j => ?_, fun j hj => ?_⟩
  · by_cases h : j = k
    · rw [h, modCache_cache, hmarks]
    · rw [modCache_cache_other s h]
  · by_cases h : j = k
    · subst h
      rw [modCache_cache]
      exact hempty hj
    · rwa [modCache_cache_other s h]

theorem toDram_linesMove (s : State) (l : CacheLine) : LinesMove s (s.toDram l) :=
  ⟨modChanD_poisoned s _ _, fun j => by rw [toDram_cache], fun j => by rw [toDram_cache]; exact id⟩

theorem lines_ne_of_held {c : CacheState} {line : Nat} {e : Nat × CacheLine} (h : (c.held line).head? = some e) : c.lines ≠ [] := by
  intro hnil
  rw [CacheState.held, hnil] at h
  cases h

theorem toL2_linesMove (s : State) (l : CacheLine) : LinesMove s (s.toL2 l) := by
  unfold State.toL2
  split
  · next hheld => exact modCache_linesMove rfl fun hnil => absurd hnil (lines_ne_of_held hheld)
  · exact toDram_linesMove s l

theorem dropWay_linesMove (s : State) (k : Cache) (i : Nat) : LinesMove s (dropWay s k i) :=
  modCache_linesMove rfl fun h => by
    rw [CacheState.put, h]
    rfl

theorem cleanWay_linesMove (s : State) (k : Cache) (i : Nat) : LinesMove s (cleanWay s k i) := by
  unfold cleanWay
  split
  · exact .refl s
  next l hl =>
    refine linesMove_ite (.refl s) ?_
    have hclean : LinesMove s (s.modCache k fun c => c.put i (some { l with dirty := false })) :=
      modCache_linesMove rfl fun h => by rw [h] at hl; cases hl
    cases k with
    | l1i c => exact hclean
    | l1d c => exact hclean.trans (toL2_linesMove _ l)
    | l2 => exact hclean.trans (toDram_linesMove _ l)

theorem maintLine_linesMove (o : MaintOp) (k : Cache) (line : Nat) (s : State) : LinesMove s (maintLine o k line s) := by
  have hclean (l : List Nat) (u : State) : LinesMove u (l.foldl (fun a i => cleanWay a k i) u) :=
    linesMove_foldl _ (fun v i => cleanWay_linesMove v k i) l u
  have hdrop (l : List Nat) (u : State) : LinesMove u (l.foldl (fun a i => dropWay a k i) u) :=
    linesMove_foldl _ (fun v i => dropWay_linesMove v k i) l u
  have hcleaned (l : List Nat) : LinesMove s (if o.clean then l.foldl (fun a i => cleanWay a k i) s else s) :=
    linesMove_ite (hclean l s) (.refl s)
  exact linesMove_ite (.refl s) (linesMove_ite ((hcleaned _).trans (hdrop _ _)) (hcleaned _))

theorem maintLines_linesMove (o : MaintOp) (line : Nat) (l : List Cache) (s : State) : LinesMove s (l.foldl (fun a k => maintLine o k line a) s) :=
  linesMove_foldl _ (fun u k => maintLine_linesMove o k line u) l s

theorem maintL2_linesMove (o : MaintOp) (line : Nat) (s : State) : LinesMove s (maintL2 o line s) :=
  linesMove_ite (.refl s) ((maintLines_linesMove _ line l1ds s).trans (maintLine_linesMove _ _ _ _))

theorem maintPa_linesMove (o : MaintOp) (n line : Nat) (s : State) : LinesMove s (maintPa o n line s) := by
  unfold maintPa
  split
  · exact (maintLines_linesMove o line _ s).trans (maintL2_linesMove _ _ _)
  · exact maintLines_linesMove o line _ s
  · exact maintLines_linesMove o line _ s
  · exact maintL2_linesMove _ _ _

theorem maintAsk_linesMove (r : MaintReq) (s : State) : LinesMove s (maintAsk r s) := by
  unfold maintAsk
  split
  · exact maintPa_linesMove _ _ _ s
  · exact linesMove_ite (modCache_linesMove rfl id) ⟨rfl, fun j => by cases j <;> rfl, fun j h => by cases j <;> exact h⟩

theorem releaseMaint_linesMove (s : State) : LinesMove s (releaseMaint s) := by
  have hstalled : LinesMove s (s.modMem fun m => { m with stalled := [] }) := ⟨rfl, fun j => by cases j <;> rfl, fun j h => by cases j <;> exact h⟩
  unfold releaseMaint
  exact (hstalled.trans (linesMove_foldl _ (fun u k => modCache_linesMove (k := k) rfl id) _ _)).trans
    (linesMove_foldl _ (fun u r => maintAsk_linesMove r u) _ _)

/-- A walk leaves its cache empty. -/
theorem walkCache_linesMove (s : State) (k : Cache) : LinesMove s (walkCache s k) := by
  unfold walkCache
  exact (linesMove_foldl _ (fun u (e : Nat × CacheLine) => cleanWay_linesMove u k e.1) _ s).trans (modCache_linesMove rfl fun _ => rfl)

theorem walkCache_lines (s : State) (k : Cache) : ((walkCache s k).cache k).lines = [] := by
  unfold walkCache
  rw [modCache_cache]

/-! ## Maintenance by set and way (R453) -/

/-- CM_CMD by set and way: a set or a way that the named cache does not have. -/
theorem maint_outside {o : MaintOp} {c : Fin 2} {w : Word} {s : State} {k : Cache} (hway : w.toNat.testBit 6 = true)
    (hnamed : namedCaches c (bitsOf w.toNat 5 4) = [k]) (hout : cacheSets k ≤ bitsOf w.toNat 27 16 ∨ cacheWays k ≤ bitsOf w.toNat 31 28) :
    maint o c w s = setErr s k := by
  unfold maint
  dsimp only
  rw [if_pos hway, hnamed]
  exact if_pos hout

/-- The L1Ds' copies of a line dropped, with the line of a way of the L2. -/
def dropCopies (line : Option Nat) (s : State) : State :=
  match line with
  | some n => l1ds.foldl (fun a k => maintLine { clean := false, inval := true } k n a) s
  | none => s

theorem maintLine_drop (k : Cache) (n : Nat) (s : State) : ∃ l : List Nat, maintLine { clean := false, inval := true } k n s = l.foldl (fun a i => dropWay a k i) s := by
  unfold maintLine
  split
  · exact ⟨[], rfl⟩
  · exact ⟨_, rfl⟩

theorem maintLine_disabled {k : Cache} {s : State} (h : (s.cache k).en = false) (o : MaintOp) (n : Nat) : maintLine o k n s = s := if_pos h

theorem foldl_dropWay_other {k j : Cache} (h : j ≠ k) (l : List Nat) (s : State) : (l.foldl (fun a i => dropWay a k i) s).cache j = s.cache j := by
  induction l generalizing s with
  | nil => rfl
  | cons i l ih => exact (ih _).trans (modCache_cache_other s h _)

theorem dropCopies_l2 (line : Option Nat) (s : State) : (dropCopies line s).cache .l2 = s.cache .l2 := by
  have hone (k : Cache) (hk : Cache.l2 ≠ k) (n : Nat) (u : State) : (maintLine { clean := false, inval := true } k n u).cache .l2 = u.cache .l2 := by
    obtain ⟨l, hl⟩ := maintLine_drop k n u
    rw [hl, foldl_dropWay_other hk]
  cases line with
  | none => rfl
  | some n => exact (hone (.l1d 1) (by simp) n _).trans (hone (.l1d 0) (by simp) n s)

theorem dropCopies_disabled {s : State} (h0 : (s.cache (.l1d 0)).en = false) (h1 : (s.cache (.l1d 1)).en = false) (line : Option Nat) :
    dropCopies line s = s := by
  cases line with
  | none => rfl
  | some n =>
    change maintLine _ (.l1d 1) n (maintLine _ (.l1d 0) n s) = s
    rw [maintLine_disabled h0, maintLine_disabled h1]

section
variable {c : Fin 2} {w : Word} {s : State} (hway : w.toNat.testBit 6 = true) (htarget : bitsOf w.toNat 5 4 = 3)
  (hen : s.mem.l2.en = true) (hfit : bitsOf w.toNat 31 28 < 16) (hset : bitsOf w.toNat 27 16 < 4096)
include hway htarget hen hfit hset

/-- CLEAN of a way of the L2. -/
theorem maint_l2_clean : maint { clean := true, inval := false } c w s =
    cleanWay s .l2 (bitsOf w.toNat 27 16 * 16 + bitsOf w.toNat 31 28) := by
  unfold maint
  dsimp only
  rw [if_pos hway, htarget]
  refine (if_neg (not_or.2 ⟨Nat.not_le.2 hset, Nat.not_le.2 hfit⟩)).trans ((if_neg ?_).trans (if_pos rfl))
  exact Bool.not_eq_false _ ▸ hen

/-- INVALIDATE of a way of the L2, cleaned first or not. -/
theorem maint_l2_inval (b : Bool) : maint { clean := b, inval := true } c w s =
    dropCopies ((Tbl.get none s.mem.l2.lines (bitsOf w.toNat 27 16 * 16 + bitsOf w.toNat 31 28)).map (·.line))
      (dropWay (if b then cleanWay s .l2 (bitsOf w.toNat 27 16 * 16 + bitsOf w.toNat 31 28) else s) .l2
        (bitsOf w.toNat 27 16 * 16 + bitsOf w.toNat 31 28)) := by
  unfold maint
  dsimp only
  rw [if_pos hway, htarget]
  refine (if_neg (not_or.2 ⟨Nat.not_le.2 hset, Nat.not_le.2 hfit⟩)).trans ((if_neg ?_).trans ((if_neg (by simp)).trans ?_))
  · exact Bool.not_eq_false _ ▸ hen
  · change (match Cache.l2, (match Tbl.get none s.mem.l2.lines (bitsOf w.toNat 27 16 * 16 + bitsOf w.toNat 31 28) with
      | some l => some l.line | none => none) with | .l2, some n => _ | _, _ => _) = _
    cases Tbl.get none s.mem.l2.lines (bitsOf w.toNat 27 16 * 16 + bitsOf w.toNat 31 28) <;> rfl

end

/-- A dirty way of the L2 cleaned: the line stays, and its data is on its way to DRAM. -/
theorem cleanWay_l2 {s : State} {i : Nat} {l : CacheLine} (hline : Tbl.get none s.mem.l2.lines i = some l) (hdirty : l.dirty = true) :
    cleanWay s .l2 i = (s.modCache .l2 fun c => c.put i (some { l with dirty := false })).toDram l := by
  unfold cleanWay
  change (match Tbl.get none s.mem.l2.lines i with | none => s | some l => _) = _
  rw [hline]
  exact if_neg (by simp [hdirty])

theorem cleanWay_readByte (s : State) (k : Cache) (i : Nat) : (cleanWay s k i).mem.readByte = s.mem.readByte := by
  have hcells : (cleanWay s k i).mem.cells = s.mem.cells := (standing_eq_iff.1 (cleanWay_standing s k i)).2.2
  funext n
  rw [Memory.readByte, hcells, Memory.readByte]

/-! ## What maintenance moves -/

theorem setErr_linesMove (s : State) (k : Cache) : LinesMove s (setErr s k) := modCache_linesMove rfl id

theorem dropCopies_moves (line : Option Nat) (s : State) : CachesMove s (dropCopies line s) ∧ LinesMove s (dropCopies line s) := by
  cases line with
  | none => exact ⟨cachesMove_refl s, .refl s⟩
  | some n => exact ⟨maintLines_cachesMove s _ _ _, maintLines_linesMove _ _ _ s⟩

/-- Maintenance by CM_CMD moves lines, and changes no part of the engine but the memory system. -/
theorem maint_moves (o : MaintOp) (c : Fin 2) (w : Word) (s : State) : CachesMove s (maint o c w s) ∧ LinesMove s (maint o c w s) := by
  unfold maint
  dsimp only
  split
  · split
    · next k hk =>
      split
      · exact ⟨modCache_cachesMove s k _, setErr_linesMove s k⟩
      split
      · exact ⟨cachesMove_refl s, .refl s⟩
      have hcleaned : CachesMove s (if o.clean then cleanWay s k (cacheAt k (bitsOf w.toNat 27 16) (bitsOf w.toNat 31 28)) else s) ∧
          LinesMove s (if o.clean then cleanWay s k (cacheAt k (bitsOf w.toNat 27 16) (bitsOf w.toNat 31 28)) else s) :=
        ⟨cachesMove_ite (cleanWay_cachesMove s k _) (cachesMove_refl s), linesMove_ite (cleanWay_linesMove s k _) (.refl s)⟩
      split
      · exact hcleaned
      have hdropped (u : State) (i : Nat) (h : CachesMove s u ∧ LinesMove s u) : CachesMove s (dropWay u k i) ∧ LinesMove s (dropWay u k i) :=
        ⟨cachesMove_trans h.1 (dropWay_cachesMove u k i), h.2.trans (dropWay_linesMove u k i)⟩
      split
      · exact ⟨cachesMove_trans (hdropped _ _ hcleaned).1 (maintLines_cachesMove _ _ _ _),
          (hdropped _ _ hcleaned).2.trans (maintLines_linesMove _ _ _ _)⟩
      · exact hdropped _ _ hcleaned
    · exact ⟨cachesMove_foldl _ (fun u k => modCache_cachesMove u k _) _ s, linesMove_foldl _ (fun u k => setErr_linesMove u k) _ s⟩
  · exact ⟨maintAsk_cachesMove s _, maintAsk_linesMove _ s⟩

theorem setErr_cache (s : State) (k : Cache) : (setErr s k).cache k = { s.cache k with err := true } := modCache_cache s k _

theorem foldl_setErr (l : List Cache) (s : State) (j : Cache) : ((l.foldl setErr s).cache j).lines = (s.cache j).lines ∧
    (j ∈ l ∨ (s.cache j).err = true → ((l.foldl setErr s).cache j).err = true) := by
  induction l generalizing s with
  | nil => simp
  | cons k l ih =>
    obtain ⟨hlines, herr⟩ := ih (setErr s k)
    by_cases h : j = k
    · subst h
      rw [setErr_cache] at hlines herr
      exact ⟨hlines, fun _ => herr (.inr rfl)⟩
    · have hsame : (setErr s k).cache j = s.cache j := modCache_cache_other s h _
      rw [hsame] at hlines herr
      refine ⟨hlines, fun hj => herr (hj.imp_left fun hj => (List.mem_cons.1 hj).resolve_left h)⟩

theorem mem_allCaches (j : Cache) : j ∈ l1is ++ l1ds ++ [Cache.l2] := by
  have hbit (c : Fin 2) : c = 0 ∨ c = 1 := by omega
  cases j with
  | l1i c => rcases hbit c with rfl | rfl <;> decide
  | l1d c => rcases hbit c with rfl | rfl <;> decide
  | l2 => decide

theorem setErrs_changesOnly (l : List Cache) (s : State) : s.changesOnly [.mem] (l.foldl setErr s) :=
  changesOnly_foldl _ (fun u k => modCache_changesOnly u k _) l s

/-! ## A restart's caches (R456) -/

/-- A restart before it walks the L1Ds: what the cores waited for is gone, and the way whose error caused it. -/
def restartStart (s : State) (skip : Option (Cache × Nat)) : State :=
  let gone := s.modMem fun m =>
    { m with stalled := [], waiting := m.waiting.filter (fun a => match a.agent with | .hardware _ => true | .core _ => false) }
  match skip with
  | some (k, i) => dropWay gone k i
  | none => gone

/-- What follows the walks of the L1Ds. -/
def restartTail (l2err : Bool) (s : State) : State :=
  let dropped := l1is.foldl (fun a k => a.modCache k fun c => { c with lines := [] }) s
  if l2err then walkCache dropped .l2 else dropped

theorem restartCaches_eq (s : State) (l2err : Bool) (skip : Option (Cache × Nat)) :
    restartCaches s l2err skip = restartTail l2err (l1ds.foldl walkCache (restartStart s skip)) := by
  unfold restartCaches restartTail restartStart
  cases skip <;> rfl

theorem restartTail_linesMove (l2err : Bool) (s : State) : LinesMove s (restartTail l2err s) := by
  have his : LinesMove s (l1is.foldl (fun a k => a.modCache k fun c => { c with lines := [] }) s) :=
    linesMove_foldl _ (fun u k => modCache_linesMove (k := k) rfl fun _ => rfl) l1is s
  exact linesMove_ite (his.trans (walkCache_linesMove _ _)) his

theorem restartStart_linesMove (s : State) (skip : Option (Cache × Nat)) : LinesMove s (restartStart s skip) := by
  have hgone : LinesMove s (s.modMem fun m =>
      { m with stalled := [], waiting := m.waiting.filter (fun a => match a.agent with | .hardware _ => true | .core _ => false) }) :=
    ⟨rfl, fun j => by cases j <;> rfl, fun j h => by cases j <;> exact h⟩
  cases skip with
  | none => exact hgone
  | some e => exact hgone.trans (dropWay_linesMove _ e.1 e.2)

theorem restartCaches_linesMove (s : State) (l2err : Bool) (skip : Option (Cache × Nat)) : LinesMove s (restartCaches s l2err skip) := by
  rw [restartCaches_eq]
  exact ((restartStart_linesMove s skip).trans (linesMove_foldl _ walkCache_linesMove l1ds _)).trans (restartTail_linesMove l2err _)

/-- A restart empties both L1Ds. -/
theorem restartCaches_l1d (s : State) (l2err : Bool) (skip : Option (Cache × Nat)) (c : Fin 2) :
    ((restartCaches s l2err skip).cache (.l1d c)).lines = [] := by
  have hbit : c = 0 ∨ c = 1 := by omega
  have hwalked (u : State) : ((l1ds.foldl walkCache u).cache (.l1d c)).lines = [] := by
    rcases hbit with rfl | rfl
    · exact (walkCache_linesMove _ (.l1d 1)).empty _ (walkCache_lines u (.l1d 0))
    · exact walkCache_lines _ (.l1d 1)
  rw [restartCaches_eq]
  exact (restartTail_linesMove l2err _).empty _ (hwalked _)

theorem restarting_mem (s : State) (counted l2err : Bool) (skip : Option (Cache × Nat)) :
    (restarting s counted l2err skip).mem = (restartCaches s l2err skip).mem := by
  have hstops : (restartStops s l2err skip).mem = (restartCaches s l2err skip).mem := by
    unfold restartStops
    exact changesOnly_foldl (ps := [.bays]) _ (fun u b => changesOnly_ite (boundaryStop_changesOnly u b) (changesOnly_refl _ u)) allBays
      (restartCaches s l2err skip) .mem (by simp)
  simp only [restarting, hstops]

/-! ## Cache errors (R455) -/

/-- A cache with an error noted. -/
def counted (c : CacheState) : CacheState := { c with par := min 255 (c.par + 1) }

theorem cacheNote_mem (s : State) (k : Cache) (cls kind : Nat) (tag : Bool) : (cacheNote s k cls kind tag).mem = (s.modCache k counted).mem :=
  errNote_changesOnly _ _ _ _ _ _ .mem (by simp)

theorem cacheNote_cache (s : State) (k : Cache) (cls kind : Nat) (tag : Bool) : (cacheNote s k cls kind tag).cache k = counted (s.cache k) := by
  rw [cache_of_mem (cacheNote_mem s k cls kind tag), modCache_cache]

theorem cacheNote_cache_other (s : State) {j k : Cache} (h : j ≠ k) (cls kind : Nat) (tag : Bool) :
    (cacheNote s k cls kind tag).cache j = s.cache j := by
  rw [cache_of_mem (cacheNote_mem s k cls kind tag), modCache_cache_other s h]

theorem cacheNote_readByte (s : State) (k : Cache) (cls kind : Nat) (tag : Bool) : (cacheNote s k cls kind tag).mem.readByte = s.mem.readByte := by
  rw [cacheNote_mem, modCache_readByte]

theorem cacheNote_changesOnly (s : State) (k : Cache) (cls kind : Nat) (tag : Bool) :
    s.changesOnly [.mem, .logs, .events, .freeCtr] (cacheNote s k cls kind tag) :=
  changesOnly_trans (changesOnly_mono (modCache_changesOnly s k _) (by simp))
    (changesOnly_trans (changesOnly_mono (fresh_changesOnly _) (by simp)) (changesOnly_mono (errNote_changesOnly _ _ _ _ _ _) (by simp)))

/-- An error noted and then an update of its cache. -/
theorem notedUpdate_facts (s : State) (k : Cache) (cls kind : Nat) (tag : Bool) (f : CacheState → CacheState) :
    ((cacheNote s k cls kind tag).modCache k f).cache k = f (counted (s.cache k)) ∧
    (∀ j, j ≠ k → ((cacheNote s k cls kind tag).modCache k f).cache j = s.cache j) ∧
    ((cacheNote s k cls kind tag).modCache k f).mem.readByte = s.mem.readByte ∧
    s.changesOnly [.mem, .logs, .events, .freeCtr] ((cacheNote s k cls kind tag).modCache k f) := by
  refine ⟨by rw [modCache_cache, cacheNote_cache], fun j h => by rw [modCache_cache_other _ h, cacheNote_cache_other s h],
    by rw [modCache_readByte, cacheNote_readByte], ?_⟩
  exact changesOnly_trans (cacheNote_changesOnly s k cls kind tag) (changesOnly_mono (modCache_changesOnly _ k f) (by simp))

theorem exec_cacheError_outside {k : Cache} {f : CacheFault} {x y : Nat} {s : State} (h : cacheSets k ≤ x ∨ cacheWays k ≤ y) :
    exec (.cacheError k f x y) s = .next s := if_pos (.inr h)

theorem exec_cacheError_l1i {c : Fin 2} {x y : Nat} {s : State} (hpower : s.powered 1 = true) (hx : x < 128) (hy : y < 4) :
    exec (.cacheError (.l1i c) .l1iParity x y) s = .next (dropWay (cacheNote s (.l1i c) 6 kBad false) (.l1i c) (x * 4 + y)) := by
  change execCacheError (.l1i c) .l1iParity x y s = _
  unfold execCacheError
  exact if_neg (not_or.2 ⟨by simp [hpower], not_or.2 ⟨Nat.not_le.2 hx, Nat.not_le.2 hy⟩⟩)

/-- The L2's copy of a line lost in an L1D is marked as poison. -/
def poisonCopy (s : State) (l : CacheLine) : State :=
  match (s.mem.l2.held l.line).head? with
  | some (j, x) => s.modCache .l2 fun d => d.put j (some { x with poison := true })
  | none => s

theorem poisonCopy_moves (s : State) (l : CacheLine) : LinesMove s (poisonCopy s l) ∧ s.changesOnly [.mem] (poisonCopy s l) := by
  unfold poisonCopy
  split
  · next hheld => exact ⟨modCache_linesMove rfl fun hnil => absurd hnil (lines_ne_of_held hheld), modCache_changesOnly _ _ _⟩
  · exact ⟨.refl s, changesOnly_refl _ s⟩

/-- A parity error in a dirty way of an L1D restarts the management complex. -/
theorem exec_cacheError_l1d {c : Fin 2} {x y : Nat} {l : CacheLine} {s : State} (hpower : s.powered 1 = true) (hx : x < 128) (hy : y < 4)
    (hline : Tbl.get none (s.cache (.l1d c)).lines (x * 4 + y) = some l) (hdirty : l.dirty = true) :
    exec (.cacheError (.l1d c) .l1dParity x y) s = .next (mgmtRestart
      (cacheFatal (poisonCopy (cacheNote s (.l1d c) 6 kBad false) l) (.l1d c) false) true false (some (.l1d c, x * 4 + y))) := by
  change execCacheError (.l1d c) .l1dParity x y s = _
  unfold execCacheError
  refine (if_neg (not_or.2 ⟨by simp [hpower], not_or.2 ⟨Nat.not_le.2 hx, Nat.not_le.2 hy⟩⟩)).trans ?_
  have hat : cacheAt (.l1d c) x y = x * 4 + y := rfl
  dsimp only
  rw [hat, hline]
  exact (if_neg (by simp [hdirty])).trans rfl

theorem cacheFatal_cache (s : State) (k : Cache) (tag : Bool) : ((cacheFatal s k tag).cache k).fatal = min 255 ((s.cache k).fatal + 1) := by
  have hmem : (cacheFatal s k tag).mem = (s.modCache k fun c => { c with fatal := min 255 (c.fatal + 1) }).mem :=
    log_changesOnly _ _ _ _ _ .mem (by simp)
  rw [cache_of_mem hmem, modCache_cache]

theorem cacheFatal_changesOnly (s : State) (k : Cache) (tag : Bool) : s.changesOnly [.mem, .logs, .events] (cacheFatal s k tag) :=
  changesOnly_trans (changesOnly_mono (modCache_changesOnly s k _) (by simp)) (changesOnly_mono (log_changesOnly _ _ _ _ _) (by simp))

/-- One flipped bit of an L2 codeword is found. -/
theorem l2Verdict_one {n : Nat} (h : n < 72) : l2Verdict [n] = .fixed [n] := by
  have hall : ∀ m : Fin 72, l2Verdict [m.val] = .fixed [m.val] := by decide +kernel
  exact hall ⟨n, h⟩

/-- An error of the L2's data that is corrected where it stood: the way's line is written back as it was. -/
theorem exec_cacheError_l2_fixed {x y n : Nat} {w : Fin 8} {s : State} (hpower : s.powered 1 = true) (hx : x < 4096) (hy : y < 16) (hn : n < 72) :
    exec (.cacheError .l2 (.l2Data w [n]) x y) s = .next
      ((cacheNote s .l2 4 kOne false).modCache .l2 fun d => d.put (x * 16 + y) (Tbl.get none s.mem.l2.lines (x * 16 + y))) := by
  have hsame : symDiff [n].eraseDups [n] = [] := by simp [symDiff]
  have hline (o : Option CacheLine) : (o.map fun l => { l with data := flipBits l.data [] }) = o := by cases o <;> rfl
  change execCacheError .l2 (.l2Data w [n]) x y s = _
  unfold execCacheError
  refine (if_neg (not_or.2 ⟨by simp [hpower], not_or.2 ⟨Nat.not_le.2 hx, Nat.not_le.2 hy⟩⟩)).trans ?_
  dsimp only
  rw [l2Verdict_one hn]
  dsimp only
  rw [hsame, List.filter_nil, List.map_nil, hline]
  exact (rfl :)

/-- An error of the L2's data beyond correction, in a line that DRAM holds too. -/
theorem exec_cacheError_l2_bad {x y : Nat} {w : Fin 8} {e : List Nat} {l : CacheLine} {s : State} (hpower : s.powered 1 = true) (hx : x < 4096)
    (hy : y < 16) (hbad : l2Verdict e = .bad) (hline : Tbl.get none s.mem.l2.lines (x * 16 + y) = some l) (hclean : l.dirty = false) :
    exec (.cacheError .l2 (.l2Data w e) x y) s = .next (dropWay (cacheNote s .l2 4 kBad false) .l2 (x * 16 + y)) := by
  have hat : Tbl.get none (s.cache .l2).lines (cacheAt .l2 x y) = some l := hline
  change execCacheError .l2 (.l2Data w e) x y s = _
  unfold execCacheError
  refine (if_neg (not_or.2 ⟨by simp [hpower], not_or.2 ⟨Nat.not_le.2 hx, Nat.not_le.2 hy⟩⟩)).trans ?_
  dsimp only
  rw [hbad, hat]
  exact (if_neg (by simp [hclean])).trans rfl

theorem Tbl_get_set_self {β : Type} [DecidableEq β] (d : β) (t : Tbl β) (i j : Nat) : Tbl.get d (Tbl.set d t i (Tbl.get d t i)) j = Tbl.get d t j := by
  rw [Tbl_get_set]
  split
  · next h => rw [h]
  · rfl

theorem toDram_facts (s : State) (l : CacheLine) : (s.toDram l).mem.readByte = s.mem.readByte ∧ s.changesOnly [.mem] (s.toDram l) ∧
    ∃ r ∈ ((s.toDram l).chan (chanOf (64 * l.line))).queue ++ ((s.toDram l).chan (chanOf (64 * l.line))).held, r.line = l.line ∧
      r.write = true ∧ r.off = 0 ∧ r.data = l.data ∧ r.poison = l.poison ∧ r.cls = 2 ∧ r.client = .cacheWrite := by
  obtain ⟨hbytes, -, hother, r, hr, hline, hwrite, hcls, hoff, hdata, hpoison, hclient⟩ := dramWrite_facts s l.line 0 l.data l.poison 2 .cacheWrite
  exact ⟨hbytes, hother, r, hr, hline, hwrite, hoff, hdata, hpoison, hcls, hclient⟩

theorem modCache_chan (s : State) (k : Cache) (f : CacheState → CacheState) (c : Nat) : (s.modCache k f).chan c = s.chan c := by
  obtain ⟨h0, h1⟩ := modCache_chans s k f
  rw [State.chan, h0, h1, State.chan]

theorem cmWrite_powered {s : State} (h : s.powered 1 = true) (t : State) : cmWrite s t = t := if_pos h

/-- What a way of the L2 that is dirty leaves behind as it is cleaned. -/
theorem cleanWay_l2_facts {s : State} {i : Nat} {l : CacheLine} (hline : Tbl.get none s.mem.l2.lines i = some l) (hdirty : l.dirty = true) :
    (cleanWay s .l2 i).cache .l2 = s.mem.l2.put i (some { l with dirty := false }) ∧
    (∀ j, j ≠ .l2 → (cleanWay s .l2 i).cache j = s.cache j) ∧
    ∃ r ∈ ((cleanWay s .l2 i).chan (chanOf (64 * l.line))).queue ++ ((cleanWay s .l2 i).chan (chanOf (64 * l.line))).held, r.line = l.line ∧
      r.write = true ∧ r.off = 0 ∧ r.data = l.data ∧ r.poison = l.poison ∧ r.cls = 2 ∧ r.client = .cacheWrite := by
  rw [cleanWay_l2 hline hdirty]
  refine ⟨by rw [toDram_cache, modCache_cache]; rfl, fun j hj => by rw [toDram_cache, modCache_cache_other _ hj], ?_⟩
  obtain ⟨-, -, hrequest⟩ := toDram_facts (s.modCache .l2 fun c => c.put i (some { l with dirty := false })) l
  exact hrequest

theorem put_lines (d : CacheState) (i : Nat) (l : Option CacheLine) : Tbl.get none (d.put i l).lines i = l := Tbl_get_set_same _ _ _ _

/-- A counted restart, not the third in ten minutes, and what it leaves of an L1D. -/
theorem mgmtRestart_l1d {s : State} (hfw : s.mode.firmware = true) (hfew : (recentRestarts s true).length < 3) (skip : Option (Cache × Nat))
    (c : Fin 2) : (mgmtRestart s true false skip).mgmt.restarting = true ∧ (mgmtRestart s true false skip).sec.sessions = [] ∧
      ((mgmtRestart s true false skip).cache (.l1d c)).lines = [] ∧
      ((mgmtRestart s true false skip).cache (.l1d c)).fatal = (s.cache (.l1d c)).fatal ∧ (mgmtRestart s true false skip).mode = s.mode := by
  have hrestart : mgmtRestart s true false skip = restarting s true false skip := by
    rw [mgmtRestart_eq hfw, if_neg (by omega)]
  have hcache : (restarting s true false skip).cache (.l1d c) = (restartCaches s false skip).cache (.l1d c) :=
    cache_of_mem (restarting_mem s true false skip) _
  rw [hrestart, restarting_mgmt, restarting_sec, hcache]
  exact ⟨rfl, rfl, restartCaches_l1d s false skip c, congrArg (fun m => m.2.2) ((restartCaches_linesMove s false skip).marks (.l1d c)),
    restarting_changesOnly s true false skip .mode (by simp)⟩

/-- Settles O52: each operation names its way, a cleaned line is a request of its channel, and `LinesMove` says what moving lines keeps
of every other cache. -/
theorem cacheMaintenanceAndErrors : Obligations.CacheMaintenanceAndErrors := by
  unfold Obligations.CacheMaintenanceAndErrors
  refine ⟨fun c w l s hpower hway htarget hen hfit hset hline hdirty => ?_, fun c w l s hpower hway htarget hen hfit hset hline hdirty h0 h1 => ?_,
    fun c w s => ?_, fun c w s hpower hway htarget hen hfit hset => ?_, fun c w s hpower hway htarget hset => ?_,
    fun c w s hpower htarget => ?_, fun c w s hpower htarget => ?_, fun k s hwalk => ?_, fun k s hwalk => ?_,
    fun c x y s hpower hx hy => ?_, fun c x y l s hpower hfw hx hy hline hdirty hfew => ?_, fun x y n w s hpower hx hy hn => ?_,
    fun x y w e l s hpower hx hy hbad hline hclean => ?_, fun k f x y s hout => exec_cacheError_outside hout⟩
  · refine ⟨_, congrArg Host.Outcome.next (cmWrite_powered hpower _), ?_⟩
    dsimp only
    rw [maint_l2_clean hway htarget hen hfit hset]
    obtain ⟨hway, -, hrequest⟩ := cleanWay_l2_facts hline hdirty
    refine ⟨?_, hrequest, fun n => by rw [cleanWay_readByte], (cleanWay_cachesMove s _ _).only⟩
    exact (congrArg (fun d : CacheState => Tbl.get none d.lines _) hway).trans (put_lines _ _ _)
  · refine ⟨_, congrArg Host.Outcome.next (cmWrite_powered hpower _), ?_⟩
    dsimp only
    rw [maint_l2_inval hway htarget hen hfit hset, if_pos rfl]
    obtain ⟨-, hothers, hrequest⟩ := cleanWay_l2_facts hline hdirty
    rw [dropCopies_disabled]
    · refine ⟨?_, ?_, fun n => ?_, changesOnly_trans (cleanWay_cachesMove s _ _).only (modCache_changesOnly _ _ _)⟩
      · exact (congrArg (fun d : CacheState => Tbl.get none d.lines _) (modCache_cache _ .l2 _)).trans (put_lines _ _ _)
      · rw [dropWay, modCache_chan]
        exact hrequest
      · rw [dropWay, modCache_readByte, cleanWay_readByte]
    · rw [dropWay, modCache_cache_other _ (by simp), hothers _ (by simp)]
      exact h0
    · rw [dropWay, modCache_cache_other _ (by simp), hothers _ (by simp)]
      exact h1
  · obtain ⟨hmoves, hlines⟩ := maint_moves { clean := false, inval := true } c w s
    refine ⟨_, rfl, ?_⟩
    dsimp only
    unfold cmWrite
    split
    · exact ⟨(standing_eq_iff.1 (maint_standing _ c w s)).2.2, hlines.poisoned, hmoves.only⟩
    · exact ⟨rfl, rfl, changesOnly_refl _ s⟩
  · refine ⟨_, congrArg Host.Outcome.next (cmWrite_powered hpower _), ?_⟩
    dsimp only
    rw [maint_l2_inval hway htarget hen hfit hset]
    refine (congrArg (fun d : CacheState => Tbl.get none d.lines _) ((dropCopies_l2 _ _).trans (modCache_cache _ .l2 _))).trans ?_
    exact put_lines _ _ _
  · have hnamed : namedCaches c (bitsOf w.toNat 5 4) = [.l1d c] := by rw [htarget]; rfl
    have hfacts : ((setErr s (.l1d c)).cache (.l1d c)).err = true ∧ ((setErr s (.l1d c)).cache (.l1d c)).lines = (s.cache (.l1d c)).lines ∧
        (setErr s (.l1d c)).mem.readByte = s.mem.readByte ∧ s.changesOnly [.mem] (setErr s (.l1d c)) :=
      ⟨by rw [setErr_cache], by rw [setErr_cache], modCache_readByte _ _ _, modCache_changesOnly _ _ _⟩
    have hrefused (o : MaintOp) : cmWrite s (maint o c w s) = setErr s (.l1d c) := by
      rw [cmWrite_powered hpower, maint_outside hway hnamed (.inl hset)]
    intro i hi
    simp only [List.mem_cons, List.not_mem_nil, or_false] at hi
    rcases hi with rfl | rfl | rfl
    · exact ⟨_, congrArg Host.Outcome.next (hrefused _), hfacts⟩
    · exact ⟨_, congrArg Host.Outcome.next (hrefused _), hfacts⟩
    · exact ⟨_, congrArg Host.Outcome.next (hrefused _), hfacts⟩
  · have hexec : exec (.invalidateAll c w) s = .next (if s.mem.l2.en then setErr s .l2 else invalidateCache s .l2) := by
      change execInvalidateAll c w s = _
      unfold execInvalidateAll
      rw [htarget]
      exact congrArg Host.Outcome.next (cmWrite_powered hpower _)
    refine ⟨_, hexec, ?_⟩
    dsimp only
    split
    · exact ⟨setErr_cache s .l2, modCache_readByte _ _ _, modCache_changesOnly _ _ _⟩
    · exact ⟨modCache_cache s .l2 _, modCache_readByte _ _ _, modCache_changesOnly _ _ _⟩
  · have hexec : exec (.invalidateAll c w) s = .next ((l1is ++ l1ds ++ [Cache.l2]).foldl setErr s) := by
      change execInvalidateAll c w s = _
      unfold execInvalidateAll
      rw [htarget]
      exact congrArg Host.Outcome.next (cmWrite_powered hpower _)
    exact ⟨_, hexec, fun k => ⟨(foldl_setErr _ s k).2 (.inl (mem_allCaches k)), (foldl_setErr _ s k).1⟩, setErrs_changesOnly _ s⟩
  · have hexec : exec (.cacheDisableWalkDone k) s =
        .next (releaseMaint ((walkCache s k).modCache k fun x => { x with walking := false, invDone := true })) := if_pos hwalk
    have hlines := releaseMaint_linesMove ((walkCache s k).modCache k fun x => { x with walking := false, invDone := true })
    have hmarks := hlines.marks k
    have hempty := hlines.empty k
    rw [modCache_cache] at hmarks hempty
    exact ⟨_, hexec, congrArg Prod.fst hmarks, congrArg (fun m => m.2.1) hmarks, hempty (walkCache_lines s k),
      changesOnly_trans (changesOnly_trans (walkCache_changesOnly s k) (modCache_changesOnly _ _ _)) (releaseMaint_cachesMove _).only⟩
  · exact if_neg (by simp [hwalk])
  · obtain ⟨hcache, -, hbytes, hother⟩ := notedUpdate_facts s (.l1i c) 6 kBad false fun d => d.put (x * 4 + y) none
    refine ⟨_, exec_cacheError_l1i hpower hx hy, ?_⟩
    dsimp only
    rw [dropWay, hcache]
    exact ⟨put_lines _ _ _, rfl, hbytes, hother⟩
  · obtain ⟨hcopied, honly⟩ := poisonCopy_moves (cacheNote s (.l1d c) 6 kBad false) l
    have hother : s.changesOnly [.mem, .logs, .events, .freeCtr] (cacheFatal (poisonCopy (cacheNote s (.l1d c) 6 kBad false) l) (.l1d c) false) :=
      changesOnly_trans (changesOnly_trans (cacheNote_changesOnly s _ _ _ _) (changesOnly_mono honly (by simp)))
        (changesOnly_mono (cacheFatal_changesOnly _ _ _) (by simp))
    have hfatal : ((cacheFatal (poisonCopy (cacheNote s (.l1d c) 6 kBad false) l) (.l1d c) false).cache (.l1d c)).fatal =
        min 255 ((s.cache (.l1d c)).fatal + 1) := by
      have hcopy := congrArg (fun m => m.2.2) (hcopied.marks (.l1d c))
      rw [cacheNote_cache] at hcopy
      rw [cacheFatal_cache]
      exact congrArg (fun n => min 255 (n + 1)) hcopy
    have hexec := exec_cacheError_l1d hpower hx hy hline hdirty
    generalize cacheFatal (poisonCopy (cacheNote s (.l1d c) 6 kBad false) l) (.l1d c) false = u at hother hfatal hexec
    have haon : u.aon = s.aon := hother .aon (by simp)
    have hmode : u.mode = s.mode := hother .mode (by simp)
    have hrecent : (recentRestarts u true).length < 3 := by
      unfold recentRestarts State.now
      rw [haon, List.length_append]
      exact Nat.add_lt_add_right hfew 1
    obtain ⟨hrestarting, hsessions, hlines, hcount, hkept⟩ := mgmtRestart_l1d (hmode ▸ hfw) hrecent (some (.l1d c, x * 4 + y)) c
    exact ⟨_, hexec, hrestarting, hsessions, hlines, hcount.trans hfatal, hkept.trans hmode⟩
  · obtain ⟨hcache, hothers, hbytes, hother⟩ := notedUpdate_facts s .l2 4 kOne false
      fun d => d.put (x * 16 + y) (Tbl.get none s.mem.l2.lines (x * 16 + y))
    refine ⟨_, exec_cacheError_l2_fixed hpower hx hy hn, congrArg CacheState.par hcache, fun i => ?_, hothers, hbytes, hother⟩
    exact (congrArg (fun d : CacheState => Tbl.get none d.lines i) hcache).trans (Tbl_get_set_self _ _ _ _)
  · obtain ⟨hcache, -, hbytes, hother⟩ := notedUpdate_facts s .l2 4 kBad false fun d => d.put (x * 16 + y) none
    refine ⟨_, exec_cacheError_l2_bad hpower hx hy hbad hline hclean, ?_, congrArg CacheState.par hcache, hbytes, hother⟩
    exact (congrArg (fun d : CacheState => Tbl.get none d.lines _) hcache).trans (put_lines _ _ _)

end Sys2Proof.Proofs
end

section
/-! SUPPORT. Eave: samples, steps, and groups parked and run again (R468 to R475); settles O53. -/

namespace Sys2Proof.Proofs

open Sys2Proof Sys2Proof.Machine Sys2Proof.Laws

/-! ## A sample's readings (R470) -/

theorem logBroken_changesOnly (before s : State) : s.changesOnly [.logs, .events] (logBroken before s) :=
  changesOnly_foldl _ (fun u _ => changesOnly_ite (thermLog_changesOnly u _ _ _) (changesOnly_refl _ u)) _ s

theorem compareOne_changesOnly (s : State) (i : Nat) : s.changesOnly [.eave] (compareOne s i) :=
  changesOnly_ite (changesOnly_trans (withEave_changesOnly s _) (withEave_changesOnly _ _)) (withEave_changesOnly s _)

theorem takeReadings_changesOnly (s : State) (l : List (Fin 16 × Int)) : s.changesOnly [.eave, .logs, .events] (takeReadings s l) := by
  have hread (u : State) : u.changesOnly [.eave] (l.foldl (fun a r =>
      a.modSensor r.1.val (sampleOne (decide (s.now % 200 = 0)) (s.pval 0x0B03 r.1.val) r.2)) u) :=
    changesOnly_foldl _ (fun v r => withEave_changesOnly v _) l u
  have hcompared (u : State) : u.changesOnly [.eave] ((List.range 16).foldl compareOne u) := changesOnly_foldl _ compareOne_changesOnly _ u
  have htop (u : State) : u.changesOnly [.eave] (retakeTmax u) := withEave_changesOnly u _
  unfold takeReadings
  exact changesOnly_trans (changesOnly_mono (changesOnly_trans (hread s) (hcompared _)) (by simp))
    (changesOnly_trans (changesOnly_mono (logBroken_changesOnly s _) (by simp)) (changesOnly_mono (htop _) (by simp)))

theorem compareOne_step (s : State) (i : Nat) : (compareOne s i).eave.step = s.eave.step := by
  unfold compareOne
  dsimp only
  split <;> rfl

theorem takeReadings_step (s : State) (l : List (Fin 16 × Int)) : (takeReadings s l).eave.step = s.eave.step := by
  have hread (u : State) : (l.foldl (fun a r =>
      a.modSensor r.1.val (sampleOne (decide (s.now % 200 = 0)) (s.pval 0x0B03 r.1.val) r.2)) u).eave.step = u.eave.step :=
    List.foldlRecOn (motive := fun (v : State) => v.eave.step = u.eave.step) l _ rfl fun _ hv _ _ => hv
  have hcompared (m : List Nat) (u : State) : (m.foldl compareOne u).eave.step = u.eave.step :=
    List.foldlRecOn (motive := fun (v : State) => v.eave.step = u.eave.step) m _ rfl fun v hv i _ => (compareOne_step v i).trans hv
  have hlogged (u : State) : (logBroken s u).eave = u.eave := logBroken_changesOnly s u .eave (by simp)
  have htop (u : State) : (retakeTmax u).eave.step = u.eave.step := rfl
  unfold takeReadings
  rw [htop, hlogged, hcompared, hread]

theorem foldl_top (f : Nat → Int) (l : List Nat) (a : Nat × Int) :
    a.2 ≤ (l.foldl (fun (a : Nat × Int) i => if a.2 < f i then (i, f i) else a) a).2 ∧
    ∀ i ∈ l, f i ≤ (l.foldl (fun (a : Nat × Int) i => if a.2 < f i then (i, f i) else a) a).2 := by
  induction l generalizing a with
  | nil => simp
  | cons x l ih =>
    obtain ⟨hstart, hall⟩ := ih (if a.2 < f x then (x, f x) else a)
    have hfirst : a.2 ≤ (if a.2 < f x then (x, f x) else a).2 ∧ f x ≤ (if a.2 < f x then (x, f x) else a).2 := by
      split
      · next h => exact ⟨h.le, le_refl _⟩
      · next h => exact ⟨le_refl _, not_lt.1 h⟩
    refine ⟨hfirst.1.trans hstart, fun i hi => ?_⟩
    rcases List.mem_cons.1 hi with rfl | hi
    · exact hfirst.2.trans hstart
    · exact hall i hi

/-- Tmax is the highest of the readings. -/
theorem takeReadings_tmax (s : State) (l : List (Fin 16 × Int)) {i : Nat} (hi : i < 16) :
    ((takeReadings s l).eave.sensor i).tj ≤ (takeReadings s l).eave.tmax := by
  have htop (u : State) : ((retakeTmax u).eave.sensor i).tj ≤ (retakeTmax u).eave.tmax :=
    (foldl_top (fun i => (u.eave.sensor i).tj) (List.range 16) (0, (u.eave.sensor 0).tj)).2 i (List.mem_range.2 hi)
  exact htop _

/-! ## The step in force (R473) -/

theorem secs_five : secs 5 = 1000000 := rfl

theorem secs_ten : secs 10 = 2000000 := rfl

theorem secs_sixty : secs 60 = 12000000 := rfl

/-- The governor's records at a sample leave its step, its sensors and Tmax. -/
theorem noteSample_eave (s : State) : (noteSample s).eave.step = s.eave.step ∧ (noteSample s).eave.sensors = s.eave.sensors ∧
    (noteSample s).eave.tmax = s.eave.tmax := ⟨rfl, rfl, rfl⟩

theorem noteSample_sensor (s : State) (i : Nat) : (noteSample s).eave.sensor i = s.eave.sensor i := rfl

theorem noteSample_changesOnly (s : State) : s.changesOnly [.eave] (noteSample s) := withEave_changesOnly s _

/-- A step above the one in force is engaged at once. -/
theorem govern_raised {s : State} (h : s.eave.step < stepAsked s) (b : Bool) : govern s b = setStep s (stepAsked s) := if_pos h

theorem govern_idle {s : State} (hstep : s.eave.step = 0) (hasked : stepAsked s = 0) (b : Bool) : govern s b = s := by
  unfold govern
  dsimp only
  rw [if_neg (by omega), if_neg (by omega), if_neg (by omega), if_neg (by omega)]

/-- A step set and reported, before the mode follows. -/
def stepSet (s : State) (n : Nat) : State :=
  let e := { s.eave with step := n, step1At := if s.eave.step = 0 then s.now else s.eave.step1At
                         step1Hot := s.eave.step1Hot || decide (s.eave.step = 0), parkAt := if n = 3 then s.now else s.eave.parkAt }
  let s1 : State := { s with eave := { e with coolSince := e.cooling s.now true } }
  eaveEvent (s1.thermLog 1 s1.eave.hottest 0xFF)

theorem setStep_eq (s : State) (n : Nat) : setStep s n =
    if n ≠ 4 then (stepSet s n).constrain else if (stepSet s n).mode = .safeStop then stepSet s n else (stepSet s n).enterSafeStop mcEave := rfl

theorem stepSet_changesOnly (s : State) (n : Nat) : s.changesOnly [.eave, .logs, .events] (stepSet s n) :=
  changesOnly_trans (changesOnly_mono (withEave_changesOnly s _) (by simp))
    (changesOnly_trans (changesOnly_mono (thermLog_changesOnly _ _ _ _) (by simp)) (changesOnly_mono (eaveEvent_changesOnly _) (by simp)))

/-- A report changes of the governor only the temperature reported last. -/
theorem eaveEvent_eave (s : State) : (eaveEvent s).eave = { s.eave with eventTj := s.eave.tmax } := rfl

theorem stepSet_eave (s : State) (n : Nat) : (stepSet s n).eave.step = n ∧ (stepSet s n).eave.sensors = s.eave.sensors ∧
    (stepSet s n).eave.tmax = s.eave.tmax := by
  have htherm (u : State) (x : Nat) : (u.thermLog 1 x 0xFF).eave = u.eave := thermLog_changesOnly u 1 x 0xFF .eave (by simp)
  unfold stepSet
  dsimp only
  rw [eaveEvent_eave, htherm]
  exact ⟨rfl, rfl, rfl⟩

theorem setStep_eave (s : State) (n : Nat) : (setStep s n).eave.step = n ∧ (setStep s n).eave.sensors = s.eave.sensors ∧
    (setStep s n).eave.tmax = s.eave.tmax := by
  have hsame : (setStep s n).eave = (stepSet s n).eave := by
    rw [setStep_eq]
    split
    · exact constrain_changesOnly _ .eave (by simp)
    · split
      · rfl
      · exact enterSafeStop_narrow _ _ .eave (by simp)
  rw [hsame]
  exact stepSet_eave s n

theorem setStep_safeStop (s : State) : (setStep s 4).mode = .safeStop := by
  rw [setStep_eq, if_neg (by simp)]
  split
  · next h => exact h
  · exact enterSafeStop_mode _ _

/-- A step below the fourth constrains an engine, and no more. -/
theorem setStep_below {n : Nat} (hn : n ≠ 4) (s : State) : s.changesOnly [.mode, .eave, .logs, .events, .mgmt, .freeCtr] (setStep s n) := by
  rw [setStep_eq, if_pos hn]
  exact changesOnly_trans (changesOnly_mono (stepSet_changesOnly s n) (by simp)) (changesOnly_mono (constrain_changesOnly _) (by simp))

theorem constrain_mode_of_cause {s : State} (h : s.constrainedCause = true) : s.constrain.mode = if s.mode = .active then .constrained else s.mode := by
  rw [State.constrain, if_pos h]
  dsimp only
  split
  · exact enterMode_mode _ _ _
  · rfl

theorem setStep_two_mode (s : State) : (setStep s 2).mode = if s.mode = .active then .constrained else s.mode := by
  have hcause : (stepSet s 2).constrainedCause = true := by
    rw [State.constrainedCause, (stepSet_eave s 2).1]
    rfl
  rw [setStep_eq, if_pos (by simp), constrain_mode_of_cause hcause, stepSet_changesOnly s 2 .mode (by simp)]

/-- A sample that trips no sensor goes to the governor. -/
theorem exec_eaveSample {l : List (Fin 16 × Int)} {s : State} (hsupply : s.aon.supply = true) (htrip : tripped (takeReadings s l).eave = none) :
    exec (.eaveSample l) s = .next (govern (noteSample (takeReadings s l)) ((takeReadings s l).eave.allRead && !s.eave.allRead)) := by
  change execEaveSample l s = _
  unfold execEaveSample
  rw [if_neg (by simp [hsupply])]
  dsimp only
  rw [htrip]

theorem exec_eaveSample_trip {l : List (Fin 16 × Int)} {i : Nat} {s : State} (hsupply : s.aon.supply = true) (hmode : s.mode ≠ .dark)
    (htrip : tripped (takeReadings s l).eave = some i) : exec (.eaveSample l) s =
      .next { (takeReadings s l).enterDark 5 with aon := { ((takeReadings s l).enterDark 5).aon with tripSensor := i } } := by
  change execEaveSample l s = _
  unfold execEaveSample
  rw [if_neg (by simp [hsupply])]
  dsimp only
  rw [htrip]
  exact if_neg hmode

/-! ## Parking (R474) -/

theorem shortenRun_changesOnly (s : State) (b : Nat) : s.changesOnly [.bays] (shortenRun s b) := by
  unfold shortenRun
  dsimp only
  split
  · exact changesOnly_refl _ s
  · exact modBay_changesOnly s b _

theorem shortenRun_bay_other (s : State) {b n : Nat} (h : n ≠ b) : (shortenRun s b).bay n = s.bay n := by
  unfold shortenRun
  dsimp only
  split
  · rfl
  · exact modBay_bay_other s _ h

theorem boundaryStop_bay_other (s : State) {b n : Nat} (h : n ≠ b) : (s.boundaryStop b).bay n = s.bay n := by
  unfold State.boundaryStop
  split
  · split
    · exact modBay_bay_other s _ h
    · rfl
  · rfl

/-- The runs of a group end: writes at the block boundary, reads and verifies at their block. -/
def runsEnd (s : State) (g : Nat) : State := (groupBays g).foldl (fun a b => shortenRun (a.boundaryStop b) b) s

theorem runsEnd_changesOnly (s : State) (g : Nat) : s.changesOnly [.bays] (runsEnd s g) :=
  changesOnly_foldl _ (fun u b => changesOnly_trans (boundaryStop_changesOnly u b) (shortenRun_changesOnly _ b)) _ s

theorem runsEnd_bay_other (s : State) {g b : Nat} (h : b / 4 ≠ g) : (runsEnd s g).bay b = s.bay b := by
  have hfold (l : List Nat) (hl : b ∉ l) (u : State) : (l.foldl (fun a b => shortenRun (a.boundaryStop b) b) u).bay b = u.bay b := by
    induction l generalizing u with
    | nil => rfl
    | cons x l ih =>
      obtain ⟨hx, hl⟩ := not_or.1 (fun h => hl (List.mem_cons.2 h))
      exact (ih hl _).trans ((shortenRun_bay_other _ hx).trans (boundaryStop_bay_other u hx))
  exact hfold _ (fun hb => h (mem_groupBays.1 hb)) s

/-- A beam off ridge timing, as parking leaves it. -/
def Beam.unlocked (x : Beam) : Beam := { x with trLock := false, defect := false }

/-- The beams of a group but those of the timing spirals go off. -/
def beamsOff (s : State) (g : Nat) : State :=
  (groupBays g).foldl (fun a b => ([1, 2, 3, 4, 5, 6, 7] : List Nat).foldl (fun c n => c.modBeam (8 * b + n) Beam.unlocked) a) s

/-- The beams that parking a group puts off. -/
def parkedBeams (g : Nat) : List Nat := (groupBays g).flatMap fun b => ([1, 2, 3, 4, 5, 6, 7] : List Nat).map (8 * b + ·)

theorem beamsOff_eq (s : State) (g : Nat) : beamsOff s g = (parkedBeams g).foldl (fun a k => a.modBeam k Beam.unlocked) s := by
  unfold beamsOff parkedBeams
  rw [List.foldl_flatMap]
  simp only [List.foldl_map]

theorem beamsOff_changesOnly (s : State) (g : Nat) : s.changesOnly [.beams] (beamsOff s g) := by
  rw [beamsOff_eq]
  exact changesOnly_foldl _ (fun u k => modBeam_changesOnly u k _) _ s

theorem foldl_unlocked_other (l : List Nat) {k : Nat} (h : k ∉ l) (s : State) : (l.foldl (fun a k => a.modBeam k Beam.unlocked) s).beam k = s.beam k := by
  induction l generalizing s with
  | nil => rfl
  | cons x l ih =>
    obtain ⟨hx, hl⟩ := not_or.1 (fun hk => h (List.mem_cons.2 hk))
    exact (ih hl _).trans (modBeam_beam_other s _ hx)

theorem foldl_unlocked (l : List Nat) {k : Nat} (h : k ∈ l) (s : State) : ((l.foldl (fun a k => a.modBeam k Beam.unlocked) s).beam k).trLock = false := by
  induction l generalizing s with
  | nil => simp at h
  | cons x l ih =>
    by_cases hk : k ∈ l
    · exact ih hk _
    · obtain rfl : k = x := (List.mem_cons.1 h).resolve_right hk
      rw [List.foldl_cons, foldl_unlocked_other l hk, modBeam_beam]
      rfl

theorem mem_parkedBeams {g b n : Nat} (hb : b / 4 = g) (h1 : 1 ≤ n) (h7 : n ≤ 7) : 8 * b + n ∈ parkedBeams g := by
  refine List.mem_flatMap.2 ⟨b, mem_groupBays.2 hb, List.mem_map.2 ⟨n, ?_, rfl⟩⟩
  simp only [List.mem_cons, List.not_mem_nil, or_false]
  omega

theorem timing_not_parked (g b : Nat) : 8 * b ∉ parkedBeams g := by
  intro h
  obtain ⟨x, -, hx⟩ := List.mem_flatMap.1 h
  obtain ⟨n, hn, heq⟩ := List.mem_map.1 hx
  simp only [List.mem_cons, List.not_mem_nil, or_false] at hn
  omega

/-- The governor with a group more parked. -/
def parkNoted (s : State) (g : GroupId) (cap : Bool) : State :=
  { s with eave := { s.eave with parked := s.eave.parked ++ [(g, cap)], parkAt := s.now, unparkSince := none } }

theorem parkGroup_eq (s : State) (g : GroupId) (cap : Bool) : parkGroup s g cap =
    (beamsOff (runsEnd (parkNoted s g cap) g.val) g.val).thermLog 2 (beamsOff (runsEnd (parkNoted s g cap) g.val) g.val).eave.hottest g.val := rfl

theorem parkGroup_changesOnly (s : State) (g : GroupId) (cap : Bool) : s.changesOnly [.eave, .bays, .beams, .logs, .events] (parkGroup s g cap) := by
  rw [parkGroup_eq]
  exact changesOnly_trans (changesOnly_mono (withEave_changesOnly s _) (by simp)) (changesOnly_trans (changesOnly_mono (runsEnd_changesOnly _ _) (by simp))
    (changesOnly_trans (changesOnly_mono (beamsOff_changesOnly _ _) (by simp)) (changesOnly_mono (thermLog_changesOnly _ _ _ _) (by simp))))

theorem parkGroup_eave (s : State) (g : GroupId) (cap : Bool) :
    (parkGroup s g cap).eave = { s.eave with parked := s.eave.parked ++ [(g, cap)], parkAt := s.now, unparkSince := none } := by
  rw [parkGroup_eq, thermLog_changesOnly _ _ _ _ .eave (by simp), beamsOff_changesOnly _ _ .eave (by simp), runsEnd_changesOnly _ _ .eave (by simp)]
  rfl

theorem parkGroup_beams (s : State) (g : GroupId) (cap : Bool) (k : Nat) : (parkGroup s g cap).beam k =
    ((parkedBeams g.val).foldl (fun a k => a.modBeam k Beam.unlocked) (runsEnd (parkNoted s g cap) g.val)).beam k := by
  rw [parkGroup_eq, beam_eq_of_beams (thermLog_changesOnly _ _ _ _ .beams (by simp)), beamsOff_eq]

theorem parkGroup_beam_off (s : State) (g : GroupId) (cap : Bool) {b n : Nat} (hb : b / 4 = g.val) (h1 : 1 ≤ n) (h7 : n ≤ 7) :
    ((parkGroup s g cap).beam (8 * b + n)).trLock = false := by
  rw [parkGroup_beams]
  exact foldl_unlocked _ (mem_parkedBeams hb h1 h7) _

theorem parkGroup_beam_timing (s : State) (g : GroupId) (cap : Bool) (b : Nat) : (parkGroup s g cap).beam (8 * b) = s.beam (8 * b) := by
  rw [parkGroup_beams, foldl_unlocked_other _ (timing_not_parked g.val b), beam_eq_of_beams (runsEnd_changesOnly _ _ .beams (by simp))]
  rfl

theorem parkGroup_bay_other (s : State) (g : GroupId) (cap : Bool) {b : Nat} (h : b / 4 ≠ g.val) : (parkGroup s g cap).bay b = s.bay b := by
  have hbays (u : State) (x : Nat) : ((beamsOff u g.val).thermLog 2 x g.val).bays = u.bays :=
    (thermLog_changesOnly _ _ _ _ .bays (by simp)).trans (beamsOff_changesOnly u g.val .bays (by simp))
  rw [parkGroup_eq, State.bay, hbays]
  exact runsEnd_bay_other (parkNoted s g cap) h

theorem parkNext_some {s : State} {g : GroupId} (h : nextGroup s = some g) (cap : Bool) : parkNext s cap = parkGroup s g cap := by
  rw [parkNext, h]

/-- The groups that are not parked. -/
def unparked (s : State) : List GroupId := ([0, 1, 2, 3] : List GroupId).filter (fun g => !s.eave.parked.any (fun p => p.1 == g))

theorem nextGroup_none {s : State} (h : nextGroup s = none) : unparked s = [] := by
  unfold nextGroup at h
  dsimp only at h
  split at h
  · next hfree => exact hfree
  · cases h

/-- The group to park next is one that is not parked. -/
theorem nextGroup_mem {s : State} {g : GroupId} (h : nextGroup s = some g) : g ∈ unparked s := by
  unfold nextGroup at h
  dsimp only at h
  split at h
  · cases h
  · next a r hfree =>
    have hpick (l : List GroupId) (x : GroupId) : l.foldl (fun t g => if parksFirst s g.val t.val then g else t) x ∈ x :: l := by
      induction l generalizing x with
      | nil => simp
      | cons y l ih =>
        refine List.mem_cons.2 ((List.mem_cons.1 (ih (if parksFirst s y.val x.val then y else x))).elim (fun h => ?_) fun h => .inr (List.mem_cons_of_mem _ h))
        rw [List.foldl_cons, h]
        split
        · exact .inr List.mem_cons_self
        · exact .inl rfl
    have hmem := hpick r a
    rw [Option.some.inj h, ← hfree] at hmem
    exact hmem

theorem parkGroup_unparked (s : State) (g : GroupId) (cap : Bool) : unparked (parkGroup s g cap) = (unparked s).filter (fun x => !(g == x)) := by
  unfold unparked
  rw [parkGroup_eave, List.filter_filter]
  refine List.filter_congr fun x _ => ?_
  simp [Bool.and_comm]

theorem parkNext_changesOnly (s : State) (cap : Bool) : s.changesOnly [.eave, .bays, .beams, .logs, .events] (parkNext s cap) := by
  unfold parkNext
  split
  · exact parkGroup_changesOnly s _ cap
  · exact changesOnly_refl _ s

theorem parkAll_changesOnly (n : Nat) (s : State) : s.changesOnly [.eave, .bays, .beams, .logs, .events] (parkAll n s) := by
  induction n generalizing s with
  | zero => exact changesOnly_refl _ s
  | succ n ih => exact changesOnly_trans (parkNext_changesOnly s false) (ih _)

/-- Parking `n` times parks all of at most `n` groups. -/
theorem parkAll_unparked (n : Nat) (s : State) (h : (unparked s).length ≤ n) : unparked (parkAll n s) = [] := by
  induction n generalizing s with
  | zero => exact List.length_eq_zero_iff.1 (Nat.le_zero.1 h)
  | succ n ih =>
    refine ih _ ?_
    cases hnext : nextGroup s with
    | none =>
      have hsame : parkNext s false = s := by rw [parkNext, hnext]
      rw [hsame, nextGroup_none hnext]
      exact Nat.zero_le n
    | some g =>
      have hmem := nextGroup_mem hnext
      have hless : ((unparked s).filter (fun x => !(g == x))).length < (unparked s).length :=
        List.length_filter_lt_length_iff_exists.2 ⟨g, hmem, by simp⟩
      rw [parkNext_some hnext, parkGroup_unparked]
      omega

theorem parked_of_unparked_nil {s : State} (h : unparked s = []) (g : GroupId) : s.eave.parked.any (fun p => p.1 == g) = true := by
  have hall : g ∈ ([0, 1, 2, 3] : List GroupId) := by revert g; decide
  by_contra hnot
  have hmem : g ∈ unparked s := List.mem_filter.2 ⟨hall, by rw [Bool.eq_false_of_not_eq_true hnot]; rfl⟩
  rw [h] at hmem
  cases hmem

/-! ## Groups that run again (R468, R474) -/

/-- The beams of a group powered, with the gain of the layer's last value. -/
def beamsOn (s : State) (g : Nat) : State :=
  (groupBays g).foldl (fun a b => ([1, 2, 3, 4, 5, 6, 7] : List Nat).foldl (fun c n =>
    c.modBeam (8 * b + n) fun x => { x with gain := match Tbl.get 0 x.gainOf (a.bay b).chan.layer with | 0 => x.gain | v + 1 => v }) a) s

theorem beamsOn_changesOnly (s : State) (g : Nat) : s.changesOnly [.beams] (beamsOn s g) :=
  changesOnly_foldl _ (fun u _ => changesOnly_foldl _ (fun v _ => modBeam_changesOnly v _ _) _ u) _ s

/-- The governor with a group no longer parked. -/
def unparkNoted (s : State) (g : GroupId) : State := { s with eave := { s.eave with parked := s.eave.parked.filter (fun p => p.1 != g) } }

theorem unparked_eave (s : State) (g : GroupId) (x : Nat) : ((beamsOn (unparkNoted s g) g.val).thermLog 3 x g.val).eave =
    { s.eave with parked := s.eave.parked.filter (fun p => p.1 != g) } :=
  (thermLog_changesOnly _ _ _ _ .eave (by simp)).trans (beamsOn_changesOnly _ _ .eave (by simp))

/-- Outside step 3 a group runs again and the step stays. -/
theorem unparkGroup_eq {s : State} (h : s.eave.step ≠ 3) (g : GroupId) :
    unparkGroup s g = (beamsOn (unparkNoted s g) g.val).thermLog 3 (beamsOn (unparkNoted s g) g.val).eave.hottest g.val := by
  have hstep := congrArg Eave.step (unparked_eave s g (beamsOn (unparkNoted s g) g.val).eave.hottest)
  exact if_neg fun hthree => h (hstep ▸ hthree.1)

theorem unparkGroup_changesOnly {s : State} (h : s.eave.step ≠ 3) (g : GroupId) : s.changesOnly [.eave, .beams, .logs, .events] (unparkGroup s g) := by
  rw [unparkGroup_eq h]
  exact changesOnly_trans (changesOnly_mono (withEave_changesOnly s _) (by simp)) (changesOnly_trans (changesOnly_mono (beamsOn_changesOnly _ _) (by simp))
    (changesOnly_mono (thermLog_changesOnly _ _ _ _) (by simp)))

theorem unparkGroup_eave {s : State} (h : s.eave.step ≠ 3) (g : GroupId) :
    (unparkGroup s g).eave = { s.eave with parked := s.eave.parked.filter (fun p => p.1 != g) } := by
  rw [unparkGroup_eq h, unparked_eave]

/-- The governor as a group of its own begins to run again. -/
def coolNoted (s : State) : State := { s with eave := { s.eave with unparkSince := some s.now } }

theorem coolNoted_changesOnly (s : State) : s.changesOnly [.eave] (coolNoted s) := withEave_changesOnly s _

/-- The governor's groups run again once the engine has been cool for 10 s. -/
theorem exec_groupUnpark {s : State} {g : GroupId} {u : Nat} (hfw : s.fwRuns = true) (hsince : s.eave.unparkSince = some u)
    (hcool : u + 2000000 ≤ s.now) (hlast : (s.eave.parkedBy false).getLast? = some g) :
    exec .groupUnpark s = .next (unparkGroup (coolNoted s) g) := by
  have hdue : decide (u + secs 10 ≤ s.now) = true := decide_eq_true (by rw [secs_ten]; exact hcool)
  change execGroupUnpark s = _
  unfold execGroupUnpark
  refine (if_neg (by simp [hfw])).trans ?_
  simp only [hsince, hdue, hlast, if_true]
  exact (rfl :)

theorem exec_groupUnpark_none {s : State} (h : s.eave.parked = []) : exec .groupUnpark s = .next s := by
  have hby (cap : Bool) : (s.eave.parkedBy cap).getLast? = none := by rw [Eave.parkedBy, h]; rfl
  change execGroupUnpark s = _
  unfold execGroupUnpark
  dsimp only
  split
  · rfl
  · rw [hby, hby, ite_self, ite_self]

/-- Settles O53: a sample's readings are folded to their top; `setStep` alone changes the step, and a group parked or running again
changes the governor's list, its own beams and its own bays. -/
theorem eaveStepsAndParksGroups : Obligations.EaveStepsAndParksGroups := by
  unfold Obligations.EaveStepsAndParksGroups
  refine ⟨fun l s hsupply => if_pos hsupply, fun l i s hsupply hmode htrip => ?_, fun l s hsupply htrip hasked => ?_,
    fun l s hsupply htrip hstep hasked => ?_, fun t0 s hcool hstep hlong => ?_, fun t0 s hcool hshort => ?_,
    fun s hstep hhot hread hlong => ?_, fun s hshort => ?_, fun g s hfw hstep hgov hnone hnext => ?_, fun s hfw hstep hgov => ?_,
    fun g s hfw hstep hgov hsome hlong hnext => ?_, fun s hshort => ?_, fun g s hfw hdue hnext => ?_, fun s hdue => ?_,
    fun g u s hfw hsince hcool hlast hstep => ?_, fun s hnone => exec_groupUnpark_none hnone⟩
  · obtain ⟨hdark, hpower, hcause, -, hstitch, -⟩ := enterDark_facts (takeReadings s l) 5
    have haon : (takeReadings s l).aon = s.aon := takeReadings_changesOnly s l .aon (by simp)
    refine ⟨_, exec_eaveSample_trip hsupply hmode htrip, ?_⟩
    dsimp only
    rw [hstitch, haon]
    exact ⟨hdark, rfl, hcause, hpower, rfl⟩
  · obtain ⟨hset, hsensors, htmax⟩ := setStep_eave (noteSample (takeReadings s l)) (stepAsked (noteSample (takeReadings s l)))
    obtain ⟨-, hkept, htop⟩ := noteSample_eave (takeReadings s l)
    refine ⟨_, exec_eaveSample hsupply htrip, ?_⟩
    dsimp only
    rw [govern_raised hasked]
    refine ⟨hset, hsensors.trans hkept, htmax.trans htop, fun hfour => ?_⟩
    rw [hset] at hfour
    rw [hfour]
    exact setStep_safeStop _
  · obtain ⟨hkept, hsensors, htop⟩ := noteSample_eave (takeReadings s l)
    have hzero : (noteSample (takeReadings s l)).eave.step = 0 := by rw [hkept, takeReadings_step, hstep]
    have hother : s.changesOnly [.eave, .logs, .events] (noteSample (takeReadings s l)) :=
      changesOnly_trans (takeReadings_changesOnly s l) (changesOnly_mono (noteSample_changesOnly _) (by simp))
    refine ⟨_, exec_eaveSample hsupply htrip, ?_⟩
    dsimp only
    rw [govern_idle hzero hasked]
    refine ⟨hzero, hother .mode (by simp), fun i hi => ?_, hother⟩
    rw [noteSample_sensor, htop]
    exact takeReadings_tmax s l hi
  · have hexec : exec .eaveReleaseDwell s = .next (setStep s (s.eave.step - 1)) := by
      change execEaveReleaseDwell s = _
      unfold execEaveReleaseDwell
      rw [hcool]
      exact if_pos ⟨hstep, by rw [secs_ten]; exact hlong⟩
    obtain ⟨hset, hsensors, -⟩ := setStep_eave s (s.eave.step - 1)
    exact ⟨_, hexec, hset, hsensors, setStep_below (by omega) s⟩
  · change execEaveReleaseDwell s = _
    unfold execEaveReleaseDwell
    rw [hcool]
    exact if_neg fun h => absurd h.2 (by rw [secs_ten]; exact Nat.not_le.2 hshort)
  · exact ⟨_, if_pos ⟨hstep, hhot, hread, by rw [secs_sixty]; exact hlong⟩, (setStep_eave s 2).1, setStep_two_mode s, setStep_below (by simp) s⟩
  · exact if_neg fun h => absurd h.2.2.2 (by rw [secs_sixty]; exact Nat.not_le.2 hshort)
  · have hexec : exec .groupPark s = .next (parkGroup s g false) := by
      change execGroupPark s = _
      unfold execGroupPark
      rw [if_neg (by simp [hfw]), if_neg (by omega), if_pos ⟨hstep, hnone⟩, parkNext_some hnext]
    have hother := parkGroup_changesOnly s g false
    have heave := parkGroup_eave s g false
    exact ⟨_, hexec, congrArg Eave.parked heave, congrArg Eave.parkAt heave, fun b n hb h1 h7 => parkGroup_beam_off s g false hb h1 h7,
      fun b _ => parkGroup_beam_timing s g false b, fun b hb => parkGroup_bay_other s g false hb, hother .mode (by simp), hother⟩
  · have hexec : exec .groupPark s = .next (parkAll 4 s) := by
      change execGroupPark s = _
      unfold execGroupPark
      rw [if_neg (by simp [hfw]), if_pos ⟨hstep, hgov⟩]
    exact ⟨_, hexec, parked_of_unparked_nil (parkAll_unparked 4 s (List.length_filter_le _ _)), parkAll_changesOnly 4 s⟩
  · have hexec : exec .groupParkRepeat s = .next (parkNext s false) := if_pos ⟨hfw, hstep, hgov, hsome, by rw [secs_five]; exact hlong⟩
    rw [parkNext_some hnext] at hexec
    exact ⟨_, hexec, congrArg Eave.parked (parkGroup_eave s g false), parkGroup_changesOnly s g false⟩
  · exact if_neg fun h => absurd h.2.2.2.2 (by rw [secs_five]; exact Nat.not_le.2 hshort)
  · have hexec : exec .capParkTimer s = .next (parkNext s true) := if_pos ⟨hfw, hdue⟩
    rw [parkNext_some hnext] at hexec
    exact ⟨_, hexec, congrArg Eave.parked (parkGroup_eave s g true), parkGroup_changesOnly s g true⟩
  · exact if_neg fun h => by simp [hdue] at h
  · have heave := unparkGroup_eave (s := coolNoted s) hstep g
    have hother : s.changesOnly [.eave, .beams, .logs, .events] (unparkGroup (coolNoted s) g) :=
      changesOnly_trans (changesOnly_mono (coolNoted_changesOnly s) (by simp)) (unparkGroup_changesOnly (s := coolNoted s) hstep g)
    refine ⟨_, exec_groupUnpark hfw hsince hcool hlast, ?_⟩
    dsimp only
    rw [heave]
    exact ⟨rfl, rfl, rfl, hother .mode (by simp), hother⟩

end Sys2Proof.Proofs
end
